-- ==== Sys2Proof/Word.lean ====
section
/-! DEFINITION. Word.lean: the word types of the ZK960 (R2: registers are 32 bits wide and little-endian). -/

namespace Sys2Proof

/-- A register or memory dword (R2). -/
abbrev Word := BitVec 32

/-- One byte of a memory window (R4). -/
abbrev Byte := BitVec 8

/-- An IEEE 754 binary32 value, held as its 32 bits. -/
abbrev F32 := BitVec 32

/-- Byte `i` of a dword, byte 0 the least significant (R2). -/
def Word.byte (w : Word) (i : Nat) : Byte := (w >>> (8 * i)).setWidth 8

/-- The dword whose bytes, lowest first, are the four given (R2). -/
def Word.ofBytes (b0 b1 b2 b3 : Byte) : Word :=
  b0.setWidth 32 ||| (b1.setWidth 32 <<< 8) ||| (b2.setWidth 32 <<< 16) ||| (b3.setWidth 32 <<< 24)

/-- A signed reading of the low `n` bits of a number (two's complement). -/
def signed (n v : Nat) : Int :=
  if v % 2 ^ n < 2 ^ (n - 1) then (v % 2 ^ n : Nat) else ((v % 2 ^ n : Nat) : Int) - (2 ^ n : Nat)

/-- The `n`-bit two's complement code of an integer. -/
def unsigned (n : Nat) (v : Int) : Nat := (v % ((2 ^ n : Nat) : Int)).toNat

/-- Increment that saturates at `top` (the counters of the register chapters). -/
def satAdd (top a b : Nat) : Nat := min top (a + b)

end Sys2Proof
end

