-- ==== Sys2Proof/Syntax.lean ====
section
/-! DEFINITION. Syntax.lean: the commands of the block, one constructor per row of the opcode table, and the plain
types of their operands. A command's operands are what its row is given from outside: an address and a value, the
contents of a queue entry read from host memory, a measured sample, or the outcome of an external act. -/

namespace Sys2Proof

/-- The outcome of the SECDED check on a memory word that is read (R54). -/
inductive Ecc where
  | clean | corrected | uncorrectable
  deriving DecidableEq, Repr

/-- Who makes a register access: host software through BAR0, or a thread through port space (R11). -/
inductive Port where
  | host
  | thread (t : Fin 16)
  deriving DecidableEq, Repr

/-- A submission entry as it is read from host memory (Table 5-2). -/
structure SqEntry where
  opcode : BitVec 8
  cid : BitVec 16
  /-- Dword 0 bits [15:8] and dword 1: reserved, 0. -/
  rsvd0 : BitVec 8 := 0
  rsvd1 : Word := 0
  /-- Dwords 2 to 15. -/
  dw : Vector Word 14 := Vector.replicate 14 0
  deriving DecidableEq, Repr

/-- The entry that sixteen dwords spell (Table 5-2). -/
def SqEntry.ofDwords (v : Vector Word 16) : SqEntry :=
  { opcode := v[0].extractLsb' 0 8, rsvd0 := v[0].extractLsb' 8 8, cid := v[0].extractLsb' 16 16, rsvd1 := v[1],
    dw := Vector.ofFn fun i => v[i.val + 2] }

/-- How a Racking transaction ends (R125, R128, R129). -/
inductive TxnResult where
  | ok
  /-- Completed with a corrected DRAM error. -/
  | dramCorr
  /-- Completed with poisoned data: an uncorrectable DRAM word at this address. -/
  | dramUncorr (addr : Nat)
  /-- Unsupported Request, Completer Abort, a poisoned TLP, an address out of range: the cause code of RCK_CH_STATUS. -/
  | busError (cause : BitVec 3)
  deriving DecidableEq, Repr

/-- What an upward frame carries of one analogue input (R275, R277, R278): the code sampled at the tick boundary, the codes
of the two shunt samples where the input is a shunt, and the voltage that a code stands for where it senses one, in volts. -/
structure Ain where
  code : Int := 0
  shunt1 : Int := 0
  shunt2 : Int := 0
  volts : F32 := 0
  deriving DecidableEq, Repr

/-- A supply watched by a UVLO (R294). -/
inductive UvSupply where
  | vgl (v : Fin 4)
  | bst (h : Fin 48)
  deriving DecidableEq, Repr

/-- A CoeneLink message (R430): TYPE, DEST, SRC and the 14 bytes of content. -/
structure ChnMsg where
  ty : BitVec 8
  dest : BitVec 4
  src : BitVec 4
  body : Vector Byte 14
  deriving DecidableEq, Repr

/-- A frame as a port receives it (R429): the characters from the tick field to the last of the CRC, whether a code error was
met, and the arrival of its K27.7 after this unit's own tick boundary in 0.8 ns units. -/
structure ChnFrame where
  bytes : List Byte
  codeErr : Bool := false
  arrive : Nat := 0
  deriving DecidableEq, Repr

/-- A vintage image (Table 2-1), part by part. The spec does not give the byte layout of the Header, the staging-bank image
and the timing certificate, so each is held as its bytes and as what it says. (DESIGN CHOICE: log 83) -/
structure Image where
  /-- Header: the part, its magic, format version, VERSION and FLOOR, the sizes of the six parts that follow and the SHA-256
  hash of each. -/
  header : List Byte := []
  magic : BitVec 16 := 0x5649
  format : Word := 0
  version : Word
  floor : Word
  sizes : List Nat := []
  hashes : List (BitVec 256) := []
  /-- Staging-bank image: the part, and the register words whose ST fields differ from their reset value, by rising BAR0
  offset. -/
  bank : List Byte := []
  stage : List (Nat × Word) := []
  program : List Byte := []
  data : List Byte := []
  coef : List Byte := []
  expo : List Byte := []
  /-- Timing certificate: the part, the program-image hash it is bound to, and the worst case of each thread it names. -/
  cert : List Byte := []
  certHash : BitVec 256 := 0
  worst : List (Nat × Nat) := []
  /-- The Signature part: its chain block and the signature (R393). -/
  chain : List Byte := []
  sig : List Byte := []
  deriving DecidableEq, Repr

/-- The parts between the Header and the Signature, in order. -/
def Image.parts (img : Image) : List (List Byte) := [img.bank, img.program, img.data, img.coef, img.expo, img.cert]


/-- The commands: one constructor per row of the opcode table. -/
inductive Instr where
  /-- REGISTER_WRITE (R5): A write to a register that has no row of its own takes effect per its access code, subject to the size and alignment rules. -/
  | registerWrite (port : Port) (addr : Nat) (en : BitVec 4) (w : Word)
  /-- UNMAPPED_ACCESS (R10): An access to an unmapped BAR0 offset reads 0 or is discarded, completes with success and records one WARN. -/
  | unmappedAccess (port : Port) (addr : Nat) (en : BitVec 4) (isWrite : Bool)
  /-- READ_CLEAR (R5): A read of an RC field returns the current value and then clears the field. -/
  | readClear (port : Port) (addr : Nat) (en : BitVec 4)
  /-- PAIR_LOW_READ (R7): A read of the low word of a 64-bit pair copies the high word into the reader's shadow. -/
  | pairLowRead (port : Port) (addr : Nat) (en : BitVec 4)
  /-- PAIR_HIGH_WRITE (R7): A write of the high word of a 64-bit pair applies the whole value, using the low word written last. -/
  | pairHighWrite (port : Port) (addr : Nat) (w : Word)
  /-- POWER_ON_RESET (R27): VSTBY_33 rises through its threshold, or PORST_N is held low, and everything restarts. -/
  | powerOnReset (porst : Bool)
  /-- SYSTEM_PLL_LOCK (R15): The system PLL declares lock, TSC and the tick number start, and bridge training begins. -/
  | systemPllLock
  /-- PLL_LOCK_TIMEOUT (R423): No lock within 2 ms of Core-die release, so the Drive die resets the Core die and releases it again 100 ms later. -/
  | pllLockTimeout (dt : Nat)
  /-- BRIDGE_TRAINED (R27): Die-bridge training completes and mutual die authentication begins. -/
  | bridgeTrained
  /-- DIE_PAIRING (R396): A pairing attempt ends with the tag check; the third failure refuses pairing and enters FAULT. -/
  | diePairing
  /-- PAIRING_TIMEOUT (R396): A pairing attempt that does not end within 200 µs fails and is retried with fresh nonces. -/
  | pairingTimeout
  /-- SRAM_ZEROED (R27): SRAM zeroing completes, after which the ledger journal is replayed. -/
  | sramZeroed (monoOk : Bool)
  /-- DRAM_TRAINING (R133): DRAM training completes during BOOTING; a failure enters Mend DRAM and leaves no DRAM page store. -/
  | dramTraining (pass : Bool) (gib rate : Nat)
  /-- BOOT_VINTAGE_LOAD (R27): The current vintage is read, verified, checked and applied, ending in OPERATIONAL or NO_VINTAGE. -/
  | bootVintageLoad (flashOk preloadOk : Bool)
  /-- TICK_BOUNDARY (R18): At each tick boundary, staged changes take effect and the Drive die applies the previous downward frame and latches samples. -/
  | tickBoundary (xcmd : List (Fin 48)) (die : Vector (BitVec 16) 12)
  /-- UPWARD_FRAME (R22): An upward bridge frame is received and checked at the Core die, and its samples and states enter. -/
  | upwardFrame (cyc : Nat) (corrected : Bool) (ain : Vector Ain 64) (sc : Vector (Vector (Int × Int) 20) 6)
  /-- UPWARD_FRAME_DEADLINE (R21): At cycle 600 an incomplete or bad upward frame is missed; a second consecutive miss is bridge loss. -/
  | upwardFrameDeadline (bad : Bool)
  /-- DOWNWARD_FRAME (R18): A downward bridge frame is received at the Drive die, to be applied at the next tick boundary. -/
  | downwardFrame (corrected : Bool)
  /-- DOWNWARD_FRAME_MISSED (R21): The Drive die repeats the previous values; a second consecutive miss enters the safe state. -/
  | downwardFrameMissed (bad : Bool)
  /-- SAFE_STATE_EXIT (R25): After 8 consecutive correct frames in each direction, the Drive die leaves the safe state. -/
  | safeStateExit
  /-- KILL_DN_KILL (R23): KILL_DN held high for 60 ns puts the Drive die into its safe state. -/
  | killDnKill
  /-- KILL_DN_STOP_PULSE (R28): A 20–40 ns pulse on KILL_DN turns heaters off and LEN low until the frame that ends the engine reset. -/
  | killDnStopPulse
  /-- SAFE_UP (R23): On SAFE_UP, the Core die gates all exposure links and freezes the ledger. -/
  | safeUp
  /-- ILK_OPEN (R256): An interlock input opens: LEN goes low within 10 µs, ILK_UP gates exposure, and masked heaters and HV trip. -/
  | ilkOpen (unit : Fin 4)
  /-- ILK_CLOSE (R256): An interlock input closes, so LEN may again follow its request. -/
  | ilkClose (unit : Fin 4)
  /-- DEV_RESET (R28): A keyed write to DEV_RESET requests an engine reset. -/
  | devReset (w : Word)
  /-- ERST_N (R457): A falling edge of ERST_N followed by at least 1 µs low requests an engine reset. -/
  | erstN
  /-- FUNCTION_LEVEL_RESET (R28): A PCIe function-level reset restores the function and requests an engine reset. -/
  | functionLevelReset
  /-- PERST_N (R28): Assertion of PERST_N acts on the link, and in OPERATIONAL or FAULT requests an engine reset. -/
  | perstN
  /-- ENGINE_RESET (R122): The ENGINE_RESET command writes its completion and waits for it to leave the link. -/
  | engineReset (q : Fin 2) (e : SqEntry)
  /-- ENGINE_RESET_ACCEPT (R28): An accepted engine reset halts threads, sends the stop pulse, enters RESETTING and stops axes and HV. -/
  | engineResetAccept
  /-- HV_RESET_RAMP_DONE (R369): The 4 ms reset ramp of the HV channels ends and their outputs go off. -/
  | hvResetRampDone
  /-- ENGINE_RESET_STANDSTILL (R28): All axes reach standstill, and the path sheets are stranded and journalled. -/
  | engineResetStandstill
  /-- AXIS_COAST_TIMEOUT (R29): An axis still moving 300 ms after acceptance has its gates turned off and coasts. -/
  | axisCoastTimeout (a : Fin 20)
  /-- ENGINE_RESET_EMPTY (R28): In the tick after stranding, the Cellar, page store and queues are emptied and credits re-initialised. -/
  | engineResetEmpty
  /-- BRIDGE_RETRAINED (R29): The bridge re-trains during an engine reset, and the stranding step proceeds. -/
  | bridgeRetrained
  /-- BRIDGE_RETRAIN_TIMEOUT (R29): The bridge has not re-trained within 1,000 ticks; the state returns to FAULT. -/
  | bridgeRetrainTimeout
  /-- ENGINE_RESET_RELOAD (R28): The vintage reload completes, and the device restarts threads in OPERATIONAL or enters NO_VINTAGE. -/
  | engineResetReload (flashOk preloadOk : Bool)
  /-- VINTAGE_LOAD (R33): The command tests the slot, then reads and verifies the image and writes it to flash. -/
  | vintageLoad (q : Fin 2) (e : SqEntry)
  /-- VINTAGE_LOAD_DONE (R33): Programming the verified image into the slot completes, and the command completes. -/
  | vintageLoadDone (img : Image)
  /-- VINTAGE_CHECK (R36): The command verifies a slot, fills the staging bank and preload area, and runs the consistency rules. -/
  | vintageCheck (q : Fin 2) (e : SqEntry)
  /-- VINTAGE_CHECK_DONE (R36): The consistency rules finish, and the first failing rule or CHECKED is recorded. -/
  | vintageCheckDone (flashOk preloadOk : Bool)
  /-- VINTAGE_APPLY (R37): The command applies the checked staging bank at switch tick S, as a settings or whole apply. -/
  | vintageApply (q : Fin 2) (e : SqEntry)
  /-- VINTAGE_REVERT (R47): The command applies the slot marked PREVIOUS with S = 0. -/
  | vintageRevert (q : Fin 2) (e : SqEntry)
  /-- ST_WRITE (R34): A write to an ST field changes only the staging bank, sets DIRTY and may cancel a pending apply. -/
  | stWrite (port : Port) (addr : Nat) (w : Word)
  /-- SETTINGS_SWITCH (R39): At the switch tick, the changed ST fields take effect and the vintage index marks move. -/
  | settingsSwitch
  /-- WHOLE_APPLY_IDLE (R41): The engine is idle at or after S: threads halt, slots suspend and the preload copy starts. -/
  | wholeApplyIdle
  /-- WHOLE_APPLY_SWITCH (R41): The preload copy ends; all ST fields take effect, slots resume and threads start. -/
  | wholeApplySwitch
  /-- APPLY_TIMEOUT (R42): A whole apply that has not reached H within VIN_APPLY_TIMEOUT is abandoned with TIMEOUT. -/
  | applyTimeout
  /-- BUDGET_RELOAD (R51): At cycle 200 every thread's budget is reloaded and TICK becomes pending. -/
  | budgetReload
  /-- OVERRUN (R52): A thread that cannot issue within its budget, or is still eligible at cycle 3,800, is pre-empted and charged. -/
  | overrun (t : Fin 16)
  /-- FAULT_HANDOVER (R55): In cycles 0–199 of the next tick, the halted thread's sheets pass to the fault thread. -/
  | faultHandover (t : Fin 16)
  /-- THREAD_RESTART (R57): A write to SEQ_THR_RESTART by the fault thread schedules restart of a halted thread. -/
  | threadRestart (port : Port) (w : Word)
  /-- THREAD_START (R68): A starting thread begins at its entry at cycle 200, with registers and pending bits initialised. -/
  | threadStart
  /-- WAIT_WAKE (R62): A waiting thread's pending-and-mask becomes non-zero; matching bits are written and cleared. -/
  | waitWake (t : Fin 16)
  /-- TIME_DEADLINE (R89): TSC reaches an armed TIME deadline, and TIME becomes pending. -/
  | timeDeadline (t : Fin 16)
  /-- PMEM_HOST_WRITE (R58): A host write to program memory lands only while debug is unlocked, and marks the configuration unsigned. -/
  | pmemHostWrite (addr : Nat) (data : List Byte)
  /-- DMEM_HOST_WRITE (R59): A host write to data memory lands only within SEQ_HOST_WIN. -/
  | dmemHostWrite (addr : Nat) (data : List Byte)
  /-- HOST_MEM_ACCESS (R60): Queued host accesses to sequencer memory are served in the reserved cycles, up to 400 dwords per tick. -/
  | hostMemAccess
  /-- MBI_RELEASE (R66): Writing 1 to SEQ_MBI_STATUS.FULL releases an inbound mailbox. -/
  | mbiRelease (port : Port) (m : Fin 8) (w : Word)
  /-- SEQ_MBO_POST (R67): A thread posts an outbound mailbox, setting FULL, or OVR if FULL is already set. -/
  | seqMboPost (port : Port) (m : Fin 8) (w : Word)
  /-- MBO_RELEASE (R67): Host software writes 1 to FULL to release an outbound mailbox. -/
  | mboRelease (port : Port) (m : Fin 8) (w : Word)
  /-- DBG_HALT (R71): SEQ_DBG halt debug-halts a thread while debug is unlocked. -/
  | dbgHalt (t : Fin 16)
  /-- DBG_STEP (R71): SEQ_DBG step grants exactly one instruction to a debug-halted thread. -/
  | dbgStep (t : Fin 16)
  /-- DBG_RESUME (R71): SEQ_DBG resume returns a debug-halted thread to running. -/
  | dbgResume (t : Fin 16)
  /-- ADD (R80): rd = rs1 + rs2, wrapping. -/
  | add (t rd rs1 rs2 : Fin 16)
  /-- SUB (R80): rd = rs1 − rs2, wrapping. -/
  | sub (t rd rs1 rs2 : Fin 16)
  /-- AND (R80): Bitwise AND of two registers. -/
  | and (t rd rs1 rs2 : Fin 16)
  /-- OR (R80): Bitwise OR of two registers. -/
  | or (t rd rs1 rs2 : Fin 16)
  /-- XOR (R80): Bitwise XOR of two registers. -/
  | xor (t rd rs1 rs2 : Fin 16)
  /-- SHL (R80): Shift left by rs2[4:0]. -/
  | shl (t rd rs1 rs2 : Fin 16)
  /-- SHR (R80): Logical shift right by rs2[4:0]. -/
  | shr (t rd rs1 rs2 : Fin 16)
  /-- SHRA (R80): Arithmetic shift right by rs2[4:0]. -/
  | shra (t rd rs1 rs2 : Fin 16)
  /-- TLT (R80): Signed less-than test, writing 1 or 0. -/
  | tlt (t rd rs1 rs2 : Fin 16)
  /-- TLO (R80): Unsigned lower-than test, writing 1 or 0. -/
  | tlo (t rd rs1 rs2 : Fin 16)
  /-- ADDS (R80): Saturating signed add. -/
  | adds (t rd rs1 rs2 : Fin 16)
  /-- SUBS (R80): Saturating signed subtract. -/
  | subs (t rd rs1 rs2 : Fin 16)
  /-- MIN (R80): Signed minimum of two registers. -/
  | min (t rd rs1 rs2 : Fin 16)
  /-- MAX (R80): Signed maximum of two registers. -/
  | max (t rd rs1 rs2 : Fin 16)
  /-- MUL (R80): Low 32 bits of the product. -/
  | mul (t rd rs1 rs2 : Fin 16)
  /-- MHS (R80): High 32 bits of the signed product. -/
  | mhs (t rd rs1 rs2 : Fin 16)
  /-- MHU (R80): High 32 bits of the unsigned product. -/
  | mhu (t rd rs1 rs2 : Fin 16)
  /-- QUO (R81): Signed quotient, saturating on division by zero and on overflow. -/
  | quo (t rd rs1 rs2 : Fin 16)
  /-- QUOU (R81): Unsigned quotient; division by zero gives 0xFFFF_FFFF. -/
  | quou (t rd rs1 rs2 : Fin 16)
  /-- MOD (R81): Signed remainder; division by zero gives the dividend. -/
  | mod (t rd rs1 rs2 : Fin 16)
  /-- MODU (R81): Unsigned remainder; division by zero gives the dividend. -/
  | modu (t rd rs1 rs2 : Fin 16)
  /-- ADDK (R74): Add a sign-extended 18-bit constant. -/
  | addk (t rd rs1 : Fin 16) (imm : BitVec 18)
  /-- TLTK (R80): Signed less-than test against a constant. -/
  | tltk (t rd rs1 : Fin 16) (imm : BitVec 18)
  /-- TLOK (R80): Unsigned lower-than test against a constant. -/
  | tlok (t rd rs1 : Fin 16) (imm : BitVec 18)
  /-- ANDK (R74): AND with a zero-extended constant. -/
  | andk (t rd rs1 : Fin 16) (imm : BitVec 18)
  /-- ORK (R74): OR with a zero-extended constant. -/
  | ork (t rd rs1 : Fin 16) (imm : BitVec 18)
  /-- XORK (R74): XOR with a zero-extended constant. -/
  | xork (t rd rs1 : Fin 16) (imm : BitVec 18)
  /-- SHLK (R80): Shift left by a constant. -/
  | shlk (t rd rs1 : Fin 16) (imm : BitVec 5)
  /-- SHRK (R80): Logical shift right by a constant. -/
  | shrk (t rd rs1 : Fin 16) (imm : BitVec 5)
  /-- SHRAK (R80): Arithmetic shift right by a constant. -/
  | shrak (t rd rs1 : Fin 16) (imm : BitVec 5)
  /-- KHI (R74): Place a 22-bit constant in bits [31:10] of rd. -/
  | khi (t rd : Fin 16) (imm : BitVec 22)
  /-- IFEQ (R80): Branch if equal. -/
  | ifeq (t rs1 rs2 : Fin 16) (imm : BitVec 18)
  /-- IFNE (R80): Branch if not equal. -/
  | ifne (t rs1 rs2 : Fin 16) (imm : BitVec 18)
  /-- IFLT (R80): Branch if signed less than. -/
  | iflt (t rs1 rs2 : Fin 16) (imm : BitVec 18)
  /-- IFGE (R80): Branch if signed greater than or equal. -/
  | ifge (t rs1 rs2 : Fin 16) (imm : BitVec 18)
  /-- IFLO (R80): Branch if unsigned lower. -/
  | iflo (t rs1 rs2 : Fin 16) (imm : BitVec 18)
  /-- IFHS (R80): Branch if unsigned higher or same. -/
  | ifhs (t rs1 rs2 : Fin 16) (imm : BitVec 18)
  /-- CALL (R79): Write the link and jump PC-relative. -/
  | call (t rd : Fin 16) (imm : BitVec 22)
  /-- CALLR (R80): Write the link and jump to rs1 + imm. -/
  | callr (t rd rs1 : Fin 16) (imm : BitVec 18)
  /-- FADD (R82): binary32 add. -/
  | fadd (t : Fin 16) (fd fs1 fs2 : Fin 8)
  /-- FSUB (R82): binary32 subtract. -/
  | fsub (t : Fin 16) (fd fs1 fs2 : Fin 8)
  /-- FMUL (R82): binary32 multiply. -/
  | fmul (t : Fin 16) (fd fs1 fs2 : Fin 8)
  /-- FDIV (R82): binary32 divide. -/
  | fdiv (t : Fin 16) (fd fs1 fs2 : Fin 8)
  /-- FSQRT (R82): binary32 square root. -/
  | fsqrt (t : Fin 16) (fd fs1 : Fin 8)
  /-- FMIN (R82): IEEE minimum. -/
  | fmin (t : Fin 16) (fd fs1 fs2 : Fin 8)
  /-- FMAX (R82): IEEE maximum. -/
  | fmax (t : Fin 16) (fd fs1 fs2 : Fin 8)
  /-- FABS (R82): Clear the sign bit. -/
  | fabs (t : Fin 16) (fd fs1 : Fin 8)
  /-- FNEG (R82): Invert the sign bit. -/
  | fneg (t : Fin 16) (fd fs1 : Fin 8)
  /-- FCEQ (R82): Floating equality test. -/
  | fceq (t rd : Fin 16) (fs1 fs2 : Fin 8)
  /-- FCLT (R82): Floating less-than test. -/
  | fclt (t rd : Fin 16) (fs1 fs2 : Fin 8)
  /-- FCLE (R82): Floating less-or-equal test. -/
  | fcle (t rd : Fin 16) (fs1 fs2 : Fin 8)
  /-- FITOF (R82): Convert a signed integer to binary32. -/
  | fitof (t : Fin 16) (fd : Fin 8) (rs1 : Fin 16)
  /-- FUTOF (R82): Convert an unsigned integer to binary32. -/
  | futof (t : Fin 16) (fd : Fin 8) (rs1 : Fin 16)
  /-- FFTOI (R82): Convert binary32 to a saturated signed integer. -/
  | fftoi (t rd : Fin 16) (fs1 : Fin 8) (towardZero : Bool)
  /-- FFTOU (R82): Convert binary32 to a saturated unsigned integer. -/
  | fftou (t rd : Fin 16) (fs1 : Fin 8) (towardZero : Bool)
  /-- FMOVX (R82): Bit copy from an f register to an x register. -/
  | fmovx (t rd : Fin 16) (fs1 : Fin 8)
  /-- FMOVF (R82): Bit copy from an x register to an f register. -/
  | fmovf (t : Fin 16) (fd : Fin 8) (rs1 : Fin 16)
  /-- FLIM (R82): Limit fs1 to ±|fs2|. -/
  | flim (t : Fin 16) (fd fs1 fs2 : Fin 8)
  /-- FMAC (R82): Fused multiply-add, rounded once. -/
  | fmac (t : Fin 16) (fd fs1 fs2 fs3 : Fin 8)
  /-- LDW (R83): Load a word from data memory. -/
  | ldw (t rd rs1 : Fin 16) (imm : BitVec 18) (ecc : Ecc)
  /-- LDH (R83): Load a halfword, sign-extended. -/
  | ldh (t rd rs1 : Fin 16) (imm : BitVec 18) (ecc : Ecc)
  /-- LDHU (R83): Load a halfword, zero-extended. -/
  | ldhu (t rd rs1 : Fin 16) (imm : BitVec 18) (ecc : Ecc)
  /-- LDB (R83): Load a byte, sign-extended. -/
  | ldb (t rd rs1 : Fin 16) (imm : BitVec 18) (ecc : Ecc)
  /-- LDBU (R83): Load a byte, zero-extended. -/
  | ldbu (t rd rs1 : Fin 16) (imm : BitVec 18) (ecc : Ecc)
  /-- LDF (R83): Load a word into an f register. -/
  | ldf (t : Fin 16) (fd : Fin 8) (rs1 : Fin 16) (imm : BitVec 18) (ecc : Ecc)
  /-- STW (R83): Store a word. -/
  | stw (t rs1 rs2 : Fin 16) (imm : BitVec 18)
  /-- STH (R83): Store a halfword. -/
  | sth (t rs1 rs2 : Fin 16) (imm : BitVec 18)
  /-- STB (R83): Store a byte. -/
  | stb (t rs1 rs2 : Fin 16) (imm : BitVec 18)
  /-- STF (R83): Store an f register. -/
  | stf (t rs1 : Fin 16) (fs2 : Fin 8) (imm : BitVec 18)
  /-- ADDM (R84): Atomic add to a data-memory word, returning the old value. -/
  | addm (t rd rs1 rs2 : Fin 16) (ecc : Ecc)
  /-- IN (R85): A 32-bit port read at a BAR0 offset, subject to the thread restrictions. -/
  | portIn (t rd rs1 : Fin 16) (imm : BitVec 18)
  /-- OUT (R85): A 32-bit port write at a BAR0 offset, subject to the thread restrictions. -/
  | portOut (t rs1 rs2 : Fin 16) (imm : BitVec 18)
  /-- WAIT (R89): Clear TICK and FRAME, rearm TIME from DL, and wait on a mask of wake sources. -/
  | wait (t rd rs1 rs2 : Fin 16)
  /-- SIG (R91): Set this thread's SIG bit in a target thread. -/
  | sig (t rs1 : Fin 16) (imm : BitVec 18)
  /-- TSC (R92): Read TSC into rd and AUX. -/
  | tsc (t rd : Fin 16)
  /-- TICKN (R92): Read the tick number into rd and AUX. -/
  | tickn (t rd : Fin 16)
  /-- TCYC (R92): Read the cycle within the current tick. -/
  | tcyc (t rd : Fin 16)
  /-- MOVA (R92): Copy AUX to rd. -/
  | mova (t rd : Fin 16)
  /-- SETDL (R92): DL = TSC + rs1. -/
  | setdl (t rs1 : Fin 16)
  /-- SETDLA (R92): DL = rs2:rs1. -/
  | setdla (t rs1 rs2 : Fin 16)
  /-- BRK (R92): Advance past BRK and debug-halt the thread; ILLEGAL while debug is locked. -/
  | brk (t : Fin 16)
  /-- PICK (R93): The admission unit decides a pick of a committed page, creating or binding a sheet, or returns a reason. -/
  | pick (t rd rs1 rs2 : Fin 16)
  /-- LDGM (R97): Move an owned sheet to a place or change its owner, subject to the ledger's transition check. -/
  | ldgm (t rd rs1 rs2 : Fin 16) (place : BitVec 6) (own : Bool)
  /-- EVT (R100): Issue a program event with code, class and payload. -/
  | evt (t rs1 : Fin 16) (cls : BitVec 2) (code : BitVec 12)
  /-- SQ_DOORBELL (R107): A write of a new tail to a submission ring's doorbell publishes entries to fetch. -/
  | sqDoorbell (q : Fin 2) (w : Word)
  /-- CQ_DOORBELL (R107): A write of a new CQ head releases completion entries. -/
  | cqDoorbell (w : Word)
  /-- EVR_DOORBELL (R107): A write of a new EVR head releases event entries. -/
  | evrDoorbell (w : Word)
  /-- PAGE_SUBMIT (R115): A submitted page takes a credit and enters the Press, or is refused. -/
  | pageSubmit (q : Fin 2) (e : SqEntry)
  /-- PAGE_DISCARD (R118): The command names a page by tag, for action at the next tick boundary. -/
  | pageDiscard (q : Fin 2) (e : SqEntry)
  /-- PAGE_DISCARD_ACTION (R118): At the tick boundary, the page is stopped, released or left to finish, according to its state. -/
  | pageDiscardAction (tag : Word)
  /-- METER_REPORT (R384): The command requests a signed meter report into a host buffer. -/
  | meterReport (q : Fin 2) (e : SqEntry)
  /-- METER_SNAPSHOT (R384): Once all earlier journal entries have committed, the report is built, signed and written. -/
  | meterSnapshot
  /-- MAILBOX (R66): The command reads its payload and fills an inbound mailbox, or completes with MBOX_FULL. -/
  | mailbox (q : Fin 2) (e : SqEntry) (payload : Vector Word 16)
  /-- RINSE (R380): The command starts a purge run over the jammed and stranded sheets, or is refused. -/
  | rinse (q : Fin 2) (e : SqEntry)
  /-- UNDEFINED_COMMAND (R113): A submission entry with an undefined opcode completes with BAD_OPCODE. -/
  | undefinedCommand (q : Fin 2) (e : SqEntry)
  /-- MSIX_UNMASK (R123): Unmasking a vector with its pending bit set signals it once. -/
  | msixUnmask (v : Fin 64) (mask : Bool)
  /-- COAL_TIMEOUT (R124): The oldest unsignalled entry has waited HIF_COAL.TICKS, so vector 0 or 2 fires. -/
  | coalTimeout (evr : Bool)
  /-- RING_BASE_WRITE (R106): A write of a ring base is accepted only while the ring is disabled and 4 KiB aligned. -/
  | ringBaseWrite (port : Port) (r : Fin 4) (high : Bool) (w : Word)
  /-- RING_SIZE_WRITE (R106): A write of a ring size is accepted only while the ring is disabled and n is 4–12. -/
  | ringSizeWrite (port : Port) (r : Fin 4) (w : Word)
  /-- TICK_AUDITS (R18): In cycles 3,800–3,999 the ledger, granule and credit audits run. -/
  | tickAudits
  /-- RACKING_TRANSACTION_DONE (R125): A Racking transaction completes: its token returns and its data goes to the consumer, or it fails. -/
  | rackingTransactionDone (c : Fin 16) (res : TxnResult)
  /-- COMPLETION_TIMEOUT (R128): A PCIe completion timeout is a bus error that halts the channel. -/
  | completionTimeout (c : Fin 16)
  /-- TRANSFER_TIMEOUT (R126): A transfer on a non-station channel not finished within RCK_XFER_TIMEOUT halts the channel. -/
  | transferTimeout (c : Fin 16)
  /-- CHANNEL_RESUME (R128): RESUME reissues a halted transfer from the failing transaction. -/
  | channelResume (port : Port) (c : Fin 16) (w : Word)
  /-- CHANNEL_ABORT (R128): ABORT ends a halted transfer, and its request ends as in Table 5-9. -/
  | channelAbort (port : Port) (c : Fin 16) (w : Word)
  /-- PRESS_PAGE_START (R138): The Press begins the next page in SQ_0 order and stamps the geometry generations. -/
  | pressPageStart
  /-- DESCRIPTOR_CHECK (R137): The read descriptor and band tables are checked; failures complete the page with BAD_FIELD. -/
  | descriptorCheck (desc : List Word) (bands : List (List (Vector Word 4)))
  /-- INDEX_TABLE_CHECK (R127): A fully read index table is checked before any block is gathered. -/
  | indexTableCheck (plane : Fin 6) (entries : List (BitVec 64))
  /-- LANE_BLOCK_START (R146): A free lane in service takes the next block in round order. -/
  | laneBlockStart (raw : List (List Byte)) (pre : List Byte)
  /-- BLOCK_VERIFY (R149): A lane's verifier checks the block's output; a fault falls back to stored form or to another lane. -/
  | blockVerify (l : Fin 4) (seen : Option (List Byte))
  /-- BLOCK_STORE (R146): A verified block is stored once every earlier block of the page is stored. -/
  | blockStore (l : Fin 4) (cycles : BitVec 24)
  /-- SPACE_WAIT_TIMEOUT (R152): A lane waiting for granules for PRS_SPACE_WAIT fails the page with NO_SPACE. -/
  | spaceWaitTimeout
  /-- ADMISSION_EVALUATION (R183): The admission unit evaluates STORED pages each tick, and on triggers, and commits those that pass. -/
  | admissionEvaluation
  /-- EVICTION_DONE (R187): An evicted granule has been written to DRAM and is freed. -/
  | evictionDone
  /-- REFILL (R188): In a tick that meets the conditions, channel 7 refills the oldest STORED page's evicted granules. -/
  | refill
  /-- CELLAR_SRAM_ERROR (R190): An uncorrectable Cellar SRAM error damages the owning page and is counted. -/
  | cellarSramError (gran : Fin 8192) (uncorrectable : Bool)
  /-- PRIMING_START (R203): The Decanter begins priming a picked page at the previous page's gap, or at once if idle. -/
  | primingStart (st : Fin 6)
  /-- PRIMING_DONE (R203): Priming of sweep s_first ends for every beam. -/
  | primingDone (st : Fin 6)
  /-- LINE_COMPLETE (R200): A decoded line is complete in its Carafe buffer and its notice crosses to the drain side. -/
  | lineComplete (st : Fin 6) (beam : Fin 32)
  /-- ROUND_FETCH_START (R206): A streamed round's fetch into its window slot begins once the slot is released and the previous fetch has ended. -/
  | roundFetchStart (st : Fin 6)
  /-- SWEEP_EDGE (R201): At a sweep-clock edge, the drain begins, notices are checked and SWEEP_START and line packets go out. -/
  | sweepEdge (st : Fin 6)
  /-- PAGE_GAP_BEGIN (R204): The drain of s_last ends: the page gap begins and source class 0x05 fires. -/
  | pageGapBegin (st : Fin 6)
  /-- LINE_CLOCK_UPDATE (R214): At cycle 600, the line-clock loop is updated from the SC sample, and clamping and readiness are judged. -/
  | lineClockUpdate (st : Fin 6)
  /-- BD_PULSE (R221): An accepted BD updates the phase error and lock state and re-phases the dot clock. -/
  | bdPulse (st : Fin 6) (frac : BitVec 10)
  /-- BD_MISSING_TIMEOUT (R222): No BD within 1.5 T_sweep: the miss is counted; a second consecutive miss returns to FREQ_ACQ. -/
  | bdMissingTimeout (st : Fin 6)
  /-- DCLK_LOCK_WINDOW (R228): Each 4,096-reference-cycle window judges dot-clock lock and loss of lock. -/
  | dclkLockWindow (st : Fin 6) (dev : Nat)
  /-- DCLK_REF_LOSS (R228): No reference edge within 200 ns loses lock and gates the output. -/
  | dclkRefLoss (st : Fin 6)
  /-- DCLK_RELOCK_TIMEOUT (R423): 1,000 ms in RELOCK restarts the relock with N recomputed. -/
  | dclkRelockTimeout (st : Fin 6)
  /-- GRID_SLEW_DONE (R219): A sweep-grid slew completes, and SLEWING clears. -/
  | gridSlewDone (st : Fin 6)
  /-- OVERSPEED_CLEAR (R233): A write of 1 clears OVERSPEED only while the unclamped line rate is below the ceiling. -/
  | overspeedClear (port : Port) (st : Fin 6)
  /-- TRAIN_ATTEMPT_START (R252): After 10 µs of electrical idle, a training attempt starts in RET_LOCK. -/
  | trainAttemptStart (st : Fin 6)
  /-- TRAIN_TIMEOUT (R252): An attempt not ACTIVE within EXL_TRAIN_TO fails and the next attempt follows. -/
  | trainTimeout (st : Fin 6)
  /-- FAILED_RESTART (R253): After 1,000 ticks in FAILED, training restarts from attempt 1. -/
  | failedRestart (st : Fin 6)
  /-- TRAIN_ACK (R245): The head reports lane lock and deskew, advancing training. -/
  | trainAck (st : Fin 6) (lockA lockB deskew : Bool)
  /-- STATUS (R249): A head STATUS updates temperature, lock, LEN_SEEN and CRC counts, and may bring the link ACTIVE or down. -/
  | status (st : Fin 6) (flags : BitVec 7) (temp : BitVec 16) (crc : BitVec 8)
  /-- APC (R249): A return APC message records an emitter's optical power. -/
  | apc (st : Fin 6) (emitter : BitVec 8) (power : BitVec 16)
  /-- EMITTER (R249): A return EMITTER message reports an emitter OK, DEGRADED or DEAD. -/
  | emitter (st : Fin 6) (emitter : BitVec 8) (state : BitVec 8)
  /-- RESPONSE (R247): A head RESPONSE ends or resends a control packet. -/
  | response (st : Fin 6) (tag status : BitVec 8) (data : Word)
  /-- EVENT (R243): A head EVENT reports a late or discarded segment or a late sweep; dark lines are counted and the sheet spoiled. -/
  | event (st : Fin 6) (kind : BitVec 8) (seq : BitVec 16) (beam segment : BitVec 8)
  /-- RETURN_BLOCK_ERROR (R237): A return block with a bad sync header, type or CRC-8 is discarded and counted. -/
  | returnBlockError (st : Fin 6) (hdr : BitVec 2) (payload : BitVec 64) (block : Nat)
  /-- RESPONSE_TIMEOUT (R247): No response within EXL_RESP_TO resends the packet; the third expiry takes the link down. -/
  | responseTimeout (st : Fin 6)
  /-- STATUS_TIMEOUT (R250): No correct STATUS for 8 µs takes the link down and restarts training. -/
  | statusTimeout (st : Fin 6)
  /-- ALIGN_MARKER (R238): After 16,383 blocks on a lane, an ALIGN block goes out on both lanes. -/
  | alignMarker (st : Fin 6)
  /-- RETRAIN (R255): A write of RETRAIN sets RETRAIN_PENDING for the next page gap. -/
  | retrain (port : Port) (st : Fin 6) (w : Word)
  /-- RETRAIN_FORCE (R255): RETRAIN with FORCE restarts training at once, inhibiting any exposing page. -/
  | retrainForce (port : Port) (st : Fin 6) (w : Word)
  /-- HEAD_ACCESS (R245): EXL_HACC GO sends a READ or WRITE to the head between sweeps. -/
  | headAccess (port : Port) (st : Fin 6) (w : Word)
  /-- LEN_MISMATCH (R257): LEN_SEEN differing from LEN_s for 3 ticks sets LEN_MISMATCH and drops the LEN request. -/
  | lenMismatch (st : Fin 6)
  /-- LEN_MISMATCH_CLEAR (R257): A write of 1 clears LEN_MISMATCH only while the states agree. -/
  | lenMismatchClear (port : Port) (st : Fin 6)
  /-- HALL_EDGE (R261): A filtered Hall code change counts ±1 or 2, or flags an invalid code. -/
  | hallEdge (c : Fin 12) (code : BitVec 3)
  /-- QUADRATURE_EDGE (R262): A filtered A/B change counts up or down, or records an error. -/
  | quadratureEdge (c : Fin 12) (a b : Bool)
  /-- INDEX_EDGE (R268): A rising index edge sets the reference, corrects the position, or mismatches. -/
  | indexEdge (c : Fin 18)
  /-- INDEX_REARM (R269): REARM clears IDX_DROPPED and IDX_VALID so that the next index becomes the reference. -/
  | indexRearm (port : Port) (c : Fin 18) (w : Word)
  /-- POSITION_WRITE (R265): A write to FBK_POS sets the position at once and clears POS_LOST, without firing compares. -/
  | positionWrite (port : Port) (c : Fin 18) (w : Word)
  /-- PROBE_LATCH (R270): A qualified probe edge latches TSC and position into the queue, or sets OVF. -/
  | probeLatch (p : Fin 8) (rising : Bool)
  /-- PROBE_POP (R270): SNS_PRB_POP removes the oldest latch entry. -/
  | probePop (port : Port) (p : Fin 8) (w : Word)
  /-- SENSOR_EDGE (R271): A qualified SN edge updates state and timestamp and fires source class 0x03. -/
  | sensorEdge (n : Fin 64) (rising : Bool)
  /-- COMPARE_PULSE_END (R273): A compare output pulse of PULSE µs ends. -/
  | comparePulseEnd (n : Fin 64)
  /-- CURRENT_LOOP (R275): At cycles 300–700, each enabled motor channel's current loop computes its compare values. -/
  | currentLoop
  /-- MOT_ENABLE (R289): ENABLE starts a channel, or queues the start while it is STOPPING. -/
  | motEnable (port : Port) (n : Fin 12) (w : Word)
  /-- MOT_DISABLE (R289): DISABLE ramps the references to zero, or clears a pending enable. -/
  | motDisable (port : Port) (n : Fin 12) (w : Word)
  /-- STOP_RAMP_DONE (R289): After MOT_OFF_RAMP ticks, the channel goes both-off and enters OFF. -/
  | stopRampDone (n : Fin 12)
  /-- CATCH_SPIN_TRY (R287): After CATCH_T ticks of observing, the channel restarts or waits; a second failed try faults it. -/
  | catchSpinTry (n : Fin 12)
  /-- CHOPPER_CONVERSION (R291): At each bus conversion, a brake chopper switches its low side on or off against its levels. -/
  | chopperConversion (unit : Fin 4) (code : BitVec 14)
  /-- VGL_UVLO (R295): A gate supply falling below UVLO takes its three groups both-off and latches UV_VGL. -/
  | vglUvlo (v : Fin 4) (mv : Nat)
  /-- BST_UVLO (R296): A high-side supply below UVLO takes the half-bridge both-off and latches UV_BST. -/
  | bstUvlo (h : Fin 48) (mv : Nat)
  /-- DESATURATION (R298): A desaturation turns off the half-bridge and its group, latches DESAT and counts it. -/
  | desaturation (h : Fin 48) (high : Bool) (mv onNs : Nat)
  /-- GROUP_CLEAR (R302): CLEAR returns a group to service at the next tick if no cause is present. -/
  | groupClear (port : Port) (g : Fin 12) (w : Word)
  /-- GROUP_RETRY (R302): 50 ticks after UV causes clear, a group retries, unless the retry limit is exhausted. -/
  | groupRetry (g : Fin 12)
  /-- BUS_MONITOR_CONVERSION (R304): Each bus-monitor conversion is compared with its warning and trip levels. -/
  | busMonitorConversion (unit : Fin 4) (code : BitVec 14)
  /-- MANGLE_EVALUATION (R310): In cycles 100–290, every enabled axis takes commands and computes its commanded state. -/
  | mangleEvaluation
  /-- MOVE_ABS (R313): Axis command: move to MOV_AX_TGT. -/
  | moveAbs (port : Port) (a : Fin 20)
  /-- MOVE_REL (R311): Axis command: move by MOV_AX_TGT. -/
  | moveRel (port : Port) (a : Fin 20)
  /-- JOG (R311): Axis command: run at JOGV. -/
  | jog (port : Port) (a : Fin 20)
  /-- TABLE (R320): Axis command: play a segment list. -/
  | table (port : Port) (a : Fin 20)
  /-- STOP (R317): Axis command: decelerate to standstill at DMAX. -/
  | stop (port : Port) (a : Fin 20)
  /-- RESUME (R317): Axis command: complete the kept distance. -/
  | resume (port : Port) (a : Fin 20)
  /-- HOME (R329): Axis command: run the homing procedure. -/
  | home (port : Port) (a : Fin 20)
  /-- SET_POS (R311): Axis command: at standstill, set the position to MOV_AX_TGT. -/
  | setPos (port : Port) (a : Fin 20)
  /-- UNDEFINED_AXIS_COMMAND (R311): An undefined OP is discarded. -/
  | undefinedAxisCommand (port : Port) (a : Fin 20) (op : BitVec 4)
  /-- MOVE_TIMEOUT (R315): A move not completed within MOV_AX_TMO is stopped with TIMEOUT. -/
  | moveTimeout (a : Fin 20)
  /-- STALL_DETECT (R324): BOOST at its cap with the load angle over the limit for STALLT ticks declares a stall. -/
  | stallDetect (a : Fin 20)
  /-- STANDSTILL_MODE (R325): After STILL_T ticks at standstill, the axis enters its standstill mode. -/
  | standstillMode (a : Fin 20)
  /-- LIMIT_WRITE (R316): A write to VMAX, AMAX, DMAX, JMAX or DSTOP is validated and takes effect at the next tick. -/
  | limitWrite (port : Port) (a : Fin 20) (k : Fin 5) (w : Word)
  /-- JW_ARM (R330): ARM opens a jam window with its pin, sheet and times. -/
  | jwArm (port : Port) (j : Fin 32) (w : Word)
  /-- JW_DISARM (R330): DISARM ends a window without an outcome. -/
  | jwDisarm (port : Port) (j : Fin 32) (w : Word)
  /-- JAM_WINDOW_EXPIRED (R331): No edge by close + FILT: EXPIRED, source class 0x06 fires and the stations are gated. -/
  | jamWindowExpired (j : Fin 32)
  /-- SLOT_LIST (R333): In cycles 300–1,400, the enabled slots and repetitive controllers are evaluated in order. -/
  | slotList
  /-- SLOT_RESET (R340): RESET restarts a slot at its next evaluation. -/
  | slotReset (port : Port) (n : Fin 256)
  /-- SLOT_RELOAD (R339): RELOAD reloads a slot's coefficients in the next tick. -/
  | slotReload (port : Port) (n : Fin 256)
  /-- INJECTION_GO (R344): GO starts a test-signal generator at the next tick. -/
  | injectionGo (port : Port) (g : Fin 2) (w : Word)
  /-- INJECTION_STOP (R344): STOP ends a generator, and j returns to 0. -/
  | injectionStop (port : Port) (g : Fin 2) (w : Word)
  /-- INJECTION_END (R344): A generator ends after LEN ticks. -/
  | injectionEnd (g : Fin 2)
  /-- CAPTURE_ARM (R345): ARM starts ring recording of four signals. -/
  | captureArm (port : Port) (w : Word)
  /-- CAPTURE_STOP (R345): STOP ends the capture. -/
  | captureStop (port : Port) (w : Word)
  /-- CAPTURE_SAMPLE (R345): At cycle 1,400, a capture sample is recorded and the trigger judged. -/
  | captureSample
  /-- CAPTURE_TRANSFER (R346): GO copies the captured samples to host memory on channel 14. -/
  | captureTransfer (port : Port) (w : Word)
  /-- CAPTURE_TRANSFER_DONE (R346): The last write of the transfer has been issued. -/
  | captureTransferDone
  /-- THERMISTOR_SAMPLE (R351): A thermistor sample updates the temperature, broken state, OVER and RATE, and may trip heaters. -/
  | thermistorSample (n : Fin 12) (code : BitVec 14)
  /-- THERMISTOR_FLAG_CLEAR (R351): A write of 1 clears OVER or RATE only while the thermistor is good and 5 °C below LEVEL. -/
  | thermistorFlagClear (port : Port) (n : Fin 12) (w : Word)
  /-- MAINS_SYNC_EDGE (R357): A MAINS_SYNC edge is accepted or rejected against the period limits. -/
  | mainsSyncEdge
  /-- MAINS_LOST_TIMEOUT (R357): No edge accepted for 25 ms sets MAINS_LOST, and lamps stop firing. -/
  | mainsLostTimeout
  /-- ZERO_CROSSING (R358): At each zero crossing, burst heaters accumulate and fire cycles and phase-angle heaters compute α. -/
  | zeroCrossing (positive : Bool)
  /-- HEATER_DRIVER_FAULT (R360): HTR_h_FLT_N low for 1 µs drives the outputs low and trips the heater with DRIVER. -/
  | heaterDriverFault (h : Fin 4) (low : Bool)
  /-- HEATER_CLEAR (R362): CLEAR returns a tripped heater to service if every cause is absent. -/
  | heaterClear (port : Port) (h : Fin 4) (w : Word)
  /-- HV_REGULATE (R365): Every 10 µs, the HV regulator updates the duty and judges the trip levels. -/
  | hvRegulate (c : Fin 24) (mon aux : BitVec 14)
  /-- HV_AC_CYCLE (R366): Once per AC cycle, the amplitude is measured, d_ac adjusted and the DC loop run. -/
  | hvAcCycle (c : Fin 24) (mean aux : BitVec 14) (amplitude : F32)
  /-- HV_ENABLE (R368): ENABLE starts an HV channel ramping up, or queues it during RAMP_DOWN. -/
  | hvEnable (port : Port) (c : Fin 24) (w : Word)
  /-- HV_DISABLE (R368): DISABLE ramps the set-point to zero, or clears a pending enable. -/
  | hvDisable (port : Port) (c : Fin 24) (w : Word)
  /-- HV_CLEAR (R367): CLEAR returns a tripped channel to OFF if no cause is present. -/
  | hvClear (port : Port) (c : Fin 24) (w : Word)
  /-- HV_RAMP_DOWN_DONE (R368): The ramp-down ends, the output goes low and the channel enters OFF. -/
  | hvRampDownDone (c : Fin 24)
  /-- SPOIL (R373): A write to LDG_SPOIL marks the named sheet spoiled. -/
  | spoil (port : Port) (id : Word)
  /-- JOURNAL_COMMIT (R377): The Drive die programs a journal record and its commit word into non-volatile memory. -/
  | journalCommit
  /-- RINSE_CLEAR (R380): CLEAR moves the Rinse set to purged in one bulk record and completes RINSE. -/
  | rinseClear (port : Port)
  /-- RINSE_FAIL (R380): FAIL ends the Rinse with RINSE_REFUSED and moves nothing. -/
  | rinseFail (port : Port)
  /-- RINSE_TIMEOUT (R380): No CLEAR or FAIL within LDG_RINSE_TO ends the Rinse with RINSE_REFUSED. -/
  | rinseTimeout
  /-- PROV_GENERATE (R389): GENERATE burns a fresh identity key and enters PROVISIONED. -/
  | provGenerate (key : BitVec 16) (readback : Bool)
  /-- PROV_PROGRAM (R389): PROGRAM burns a root hash into an empty slot. -/
  | provProgram (key : BitVec 16) (slot : Fin 4) (readback : Bool)
  /-- PROV_LOCK (R389): LOCK enters SECURED. -/
  | provLock (key : BitVec 16)
  /-- ROOT_REVOKE (R390): SEC_ROOT_REVOKE burns the revoke fuses of the named root slots. -/
  | rootRevoke (w : Word)
  /-- NEW_CHAL (R399): NEW_CHAL draws a new debug challenge. -/
  | newChal
  /-- DEBUG_UNLOCK (R399): UNLOCK verifies the token against the challenge and unlocks debug, or counts a failure. -/
  | debugUnlock
  /-- DEBUG_LOCK (R400): LOCK clears DEBUG_UNLOCKED and resumes any debug-halted thread. -/
  | debugLock
  /-- CONSUMABLE_AUTH (R398): A write of AUTH starts a consumable authentication. -/
  | consumableAuth (p : Fin 4)
  /-- CONSUMABLE_PERIOD (R398): Every PERIOD seconds, an authentication starts. -/
  | consumablePeriod (p : Fin 4)
  /-- I2C_TRANSACTION_DONE (R397): An I²C transaction ends, and authentication advances to its next stage or its result. -/
  | i2cTransactionDone (p : Fin 4) (nack : Bool) (data : List Byte)
  /-- STATUS_POLL (R397): Every 1 ms after the challenge, the chip's Status is polled. -/
  | statusPoll (p : Fin 4)
  /-- CONSUMABLE_TIMEOUT (R397): A clock stretch or readiness wait exceeding SEC_CON_TO gives TIMEOUT and bus recovery. -/
  | consumableTimeout (p : Fin 4) (stretch : Bool)
  /-- RNG_HEALTH_FAIL (R387): An entropy health-test failure sets RNG_FAIL and refuses random-dependent operations. -/
  | rngHealthFail
  /-- AC_OK_RISE (R404): A filtered rise of AC_OK; the supervisor leaves STANDBY when the other conditions also hold. -/
  | acOkRise (dt : Nat)
  /-- AC_OK_FALL (R409): A filtered fall of AC_OK turns outputs off within 1 µs and starts power-down. -/
  | acOkFall (dt : Nat)
  /-- RAIL_GOOD (R402): A rail's good state is accepted after 10 µs, and it enters GOOD, releasing its dependants. -/
  | railGood (dt : Nat) (r : Fin 16) (vs : Nat) (pg : Bool) (head test : Bool)
  /-- RAIL_GOOD_LOST (R407): A GOOD rail stops being good, causing a total shut-off or a failure during power-down. -/
  | railGoodLost (dt : Nat) (r : Fin 16) (vs : Nat) (pg : Bool)
  /-- PG_TIMEOUT (R407): A rail in RAMP not good within PG_TO causes a total shut-off. -/
  | pgTimeout (dt : Nat) (r : Fin 16) (vs : Nat)
  /-- RAIL_BELOW_OFF (R402): A rail's VS falls below its off threshold, and the rail enters OFF. -/
  | railBelowOff (dt : Nat) (r : Fin 16) (vs : Nat)
  /-- OFF_TIMEOUT (R409): A rail in TURNING_OFF past OFF_TO is counted as off. -/
  | offTimeout (dt : Nat) (r : Fin 16) (vs : Nat)
  /-- MIN_OFF_ELAPSED (R404): All rails have been off for MIN_OFF, permitting a power-up. -/
  | minOffElapsed (dt : Nat)
  /-- POWER_DOWN_RAIL_START (R409): At the last commit word, or 300 µs after AC_OK falls, the rail-off sequence begins. -/
  | powerDownRailStart (dt : Nat)
  /-- RAIL_ON (R405): ON starts an engine rail and its dependencies, or queues the start. -/
  | railOn (port : Port) (r : Fin 16)
  /-- RAIL_OFF (R406): OFF stops an engine rail and its dependants in reverse order. -/
  | railOff (port : Port) (r : Fin 16)
  /-- MARGIN_WRITE (R413): A write to PSQ_RAIL_MARGIN sets a new margin for a GOOD rail. -/
  | marginWrite (port : Port) (r : Fin 16) (w : Word)
  /-- MARGIN_STEP (R413): Every 100 µs the margin slews one step toward its setting. -/
  | marginStep (dt : Nat) (r : Fin 16)
  /-- EVR_COPY (R417): Held events are copied to free EVR entries in serial order, and drop summaries issue. -/
  | evrCopy
  /-- PORT_UP (R428): A CoeneLink port comes up after 1,000 good characters, and enumeration runs. -/
  | portUp (p : Fin 2)
  /-- CHN_FRAME (R429): A correct chain frame delivers or forwards its messages and updates delay and phase. -/
  | chnFrame (p : Fin 2) (f : ChnFrame)
  /-- ALIGN_DECLARED (R433): |e| ≤ 2.5 ns for 64 ticks declares ALIGNED and sets the tick offset. -/
  | alignDeclared (headTick : BitVec 64)
  /-- PORT_DOWN_TIMEOUT (R441): 3 ticks without a correct frame take a port down. -/
  | portDownTimeout (p : Fin 2)
  /-- ENUM (R431): A unit takes the offered address and passes ENUM on, or answers ENUM_END. -/
  | enum (p : Fin 2) (offered : BitVec 8)
  /-- ENUM_END (R431): The unit count is recorded and FORMED is set. -/
  | enumEnd (p : Fin 2) (units : BitVec 8)
  /-- OFFER (R434): The receiver refuses, or journals PENDING_IN before it accepts. -/
  | offer (p : Fin 2) (src : BitVec 4) (id : Word) (spoiled : Bool) (size colour : Fin 16) (tag1 tag2 : Word)
  /-- ACCEPT (R434): The sender moves the sheet to handed out, or answers with ABORT after an abort. -/
  | accept (p : Fin 2) (src : BitVec 4) (id : Word)
  /-- REFUSE (R435): The sheet leaves HANDOFF and returns to its issuing thread. -/
  | refuse (p : Fin 2) (src : BitVec 4) (id : Word) (reason : BitVec 8)
  /-- COMMIT (R434): The receiver enters the sheet at IN_ZONE and counts HANDED_IN. -/
  | commit (p : Fin 2) (src : BitVec 4) (id : Word)
  /-- ABORT (R435): The receiver deletes its PENDING_IN record. -/
  | abort (p : Fin 2) (src : BitVec 4) (id : Word)
  /-- RESOLVE (R437): The sender answers COMMIT or ABORT from its ledger and handover log. -/
  | resolve (p : Fin 2) (src : BitVec 4) (id : Word)
  /-- ALARM (R439): A received chain ALARM raises CHN_REMOTE_ALARM and fires source class 0x0C. -/
  | alarm (p : Fin 2) (src : BitVec 4) (cause alarmPort : BitVec 8)
  /-- USER (R430): A USER message is queued for reading, or dropped with OVF. -/
  | user (p : Fin 2) (src : BitVec 4) (payload : Vector Word 3)
  /-- HANDOVER_TIMEOUT (R435): No answer within HO_TO of the OFFER: the sender sends ABORT and keeps the sheet. -/
  | handoverTimeout (id : Word)
  /-- RESOLVE_TIMER (R437): A PENDING_IN record without an outcome for HO_TO ticks sends RESOLVE. -/
  | resolveTimer (id : Word)
  /-- COORDINATED_STOP (R440): A received stop set is forwarded, sets STOPPED, and stops the masked axes and stations. -/
  | coordinatedStop (p : Fin 2) (src : BitVec 4)
  /-- STOP_SEND (R440): A write of SEND sends a coordinated stop on both ports. -/
  | stopSend (port : Port)
  /-- USER_POST (R430): POST queues a USER message toward DEST. -/
  | userPost (port : Port) (dest : BitVec 4)
  /-- USER_POP (R430): POP removes the oldest received USER message. -/
  | userPop (port : Port) (p : Fin 2)
  /-- UNDEFINED_ENCODING (R75): A thread issues an instruction word whose major opcode or fn selector is undefined, or whose unused fields are not 0, and halts with ILLEGAL. -/
  | undefinedEncoding (t : Fin 16) (ecc : Ecc)
  /-- RET_LOCK (R252): The return-lane receiver sees 64 consecutive valid sync headers, and training moves from RET_LOCK to FWD_LOCK. -/
  | retLock (st : Fin 6)
  /-- VSTBY_33_FALL (R467): VSTBY_33 falls below 2.80 V; the Drive die is held in reset with its outputs as R17 gives, and the next rise is a power-on reset. -/
  | vstby33Fall
  /-- UVLO_RISING_THRESHOLD (R302): A gate supply or high-side supply rises through its rising UVLO threshold, which clears its UV cause and starts the 50-tick retry wait, or arms UVLO under R459. -/
  | uvloRisingThreshold (u : UvSupply) (mv : Nat)
  deriving DecidableEq, Repr

end Sys2Proof
end

