-- ==== Sys2Proof/Decode.lean ====
section
/-! DEFINITION. Decode.lean: the opcode table gives its rows no bits, because its rows are commands of a block and not the
words of a processor: no word spells a command. (The encodings of the Ouvta instructions that the block itself fetches stand
in Machine/OuvtaCode.lean.) -/

namespace Sys2Proof

/-- The command that a word spells by the bits of the opcode table: none of its rows gives any. (DESIGN CHOICE: log 3) -/
def decodeTableWord (_nbits _w : Nat) : Option Instr := none

end Sys2Proof
end

