-- ==== Sys2Proof/Config.lean ====
section
/-! DEFINITION. Config.lean: what an implementation fixes and the values the spec leaves open. Each opaque constant has
no body that a proof can see: a statement about it holds for every value. -/

namespace Sys2Proof

/-- What the back-EMF observer of a motor channel holds (R281): rotor angle in 1/65,536 electrical turn, speed in electrical
Hz, the current vector it predicts for the next loop run in amperes, and the back-EMF in its frame in volts. -/
structure Obs where
  angle : BitVec 16 := 0
  speed : F32 := 0
  ia : F32 := 0
  ib : F32 := 0
  emfD : F32 := 0
  emfQ : F32 := 0
  deriving DecidableEq, Repr, Inhabited

end Sys2Proof

namespace Sys2Proof.Config

/-- A fresh value of `w` bits for each number drawn (State.freeCtr): values the spec gives no number for. (DESIGN CHOICE: log 10) -/
opaque freeValue (w : Nat) : Nat → BitVec w

/-- Is the angle of a sine and a cosine that is no whole number of 1/1,024 turns rounded up (R263)? The spec does not say
how the angle is rounded. (DESIGN CHOICE: log 9) -/
opaque scRoundUp : Int → Int → Bool

/-- The value that synchronous demodulation over one excitation half-cycle gives for its 50 samples, in order and each turned
to the polarity of the excitation (R264): the spec states neither its weights nor its scale. (DESIGN CHOICE: log 9) -/
opaque demod : List Int → Int

/-- One step of the injection tracking loop (R280): from the change of the q-axis current, the sign of the injection, the
angle and the speed held, the next angle and speed. The spec gives the loop's input, not its gains. (DESIGN CHOICE: log 9) -/
opaque hfiTrack : F32 → Bool → BitVec 16 → F32 → BitVec 16 × F32

/-- One step of the back-EMF observer (R281): from the voltage vector applied or observed and the current vector measured.
The spec gives its inputs and its residual, not its equations. (DESIGN CHOICE: log 9) -/
opaque observe : F32 × F32 → F32 × F32 → Obs → Obs

/-- What a motor channel reads in a tick from a current input whose selector names none (R277). (DESIGN CHOICE: log 9) -/
opaque openInput : Nat → Int

/-- The voltage a motor channel reads in a tick from a voltage input whose selector names none (R284, R287). (DESIGN CHOICE: log 9) -/
opaque openVolts : Nat → F32

/-- The managed rail on which the board places VANA_5 (R401 leaves the placing of supplies on engine rails to the vintage
and the board). (DESIGN CHOICE: log 9) -/
opaque vanaRail : Fin 16

/-- Is a quotient of the line-clock loop that is no whole unit rounded up (R214)? The spec does not say. (DESIGN CHOICE: log 9) -/
opaque lineUp : Int → Int → Bool

/-- Is the sine of p ÷ q turns that no binary32 value holds rounded up? The spec does not say how the part rounds it, nor a
cosine, which is the sine a quarter turn on. (DESIGN CHOICE: log 9) -/
opaque sinUp : Int → Nat → Bool
/-- The sine of an angle that is no finite number. (DESIGN CHOICE: log 9) -/
opaque sinOdd : F32 → F32
/-- The cosine of such an angle. (DESIGN CHOICE: log 9) -/
opaque cosOdd : F32 → F32

/-- What the phase of a sweep advances by in a tick, in 2^-64 turn, where F0 or F1 is no positive number (R344): F0, F1, the tick
of the run and LEN. (DESIGN CHOICE: log 9) -/
opaque sweepOdd : F32 → F32 → Nat → Nat → Nat

/-- Is the angle of a vector (x, y) rounded up to the next 1/65,536 turn (R323)? (DESIGN CHOICE: log 9) -/
opaque angleUp : F32 → F32 → Bool
/-- The angle of a vector that has no direction, or is not finite. (DESIGN CHOICE: log 9) -/
opaque angleOdd : F32 → F32 → BitVec 16

/-- Temperature in 1/16 °C from the pull-up code, the coefficients A, B, C and the converter code of a thermistor (R348): which
reading within the tolerance of 0.1 °C the part computes; one outside it counts for nothing. (DESIGN CHOICE: log 9) -/
opaque thermTemp (rpu : Nat) (a b c : F32) (code : Nat) : BitVec 16

/-- The firing angle of a command in 1/65,536 half-cycle (R359): which angle within the tolerance of 0.005 the part computes; one
outside it counts for nothing. (DESIGN CHOICE: log 9) -/
opaque phaseAngle : F32 → BitVec 16

/-- Device main clock (Table 0-1): cycles in one tick. -/
def tickCycles : Nat := 4000

/-- Cycles in one microsecond of the 200 MHz main clock. -/
def cyclesPerUs : Nat := 200

end Sys2Proof.Config
end

