-- ==== Sys2Proof/Machine/Bits.lean ====
section
/-! DEFINITION. Machine/Bits.lean: sparse maps in canonical form (registers, staging bank, memory windows),
bit fields of a dword, CRC-32C and CRC-8. -/

namespace Sys2Proof.Machine

/-! ## Sparse maps

A map from offsets to values is the list of the entries that differ from the default, offsets strictly rising,
so that equal maps are equal lists. -/

/-- A sparse map: offset and value pairs. -/
abbrev SMap (α : Type) := List (Nat × α)

namespace SMap

/-- What the map holds at `k`: the first entry for `k`, else the default. -/
def get {α : Type} (d : Nat → α) : SMap α → Nat → α
  | [], k => d k
  | (a, v) :: r, k => if a = k then v else get d r k

/-- The map without any entry for `k`. -/
def erase {α : Type} : SMap α → Nat → SMap α
  | [], _ => []
  | (a, v) :: r, k => if a = k then erase r k else (a, v) :: erase r k

/-- The map with the entry `(k, v)` in its sorted place. -/
def insert {α : Type} : SMap α → Nat → α → SMap α
  | [], k, v => [(k, v)]
  | (a, w) :: r, k, v =>
    if k < a then (k, v) :: (a, w) :: r
    else if a = k then (k, v) :: r
    else (a, w) :: insert r k v

/-- Store `v` at `k`, keeping the canonical form: a value equal to the default leaves no entry. -/
def set {α : Type} [DecidableEq α] (d : Nat → α) (m : SMap α) (k : Nat) (v : α) : SMap α :=
  if v = d k then erase m k else insert m k v

/-- Every entry of `m` lies above `lo` and offsets strictly rise. -/
def risingFrom {α : Type} (lo : Nat) : SMap α → Bool
  | [] => true
  | (a, _) :: r => decide (lo ≤ a) && risingFrom (a + 1) r

/-- No entry equals what an unlisted offset reads as. -/
def noDefault {α : Type} [DecidableEq α] (d : Nat → α) : SMap α → Bool
  | [] => true
  | (a, v) :: r => decide (v ≠ d a) && noDefault d r

/-- The canonical form. -/
def wf {α : Type} [DecidableEq α] (d : Nat → α) (m : SMap α) : Bool := risingFrom 0 m && noDefault d m

end SMap

/-! ## Bit fields -/

/-- A bit field of a register: the register's BAR0 offset, the field's lowest bit and its width. -/
structure Fld where
  off : Nat
  lo : Nat
  w : Nat
  deriving DecidableEq, Repr

/-- A mask of `n` ones starting at bit `lo`. -/
def ones (lo n : Nat) : Word := BitVec.ofNat 32 ((2 ^ n - 1) * 2 ^ lo)

/-- The value of bits `[lo + n - 1 : lo]`. -/
def bits (w : Word) (lo n : Nat) : Nat := (w.toNat / 2 ^ lo) % 2 ^ n

/-- The dword with bits `[lo + n - 1 : lo]` replaced by the low `n` bits of `v`. -/
def setBits (w : Word) (lo n v : Nat) : Word :=
  (w &&& ~~~ ones lo n) ||| BitVec.ofNat 32 ((v % 2 ^ n) * 2 ^ lo)

/-- Bit `i` of a number. -/
def bit (v i : Nat) : Bool := (v / 2 ^ i) % 2 == 1

/-- Bit `i` of a number set to `b`. -/
def setBit (v i : Nat) (b : Bool) : Nat :=
  if bit v i then (if b then v else v - 2 ^ i) else (if b then v + 2 ^ i else v)

/-- How many of the low `n` bits of `v` are 1. -/
def popCount : Nat → Nat → Nat
  | 0, _ => 0
  | n + 1, v => v % 2 + popCount n (v / 2)

def boolNat (b : Bool) : Nat := if b then 1 else 0

/-- Rounded-up division. -/
def ceilDiv (a b : Nat) : Nat := if b = 0 then 0 else (a + b - 1) / b

/-- Replace element `i` of a list. -/
def setAt {α : Type} (l : List α) (i : Nat) (v : α) : List α := l.set i v

/-- Replace the elements that meet `p` by their image under `f`. -/
def mapIf {α : Type} (p : α → Bool) (f : α → α) (l : List α) : List α := l.map fun x => if p x then f x else x

/-! ## Checks -/

/-- One bit step of the reflected CRC-32C (polynomial 0x1EDC6F41, reflected 0x82F63B78). -/
def crc32cBit (c : BitVec 32) : BitVec 32 :=
  if c &&& 1#32 = 1#32 then (c >>> 1) ^^^ 0x82F63B78#32 else c >>> 1

/-- One byte step of CRC-32C. -/
def crc32cByte (c : BitVec 32) (b : Byte) : BitVec 32 :=
  crc32cBit (crc32cBit (crc32cBit (crc32cBit (crc32cBit (crc32cBit (crc32cBit (crc32cBit (c ^^^ b.setWidth 32))))))))

/-- CRC-32C of a byte sequence, initial value and final inversion all ones. -/
def crc32c (bs : List Byte) : BitVec 32 := ~~~ (bs.foldl crc32cByte 0xFFFFFFFF#32)

/-- Little-endian bytes of a number, `n` of them. (DESIGN CHOICE: log 61) -/
def leBytes : Nat → Nat → List Byte
  | 0, _ => []
  | n + 1, v => BitVec.ofNat 8 v :: leBytes n (v / 256)

/-- The number whose little-endian bytes these are. -/
def ofLeBytes : List Byte → Nat
  | [] => 0
  | b :: r => b.toNat + 256 * ofLeBytes r

end Sys2Proof.Machine
end

