-- ==== Sys2Proof/Machine/F32.lean ====
section
/-! DEFINITION. Machine/F32.lean: IEEE 754-2019 binary32 arithmetic with the rules of R82 (round to nearest, ties
to even; subnormals exact; a NaN operand is returned quieted; an invalid operation gives 0x7FC0_0000). Each
operation converts its operands to exact integers, computes exactly and rounds once. -/

namespace Sys2Proof.Machine.F32

def sign (x : F32) : Bool := x.getLsbD 31
def expo (x : F32) : Nat := bits x 23 8
def frac (x : F32) : Nat := bits x 0 23
def isNaN (x : F32) : Bool := expo x == 255 && frac x != 0
def isInf (x : F32) : Bool := expo x == 255 && frac x == 0
def isZero (x : F32) : Bool := expo x == 0 && frac x == 0
/-- Neither infinite nor a NaN. -/
def isFinite (x : F32) : Bool := expo x != 255
/-- A NaN made quiet, sign and payload kept. -/
def quiet (x : F32) : F32 := x ||| 0x00400000#32
/-- The result of an invalid operation without a NaN operand. -/
def invalid : F32 := 0x7FC00000#32
def zero (s : Bool) : F32 := if s then 0x80000000#32 else 0#32
def inf (s : Bool) : F32 := if s then 0xFF800000#32 else 0x7F800000#32

/-- The significand of a finite value as an integer, and its exponent: the value is significand × 2^exponent. -/
def sig (x : F32) : Nat := if expo x = 0 then frac x else frac x + 0x800000
def ex (x : F32) : Int := if expo x = 0 then -149 else (expo x : Int) - 150
def ssig (x : F32) : Int := if sign x then -(sig x : Int) else sig x

/-- Pack a rounded significand `q` of at most 24 bits (or 2^24) at exponent `e ≥ -149`. -/
def pack (s : Bool) (q : Nat) (e : Int) : F32 :=
  let q' := if q = 0x1000000 then 0x800000 else q
  let e' := if q = 0x1000000 then e + 1 else e
  let sb := if s then 0x80000000 else 0
  if q' < 0x800000 then BitVec.ofNat 32 (sb + q')
  else if e' + 150 ≥ 255 then inf s
  else BitVec.ofNat 32 (sb + (e' + 150).toNat * 0x800000 + (q' - 0x800000))

/-- The binary32 value nearest to ±m × 2^e, ties to even. -/
def round (s : Bool) (m : Nat) (e : Int) : F32 :=
  if m = 0 then zero s else
  let et := max (e + (Nat.log2 m : Int) - 23) (-149)
  if et ≤ e then pack s (m * 2 ^ (e - et).toNat) et
  else
    let d := (et - e).toNat
    let q := m / 2 ^ d
    let r := m % 2 ^ d
    let up := r > 2 ^ (d - 1) || (r = 2 ^ (d - 1) && q % 2 = 1)
    pack s (if up then q + 1 else q) et

/-- The value of an exact signed sum `v × 2^e`; an exact zero takes sign `z`. -/
def roundInt (v : Int) (e : Int) (z : Bool) : F32 :=
  if v = 0 then zero z else round (v < 0) v.natAbs e

/-- The first NaN of a list, quieted. -/
def firstNaN : List F32 → Option F32
  | [] => none
  | x :: r => if isNaN x then some (quiet x) else firstNaN r

/-- Exact alignment of two scaled integers to the smaller exponent. -/
def alignSum (a : Int) (ea : Int) (b : Int) (eb : Int) : Int × Int :=
  let e := min ea eb
  (a * 2 ^ (ea - e).toNat + b * 2 ^ (eb - e).toNat, e)

def neg (x : F32) : F32 := x ^^^ 0x80000000#32
def abs (x : F32) : F32 := x &&& 0x7FFFFFFF#32

def add (x y : F32) : F32 :=
  match firstNaN [x, y] with
  | some n => n
  | none =>
    if isInf x then (if isInf y && (sign x != sign y) then invalid else x)
    else if isInf y then y
    else
      let s := alignSum (ssig x) (ex x) (ssig y) (ex y)
      roundInt s.1 s.2 (sign x && sign y)

/-- x − y; a NaN in `y` keeps its sign, so the subtraction does not go through a negated NaN. -/
def sub (x y : F32) : F32 :=
  match firstNaN [x, y] with
  | some n => n
  | none => add x (neg y)

def mul (x y : F32) : F32 :=
  match firstNaN [x, y] with
  | some n => n
  | none =>
    let s := sign x != sign y
    if isInf x || isInf y then (if isZero x || isZero y then invalid else inf s)
    else round s (sig x * sig y) (ex x + ex y)

/-- Quotient to 64 extra bits, with the remainder as a sticky bit below them, rounded once. -/
def div (x y : F32) : F32 :=
  match firstNaN [x, y] with
  | some n => n
  | none =>
    let s := sign x != sign y
    if isInf x then (if isInf y then invalid else inf s)
    else if isInf y then zero s
    else if isZero y then (if isZero x then invalid else inf s)
    else if isZero x then zero s
    else
      let n := sig x * 2 ^ 64
      let q := n / sig y
      let st := if n % sig y = 0 then 0 else 1
      round s (2 * q + st) (ex x - ex y - 65)

/-- The integer square root, one bit at a time from bit `k - 1` down. -/
def isqrt (n : Nat) : Nat → Nat → Nat
  | 0, acc => acc
  | k + 1, acc => if (acc + 2 ^ k) * (acc + 2 ^ k) ≤ n then isqrt n k (acc + 2 ^ k) else isqrt n k acc

def sqrt (x : F32) : F32 :=
  if isNaN x then quiet x
  else if isZero x then x
  else if sign x then invalid
  else if isInf x then x
  else
    let m := if ex x % 2 = 0 then sig x else sig x * 2
    let e := if ex x % 2 = 0 then ex x else ex x - 1
    let n := m * 2 ^ 64
    let q := isqrt n 48 0
    let st := if q * q = n then 0 else 1
    round false (2 * q + st) (e / 2 - 33)

/-- x × y + z rounded once. -/
def fma (x y z : F32) : F32 :=
  match firstNaN [x, y, z] with
  | some n => n
  | none =>
    let s := sign x != sign y
    if isInf x || isInf y then
      if isZero x || isZero y then invalid
      else if isInf z && sign z != s then invalid
      else inf s
    else if isInf z then z
    else
      let p := ssig x * ssig y
      let t := alignSum p (ex x + ex y) (ssig z) (ex z)
      let pneg := if p = 0 then s else decide (p < 0)
      roundInt t.1 t.2 (pneg && sign z)

/-- An ordering key of a value that is not a NaN: −0.0 orders below +0.0. -/
def key (x : F32) : Int := if sign x then -((x.toNat % 0x80000000 : Nat) : Int) - 1 else (x.toNat % 0x80000000 : Nat)

def fmin (x y : F32) : F32 :=
  match firstNaN [x, y] with
  | some n => n
  | none => if key x ≤ key y then x else y

def fmax (x y : F32) : F32 :=
  match firstNaN [x, y] with
  | some n => n
  | none => if key x ≤ key y then y else x

/-- Numeric key: both zeros equal. -/
def nkey (x : F32) : Int := if isZero x then 0 else key x

def eq (x y : F32) : Bool := !isNaN x && !isNaN y && (isZero x && isZero y || x == y)
def lt (x y : F32) : Bool :=
  !isNaN x && !isNaN y && !(isZero x && isZero y) && decide (key x < key y)
def le (x y : F32) : Bool := lt x y || eq x y

/-- FLIM: `x` limited to −|y| … +|y|. -/
def lim (x y : F32) : F32 :=
  if isNaN x then quiet x
  else if isNaN y then x
  else if lt (abs y) x then abs y
  else if lt x (neg (abs y)) then neg (abs y)
  else x

def ofInt (v : Int) : F32 := roundInt v 0 false
def ofNat (v : Nat) : F32 := round false v 0

/-- A finite value as an integer: toward zero, or to nearest with ties to even. -/
def toIntExact (tz : Bool) (x : F32) : Int :=
  let m : Int :=
    if 0 ≤ ex x then (sig x * 2 ^ (ex x).toNat : Nat)
    else
      let d := (-(ex x)).toNat
      let q := sig x / 2 ^ d
      let r := sig x % 2 ^ d
      let up := !tz && (r > 2 ^ (d - 1) || (r = 2 ^ (d - 1) && q % 2 = 1))
      ((if up then q + 1 else q : Nat) : Int)
  if sign x then -m else m

/-- Clamp an integer to a range. -/
def clampInt (lo hi v : Int) : Int := if v < lo then lo else if hi < v then hi else v

/-- Conversion to a signed 32-bit integer (FFTOI): saturating, NaN to 0. -/
def toI32 (tz : Bool) (x : F32) : Word :=
  if isNaN x then 0#32
  else if isInf x then (if sign x then 0x80000000#32 else 0x7FFFFFFF#32)
  else BitVec.ofInt 32 (clampInt (-2147483648) 2147483647 (toIntExact tz x))

/-- Conversion to an unsigned 32-bit integer (FFTOU): saturating, NaN to 0. -/
def toU32 (tz : Bool) (x : F32) : Word :=
  if isNaN x then 0#32
  else if isInf x then (if sign x then 0#32 else 0xFFFFFFFF#32)
  else BitVec.ofInt 32 (clampInt 0 4294967295 (toIntExact tz x))

/-- The value of a finite binary32, rounded to the nearest integer (0 for NaN and the infinities). -/
def toInt (x : F32) : Int := if isFinite x then toIntExact false x else 0

/-- Clamp `x` to [lo, hi] by the comparisons of R82; a NaN passes through. -/
def clamp (lo hi x : F32) : F32 := if lt x lo then lo else if lt hi x then hi else x

/-- One. -/
def one : F32 := 0x3F800000#32

/-- The exact value of `n / d`, rounded once. -/
def ofRat (n : Int) (d : Nat) : F32 :=
  if d = 0 then invalid
  else
    let a := n.natAbs * 2 ^ 64
    round (n < 0) (2 * (a / d) + (if a % d = 0 then 0 else 1)) (-65)

end Sys2Proof.Machine.F32
end

