-- ==== Sys2Proof/Machine/RegMap.lean ====
section
/-! DEFINITION. Machine/RegMap.lean: the BAR0 register map (R8, R9): each register's offset, its bit fields, the
access code of every bit (Table 0-4), its reset value, and the G and B marks of R39. A register whose reset the
spec calls "per NVM", "per fuse", "per DRAM", "per index", "per strap" or "per silicon" resets to 0 here. -/

namespace Sys2Proof.Machine

/-! ## Offsets (R8: base plus index times stride) -/

namespace R

def DEV_ID : Nat := 0x0
def DEV_STATE : Nat := 0x10
def DEV_RESET : Nat := 0x20
def DEV_RESET_CAUSE : Nat := 0x24
def DEV_TICK_LO : Nat := 0x30
def DEV_TICK_HI : Nat := 0x34
def DEV_TSC_LO : Nat := 0x38
def DEV_TSC_HI : Nat := 0x3C
def BRG_STATUS : Nat := 0x190000
def BRG_MISS_UP : Nat := 0x190004
def BRG_MISS_DN : Nat := 0x190008
def BRG_CORR : Nat := 0x19000C
def BRG_LATE_UP : Nat := 0x190010
def VIN_STATUS : Nat := 0x10000
def VIN_CHECK_RESULT : Nat := 0x10014
def VIN_CURRENT : Nat := 0x10004
def VIN_CUR_VERSION : Nat := 0x10008
def VIN_PREV_VERSION : Nat := 0x1000C
def VIN_FLOOR : Nat := 0x10010
def VIN_CHECK_OFFSET : Nat := 0x10018
def VIN_APPLY_TICK_LO : Nat := 0x10020
def VIN_APPLY_TICK_HI : Nat := 0x10024
def VIN_APPLY_TIMEOUT : Nat := 0x10028
def VIN_SWITCH_TICK_LO : Nat := 0x10030
def VIN_SWITCH_TICK_HI : Nat := 0x10034
def SEQ_CTRL : Nat := 0x20000
def SEQ_STATUS : Nat := 0x20004
def SEQ_FAULT_SRC : Nat := 0x20008
def SEQ_THR_RESTART : Nat := 0x20010
def SEQ_DBG : Nat := 0x20014
def SEQ_SHARED_WIN : Nat := 0x20020
def SEQ_HOST_WIN : Nat := 0x20024
def SEQ_ECC_CORR : Nat := 0x20028
def SEQ_EVMAP (i : Nat) : Nat := 0x20040 + 0x4 * i
def SEQ_THR_CFG (i : Nat) : Nat := 0x20100 + 0x40 * i
def SEQ_THR_ENTRY (i : Nat) : Nat := 0x20104 + 0x40 * i
def SEQ_THR_WIN (i : Nat) : Nat := 0x20108 + 0x40 * i
def SEQ_THR_STATE (i : Nat) : Nat := 0x2010C + 0x40 * i
def SEQ_THR_PC (i : Nat) : Nat := 0x20110 + 0x40 * i
def SEQ_THR_USED (i : Nat) : Nat := 0x20114 + 0x40 * i
def SEQ_THR_OVR (i : Nat) : Nat := 0x20118 + 0x40 * i
def SEQ_THR_EVOVF (i : Nat) : Nat := 0x2011C + 0x40 * i
def SEQ_THR_PEND_LO (i : Nat) : Nat := 0x20120 + 0x40 * i
def SEQ_THR_PEND_HI (i : Nat) : Nat := 0x20124 + 0x40 * i
def SEQ_MBI_DATA (i j : Nat) : Nat := 0x21000 + 0x80 * i + 0x4 * j
def SEQ_MBI_CFG (i : Nat) : Nat := 0x21040 + 0x80 * i
def SEQ_MBI_STATUS (i : Nat) : Nat := 0x21044 + 0x80 * i
def SEQ_MBO_DATA (i j : Nat) : Nat := 0x21400 + 0x80 * i + 0x4 * j
def SEQ_MBO_POST (i : Nat) : Nat := 0x21440 + 0x80 * i
def SEQ_MBO_STATUS (i : Nat) : Nat := 0x21444 + 0x80 * i
def HIF_CTRL : Nat := 0x30000
def HIF_STATUS : Nat := 0x30004
def HIF_PAGE_CREDITS : Nat := 0x30008
def HIF_DB_DROP : Nat := 0x3000C
def HIF_COAL : Nat := 0x30010
def HIF_RING_BASE_LO (i : Nat) : Nat := 0x30100 + 0x20 * i
def HIF_RING_BASE_HI (i : Nat) : Nat := 0x30104 + 0x20 * i
def HIF_RING_SIZE (i : Nat) : Nat := 0x30108 + 0x20 * i
def HIF_RING_DB (i : Nat) : Nat := 0x3010C + 0x20 * i
def HIF_RING_PTR (i : Nat) : Nat := 0x30110 + 0x20 * i
def RCK_TOKENS : Nat := 0x40000
def RCK_SLOTS : Nat := 0x40004
def RCK_XFER_TIMEOUT : Nat := 0x40008
def RCK_RES (i : Nat) : Nat := 0x40010 + 0x4 * i
def RCK_RES_CAP : Nat := 0x40028
def RCK_RES_TOTAL : Nat := 0x4002C
def RCK_CH_STATUS (i : Nat) : Nat := 0x40100 + 0x40 * i
def RCK_CH_FAIL_LO (i : Nat) : Nat := 0x40104 + 0x40 * i
def RCK_CH_FAIL_HI (i : Nat) : Nat := 0x40108 + 0x40 * i
def RCK_CH_CTRL (i : Nat) : Nat := 0x4010C + 0x40 * i
def RCK_CH_DISCARD (i : Nat) : Nat := 0x40110 + 0x40 * i
def RCK_CH_WDRAW (i : Nat) : Nat := 0x40114 + 0x40 * i
def MEM_CFG : Nat := 0x170000
def MEM_STATUS : Nat := 0x170004
def MEM_ECC_CORR : Nat := 0x170008
def MEM_ECC_UNCORR : Nat := 0x17000C
def MEM_ECC_ADDR_LO : Nat := 0x170010
def MEM_ECC_ADDR_HI : Nat := 0x170014
def MEM_DATA_TOP_LO : Nat := 0x170018
def MEM_DATA_TOP_HI : Nat := 0x17001C
def PRS_STATUS : Nat := 0x50000
def PRS_SPACE_WAIT : Nat := 0x50004
def PRS_CUR_TAG : Nat := 0x50008
def PRS_CUR_ROUND : Nat := 0x5000C
def PRS_GEOM_GEN (i : Nat) : Nat := 0x50010 + 0x4 * i
def PRS_BLOCKS_CODED : Nat := 0x50030
def PRS_STORED_BOUND : Nat := 0x50034
def PRS_STORED_VERIFY : Nat := 0x50038
def PRS_PRE_BLOCKS : Nat := 0x5003C
def PRS_LANE_VFAULT (i : Nat) : Nat := 0x50100 + 0x20 * i
def PRS_LANE_PGFAULT (i : Nat) : Nat := 0x50104 + 0x20 * i
def PRS_LANE_BLOCKS (i : Nat) : Nat := 0x50108 + 0x20 * i
def PRS_LANE_STATE (i : Nat) : Nat := 0x5010C + 0x20 * i
def PRS_LANE_CYCLES (i : Nat) : Nat := 0x50110 + 0x20 * i
def CEL_STATUS : Nat := 0x60000
def CEL_GRAN_FREE : Nat := 0x60004
def CEL_GRAN_ALLOC : Nat := 0x60008
def CEL_GRAN_TOTAL : Nat := 0x6000C
def CEL_BANK_OUT : Nat := 0x60010
def CEL_BANK_RETIRING : Nat := 0x60014
def CEL_DGRAN_TOTAL : Nat := 0x60018
def CEL_DGRAN_FREE : Nat := 0x6001C
def CEL_PAGES : Nat := 0x60020
def CEL_MARGIN : Nat := 0x60024
def CEL_REFILL_RESERVE : Nat := 0x60028
def CEL_PITCH_BASE : Nat := 0x60030
def CEL_PITCH_TARGET : Nat := 0x60034
def CEL_PITCH_STEP : Nat := 0x60038
def CEL_PITCH_MAX : Nat := 0x6003C
def CEL_PITCH_GAP : Nat := 0x60040
def CEL_COMMIT_A : Nat := 0x60050
def CEL_COMMIT_B : Nat := 0x60054
def CEL_EVICT_GRAN : Nat := 0x60058
def CEL_REFILL_GRAN : Nat := 0x6005C
def CEL_SRAM_CORR : Nat := 0x60060
def CEL_SRAM_UNCORR : Nat := 0x60064
def CEL_LEAD (i : Nat) : Nat := 0x60080 + 0x4 * i
def CEL_BANK_UERR (i : Nat) : Nat := 0x60100 + 0x4 * i
def CEL_QUERY : Nat := 0x60200
def CEL_QUERY_STATE : Nat := 0x60204
def CEL_QUERY_GRAN : Nat := 0x60208
def CEL_QUERY_DGRAN : Nat := 0x6020C
def CEL_QUERY_NEED : Nat := 0x60210
def DEC_GEOM (i : Nat) : Nat := 0x70000 + 0x400 * i
def DEC_EMIT (i : Nat) : Nat := 0x7000C + 0x400 * i
def DEC_STATUS (i : Nat) : Nat := 0x70020 + 0x400 * i
def DEC_WIDTH (i : Nat) : Nat := 0x70004 + 0x400 * i
def DEC_OFFSET (i : Nat) : Nat := 0x70008 + 0x400 * i
def DEC_WIN_GRAN (i : Nat) : Nat := 0x70010 + 0x400 * i
def DEC_SHINGLE (i : Nat) : Nat := 0x70014 + 0x400 * i
def DEC_DUTY (i : Nat) : Nat := 0x70018 + 0x400 * i
def DEC_DEAD_LO (i : Nat) : Nat := 0x70024 + 0x400 * i
def DEC_DEAD_HI (i : Nat) : Nat := 0x70028 + 0x400 * i
def DEC_TOP_SHIFT (i : Nat) : Nat := 0x7002C + 0x400 * i
def DEC_CUR_TAG (i : Nat) : Nat := 0x70030 + 0x400 * i
def DEC_CUR_SWEEP (i : Nat) : Nat := 0x70034 + 0x400 * i
def DEC_LINES_LOST (i : Nat) : Nat := 0x70038 + 0x400 * i
def DEC_START_SLIP (i : Nat) : Nat := 0x7003C + 0x400 * i
def DEC_WIN_STATE (i : Nat) : Nat := 0x70040 + 0x400 * i
def DEC_DOTS_LO (i j : Nat) : Nat := 0x70080 + 0x400 * i + 0x8 * j
def DEC_DOTS_HI (i j : Nat) : Nat := 0x70084 + 0x400 * i + 0x8 * j
def DEC_DOTS_LOST_LO (i : Nat) : Nat := 0x70100 + 0x400 * i
def DEC_DOTS_LOST_HI (i : Nat) : Nat := 0x70104 + 0x400 * i
def EXP_LCFG (i : Nat) : Nat := 0x80000 + 0x100 * i
def EXP_STATUS (i : Nat) : Nat := 0x80004 + 0x100 * i
def EXP_LPITCH (i : Nat) : Nat := 0x80008 + 0x100 * i
def EXP_LINE_MAX (i : Nat) : Nat := 0x8000C + 0x100 * i
def EXP_LINE_MIN (i : Nat) : Nat := 0x80010 + 0x100 * i
def EXP_GRID (i : Nat) : Nat := 0x80014 + 0x100 * i
def EXP_BANDC (i : Nat) : Nat := 0x80018 + 0x100 * i
def EXP_LRATE (i : Nat) : Nat := 0x8001C + 0x100 * i
def EXP_TRACK_ERR (i : Nat) : Nat := 0x80020 + 0x100 * i
def EXP_TOP_RESID (i : Nat) : Nat := 0x80024 + 0x100 * i
def EXP_PHERR (i : Nat) : Nat := 0x80028 + 0x100 * i
def EXP_PHWARN (i : Nat) : Nat := 0x8002C + 0x100 * i
def EXP_BD_MISS (i : Nat) : Nat := 0x80030 + 0x100 * i
def EXP_LINES_SKIPPED (i : Nat) : Nat := 0x80034 + 0x100 * i
def EXP_SWEEP_TS_LO (i : Nat) : Nat := 0x80040 + 0x100 * i
def EXP_SWEEP_TS_HI (i : Nat) : Nat := 0x80044 + 0x100 * i
def EXP_BD_TS_LO (i : Nat) : Nat := 0x80048 + 0x100 * i
def EXP_BD_TS_HI (i : Nat) : Nat := 0x8004C + 0x100 * i
def EXP_BD_FRAC (i : Nat) : Nat := 0x80050 + 0x100 * i
def EXP_DCLK_DPS (i : Nat) : Nat := 0x80080 + 0x100 * i
def EXP_DCLK_MAX (i : Nat) : Nat := 0x80084 + 0x100 * i
def EXP_DCLK_MAG (i : Nat) : Nat := 0x80088 + 0x100 * i
def EXP_DCLK_START (i : Nat) : Nat := 0x8008C + 0x100 * i
def EXP_DCLK_STATUS (i : Nat) : Nat := 0x80090 + 0x100 * i
def EXP_DCLK_FREQ (i : Nat) : Nat := 0x80094 + 0x100 * i
def EXP_DCLK_UNLOCK (i : Nat) : Nat := 0x80098 + 0x100 * i
def EXP_POLY_CFG (i : Nat) : Nat := 0x81000 + 0x40 * i
def EXP_POLY_STATUS (i : Nat) : Nat := 0x81004 + 0x40 * i
def EXP_POLY_ERR (i : Nat) : Nat := 0x81008 + 0x40 * i
def EXP_POLY_SLEW (i : Nat) : Nat := 0x8100C + 0x40 * i
def EXP_BOFS (i j k : Nat) : Nat := 0x84000 + 0x800 * i + 0x80 * j + 0x4 * k
def EXL_CFG (i : Nat) : Nat := 0x90000 + 0x200 * i
def EXL_CTRL (i : Nat) : Nat := 0x90004 + 0x200 * i
def EXL_STATUS (i : Nat) : Nat := 0x90008 + 0x200 * i
def EXL_HACC (i : Nat) : Nat := 0x90020 + 0x200 * i
def EXL_HEAD_CAP (i : Nat) : Nat := 0x9000C + 0x200 * i
def EXL_HEAD_TEMP (i : Nat) : Nat := 0x90010 + 0x200 * i
def EXL_RESP_TO (i : Nat) : Nat := 0x90014 + 0x200 * i
def EXL_TRAIN_TO (i : Nat) : Nat := 0x90018 + 0x200 * i
def EXL_CRC_LIMIT (i : Nat) : Nat := 0x9001C + 0x200 * i
def EXL_HDATA (i : Nat) : Nat := 0x90024 + 0x200 * i
def EXL_RETRAINS (i : Nat) : Nat := 0x90040 + 0x200 * i
def EXL_CRC_ERR (i : Nat) : Nat := 0x90044 + 0x200 * i
def EXL_LINES_DARK (i : Nat) : Nat := 0x90048 + 0x200 * i
def EXL_SWEEP_LATE (i : Nat) : Nat := 0x9004C + 0x200 * i
def EXL_RESP_TIMEOUTS (i : Nat) : Nat := 0x90050 + 0x200 * i
def EXL_BD_REJECT (i : Nat) : Nat := 0x90054 + 0x200 * i
def EXL_RX_SYNC_ERR (i : Nat) : Nat := 0x90058 + 0x200 * i
def EXL_DOTS_DARK_LO (i : Nat) : Nat := 0x90060 + 0x200 * i
def EXL_DOTS_DARK_HI (i : Nat) : Nat := 0x90064 + 0x200 * i
def EXL_APC (i j : Nat) : Nat := 0x90100 + 0x200 * i + 0x4 * j
def FBK_CFG (i : Nat) : Nat := 0xD0000 + 0x40 * i
def FBK_STATUS (i : Nat) : Nat := 0xD0004 + 0x40 * i
def FBK_POS (i : Nat) : Nat := 0xD0008 + 0x40 * i
def FBK_SPD (i : Nat) : Nat := 0xD000C + 0x40 * i
def FBK_SPD_TO (i : Nat) : Nat := 0xD0010 + 0x40 * i
def FBK_REV (i : Nat) : Nat := 0xD0014 + 0x40 * i
def FBK_IDX_POS (i : Nat) : Nat := 0xD0018 + 0x40 * i
def FBK_IDX_WIN (i : Nat) : Nat := 0xD001C + 0x40 * i
def FBK_IDX_ERR (i : Nat) : Nat := 0xD0020 + 0x40 * i
def FBK_IDX_CORR (i : Nat) : Nat := 0xD0024 + 0x40 * i
def FBK_IDX_MISM (i : Nat) : Nat := 0xD0028 + 0x40 * i
def FBK_IDX_CTRL (i : Nat) : Nat := 0xD002C + 0x40 * i
def FBK_ERR (i : Nat) : Nat := 0xD0030 + 0x40 * i
def FBK_SC_OFS (i : Nat) : Nat := 0xD0034 + 0x40 * i
def FBK_SC_GAIN (i : Nat) : Nat := 0xD0038 + 0x40 * i
def FBK_SC_EXC (i : Nat) : Nat := 0xD003C + 0x40 * i
def FBK_CMP_CFG (i : Nat) : Nat := 0xD1000 + 0x20 * i
def FBK_CMP_POS (i : Nat) : Nat := 0xD1004 + 0x20 * i
def FBK_CMP_STEP (i : Nat) : Nat := 0xD1008 + 0x20 * i
def FBK_CMP_TS_LO (i : Nat) : Nat := 0xD100C + 0x20 * i
def FBK_CMP_TS_HI (i : Nat) : Nat := 0xD1010 + 0x20 * i
def FBK_CMP_CNT (i : Nat) : Nat := 0xD1014 + 0x20 * i
def SNS_CFG (i : Nat) : Nat := 0x180000 + 0x10 * i
def SNS_STATE (i : Nat) : Nat := 0x180004 + 0x10 * i
def SNS_TS_LO (i : Nat) : Nat := 0x180008 + 0x10 * i
def SNS_TS_HI (i : Nat) : Nat := 0x18000C + 0x10 * i
def SNS_PRB_CFG (i : Nat) : Nat := 0x181000 + 0x20 * i
def SNS_PRB_STATUS (i : Nat) : Nat := 0x181004 + 0x20 * i
def SNS_PRB_POS (i : Nat) : Nat := 0x181008 + 0x20 * i
def SNS_PRB_TS_LO (i : Nat) : Nat := 0x18100C + 0x20 * i
def SNS_PRB_TS_HI (i : Nat) : Nat := 0x181010 + 0x20 * i
def SNS_PRB_POP (i : Nat) : Nat := 0x181014 + 0x20 * i
def MOT_CFG (i : Nat) : Nat := 0xB0000 + 0x100 * i
def MOT_STATUS (i : Nat) : Nat := 0xB005C + 0x100 * i
def MOT_CTRL (i : Nat) : Nat := 0xB0050 + 0x100 * i
def MOT_HB_MAP (i : Nat) : Nat := 0xB0004 + 0x100 * i
def MOT_AIN (i : Nat) : Nat := 0xB0008 + 0x100 * i
def MOT_VSENSE (i : Nat) : Nat := 0xB000C + 0x100 * i
def MOT_ISCALE (i : Nat) : Nat := 0xB0010 + 0x100 * i
def MOT_KP (i : Nat) : Nat := 0xB0014 + 0x100 * i
def MOT_KI (i : Nat) : Nat := 0xB0018 + 0x100 * i
def MOT_ILIM (i : Nat) : Nat := 0xB001C + 0x100 * i
def MOT_MOD_MAX (i : Nat) : Nat := 0xB0020 + 0x100 * i
def MOT_HO_LO (i : Nat) : Nat := 0xB0024 + 0x100 * i
def MOT_HO_HI (i : Nat) : Nat := 0xB0028 + 0x100 * i
def MOT_HO_TOL (i : Nat) : Nat := 0xB002C + 0x100 * i
def MOT_HFI_AMP (i : Nat) : Nat := 0xB0030 + 0x100 * i
def MOT_RES_TH (i : Nat) : Nat := 0xB0034 + 0x100 * i
def MOT_ENC_OFS (i : Nat) : Nat := 0xB0038 + 0x100 * i
def MOT_OFF_RAMP (i : Nat) : Nat := 0xB003C + 0x100 * i
def MOT_SS_TMIN (i : Nat) : Nat := 0xB0040 + 0x100 * i
def MOT_CATCH_T (i : Nat) : Nat := 0xB0044 + 0x100 * i
def MOT_HOLD (i : Nat) : Nat := 0xB0048 + 0x100 * i
def MOT_PULLIN (i : Nat) : Nat := 0xB004C + 0x100 * i
def MOT_ID_REF (i : Nat) : Nat := 0xB0054 + 0x100 * i
def MOT_IQ_REF (i : Nat) : Nat := 0xB0058 + 0x100 * i
def MOT_ID (i : Nat) : Nat := 0xB0060 + 0x100 * i
def MOT_IQ (i : Nat) : Nat := 0xB0064 + 0x100 * i
def MOT_VD (i : Nat) : Nat := 0xB0068 + 0x100 * i
def MOT_VQ (i : Nat) : Nat := 0xB006C + 0x100 * i
def MOT_ANGLE (i : Nat) : Nat := 0xB0070 + 0x100 * i
def MOT_SPEED (i : Nat) : Nat := 0xB0074 + 0x100 * i
def MOT_RESID (i : Nat) : Nat := 0xB0078 + 0x100 * i
def MOT_IQ_FF (i : Nat) : Nat := 0xB007C + 0x100 * i
def MOT_LOSSES (i : Nat) : Nat := 0xB0080 + 0x100 * i
def MOT_SS_SHIFTS (i : Nat) : Nat := 0xB0084 + 0x100 * i
def MOT_OL_I (i : Nat) : Nat := 0xB0088 + 0x100 * i
def MOT_OL_RATE (i : Nat) : Nat := 0xB008C + 0x100 * i
def MOT_OL_ALIGN (i : Nat) : Nat := 0xB0090 + 0x100 * i
def MOT_BRK_CFG (i : Nat) : Nat := 0xB1000 + 0x10 * i
def MOT_BRK_ON (i : Nat) : Nat := 0xB1004 + 0x10 * i
def MOT_BRK_OFF (i : Nat) : Nat := 0xB1008 + 0x10 * i
def MOT_BRK_STAT (i : Nat) : Nat := 0xB100C + 0x10 * i
def MOT_PADV_SPD (i j : Nat) : Nat := 0xB2000 + 0x100 * i + 0x4 * j
def MOT_PADV_ADV (i j : Nat) : Nat := 0xB2040 + 0x100 * i + 0x4 * j
def GDR_STATUS : Nat := 0xE0000
def GDR_VGL_CFG : Nat := 0xE0004
def GDR_REFRESH : Nat := 0xE0008
def GDR_BUS_CFG (i : Nat) : Nat := 0xE0010 + 0x10 * i
def GDR_BUS_WARN (i : Nat) : Nat := 0xE0014 + 0x10 * i
def GDR_BUS_TRIP (i : Nat) : Nat := 0xE0018 + 0x10 * i
def GDR_BUS_VAL (i : Nat) : Nat := 0xE001C + 0x10 * i
def GDR_CHOP_CHK (i : Nat) : Nat := 0xE0050 + 0x10 * i
def GDR_CHOP_STAT (i : Nat) : Nat := 0xE0054 + 0x10 * i
def GDR_GRP_CFG (i : Nat) : Nat := 0xE0100 + 0x20 * i
def GDR_GRP_STATUS (i : Nat) : Nat := 0xE0104 + 0x20 * i
def GDR_GRP_CTRL (i : Nat) : Nat := 0xE0108 + 0x20 * i
def GDR_GRP_FAULTS (i : Nat) : Nat := 0xE010C + 0x20 * i
def GDR_HB_CFG (i : Nat) : Nat := 0xE0400 + 0x10 * i
def GDR_HB_STATUS (i : Nat) : Nat := 0xE0404 + 0x10 * i
def MOV_AX_CFG (i : Nat) : Nat := 0xC0000 + 0x100 * i
def MOV_AX_STATUS (i : Nat) : Nat := 0xC0028 + 0x100 * i
def MOV_AX_CMD (i : Nat) : Nat := 0xC0004 + 0x100 * i
def MOV_AX_TGT (i : Nat) : Nat := 0xC0008 + 0x100 * i
def MOV_AX_JOGV (i : Nat) : Nat := 0xC000C + 0x100 * i
def MOV_AX_VMAX (i : Nat) : Nat := 0xC0010 + 0x100 * i
def MOV_AX_AMAX (i : Nat) : Nat := 0xC0014 + 0x100 * i
def MOV_AX_DMAX (i : Nat) : Nat := 0xC0018 + 0x100 * i
def MOV_AX_JMAX (i : Nat) : Nat := 0xC001C + 0x100 * i
def MOV_AX_DSTOP (i : Nat) : Nat := 0xC0020 + 0x100 * i
def MOV_AX_DEFF (i : Nat) : Nat := 0xC0024 + 0x100 * i
def MOV_AX_PCMD (i : Nat) : Nat := 0xC002C + 0x100 * i
def MOV_AX_VCMD (i : Nat) : Nat := 0xC0030 + 0x100 * i
def MOV_AX_ACMD (i : Nat) : Nat := 0xC0034 + 0x100 * i
def MOV_AX_REMAIN (i : Nat) : Nat := 0xC0038 + 0x100 * i
def MOV_AX_SEG (i : Nat) : Nat := 0xC003C + 0x100 * i
def MOV_AX_OFS (i : Nat) : Nat := 0xC0040 + 0x100 * i
def MOV_AX_TMO (i : Nat) : Nat := 0xC0044 + 0x100 * i
def MOV_AX_SEFF (i : Nat) : Nat := 0xC0048 + 0x100 * i
def MOV_HOME_CFG (i : Nat) : Nat := 0xC0050 + 0x100 * i
def MOV_LIM_CFG (i : Nat) : Nat := 0xC0054 + 0x100 * i
def MOV_HOME_V1 (i : Nat) : Nat := 0xC0058 + 0x100 * i
def MOV_HOME_V2 (i : Nat) : Nat := 0xC005C + 0x100 * i
def MOV_HOME_POS (i : Nat) : Nat := 0xC0060 + 0x100 * i
def MOV_HOME_CHAT (i : Nat) : Nat := 0xC0064 + 0x100 * i
def MOV_AX_CHATTER (i : Nat) : Nat := 0xC0068 + 0x100 * i
def MOV_AX_SUPERSEDED (i : Nat) : Nat := 0xC006C + 0x100 * i
def MOV_STP_CFG (i : Nat) : Nat := 0xC0080 + 0x100 * i
def MOV_STP_IRUN (i : Nat) : Nat := 0xC0084 + 0x100 * i
def MOV_STP_IHOLD (i : Nat) : Nat := 0xC0088 + 0x100 * i
def MOV_STP_THR (i j : Nat) : Nat := 0xC008C + 0x100 * i + 0x4 * j
def MOV_STP_BOOST (i : Nat) : Nat := 0xC009C + 0x100 * i
def MOV_STP_RW (i : Nat) : Nat := 0xC00A0 + 0x100 * i
def MOV_STP_LW (i : Nat) : Nat := 0xC00A4 + 0x100 * i
def MOV_STP_VMIN (i : Nat) : Nat := 0xC00A8 + 0x100 * i
def MOV_STP_STATE (i : Nat) : Nat := 0xC00AC + 0x100 * i
def MOV_SD_CFG (i : Nat) : Nat := 0xC0CC0 + 0x100 * i
def MOV_SD_TIM (i : Nat) : Nat := 0xC0CC4 + 0x100 * i
def MOV_JW_CFG (i : Nat) : Nat := 0xC2000 + 0x20 * i
def MOV_JW_SHEET (i : Nat) : Nat := 0xC2004 + 0x20 * i
def MOV_JW_TIME (i : Nat) : Nat := 0xC2008 + 0x20 * i
def MOV_JW_CTRL (i : Nat) : Nat := 0xC200C + 0x20 * i
def MOV_JW_STATUS (i : Nat) : Nat := 0xC2010 + 0x20 * i
def MOV_JW_TS_LO (i : Nat) : Nat := 0xC2014 + 0x20 * i
def MOV_JW_TS_HI (i : Nat) : Nat := 0xC2018 + 0x20 * i
def MOV_PAPEROUT (i : Nat) : Nat := 0xC2800 + 0x4 * i
def MOV_JAM_GATE : Nat := 0xC2810
def MOV_WAVE (i j : Nat) : Nat := 0xC3000 + 0x800 * i + 0x4 * j
def MOV_SEGMENT (i j : Nat) : Nat := 0xC8000 + 0x10 * i + 0x4 * j
def CLE_STATUS : Nat := 0xA0000
def CLE_CLAMP_SUM (i : Nat) : Nat := 0xA0010 + 0x4 * i
def CLE_STALE_SUM (i : Nat) : Nat := 0xA0030 + 0x4 * i
def CLE_SLOT_CFG (i : Nat) : Nat := 0xA1000 + 0x20 * i
def CLE_SLOT_REF (i : Nat) : Nat := 0xA1004 + 0x20 * i
def CLE_SLOT_FB (i : Nat) : Nat := 0xA1008 + 0x20 * i
def CLE_SLOT_OUT (i : Nat) : Nat := 0xA100C + 0x20 * i
def CLE_SLOT_SEL (i : Nat) : Nat := 0xA1010 + 0x20 * i
def CLE_SLOT_RCONST (i : Nat) : Nat := 0xA1014 + 0x20 * i
def CLE_SLOT_HYS (i : Nat) : Nat := 0xA1018 + 0x20 * i
def CLE_SLOT_CTRL (i : Nat) : Nat := 0xA101C + 0x20 * i
def CLE_SLOT_E (i : Nat) : Nat := 0xA3000 + 0x8 * i
def CLE_SLOT_U (i : Nat) : Nat := 0xA3004 + 0x8 * i
def CLE_RC_CFG (i : Nat) : Nat := 0xA4000 + 0x20 * i
def CLE_RC_GAIN (i : Nat) : Nat := 0xA4004 + 0x20 * i
def CLE_RC_Q (i : Nat) : Nat := 0xA4008 + 0x20 * i
def CLE_RC_LIM (i : Nat) : Nat := 0xA400C + 0x20 * i
def CLE_RC_STATUS (i : Nat) : Nat := 0xA4010 + 0x20 * i
def CLE_INJ_CFG (i : Nat) : Nat := 0xA5000 + 0x20 * i
def CLE_INJ_AMP (i : Nat) : Nat := 0xA5004 + 0x20 * i
def CLE_INJ_F0 (i : Nat) : Nat := 0xA5008 + 0x20 * i
def CLE_INJ_F1 (i : Nat) : Nat := 0xA500C + 0x20 * i
def CLE_INJ_LEN (i : Nat) : Nat := 0xA5010 + 0x20 * i
def CLE_INJ_CTRL (i : Nat) : Nat := 0xA5014 + 0x20 * i
def CLE_INJ_STATUS (i : Nat) : Nat := 0xA5018 + 0x20 * i
def CLE_INJ_VAL (i : Nat) : Nat := 0xA501C + 0x20 * i
def CLE_CAP_SIG (i : Nat) : Nat := 0xA6000 + 0x4 * i
def CLE_CAP_CFG : Nat := 0xA6010
def CLE_CAP_LEVEL : Nat := 0xA6014
def CLE_CAP_CTRL : Nat := 0xA6018
def CLE_CAP_STATUS : Nat := 0xA601C
def CLE_CAP_COUNT : Nat := 0xA6020
def CLE_CAP_FIRST : Nat := 0xA6024
def CLE_CAP_XFER_LO : Nat := 0xA6028
def CLE_CAP_XFER_HI : Nat := 0xA602C
def CLE_CAP_XFER_CTRL : Nat := 0xA6030
def THM_CFG (i : Nat) : Nat := 0x110000 + 0x20 * i
def THM_SH_A (i : Nat) : Nat := 0x110004 + 0x20 * i
def THM_SH_B (i : Nat) : Nat := 0x110008 + 0x20 * i
def THM_SH_C (i : Nat) : Nat := 0x11000C + 0x20 * i
def THM_LIM (i : Nat) : Nat := 0x110010 + 0x20 * i
def THM_TEMP (i : Nat) : Nat := 0x110014 + 0x20 * i
def THM_STAT (i : Nat) : Nat := 0x110018 + 0x20 * i
def THM_RISE (i : Nat) : Nat := 0x11001C + 0x20 * i
def THM_BAND_CFG (i : Nat) : Nat := 0x111000 + 0x10 * i
def THM_BAND_CUT01 (i : Nat) : Nat := 0x111004 + 0x10 * i
def THM_BAND_CUT2 (i : Nat) : Nat := 0x111008 + 0x10 * i
def THM_BAND_STAT (i : Nat) : Nat := 0x11100C + 0x10 * i
def THM_EXP_SEL : Nat := 0x112000
def THM_DRAM : Nat := 0x112004
def THM_DIE : Nat := 0x112008
def IRN_MAINS : Nat := 0xF0000
def IRN_ZC_OFS : Nat := 0xF0004
def IRN_MAINS_REJ : Nat := 0xF0008
def IRN_HTR_CFG (i : Nat) : Nat := 0xF0100 + 0x40 * i
def IRN_HTR_PROT (i : Nat) : Nat := 0xF0104 + 0x40 * i
def IRN_HTR_CMD (i : Nat) : Nat := 0xF0108 + 0x40 * i
def IRN_IND_FREQ (i : Nat) : Nat := 0xF010C + 0x40 * i
def IRN_IND_CFG (i : Nat) : Nat := 0xF0110 + 0x40 * i
def IRN_HTR_STATUS (i : Nat) : Nat := 0xF0114 + 0x40 * i
def IRN_HTR_APPLIED (i : Nat) : Nat := 0xF0118 + 0x40 * i
def IRN_HTR_CTRL (i : Nat) : Nat := 0xF011C + 0x40 * i
def IRN_HTR_TRIPS (i : Nat) : Nat := 0xF0120 + 0x40 * i
def HVS_PERIOD : Nat := 0x101000
def HVS_CFG (i : Nat) : Nat := 0x100000 + 0x40 * i
def HVS_SCALE (i : Nat) : Nat := 0x100004 + 0x40 * i
def HVS_ASCALE (i : Nat) : Nat := 0x100008 + 0x40 * i
def HVS_KP (i : Nat) : Nat := 0x10000C + 0x40 * i
def HVS_KI (i : Nat) : Nat := 0x100010 + 0x40 * i
def HVS_DLIM (i : Nat) : Nat := 0x100014 + 0x40 * i
def HVS_RAMP_UP (i : Nat) : Nat := 0x100018 + 0x40 * i
def HVS_RAMP_DN (i : Nat) : Nat := 0x10001C + 0x40 * i
def HVS_SET (i : Nat) : Nat := 0x100020 + 0x40 * i
def HVS_TRIP_MON (i : Nat) : Nat := 0x100024 + 0x40 * i
def HVS_TRIP_AUX (i : Nat) : Nat := 0x100028 + 0x40 * i
def HVS_AC_FREQ (i : Nat) : Nat := 0x10002C + 0x40 * i
def HVS_AC_SET (i : Nat) : Nat := 0x100030 + 0x40 * i
def HVS_AC_KI (i : Nat) : Nat := 0x100034 + 0x40 * i
def HVS_CTRL (i : Nat) : Nat := 0x100038 + 0x40 * i
def HVS_STATUS (i : Nat) : Nat := 0x10003C + 0x40 * i
def HVS_MON (i : Nat) : Nat := 0x100800 + 0x10 * i
def HVS_AUX (i : Nat) : Nat := 0x100804 + 0x10 * i
def HVS_AC_MEAS (i : Nat) : Nat := 0x100808 + 0x10 * i
def HVS_TRIPS (i : Nat) : Nat := 0x10080C + 0x10 * i
def LDG_STATUS : Nat := 0x130000
def LDG_RINSE : Nat := 0x130018
def LDG_POP_PATH : Nat := 0x130004
def LDG_POP_JAM : Nat := 0x130008
def LDG_POP_STRAND : Nat := 0x13000C
def LDG_NEXT_ID : Nat := 0x130010
def LDG_UNRESOLVED : Nat := 0x130014
def LDG_RINSE_TO : Nat := 0x13001C
def LDG_SPOIL : Nat := 0x130020
def LDG_CNT_LO (i : Nat) : Nat := 0x130040 + 0x8 * i
def LDG_CNT_HI (i : Nat) : Nat := 0x130044 + 0x8 * i
def LDG_QUERY : Nat := 0x130100
def LDG_QUERY_PLACE : Nat := 0x130104
def LDG_METER (i : Nat) : Nat := 0x131000 + 0x4 * i
def SEC_STATUS : Nat := 0x140000
def SEC_ID_PUB (i : Nat) : Nat := 0x140010 + 0x4 * i
def SEC_ID_HASH (i : Nat) : Nat := 0x140050 + 0x4 * i
def SEC_MONO_LO (i : Nat) : Nat := 0x140080 + 0x8 * i
def SEC_MONO_HI (i : Nat) : Nat := 0x140084 + 0x8 * i
def SEC_RNG : Nat := 0x1400A0
def SEC_PROV : Nat := 0x1400B0
def SEC_PROV_RESULT : Nat := 0x1400B4
def SEC_PROV_DATA (i : Nat) : Nat := 0x1400C0 + 0x4 * i
def SEC_ROOT_REVOKE : Nat := 0x1400E0
def SEC_DBG_CHAL (i : Nat) : Nat := 0x140100 + 0x4 * i
def SEC_DBG_CTRL : Nat := 0x140120
def SEC_DBG_LEN : Nat := 0x140124
def SEC_DBG_RESULT : Nat := 0x140128
def SEC_TOKEN (i : Nat) : Nat := 0x140400 + 0x4 * i
def SEC_CON_CFG (i : Nat) : Nat := 0x141000 + 0x40 * i
def SEC_CON_TO (i : Nat) : Nat := 0x141004 + 0x40 * i
def SEC_CON_CTRL (i : Nat) : Nat := 0x141008 + 0x40 * i
def SEC_CON_STATUS (i : Nat) : Nat := 0x14100C + 0x40 * i
def SEC_CON_SERIAL_LO (i : Nat) : Nat := 0x141010 + 0x40 * i
def SEC_CON_SERIAL_HI (i : Nat) : Nat := 0x141014 + 0x40 * i
def SEC_CON_FAILS (i : Nat) : Nat := 0x141018 + 0x40 * i
def PSQ_STATUS : Nat := 0x120000
def PSQ_CFG : Nat := 0x120004
def PSQ_GOOD : Nat := 0x120008
def PSQ_ENABLED : Nat := 0x12000C
def PSQ_LAST : Nat := 0x120010
def PSQ_FAIL_DOWN : Nat := 0x120014
def PSQ_SHUTOFF_CNT : Nat := 0x120018
def PSQ_RAIL_CFG (i : Nat) : Nat := 0x120100 + 0x20 * i
def PSQ_RAIL_STATUS (i : Nat) : Nat := 0x120114 + 0x20 * i
def PSQ_RAIL_DEPS (i : Nat) : Nat := 0x120104 + 0x20 * i
def PSQ_RAIL_NOM (i : Nat) : Nat := 0x120108 + 0x20 * i
def PSQ_RAIL_WIN (i : Nat) : Nat := 0x12010C + 0x20 * i
def PSQ_RAIL_TO (i : Nat) : Nat := 0x120110 + 0x20 * i
def PSQ_RAIL_MARGIN (i : Nat) : Nat := 0x120118 + 0x20 * i
def PSQ_RAIL_CTRL (i : Nat) : Nat := 0x12011C + 0x20 * i
def EVT_CTRL : Nat := 0x150000
def EVT_STATUS : Nat := 0x150004
def EVT_MEND : Nat := 0x150080
def EVT_SERIAL_LO : Nat := 0x150008
def EVT_SERIAL_HI : Nat := 0x15000C
def EVT_COAL : Nat := 0x150010
def EVT_DROP_LO (i : Nat) : Nat := 0x150020 + 0x8 * i
def EVT_DROP_HI (i : Nat) : Nat := 0x150024 + 0x8 * i
def EVT_HIST_NEXT : Nat := 0x150100
def EVT_HIST (i j : Nat) : Nat := 0x151000 + 0x20 * i + 0x4 * j
def CHN_CFG : Nat := 0x160000
def CHN_STATUS : Nat := 0x160004
def CHN_PORT_STATUS (i : Nat) : Nat := 0x160010 + 0x4 * i
def CHN_LAT (i : Nat) : Nat := 0x160018 + 0x4 * i
def CHN_PHASE_ERR : Nat := 0x160020
def CHN_TRIM : Nat := 0x160024
def CHN_TICK_OFS_LO : Nat := 0x160028
def CHN_TICK_OFS_HI : Nat := 0x16002C
def CHN_PEND_IN : Nat := 0x160030
def CHN_HO_LAST : Nat := 0x160034
def CHN_HO_LAST_ID : Nat := 0x160038
def CHN_STOP : Nat := 0x160040
def CHN_STOP_MASK : Nat := 0x160044
def CHN_DROP : Nat := 0x160048
def CHN_CRC_ERR (i : Nat) : Nat := 0x16004C + 0x4 * i
def CHN_MSG_TX (i : Nat) : Nat := 0x160100 + 0x4 * i
def CHN_MSG_POST : Nat := 0x160110
def CHN_MSG_RX (i j : Nat) : Nat := 0x160200 + 0x20 * i + 0x4 * j
def CHN_MSG_RX_STAT (i : Nat) : Nat := 0x16020C + 0x20 * i

end R

/-! ## Bit fields -/

namespace F

def DEV_ID_PART : Fld := ⟨R.DEV_ID, 16, 16⟩
def DEV_ID_FAMILY : Fld := ⟨R.DEV_ID, 8, 8⟩
def DEV_ID_STEP : Fld := ⟨R.DEV_ID, 0, 8⟩
def DEV_STATE_STATE : Fld := ⟨R.DEV_STATE, 0, 4⟩
def DEV_STATE_MEND : Fld := ⟨R.DEV_STATE, 8, 1⟩
def DEV_STATE_BRIDGE_UP : Fld := ⟨R.DEV_STATE, 9, 1⟩
def DEV_STATE_PAIRED : Fld := ⟨R.DEV_STATE, 10, 1⟩
def DEV_STATE_HOST_READY : Fld := ⟨R.DEV_STATE, 11, 1⟩
def DEV_RESET_ENGINE : Fld := ⟨R.DEV_RESET, 0, 1⟩
def DEV_RESET_KEY : Fld := ⟨R.DEV_RESET, 16, 16⟩
def DEV_RESET_CAUSE_POR : Fld := ⟨R.DEV_RESET_CAUSE, 0, 1⟩
def DEV_RESET_CAUSE_REG : Fld := ⟨R.DEV_RESET_CAUSE, 1, 1⟩
def DEV_RESET_CAUSE_PIN : Fld := ⟨R.DEV_RESET_CAUSE, 2, 1⟩
def DEV_RESET_CAUSE_FLR : Fld := ⟨R.DEV_RESET_CAUSE, 3, 1⟩
def DEV_RESET_CAUSE_PERST : Fld := ⟨R.DEV_RESET_CAUSE, 4, 1⟩
def DEV_RESET_CAUSE_PAIRING : Fld := ⟨R.DEV_RESET_CAUSE, 5, 1⟩
def DEV_RESET_CAUSE_BRIDGE : Fld := ⟨R.DEV_RESET_CAUSE, 6, 1⟩
def DEV_RESET_CAUSE_EXTRA : Fld := ⟨R.DEV_RESET_CAUSE, 16, 8⟩
def BRG_STATUS_UP : Fld := ⟨R.BRG_STATUS, 0, 1⟩
def BRG_STATUS_LOST : Fld := ⟨R.BRG_STATUS, 1, 1⟩
def BRG_STATUS_DRIVE_SAFE : Fld := ⟨R.BRG_STATUS, 2, 1⟩
def BRG_STATUS_MISS_UP : Fld := ⟨R.BRG_STATUS, 3, 1⟩
def BRG_STATUS_MISS_DN : Fld := ⟨R.BRG_STATUS, 4, 1⟩
def BRG_STATUS_LATE_UP : Fld := ⟨R.BRG_STATUS, 5, 1⟩
def BRG_STATUS_LINES : Fld := ⟨R.BRG_STATUS, 8, 4⟩
def VIN_STATUS_SLOT : Fld := ⟨R.VIN_STATUS, 0, 3⟩
def VIN_STATUS_LOADED : Fld := ⟨R.VIN_STATUS, 3, 1⟩
def VIN_STATUS_CHECKED : Fld := ⟨R.VIN_STATUS, 4, 1⟩
def VIN_STATUS_DIRTY : Fld := ⟨R.VIN_STATUS, 5, 1⟩
def VIN_STATUS_PENDING : Fld := ⟨R.VIN_STATUS, 6, 1⟩
def VIN_STATUS_WHOLE : Fld := ⟨R.VIN_STATUS, 7, 1⟩
def VIN_STATUS_DEFERRED : Fld := ⟨R.VIN_STATUS, 8, 6⟩
def VIN_STATUS_RESULT : Fld := ⟨R.VIN_STATUS, 16, 4⟩
def VIN_CHECK_RESULT_CLASS : Fld := ⟨R.VIN_CHECK_RESULT, 0, 4⟩
def VIN_CHECK_RESULT_RULE : Fld := ⟨R.VIN_CHECK_RESULT, 4, 12⟩
def VIN_CHECK_RESULT_STATION : Fld := ⟨R.VIN_CHECK_RESULT, 16, 3⟩
def VIN_CURRENT_CUR : Fld := ⟨R.VIN_CURRENT, 0, 3⟩
def VIN_CURRENT_PREV : Fld := ⟨R.VIN_CURRENT, 4, 3⟩
def VIN_CURRENT_PREV_VALID : Fld := ⟨R.VIN_CURRENT, 7, 1⟩
def SEQ_CTRL_FAULT_THREAD : Fld := ⟨R.SEQ_CTRL, 0, 4⟩
def SEQ_STATUS_HALTED : Fld := ⟨R.SEQ_STATUS, 0, 16⟩
def SEQ_STATUS_NO_HANDLER : Fld := ⟨R.SEQ_STATUS, 16, 1⟩
def SEQ_STATUS_SUSPENDED : Fld := ⟨R.SEQ_STATUS, 17, 1⟩
def SEQ_FAULT_SRC_SRC : Fld := ⟨R.SEQ_FAULT_SRC, 0, 16⟩
def SEQ_THR_RESTART_THREAD : Fld := ⟨R.SEQ_THR_RESTART, 0, 4⟩
def SEQ_DBG_THREAD : Fld := ⟨R.SEQ_DBG, 0, 4⟩
def SEQ_DBG_OP : Fld := ⟨R.SEQ_DBG, 4, 2⟩
def SEQ_SHARED_WIN_BASE : Fld := ⟨R.SEQ_SHARED_WIN, 0, 10⟩
def SEQ_SHARED_WIN_SIZE : Fld := ⟨R.SEQ_SHARED_WIN, 16, 10⟩
def SEQ_HOST_WIN_BASE : Fld := ⟨R.SEQ_HOST_WIN, 0, 10⟩
def SEQ_HOST_WIN_SIZE : Fld := ⟨R.SEQ_HOST_WIN, 16, 10⟩
def SEQ_EVMAP_CLASS (i : Nat) : Fld := ⟨(R.SEQ_EVMAP i), 0, 8⟩
def SEQ_EVMAP_INST (i : Nat) : Fld := ⟨(R.SEQ_EVMAP i), 8, 8⟩
def SEQ_EVMAP_TARGETS (i : Nat) : Fld := ⟨(R.SEQ_EVMAP i), 16, 16⟩
def SEQ_THR_CFG_EN (i : Nat) : Fld := ⟨(R.SEQ_THR_CFG i), 0, 1⟩
def SEQ_THR_CFG_BUDGET (i : Nat) : Fld := ⟨(R.SEQ_THR_CFG i), 4, 12⟩
def SEQ_THR_ENTRY (i : Nat) : Fld := ⟨(R.SEQ_THR_ENTRY i), 0, 16⟩
def SEQ_THR_WIN_BASE (i : Nat) : Fld := ⟨(R.SEQ_THR_WIN i), 0, 10⟩
def SEQ_THR_WIN_SIZE (i : Nat) : Fld := ⟨(R.SEQ_THR_WIN i), 16, 10⟩
def SEQ_THR_STATE_ST (i : Nat) : Fld := ⟨(R.SEQ_THR_STATE i), 0, 3⟩
def SEQ_THR_STATE_FAULT (i : Nat) : Fld := ⟨(R.SEQ_THR_STATE i), 4, 4⟩
def SEQ_THR_STATE_CONSEC (i : Nat) : Fld := ⟨(R.SEQ_THR_STATE i), 8, 2⟩
def SEQ_THR_PC (i : Nat) : Fld := ⟨(R.SEQ_THR_PC i), 0, 16⟩
def SEQ_THR_USED_LAST (i : Nat) : Fld := ⟨(R.SEQ_THR_USED i), 0, 12⟩
def SEQ_THR_USED_MAX (i : Nat) : Fld := ⟨(R.SEQ_THR_USED i), 16, 12⟩
def SEQ_MBI_CFG_THREAD (i : Nat) : Fld := ⟨(R.SEQ_MBI_CFG i), 0, 4⟩
def SEQ_MBI_STATUS_FULL (i : Nat) : Fld := ⟨(R.SEQ_MBI_STATUS i), 0, 1⟩
def SEQ_MBI_STATUS_COUNT (i : Nat) : Fld := ⟨(R.SEQ_MBI_STATUS i), 8, 5⟩
def SEQ_MBO_POST (i : Nat) : Fld := ⟨(R.SEQ_MBO_POST i), 0, 5⟩
def SEQ_MBO_STATUS_FULL (i : Nat) : Fld := ⟨(R.SEQ_MBO_STATUS i), 0, 1⟩
def SEQ_MBO_STATUS_OVR (i : Nat) : Fld := ⟨(R.SEQ_MBO_STATUS i), 1, 1⟩
def SEQ_MBO_STATUS_COUNT (i : Nat) : Fld := ⟨(R.SEQ_MBO_STATUS i), 8, 5⟩
def HIF_CTRL_SQ0_EN : Fld := ⟨R.HIF_CTRL, 0, 1⟩
def HIF_CTRL_SQ1_EN : Fld := ⟨R.HIF_CTRL, 1, 1⟩
def HIF_CTRL_CQ_EN : Fld := ⟨R.HIF_CTRL, 2, 1⟩
def HIF_CTRL_EVR_EN : Fld := ⟨R.HIF_CTRL, 3, 1⟩
def HIF_CTRL_NS_PAGE : Fld := ⟨R.HIF_CTRL, 8, 1⟩
def HIF_STATUS_READY : Fld := ⟨R.HIF_STATUS, 0, 1⟩
def HIF_STATUS_AUDIT_FAIL : Fld := ⟨R.HIF_STATUS, 1, 1⟩
def HIF_STATUS_CQ_STALL : Fld := ⟨R.HIF_STATUS, 2, 1⟩
def HIF_PAGE_CREDITS : Fld := ⟨R.HIF_PAGE_CREDITS, 0, 9⟩
def HIF_COAL_COUNT : Fld := ⟨R.HIF_COAL, 0, 8⟩
def HIF_COAL_TICKS : Fld := ⟨R.HIF_COAL, 8, 8⟩
def HIF_RING_SIZE (i : Nat) : Fld := ⟨(R.HIF_RING_SIZE i), 0, 4⟩
def HIF_RING_DB (i : Nat) : Fld := ⟨(R.HIF_RING_DB i), 0, 12⟩
def HIF_RING_PTR_PTR (i : Nat) : Fld := ⟨(R.HIF_RING_PTR i), 0, 12⟩
def HIF_RING_PTR_PHASE (i : Nat) : Fld := ⟨(R.HIF_RING_PTR i), 16, 1⟩
def RCK_TOKENS_FREE : Fld := ⟨R.RCK_TOKENS, 0, 7⟩
def RCK_TOKENS_SHARED : Fld := ⟨R.RCK_TOKENS, 8, 7⟩
def RCK_SLOTS : Fld := ⟨R.RCK_SLOTS, 0, 8⟩
def RCK_CH_STATUS_STATE (i : Nat) : Fld := ⟨(R.RCK_CH_STATUS i), 0, 2⟩
def RCK_CH_STATUS_DIR (i : Nat) : Fld := ⟨(R.RCK_CH_STATUS i), 2, 1⟩
def RCK_CH_STATUS_CAUSE (i : Nat) : Fld := ⟨(R.RCK_CH_STATUS i), 4, 3⟩
def RCK_CH_STATUS_GEN (i : Nat) : Fld := ⟨(R.RCK_CH_STATUS i), 8, 4⟩
def RCK_CH_STATUS_TOKENS (i : Nat) : Fld := ⟨(R.RCK_CH_STATUS i), 16, 7⟩
def RCK_CH_CTRL_RESUME (i : Nat) : Fld := ⟨(R.RCK_CH_CTRL i), 0, 1⟩
def RCK_CH_CTRL_ABORT (i : Nat) : Fld := ⟨(R.RCK_CH_CTRL i), 1, 1⟩
def MEM_CFG_CAP_GIB : Fld := ⟨R.MEM_CFG, 0, 5⟩
def MEM_CFG_RATE : Fld := ⟨R.MEM_CFG, 16, 16⟩
def MEM_STATUS_TRAINED : Fld := ⟨R.MEM_STATUS, 0, 1⟩
def MEM_STATUS_REFRESH : Fld := ⟨R.MEM_STATUS, 1, 2⟩
def PRS_STATUS_IN_SERVICE : Fld := ⟨R.PRS_STATUS, 0, 4⟩
def PRS_STATUS_RETIRED : Fld := ⟨R.PRS_STATUS, 4, 4⟩
def PRS_STATUS_BUSY : Fld := ⟨R.PRS_STATUS, 8, 1⟩
def PRS_STATUS_SPACE_WAIT : Fld := ⟨R.PRS_STATUS, 9, 1⟩
def PRS_STATUS_PAUSED : Fld := ⟨R.PRS_STATUS, 10, 1⟩
def PRS_GEOM_GEN (i : Nat) : Fld := ⟨(R.PRS_GEOM_GEN i), 0, 16⟩
def PRS_LANE_PGFAULT (i : Nat) : Fld := ⟨(R.PRS_LANE_PGFAULT i), 0, 2⟩
def PRS_LANE_STATE_STATE (i : Nat) : Fld := ⟨(R.PRS_LANE_STATE i), 0, 2⟩
def PRS_LANE_STATE_WAIT (i : Nat) : Fld := ⟨(R.PRS_LANE_STATE i), 2, 1⟩
def PRS_LANE_CYCLES (i : Nat) : Fld := ⟨(R.PRS_LANE_CYCLES i), 0, 24⟩
def CEL_STATUS_AUDIT_FAIL : Fld := ⟨R.CEL_STATUS, 0, 1⟩
def CEL_STATUS_EVICTING : Fld := ⟨R.CEL_STATUS, 1, 1⟩
def CEL_STATUS_REFILLING : Fld := ⟨R.CEL_STATUS, 2, 1⟩
def CEL_STATUS_DRAM_FULL : Fld := ⟨R.CEL_STATUS, 3, 1⟩
def CEL_GRAN_FREE : Fld := ⟨R.CEL_GRAN_FREE, 0, 14⟩
def CEL_GRAN_ALLOC : Fld := ⟨R.CEL_GRAN_ALLOC, 0, 14⟩
def CEL_GRAN_TOTAL : Fld := ⟨R.CEL_GRAN_TOTAL, 0, 14⟩
def CEL_DGRAN_TOTAL : Fld := ⟨R.CEL_DGRAN_TOTAL, 0, 22⟩
def CEL_DGRAN_FREE : Fld := ⟨R.CEL_DGRAN_FREE, 0, 22⟩
def CEL_PAGES_HELD : Fld := ⟨R.CEL_PAGES, 0, 9⟩
def CEL_PAGES_COMMITTED : Fld := ⟨R.CEL_PAGES, 16, 9⟩
def CEL_MARGIN : Fld := ⟨R.CEL_MARGIN, 0, 8⟩
def CEL_REFILL_RESERVE : Fld := ⟨R.CEL_REFILL_RESERVE, 0, 14⟩
def CEL_PITCH_BASE : Fld := ⟨R.CEL_PITCH_BASE, 0, 16⟩
def CEL_PITCH_TARGET : Fld := ⟨R.CEL_PITCH_TARGET, 0, 9⟩
def CEL_PITCH_STEP : Fld := ⟨R.CEL_PITCH_STEP, 0, 16⟩
def CEL_PITCH_MAX : Fld := ⟨R.CEL_PITCH_MAX, 0, 16⟩
def CEL_PITCH_GAP : Fld := ⟨R.CEL_PITCH_GAP, 0, 16⟩
def CEL_LEAD_LINES (i : Nat) : Fld := ⟨(R.CEL_LEAD i), 0, 18⟩
def CEL_BANK_UERR_COUNT (i : Nat) : Fld := ⟨(R.CEL_BANK_UERR i), 0, 2⟩
def CEL_QUERY_TAG : Fld := ⟨R.CEL_QUERY, 0, 32⟩
def CEL_QUERY_STATE_STATE : Fld := ⟨R.CEL_QUERY_STATE, 0, 3⟩
def CEL_QUERY_STATE_DAMAGED : Fld := ⟨R.CEL_QUERY_STATE, 3, 1⟩
def CEL_QUERY_STATE_REASON : Fld := ⟨R.CEL_QUERY_STATE, 4, 4⟩
def CEL_QUERY_STATE_COND_B : Fld := ⟨R.CEL_QUERY_STATE, 8, 6⟩
def CEL_QUERY_STATE_SHORT : Fld := ⟨R.CEL_QUERY_STATE, 16, 6⟩
def CEL_QUERY_GRAN : Fld := ⟨R.CEL_QUERY_GRAN, 0, 14⟩
def CEL_QUERY_NEED : Fld := ⟨R.CEL_QUERY_NEED, 0, 16⟩
def DEC_GEOM_BEAMS (i : Nat) : Fld := ⟨(R.DEC_GEOM i), 0, 6⟩
def DEC_GEOM_SPACING (i : Nat) : Fld := ⟨(R.DEC_GEOM i), 8, 6⟩
def DEC_GEOM_SHINGLE (i : Nat) : Fld := ⟨(R.DEC_GEOM i), 16, 1⟩
def DEC_GEOM_DEPTH (i : Nat) : Fld := ⟨(R.DEC_GEOM i), 18, 2⟩
def DEC_GEOM_EN (i : Nat) : Fld := ⟨(R.DEC_GEOM i), 31, 1⟩
def DEC_EMIT_NSPARE (i : Nat) : Fld := ⟨(R.DEC_EMIT i), 0, 3⟩
def DEC_EMIT_BASE0 (i : Nat) : Fld := ⟨(R.DEC_EMIT i), 4, 3⟩
def DEC_STATUS_STATE (i : Nat) : Fld := ⟨(R.DEC_STATUS i), 0, 3⟩
def DEC_STATUS_WIN_BASE (i : Nat) : Fld := ⟨(R.DEC_STATUS i), 4, 3⟩
def DEC_STATUS_DUTY (i : Nat) : Fld := ⟨(R.DEC_STATUS i), 8, 2⟩
def DEC_STATUS_TEMP (i : Nat) : Fld := ⟨(R.DEC_STATUS i), 10, 2⟩
def DEC_STATUS_STALE (i : Nat) : Fld := ⟨(R.DEC_STATUS i), 12, 1⟩
def DEC_STATUS_NO_WINDOW (i : Nat) : Fld := ⟨(R.DEC_STATUS i), 13, 1⟩
def DEC_STATUS_WIN_SHORT (i : Nat) : Fld := ⟨(R.DEC_STATUS i), 14, 1⟩
def DEC_STATUS_SPARES_LOW (i : Nat) : Fld := ⟨(R.DEC_STATUS i), 15, 1⟩
def DEC_WIDTH (i : Nat) : Fld := ⟨(R.DEC_WIDTH i), 0, 17⟩
def DEC_OFFSET (i : Nat) : Fld := ⟨(R.DEC_OFFSET i), 0, 12⟩
def DEC_WIN_GRAN (i : Nat) : Fld := ⟨(R.DEC_WIN_GRAN i), 0, 14⟩
def DEC_SHINGLE_MASKS (i : Nat) : Fld := ⟨(R.DEC_SHINGLE i), 0, 2⟩
def DEC_SHINGLE_ROTATE (i : Nat) : Fld := ⟨(R.DEC_SHINGLE i), 2, 1⟩
def DEC_DUTY_CUT_0 (i : Nat) : Fld := ⟨(R.DEC_DUTY i), 0, 7⟩
def DEC_DUTY_CUT_1 (i : Nat) : Fld := ⟨(R.DEC_DUTY i), 8, 7⟩
def DEC_DUTY_CUT_2 (i : Nat) : Fld := ⟨(R.DEC_DUTY i), 16, 7⟩
def DEC_DUTY_HYS (i : Nat) : Fld := ⟨(R.DEC_DUTY i), 24, 4⟩
def DEC_DEAD_HI (i : Nat) : Fld := ⟨(R.DEC_DEAD_HI i), 0, 4⟩
def DEC_TOP_SHIFT (i : Nat) : Fld := ⟨(R.DEC_TOP_SHIFT i), 0, 16⟩
def DEC_WIN_STATE_GRAN (i : Nat) : Fld := ⟨(R.DEC_WIN_STATE i), 0, 14⟩
def DEC_WIN_STATE_SLOTS (i : Nat) : Fld := ⟨(R.DEC_WIN_STATE i), 16, 3⟩
def EXP_LCFG_SC (i : Nat) : Fld := ⟨(R.EXP_LCFG i), 0, 3⟩
def EXP_LCFG_POLY (i : Nat) : Fld := ⟨(R.EXP_LCFG i), 4, 3⟩
def EXP_LCFG_BW (i : Nat) : Fld := ⟨(R.EXP_LCFG i), 8, 3⟩
def EXP_STATUS_LOCK (i : Nat) : Fld := ⟨(R.EXP_STATUS i), 0, 2⟩
def EXP_STATUS_CLAMPED (i : Nat) : Fld := ⟨(R.EXP_STATUS i), 2, 1⟩
def EXP_STATUS_SLEWING (i : Nat) : Fld := ⟨(R.EXP_STATUS i), 3, 1⟩
def EXP_STATUS_LINE_FAULT (i : Nat) : Fld := ⟨(R.EXP_STATUS i), 4, 1⟩
def EXP_STATUS_LOW_RATE (i : Nat) : Fld := ⟨(R.EXP_STATUS i), 5, 1⟩
def EXP_STATUS_BANDC_STALE (i : Nat) : Fld := ⟨(R.EXP_STATUS i), 6, 1⟩
def EXP_STATUS_OVERSPEED (i : Nat) : Fld := ⟨(R.EXP_STATUS i), 7, 1⟩
def EXP_LINE_MAX (i : Nat) : Fld := ⟨(R.EXP_LINE_MAX i), 0, 17⟩
def EXP_LINE_MIN (i : Nat) : Fld := ⟨(R.EXP_LINE_MIN i), 0, 17⟩
def EXP_GRID (i : Nat) : Fld := ⟨(R.EXP_GRID i), 0, 24⟩
def EXP_BANDC_RC (i : Nat) : Fld := ⟨(R.EXP_BANDC i), 0, 3⟩
def EXP_BANDC_EN (i : Nat) : Fld := ⟨(R.EXP_BANDC i), 3, 1⟩
def EXP_BANDC_LEARN (i : Nat) : Fld := ⟨(R.EXP_BANDC i), 4, 1⟩
def EXP_LRATE (i : Nat) : Fld := ⟨(R.EXP_LRATE i), 0, 17⟩
def EXP_TOP_RESID (i : Nat) : Fld := ⟨(R.EXP_TOP_RESID i), 0, 16⟩
def EXP_PHERR (i : Nat) : Fld := ⟨(R.EXP_PHERR i), 0, 16⟩
def EXP_BD_FRAC_FRAC (i : Nat) : Fld := ⟨(R.EXP_BD_FRAC i), 0, 10⟩
def EXP_BD_FRAC_FACET (i : Nat) : Fld := ⟨(R.EXP_BD_FRAC i), 16, 4⟩
def EXP_DCLK_DPS (i : Nat) : Fld := ⟨(R.EXP_DCLK_DPS i), 0, 17⟩
def EXP_DCLK_MAX (i : Nat) : Fld := ⟨(R.EXP_DCLK_MAX i), 0, 19⟩
def EXP_DCLK_MAG (i : Nat) : Fld := ⟨(R.EXP_DCLK_MAG i), 0, 13⟩
def EXP_DCLK_START (i : Nat) : Fld := ⟨(R.EXP_DCLK_START i), 0, 22⟩
def EXP_DCLK_STATUS_STATE (i : Nat) : Fld := ⟨(R.EXP_DCLK_STATUS i), 0, 2⟩
def EXP_DCLK_STATUS_CLAMPED (i : Nat) : Fld := ⟨(R.EXP_DCLK_STATUS i), 2, 1⟩
def EXP_DCLK_STATUS_N (i : Nat) : Fld := ⟨(R.EXP_DCLK_STATUS i), 8, 8⟩
def EXP_DCLK_FREQ (i : Nat) : Fld := ⟨(R.EXP_DCLK_FREQ i), 0, 19⟩
def EXP_POLY_CFG_MASTER (i : Nat) : Fld := ⟨(R.EXP_POLY_CFG i), 0, 3⟩
def EXP_POLY_CFG_FACETS (i : Nat) : Fld := ⟨(R.EXP_POLY_CFG i), 4, 4⟩
def EXP_POLY_CFG_INDEX (i : Nat) : Fld := ⟨(R.EXP_POLY_CFG i), 8, 7⟩
def EXP_POLY_CFG_LOCK_SWEEPS (i : Nat) : Fld := ⟨(R.EXP_POLY_CFG i), 16, 16⟩
def EXP_POLY_STATUS_LOCK (i : Nat) : Fld := ⟨(R.EXP_POLY_STATUS i), 0, 2⟩
def EXP_POLY_STATUS_FACET (i : Nat) : Fld := ⟨(R.EXP_POLY_STATUS i), 8, 4⟩
def EXP_POLY_STATUS_SERVED (i : Nat) : Fld := ⟨(R.EXP_POLY_STATUS i), 16, 6⟩
def EXP_POLY_SLEW (i : Nat) : Fld := ⟨(R.EXP_POLY_SLEW i), 0, 16⟩
def EXP_BOFS_FINE (i j k : Nat) : Fld := ⟨(R.EXP_BOFS i j k), 0, 6⟩
def EXP_BOFS_WHOLE (i j k : Nat) : Fld := ⟨(R.EXP_BOFS i j k), 8, 14⟩
def EXL_CFG_MODE (i : Nat) : Fld := ⟨(R.EXL_CFG i), 0, 1⟩
def EXL_CFG_SEG (i : Nat) : Fld := ⟨(R.EXL_CFG i), 1, 2⟩
def EXL_CFG_BAUD (i : Nat) : Fld := ⟨(R.EXL_CFG i), 3, 2⟩
def EXL_CFG_FALLBACK (i : Nat) : Fld := ⟨(R.EXL_CFG i), 5, 1⟩
def EXL_CFG_SWING (i : Nat) : Fld := ⟨(R.EXL_CFG i), 6, 2⟩
def EXL_CFG_DEEMPH (i : Nat) : Fld := ⟨(R.EXL_CFG i), 8, 2⟩
def EXL_CTRL_LEN_EN (i : Nat) : Fld := ⟨(R.EXL_CTRL i), 0, 1⟩
def EXL_CTRL_RETRAIN (i : Nat) : Fld := ⟨(R.EXL_CTRL i), 1, 1⟩
def EXL_CTRL_FORCE (i : Nat) : Fld := ⟨(R.EXL_CTRL i), 2, 1⟩
def EXL_STATUS_STATE (i : Nat) : Fld := ⟨(R.EXL_STATUS i), 0, 3⟩
def EXL_STATUS_LANES (i : Nat) : Fld := ⟨(R.EXL_STATUS i), 3, 2⟩
def EXL_STATUS_FALLBACK (i : Nat) : Fld := ⟨(R.EXL_STATUS i), 5, 1⟩
def EXL_STATUS_RATE_LIMIT (i : Nat) : Fld := ⟨(R.EXL_STATUS i), 6, 1⟩
def EXL_STATUS_LEN_REQ (i : Nat) : Fld := ⟨(R.EXL_STATUS i), 7, 1⟩
def EXL_STATUS_LEN_OUT (i : Nat) : Fld := ⟨(R.EXL_STATUS i), 8, 1⟩
def EXL_STATUS_LEN_SEEN (i : Nat) : Fld := ⟨(R.EXL_STATUS i), 9, 1⟩
def EXL_STATUS_LEN_MISMATCH (i : Nat) : Fld := ⟨(R.EXL_STATUS i), 10, 1⟩
def EXL_STATUS_HEAD_READY (i : Nat) : Fld := ⟨(R.EXL_STATUS i), 11, 1⟩
def EXL_STATUS_HEAD_FAULT (i : Nat) : Fld := ⟨(R.EXL_STATUS i), 12, 1⟩
def EXL_STATUS_RETRAIN_PENDING (i : Nat) : Fld := ⟨(R.EXL_STATUS i), 13, 1⟩
def EXL_STATUS_ATTEMPT (i : Nat) : Fld := ⟨(R.EXL_STATUS i), 16, 3⟩
def EXL_HACC_ADDR (i : Nat) : Fld := ⟨(R.EXL_HACC i), 0, 16⟩
def EXL_HACC_OP (i : Nat) : Fld := ⟨(R.EXL_HACC i), 16, 1⟩
def EXL_HACC_GO (i : Nat) : Fld := ⟨(R.EXL_HACC i), 17, 1⟩
def EXL_HACC_BUSY (i : Nat) : Fld := ⟨(R.EXL_HACC i), 18, 1⟩
def EXL_HACC_RESULT (i : Nat) : Fld := ⟨(R.EXL_HACC i), 20, 2⟩
def EXL_HEAD_CAP_EMITTERS (i : Nat) : Fld := ⟨(R.EXL_HEAD_CAP i), 0, 6⟩
def EXL_HEAD_CAP_SPARES (i : Nat) : Fld := ⟨(R.EXL_HEAD_CAP i), 6, 3⟩
def EXL_HEAD_CAP_VERSION (i : Nat) : Fld := ⟨(R.EXL_HEAD_CAP i), 12, 4⟩
def EXL_HEAD_CAP_CODE (i : Nat) : Fld := ⟨(R.EXL_HEAD_CAP i), 16, 1⟩
def EXL_HEAD_TEMP (i : Nat) : Fld := ⟨(R.EXL_HEAD_TEMP i), 0, 16⟩
def EXL_RESP_TO (i : Nat) : Fld := ⟨(R.EXL_RESP_TO i), 0, 10⟩
def EXL_TRAIN_TO (i : Nat) : Fld := ⟨(R.EXL_TRAIN_TO i), 0, 13⟩
def EXL_CRC_LIMIT (i : Nat) : Fld := ⟨(R.EXL_CRC_LIMIT i), 0, 16⟩
def EXL_APC_POWER (i j : Nat) : Fld := ⟨(R.EXL_APC i j), 0, 16⟩
def EXL_APC_STATE (i j : Nat) : Fld := ⟨(R.EXL_APC i j), 16, 2⟩
def EXL_APC_AGE (i j : Nat) : Fld := ⟨(R.EXL_APC i j), 24, 8⟩
def FBK_CFG_MODE (i : Nat) : Fld := ⟨(R.FBK_CFG i), 0, 3⟩
def FBK_CFG_FILT (i : Nat) : Fld := ⟨(R.FBK_CFG i), 8, 8⟩
def FBK_CFG_INVERT (i : Nat) : Fld := ⟨(R.FBK_CFG i), 16, 1⟩
def FBK_CFG_IDX_EN (i : Nat) : Fld := ⟨(R.FBK_CFG i), 17, 1⟩
def FBK_STATUS_DIR (i : Nat) : Fld := ⟨(R.FBK_STATUS i), 0, 1⟩
def FBK_STATUS_SPD_VALID (i : Nat) : Fld := ⟨(R.FBK_STATUS i), 1, 1⟩
def FBK_STATUS_SIG_FAULT (i : Nat) : Fld := ⟨(R.FBK_STATUS i), 2, 1⟩
def FBK_STATUS_POS_LOST (i : Nat) : Fld := ⟨(R.FBK_STATUS i), 3, 1⟩
def FBK_STATUS_IDX_VALID (i : Nat) : Fld := ⟨(R.FBK_STATUS i), 4, 1⟩
def FBK_STATUS_IDX_DROPPED (i : Nat) : Fld := ⟨(R.FBK_STATUS i), 5, 1⟩
def FBK_STATUS_HALL_INVALID (i : Nat) : Fld := ⟨(R.FBK_STATUS i), 6, 1⟩
def FBK_STATUS_IDX_CONSEC (i : Nat) : Fld := ⟨(R.FBK_STATUS i), 8, 2⟩
def FBK_STATUS_HALL (i : Nat) : Fld := ⟨(R.FBK_STATUS i), 12, 3⟩
def FBK_SPD_TO (i : Nat) : Fld := ⟨(R.FBK_SPD_TO i), 0, 20⟩
def FBK_IDX_WIN (i : Nat) : Fld := ⟨(R.FBK_IDX_WIN i), 0, 8⟩
def FBK_IDX_CTRL_REARM (i : Nat) : Fld := ⟨(R.FBK_IDX_CTRL i), 0, 1⟩
def FBK_SC_OFS_SIN (i : Nat) : Fld := ⟨(R.FBK_SC_OFS i), 0, 16⟩
def FBK_SC_OFS_COS (i : Nat) : Fld := ⟨(R.FBK_SC_OFS i), 16, 16⟩
def FBK_SC_GAIN_COS_GAIN (i : Nat) : Fld := ⟨(R.FBK_SC_GAIN i), 0, 16⟩
def FBK_SC_GAIN_AMP (i : Nat) : Fld := ⟨(R.FBK_SC_GAIN i), 16, 16⟩
def FBK_SC_EXC_AMP (i : Nat) : Fld := ⟨(R.FBK_SC_EXC i), 0, 8⟩
def FBK_CMP_CFG_CH (i : Nat) : Fld := ⟨(R.FBK_CMP_CFG i), 0, 5⟩
def FBK_CMP_CFG_DIR (i : Nat) : Fld := ⟨(R.FBK_CMP_CFG i), 5, 2⟩
def FBK_CMP_CFG_EN (i : Nat) : Fld := ⟨(R.FBK_CMP_CFG i), 7, 1⟩
def FBK_CMP_CFG_EVT (i : Nat) : Fld := ⟨(R.FBK_CMP_CFG i), 8, 1⟩
def FBK_CMP_CFG_PIN (i : Nat) : Fld := ⟨(R.FBK_CMP_CFG i), 9, 1⟩
def FBK_CMP_CFG_TOP (i : Nat) : Fld := ⟨(R.FBK_CMP_CFG i), 10, 1⟩
def FBK_CMP_CFG_PERIODIC (i : Nat) : Fld := ⟨(R.FBK_CMP_CFG i), 11, 1⟩
def FBK_CMP_CFG_STATION (i : Nat) : Fld := ⟨(R.FBK_CMP_CFG i), 12, 3⟩
def FBK_CMP_CFG_SN (i : Nat) : Fld := ⟨(R.FBK_CMP_CFG i), 16, 6⟩
def SNS_CFG_DIR (i : Nat) : Fld := ⟨(R.SNS_CFG i), 0, 2⟩
def SNS_CFG_EDGE (i : Nat) : Fld := ⟨(R.SNS_CFG i), 2, 2⟩
def SNS_CFG_LEVEL (i : Nat) : Fld := ⟨(R.SNS_CFG i), 4, 1⟩
def SNS_CFG_FILT (i : Nat) : Fld := ⟨(R.SNS_CFG i), 8, 8⟩
def SNS_CFG_PULSE (i : Nat) : Fld := ⟨(R.SNS_CFG i), 16, 8⟩
def SNS_STATE_LEVEL (i : Nat) : Fld := ⟨(R.SNS_STATE i), 0, 1⟩
def SNS_STATE_RAW (i : Nat) : Fld := ⟨(R.SNS_STATE i), 1, 1⟩
def SNS_STATE_POL (i : Nat) : Fld := ⟨(R.SNS_STATE i), 2, 1⟩
def SNS_STATE_OUT (i : Nat) : Fld := ⟨(R.SNS_STATE i), 3, 1⟩
def SNS_PRB_CFG_SRC (i : Nat) : Fld := ⟨(R.SNS_PRB_CFG i), 0, 5⟩
def SNS_PRB_CFG_EDGE (i : Nat) : Fld := ⟨(R.SNS_PRB_CFG i), 5, 2⟩
def SNS_PRB_CFG_EN (i : Nat) : Fld := ⟨(R.SNS_PRB_CFG i), 7, 1⟩
def SNS_PRB_CFG_MINPW (i : Nat) : Fld := ⟨(R.SNS_PRB_CFG i), 8, 8⟩
def SNS_PRB_STATUS_COUNT (i : Nat) : Fld := ⟨(R.SNS_PRB_STATUS i), 0, 3⟩
def SNS_PRB_STATUS_OVF (i : Nat) : Fld := ⟨(R.SNS_PRB_STATUS i), 3, 1⟩
def SNS_PRB_POP (i : Nat) : Fld := ⟨(R.SNS_PRB_POP i), 0, 1⟩
def MOT_CFG_TYPE (i : Nat) : Fld := ⟨(R.MOT_CFG i), 0, 3⟩
def MOT_CFG_POS_SRC (i : Nat) : Fld := ⟨(R.MOT_CFG i), 3, 3⟩
def MOT_CFG_FBKCH (i : Nat) : Fld := ⟨(R.MOT_CFG i), 6, 5⟩
def MOT_CFG_ALT_ENC (i : Nat) : Fld := ⟨(R.MOT_CFG i), 11, 1⟩
def MOT_CFG_PERIOD (i : Nat) : Fld := ⟨(R.MOT_CFG i), 12, 1⟩
def MOT_CFG_ISENSE (i : Nat) : Fld := ⟨(R.MOT_CFG i), 13, 1⟩
def MOT_CFG_POLY (i : Nat) : Fld := ⟨(R.MOT_CFG i), 16, 3⟩
def MOT_CFG_POLE_PAIRS (i : Nat) : Fld := ⟨(R.MOT_CFG i), 20, 4⟩
def MOT_CFG_NADV (i : Nat) : Fld := ⟨(R.MOT_CFG i), 24, 5⟩
def MOT_STATUS_STATE (i : Nat) : Fld := ⟨(R.MOT_STATUS i), 0, 3⟩
def MOT_STATUS_PENDING_ENABLE (i : Nat) : Fld := ⟨(R.MOT_STATUS i), 3, 1⟩
def MOT_STATUS_CLAMP_D (i : Nat) : Fld := ⟨(R.MOT_STATUS i), 4, 1⟩
def MOT_STATUS_CLAMP_Q (i : Nat) : Fld := ⟨(R.MOT_STATUS i), 5, 1⟩
def MOT_STATUS_VLIM (i : Nat) : Fld := ⟨(R.MOT_STATUS i), 6, 1⟩
def MOT_STATUS_ILIMIT (i : Nat) : Fld := ⟨(R.MOT_STATUS i), 7, 1⟩
def MOT_STATUS_SS_SHIFT (i : Nat) : Fld := ⟨(R.MOT_STATUS i), 8, 1⟩
def MOT_STATUS_METHOD (i : Nat) : Fld := ⟨(R.MOT_STATUS i), 9, 2⟩
def MOT_STATUS_ROTOR_LOST (i : Nat) : Fld := ⟨(R.MOT_STATUS i), 11, 1⟩
def MOT_STATUS_CATCH (i : Nat) : Fld := ⟨(R.MOT_STATUS i), 12, 2⟩
def MOT_STATUS_GROUP_FAULT (i : Nat) : Fld := ⟨(R.MOT_STATUS i), 14, 1⟩
def MOT_CTRL_ENABLE (i : Nat) : Fld := ⟨(R.MOT_CTRL i), 0, 1⟩
def MOT_CTRL_DISABLE (i : Nat) : Fld := ⟨(R.MOT_CTRL i), 1, 1⟩
def MOT_HB_MAP_U (i : Nat) : Fld := ⟨(R.MOT_HB_MAP i), 0, 2⟩
def MOT_HB_MAP (i : Nat) : Fld := ⟨(R.MOT_HB_MAP i), 2, 2⟩
def MOT_HB_MAP_W (i : Nat) : Fld := ⟨(R.MOT_HB_MAP i), 4, 2⟩
def MOT_HB_MAP_B2 (i : Nat) : Fld := ⟨(R.MOT_HB_MAP i), 6, 2⟩
def MOT_AIN_IA (i : Nat) : Fld := ⟨(R.MOT_AIN i), 0, 6⟩
def MOT_AIN_IB (i : Nat) : Fld := ⟨(R.MOT_AIN i), 8, 6⟩
def MOT_AIN_VBUS (i : Nat) : Fld := ⟨(R.MOT_AIN i), 16, 6⟩
def MOT_AIN_SHUNT (i : Nat) : Fld := ⟨(R.MOT_AIN i), 24, 6⟩
def MOT_VSENSE_U (i : Nat) : Fld := ⟨(R.MOT_VSENSE i), 0, 6⟩
def MOT_VSENSE (i : Nat) : Fld := ⟨(R.MOT_VSENSE i), 8, 6⟩
def MOT_VSENSE_W (i : Nat) : Fld := ⟨(R.MOT_VSENSE i), 16, 6⟩
def MOT_MOD_MAX (i : Nat) : Fld := ⟨(R.MOT_MOD_MAX i), 0, 16⟩
def MOT_HO_TOL (i : Nat) : Fld := ⟨(R.MOT_HO_TOL i), 0, 8⟩
def MOT_ENC_OFS (i : Nat) : Fld := ⟨(R.MOT_ENC_OFS i), 0, 16⟩
def MOT_OFF_RAMP (i : Nat) : Fld := ⟨(R.MOT_OFF_RAMP i), 0, 16⟩
def MOT_SS_TMIN (i : Nat) : Fld := ⟨(R.MOT_SS_TMIN i), 0, 11⟩
def MOT_CATCH_T (i : Nat) : Fld := ⟨(R.MOT_CATCH_T i), 0, 16⟩
def MOT_PULLIN (i : Nat) : Fld := ⟨(R.MOT_PULLIN i), 0, 16⟩
def MOT_ANGLE (i : Nat) : Fld := ⟨(R.MOT_ANGLE i), 0, 16⟩
def MOT_OL_ALIGN (i : Nat) : Fld := ⟨(R.MOT_OL_ALIGN i), 0, 16⟩
def MOT_BRK_CFG_HB (i : Nat) : Fld := ⟨(R.MOT_BRK_CFG i), 0, 6⟩
def MOT_BRK_CFG_EN (i : Nat) : Fld := ⟨(R.MOT_BRK_CFG i), 6, 1⟩
def MOT_BRK_CFG_BVBUS (i : Nat) : Fld := ⟨(R.MOT_BRK_CFG i), 8, 6⟩
def MOT_BRK_ON (i : Nat) : Fld := ⟨(R.MOT_BRK_ON i), 0, 14⟩
def MOT_BRK_OFF (i : Nat) : Fld := ⟨(R.MOT_BRK_OFF i), 0, 14⟩
def MOT_BRK_STAT_ON (i : Nat) : Fld := ⟨(R.MOT_BRK_STAT i), 0, 1⟩
def MOT_BRK_STAT_ONTIME (i : Nat) : Fld := ⟨(R.MOT_BRK_STAT i), 16, 16⟩
def GDR_STATUS_GRP_FAULT : Fld := ⟨R.GDR_STATUS, 0, 12⟩
def GDR_STATUS_VGL_UV : Fld := ⟨R.GDR_STATUS, 12, 4⟩
def GDR_STATUS_BUS_WARN : Fld := ⟨R.GDR_STATUS, 16, 4⟩
def GDR_STATUS_BUS_TRIP : Fld := ⟨R.GDR_STATUS, 20, 4⟩
def GDR_STATUS_CHOP_FAULT : Fld := ⟨R.GDR_STATUS, 24, 4⟩
def GDR_VGL_CFG_V0 : Fld := ⟨R.GDR_VGL_CFG, 0, 2⟩
def GDR_VGL_CFG_V1 : Fld := ⟨R.GDR_VGL_CFG, 2, 2⟩
def GDR_VGL_CFG_V2 : Fld := ⟨R.GDR_VGL_CFG, 4, 2⟩
def GDR_VGL_CFG_V3 : Fld := ⟨R.GDR_VGL_CFG, 6, 2⟩
def GDR_REFRESH : Fld := ⟨R.GDR_REFRESH, 0, 11⟩
def GDR_BUS_CFG_AIN (i : Nat) : Fld := ⟨(R.GDR_BUS_CFG i), 0, 6⟩
def GDR_BUS_CFG_EN (i : Nat) : Fld := ⟨(R.GDR_BUS_CFG i), 6, 1⟩
def GDR_BUS_CFG_GROUPS (i : Nat) : Fld := ⟨(R.GDR_BUS_CFG i), 16, 12⟩
def GDR_BUS_WARN_LEVEL (i : Nat) : Fld := ⟨(R.GDR_BUS_WARN i), 0, 14⟩
def GDR_BUS_WARN_HYST (i : Nat) : Fld := ⟨(R.GDR_BUS_WARN i), 16, 14⟩
def GDR_BUS_TRIP_LEVEL (i : Nat) : Fld := ⟨(R.GDR_BUS_TRIP i), 0, 14⟩
def GDR_BUS_VAL (i : Nat) : Fld := ⟨(R.GDR_BUS_VAL i), 0, 14⟩
def GDR_CHOP_CHK_WIN (i : Nat) : Fld := ⟨(R.GDR_CHOP_CHK i), 0, 10⟩
def GDR_CHOP_CHK_RISE (i : Nat) : Fld := ⟨(R.GDR_CHOP_CHK i), 16, 14⟩
def GDR_CHOP_STAT_RISE (i : Nat) : Fld := ⟨(R.GDR_CHOP_STAT i), 0, 1⟩
def GDR_CHOP_STAT_DESAT (i : Nat) : Fld := ⟨(R.GDR_CHOP_STAT i), 1, 1⟩
def GDR_GRP_CFG_POLICY (i : Nat) : Fld := ⟨(R.GDR_GRP_CFG i), 0, 2⟩
def GDR_GRP_CFG_RETRY (i : Nat) : Fld := ⟨(R.GDR_GRP_CFG i), 2, 1⟩
def GDR_GRP_STATUS_FAULT (i : Nat) : Fld := ⟨(R.GDR_GRP_STATUS i), 0, 1⟩
def GDR_GRP_STATUS_FIRST (i : Nat) : Fld := ⟨(R.GDR_GRP_STATUS i), 1, 3⟩
def GDR_GRP_STATUS_FIRST_HB (i : Nat) : Fld := ⟨(R.GDR_GRP_STATUS i), 4, 2⟩
def GDR_GRP_STATUS_SHORTING (i : Nat) : Fld := ⟨(R.GDR_GRP_STATUS i), 6, 1⟩
def GDR_GRP_STATUS_RETRY_WAIT (i : Nat) : Fld := ⟨(R.GDR_GRP_STATUS i), 7, 1⟩
def GDR_GRP_STATUS_RETRIES (i : Nat) : Fld := ⟨(R.GDR_GRP_STATUS i), 8, 2⟩
def GDR_GRP_STATUS_EXHAUSTED (i : Nat) : Fld := ⟨(R.GDR_GRP_STATUS i), 10, 1⟩
def GDR_GRP_STATUS_CAUSES (i : Nat) : Fld := ⟨(R.GDR_GRP_STATUS i), 16, 5⟩
def GDR_GRP_CTRL_CLEAR (i : Nat) : Fld := ⟨(R.GDR_GRP_CTRL i), 0, 1⟩
def GDR_HB_CFG_DT (i : Nat) : Fld := ⟨(R.GDR_HB_CFG i), 0, 8⟩
def GDR_HB_CFG_BLANK (i : Nat) : Fld := ⟨(R.GDR_HB_CFG i), 8, 7⟩
def GDR_HB_CFG_DS_TH (i : Nat) : Fld := ⟨(R.GDR_HB_CFG i), 16, 4⟩
def GDR_HB_CFG_BOOT (i : Nat) : Fld := ⟨(R.GDR_HB_CFG i), 20, 1⟩
def GDR_HB_CFG_MODE (i : Nat) : Fld := ⟨(R.GDR_HB_CFG i), 21, 1⟩
def GDR_HB_CFG_CLAMP (i : Nat) : Fld := ⟨(R.GDR_HB_CFG i), 22, 10⟩
def GDR_HB_STATUS_UV_BST (i : Nat) : Fld := ⟨(R.GDR_HB_STATUS i), 0, 1⟩
def GDR_HB_STATUS_DESAT_H (i : Nat) : Fld := ⟨(R.GDR_HB_STATUS i), 1, 1⟩
def GDR_HB_STATUS_DESAT_L (i : Nat) : Fld := ⟨(R.GDR_HB_STATUS i), 2, 1⟩
def GDR_HB_STATUS_HB_XCMD (i : Nat) : Fld := ⟨(R.GDR_HB_STATUS i), 3, 1⟩
def GDR_HB_STATUS_RETIRED (i : Nat) : Fld := ⟨(R.GDR_HB_STATUS i), 4, 1⟩
def GDR_HB_STATUS_BST_OK (i : Nat) : Fld := ⟨(R.GDR_HB_STATUS i), 5, 1⟩
def GDR_HB_STATUS_DESAT_CNT (i : Nat) : Fld := ⟨(R.GDR_HB_STATUS i), 8, 2⟩
def MOV_AX_CFG_EN (i : Nat) : Fld := ⟨(R.MOV_AX_CFG i), 0, 1⟩
def MOV_AX_CFG_STILL (i : Nat) : Fld := ⟨(R.MOV_AX_CFG i), 1, 2⟩
def MOV_AX_CFG_FBKCH (i : Nat) : Fld := ⟨(R.MOV_AX_CFG i), 3, 5⟩
def MOV_AX_CFG_STILL_T (i : Nat) : Fld := ⟨(R.MOV_AX_CFG i), 8, 16⟩
def MOV_AX_STATUS_STATE (i : Nat) : Fld := ⟨(R.MOV_AX_STATUS i), 0, 4⟩
def MOV_AX_STATUS_RESULT (i : Nat) : Fld := ⟨(R.MOV_AX_STATUS i), 4, 4⟩
def MOV_AX_STATUS_LIMIT_DEFERRED (i : Nat) : Fld := ⟨(R.MOV_AX_STATUS i), 8, 1⟩
def MOV_AX_STATUS_PENDING (i : Nat) : Fld := ⟨(R.MOV_AX_STATUS i), 9, 1⟩
def MOV_AX_STATUS_HOMED (i : Nat) : Fld := ⟨(R.MOV_AX_STATUS i), 10, 1⟩
def MOV_AX_STATUS_LIM_POS (i : Nat) : Fld := ⟨(R.MOV_AX_STATUS i), 11, 1⟩
def MOV_AX_STATUS_LIM_NEG (i : Nat) : Fld := ⟨(R.MOV_AX_STATUS i), 12, 1⟩
def MOV_AX_STATUS_HALVED (i : Nat) : Fld := ⟨(R.MOV_AX_STATUS i), 13, 1⟩
def MOV_AX_STATUS_STILL_ON (i : Nat) : Fld := ⟨(R.MOV_AX_STATUS i), 14, 1⟩
def MOV_AX_CMD_OP (i : Nat) : Fld := ⟨(R.MOV_AX_CMD i), 0, 4⟩
def MOV_AX_SEG_FIRST (i : Nat) : Fld := ⟨(R.MOV_AX_SEG i), 0, 10⟩
def MOV_AX_SEG_COUNT (i : Nat) : Fld := ⟨(R.MOV_AX_SEG i), 16, 11⟩
def MOV_AX_TMO (i : Nat) : Fld := ⟨(R.MOV_AX_TMO i), 0, 24⟩
def MOV_HOME_CFG_PIN (i : Nat) : Fld := ⟨(R.MOV_HOME_CFG i), 0, 6⟩
def MOV_HOME_CFG_LEVEL (i : Nat) : Fld := ⟨(R.MOV_HOME_CFG i), 6, 1⟩
def MOV_HOME_CFG_DIR (i : Nat) : Fld := ⟨(R.MOV_HOME_CFG i), 7, 1⟩
def MOV_HOME_CFG_MODE (i : Nat) : Fld := ⟨(R.MOV_HOME_CFG i), 8, 1⟩
def MOV_LIM_CFG_PPIN (i : Nat) : Fld := ⟨(R.MOV_LIM_CFG i), 0, 6⟩
def MOV_LIM_CFG_PEN (i : Nat) : Fld := ⟨(R.MOV_LIM_CFG i), 6, 1⟩
def MOV_LIM_CFG_PLVL (i : Nat) : Fld := ⟨(R.MOV_LIM_CFG i), 7, 1⟩
def MOV_LIM_CFG_NPIN (i : Nat) : Fld := ⟨(R.MOV_LIM_CFG i), 8, 6⟩
def MOV_LIM_CFG_NEN (i : Nat) : Fld := ⟨(R.MOV_LIM_CFG i), 14, 1⟩
def MOV_LIM_CFG_NLVL (i : Nat) : Fld := ⟨(R.MOV_LIM_CFG i), 15, 1⟩
def MOV_HOME_CHAT (i : Nat) : Fld := ⟨(R.MOV_HOME_CHAT i), 0, 16⟩
def MOV_STP_CFG_BANDSEL (i : Nat) : Fld := ⟨(R.MOV_STP_CFG i), 0, 3⟩
def MOV_STP_CFG_WMAP (i : Nat) : Fld := ⟨(R.MOV_STP_CFG i), 8, 8⟩
def MOV_STP_CFG_STALLT (i : Nat) : Fld := ⟨(R.MOV_STP_CFG i), 16, 8⟩
def MOV_STP_BOOST_CAP (i : Nat) : Fld := ⟨(R.MOV_STP_BOOST i), 0, 8⟩
def MOV_STP_BOOST_STEP (i : Nat) : Fld := ⟨(R.MOV_STP_BOOST i), 8, 8⟩
def MOV_STP_BOOST_DELTA_BOOST (i : Nat) : Fld := ⟨(R.MOV_STP_BOOST i), 16, 8⟩
def MOV_STP_BOOST_DELTA_STALL (i : Nat) : Fld := ⟨(R.MOV_STP_BOOST i), 24, 8⟩
def MOV_STP_STATE_RES (i : Nat) : Fld := ⟨(R.MOV_STP_STATE i), 0, 3⟩
def MOV_STP_STATE_WAVE (i : Nat) : Fld := ⟨(R.MOV_STP_STATE i), 4, 2⟩
def MOV_STP_STATE_BOOST (i : Nat) : Fld := ⟨(R.MOV_STP_STATE i), 8, 8⟩
def MOV_STP_STATE_DELTA (i : Nat) : Fld := ⟨(R.MOV_STP_STATE i), 16, 16⟩
def MOV_SD_CFG_STEP (i : Nat) : Fld := ⟨(R.MOV_SD_CFG i), 0, 6⟩
def MOV_SD_CFG_DIR (i : Nat) : Fld := ⟨(R.MOV_SD_CFG i), 8, 6⟩
def MOV_SD_CFG_FPIN (i : Nat) : Fld := ⟨(R.MOV_SD_CFG i), 16, 6⟩
def MOV_SD_CFG_DPOL (i : Nat) : Fld := ⟨(R.MOV_SD_CFG i), 22, 1⟩
def MOV_SD_CFG_FLVL (i : Nat) : Fld := ⟨(R.MOV_SD_CFG i), 23, 1⟩
def MOV_SD_TIM_PW (i : Nat) : Fld := ⟨(R.MOV_SD_TIM i), 0, 8⟩
def MOV_SD_TIM_DSU (i : Nat) : Fld := ⟨(R.MOV_SD_TIM i), 8, 8⟩
def MOV_JW_CFG_SN (i : Nat) : Fld := ⟨(R.MOV_JW_CFG i), 0, 6⟩
def MOV_JW_CFG_EDGE (i : Nat) : Fld := ⟨(R.MOV_JW_CFG i), 6, 2⟩
def MOV_JW_CFG_MASK (i : Nat) : Fld := ⟨(R.MOV_JW_CFG i), 8, 6⟩
def MOV_JW_TIME_OPEN (i : Nat) : Fld := ⟨(R.MOV_JW_TIME i), 0, 16⟩
def MOV_JW_TIME_CLOSE (i : Nat) : Fld := ⟨(R.MOV_JW_TIME i), 16, 16⟩
def MOV_JW_CTRL_ARM (i : Nat) : Fld := ⟨(R.MOV_JW_CTRL i), 0, 1⟩
def MOV_JW_CTRL_DISARM (i : Nat) : Fld := ⟨(R.MOV_JW_CTRL i), 1, 1⟩
def MOV_JW_STATUS (i : Nat) : Fld := ⟨(R.MOV_JW_STATUS i), 0, 3⟩
def MOV_PAPEROUT_SN (i : Nat) : Fld := ⟨(R.MOV_PAPEROUT i), 0, 6⟩
def MOV_PAPEROUT_LEVEL (i : Nat) : Fld := ⟨(R.MOV_PAPEROUT i), 6, 1⟩
def MOV_PAPEROUT_EN (i : Nat) : Fld := ⟨(R.MOV_PAPEROUT i), 7, 1⟩
def MOV_PAPEROUT_MASK (i : Nat) : Fld := ⟨(R.MOV_PAPEROUT i), 8, 6⟩
def MOV_JAM_GATE : Fld := ⟨R.MOV_JAM_GATE, 0, 6⟩
def CLE_STATUS_RUN : Fld := ⟨R.CLE_STATUS, 0, 1⟩
def CLE_STATUS_SUSP : Fld := ⟨R.CLE_STATUS, 1, 1⟩
def CLE_STATUS_LIST_CYCLES : Fld := ⟨R.CLE_STATUS, 16, 11⟩
def CLE_SLOT_CFG_EN (i : Nat) : Fld := ⟨(R.CLE_SLOT_CFG i), 0, 1⟩
def CLE_SLOT_CFG_FORM (i : Nat) : Fld := ⟨(R.CLE_SLOT_CFG i), 1, 1⟩
def CLE_SLOT_CFG_NEG (i : Nat) : Fld := ⟨(R.CLE_SLOT_CFG i), 2, 1⟩
def CLE_SLOT_CFG_FREEZE_MISS (i : Nat) : Fld := ⟨(R.CLE_SLOT_CFG i), 3, 1⟩
def CLE_SLOT_CFG_NREG (i : Nat) : Fld := ⟨(R.CLE_SLOT_CFG i), 4, 3⟩
def CLE_SLOT_CFG_FADE_T (i : Nat) : Fld := ⟨(R.CLE_SLOT_CFG i), 16, 16⟩
def CLE_SLOT_REF_OFFSET (i : Nat) : Fld := ⟨(R.CLE_SLOT_REF i), 0, 24⟩
def CLE_SLOT_REF_FMT (i : Nat) : Fld := ⟨(R.CLE_SLOT_REF i), 24, 2⟩
def CLE_SLOT_REF_EN (i : Nat) : Fld := ⟨(R.CLE_SLOT_REF i), 31, 1⟩
def CLE_SLOT_FB_OFFSET (i : Nat) : Fld := ⟨(R.CLE_SLOT_FB i), 0, 24⟩
def CLE_SLOT_FB_FMT (i : Nat) : Fld := ⟨(R.CLE_SLOT_FB i), 24, 2⟩
def CLE_SLOT_FB_EN (i : Nat) : Fld := ⟨(R.CLE_SLOT_FB i), 31, 1⟩
def CLE_SLOT_OUT_OFFSET (i : Nat) : Fld := ⟨(R.CLE_SLOT_OUT i), 0, 24⟩
def CLE_SLOT_OUT_FMT (i : Nat) : Fld := ⟨(R.CLE_SLOT_OUT i), 24, 2⟩
def CLE_SLOT_OUT_EN (i : Nat) : Fld := ⟨(R.CLE_SLOT_OUT i), 31, 1⟩
def CLE_SLOT_SEL_OFFSET (i : Nat) : Fld := ⟨(R.CLE_SLOT_SEL i), 0, 24⟩
def CLE_SLOT_SEL_FMT (i : Nat) : Fld := ⟨(R.CLE_SLOT_SEL i), 24, 2⟩
def CLE_SLOT_SEL_EN (i : Nat) : Fld := ⟨(R.CLE_SLOT_SEL i), 31, 1⟩
def CLE_SLOT_CTRL_HOLD (i : Nat) : Fld := ⟨(R.CLE_SLOT_CTRL i), 0, 1⟩
def CLE_SLOT_CTRL_RESET (i : Nat) : Fld := ⟨(R.CLE_SLOT_CTRL i), 1, 1⟩
def CLE_SLOT_CTRL_RELOAD (i : Nat) : Fld := ⟨(R.CLE_SLOT_CTRL i), 2, 1⟩
def CLE_SLOT_CTRL_REGION (i : Nat) : Fld := ⟨(R.CLE_SLOT_CTRL i), 8, 3⟩
def CLE_SLOT_CTRL_STALE (i : Nat) : Fld := ⟨(R.CLE_SLOT_CTRL i), 11, 1⟩
def CLE_SLOT_CTRL_CLAMP_LO (i : Nat) : Fld := ⟨(R.CLE_SLOT_CTRL i), 12, 1⟩
def CLE_SLOT_CTRL_CLAMP_HI (i : Nat) : Fld := ⟨(R.CLE_SLOT_CTRL i), 13, 1⟩
def CLE_SLOT_CTRL_FADING (i : Nat) : Fld := ⟨(R.CLE_SLOT_CTRL i), 14, 1⟩
def CLE_SLOT_CTRL_NAN (i : Nat) : Fld := ⟨(R.CLE_SLOT_CTRL i), 15, 1⟩
def CLE_SLOT_CTRL_MISS_FROZEN (i : Nat) : Fld := ⟨(R.CLE_SLOT_CTRL i), 16, 1⟩
def CLE_RC_CFG_FBKCH (i : Nat) : Fld := ⟨(R.CLE_RC_CFG i), 0, 5⟩
def CLE_RC_CFG_EN (i : Nat) : Fld := ⟨(R.CLE_RC_CFG i), 5, 1⟩
def CLE_RC_CFG_LEARN (i : Nat) : Fld := ⟨(R.CLE_RC_CFG i), 6, 1⟩
def CLE_RC_CFG_CHAN (i : Nat) : Fld := ⟨(R.CLE_RC_CFG i), 8, 4⟩
def CLE_RC_CFG_SLOT (i : Nat) : Fld := ⟨(R.CLE_RC_CFG i), 12, 8⟩
def CLE_RC_CFG_LEAD (i : Nat) : Fld := ⟨(R.CLE_RC_CFG i), 20, 10⟩
def CLE_RC_STATUS_BIN (i : Nat) : Fld := ⟨(R.CLE_RC_STATUS i), 0, 10⟩
def CLE_RC_STATUS_ON (i : Nat) : Fld := ⟨(R.CLE_RC_STATUS i), 16, 1⟩
def CLE_RC_STATUS_LEARNING (i : Nat) : Fld := ⟨(R.CLE_RC_STATUS i), 17, 1⟩
def CLE_RC_STATUS_FROZEN (i : Nat) : Fld := ⟨(R.CLE_RC_STATUS i), 18, 1⟩
def CLE_INJ_CFG_KIND (i : Nat) : Fld := ⟨(R.CLE_INJ_CFG i), 0, 2⟩
def CLE_INJ_CFG_SLOT (i : Nat) : Fld := ⟨(R.CLE_INJ_CFG i), 2, 8⟩
def CLE_INJ_CFG_POINT (i : Nat) : Fld := ⟨(R.CLE_INJ_CFG i), 10, 2⟩
def CLE_INJ_CFG_HOLD (i : Nat) : Fld := ⟨(R.CLE_INJ_CFG i), 16, 16⟩
def CLE_INJ_LEN_LEN (i : Nat) : Fld := ⟨(R.CLE_INJ_LEN i), 0, 24⟩
def CLE_INJ_CTRL_GO (i : Nat) : Fld := ⟨(R.CLE_INJ_CTRL i), 0, 1⟩
def CLE_INJ_CTRL_STOP (i : Nat) : Fld := ⟨(R.CLE_INJ_CTRL i), 1, 1⟩
def CLE_INJ_STATUS_RUN (i : Nat) : Fld := ⟨(R.CLE_INJ_STATUS i), 0, 1⟩
def CLE_INJ_STATUS_ELAPSED (i : Nat) : Fld := ⟨(R.CLE_INJ_STATUS i), 8, 24⟩
def CLE_CAP_SIG_OFFSET (i : Nat) : Fld := ⟨(R.CLE_CAP_SIG i), 0, 24⟩
def CLE_CAP_SIG_FMT (i : Nat) : Fld := ⟨(R.CLE_CAP_SIG i), 24, 2⟩
def CLE_CAP_SIG_EN (i : Nat) : Fld := ⟨(R.CLE_CAP_SIG i), 31, 1⟩
def CLE_CAP_CFG_TRIG : Fld := ⟨R.CLE_CAP_CFG, 0, 2⟩
def CLE_CAP_CFG_RING : Fld := ⟨R.CLE_CAP_CFG, 2, 1⟩
def CLE_CAP_CFG_PRE : Fld := ⟨R.CLE_CAP_CFG, 16, 16⟩
def CLE_CAP_CTRL_ARM : Fld := ⟨R.CLE_CAP_CTRL, 0, 1⟩
def CLE_CAP_CTRL_STOP : Fld := ⟨R.CLE_CAP_CTRL, 1, 1⟩
def CLE_CAP_STATUS_STATE : Fld := ⟨R.CLE_CAP_STATUS, 0, 2⟩
def CLE_CAP_STATUS_STOPPED : Fld := ⟨R.CLE_CAP_STATUS, 2, 1⟩
def CLE_CAP_COUNT : Fld := ⟨R.CLE_CAP_COUNT, 0, 17⟩
def CLE_CAP_FIRST : Fld := ⟨R.CLE_CAP_FIRST, 0, 16⟩
def CLE_CAP_XFER_CTRL_GO : Fld := ⟨R.CLE_CAP_XFER_CTRL, 0, 1⟩
def THM_CFG_EN (i : Nat) : Fld := ⟨(R.THM_CFG i), 0, 1⟩
def THM_CFG_RPU (i : Nat) : Fld := ⟨(R.THM_CFG i), 1, 2⟩
def THM_LIM_LEVEL (i : Nat) : Fld := ⟨(R.THM_LIM i), 0, 16⟩
def THM_LIM_RATE (i : Nat) : Fld := ⟨(R.THM_LIM i), 16, 16⟩
def THM_TEMP (i : Nat) : Fld := ⟨(R.THM_TEMP i), 0, 16⟩
def THM_STAT_BROKEN (i : Nat) : Fld := ⟨(R.THM_STAT i), 0, 1⟩
def THM_STAT_OVER (i : Nat) : Fld := ⟨(R.THM_STAT i), 1, 1⟩
def THM_STAT_RATE (i : Nat) : Fld := ⟨(R.THM_STAT i), 2, 1⟩
def THM_STAT_FAST (i : Nat) : Fld := ⟨(R.THM_STAT i), 3, 1⟩
def THM_STAT_OPEN (i : Nat) : Fld := ⟨(R.THM_STAT i), 4, 1⟩
def THM_BAND_CFG_SRC (i : Nat) : Fld := ⟨(R.THM_BAND_CFG i), 0, 5⟩
def THM_BAND_CFG_EN (i : Nat) : Fld := ⟨(R.THM_BAND_CFG i), 7, 1⟩
def THM_BAND_CUT01_CUT_0 (i : Nat) : Fld := ⟨(R.THM_BAND_CUT01 i), 0, 16⟩
def THM_BAND_CUT01_CUT_1 (i : Nat) : Fld := ⟨(R.THM_BAND_CUT01 i), 16, 16⟩
def THM_BAND_CUT2_CUT_2 (i : Nat) : Fld := ⟨(R.THM_BAND_CUT2 i), 0, 16⟩
def THM_BAND_CUT2_HYS (i : Nat) : Fld := ⟨(R.THM_BAND_CUT2 i), 16, 8⟩
def THM_BAND_STAT_BAND (i : Nat) : Fld := ⟨(R.THM_BAND_STAT i), 0, 2⟩
def THM_BAND_STAT_HELD (i : Nat) : Fld := ⟨(R.THM_BAND_STAT i), 2, 1⟩
def THM_BAND_STAT_BROKEN (i : Nat) : Fld := ⟨(R.THM_BAND_STAT i), 3, 1⟩
def THM_EXP_SEL_ST0 : Fld := ⟨R.THM_EXP_SEL, 0, 4⟩
def THM_EXP_SEL_ST1 : Fld := ⟨R.THM_EXP_SEL, 4, 4⟩
def THM_EXP_SEL_ST2 : Fld := ⟨R.THM_EXP_SEL, 8, 4⟩
def THM_EXP_SEL_ST3 : Fld := ⟨R.THM_EXP_SEL, 12, 4⟩
def THM_EXP_SEL_ST4 : Fld := ⟨R.THM_EXP_SEL, 16, 4⟩
def THM_EXP_SEL_ST5 : Fld := ⟨R.THM_EXP_SEL, 20, 4⟩
def THM_DRAM_SEL : Fld := ⟨R.THM_DRAM, 0, 3⟩
def THM_DRAM_EN : Fld := ⟨R.THM_DRAM, 3, 1⟩
def THM_DRAM_MAP : Fld := ⟨R.THM_DRAM, 8, 8⟩
def THM_DIE : Fld := ⟨R.THM_DIE, 0, 16⟩
def IRN_MAINS_LOCKED : Fld := ⟨R.IRN_MAINS, 0, 1⟩
def IRN_MAINS_LOST : Fld := ⟨R.IRN_MAINS, 1, 1⟩
def IRN_MAINS_PERIOD : Fld := ⟨R.IRN_MAINS, 16, 16⟩
def IRN_ZC_OFS : Fld := ⟨R.IRN_ZC_OFS, 0, 12⟩
def IRN_HTR_CFG_MODE (i : Nat) : Fld := ⟨(R.IRN_HTR_CFG i), 0, 2⟩
def IRN_HTR_CFG_PULSE (i : Nat) : Fld := ⟨(R.IRN_HTR_CFG i), 8, 8⟩
def IRN_HTR_CFG_ILK (i : Nat) : Fld := ⟨(R.IRN_HTR_CFG i), 16, 4⟩
def IRN_HTR_PROT_MASK (i : Nat) : Fld := ⟨(R.IRN_HTR_PROT i), 0, 12⟩
def IRN_IND_FREQ_FMIN (i : Nat) : Fld := ⟨(R.IRN_IND_FREQ i), 0, 16⟩
def IRN_IND_FREQ_FMAX (i : Nat) : Fld := ⟨(R.IRN_IND_FREQ i), 16, 16⟩
def IRN_IND_CFG_DT (i : Nat) : Fld := ⟨(R.IRN_IND_CFG i), 0, 8⟩
def IRN_IND_CFG_MIN (i : Nat) : Fld := ⟨(R.IRN_IND_CFG i), 8, 8⟩
def IRN_HTR_STATUS_ON (i : Nat) : Fld := ⟨(R.IRN_HTR_STATUS i), 0, 1⟩
def IRN_HTR_STATUS_TRIP (i : Nat) : Fld := ⟨(R.IRN_HTR_STATUS i), 1, 1⟩
def IRN_HTR_STATUS_OVER (i : Nat) : Fld := ⟨(R.IRN_HTR_STATUS i), 2, 1⟩
def IRN_HTR_STATUS_RATE (i : Nat) : Fld := ⟨(R.IRN_HTR_STATUS i), 3, 1⟩
def IRN_HTR_STATUS_BROKEN (i : Nat) : Fld := ⟨(R.IRN_HTR_STATUS i), 4, 1⟩
def IRN_HTR_STATUS_DRIVER (i : Nat) : Fld := ⟨(R.IRN_HTR_STATUS i), 5, 1⟩
def IRN_HTR_STATUS_ILK (i : Nat) : Fld := ⟨(R.IRN_HTR_STATUS i), 6, 1⟩
def IRN_HTR_STATUS_FIRST (i : Nat) : Fld := ⟨(R.IRN_HTR_STATUS i), 8, 4⟩
def IRN_HTR_CTRL_CLEAR (i : Nat) : Fld := ⟨(R.IRN_HTR_CTRL i), 0, 1⟩
def HVS_PERIOD_PERIOD : Fld := ⟨R.HVS_PERIOD, 0, 11⟩
def HVS_CFG_MODE (i : Nat) : Fld := ⟨(R.HVS_CFG i), 0, 2⟩
def HVS_CFG_MON (i : Nat) : Fld := ⟨(R.HVS_CFG i), 2, 6⟩
def HVS_CFG_AUX (i : Nat) : Fld := ⟨(R.HVS_CFG i), 8, 6⟩
def HVS_CFG_AC (i : Nat) : Fld := ⟨(R.HVS_CFG i), 14, 1⟩
def HVS_CFG_STATION (i : Nat) : Fld := ⟨(R.HVS_CFG i), 16, 3⟩
def HVS_CFG_ILK (i : Nat) : Fld := ⟨(R.HVS_CFG i), 20, 4⟩
def HVS_DLIM (i : Nat) : Fld := ⟨(R.HVS_DLIM i), 0, 16⟩
def HVS_AC_FREQ (i : Nat) : Fld := ⟨(R.HVS_AC_FREQ i), 0, 12⟩
def HVS_CTRL_ENABLE (i : Nat) : Fld := ⟨(R.HVS_CTRL i), 0, 1⟩
def HVS_CTRL_DISABLE (i : Nat) : Fld := ⟨(R.HVS_CTRL i), 1, 1⟩
def HVS_CTRL_CLEAR (i : Nat) : Fld := ⟨(R.HVS_CTRL i), 2, 1⟩
def HVS_STATUS_STATE (i : Nat) : Fld := ⟨(R.HVS_STATUS i), 0, 3⟩
def HVS_STATUS_PENDING_ENABLE (i : Nat) : Fld := ⟨(R.HVS_STATUS i), 3, 1⟩
def HVS_STATUS_DCLAMP (i : Nat) : Fld := ⟨(R.HVS_STATUS i), 4, 1⟩
def HVS_STATUS_ACLAMP (i : Nat) : Fld := ⟨(R.HVS_STATUS i), 5, 1⟩
def HVS_STATUS_CAUSE (i : Nat) : Fld := ⟨(R.HVS_STATUS i), 6, 2⟩
def HVS_STATUS_DUTY (i : Nat) : Fld := ⟨(R.HVS_STATUS i), 16, 16⟩
def LDG_STATUS_FROZEN : Fld := ⟨R.LDG_STATUS, 0, 1⟩
def LDG_STATUS_AUDIT_FAIL : Fld := ⟨R.LDG_STATUS, 1, 1⟩
def LDG_STATUS_JFULL : Fld := ⟨R.LDG_STATUS, 2, 1⟩
def LDG_STATUS_RINSE_NEEDED : Fld := ⟨R.LDG_STATUS, 3, 1⟩
def LDG_RINSE_REQ : Fld := ⟨R.LDG_RINSE, 0, 1⟩
def LDG_RINSE_CLEAR : Fld := ⟨R.LDG_RINSE, 1, 1⟩
def LDG_RINSE_FAIL : Fld := ⟨R.LDG_RINSE, 2, 1⟩
def LDG_RINSE_CAUSE : Fld := ⟨R.LDG_RINSE, 8, 3⟩
def LDG_POP_PATH : Fld := ⟨R.LDG_POP_PATH, 0, 9⟩
def LDG_POP_JAM : Fld := ⟨R.LDG_POP_JAM, 0, 10⟩
def LDG_POP_STRAND : Fld := ⟨R.LDG_POP_STRAND, 0, 10⟩
def LDG_QUERY_PLACE_PLACE : Fld := ⟨R.LDG_QUERY_PLACE, 0, 6⟩
def LDG_QUERY_PLACE_OWNER : Fld := ⟨R.LDG_QUERY_PLACE, 8, 4⟩
def LDG_QUERY_PLACE_SPOILED : Fld := ⟨R.LDG_QUERY_PLACE, 12, 1⟩
def LDG_QUERY_PLACE_SECOND : Fld := ⟨R.LDG_QUERY_PLACE, 13, 1⟩
def SEC_STATUS_LIFECYCLE : Fld := ⟨R.SEC_STATUS, 0, 2⟩
def SEC_STATUS_DEBUG_UNLOCKED : Fld := ⟨R.SEC_STATUS, 2, 1⟩
def SEC_STATUS_DEBUG_PERM_LOCK : Fld := ⟨R.SEC_STATUS, 3, 1⟩
def SEC_STATUS_RNG_FAIL : Fld := ⟨R.SEC_STATUS, 4, 1⟩
def SEC_STATUS_LOCKOUT : Fld := ⟨R.SEC_STATUS, 5, 1⟩
def SEC_STATUS_UNLOCK_FAILS : Fld := ⟨R.SEC_STATUS, 6, 2⟩
def SEC_STATUS_ROOT_VALID : Fld := ⟨R.SEC_STATUS, 8, 4⟩
def SEC_STATUS_ROOT_REVOKED : Fld := ⟨R.SEC_STATUS, 12, 4⟩
def SEC_STATUS_PROV_DEAD : Fld := ⟨R.SEC_STATUS, 16, 1⟩
def SEC_PROV_OP : Fld := ⟨R.SEC_PROV, 0, 2⟩
def SEC_PROV_SLOT : Fld := ⟨R.SEC_PROV, 4, 2⟩
def SEC_PROV_KEY : Fld := ⟨R.SEC_PROV, 16, 16⟩
def SEC_PROV_RESULT_RESULT : Fld := ⟨R.SEC_PROV_RESULT, 0, 2⟩
def SEC_PROV_RESULT_FAILS : Fld := ⟨R.SEC_PROV_RESULT, 2, 2⟩
def SEC_ROOT_REVOKE_SLOTS : Fld := ⟨R.SEC_ROOT_REVOKE, 0, 4⟩
def SEC_ROOT_REVOKE_KEY : Fld := ⟨R.SEC_ROOT_REVOKE, 16, 16⟩
def SEC_DBG_CTRL_NEW_CHAL : Fld := ⟨R.SEC_DBG_CTRL, 0, 1⟩
def SEC_DBG_CTRL_UNLOCK : Fld := ⟨R.SEC_DBG_CTRL, 1, 1⟩
def SEC_DBG_CTRL_LOCK : Fld := ⟨R.SEC_DBG_CTRL, 2, 1⟩
def SEC_DBG_LEN : Fld := ⟨R.SEC_DBG_LEN, 0, 10⟩
def SEC_DBG_RESULT : Fld := ⟨R.SEC_DBG_RESULT, 0, 3⟩
def SEC_CON_CFG_ADDR (i : Nat) : Fld := ⟨(R.SEC_CON_CFG i), 0, 7⟩
def SEC_CON_CFG_EN (i : Nat) : Fld := ⟨(R.SEC_CON_CFG i), 7, 1⟩
def SEC_CON_CFG_SPEED (i : Nat) : Fld := ⟨(R.SEC_CON_CFG i), 8, 1⟩
def SEC_CON_CFG_KIND (i : Nat) : Fld := ⟨(R.SEC_CON_CFG i), 12, 4⟩
def SEC_CON_CFG_MASK (i : Nat) : Fld := ⟨(R.SEC_CON_CFG i), 16, 6⟩
def SEC_CON_CFG_PERIOD (i : Nat) : Fld := ⟨(R.SEC_CON_CFG i), 24, 8⟩
def SEC_CON_TO (i : Nat) : Fld := ⟨(R.SEC_CON_TO i), 0, 16⟩
def SEC_CON_CTRL_AUTH (i : Nat) : Fld := ⟨(R.SEC_CON_CTRL i), 0, 1⟩
def SEC_CON_STATUS_STATE (i : Nat) : Fld := ⟨(R.SEC_CON_STATUS i), 0, 3⟩
def SEC_CON_STATUS_GATED (i : Nat) : Fld := ⟨(R.SEC_CON_STATUS i), 8, 1⟩
def PSQ_STATUS_STATE : Fld := ⟨R.PSQ_STATUS, 0, 3⟩
def PSQ_STATUS_AC_OK : Fld := ⟨R.PSQ_STATUS, 3, 1⟩
def PSQ_STATUS_SHUTOFFS : Fld := ⟨R.PSQ_STATUS, 4, 2⟩
def PSQ_CFG_MIN_OFF : Fld := ⟨R.PSQ_CFG, 0, 14⟩
def PSQ_CFG_AC_FILT : Fld := ⟨R.PSQ_CFG, 16, 6⟩
def PSQ_GOOD : Fld := ⟨R.PSQ_GOOD, 0, 16⟩
def PSQ_ENABLED : Fld := ⟨R.PSQ_ENABLED, 0, 16⟩
def PSQ_LAST_CAUSE : Fld := ⟨R.PSQ_LAST, 0, 3⟩
def PSQ_LAST_RAIL : Fld := ⟨R.PSQ_LAST, 4, 4⟩
def PSQ_LAST_ABOVE : Fld := ⟨R.PSQ_LAST, 8, 1⟩
def PSQ_FAIL_DOWN : Fld := ⟨R.PSQ_FAIL_DOWN, 0, 16⟩
def PSQ_RAIL_CFG_EN (i : Nat) : Fld := ⟨(R.PSQ_RAIL_CFG i), 0, 1⟩
def PSQ_RAIL_CFG_AUTO (i : Nat) : Fld := ⟨(R.PSQ_RAIL_CFG i), 1, 1⟩
def PSQ_RAIL_CFG_PGUSE (i : Nat) : Fld := ⟨(R.PSQ_RAIL_CFG i), 2, 1⟩
def PSQ_RAIL_CFG_TRIM_FS (i : Nat) : Fld := ⟨(R.PSQ_RAIL_CFG i), 8, 8⟩
def PSQ_RAIL_STATUS_STATE (i : Nat) : Fld := ⟨(R.PSQ_RAIL_STATUS i), 0, 3⟩
def PSQ_RAIL_STATUS_PENDING_ENABLE (i : Nat) : Fld := ⟨(R.PSQ_RAIL_STATUS i), 3, 1⟩
def PSQ_RAIL_STATUS_MARGINED (i : Nat) : Fld := ⟨(R.PSQ_RAIL_STATUS i), 4, 1⟩
def PSQ_RAIL_STATUS_BELOW_OFF (i : Nat) : Fld := ⟨(R.PSQ_RAIL_STATUS i), 5, 1⟩
def PSQ_RAIL_STATUS_VS (i : Nat) : Fld := ⟨(R.PSQ_RAIL_STATUS i), 16, 12⟩
def PSQ_RAIL_DEPS (i : Nat) : Fld := ⟨(R.PSQ_RAIL_DEPS i), 0, 16⟩
def PSQ_RAIL_NOM (i : Nat) : Fld := ⟨(R.PSQ_RAIL_NOM i), 0, 12⟩
def PSQ_RAIL_WIN_UV (i : Nat) : Fld := ⟨(R.PSQ_RAIL_WIN i), 0, 8⟩
def PSQ_RAIL_WIN_OV (i : Nat) : Fld := ⟨(R.PSQ_RAIL_WIN i), 8, 8⟩
def PSQ_RAIL_WIN_OFF (i : Nat) : Fld := ⟨(R.PSQ_RAIL_WIN i), 16, 8⟩
def PSQ_RAIL_TO_PG_TO (i : Nat) : Fld := ⟨(R.PSQ_RAIL_TO i), 0, 8⟩
def PSQ_RAIL_TO_OFF_TO (i : Nat) : Fld := ⟨(R.PSQ_RAIL_TO i), 8, 8⟩
def PSQ_RAIL_MARGIN (i : Nat) : Fld := ⟨(R.PSQ_RAIL_MARGIN i), 0, 7⟩
def PSQ_RAIL_CTRL_ON (i : Nat) : Fld := ⟨(R.PSQ_RAIL_CTRL i), 0, 1⟩
def PSQ_RAIL_CTRL_OFF (i : Nat) : Fld := ⟨(R.PSQ_RAIL_CTRL i), 1, 1⟩
def EVT_CTRL_TRACE_EN : Fld := ⟨R.EVT_CTRL, 0, 1⟩
def EVT_STATUS_ALARM_USED : Fld := ⟨R.EVT_STATUS, 0, 7⟩
def EVT_STATUS_GEN_USED : Fld := ⟨R.EVT_STATUS, 8, 9⟩
def EVT_STATUS_MARK_USED : Fld := ⟨R.EVT_STATUS, 20, 4⟩
def EVT_MEND_REASONS : Fld := ⟨R.EVT_MEND, 0, 7⟩
def EVT_MEND_LANE_ST : Fld := ⟨R.EVT_MEND, 8, 6⟩
def EVT_MEND_EMIT_ST : Fld := ⟨R.EVT_MEND, 16, 6⟩
def EVT_MEND_REPLACE : Fld := ⟨R.EVT_MEND, 31, 1⟩
def EVT_HIST_NEXT : Fld := ⟨R.EVT_HIST_NEXT, 0, 8⟩
def CHN_CFG_EN : Fld := ⟨R.CHN_CFG, 0, 1⟩
def CHN_CFG_HO_PORT : Fld := ⟨R.CHN_CFG, 1, 1⟩
def CHN_CFG_IN_ZONE : Fld := ⟨R.CHN_CFG, 2, 4⟩
def CHN_CFG_IN_OWNER : Fld := ⟨R.CHN_CFG, 6, 4⟩
def CHN_CFG_AUTO_STOP : Fld := ⟨R.CHN_CFG, 10, 1⟩
def CHN_CFG_HO_TO : Fld := ⟨R.CHN_CFG, 16, 16⟩
def CHN_STATUS_ADDR : Fld := ⟨R.CHN_STATUS, 0, 4⟩
def CHN_STATUS_UNITS : Fld := ⟨R.CHN_STATUS, 4, 4⟩
def CHN_STATUS_HEAD : Fld := ⟨R.CHN_STATUS, 8, 1⟩
def CHN_STATUS_FORMED : Fld := ⟨R.CHN_STATUS, 9, 1⟩
def CHN_STATUS_ALIGNED : Fld := ⟨R.CHN_STATUS, 10, 1⟩
def CHN_STATUS_STOPPED : Fld := ⟨R.CHN_STATUS, 11, 1⟩
def CHN_STATUS_CONFLICT : Fld := ⟨R.CHN_STATUS, 12, 1⟩
def CHN_STATUS_TOO_LONG : Fld := ⟨R.CHN_STATUS, 13, 1⟩
def CHN_PORT_STATUS_STATE (i : Nat) : Fld := ⟨(R.CHN_PORT_STATUS i), 0, 2⟩
def CHN_PORT_STATUS_NALIGNED (i : Nat) : Fld := ⟨(R.CHN_PORT_STATUS i), 2, 1⟩
def CHN_LAT (i : Nat) : Fld := ⟨(R.CHN_LAT i), 0, 16⟩
def CHN_PEND_IN : Fld := ⟨R.CHN_PEND_IN, 0, 10⟩
def CHN_HO_LAST_OUTCOME : Fld := ⟨R.CHN_HO_LAST, 0, 3⟩
def CHN_HO_LAST_REASON : Fld := ⟨R.CHN_HO_LAST, 4, 4⟩
def CHN_STOP_SEND : Fld := ⟨R.CHN_STOP, 0, 1⟩
def CHN_STOP_MASK_AXES : Fld := ⟨R.CHN_STOP_MASK, 0, 20⟩
def CHN_STOP_MASK_STATIONS : Fld := ⟨R.CHN_STOP_MASK, 24, 6⟩
def CHN_MSG_POST_DEST : Fld := ⟨R.CHN_MSG_POST, 0, 4⟩
def CHN_MSG_POST_POST : Fld := ⟨R.CHN_MSG_POST, 8, 1⟩
def CHN_MSG_RX_STAT_COUNT (i : Nat) : Fld := ⟨(R.CHN_MSG_RX_STAT i), 0, 4⟩
def CHN_MSG_RX_STAT_SRC (i : Nat) : Fld := ⟨(R.CHN_MSG_RX_STAT i), 4, 4⟩
def CHN_MSG_RX_STAT_OVF (i : Nat) : Fld := ⟨(R.CHN_MSG_RX_STAT i), 8, 1⟩
def CHN_MSG_RX_STAT_POP (i : Nat) : Fld := ⟨(R.CHN_MSG_RX_STAT i), 16, 1⟩

end F

/-- One register or register array of the map. The masks give the access code of each bit (Table 0-4); `dims`
lists the counts and strides of an array; `g` and `b` mark the fields that R39 and R40 defer to a page gap. -/
structure RegDesc where
  off : Nat
  dims : List (Nat × Nat) := []
  rw : Nat := 0
  st : Nat := 0
  w1c : Nat := 0
  w1s : Nat := 0
  wo : Nat := 0
  rc : Nat := 0
  ro : Nat := 0
  g : Nat := 0
  b : Nat := 0
  reset : Nat := 0
  deriving DecidableEq, Repr

/-- Block DEV (base 0x0). -/
def regDev : List RegDesc := [
  { off := 0x0, ro := 0xFFFFFFFF, reset := 0x9605A00 },  -- DEV_ID
  { off := 0x10, ro := 0xF0F, reset := 0x1 },  -- DEV_STATE
  { off := 0x20, wo := 0xFFFF0001 },  -- DEV_RESET
  { off := 0x24, w1c := 0x7F, rc := 0xFF0000, reset := 0x1 },  -- DEV_RESET_CAUSE
  { off := 0x30, ro := 0xFFFFFFFF },  -- DEV_TICK_LO
  { off := 0x34, ro := 0xFFFFFFFF },  -- DEV_TICK_HI
  { off := 0x38, ro := 0xFFFFFFFF },  -- DEV_TSC_LO
  { off := 0x3C, ro := 0xFFFFFFFF }  -- DEV_TSC_HI
  ]

/-- Block VIN (base 0x10000). -/
def regVin : List RegDesc := [
  { off := 0x10000, ro := 0xF3FFF },  -- VIN_STATUS
  { off := 0x10014, ro := 0x7FFFF, reset := 0x70000 },  -- VIN_CHECK_RESULT
  { off := 0x10004, ro := 0xF7 },  -- VIN_CURRENT
  { off := 0x10008, ro := 0xFFFFFFFF },  -- VIN_CUR_VERSION
  { off := 0x1000C, ro := 0xFFFFFFFF },  -- VIN_PREV_VERSION
  { off := 0x10010, ro := 0xFFFFFFFF },  -- VIN_FLOOR
  { off := 0x10018, ro := 0xFFFFFFFF },  -- VIN_CHECK_OFFSET
  { off := 0x10020, ro := 0xFFFFFFFF },  -- VIN_APPLY_TICK_LO
  { off := 0x10024, ro := 0xFFFFFFFF },  -- VIN_APPLY_TICK_HI
  { off := 0x10028, rw := 0xFFFFFFFF, reset := 0x7A120 },  -- VIN_APPLY_TIMEOUT
  { off := 0x10030, ro := 0xFFFFFFFF },  -- VIN_SWITCH_TICK_LO
  { off := 0x10034, ro := 0xFFFFFFFF }  -- VIN_SWITCH_TICK_HI
  ]

/-- Block SEQ (base 0x20000). -/
def regSeq : List RegDesc := [
  { off := 0x20000, st := 0xF, reset := 0xF },  -- SEQ_CTRL
  { off := 0x20004, ro := 0x3FFFF },  -- SEQ_STATUS
  { off := 0x20008, w1c := 0xFFFF },  -- SEQ_FAULT_SRC
  { off := 0x20010, wo := 0xF },  -- SEQ_THR_RESTART
  { off := 0x20014, rw := 0xF, wo := 0x30 },  -- SEQ_DBG
  { off := 0x20020, st := 0x3FF03FF },  -- SEQ_SHARED_WIN
  { off := 0x20024, st := 0x3FF03FF },  -- SEQ_HOST_WIN
  { off := 0x20028, rc := 0xFFFFFFFF },  -- SEQ_ECC_CORR
  { off := 0x20040, dims := [(32, 0x4)], st := 0xFFFFFFFF },  -- SEQ_EVMAP
  { off := 0x20100, dims := [(16, 0x40)], st := 0xFFF1 },  -- SEQ_THR_CFG
  { off := 0x20104, dims := [(16, 0x40)], st := 0xFFFF },  -- SEQ_THR_ENTRY
  { off := 0x20108, dims := [(16, 0x40)], st := 0x3FF03FF },  -- SEQ_THR_WIN
  { off := 0x2010C, dims := [(16, 0x40)], ro := 0x3F7 },  -- SEQ_THR_STATE
  { off := 0x20110, dims := [(16, 0x40)], ro := 0xFFFF },  -- SEQ_THR_PC
  { off := 0x20114, dims := [(16, 0x40)], ro := 0xFFF0FFF },  -- SEQ_THR_USED
  { off := 0x20118, dims := [(16, 0x40)], rc := 0xFFFFFFFF },  -- SEQ_THR_OVR
  { off := 0x2011C, dims := [(16, 0x40)], rc := 0xFFFFFFFF },  -- SEQ_THR_EVOVF
  { off := 0x20120, dims := [(16, 0x40)], ro := 0xFFFFFFFF },  -- SEQ_THR_PEND_LO
  { off := 0x20124, dims := [(16, 0x40)], ro := 0xFFFFFFFF },  -- SEQ_THR_PEND_HI
  { off := 0x21000, dims := [(8, 0x80), (16, 0x4)], ro := 0xFFFFFFFF },  -- SEQ_MBI_DATA
  { off := 0x21040, dims := [(8, 0x80)], st := 0xF },  -- SEQ_MBI_CFG
  { off := 0x21044, dims := [(8, 0x80)], w1c := 0x1, ro := 0x1F00 },  -- SEQ_MBI_STATUS
  { off := 0x21400, dims := [(8, 0x80), (16, 0x4)], rw := 0xFFFFFFFF },  -- SEQ_MBO_DATA
  { off := 0x21440, dims := [(8, 0x80)], wo := 0x1F },  -- SEQ_MBO_POST
  { off := 0x21444, dims := [(8, 0x80)], w1c := 0x3, ro := 0x1F00 }  -- SEQ_MBO_STATUS
  ]

/-- Block HIF (base 0x30000). -/
def regHif : List RegDesc := [
  { off := 0x30000, rw := 0x10F },  -- HIF_CTRL
  { off := 0x30004, ro := 0x7 },  -- HIF_STATUS
  { off := 0x30008, ro := 0x1FF, reset := 0x100 },  -- HIF_PAGE_CREDITS
  { off := 0x3000C, rc := 0xFFFFFFFF },  -- HIF_DB_DROP
  { off := 0x30010, rw := 0xFFFF },  -- HIF_COAL
  { off := 0x30100, dims := [(4, 0x20)], rw := 0xFFFFFFFF },  -- HIF_RING_BASE_LO
  { off := 0x30104, dims := [(4, 0x20)], rw := 0xFFFFFFFF },  -- HIF_RING_BASE_HI
  { off := 0x30108, dims := [(4, 0x20)], rw := 0xF, reset := 0x4 },  -- HIF_RING_SIZE
  { off := 0x3010C, dims := [(4, 0x20)], wo := 0xFFF },  -- HIF_RING_DB
  { off := 0x30110, dims := [(4, 0x20)], ro := 0x10FFF }  -- HIF_RING_PTR
  ]

/-- Block RCK (base 0x40000). -/
def regRck : List RegDesc := [
  { off := 0x40000, ro := 0x7F7F, reset := 0x40 },  -- RCK_TOKENS
  { off := 0x40004, ro := 0xFF, reset := 0x80 },  -- RCK_SLOTS
  { off := 0x40008, rw := 0xFFFFFFFF, reset := 0x1388 },  -- RCK_XFER_TIMEOUT
  { off := 0x40010, dims := [(6, 0x4)], ro := 0xFFFFFFFF },  -- RCK_RES
  { off := 0x40028, ro := 0xFFFFFFFF },  -- RCK_RES_CAP
  { off := 0x4002C, ro := 0xFFFFFFFF },  -- RCK_RES_TOTAL
  { off := 0x40100, dims := [(16, 0x40)], ro := 0x7F0F77 },  -- RCK_CH_STATUS
  { off := 0x40104, dims := [(16, 0x40)], ro := 0xFFFFFFFF },  -- RCK_CH_FAIL_LO
  { off := 0x40108, dims := [(16, 0x40)], ro := 0xFFFFFFFF },  -- RCK_CH_FAIL_HI
  { off := 0x4010C, dims := [(16, 0x40)], wo := 0x3 },  -- RCK_CH_CTRL
  { off := 0x40110, dims := [(16, 0x40)], rc := 0xFFFFFFFF },  -- RCK_CH_DISCARD
  { off := 0x40114, dims := [(16, 0x40)], rc := 0xFFFFFFFF }  -- RCK_CH_WDRAW
  ]

/-- Block PRS (base 0x50000). -/
def regPrs : List RegDesc := [
  { off := 0x50000, ro := 0x7FF, reset := 0xF },  -- PRS_STATUS
  { off := 0x50004, rw := 0xFFFFFFFF, reset := 0x1F4 },  -- PRS_SPACE_WAIT
  { off := 0x50008, ro := 0xFFFFFFFF },  -- PRS_CUR_TAG
  { off := 0x5000C, ro := 0xFFFFFFFF },  -- PRS_CUR_ROUND
  { off := 0x50010, dims := [(6, 0x4)], ro := 0xFFFF },  -- PRS_GEOM_GEN
  { off := 0x50030, rc := 0xFFFFFFFF },  -- PRS_BLOCKS_CODED
  { off := 0x50034, rc := 0xFFFFFFFF },  -- PRS_STORED_BOUND
  { off := 0x50038, rc := 0xFFFFFFFF },  -- PRS_STORED_VERIFY
  { off := 0x5003C, rc := 0xFFFFFFFF },  -- PRS_PRE_BLOCKS
  { off := 0x50100, dims := [(4, 0x20)], rc := 0xFFFFFFFF },  -- PRS_LANE_VFAULT
  { off := 0x50104, dims := [(4, 0x20)], ro := 0x3 },  -- PRS_LANE_PGFAULT
  { off := 0x50108, dims := [(4, 0x20)], rc := 0xFFFFFFFF },  -- PRS_LANE_BLOCKS
  { off := 0x5010C, dims := [(4, 0x20)], ro := 0x7 },  -- PRS_LANE_STATE
  { off := 0x50110, dims := [(4, 0x20)], ro := 0xFFFFFF }  -- PRS_LANE_CYCLES
  ]

/-- Block CEL (base 0x60000). -/
def regCel : List RegDesc := [
  { off := 0x60000, ro := 0xF },  -- CEL_STATUS
  { off := 0x60004, ro := 0x3FFF, reset := 0x2000 },  -- CEL_GRAN_FREE
  { off := 0x60008, ro := 0x3FFF },  -- CEL_GRAN_ALLOC
  { off := 0x6000C, ro := 0x3FFF, reset := 0x2000 },  -- CEL_GRAN_TOTAL
  { off := 0x60010, ro := 0xFFFFFFFF },  -- CEL_BANK_OUT
  { off := 0x60014, ro := 0xFFFFFFFF },  -- CEL_BANK_RETIRING
  { off := 0x60018, ro := 0x3FFFFF },  -- CEL_DGRAN_TOTAL
  { off := 0x6001C, ro := 0x3FFFFF },  -- CEL_DGRAN_FREE
  { off := 0x60020, ro := 0x1FF01FF },  -- CEL_PAGES
  { off := 0x60024, st := 0xFF, reset := 0x19 },  -- CEL_MARGIN
  { off := 0x60028, rw := 0x3FFF, reset := 0x200 },  -- CEL_REFILL_RESERVE
  { off := 0x60030, st := 0xFFFF },  -- CEL_PITCH_BASE
  { off := 0x60034, st := 0x1FF },  -- CEL_PITCH_TARGET
  { off := 0x60038, st := 0xFFFF },  -- CEL_PITCH_STEP
  { off := 0x6003C, st := 0xFFFF, reset := 0xFFFF },  -- CEL_PITCH_MAX
  { off := 0x60040, ro := 0xFFFF },  -- CEL_PITCH_GAP
  { off := 0x60050, rc := 0xFFFFFFFF },  -- CEL_COMMIT_A
  { off := 0x60054, rc := 0xFFFFFFFF },  -- CEL_COMMIT_B
  { off := 0x60058, rc := 0xFFFFFFFF },  -- CEL_EVICT_GRAN
  { off := 0x6005C, rc := 0xFFFFFFFF },  -- CEL_REFILL_GRAN
  { off := 0x60060, rc := 0xFFFFFFFF },  -- CEL_SRAM_CORR
  { off := 0x60064, rc := 0xFFFFFFFF },  -- CEL_SRAM_UNCORR
  { off := 0x60080, dims := [(6, 0x4)], st := 0x3FFFF },  -- CEL_LEAD
  { off := 0x60100, dims := [(32, 0x4)], ro := 0x3 },  -- CEL_BANK_UERR
  { off := 0x60200, rw := 0xFFFFFFFF },  -- CEL_QUERY
  { off := 0x60204, ro := 0x3F3FFF },  -- CEL_QUERY_STATE
  { off := 0x60208, ro := 0x3FFF },  -- CEL_QUERY_GRAN
  { off := 0x6020C, ro := 0xFFFFFFFF },  -- CEL_QUERY_DGRAN
  { off := 0x60210, ro := 0xFFFF }  -- CEL_QUERY_NEED
  ]

/-- Block DEC (base 0x70000). -/
def regDec : List RegDesc := [
  { off := 0x70000, dims := [(6, 0x400)], st := 0x800D3F3F, g := 0xD3F3F, b := 0x80000000, reset := 0x80101 },  -- DEC_GEOM
  { off := 0x7000C, dims := [(6, 0x400)], st := 0x77, g := 0x77 },  -- DEC_EMIT
  { off := 0x70020, dims := [(6, 0x400)], ro := 0xFF77 },  -- DEC_STATUS
  { off := 0x70004, dims := [(6, 0x400)], st := 0x1FFFF, g := 0x1FFFF, reset := 0x8000 },  -- DEC_WIDTH
  { off := 0x70008, dims := [(6, 0x400)], st := 0xFFF, g := 0xFFF },  -- DEC_OFFSET
  { off := 0x70010, dims := [(6, 0x400)], st := 0x3FFF },  -- DEC_WIN_GRAN
  { off := 0x70014, dims := [(6, 0x400)], st := 0x7, g := 0x7 },  -- DEC_SHINGLE
  { off := 0x70018, dims := [(6, 0x400)], st := 0xF7F7F7F },  -- DEC_DUTY
  { off := 0x70024, dims := [(6, 0x400)], ro := 0xFFFFFFFF },  -- DEC_DEAD_LO
  { off := 0x70028, dims := [(6, 0x400)], ro := 0xF },  -- DEC_DEAD_HI
  { off := 0x7002C, dims := [(6, 0x400)], ro := 0xFFFF },  -- DEC_TOP_SHIFT
  { off := 0x70030, dims := [(6, 0x400)], ro := 0xFFFFFFFF },  -- DEC_CUR_TAG
  { off := 0x70034, dims := [(6, 0x400)], ro := 0xFFFFFFFF },  -- DEC_CUR_SWEEP
  { off := 0x70038, dims := [(6, 0x400)], rc := 0xFFFFFFFF },  -- DEC_LINES_LOST
  { off := 0x7003C, dims := [(6, 0x400)], rc := 0xFFFFFFFF },  -- DEC_START_SLIP
  { off := 0x70040, dims := [(6, 0x400)], ro := 0x73FFF },  -- DEC_WIN_STATE
  { off := 0x70080, dims := [(6, 0x400), (16, 0x8)], ro := 0xFFFFFFFF },  -- DEC_DOTS_LO
  { off := 0x70084, dims := [(6, 0x400), (16, 0x8)], ro := 0xFFFFFFFF },  -- DEC_DOTS_HI
  { off := 0x70100, dims := [(6, 0x400)], ro := 0xFFFFFFFF },  -- DEC_DOTS_LOST_LO
  { off := 0x70104, dims := [(6, 0x400)], ro := 0xFFFFFFFF }  -- DEC_DOTS_LOST_HI
  ]

/-- Block EXP (base 0x80000). -/
def regExp : List RegDesc := [
  { off := 0x80000, dims := [(6, 0x100)], st := 0x777, b := 0x77, reset := 0x200 },  -- EXP_LCFG
  { off := 0x80004, dims := [(6, 0x100)], w1c := 0x80, ro := 0x7F },  -- EXP_STATUS
  { off := 0x80008, dims := [(6, 0x100)], st := 0xFFFFFFFF, g := 0xFFFFFFFF, reset := 0x10000 },  -- EXP_LPITCH
  { off := 0x8000C, dims := [(6, 0x100)], st := 0x1FFFF, reset := 0x17700 },  -- EXP_LINE_MAX
  { off := 0x80010, dims := [(6, 0x100)], st := 0x1FFFF, reset := 0x3E8 },  -- EXP_LINE_MIN
  { off := 0x80014, dims := [(6, 0x100)], st := 0xFFFFFF, g := 0xFFFFFF },  -- EXP_GRID
  { off := 0x80018, dims := [(6, 0x100)], st := 0x1F },  -- EXP_BANDC
  { off := 0x8001C, dims := [(6, 0x100)], ro := 0x1FFFF },  -- EXP_LRATE
  { off := 0x80020, dims := [(6, 0x100)], ro := 0xFFFFFFFF },  -- EXP_TRACK_ERR
  { off := 0x80024, dims := [(6, 0x100)], ro := 0xFFFF },  -- EXP_TOP_RESID
  { off := 0x80028, dims := [(6, 0x100)], ro := 0xFFFF },  -- EXP_PHERR
  { off := 0x8002C, dims := [(6, 0x100)], rc := 0xFFFFFFFF },  -- EXP_PHWARN
  { off := 0x80030, dims := [(6, 0x100)], rc := 0xFFFFFFFF },  -- EXP_BD_MISS
  { off := 0x80034, dims := [(6, 0x100)], rc := 0xFFFFFFFF },  -- EXP_LINES_SKIPPED
  { off := 0x80040, dims := [(6, 0x100)], ro := 0xFFFFFFFF },  -- EXP_SWEEP_TS_LO
  { off := 0x80044, dims := [(6, 0x100)], ro := 0xFFFFFFFF },  -- EXP_SWEEP_TS_HI
  { off := 0x80048, dims := [(6, 0x100)], ro := 0xFFFFFFFF },  -- EXP_BD_TS_LO
  { off := 0x8004C, dims := [(6, 0x100)], ro := 0xFFFFFFFF },  -- EXP_BD_TS_HI
  { off := 0x80050, dims := [(6, 0x100)], ro := 0xF03FF },  -- EXP_BD_FRAC
  { off := 0x80080, dims := [(6, 0x100)], st := 0x1FFFF, g := 0x1FFFF },  -- EXP_DCLK_DPS
  { off := 0x80084, dims := [(6, 0x100)], st := 0x7FFFF, reset := 0x61A80 },  -- EXP_DCLK_MAX
  { off := 0x80088, dims := [(6, 0x100)], rw := 0x1FFF },  -- EXP_DCLK_MAG
  { off := 0x8008C, dims := [(6, 0x100)], st := 0x3FFFFF, reset := 0x1000 },  -- EXP_DCLK_START
  { off := 0x80090, dims := [(6, 0x100)], ro := 0xFF07 },  -- EXP_DCLK_STATUS
  { off := 0x80094, dims := [(6, 0x100)], ro := 0x7FFFF },  -- EXP_DCLK_FREQ
  { off := 0x80098, dims := [(6, 0x100)], rc := 0xFFFFFFFF },  -- EXP_DCLK_UNLOCK
  { off := 0x81000, dims := [(6, 0x40)], st := 0xFFFF7FF7, b := 0xF7, reset := 0x1007F00 },  -- EXP_POLY_CFG
  { off := 0x81004, dims := [(6, 0x40)], ro := 0x3F0F03 },  -- EXP_POLY_STATUS
  { off := 0x81008, dims := [(6, 0x40)], ro := 0xFFFFFFFF },  -- EXP_POLY_ERR
  { off := 0x8100C, dims := [(6, 0x40)], st := 0xFFFF, reset := 0x28F },  -- EXP_POLY_SLEW
  { off := 0x84000, dims := [(6, 0x800), (16, 0x80), (32, 0x4)], rw := 0x3FFF3F }  -- EXP_BOFS
  ]

/-- Block EXL (base 0x90000). -/
def regExl : List RegDesc := [
  { off := 0x90000, dims := [(6, 0x200)], st := 0x3FF, reset := 0x164 },  -- EXL_CFG
  { off := 0x90004, dims := [(6, 0x200)], rw := 0x1, w1s := 0x2, wo := 0x4 },  -- EXL_CTRL
  { off := 0x90008, dims := [(6, 0x200)], w1c := 0x400, ro := 0x73BFF },  -- EXL_STATUS
  { off := 0x90020, dims := [(6, 0x200)], rw := 0x1FFFF, w1s := 0x20000, ro := 0x340000 },  -- EXL_HACC
  { off := 0x9000C, dims := [(6, 0x200)], ro := 0x1F1FF },  -- EXL_HEAD_CAP
  { off := 0x90010, dims := [(6, 0x200)], ro := 0xFFFF },  -- EXL_HEAD_TEMP
  { off := 0x90014, dims := [(6, 0x200)], rw := 0x3FF, reset := 0x64 },  -- EXL_RESP_TO
  { off := 0x90018, dims := [(6, 0x200)], rw := 0x1FFF, reset := 0x7D0 },  -- EXL_TRAIN_TO
  { off := 0x9001C, dims := [(6, 0x200)], rw := 0xFFFF, reset := 0x8 },  -- EXL_CRC_LIMIT
  { off := 0x90024, dims := [(6, 0x200)], rw := 0xFFFFFFFF },  -- EXL_HDATA
  { off := 0x90040, dims := [(6, 0x200)], rc := 0xFFFFFFFF },  -- EXL_RETRAINS
  { off := 0x90044, dims := [(6, 0x200)], rc := 0xFFFFFFFF },  -- EXL_CRC_ERR
  { off := 0x90048, dims := [(6, 0x200)], rc := 0xFFFFFFFF },  -- EXL_LINES_DARK
  { off := 0x9004C, dims := [(6, 0x200)], rc := 0xFFFFFFFF },  -- EXL_SWEEP_LATE
  { off := 0x90050, dims := [(6, 0x200)], rc := 0xFFFFFFFF },  -- EXL_RESP_TIMEOUTS
  { off := 0x90054, dims := [(6, 0x200)], rc := 0xFFFFFFFF },  -- EXL_BD_REJECT
  { off := 0x90058, dims := [(6, 0x200)], rc := 0xFFFFFFFF },  -- EXL_RX_SYNC_ERR
  { off := 0x90060, dims := [(6, 0x200)], ro := 0xFFFFFFFF },  -- EXL_DOTS_DARK_LO
  { off := 0x90064, dims := [(6, 0x200)], ro := 0xFFFFFFFF },  -- EXL_DOTS_DARK_HI
  { off := 0x90100, dims := [(6, 0x200), (36, 0x4)], ro := 0xFF03FFFF }  -- EXL_APC
  ]

/-- Block CLE (base 0xA0000). -/
def regCle : List RegDesc := [
  { off := 0xA0000, ro := 0x7FF0003 },  -- CLE_STATUS
  { off := 0xA0010, dims := [(8, 0x4)], ro := 0xFFFFFFFF },  -- CLE_CLAMP_SUM
  { off := 0xA0030, dims := [(8, 0x4)], ro := 0xFFFFFFFF },  -- CLE_STALE_SUM
  { off := 0xA1000, dims := [(256, 0x20)], st := 0xFFFF007F, reset := 0x8 },  -- CLE_SLOT_CFG
  { off := 0xA1004, dims := [(256, 0x20)], st := 0x83FFFFFF },  -- CLE_SLOT_REF
  { off := 0xA1008, dims := [(256, 0x20)], st := 0x83FFFFFF },  -- CLE_SLOT_FB
  { off := 0xA100C, dims := [(256, 0x20)], st := 0x83FFFFFF },  -- CLE_SLOT_OUT
  { off := 0xA1010, dims := [(256, 0x20)], st := 0x83FFFFFF },  -- CLE_SLOT_SEL
  { off := 0xA1014, dims := [(256, 0x20)], rw := 0xFFFFFFFF },  -- CLE_SLOT_RCONST
  { off := 0xA1018, dims := [(256, 0x20)], st := 0xFFFFFFFF },  -- CLE_SLOT_HYS
  { off := 0xA101C, dims := [(256, 0x20)], rw := 0x1, wo := 0x6, ro := 0x1FF00 },  -- CLE_SLOT_CTRL
  { off := 0xA3000, dims := [(256, 0x8)], ro := 0xFFFFFFFF },  -- CLE_SLOT_E
  { off := 0xA3004, dims := [(256, 0x8)], ro := 0xFFFFFFFF },  -- CLE_SLOT_U
  { off := 0xA4000, dims := [(8, 0x20)], st := 0x3FFFFF7F },  -- CLE_RC_CFG
  { off := 0xA4004, dims := [(8, 0x20)], st := 0xFFFFFFFF },  -- CLE_RC_GAIN
  { off := 0xA4008, dims := [(8, 0x20)], st := 0xFFFFFFFF, reset := 0x3F800000 },  -- CLE_RC_Q
  { off := 0xA400C, dims := [(8, 0x20)], st := 0xFFFFFFFF },  -- CLE_RC_LIM
  { off := 0xA4010, dims := [(8, 0x20)], ro := 0x703FF },  -- CLE_RC_STATUS
  { off := 0xA5000, dims := [(2, 0x20)], rw := 0xFFFF0FFF },  -- CLE_INJ_CFG
  { off := 0xA5004, dims := [(2, 0x20)], rw := 0xFFFFFFFF },  -- CLE_INJ_AMP
  { off := 0xA5008, dims := [(2, 0x20)], rw := 0xFFFFFFFF },  -- CLE_INJ_F0
  { off := 0xA500C, dims := [(2, 0x20)], rw := 0xFFFFFFFF },  -- CLE_INJ_F1
  { off := 0xA5010, dims := [(2, 0x20)], rw := 0xFFFFFF },  -- CLE_INJ_LEN
  { off := 0xA5014, dims := [(2, 0x20)], wo := 0x3 },  -- CLE_INJ_CTRL
  { off := 0xA5018, dims := [(2, 0x20)], ro := 0xFFFFFF01 },  -- CLE_INJ_STATUS
  { off := 0xA501C, dims := [(2, 0x20)], ro := 0xFFFFFFFF },  -- CLE_INJ_VAL
  { off := 0xA6000, dims := [(4, 0x4)], rw := 0x83FFFFFF },  -- CLE_CAP_SIG
  { off := 0xA6010, rw := 0xFFFF0007 },  -- CLE_CAP_CFG
  { off := 0xA6014, rw := 0xFFFFFFFF },  -- CLE_CAP_LEVEL
  { off := 0xA6018, wo := 0x3 },  -- CLE_CAP_CTRL
  { off := 0xA601C, ro := 0x7 },  -- CLE_CAP_STATUS
  { off := 0xA6020, ro := 0x1FFFF },  -- CLE_CAP_COUNT
  { off := 0xA6024, ro := 0xFFFF },  -- CLE_CAP_FIRST
  { off := 0xA6028, rw := 0xFFFFFFFF },  -- CLE_CAP_XFER_LO
  { off := 0xA602C, rw := 0xFFFFFFFF },  -- CLE_CAP_XFER_HI
  { off := 0xA6030, wo := 0x1 }  -- CLE_CAP_XFER_CTRL
  ]

/-- Block MOT (base 0xB0000). -/
def regMot : List RegDesc := [
  { off := 0xB0000, dims := [(12, 0x100)], st := 0x1FF73FFF, reset := 0x170000 },  -- MOT_CFG
  { off := 0xB005C, dims := [(12, 0x100)], ro := 0x7FFF },  -- MOT_STATUS
  { off := 0xB0050, dims := [(12, 0x100)], wo := 0x3 },  -- MOT_CTRL
  { off := 0xB0004, dims := [(12, 0x100)], st := 0xFF, reset := 0xE4 },  -- MOT_HB_MAP
  { off := 0xB0008, dims := [(12, 0x100)], st := 0x3F3F3F3F, reset := 0x3F3F3F3F },  -- MOT_AIN
  { off := 0xB000C, dims := [(12, 0x100)], st := 0x3F3F3F, reset := 0x3F3F3F },  -- MOT_VSENSE
  { off := 0xB0010, dims := [(12, 0x100)], st := 0xFFFFFFFF },  -- MOT_ISCALE
  { off := 0xB0014, dims := [(12, 0x100)], st := 0xFFFFFFFF },  -- MOT_KP
  { off := 0xB0018, dims := [(12, 0x100)], st := 0xFFFFFFFF },  -- MOT_KI
  { off := 0xB001C, dims := [(12, 0x100)], st := 0xFFFFFFFF },  -- MOT_ILIM
  { off := 0xB0020, dims := [(12, 0x100)], st := 0xFFFF, reset := 0xF000 },  -- MOT_MOD_MAX
  { off := 0xB0024, dims := [(12, 0x100)], st := 0xFFFFFFFF },  -- MOT_HO_LO
  { off := 0xB0028, dims := [(12, 0x100)], st := 0xFFFFFFFF },  -- MOT_HO_HI
  { off := 0xB002C, dims := [(12, 0x100)], st := 0xFF, reset := 0xF },  -- MOT_HO_TOL
  { off := 0xB0030, dims := [(12, 0x100)], st := 0xFFFFFFFF },  -- MOT_HFI_AMP
  { off := 0xB0034, dims := [(12, 0x100)], st := 0xFFFFFFFF },  -- MOT_RES_TH
  { off := 0xB0038, dims := [(12, 0x100)], st := 0xFFFF },  -- MOT_ENC_OFS
  { off := 0xB003C, dims := [(12, 0x100)], st := 0xFFFF, reset := 0x32 },  -- MOT_OFF_RAMP
  { off := 0xB0040, dims := [(12, 0x100)], st := 0x7FF, reset := 0x3E8 },  -- MOT_SS_TMIN
  { off := 0xB0044, dims := [(12, 0x100)], st := 0xFFFF, reset := 0x32 },  -- MOT_CATCH_T
  { off := 0xB0048, dims := [(12, 0x100)], st := 0xFFFFFFFF },  -- MOT_HOLD
  { off := 0xB004C, dims := [(12, 0x100)], st := 0xFFFF },  -- MOT_PULLIN
  { off := 0xB0054, dims := [(12, 0x100)], rw := 0xFFFFFFFF },  -- MOT_ID_REF
  { off := 0xB0058, dims := [(12, 0x100)], rw := 0xFFFFFFFF },  -- MOT_IQ_REF
  { off := 0xB0060, dims := [(12, 0x100)], ro := 0xFFFFFFFF },  -- MOT_ID
  { off := 0xB0064, dims := [(12, 0x100)], ro := 0xFFFFFFFF },  -- MOT_IQ
  { off := 0xB0068, dims := [(12, 0x100)], ro := 0xFFFFFFFF },  -- MOT_VD
  { off := 0xB006C, dims := [(12, 0x100)], ro := 0xFFFFFFFF },  -- MOT_VQ
  { off := 0xB0070, dims := [(12, 0x100)], ro := 0xFFFF },  -- MOT_ANGLE
  { off := 0xB0074, dims := [(12, 0x100)], ro := 0xFFFFFFFF },  -- MOT_SPEED
  { off := 0xB0078, dims := [(12, 0x100)], ro := 0xFFFFFFFF },  -- MOT_RESID
  { off := 0xB007C, dims := [(12, 0x100)], ro := 0xFFFFFFFF },  -- MOT_IQ_FF
  { off := 0xB0080, dims := [(12, 0x100)], rc := 0xFFFFFFFF },  -- MOT_LOSSES
  { off := 0xB0084, dims := [(12, 0x100)], rc := 0xFFFFFFFF },  -- MOT_SS_SHIFTS
  { off := 0xB0088, dims := [(12, 0x100)], st := 0xFFFFFFFF },  -- MOT_OL_I
  { off := 0xB008C, dims := [(12, 0x100)], st := 0xFFFFFFFF },  -- MOT_OL_RATE
  { off := 0xB0090, dims := [(12, 0x100)], st := 0xFFFF, reset := 0x32 },  -- MOT_OL_ALIGN
  { off := 0xB1000, dims := [(4, 0x10)], st := 0x3F7F },  -- MOT_BRK_CFG
  { off := 0xB1004, dims := [(4, 0x10)], st := 0x3FFF, reset := 0x3FFF },  -- MOT_BRK_ON
  { off := 0xB1008, dims := [(4, 0x10)], st := 0x3FFF, reset := 0x3FFF },  -- MOT_BRK_OFF
  { off := 0xB100C, dims := [(4, 0x10)], ro := 0xFFFF0001 },  -- MOT_BRK_STAT
  { off := 0xB2000, dims := [(12, 0x100), (16, 0x4)], st := 0xFFFFFFFF },  -- MOT_PADV_SPD
  { off := 0xB2040, dims := [(12, 0x100), (16, 0x4)], st := 0xFFFFFFFF }  -- MOT_PADV_ADV
  ]

/-- Block MOV (base 0xC0000). The step/direction words MOV_SD_CFG and MOV_SD_TIM exist for axes 12 to 19 alone. (DESIGN CHOICE: log 71) -/
def regMov : List RegDesc := [
  { off := 0xC0000, dims := [(20, 0x100)], st := 0xFFFFFF, reset := 0x6400 },  -- MOV_AX_CFG
  { off := 0xC0028, dims := [(20, 0x100)], w1c := 0x100, ro := 0x7EFF },  -- MOV_AX_STATUS
  { off := 0xC0004, dims := [(20, 0x100)], wo := 0xF },  -- MOV_AX_CMD
  { off := 0xC0008, dims := [(20, 0x100)], rw := 0xFFFFFFFF },  -- MOV_AX_TGT
  { off := 0xC000C, dims := [(20, 0x100)], rw := 0xFFFFFFFF },  -- MOV_AX_JOGV
  { off := 0xC0010, dims := [(20, 0x100)], rw := 0xFFFFFFFF },  -- MOV_AX_VMAX
  { off := 0xC0014, dims := [(20, 0x100)], rw := 0xFFFFFFFF },  -- MOV_AX_AMAX
  { off := 0xC0018, dims := [(20, 0x100)], rw := 0xFFFFFFFF },  -- MOV_AX_DMAX
  { off := 0xC001C, dims := [(20, 0x100)], rw := 0xFFFFFFFF },  -- MOV_AX_JMAX
  { off := 0xC0020, dims := [(20, 0x100)], st := 0xFFFFFFFF },  -- MOV_AX_DSTOP
  { off := 0xC0024, dims := [(20, 0x100)], ro := 0xFFFFFFFF },  -- MOV_AX_DEFF
  { off := 0xC002C, dims := [(20, 0x100)], ro := 0xFFFFFFFF },  -- MOV_AX_PCMD
  { off := 0xC0030, dims := [(20, 0x100)], ro := 0xFFFFFFFF },  -- MOV_AX_VCMD
  { off := 0xC0034, dims := [(20, 0x100)], ro := 0xFFFFFFFF },  -- MOV_AX_ACMD
  { off := 0xC0038, dims := [(20, 0x100)], ro := 0xFFFFFFFF },  -- MOV_AX_REMAIN
  { off := 0xC003C, dims := [(20, 0x100)], rw := 0x7FF03FF },  -- MOV_AX_SEG
  { off := 0xC0040, dims := [(20, 0x100)], ro := 0xFFFFFFFF },  -- MOV_AX_OFS
  { off := 0xC0044, dims := [(20, 0x100)], rw := 0xFFFFFF, reset := 0x3D090 },  -- MOV_AX_TMO
  { off := 0xC0048, dims := [(20, 0x100)], ro := 0xFFFFFFFF },  -- MOV_AX_SEFF
  { off := 0xC0050, dims := [(20, 0x100)], st := 0x1FF },  -- MOV_HOME_CFG
  { off := 0xC0054, dims := [(20, 0x100)], st := 0xFFFF },  -- MOV_LIM_CFG
  { off := 0xC0058, dims := [(20, 0x100)], rw := 0xFFFFFFFF },  -- MOV_HOME_V1
  { off := 0xC005C, dims := [(20, 0x100)], rw := 0xFFFFFFFF },  -- MOV_HOME_V2
  { off := 0xC0060, dims := [(20, 0x100)], rw := 0xFFFFFFFF },  -- MOV_HOME_POS
  { off := 0xC0064, dims := [(20, 0x100)], st := 0xFFFF, reset := 0x32 },  -- MOV_HOME_CHAT
  { off := 0xC0068, dims := [(20, 0x100)], rc := 0xFFFFFFFF },  -- MOV_AX_CHATTER
  { off := 0xC006C, dims := [(20, 0x100)], rc := 0xFFFFFFFF },  -- MOV_AX_SUPERSEDED
  { off := 0xC0080, dims := [(20, 0x100)], st := 0xFFFF07 },  -- MOV_STP_CFG
  { off := 0xC0084, dims := [(20, 0x100)], rw := 0xFFFFFFFF },  -- MOV_STP_IRUN
  { off := 0xC0088, dims := [(20, 0x100)], rw := 0xFFFFFFFF },  -- MOV_STP_IHOLD
  { off := 0xC008C, dims := [(20, 0x100), (4, 0x4)], st := 0xFFFFFFFF },  -- MOV_STP_THR
  { off := 0xC009C, dims := [(20, 0x100)], st := 0xFFFFFFFF, reset := 0x5A3C0A96 },  -- MOV_STP_BOOST
  { off := 0xC00A0, dims := [(20, 0x100)], st := 0xFFFFFFFF },  -- MOV_STP_RW
  { off := 0xC00A4, dims := [(20, 0x100)], st := 0xFFFFFFFF },  -- MOV_STP_LW
  { off := 0xC00A8, dims := [(20, 0x100)], st := 0xFFFFFFFF },  -- MOV_STP_VMIN
  { off := 0xC00AC, dims := [(20, 0x100)], ro := 0xFFFFFF37 },  -- MOV_STP_STATE
  { off := 0xC0CC0, dims := [(8, 0x100)], st := 0xFF3F3F, reset := 0x3F0000 },  -- MOV_SD_CFG
  { off := 0xC0CC4, dims := [(8, 0x100)], st := 0xFFFF, reset := 0xA05 },  -- MOV_SD_TIM
  { off := 0xC2000, dims := [(32, 0x20)], rw := 0x3FFF },  -- MOV_JW_CFG
  { off := 0xC2004, dims := [(32, 0x20)], rw := 0xFFFFFFFF },  -- MOV_JW_SHEET
  { off := 0xC2008, dims := [(32, 0x20)], rw := 0xFFFFFFFF },  -- MOV_JW_TIME
  { off := 0xC200C, dims := [(32, 0x20)], wo := 0x3 },  -- MOV_JW_CTRL
  { off := 0xC2010, dims := [(32, 0x20)], ro := 0x7 },  -- MOV_JW_STATUS
  { off := 0xC2014, dims := [(32, 0x20)], ro := 0xFFFFFFFF },  -- MOV_JW_TS_LO
  { off := 0xC2018, dims := [(32, 0x20)], ro := 0xFFFFFFFF },  -- MOV_JW_TS_HI
  { off := 0xC2800, dims := [(4, 0x4)], st := 0x3FFF },  -- MOV_PAPEROUT
  { off := 0xC2810, w1c := 0x3F },  -- MOV_JAM_GATE
  { off := 0xC3000, dims := [(4, 0x800), (512, 0x4)], rw := 0xFFFFFFFF },  -- MOV_WAVE
  { off := 0xC8000, dims := [(1024, 0x10)], rw := 0xFFFF },  -- MOV_SEGMENT DUR
  { off := 0xC8004, dims := [(1024, 0x10), (2, 0x4)], rw := 0xFFFFFFFF },  -- MOV_SEGMENT POS, VEL
  { off := 0xC800C, dims := [(1024, 0x10)] }  -- MOV_SEGMENT reserved
  ]

/-- Block FBK (base 0xD0000). -/
def regFbk : List RegDesc := [
  { off := 0xD0000, dims := [(18, 0x40)], st := 0x3FF07, reset := 0x800 },  -- FBK_CFG
  { off := 0xD0004, dims := [(18, 0x40)], ro := 0x737F, reset := 0x1 },  -- FBK_STATUS
  { off := 0xD0008, dims := [(18, 0x40)], rw := 0xFFFFFFFF },  -- FBK_POS
  { off := 0xD000C, dims := [(18, 0x40)], ro := 0xFFFFFFFF },  -- FBK_SPD
  { off := 0xD0010, dims := [(18, 0x40)], rw := 0xFFFFF, reset := 0x2710 },  -- FBK_SPD_TO
  { off := 0xD0014, dims := [(18, 0x40)], st := 0xFFFFFFFF, reset := 0x7FFFFFFF },  -- FBK_REV
  { off := 0xD0018, dims := [(18, 0x40)], ro := 0xFFFFFFFF },  -- FBK_IDX_POS
  { off := 0xD001C, dims := [(18, 0x40)], st := 0xFF, reset := 0x4 },  -- FBK_IDX_WIN
  { off := 0xD0020, dims := [(18, 0x40)], ro := 0xFFFFFFFF },  -- FBK_IDX_ERR
  { off := 0xD0024, dims := [(18, 0x40)], rc := 0xFFFFFFFF },  -- FBK_IDX_CORR
  { off := 0xD0028, dims := [(18, 0x40)], rc := 0xFFFFFFFF },  -- FBK_IDX_MISM
  { off := 0xD002C, dims := [(18, 0x40)], wo := 0x1 },  -- FBK_IDX_CTRL
  { off := 0xD0030, dims := [(18, 0x40)], rc := 0xFFFFFFFF },  -- FBK_ERR
  { off := 0xD0034, dims := [(18, 0x40)], st := 0xFFFFFFFF },  -- FBK_SC_OFS
  { off := 0xD0038, dims := [(18, 0x40)], st := 0xFFFFFFFF, reset := 0x20008000 },  -- FBK_SC_GAIN
  { off := 0xD003C, dims := [(18, 0x40)], st := 0xFF },  -- FBK_SC_EXC
  { off := 0xD1000, dims := [(16, 0x20)], rw := 0x3F7FFF },  -- FBK_CMP_CFG
  { off := 0xD1004, dims := [(16, 0x20)], rw := 0xFFFFFFFF },  -- FBK_CMP_POS
  { off := 0xD1008, dims := [(16, 0x20)], rw := 0xFFFFFFFF },  -- FBK_CMP_STEP
  { off := 0xD100C, dims := [(16, 0x20)], ro := 0xFFFFFFFF },  -- FBK_CMP_TS_LO
  { off := 0xD1010, dims := [(16, 0x20)], ro := 0xFFFFFFFF },  -- FBK_CMP_TS_HI
  { off := 0xD1014, dims := [(16, 0x20)], rc := 0xFFFFFFFF }  -- FBK_CMP_CNT
  ]

/-- Block GDR (base 0xE0000). -/
def regGdr : List RegDesc := [
  { off := 0xE0000, ro := 0xFFFFFFF },  -- GDR_STATUS
  { off := 0xE0004, st := 0xFF, reset := 0x55 },  -- GDR_VGL_CFG
  { off := 0xE0008, st := 0x7FF, reset := 0x12C },  -- GDR_REFRESH
  { off := 0xE0010, dims := [(4, 0x10)], st := 0xFFF007F },  -- GDR_BUS_CFG
  { off := 0xE0014, dims := [(4, 0x10)], st := 0x3FFF3FFF, reset := 0x3FFF },  -- GDR_BUS_WARN
  { off := 0xE0018, dims := [(4, 0x10)], st := 0x3FFF, reset := 0x3FFF },  -- GDR_BUS_TRIP
  { off := 0xE001C, dims := [(4, 0x10)], ro := 0x3FFF },  -- GDR_BUS_VAL
  { off := 0xE0050, dims := [(4, 0x10)], st := 0x3FFF03FF, reset := 0x400032 },  -- GDR_CHOP_CHK
  { off := 0xE0054, dims := [(4, 0x10)], ro := 0x3 },  -- GDR_CHOP_STAT
  { off := 0xE0100, dims := [(12, 0x20)], st := 0x7 },  -- GDR_GRP_CFG
  { off := 0xE0104, dims := [(12, 0x20)], ro := 0x1F07FF },  -- GDR_GRP_STATUS
  { off := 0xE0108, dims := [(12, 0x20)], wo := 0x1 },  -- GDR_GRP_CTRL
  { off := 0xE010C, dims := [(12, 0x20)], rc := 0xFFFFFFFF },  -- GDR_GRP_FAULTS
  { off := 0xE0400, dims := [(48, 0x10)], st := 0xFFFF7FFF, reset := 0xF516050A },  -- GDR_HB_CFG
  { off := 0xE0404, dims := [(48, 0x10)], ro := 0x33F }  -- GDR_HB_STATUS
  ]

/-- Block IRN (base 0xF0000). -/
def regIrn : List RegDesc := [
  { off := 0xF0000, ro := 0xFFFF0003 },  -- IRN_MAINS
  { off := 0xF0004, st := 0xFFF },  -- IRN_ZC_OFS
  { off := 0xF0008, rc := 0xFFFFFFFF },  -- IRN_MAINS_REJ
  { off := 0xF0100, dims := [(4, 0x40)], st := 0xFFF03 },  -- IRN_HTR_CFG
  { off := 0xF0104, dims := [(4, 0x40)], st := 0xFFF },  -- IRN_HTR_PROT
  { off := 0xF0108, dims := [(4, 0x40)], rw := 0xFFFFFFFF },  -- IRN_HTR_CMD
  { off := 0xF010C, dims := [(4, 0x40)], st := 0xFFFFFFFF, reset := 0x271007D0 },  -- IRN_IND_FREQ
  { off := 0xF0110, dims := [(4, 0x40)], st := 0xFFFF, reset := 0x805 },  -- IRN_IND_CFG
  { off := 0xF0114, dims := [(4, 0x40)], ro := 0xF7F },  -- IRN_HTR_STATUS
  { off := 0xF0118, dims := [(4, 0x40)], ro := 0xFFFFFFFF },  -- IRN_HTR_APPLIED
  { off := 0xF011C, dims := [(4, 0x40)], wo := 0x1 },  -- IRN_HTR_CTRL
  { off := 0xF0120, dims := [(4, 0x40)], rc := 0xFFFFFFFF }  -- IRN_HTR_TRIPS
  ]

/-- Block HVS (base 0x100000). -/
def regHvs : List RegDesc := [
  { off := 0x101000, st := 0x7FF, reset := 0x1F4 },  -- HVS_PERIOD
  { off := 0x100000, dims := [(24, 0x40)], st := 0xF77FFF, reset := 0x73F00 },  -- HVS_CFG
  { off := 0x100004, dims := [(24, 0x40)], st := 0xFFFFFFFF },  -- HVS_SCALE
  { off := 0x100008, dims := [(24, 0x40)], st := 0xFFFFFFFF },  -- HVS_ASCALE
  { off := 0x10000C, dims := [(24, 0x40)], st := 0xFFFFFFFF },  -- HVS_KP
  { off := 0x100010, dims := [(24, 0x40)], st := 0xFFFFFFFF },  -- HVS_KI
  { off := 0x100014, dims := [(24, 0x40)], st := 0xFFFF, reset := 0xF000 },  -- HVS_DLIM
  { off := 0x100018, dims := [(24, 0x40)], st := 0xFFFFFFFF, reset := 0x7F800000 },  -- HVS_RAMP_UP
  { off := 0x10001C, dims := [(24, 0x40)], st := 0xFFFFFFFF, reset := 0x7F800000 },  -- HVS_RAMP_DN
  { off := 0x100020, dims := [(24, 0x40)], rw := 0xFFFFFFFF },  -- HVS_SET
  { off := 0x100024, dims := [(24, 0x40)], st := 0xFFFFFFFF, reset := 0x7F800000 },  -- HVS_TRIP_MON
  { off := 0x100028, dims := [(24, 0x40)], st := 0xFFFFFFFF, reset := 0x7F800000 },  -- HVS_TRIP_AUX
  { off := 0x10002C, dims := [(24, 0x40)], st := 0xFFF, reset := 0x3E8 },  -- HVS_AC_FREQ
  { off := 0x100030, dims := [(24, 0x40)], rw := 0xFFFFFFFF },  -- HVS_AC_SET
  { off := 0x100034, dims := [(24, 0x40)], st := 0xFFFFFFFF },  -- HVS_AC_KI
  { off := 0x100038, dims := [(24, 0x40)], wo := 0x7 },  -- HVS_CTRL
  { off := 0x10003C, dims := [(24, 0x40)], ro := 0xFFFF00FF },  -- HVS_STATUS
  { off := 0x100800, dims := [(24, 0x10)], ro := 0xFFFFFFFF },  -- HVS_MON
  { off := 0x100804, dims := [(24, 0x10)], ro := 0xFFFFFFFF },  -- HVS_AUX
  { off := 0x100808, dims := [(24, 0x10)], ro := 0xFFFFFFFF },  -- HVS_AC_MEAS
  { off := 0x10080C, dims := [(24, 0x10)], rc := 0xFFFFFFFF }  -- HVS_TRIPS
  ]

/-- Block THM (base 0x110000). -/
def regThm : List RegDesc := [
  { off := 0x110000, dims := [(24, 0x20)], st := 0x7 },  -- THM_CFG
  { off := 0x110004, dims := [(24, 0x20)], st := 0xFFFFFFFF },  -- THM_SH_A
  { off := 0x110008, dims := [(24, 0x20)], st := 0xFFFFFFFF },  -- THM_SH_B
  { off := 0x11000C, dims := [(24, 0x20)], st := 0xFFFFFFFF },  -- THM_SH_C
  { off := 0x110010, dims := [(24, 0x20)], st := 0xFFFFFFFF, reset := 0xFA0 },  -- THM_LIM
  { off := 0x110014, dims := [(24, 0x20)], ro := 0xFFFF },  -- THM_TEMP
  { off := 0x110018, dims := [(24, 0x20)], w1c := 0x6, ro := 0x19 },  -- THM_STAT
  { off := 0x11001C, dims := [(24, 0x20)], ro := 0xFFFFFFFF },  -- THM_RISE
  { off := 0x111000, dims := [(8, 0x10)], st := 0x9F },  -- THM_BAND_CFG
  { off := 0x111004, dims := [(8, 0x10)], st := 0xFFFFFFFF },  -- THM_BAND_CUT01
  { off := 0x111008, dims := [(8, 0x10)], st := 0xFFFFFF },  -- THM_BAND_CUT2
  { off := 0x11100C, dims := [(8, 0x10)], ro := 0xF },  -- THM_BAND_STAT
  { off := 0x112000, st := 0xFFFFFF },  -- THM_EXP_SEL
  { off := 0x112004, st := 0xFF0F, reset := 0xA400 },  -- THM_DRAM
  { off := 0x112008, st := 0xFFFF, reset := 0x730 }  -- THM_DIE
  ]

/-- Block PSQ (base 0x120000). -/
def regPsq : List RegDesc := [
  { off := 0x120000, ro := 0x3F },  -- PSQ_STATUS
  { off := 0x120004, st := 0x3F3FFF, reset := 0x20064 },  -- PSQ_CFG
  { off := 0x120008, ro := 0xFFFF },  -- PSQ_GOOD
  { off := 0x12000C, ro := 0xFFFF },  -- PSQ_ENABLED
  { off := 0x120010, ro := 0x1F7 },  -- PSQ_LAST
  { off := 0x120014, ro := 0xFFFF },  -- PSQ_FAIL_DOWN
  { off := 0x120018, rc := 0xFFFFFFFF },  -- PSQ_SHUTOFF_CNT
  { off := 0x120100, dims := [(16, 0x20)], st := 0xFF07 },  -- PSQ_RAIL_CFG
  { off := 0x120114, dims := [(16, 0x20)], ro := 0xFFF003F, reset := 0x20 },  -- PSQ_RAIL_STATUS
  { off := 0x120104, dims := [(16, 0x20)], st := 0xFFFF },  -- PSQ_RAIL_DEPS
  { off := 0x120108, dims := [(16, 0x20)], st := 0xFFF },  -- PSQ_RAIL_NOM
  { off := 0x12010C, dims := [(16, 0x20)], st := 0xFFFFFF, reset := 0xA3C3C },  -- PSQ_RAIL_WIN
  { off := 0x120110, dims := [(16, 0x20)], st := 0xFFFF, reset := 0x140A },  -- PSQ_RAIL_TO
  { off := 0x120118, dims := [(16, 0x20)], rw := 0x7F },  -- PSQ_RAIL_MARGIN
  { off := 0x12011C, dims := [(16, 0x20)], wo := 0x3 }  -- PSQ_RAIL_CTRL
  ]

/-- Block LDG (base 0x130000). -/
def regLdg : List RegDesc := [
  { off := 0x130000, ro := 0xF },  -- LDG_STATUS
  { off := 0x130018, wo := 0x6, ro := 0x701 },  -- LDG_RINSE
  { off := 0x130004, ro := 0x1FF },  -- LDG_POP_PATH
  { off := 0x130008, ro := 0x3FF },  -- LDG_POP_JAM
  { off := 0x13000C, ro := 0x3FF },  -- LDG_POP_STRAND
  { off := 0x130010, ro := 0xFFFFFFFF },  -- LDG_NEXT_ID
  { off := 0x130014, ro := 0xFFFFFFFF },  -- LDG_UNRESOLVED
  { off := 0x13001C, rw := 0xFFFFFFFF, reset := 0x7530 },  -- LDG_RINSE_TO
  { off := 0x130020, wo := 0xFFFFFFFF },  -- LDG_SPOIL
  { off := 0x130040, dims := [(5, 0x8)], ro := 0xFFFFFFFF },  -- LDG_CNT_LO
  { off := 0x130044, dims := [(5, 0x8)], ro := 0xFFFFFFFF },  -- LDG_CNT_HI
  { off := 0x130100, rw := 0xFFFFFFFF },  -- LDG_QUERY
  { off := 0x130104, ro := 0x3F3F, reset := 0x3F },  -- LDG_QUERY_PLACE
  { off := 0x131000, dims := [(776, 0x4)], ro := 0xFFFFFFFF }  -- LDG_METER
  ]

/-- Block SEC (base 0x140000). -/
def regSec : List RegDesc := [
  { off := 0x140000, ro := 0x1FFFF },  -- SEC_STATUS
  { off := 0x140010, dims := [(16, 0x4)], ro := 0xFFFFFFFF },  -- SEC_ID_PUB
  { off := 0x140050, dims := [(8, 0x4)], ro := 0xFFFFFFFF },  -- SEC_ID_HASH
  { off := 0x140080, dims := [(3, 0x8)], ro := 0xFFFFFFFF },  -- SEC_MONO_LO
  { off := 0x140084, dims := [(3, 0x8)], ro := 0xFFFFFFFF },  -- SEC_MONO_HI
  { off := 0x1400A0, ro := 0xFFFFFFFF },  -- SEC_RNG
  { off := 0x1400B0, wo := 0xFFFF0033 },  -- SEC_PROV
  { off := 0x1400B4, ro := 0xF },  -- SEC_PROV_RESULT
  { off := 0x1400C0, dims := [(8, 0x4)], wo := 0xFFFFFFFF },  -- SEC_PROV_DATA
  { off := 0x1400E0, wo := 0xFFFF000F },  -- SEC_ROOT_REVOKE
  { off := 0x140100, dims := [(8, 0x4)], ro := 0xFFFFFFFF },  -- SEC_DBG_CHAL
  { off := 0x140120, wo := 0x7 },  -- SEC_DBG_CTRL
  { off := 0x140124, rw := 0x3FF },  -- SEC_DBG_LEN
  { off := 0x140128, ro := 0x7 },  -- SEC_DBG_RESULT
  { off := 0x140400, dims := [(256, 0x4)], wo := 0xFFFFFFFF },  -- SEC_TOKEN
  { off := 0x141000, dims := [(4, 0x40)], st := 0xFF3FF1FF },  -- SEC_CON_CFG
  { off := 0x141004, dims := [(4, 0x40)], st := 0xFFFF, reset := 0x64 },  -- SEC_CON_TO
  { off := 0x141008, dims := [(4, 0x40)], wo := 0x1 },  -- SEC_CON_CTRL
  { off := 0x14100C, dims := [(4, 0x40)], ro := 0x107 },  -- SEC_CON_STATUS
  { off := 0x141010, dims := [(4, 0x40)], ro := 0xFFFFFFFF },  -- SEC_CON_SERIAL_LO
  { off := 0x141014, dims := [(4, 0x40)], ro := 0xFFFFFFFF },  -- SEC_CON_SERIAL_HI
  { off := 0x141018, dims := [(4, 0x40)], rc := 0xFFFFFFFF }  -- SEC_CON_FAILS
  ]

/-- Block EVT (base 0x150000). -/
def regEvt : List RegDesc := [
  { off := 0x150000, rw := 0x1 },  -- EVT_CTRL
  { off := 0x150004, ro := 0xF1FF7F },  -- EVT_STATUS
  { off := 0x150080, ro := 0x803F3F7F },  -- EVT_MEND
  { off := 0x150008, ro := 0xFFFFFFFF },  -- EVT_SERIAL_LO
  { off := 0x15000C, ro := 0xFFFFFFFF },  -- EVT_SERIAL_HI
  { off := 0x150010, rc := 0xFFFFFFFF },  -- EVT_COAL
  { off := 0x150020, dims := [(5, 0x8)], ro := 0xFFFFFFFF },  -- EVT_DROP_LO
  { off := 0x150024, dims := [(5, 0x8)], ro := 0xFFFFFFFF },  -- EVT_DROP_HI
  { off := 0x150100, ro := 0xFF },  -- EVT_HIST_NEXT
  { off := 0x151000, dims := [(256, 0x20), (8, 0x4)], ro := 0xFFFFFFFF }  -- EVT_HIST
  ]

/-- Block CHN (base 0x160000). -/
def regChn : List RegDesc := [
  { off := 0x160000, st := 0xFFFF07FF, reset := 0x320002 },  -- CHN_CFG
  { off := 0x160004, w1c := 0x800, ro := 0x37FF },  -- CHN_STATUS
  { off := 0x160010, dims := [(2, 0x4)], ro := 0x7 },  -- CHN_PORT_STATUS
  { off := 0x160018, dims := [(2, 0x4)], ro := 0xFFFF },  -- CHN_LAT
  { off := 0x160020, ro := 0xFFFFFFFF },  -- CHN_PHASE_ERR
  { off := 0x160024, ro := 0xFFFFFFFF },  -- CHN_TRIM
  { off := 0x160028, ro := 0xFFFFFFFF },  -- CHN_TICK_OFS_LO
  { off := 0x16002C, ro := 0xFFFFFFFF },  -- CHN_TICK_OFS_HI
  { off := 0x160030, ro := 0x3FF },  -- CHN_PEND_IN
  { off := 0x160034, ro := 0xF7 },  -- CHN_HO_LAST
  { off := 0x160038, ro := 0xFFFFFFFF },  -- CHN_HO_LAST_ID
  { off := 0x160040, wo := 0x1 },  -- CHN_STOP
  { off := 0x160044, st := 0x3F0FFFFF },  -- CHN_STOP_MASK
  { off := 0x160048, rc := 0xFFFFFFFF },  -- CHN_DROP
  { off := 0x16004C, dims := [(2, 0x4)], rc := 0xFFFFFFFF },  -- CHN_CRC_ERR
  { off := 0x160100, dims := [(3, 0x4)], rw := 0xFFFFFFFF },  -- CHN_MSG_TX
  { off := 0x160110, wo := 0x10F },  -- CHN_MSG_POST
  { off := 0x160200, dims := [(2, 0x20), (3, 0x4)], ro := 0xFFFFFFFF },  -- CHN_MSG_RX
  { off := 0x16020C, dims := [(2, 0x20)], w1c := 0x100, wo := 0x10000, ro := 0xFF }  -- CHN_MSG_RX_STAT
  ]

/-- Block MEM (base 0x170000). -/
def regMem : List RegDesc := [
  { off := 0x170000, ro := 0xFFFF001F },  -- MEM_CFG
  { off := 0x170004, ro := 0x7 },  -- MEM_STATUS
  { off := 0x170008, rc := 0xFFFFFFFF },  -- MEM_ECC_CORR
  { off := 0x17000C, rc := 0xFFFFFFFF },  -- MEM_ECC_UNCORR
  { off := 0x170010, ro := 0xFFFFFFFF },  -- MEM_ECC_ADDR_LO
  { off := 0x170014, ro := 0xFFFFFFFF },  -- MEM_ECC_ADDR_HI
  { off := 0x170018, ro := 0xFFFFFFFF },  -- MEM_DATA_TOP_LO
  { off := 0x17001C, ro := 0xFFFFFFFF }  -- MEM_DATA_TOP_HI
  ]

/-- Block SNS (base 0x180000). -/
def regSns : List RegDesc := [
  { off := 0x180000, dims := [(64, 0x10)], st := 0xFFFF1F },  -- SNS_CFG
  { off := 0x180004, dims := [(64, 0x10)], rw := 0x8, ro := 0x7 },  -- SNS_STATE
  { off := 0x180008, dims := [(64, 0x10)], ro := 0xFFFFFFFF },  -- SNS_TS_LO
  { off := 0x18000C, dims := [(64, 0x10)], ro := 0xFFFFFFFF },  -- SNS_TS_HI
  { off := 0x181000, dims := [(8, 0x20)], rw := 0xFFFF },  -- SNS_PRB_CFG
  { off := 0x181004, dims := [(8, 0x20)], w1c := 0x8, ro := 0x7 },  -- SNS_PRB_STATUS
  { off := 0x181008, dims := [(8, 0x20)], ro := 0xFFFFFFFF },  -- SNS_PRB_POS
  { off := 0x18100C, dims := [(8, 0x20)], ro := 0xFFFFFFFF },  -- SNS_PRB_TS_LO
  { off := 0x181010, dims := [(8, 0x20)], ro := 0xFFFFFFFF },  -- SNS_PRB_TS_HI
  { off := 0x181014, dims := [(8, 0x20)], wo := 0x1 }  -- SNS_PRB_POP
  ]

/-- Block BRG (base 0x190000). -/
def regBrg : List RegDesc := [
  { off := 0x190000, ro := 0xF3F },  -- BRG_STATUS
  { off := 0x190004, rc := 0xFFFFFFFF },  -- BRG_MISS_UP
  { off := 0x190008, rc := 0xFFFFFFFF },  -- BRG_MISS_DN
  { off := 0x19000C, rc := 0xFFFFFFFF },  -- BRG_CORR
  { off := 0x190010, rc := 0xFFFFFFFF }  -- BRG_LATE_UP
  ]

/-- The registers of a block: bits [23:16] of an offset select it (R9). -/
def regBlock (n : Nat) : List RegDesc :=
  if n == 0 then regDev
  else if n == 1 then regVin
  else if n == 2 then regSeq
  else if n == 3 then regHif
  else if n == 4 then regRck
  else if n == 5 then regPrs
  else if n == 6 then regCel
  else if n == 7 then regDec
  else if n == 8 then regExp
  else if n == 9 then regExl
  else if n == 10 then regCle
  else if n == 11 then regMot
  else if n == 12 then regMov
  else if n == 13 then regFbk
  else if n == 14 then regGdr
  else if n == 15 then regIrn
  else if n == 16 then regHvs
  else if n == 17 then regThm
  else if n == 18 then regPsq
  else if n == 19 then regLdg
  else if n == 20 then regSec
  else if n == 21 then regEvt
  else if n == 22 then regChn
  else if n == 23 then regMem
  else if n == 24 then regSns
  else if n == 25 then regBrg
  else []

/-- Does a distance from an array's base name the start of an element (R8)? -/
def inDims : List (Nat × Nat) → Nat → Bool
  | [], d => d == 0
  | (n, s) :: r, d => Nat.blt (d / s) n && inDims r (d % s)

/-- Does the register (or an element of the array) lie at offset `off`? -/
def RegDesc.covers (r : RegDesc) (off : Nat) : Bool := Nat.ble r.off off && inDims r.dims (off - r.off)

/-- The register at a BAR0 offset, if its chapter defines one there (R9, R10). -/
def findReg (off : Nat) : Option RegDesc := (regBlock (off / 65536)).find? fun r => r.covers off

/-- The five memory windows of Table 0-6 and their base and size (R9). -/
inductive Window where
  | coef | expo | capture | pmem | dmem
  deriving DecidableEq, Repr

/-- The window that holds an offset, with the offset inside it (Table 0-6). -/
def windowAt (off : Nat) : Option (Window × Nat) :=
  if 0x400000 ≤ off ∧ off < 0x440000 then some (.coef, off - 0x400000)
  else if 0x500000 ≤ off ∧ off < 0x540000 then some (.expo, off - 0x500000)
  else if 0x600000 ≤ off ∧ off < 0x700000 then some (.capture, off - 0x600000)
  else if 0x800000 ≤ off ∧ off < 0x840000 then some (.pmem, off - 0x800000)
  else if 0xC00000 ≤ off ∧ off < 0xC20000 then some (.dmem, off - 0xC00000)
  else none
/-- Reset words that the register tables do not carry: the boot rails' configuration, fixed by Table 20-1 (R401: EN,
DEPS and NOM of RAIL_00 to RAIL_05; their window and timeouts equal the reset values of the per-rail registers), and
the serial at manufacture (R415: serials start at 1). -/
def resetOverride (off : Nat) : Option Nat :=
  if off = 0x120100 ∨ off = 0x120120 ∨ off = 0x120140 ∨ off = 0x120160 ∨ off = 0x120180 ∨ off = 0x1201A0 then some 1
  else if off = 0x40000 then some 10304
  else if off = 0x120108 then some 3300
  else if off = 0x120128 then some 1800
  else if off = 0x120148 then some 750
  else if off = 0x120168 then some 800
  else if off = 0x120188 then some 900
  else if off = 0x1201A8 then some 500
  else if off = 0x120124 then some 0x1
  else if off = 0x120144 then some 0x2
  else if off = 0x120164 then some 0x4
  else if off = 0x120184 then some 0x4
  else if off = 0x1201A4 then some 0x2
  else if off = 0x150008 then some 1
  else none

/-- What the register word at an offset holds at reset (the reset columns; 0 where no register is). -/
def resetWord (off : Nat) : Word :=
  match resetOverride off with
  | some v => BitVec.ofNat 32 v
  | none =>
    match findReg off with
    | some r => BitVec.ofNat 32 r.reset
    | none => 0#32

end Sys2Proof.Machine
end

