-- ==== Sys2Proof/Machine/State.lean ====
section
/-! DEFINITION. Machine/State.lean: the state of the block as plain data, its value after reset, and the reasons a step
can stop. Each register that a chapter names is a word of `regs` (or is derived from the structures here when it
is read); the rest is the state the rules give the machine beside its registers. -/

namespace Sys2Proof.Machine

/-! ## Events (chapter 21) -/

/-- The four event classes (R414). -/
inductive EvClass where
  | alarm | warn | info | trace
  deriving DecidableEq, Repr

def EvClass.code : EvClass → Nat
  | .alarm => 0 | .warn => 1 | .info => 2 | .trace => 3

/-- One event (Table 21-1). `serial` is 0 until the event is issued. -/
structure Event where
  cls : EvClass
  program : Bool := false
  replay : Bool := false
  dropped : Bool := false
  block : Nat
  code : Nat
  inst : Nat := 0
  count : Nat := 1
  serial : Nat := 0
  tsc : BitVec 64 := 0
  detA : Word := 0
  detB : Word := 0
  deriving DecidableEq, Repr

/-- The event store (R417) and what waits beside it. -/
structure EvStore where
  /-- Events that have arisen and wait for their cycle of issue (R415), in order of issue. -/
  arisen : List Event := []
  /-- From power-on reset until the serials have been recovered no event is issued (R422). -/
  held : Bool := true
  /-- The 64 alarm slots, the 440 general entries and the 8 marker entries (R417), in serial order. -/
  alarms : List Event := []
  general : List Event := []
  markers : List Event := []
  /-- Marker events that wait for a free marker entry (R421). -/
  markWait : List Event := []
  /-- For each class: the first serial dropped since its last EVT_DROPPED (R421), and the drop count then reported. -/
  firstDrop : Vector Nat 4 := Vector.replicate 4 0
  reported : Vector Nat 4 := Vector.replicate 4 0
  /-- Highest serial delivered to EVR in order, and the serials above it already delivered or dropped (R422). -/
  settled : Nat := 0
  settledAbove : List Nat := []
  /-- Every serial up to here, the entries to be delivered again excepted, is counted in EVT_DROP since the boot (R422). -/
  lostTo : Nat := 0
  /-- The per-tick audit of event serials has failed (R382). -/
  auditFail : Bool := false
  /-- Issued ALARMs on their way to the alarm history, in the downward frame of their tick. -/
  histOut : List Event := []
  deriving DecidableEq, Repr

/-! ## The ledger (chapter 18) -/

/-- The places a record of the store can hold (Table 4-8), PENDING_IN included (R434). -/
inductive Place where
  | picked
  | zone (n : Fin 16)
  | jammed
  | stranded
  | pendingIn
  deriving DecidableEq, Repr

/-- The places at which a sheet leaves the record store (R371). -/
inductive Terminal where
  | delivered (bin : Fin 8)
  | purged
  | handedOut
  deriving DecidableEq, Repr

/-- One record of the ledger (R370). `handoff` marks a sheet whose handover out is in progress (R434). -/
structure Sheet where
  id : Word
  place : Place
  owner : Fin 16 := 0
  spoiled : Bool := false
  tag1 : Option Word := none
  tag2 : Option Word := none
  size : Nat := 0
  colour : Nat := 0
  handoff : Bool := false
  /-- The port it was handed in on, or is to be handed in on (R434); none for a sheet that entered by PICK. -/
  via : Option (Fin 2) := none
  deriving DecidableEq, Repr

/-- The ledger: its records and the cumulative counters of Table 18-2. -/
structure Ledger where
  sheets : List Sheet := []
  nextId : Word := 1
  picked : Nat := 0
  handedIn : Nat := 0
  delivered : Nat := 0
  purged : Nat := 0
  handedOut : Nat := 0
  deriving DecidableEq, Repr

/-- One journal entry (R376). -/
inductive JEntry where
  /-- A sheet enters the record store: by PICK (`true`) or by handover in. -/
  | enter (sh : Sheet) (byPick : Bool)
  /-- A change of place inside the record store, with the owner after it. -/
  | move (id : Word) (dest : Place) (owner : Fin 16)
  /-- A sheet enters a terminal place and leaves the store (R371). -/
  | leave (id : Word) (dest : Terminal)
  /-- A change of owner alone (R99). -/
  | own (id : Word) (owner : Fin 16)
  /-- The spoiled flag is set (R373). -/
  | spoil (id : Word)
  /-- A second side is bound (R94). -/
  | second (id : Word) (tag : Word)
  /-- A HANDOFF mark is set or taken back (R434, R435). -/
  | handoff (id : Word) (on : Bool)
  /-- A PENDING_IN record is made, deleted or entered at its zone (R434). -/
  | pendIn (sh : Sheet)
  | pendDel (id : Word)
  | pendEnter (id : Word) (zone : Fin 16) (owner : Fin 16)
  /-- Enters and is stranded at once, in one bulk record (R437). -/
  | pendStrand (id : Word)
  /-- Bulk records (R377): every path sheet to stranded (sheets in HANDOFF excepted at an engine reset, R436), or the
  Rinse set to purged. -/
  | strand (keepHandoff : Bool)
  | purge (ids : List Word)
  /-- The dot counts of one page gap at one station (R211, R243): counts by value, lost and dark. -/
  | dots (st : Fin 6) (byVal : List Nat) (lost dark : Nat)
  /-- A monotonic counter takes a value (R394). -/
  | mono (k : Fin 3) (v : Nat)
  /-- EVT_MEND takes a value (R475). -/
  | mend (w : Word)
  /-- The vintage index and the floor take values in one record (R39). -/
  | index (cur : Option (Fin 8)) (prev : Option (Fin 8)) (floor : Nat) (unsigned : Bool)
  /-- The alarm-history and drop fields of the record (R422): I, S, Y and EVT_DROP. -/
  | serials (i s y : Nat) (drops : List Nat)
  /-- MIN_OFF and AC_FILT, held for the supervisor (R404). -/
  | psqCfg (minOff filt : Nat)
  deriving DecidableEq, Repr

/-- The journal on its way to non-volatile memory (R376, R377). Each entry stands with the tick whose record takes it. -/
structure Journal where
  /-- Entries of the present tick's record. -/
  cur : List (Nat × JEntry) := []
  /-- Entries that wait for a later frame (at most 256). -/
  backlog : List (Nat × JEntry) := []
  /-- The record the Drive die is programming, if any (R377). -/
  inflight : List (Nat × JEntry) := []
  /-- Entries that have committed since the latest upward frame: their commit becomes known there (R434). -/
  known : List JEntry := []
  /-- Those the upward frame of this tick reports. -/
  ripe : List JEntry := []
  /-- Why the ledger is frozen, LDG_STATUS.AUDIT_FAIL and JFULL aside: bridge loss or SAFE_UP (R24), loss of AC (R378). -/
  frozenLoss : Bool := false
  frozenAc : Bool := false
  /-- The upward frame has reported the fall of AC_OK; the freeze comes at cycle 300 (R378). -/
  acDue : Bool := false
  deriving DecidableEq, Repr

/-! ## The sequencer (chapters 3 and 4) -/

/-- SEQ_THR_STATE[n] states (Table 3-6). -/
inductive ThrState where
  | disabled | waiting | eligible | preempted | halted | debugHalted | suspended
  deriving DecidableEq, Repr

def ThrState.code : ThrState → Nat
  | .disabled => 0 | .waiting => 1 | .eligible => 2 | .preempted => 3 | .halted => 4 | .debugHalted => 5
  | .suspended => 6

/-- One hardware thread (R72) and its place in the tick (R50–R57). -/
structure Thread where
  st : ThrState := .disabled
  /-- The state to which a debug-halted or suspended thread returns. -/
  back : ThrState := .disabled
  fault : Nat := 0
  consec : Nat := 0
  pc : Nat := 0
  x : Vector Word 16 := Vector.replicate 16 0
  f : Vector F32 8 := Vector.replicate 8 0
  aux : Word := 0
  dl : BitVec 64 := 0
  /-- The 64 wake-source bits (Table 3-3), TIME excepted, which is computed from `deadline`. -/
  pend : BitVec 64 := 0
  deadline : Option (BitVec 64) := none
  /-- While waiting: the mask and the destination register of the WAIT. -/
  mask : BitVec 64 := 0
  waitRd : Fin 16 := 0
  budget : Nat := 0
  /-- Grants still owed to the instruction in issue (R51, R78). -/
  owed : Nat := 0
  used : Nat := 0
  usedLast : Nat := 0
  usedMax : Nat := 0
  ovrThisTick : Bool := false
  /-- A fault whose handover is due in cycles 0–199 of this tick (R55). -/
  handover : Option Nat := none
  /-- A restart that takes effect at cycle 200 of this tick (R57). -/
  restart : Option Nat := none
  /-- The cycle from which a thread that woke is eligible (R63). -/
  readyAt : Nat := 0
  /-- Cycles of the instruction in issue that are charged already (R51). -/
  prepaid : Nat := 0
  /-- While debug-halted: the thread is suspended as well (R70). -/
  susp : Bool := false
  /-- One instruction is to be granted under a debug step (R71). -/
  step : Bool := false
  /-- High words that the thread's reads of low words copied and that it has not read yet, by the offset of the high word
  (R7, R87). -/
  shadow : List (Nat × Word) := []
  deriving DecidableEq, Repr

/-- A host access to program memory (`prog`) or data memory: the bytes that a write stores, or the addresses that a read
names (R60). -/
structure HostAcc where
  prog : Bool
  write : List (Nat × Byte) := []
  read : List Nat := []
  deriving DecidableEq, Repr

/-- The sequencer beside its registers. -/
structure Seqr where
  thr : Vector Thread 16 := Vector.replicate 16 {}
  /-- The thread that received the previous grant (R50); 15 before the first grant of a tick. -/
  lastGrant : Fin 16 := 15
  /-- NO_HANDLER makes every PICK fail from the next tick on (R56): the tick in which it was set. -/
  noHandlerTick : Option Nat := none
  /-- Host dwords served in the reserved cycles of the present tick, and the host accesses that wait (R60). -/
  served : Nat := 0
  waiting : List HostAcc := []
  /-- BUDGET values of a settings apply that take effect at the reload of this tick (R69). -/
  budgetDue : Bool := false
  /-- Threads start at their entry points at cycle 200 (R68). -/
  startDue : Bool := false
  /-- Program memory has been changed by a host write, so the running configuration counts as unsigned (R58). -/
  patched : Bool := false
  deriving DecidableEq, Repr

/-! ## Memory windows (Table 0-6) -/

/-- The five memory windows, each a canonical list of bytes whose unlisted addresses read 0. (DESIGN CHOICE: log 65) -/
structure Mem where
  pmem : List Host.Cell := []
  dmem : List Host.Cell := []
  coef : List Host.Cell := []
  expo : List Host.Cell := []
  capture : List Host.Cell := []
  deriving DecidableEq, Repr

/-! ## Event codes (Table 21-3 and chapter 22) -/

/-- A hardware event: its class, block and code (R424). -/
structure EvId where
  cls : EvClass
  block : Nat
  code : Nat
  deriving DecidableEq, Repr

namespace Ev

def DEV_UNMAPPED : EvId := ⟨.warn, 0x00, 1⟩
def DEV_AXIS_COAST : EvId := ⟨.warn, 0x00, 2⟩
def DEV_REINIT : EvId := ⟨.info, 0x00, 3⟩
def DEV_RETRAIN_TIMEOUT : EvId := ⟨.alarm, 0x00, 4⟩
def DEV_PLL_TIMEOUT : EvId := ⟨.alarm, 0x00, 5⟩
def VIN_DEFERRED_DONE : EvId := ⟨.info, 0x01, 1⟩
def VIN_APPLY_TIMEOUT : EvId := ⟨.warn, 0x01, 2⟩
def SEQ_OVERRUN : EvId := ⟨.warn, 0x02, 1⟩
def SEQ_THREAD_FAULT : EvId := ⟨.alarm, 0x02, 2⟩
def SEQ_NO_HANDLER : EvId := ⟨.alarm, 0x02, 3⟩
def SEQ_MBOX_POSTED : EvId := ⟨.info, 0x02, 4⟩
def HIF_AUDIT : EvId := ⟨.alarm, 0x03, 1⟩
def RCK_AUDIT : EvId := ⟨.alarm, 0x04, 1⟩
def RCK_BUS_ERROR : EvId := ⟨.alarm, 0x04, 2⟩
def RCK_XFER_DROPPED : EvId := ⟨.warn, 0x04, 3⟩
def PRS_VERIFY_FAULT : EvId := ⟨.warn, 0x05, 1⟩
def PRS_LANE_RETIRED : EvId := ⟨.alarm, 0x05, 2⟩
def PRS_NO_LANE : EvId := ⟨.alarm, 0x05, 3⟩
def PRS_NO_SPACE : EvId := ⟨.warn, 0x05, 4⟩
def CEL_PAGE_DAMAGED : EvId := ⟨.warn, 0x06, 1⟩
def CEL_BANK_RETIRED : EvId := ⟨.alarm, 0x06, 2⟩
def CEL_AUDIT : EvId := ⟨.alarm, 0x06, 3⟩
def DEC_LINE_LOST : EvId := ⟨.warn, 0x07, 1⟩
def DEC_START_SLIP : EvId := ⟨.warn, 0x07, 2⟩
def DEC_TABLE_STALE : EvId := ⟨.warn, 0x07, 3⟩
def DEC_DOT_AUDIT : EvId := ⟨.alarm, 0x07, 4⟩
def DEC_EMITTER_REMAP : EvId := ⟨.info, 0x07, 5⟩
def DEC_NO_WINDOW : EvId := ⟨.alarm, 0x07, 6⟩
def EXP_PHASE_WARN : EvId := ⟨.warn, 0x08, 1⟩
def EXP_BD_MISSING : EvId := ⟨.warn, 0x08, 2⟩
def EXP_FACET_SLIP : EvId := ⟨.warn, 0x08, 3⟩
def EXP_BANDC_STALE : EvId := ⟨.warn, 0x08, 4⟩
def EXP_DCLK_UNLOCK : EvId := ⟨.warn, 0x08, 5⟩
def EXP_LINES_SKIPPED : EvId := ⟨.warn, 0x08, 6⟩
def EXP_OVERSPEED : EvId := ⟨.alarm, 0x08, 7⟩
def EXP_DCLK_TIMEOUT : EvId := ⟨.warn, 0x08, 8⟩
def EXL_EMITTER_DEGRADED : EvId := ⟨.warn, 0x09, 1⟩
def EXL_LINK_DOWN : EvId := ⟨.warn, 0x09, 2⟩
def EXL_CRC_RATE : EvId := ⟨.warn, 0x09, 3⟩
def EXL_HEAD_REFUSED : EvId := ⟨.alarm, 0x09, 4⟩
def EXL_LINK_FAILED : EvId := ⟨.alarm, 0x09, 5⟩
def EXL_FALLBACK : EvId := ⟨.alarm, 0x09, 6⟩
def EXL_LEN_MISMATCH : EvId := ⟨.alarm, 0x09, 7⟩
def CLE_REGION_STALE : EvId := ⟨.warn, 0x0A, 1⟩
def CLE_CAPTURE_DONE : EvId := ⟨.info, 0x0A, 2⟩
def CLE_CAP_XFER_DONE : EvId := ⟨.info, 0x0A, 3⟩
def MOT_SENSOR_LOST : EvId := ⟨.warn, 0x0B, 1⟩
def MOT_ROTOR_LOST : EvId := ⟨.warn, 0x0B, 2⟩
def MOT_ROTOR_FAULT : EvId := ⟨.alarm, 0x0B, 3⟩
def MOV_BAD_CMD : EvId := ⟨.warn, 0x0C, 1⟩
def MOV_TIMEOUT : EvId := ⟨.warn, 0x0C, 2⟩
def MOV_LIMIT_DEFERRED : EvId := ⟨.warn, 0x0C, 3⟩
def MOV_BAD_LIMIT : EvId := ⟨.warn, 0x0C, 4⟩
def MOV_STALL : EvId := ⟨.warn, 0x0C, 5⟩
def MOV_LIMIT : EvId := ⟨.warn, 0x0C, 6⟩
def MOV_BAD_WINDOW : EvId := ⟨.warn, 0x0C, 7⟩
def MOV_JAM_WINDOW : EvId := ⟨.warn, 0x0C, 8⟩
def FBK_HALL_INVALID : EvId := ⟨.warn, 0x0D, 1⟩
def FBK_SIG_FAULT : EvId := ⟨.warn, 0x0D, 2⟩
def INDEX_MISMATCH : EvId := ⟨.warn, 0x0D, 3⟩
def FBK_INDEX_DROPPED : EvId := ⟨.warn, 0x0D, 4⟩
def GDR_VGL_UV : EvId := ⟨.alarm, 0x0E, 1⟩
def GDR_GROUP_FAULT : EvId := ⟨.alarm, 0x0E, 2⟩
def GDR_RETRY : EvId := ⟨.info, 0x0E, 3⟩
def GDR_RETRY_EXHAUSTED : EvId := ⟨.alarm, 0x0E, 4⟩
def GDR_HB_RETIRED : EvId := ⟨.alarm, 0x0E, 5⟩
def GDR_BUS_OV_WARN : EvId := ⟨.warn, 0x0E, 6⟩
def GDR_BUS_OV_TRIP : EvId := ⟨.alarm, 0x0E, 7⟩
def GDR_CHOPPER_FAULT : EvId := ⟨.alarm, 0x0E, 8⟩
def IRN_MAINS_LOST : EvId := ⟨.warn, 0x0F, 1⟩
def IRN_TRIP : EvId := ⟨.alarm, 0x0F, 2⟩
def HVS_TRIP : EvId := ⟨.warn, 0x10, 1⟩
def THM_BROKEN : EvId := ⟨.alarm, 0x11, 1⟩
def THM_DIE_WARN : EvId := ⟨.warn, 0x11, 2⟩
def THM_BAND : EvId := ⟨.info, 0x11, 3⟩
def PSQ_AC_LOSS : EvId := ⟨.info, 0x12, 1⟩
def PSQ_RAIL_FAULT : EvId := ⟨.alarm, 0x12, 2⟩
def PSQ_RAIL_TIMEOUT : EvId := ⟨.alarm, 0x12, 3⟩
def PSQ_RAIL_FAIL_DOWN : EvId := ⟨.warn, 0x12, 4⟩
def PSQ_OFF_TIMEOUT : EvId := ⟨.warn, 0x12, 5⟩
def PSQ_LOCKOUT : EvId := ⟨.alarm, 0x12, 6⟩
def LDG_RINSE_NEEDED : EvId := ⟨.alarm, 0x13, 1⟩
def LDG_AUDIT : EvId := ⟨.alarm, 0x13, 2⟩
def LDG_UNRESOLVED : EvId := ⟨.alarm, 0x13, 3⟩
def LDG_RINSE_TIMEOUT : EvId := ⟨.warn, 0x13, 4⟩
def SEC_RNG_FAIL : EvId := ⟨.alarm, 0x14, 1⟩
def SEC_NVM_CORRUPT : EvId := ⟨.alarm, 0x14, 2⟩
def SEC_PAIRING_REFUSED : EvId := ⟨.alarm, 0x14, 3⟩
def SEC_CON_AUTH : EvId := ⟨.info, 0x14, 4⟩
def SEC_DEBUG_UNLOCKED : EvId := ⟨.warn, 0x14, 5⟩
def EVT_DROPPED : EvId := ⟨.info, 0x15, 1⟩
def EVT_TRACE_STOPPED : EvId := ⟨.info, 0x15, 2⟩
def EVT_LOST : EvId := ⟨.info, 0x15, 3⟩
def EVT_MEND_SET : EvId := ⟨.warn, 0x15, 4⟩
def EVT_MEND_CLEAR : EvId := ⟨.info, 0x15, 5⟩
def BRG_FRAME_MISS : EvId := ⟨.warn, 0x19, 1⟩
def BRIDGE_LOSS : EvId := ⟨.alarm, 0x19, 2⟩
def CHN_PORT_DOWN : EvId := ⟨.alarm, 0x16, 1⟩
def CHN_PORT_UP : EvId := ⟨.info, 0x16, 2⟩
def CHN_HEAD_CONFLICT : EvId := ⟨.alarm, 0x16, 3⟩
def CHN_TOO_LONG : EvId := ⟨.alarm, 0x16, 4⟩
def CHN_ADDR_CHANGED : EvId := ⟨.warn, 0x16, 5⟩
def CHN_ALIGNED : EvId := ⟨.info, 0x16, 6⟩
def CHN_ALIGN_LOST : EvId := ⟨.warn, 0x16, 7⟩
def CHN_HO_ABORT : EvId := ⟨.warn, 0x16, 8⟩
def CHN_HO_RESOLVED : EvId := ⟨.info, 0x16, 9⟩
def CHN_REMOTE_ALARM : EvId := ⟨.warn, 0x16, 10⟩
def CHN_STOP : EvId := ⟨.warn, 0x16, 11⟩
/-- WRITE_REFUSED of a block (R424). -/
def writeRefused (block : Nat) : EvId := ⟨.warn, block, 0⟩

end Ev


/-! ## Vintages (chapter 2) -/

/-- Vintage commands that wait for flash, a check or both, in order of consumption. -/
inductive VinJob where
  | load (cid : BitVec 16) (slot : Fin 8)
  | check (cid : BitVec 16) (slot : Fin 8)
  /-- An apply whose check runs first (R37): the switch tick it names. -/
  | apply (cid : BitVec 16) (at_ : Nat)
  /-- A revert: the PREVIOUS slot is read, checked and applied (R47). -/
  | revert (cid : BitVec 16)
  /-- The reload of R42 from external flash: no command waits for it. -/
  | reload
  deriving DecidableEq, Repr

/-- An apply that has been accepted and not yet switched (VIN_STATUS.PENDING), or the reload of a boot, an engine reset
or R42, which is no command. -/
structure ApplyJob where
  cid : Option (BitVec 16)
  at_ : Nat
  whole : Bool
  slot : Fin 8
  revert : Bool := false
  /-- The bank was dirty (R35). -/
  dirty : Bool := false
  /-- Tick H, once reached (R41). -/
  h : Option Nat := none
  deriving DecidableEq, Repr

structure Vint where
  /-- The eight slots of external flash (R33). -/
  slots : Vector (Option Image) 8 := Vector.replicate 8 none
  /-- The preload area of DRAM (R33, R36). -/
  preload : Option Image := none
  /-- The images in force (R37). -/
  inForce : Option Image := none
  /-- The staging bank as the last switch applied it: the values deferred fields take, and those the Press uses. -/
  applied : SMap Word := []
  jobs : List VinJob := []
  apply : Option ApplyJob := none
  /-- ST writes held from tick H of a whole apply (R45): offset and word. -/
  held : List (Nat × Word) := []
  /-- The vintage index as the Core die knows it: marks, and whether the bank in force is unsigned (R33, R35). -/
  cur : Option (Fin 8) := none
  prev : Option (Fin 8) := none
  unsigned : Bool := false
  deriving DecidableEq, Repr

/-! ## The host interface (chapter 5) -/

/-- Status codes of completion and retire entries (Table 5-5). -/
inductive Status where
  | ok | badOpcode | badQueue | badField | notReady | noCredit | busError | noSpace | staleGeometry | badBlock
  | duplicateTag | unknownTag | mboxFull | discarded | delivered | reportTooSmall | vintageFail | rinseRefused
  | handedOut
  deriving DecidableEq, Repr

def Status.code : Status → Nat
  | .ok => 0x00 | .badOpcode => 0x01 | .badQueue => 0x02 | .badField => 0x03 | .notReady => 0x04 | .noCredit => 0x05
  | .busError => 0x06 | .noSpace => 0x07 | .staleGeometry => 0x08 | .badBlock => 0x09 | .duplicateTag => 0x0A
  | .unknownTag => 0x0B | .mboxFull => 0x0C | .discarded => 0x0D | .delivered => 0x0E | .reportTooSmall => 0x0F
  | .vintageFail => 0x10 | .rinseRefused => 0x11 | .handedOut => 0x12

/-- One CQ entry (Table 5-4). -/
structure CqEntry where
  cid : BitVec 16
  sq : Fin 2
  retire : Bool := false
  phase : Bool := true
  status : Status
  detail : Nat := 0
  resA : Word := 0
  resB : Word := 0
  deriving DecidableEq, Repr

/-- A METER_REPORT in progress (R384): its buffer, the nonce and the journal entries it waits for. -/
structure MeterJob where
  cid : BitVec 16
  addr : Nat
  nonce : List Word
  /-- The tick of the consumption, and the entries of the journal made before it that have not committed. -/
  tick : Nat
  waits : Nat
  /-- Bytes 0 to 3,215 as they stood at the snapshot. -/
  body : Option (List Byte) := none
  deriving DecidableEq, Repr

/-- A RINSE in progress (R380): the set, and a CLEAR that is held while the ledger is frozen. -/
structure RinseJob where
  cid : BitVec 16
  ids : List Word
  since : Nat
  heldClear : Bool := false
  deriving DecidableEq, Repr

/-- A PAGE_DISCARD that waits for the next tick boundary (R118): its page, by tag and place in submission order. -/
structure Discard where
  tag : Word
  seq : Nat
  cid : BitVec 16
  /-- The tick of its consumption. -/
  tick : Nat
  deriving DecidableEq, Repr

/-- A MAILBOX command whose payload is being read (R66, R121). -/
structure Mail where
  cid : BitVec 16
  box : Nat
  count : Nat
  payload : Vector Word 16
  deriving DecidableEq, Repr

/-- The host interface beside its registers. (PRESUMED: log 36) -/
structure HostIf where
  /-- Published tails of SQ_0 and SQ_1. -/
  sqTail : Vector Nat 2 := Vector.replicate 2 0
  /-- For each submission queue: the index up to which its entries have been read, and the CQ entries its next command is
  waiting for (R109), 0 where it does not wait. -/
  sqRead : Vector Nat 2 := Vector.replicate 2 0
  stall : Vector Nat 2 := Vector.replicate 2 0
  /-- CQ entries written and not yet released, oldest first, and how many are reserved and free (R109, R120). -/
  cq : List CqEntry := []
  cqReserved : Nat := 0
  cqFree : Nat := 15
  /-- Entries that wait for channel 0 to write them (R125, R128). -/
  cqHeld : List CqEntry := []
  /-- MAILBOX commands whose payload channel 5 is reading, oldest first (R121). -/
  mails : List Mail := []
  /-- EVR entries written and not yet released, oldest first, with their phase bits. -/
  evr : List (Event × Bool) := []
  /-- Unsignalled entries of vectors 0 and 2 and the tick of the oldest (R124). -/
  cqUnsig : Nat := 0
  cqOldest : Nat := 0
  evrUnsig : Nat := 0
  evrOldest : Nat := 0
  /-- MSI-X: masked vectors, pending bits, and how often each vector's message was sent (R123). -/
  msixMask : BitVec 64 := BitVec.allOnes 64
  msixPend : BitVec 64 := 0
  msixSent : Vector Nat 64 := Vector.replicate 64 0
  /-- PAGE_DISCARD commands that wait for the next tick boundary (R118). -/
  discards : List Discard := []
  meters : List MeterJob := []
  /-- Reports being written to host memory over channel 5: CID, address and bytes. -/
  sending : List (BitVec 16 × Nat × List Byte) := []
  /-- The last meter report written to host memory (R384): its address and its bytes. -/
  report : Option (Nat × List Byte) := none
  rinse : Option RinseJob := none
  /-- The bytes that the latest host read of BAR0 returned (R4). -/
  readData : List Byte := []
  /-- CQ entries to be written up to the completion of an ENGINE_RESET command, none where it has left the link (R122). -/
  resetHeld : Nat := 0
  /-- Held events that channel 0 has yet to copy to EVR (R125, R417). -/
  evrDue : Bool := false
  deriving DecidableEq, Repr

/-! ## The Racking engine (chapter 5) -/

/-- A Racking transaction that has been issued and not completed (R125): the generation it was issued under. -/
structure Txn where
  gen : Nat
  addr : Nat := 0
  bytes : Nat := 0
  write : Bool := false
  /-- It holds one of the channel's own tokens, not a shared one (R125). -/
  own : Bool := false
  /-- What it serves: the submission queue of a fetch (channel 0), the page's place in submission order (channels 1 and 2),
  block and pass of a station stream. -/
  tag : Nat := 0
  /-- The transfer it belongs to (R126). -/
  job : Nat := 0
  deriving DecidableEq, Repr

/-- One Racking channel beside RCK_CH_STATUS[c]. -/
structure Chan where
  issued : List Txn := []
  queued : List Txn := []
  /-- Tokens of the channel's own four (channels 8 to 13) in use. -/
  ownUsed : Nat := 0
  slots : Nat := 0
  /-- The tick of the first issue of each transfer that has not finished (R126). -/
  first : List (Nat × Nat) := []
  /-- Transactions on the bus when an engine reset made the tokens new: their data is discarded when it comes (R130). -/
  stale : List Txn := []
  /-- The failing transaction of a halted channel (R128). -/
  failed : Option Txn := none
  deriving DecidableEq, Repr

structure Rack where
  ch : Vector Chan 16 := Vector.replicate 16 {}
  /-- The Racking audit has failed (R125). -/
  auditFail : Bool := false
  /-- Transfers made so far. -/
  jobs : Nat := 0
  /-- The channel that took a shared token last (R125). -/
  last : Nat := 15
  deriving DecidableEq, Repr

/-! ## Pages, the Press and the Cellar (chapters 6 and 8) -/

/-- Page states (Table 8-1). -/
inductive PageState where
  | inPress | stored | committed | picked | retained
  deriving DecidableEq, Repr

def PageState.code : PageState → Nat
  | .inPress => 1 | .stored => 2 | .committed => 3 | .picked => 4 | .retained => 5

/-- Where a granule of a chain lies (R177). -/
inductive Gran where
  | cellar (n : Nat)
  | dram (n : Nat)
  deriving DecidableEq, Repr

def Gran.inCellar : Gran → Bool
  | .cellar _ => true
  | .dram _ => false

/-- The geometry a plane is pressed under (R138). -/
structure Geom where
  beams : Nat
  spacing : Nat
  offset : Nat
  depth : Nat
  width : Nat
  shingle : Bool
  deriving DecidableEq, Repr

/-- A stored block: its place in the round order, its bytes and where they start in the plane's chain (R177). -/
structure Block where
  stream : Nat
  round : Nat
  pos : Nat
  data : List Byte
  damaged : Bool := false
  deriving DecidableEq, Repr

/-- A plane of a page (R136, R180). -/
structure Plane where
  station : Fin 6
  pre : Bool
  depth : Nat
  gLines : Nat
  tmode : Nat
  width : Nat
  gen : Nat
  geom : Geom
  /-- Pre-encoded: the index table (byte offset and length of each block), base and length; raw: bands and pitch. -/
  index : List (Nat × Nat) := []
  base : Nat := 0
  len : Nat := 0
  count : Nat := 0
  bands : List (Nat × Nat) := []
  pitch : Nat := 0
  /-- The address of its band table or index table. -/
  table : Nat := 0
  /-- The granule chain and its end in bytes, and the blocks stored so far in order. -/
  chain : List Gran := []
  chainEnd : Nat := 0
  blocks : List Block := []
  /-- The need_q it obtained at its commit, and whether it relied on condition (b) (R182). -/
  need : Nat := 0
  condB : Bool := false
  /-- Its last line has been exposed. -/
  exposed : Bool := false
  deriving DecidableEq, Repr

/-- A page the ZK960 holds (R115, R178). -/
structure Page where
  tag : Word
  cid : BitVec 16
  /-- Position in submission order. -/
  seq : Nat
  st : PageState := .inPress
  /-- The descriptor address and length of its PAGE_SUBMIT. -/
  desc : Nat := 0
  descLen : Nat := 0
  /-- The descriptor as read, once its band tables are being read (R137). -/
  descr : List Word := []
  /-- The Press has begun the page (R138): its planes are stamped. -/
  started : Bool := false
  /-- The geometry generations and geometries stamped when the Press began it, by station (R138). -/
  stamps : List (Nat × Geom) := []
  lines : Nat := 0
  size : Nat := 0
  colour : Nat := 0
  planes : List Plane := []
  damaged : Bool := false
  /-- Last result of the admission function (Table 8-4), and the largest demand it found. -/
  reason : Nat := 0
  lastNeed : Nat := 0
  sheet : Option Word := none
  second : Bool := false
  /-- The CIDs of PAGE_DISCARD commands that end with the page at its last exposed line (R118). -/
  discard : List (BitVec 16) := []
  /-- Its sheet's outcome and spoiled flag, once delivered or handed out while the page was PICKED (R119). -/
  outcome : Option (Status × Bool) := none
  /-- It returns to STORED at its last exposed line (R189), or never returns (R118). -/
  jamReturn : Bool := false
  noReturn : Bool := false
  /-- Its storage for jam reprint has been released (R43). -/
  released : Bool := false
  /-- The TSC of its commit (R183). -/
  commitAt : Option (BitVec 64) := none
  /-- Order of its PICK. -/
  pickedAt : Nat := 0
  /-- Order of entry to RETAINED (Table 8-2). -/
  retainedAt : Nat := 0
  deriving DecidableEq, Repr

/-- What a lane is handed (R146): the plane's position in the page, the stream and the block. -/
structure BlockPos where
  plane : Nat
  stream : Nat
  round : Nat
  deriving DecidableEq, Repr

/-- One Press lane beside its registers. -/
structure Lane where
  job : Option (Word × BlockPos) := none
  /-- The block's raw lines, and whether it is a pre-encoded block (R145). -/
  raw : List (List Nat) := []
  pre : Bool := false
  /-- The form now in the lane's buffer, and whether it is the stored form and has been verified. -/
  out : List Byte := []
  storedForm : Bool := false
  verified : Bool := false
  /-- The coded form was larger or slower, or failed, so the stored form was emitted (R148, R149). -/
  byBound : Bool := false
  byFault : Bool := false
  /-- The Racking transfer that brings its block (R126, R143). -/
  reads : Nat := 0
  deriving DecidableEq, Repr

structure Press where
  lanes : Vector Lane 4 := Vector.replicate 4 {}
  /-- Of the page in the Press: blocks handed out and blocks stored, in round order. -/
  handed : Nat := 0
  storedN : Nat := 0
  /-- The same counts for a next page whose first blocks have been handed out (R146): its tag. -/
  nextTag : Option Word := none
  nextHanded : Nat := 0
  /-- The page (by submission order) whose blocks each lane took last (R150). -/
  laneSeq : Vector (Option Nat) 4 := Vector.replicate 4 none
  /-- Blocks that pass to the next free lane, each with the lane it comes from (R149, R150). -/
  passed : List (Word × BlockPos × Nat) := []
  deriving DecidableEq, Repr

/-- The Cellar beside its registers (R176–R192). (DESIGN CHOICE: log 75) -/
structure Cellar where
  pages : List Page := []
  nextSeq : Nat := 0
  nextRetained : Nat := 0
  nextPick : Nat := 0
  /-- The Cellar granules that are allocated or out of service; every other one is free. -/
  used : List Nat := []
  dramUsed : List Nat := []
  /-- The bank that supplied the previous granule (R176). -/
  lastBank : Nat := 31
  /-- Granules under eviction: page tag, plane and chain index, and the DRAM granule it goes to. -/
  evicting : List (Word × Nat × Nat × Nat) := []
  /-- The same for a refill. -/
  refilling : List (Word × Nat × Nat × Nat) := []
  /-- Tick of the last successful PICK since threads started (R186). -/
  lastPick : Option Nat := none
  /-- The geometry generation in force for exposure at each station (R40, R44); PRS_GEOM_GEN is the pressing one. -/
  genInForce : Vector Nat 6 := Vector.replicate 6 0
  /-- A lane waits for granules (R152). -/
  waitSince : Option Nat := none
  deriving DecidableEq, Repr

/-! ## Non-volatile memory (chapters 18, 19, 20, 21) -/

/-- A supervisor event held for the next boot (R412). -/
structure HeldEvent where
  id : EvId
  inst : Nat
  deriving DecidableEq, Repr

/-- What survives power loss in the Drive die's non-volatile memory, beside register words that a chapter marks
"per NVM". -/
structure Nvm where
  /-- The ledger of the last committed journal record (R377, R379). -/
  led : Ledger := {}
  mend : Word := 0
  mono : Vector Nat 3 := Vector.replicate 3 0
  /-- The vintage index (R33): slots marked CURRENT and PREVIOUS, the floor, and whether the bank in force is unsigned. -/
  cur : Option (Fin 8) := none
  prev : Option (Fin 8) := none
  unsigned : Bool := false
  /-- I, S, Y and EVT_DROP of the last committed record (R422). -/
  serialI : Nat := 0
  serialS : Nat := 0
  serialY : Nat := 0
  drops : List Nat := [0, 0, 0, 0, 0]
  /-- A record has ever been committed, so that there are serials to recover. -/
  written : Bool := false
  /-- Entries that were not committed when power was lost, and their first and last tick (R379). -/
  unresolved : Option (Nat × Nat) := none
  held : List HeldEvent := []
  heldLost : Nat := 0
  /-- The 64-entry handover log: identifiers whose handed-out transition has committed (R437), newest first. -/
  log : List Word := []
  /-- MIN_OFF in ms and AC_FILT in µs as journalled (R404). -/
  minOff : Nat := 100
  acFilt : Nat := 2
  deriving DecidableEq, Repr


/-! ## Stations: Decanter, clocks and exposure link (chapters 9, 10 and 11) -/

/-- What an outstanding control packet is (R245). -/
inductive PktKind where
  | config | table | read | write
  deriving DecidableEq, Repr

/-- A 66-bit block of the exposure link before it is scrambled: a control block (sync header 0b10) or a data block (0b01),
with its payload (R236). -/
structure LinkBlk where
  ctl : Bool
  payload : BitVec 64
  deriving DecidableEq, Repr

/-- A control packet whose response is awaited: its tag and how often the response has expired or asked again (R247). -/
structure Packet where
  kind : PktKind
  tag : BitVec 8
  /-- The blocks it was sent as (R245). -/
  blocks : List LinkBlk := []
  tries : Nat := 0
  /-- TSC at which it was sent last. -/
  sentAt : Nat := 0
  deriving DecidableEq, Repr

/-- A page whose exposure began: first SEQ, its sheet, and what dark reports need (R243). -/
structure Run where
  seq0 : Int
  sFirst : Int
  sLast : Int
  sheet : Option Word
  geom : Geom
  lines : Nat
  width : Nat
  deriving DecidableEq, Repr

/-- The line clock of a station and the sweep clock that divides it (R214–R219). Phases are page lines with 24 fractional
bits. (DEDUCED: log 47) -/
structure LineClk where
  /-- Φ̂ at TSC `since`, and the NCO's frequency and the loop's integrator in 2^-56 line per cycle. -/
  phase : Int := 0
  since : Nat := 0
  freq : Int := 0
  integ : Int := 0
  /-- Φ: its value where EXP_LPITCH or the bound channel last changed, the counts since, and what they are held against. -/
  base : Int := 0
  counts : Int := 0
  pos : Word := 0
  pitch : Nat := 0x10000
  chan : Nat := 0
  /-- Φ − Φ̂ at the latest update, less the lines passed over since (R232). -/
  lag : Int := 0
  /-- Phase of the next sweep-clock edge; time of the last in 1/256 cycle, and the lines from it to the next. -/
  edge : Int := 0
  edgeAt : Nat := 0
  span : Int := 0
  /-- The tick of the latest update (R214). -/
  upAt : Option Nat := none
  deriving DecidableEq, Repr

/-- The dot clock of a station (R226–R230). -/
structure DotClk where
  /-- The target as a fraction in Hz, and the output in 1/1,000,000 Hz, as it stood at `at_` in 1/1,024 cycle. -/
  num : Nat := 0
  den : Nat := 0
  out : Nat := 0
  at_ : Nat := 0
  /-- The target when the present lock window began, in 1/1,000,000 Hz (R228). -/
  winFrom : Nat := 0
  /-- Dots since the latest BD: the sum of frequency in 1/1,000,000 Hz times time in 1/1,024 cycle (R230). -/
  gone : Nat := 0
  /-- The BD of the latest alignment, and EXP_DCLK_START then: a dot edge lies there (R230). -/
  bd : Nat := 0
  start : Nat := 0
  /-- The correction in steps of 1/64 dot, and the dots from the BD to the first dot of the sweep. -/
  steps : Int := 0
  dots : Nat := 0
  deriving DecidableEq, Repr

/-- One of the two line buffers of a beam (R199). -/
inductive BufSt where
  /-- Its credit is with the Decanter. -/
  | free
  | complete
  | draining
  /-- Its drain has ended; it still holds the reference line. -/
  | drained
  /-- It holds a line that was passed over, as the reference of the next (R232). -/
  | passed
  deriving DecidableEq, Repr

/-- A block opened in a decode-table slot (R197): its stream and round, and the code lengths that opening it has made, none where
its header or its code-length section breaks R172. -/
structure OpenBlk where
  stream : Nat
  round : Nat
  table : Option (List Nat) := none
  deriving DecidableEq, Repr

/-- One beam in the Decanter and the Carafe: two line buffers, the 2-bit Gray-coded counts of completed and drained lines
(R199, R200), and the blocks in its decode-table slots (R197). -/
structure Beam where
  bufA : BufSt := .free
  bufB : BufSt := .free
  completed : BitVec 2 := 0
  drained : BitVec 2 := 0
  slots : List OpenBlk := []
  deriving DecidableEq, Repr

/-- One imaging station beside its registers. -/
structure Station where
  /-- The page being primed, exposed or inhibited; its plane is the one of this station. -/
  page : Option Word := none
  primed : Bool := false
  /-- The head has acknowledged the page's TABLE packet, or needs none (R246). -/
  tableOk : Bool := false
  /-- The top-of-page compare has fired (R203), and Φ̂ at the time of its crossing (R218, R272). -/
  top : Bool := false
  topPhase : Int := 0
  slips : Nat := 0
  /-- The next sweep of the page, and the one in drain. -/
  sweep : Int := 0
  cur : Int := 0
  /-- The beams' buffers and decode tables. -/
  beams : Vector Beam 32 := Vector.replicate 32 {}
  /-- Beams whose line of the next sweep has its notice (R200). -/
  notices : List Nat := []
  /-- Blocks (pass, stream, round) whose remaining lines are lost (R201), and blocks that came back poisoned or not at all
  (R126, R129). -/
  lostRounds : List (Nat × Nat × Nat) := []
  poisoned : List (Nat × Nat × Nat) := []
  /-- The page's counts: dots by value, dots lost, dots dark, skipped lines (R211, R232, R243). -/
  byVal : List Nat := []
  lost : Nat := 0
  dark : Nat := 0
  skipped : Nat := 0
  phWarned : Bool := false
  /-- The drain-side table: 16 head codes for each beam (R210), the mask in use, and its 16 rows as the top of page found them
  (R208). -/
  table : List (List Nat) := []
  mask : Option Nat := none
  maskRows : List Nat := []
  /-- Dots by value of the lines in drain: counted when the drain ends, lost where it is cut (R202, R211). -/
  drainDots : List Nat := []
  /-- The next sweep is passed over: its lines are decoded and not exposed (R232). -/
  skipping : Bool := false
  /-- For each pass: the next round to fetch into the stream window, and the round being fetched (R206). -/
  fetched : Vector Nat 2 := Vector.replicate 2 0
  fetching : Vector (Option Nat) 2 := Vector.replicate 2 none
  /-- Duty and temperature band chosen at the last page gap (R209), and whether the region in use is another one (R210). -/
  dutyNext : Nat := 0
  tempNext : Nat := 0
  /-- The copy of EXP_BOFS in use for the page (R231): words that are not 0, by offset. -/
  bofs : SMap Word := []
  /-- The blocks of the sweep in drain, in the order of the outward sequence: SWEEP_START and its line packets (R239). -/
  sent : List LinkBlk := []
  /-- TSC at which the last line packet of the sweep has gone, and the last control packet that waits (R239). -/
  lineEnd : Nat := 0
  ctrlEnd : Nat := 0
  /-- The tag of the page's TABLE packet, and the blocks it was sent as: recorded when the page begins (R245, R246). -/
  tableTag : Option (BitVec 8) := none
  tableBlks : List LinkBlk := []
  /-- The ABORT sent for the sweep in drain (R248), the latest SYNC (R242), the latest ALIGN of lanes A and B (R238). -/
  abort : Option LinkBlk := none
  sync : Option LinkBlk := none
  align : List LinkBlk := []
  /-- The station's sweep count, whose low 16 bits are SEQ (R239), a sweep that the next edge passes over (R232), and the
  pages exposed lately. -/
  seq : Int := 0
  skipDue : Bool := false
  runs : List Run := []
  /-- Lines already counted as dark: sweep count and beam. -/
  darkSeen : List (Int × Nat) := []
  /-- Consecutive sweeps towards the next lock state (Table 10-1), and consecutive missing BDs (R222). -/
  freqRun : Nat := 0
  lockRun : Nat := 0
  bdMissed : Nat := 0
  /-- Accepted BD times of the last FACETS periods in 1/1,024 cycle, newest first (R226), and the 8-bit BD number. -/
  bds : List Nat := []
  bdNum : Nat := 0
  line : LineClk := {}
  dot : DotClk := {}
  /-- Good dot-clock lock windows in a row (R228). -/
  windows : Nat := 0
  /-- TSC at which RELOCK was entered (R423). -/
  relockAt : Nat := 0
  /-- EXP_BANDC.LEARN at the last update, so that a new learning is seen. -/
  learnOn : Bool := false
  /-- Line rate recorded when the banding table was last learned (R225). -/
  learned : Nat := 0
  /-- Grid phase in force in 1/256 line, and a change that waits for its slew (R219). -/
  grid : Int := 0
  slewDue : Int := 0
  /-- What the slew in progress has still to move, in lines with 24 fractional bits. -/
  slewLeft : Int := 0
  /-- Exposure link: the attempt that follows, the packets awaiting a response in the order sent, the next tag. -/
  nextAttempt : Nat := 1
  pkts : List Packet := []
  nextTag : BitVec 8 := 0
  configOk : Bool := false
  /-- TSC at which the attempt started, and at which the latest correct STATUS arrived. -/
  attemptAt : Nat := 0
  statusAt : Nat := 0
  /-- The station holds Mend reason EXL_LANE (R254). -/
  laneMend : Bool := false
  /-- Tick at which FAILED was entered (R253). -/
  failedAt : Nat := 0
  /-- An emitter has reported DEAD since CONFIG (R213). -/
  deadSeen : Bool := false
  /-- CRC failures: the last STATUS count, and the failures of the last 1,000 ticks with their ticks (R251). -/
  crcLast : Option Nat := none
  crcs : List (Nat × Nat) := []
  /-- Return-lane block numbers of the latest sync errors (R250). -/
  syncErrs : List Nat := []
  /-- Sweep count at which an emitter's APC reading was taken (R249): emitter and count. -/
  apcAt : List (Nat × Int) := []
  /-- Ticks in a row in which LEN_SEEN and LEN_s differed (R257), once a STATUS has come since training began. -/
  lenDiff : Nat := 0
  lenKnown : Bool := false
  /-- A consumable's latest result gates the station (R398). -/
  conGate : Bool := false
  /-- ALIGN marker count (R238). -/
  markers : Word := 0
  /-- Settled once since the boot: it has reached ACTIVE or FAILED (R475). -/
  settled : Bool := false
  deriving DecidableEq, Repr

/-- One polygon: BDs since the last index mark, whether a mark waits for its BD, whether a mark has come since threads
started, whether facets are numbered (R224). -/
structure Polygon where
  bdSince : Nat := 0
  mark : Bool := false
  marked : Bool := false
  seen : Bool := false
  deriving DecidableEq, Repr


/-! ## Feedback channels, probes and compare pulses (chapter 12) -/

/-- One feedback channel beside its registers. -/
structure Fbk where
  /-- The last valid Hall sector (R261). -/
  sector : Option Nat := none
  /-- Levels of the pins of A and B, A at bit 0 and B at bit 1; none until a first edge shows them (R262). -/
  ab : Option Nat := none
  /-- The last two edges, newest first: TSC and sign (R267). -/
  edges : List (Nat × Int) := []
  /-- Highest, or lowest, position reached since DIR last changed (R266). -/
  peak : Word := 0
  /-- SC channels: the angle of the previous sample (R263), samples out of and within the amplitude limits in a row
  (R265), and the change of count over the latest frame's samples (R267). -/
  angle : Option Nat := none
  bad : Nat := 0
  good : Nat := 0
  moved : Int := 0
  /-- SC channels: the TSC of the latest sample, samples of the excitation half-cycle in progress (R264), and the TSC of
  index edges that wait for their sample (R263). -/
  lastAt : Nat := 0
  cycle : List (Int × Int) := []
  idxAt : List Nat := []
  deriving DecidableEq, Repr

/-- One probe latch (R270); its position is not yet there while an SC channel's later sample is awaited. -/
structure Latch where
  /-- The channel whose position it takes: SRC at the latch. -/
  src : Nat
  tsc : Nat
  pos : Option Word
  deriving DecidableEq, Repr


/-! ## Motor channels (chapter 13) -/

/-- Where a motor channel stands in its start, run or catch-spin. -/
inductive MotPhase where
  /-- Following its references. -/
  | run
  /-- Polarity test of R280: loop runs made. -/
  | polarity (k : Nat)
  /-- Alignment of R282: loop runs made. -/
  | align (k : Nat)
  /-- Open-loop ramp of R282: ticks since the open-loop speed reached HO_HI. -/
  | ramp (k : Nat)
  /-- Catch-spin observation (R287): loop runs made, and runs since the residual was last not below RES_TH. -/
  | observe (k clean : Nat)
  /-- Catch-spin, waiting for a low speed: ticks below HO_LO in a row. -/
  | coast (k : Nat)
  deriving DecidableEq, Repr

/-- One motor channel beside its registers. -/
structure Motor where
  phase : MotPhase := .run
  /-- The first tick in which the channel starts (R289). -/
  startAt : Option Nat := none
  /-- Integrators: d and q axis, or winding A and B (R284). -/
  int1 : F32 := 0
  int2 : F32 := 0
  /-- Open-loop speed in electrical Hz and angle in turns (R282). -/
  olSpeed : F32 := 0
  olTurns : F32 := 0
  /-- Peak d-axis currents of the two polarity pulses, the sign of the next injection (R280). -/
  peakPos : F32 := 0
  peakNeg : F32 := 0
  hfiNeg : Bool := false
  /-- Ticks since |ω| crossed a handover threshold without agreement (R281). -/
  hand : Option Nat := none
  /-- Loop runs in a row with the residual above RES_TH (R286), and without one since a restart (R287). -/
  above : Nat := 0
  clean : Nat := 0
  /-- Runs on the encoder after a rotor loss (R286). -/
  encAfter : Bool := false
  /-- Ticks left of the shut-down ramp (R289). -/
  rampLeft : Nat := 0
  /-- Solenoid: ticks left of the pull-in, and whether the reference was non-zero (R288). -/
  pull : Nat := 0
  pulled : Bool := false
  /-- A solenoid with an A− role has fallen below 1% of ILIM with its reference at 0: both-off until a new reference (R288). -/
  released : Bool := false
  /-- The loop was held by a fault of the channel's group (R290). -/
  held : Bool := false
  /-- Winding references of a stepper, written by the Mangle (R288, R322). -/
  wA : F32 := 0
  wB : F32 := 0
  /-- Phase currents of the latest run (R278). -/
  iPrev : Vector F32 3 := Vector.replicate 3 0
  /-- The injection tracking loop: angle, speed and the q-axis current of its latest run (R280). -/
  hfiAngle : BitVec 16 := 0
  hfiSpeed : F32 := 0
  hfiIq : F32 := 0
  /-- The back-EMF observer, and the voltage vector applied since its latest run (R281). -/
  obs : Obs := {}
  vA : F32 := 0
  vB : F32 := 0
  deriving DecidableEq, Repr

/-! ## The bridge and the power stage (chapters 1 and 14) -/

/-- A write to a Drive-die register on its way, and the tick in which it was made (R20). -/
structure DnWrite where
  off : Nat
  w : Word
  tick : Nat
  deriving DecidableEq, Repr

/-- A downward frame: high-side on-windows in 1/65,536 of the period (none: both-off), low-side windows, which half-bridges in
independent mode apply (R293), writes, whether an engine reset has been accepted (R369), and whether it ends the stop of R28. -/
structure DnFrame where
  hb : Vector (Option Nat) 48 := Vector.replicate 48 none
  lo : Vector Nat 48 := Vector.replicate 48 0
  writes : List DnWrite := []
  reset : Bool := false
  endStop : Bool := false
  /-- LEN requests of the stations, LEN_0 at bit 0 (R256). -/
  len : Nat := 0
  deriving DecidableEq, Repr

/-- One half-bridge: the high-side duty it applies (none: both-off), its low-side window in independent mode (R293), and
periods since the duty rose above CLAMP (R297). -/
structure Half where
  duty : Option Nat := none
  low : Nat := 0
  refresh : Option Nat := none
  deriving DecidableEq, Repr

/-- One group beside its registers (R300–R302). -/
structure Group where
  /-- The tick in which its retry is due. -/
  retryAt : Option Nat := none
  /-- The ticks of its retries. -/
  retries : List Nat := []
  /-- The tick in which a fault last latched, and the TSC at which the first one did (R301). -/
  faultTick : Option Nat := none
  firstAt : Nat := 0
  /-- The bus monitor whose trip latched the first fault (R476). -/
  monitor : Nat := 0
  /-- A fault during GROUP_SHORT has put the group in GROUP_OFF (R301). -/
  forcedOff : Bool := false
  deriving DecidableEq, Repr

/-- One brake chopper (R291, R306): since when it conducts, bus conversions since then, on-time in this tick. -/
structure Chopper where
  onSince : Option Nat := none
  hist : List (Nat × Nat) := []
  onCycles : Nat := 0
  deriving DecidableEq, Repr

/-- The analogue samples of a tick, and the duties of the PWM periods that ended as they were taken (R277, R278). -/
structure Samples where
  ain : Vector Ain 64 := Vector.replicate 64 {}
  half : Vector Half 48 := Vector.replicate 48 {}
  deriving DecidableEq, Repr

/-- A feedback channel as it stood at the tick boundary (R279). -/
structure FbkAt where
  pos : Word := 0
  sector : Option Nat := none
  edge : Option Nat := none
  speed : F32 := 0
  valid : Bool := false
  bad : Bool := false
  deriving DecidableEq, Repr

/-- The die bridge and the Drive die's power stage. -/
structure Bridge where
  /-- The downward frame being filled; writes, compare values and an engine reset that came after its close; and the frame
  the Drive die holds for the next tick. -/
  out : DnFrame := {}
  late : List DnWrite := []
  lateHb : List (Nat × Option Nat × Nat) := []
  lateReset : Bool := false
  received : Option DnFrame := none
  half : Vector Half 48 := Vector.replicate 48 {}
  /-- The half-bridges as they stood in the tick before. -/
  halfPrev : Vector Half 48 := Vector.replicate 48 {}
  grp : Vector Group 12 := Vector.replicate 12 {}
  chop : Vector Chopper 4 := Vector.replicate 4 {}
  /-- Supplies that have risen through their rising threshold since power-on reset (R459). -/
  armedBst : Vector Bool 48 := Vector.replicate 48 false
  armedVgl : Vector Bool 4 := Vector.replicate 4 false
  /-- The sample set latched at the tick boundary: the Drive die's registers for the upward frame. -/
  latched : SMap Word := []
  /-- The upward frame of this tick came, and it came by cycle 300. -/
  gotUp : Bool := false
  onTime : Bool := false
  /-- That frame reports a fall of AC_OK (R378). -/
  acFell : Bool := false
  /-- The latest samples in the Core die, and those on which the loops of this tick run (R22). -/
  samples : Samples := {}
  loop : Samples := {}
  /-- The motor registers as they stood at cycle 300 of a tick (R275): the tick and the words. -/
  refs : Option (Nat × SMap Word) := none
  /-- The feedback channels at the tick boundary (R279). -/
  fbkAt : Vector FbkAt 18 := Vector.replicate 18 {}
  /-- The image of the Drive die's registers and the feedback words before the late frame of this tick (R22). -/
  before : Option (SMap Word × SMap Word) := none
  /-- Bus monitors whose warning a frame of an earlier tick carried (R304). -/
  warned : Nat := 0
  /-- The tick of the latest run of the current loops and of the Mangle. -/
  loopTick : Option Nat := none
  mangleTick : Option Nat := none
  /-- Frames missed, and correct frames, in a row in each direction. -/
  missUp : Nat := 0
  missDn : Nat := 0
  goodUp : Nat := 0
  goodDn : Nat := 0
  /-- KILL_DN held; heaters and LEN stopped by the stop pulse (Table 1-4); a bus trip to answer (R305). -/
  kill : Bool := false
  stopped : Bool := false
  tripDue : Bool := false
  /-- Interlock inputs that are open, ILK_0 at bit 0. -/
  ilk : BitVec 4 := 0
  /-- The LEN requests of the latest downward frame, and the laser-enable outputs, LEN_0 at bit 0 (R256). -/
  lenReq : Nat := 0
  len : Nat := 0
  deriving DecidableEq, Repr


/-! ## Motion axes and jam windows (chapter 15) -/

/-- A stretch of a motion plan with constant jerk: duration, acceleration at its start, jerk; in ticks and counts, as
integers scaled by 2^96. -/
structure Seg where
  dur : Int
  a : Int
  j : Int
  deriving DecidableEq, Repr

/-- Limits in force: VMAX, AMAX, DMAX, JMAX and DSTOP, after halving, in the units of `Seg`. -/
structure Lim where
  v : Int := 0
  a : Int := 0
  d : Int := 0
  j : Int := 0
  s : Int := 0
  deriving DecidableEq, Repr

/-- An axis command with the values it was taken with (R310, R311). -/
structure AxCmd where
  op : Nat
  tgt : Word
  jogv : F32
  seg : Word
  deriving DecidableEq, Repr

/-- Stages of homing (R329). -/
inductive HomeStage where
  /-- Moving off the switch, before the first approach or between the two. -/
  | leave (second : Bool)
  | approach (second : Bool)
  | halt (second : Bool)
  deriving DecidableEq, Repr

/-- One motion axis beside its registers. -/
structure Axis where
  /-- Commanded position with 32 fractional bits, velocity and acceleration per tick scaled by 2^96 (R309). -/
  p : BitVec 64 := 0
  v : Int := 0
  a : Int := 0
  /-- The plan: its stretches, and the position, velocity and tick of its start. -/
  segs : List Seg := []
  p0 : BitVec 64 := 0
  v0 : Int := 0
  t0 : Nat := 0
  target : Word := 0
  lim : Lim := {}
  /-- The deceleration in progress is kept (R316). -/
  held : Bool := false
  /-- The pending command, and the one queued behind a stop. -/
  cmd : Option Nat := none
  queued : Option AxCmd := none
  /-- Tick in which the move began, and in which the axis last came to rest or took a command. -/
  began : Nat := 0
  restAt : Nat := 0
  /-- Of a stop: its RESULT, whether it uses DSTOP, whether a distance to a target is kept. -/
  stopRes : Nat := 0
  hard : Bool := false
  keep : Bool := false
  /-- Velocity of a jog. -/
  jog : Int := 0
  /-- Segment table: position at its start, next entry, entry past its end. -/
  base : BitVec 64 := 0
  next : Nat := 0
  last : Nat := 0
  /-- Homing: stage, home point, edge whose point is still to be computed, end of the chatter window, tick since which the
  switch is inactive. -/
  home : Option HomeStage := none
  point : Option Word := none
  edgeAt : Option Nat := none
  chatEnd : Nat := 0
  offSince : Option Nat := none
  /-- Positions at the latest tick boundaries, newest first. -/
  hist : List (Nat × Word) := []
  /-- Stepper: boost in 0.1 percent, ticks over the stall angle at the cap, winding currents of the previous tick. -/
  boost : Nat := 0
  stall : Nat := 0
  ia : F32 := 0
  ib : F32 := 0
  /-- Step/direction: steps commanded by the end of this tick, direction output, the rising edges of this tick with their
  directions, and the latest one ever (TSC). -/
  steps : Word := 0
  dir : Bool := false
  edges : List (Nat × Bool) := []
  lastEdge : Nat := 0
  deriving DecidableEq, Repr

/-- One jam window: what it took when it was armed (R330). -/
structure JamWin where
  sn : Nat := 0
  edge : Nat := 0
  mask : Nat := 0
  sheet : Word := 0
  opens : Nat := 0
  closes : Nat := 0
  deriving DecidableEq, Repr


/-! ## The control engine (chapter 16) -/

/-- One compensator slot beside its registers. -/
structure Slot where
  /-- It has made an evaluation since its start. -/
  started : Bool := false
  /-- The working copy of its region's coefficients: b0–b3, a1–a3, UMIN, UMAX (R339). -/
  coef : Vector F32 9 := Vector.replicate 9 0
  /-- The region that takes effect in the next evaluation (R337). -/
  move : Option Nat := none
  restart : Bool := false
  /-- The ticks in which RELOAD was written and that have not been followed yet (R339). -/
  reload : List Nat := []
  /-- Histories of e and v, newest first (R335). -/
  eHist : Vector F32 3 := Vector.replicate 3 0
  vHist : Vector F32 3 := Vector.replicate 3 0
  /-- Transfer offset: its value, its value at the latest switch, ticks of the fade gone (R338). -/
  ofs : F32 := 0
  ofs0 : F32 := 0
  fade : Nat := 0
  /-- The values that selectors REF, FB and SEL read in the previous evaluation (R334). -/
  last : Vector F32 3 := Vector.replicate 3 0
  deriving DecidableEq, Repr

/-- One injection generator beside its registers (R344). -/
structure Inject where
  /-- The tick of its start. -/
  startAt : Option Nat := none
  lfsr : BitVec 15 := BitVec.allOnes 15
  /-- Phase of the sweep in 2^-64 turn. -/
  phase : Nat := 0
  deriving DecidableEq, Repr

/-- The capture beside its registers (R345, R346). -/
structure Capture where
  /-- Next buffer position and samples recorded since ARM. -/
  pos : Nat := 0
  total : Nat := 0
  /-- Samples left after the trigger. -/
  left : Option Nat := none
  /-- The ARM tick has still to be sampled (trigger 0), and signal 0 of the previous sample. -/
  prev : Option F32 := none
  /-- An ARM that waits for the end of a transfer; a transfer in progress: first position, samples and the host address at GO. -/
  armWait : Bool := false
  xfer : Option (Nat × Nat × Nat) := none
  /-- What the latest transfer wrote to host memory: address and bytes. -/
  sent : Option (Nat × List Byte) := none
  /-- TSC and position of the latest sample, and what the buffer held there before (R345). -/
  former : Option (Nat × Nat × Nat) := none
  deriving DecidableEq, Repr

structure Cle where
  slot : Vector Slot 256 := Vector.replicate 256 {}
  inj : Vector Inject 2 := Vector.replicate 2 {}
  cap : Capture := {}
  /-- Ticks of the latest slot list and the latest capture sample. -/
  listTick : Option Nat := none
  capTick : Option Nat := none
  deriving DecidableEq, Repr


/-! ## Thermal, Iron and high voltage (chapter 17) -/

/-- One thermistor beside its registers. -/
structure Therm where
  /-- Samples in a row with a code out of range, and good ones (R350). -/
  bad : Nat := 0
  good : Nat := 0
  /-- Samples taken since power-on reset, up to 3 (R475). -/
  taken : Nat := 0
  /-- Samples in a row over the level and over the rate (R351). -/
  hot : Nat := 0
  rate : Nat := 0
  /-- Readings of the last 100 ms and the one before them, newest first: TSC and 1/16 °C. -/
  hist : List (Nat × Int) := []
  /-- TSC of the latest sample within 10 °C of the level, or above it (R349). -/
  hotAt : Nat := 0
  deriving DecidableEq, Repr

/-- Induction drive (R360): the TSC at which a run of periods of frequency `f` began, in 10 Hz units, and the frequency that holds
from the next period boundary. -/
structure Induction where
  t0 : Nat
  f : Nat
  next : Nat
  deriving DecidableEq, Repr

/-- What the outputs of a heater carry (Table 17-3): nothing, a whole mains cycle, one pulse between two values of TSC, or the
square wave of induction drive. -/
inductive HeaterDrive
  | low
  | cycle
  | pulse (rise fall : Nat)
  | square (i : Induction)
  deriving DecidableEq, Repr

/-- One heater beside its registers. -/
structure Heater where
  /-- What HTR_h_A and HTR_h_B carry (R355). -/
  drive : HeaterDrive := .low
  /-- Burst accumulator (R358), and the TSC of each cycle fired in the last second. -/
  acc : F32 := 0
  fired : List Nat := []
  /-- HTR_h_FLT_N is low (R360). -/
  fault : Bool := false
  /-- Tick of the latest trip (R362). -/
  tripTick : Option Nat := none
  deriving DecidableEq, Repr

/-- The mains synchronisation (R357). -/
structure Mains where
  last : Option Nat := none
  /-- The last eight accepted periods in main-clock cycles, newest first, and edges accepted in a row. -/
  periods : List Nat := []
  run : Nat := 0
  /-- Zero crossings since the accepted edge: none, the positive one, both. -/
  crossed : Nat := 0
  deriving DecidableEq, Repr

/-- One HV channel beside its registers. -/
structure HvCh where
  /-- Set-point in use, integrator, AC duty (R365, R366). -/
  setp : F32 := 0
  int : F32 := 0
  dac : F32 := 0
  /-- The DC duty applied, and whether the output is driven at all. -/
  duty : F32 := 0
  on : Bool := false
  /-- Regulator periods in a row over the trip level of MON, and of AUX (R367). -/
  hotMon : Nat := 0
  hotAux : Nat := 0
  /-- The tick in which it starts. -/
  startAt : Option Nat := none
  /-- Ramp per ms of an engine reset (R369). -/
  resetStep : Option F32 := none
  deriving DecidableEq, Repr

structure Heat where
  therm : Vector Therm 12 := Vector.replicate 12 {}
  heater : Vector Heater 4 := Vector.replicate 4 {}
  mains : Mains := {}
  hv : Vector HvCh 24 := Vector.replicate 24 {}
  /-- The boot has ended and every thermistor enabled then has taken 3 samples (R475). -/
  thermUp : Bool := false
  /-- On-die sensors 12 to 23 that have warned and not yet fallen 5 °C below WARN (R352). -/
  warned : Vector Bool 12 := Vector.replicate 12 false
  /-- Tick since which the DRAM band has asked for a slower refresh, and that band (R354). -/
  slowSince : Option (Nat × Nat) := none
  deriving DecidableEq, Repr

/-! ## Security (chapter 19) -/

/-- The one-time-programmable fuses (Table 19-1, R388–R390) and the pairing keys of the two dies. -/
structure Fuses where
  /-- Device identity private key, once generated. -/
  idKey : Option (BitVec 256) := none
  /-- OEM root key hashes, the first byte in bits [7:0], and the revoke fuses. -/
  roots : Vector (Option (BitVec 256)) 4 := Vector.replicate 4 none
  revoked : BitVec 4 := 0
  secured : Bool := false
  permLock : Bool := false
  /-- GENERATE attempts that failed (R389). -/
  genFails : Nat := 0
  pairCore : BitVec 256 := 0
  pairDrive : BitVec 256 := 0
  /-- Silicon stepping (DEV_ID.STEP). -/
  stepping : BitVec 8 := 0
  deriving DecidableEq, Repr

/-- Stages of a consumable authentication (R397): what the port is doing. -/
inductive ConStage where
  | idle
  | header
  | cert (i : Nat)
  | challenge
  /-- The random source has failed, so no challenge can be written (R387). -/
  | stuck
  /-- Waiting for the next Status poll. -/
  | wait
  | status
  | response
  deriving DecidableEq, Repr

/-- One consumable port beside its registers. -/
structure ConPort where
  stage : ConStage := .idle
  /-- Chain bytes read so far. -/
  chain : List Byte := []
  nonce : List Byte := []
  /-- TSC at which the present transaction started, at which the challenge was written, and of the latest poll. -/
  at_ : Nat := 0
  challAt : Nat := 0
  pollAt : Nat := 0
  /-- TSC from which PERIOD is counted. -/
  periodAt : Nat := 0
  /-- TSC of the latest TIMEOUT, from which the port clocks SCL and sends a STOP (R397). -/
  recAt : Option Nat := none
  deriving DecidableEq, Repr

structure Sec where
  con : Vector ConPort 4 := Vector.replicate 4 {}
  /-- A debug challenge is held (R399). -/
  chal : Bool := false
  /-- OPERATIONAL has been entered since power-on reset (R398). -/
  everUp : Bool := false
  /-- Die-pairing attempts that failed at this boot (R396), and the TSC at which the present one started. -/
  pairFails : Nat := 0
  pairAt : Nat := 0
  deriving DecidableEq, Repr


/-! ## The supervisor (chapter 20) -/

/-- One managed rail beside its registers; times are supervisor microseconds. -/
structure Rail where
  /-- When its enable rose, and when it fell. -/
  onAt : Nat := 0
  offAt : Nat := 0
  /-- It is to be switched off in its turn (R406, R409). -/
  stop : Bool := false
  /-- Margin in force in steps of 0.1%, and when it last moved (R413). -/
  margin : Int := 0
  stepAt : Nat := 0
  deriving DecidableEq, Repr

/-- The always-on supervisor. (DEDUCED: log 68) -/
structure Super where
  /-- Supervisor time in microseconds since it left reset. -/
  now : Nat := 0
  rail : Vector Rail 16 := Vector.replicate 16 {}
  /-- Since when every rail has been below its off threshold. -/
  offSince : Option Nat := some 0
  /-- The Core die is powered and released from reset. -/
  core : Bool := false
  /-- A total shut-off is in progress (R407); else a POWERING_DOWN state is the sequence of R409. -/
  total : Bool := false
  /-- When AC_OK last fell through its filter, whether the rails have begun to go off, and whether the fall has still to be
  reported in an upward frame (R378). -/
  fellAt : Nat := 0
  seq : Bool := false
  fell : Bool := false
  /-- Times of the total shut-offs of the last 10 minutes, lockout, and a fall of AC_OK since it (R408). -/
  shutoffs : List Nat := []
  lockout : Bool := false
  lockFell : Bool := false
  /-- The system PLL is locked, and how often its lock has timed out (Table 21-2). -/
  pll : Bool := false
  pllRetries : Nat := 0
  /-- Main-clock or supervisor time is counted from here: the release of the Core die. -/
  coreAt : Nat := 0
  /-- The Core die is held in reset after a PLL lock timeout, until then (R423). -/
  againAt : Option Nat := none
  /-- Straps as sampled at Core-die release (R456). -/
  head : Bool := false
  test : Bool := false
  /-- Further supervisor events that non-volatile memory could not hold are in Nvm.heldLost. VSTBY_33 is too low (R467). -/
  standby : Bool := true
  deriving DecidableEq, Repr


/-! ## Engine reset (chapter 1) -/

/-- Progress of Table 1-8. -/
inductive RstStage where
  | none
  /-- Accepted: axes and HV channels are stopping. -/
  | stopping
  /-- The path sheets are stranded; the next tick empties the stores. -/
  | stranded
  /-- The stores are empty; the vintage is being reloaded. -/
  | emptied
  deriving DecidableEq, Repr

structure EngReset where
  /-- A request that has been made and not yet accepted: the DEV_RESET_CAUSE bit of its source. -/
  req : Option Nat := none
  stage : RstStage := .none
  /-- TSC at acceptance, and the tick of the stranding step. -/
  at_ : Nat := 0
  strandTick : Nat := 0
  /-- TSC at which the Drive die began the 4 ms ramp of the HV channels, and whether it has ended (R369). -/
  rampAt : Option Nat := none
  hvDone : Bool := false
  /-- The bridge was lost at acceptance and has not re-trained (R29). -/
  noBridge : Bool := false
  /-- The audit of the stranding step failed (R375). -/
  auditBad : Bool := false
  /-- FAULT has a cause that only a power-on reset leaves (R25). -/
  porOnly : Bool := false
  /-- The downward frame that ends the stop of Table 1-4 is due. -/
  endStop : Bool := false
  deriving DecidableEq, Repr


/-! ## CoeneLink (chapter 22) -/

/-- A sheet offered to the neighbour (R434). -/
structure Offer where
  id : Word
  port : Fin 2
  /-- The thread that issued the LDGM. -/
  thread : Fin 16
  tick : Nat
  spoiled : Bool
  /-- ACCEPT has come: the sheet is handed out and the transition waits for its commit; or it waits for a thaw. -/
  accepted : Bool := false
  heldAccept : Bool := false
  /-- An engine reset has passed: a REFUSE or ABORT strands the sheet (R436). -/
  reset : Bool := false
  deriving DecidableEq, Repr

/-- A PENDING_IN record in progress at the receiver. -/
structure Pend where
  id : Word
  port : Fin 2
  /-- HO_TO is counted from here. -/
  tick : Nat
  resolving : Bool := false
  /-- A COMMIT has come while the ledger was frozen (R435). -/
  held : Bool := false
  /-- A boot has passed: the sheet is entered and stranded at once (R437). -/
  boot : Bool := false
  deriving DecidableEq, Repr

structure ChnPort where
  /-- Messages to be sent, oldest first (R430). -/
  txq : List ChnMsg := []
  /-- The frame sent in this tick (R429): its bytes, K28.5 as 0xBC, K27.7 as 0xFB, K29.7 as 0xFD. -/
  sent : List Byte := []
  /-- Received USER messages, oldest first: SRC and payload. -/
  rx : List (BitVec 4 × Vector Word 3) := []
  /-- The tick of the latest correct frame; the port has been up before; HOLD of the next upward frame (R432). -/
  lastGood : Nat := 0
  wasUp : Bool := false
  hold : Nat := 0
  /-- The 16 bits of the chain tick number in the latest correct frame received (R429). -/
  above : Nat := 0
  /-- Coordinated stops sent on the port, the TSC and the SRC of the latest (R440). -/
  stops : Nat := 0
  stopAt : Nat := 0
  stopSrc : BitVec 4 := 0
  deriving DecidableEq, Repr

structure Chain where
  port : Vector ChnPort 2 := Vector.replicate 2 {}
  offers : List Offer := []
  pends : List Pend := []
  /-- Ticks in a row with a small phase error (R433). -/
  good : Nat := 0
  /-- The latest tick counted. -/
  goodAt : Option Nat := none
  /-- SRC and TSC of the latest stop received; masked axes stop at the next Mangle evaluation (R440). -/
  lastStop : Option (BitVec 4 × Nat) := none
  stopDue : Bool := false
  deriving DecidableEq, Repr


/-! ## The whole machine -/

/-- Why a step can fault. No command of this block faults: what the spec turns away it turns away with an effect of its
own (a discarded write, a status, an event), so nobody raises this one (safe). -/
inductive Fault where
  | unused
  deriving DecidableEq, Repr

/-- Why a command has no meaning here. -/
inductive Refusal where
  /-- Raised by an arm of `exec` whose command has no meaning yet (safe: the model stops). -/
  | notModelled (mnemonic : String)
  deriving DecidableEq, Repr

/-- The state of the block: the commands that wait, first in first out, and everything the spec gives the machine. -/
structure State where
  /-- The commands that wait, first in, first out. -/
  pending : List Instr := []
  /-- Main-clock cycles since the system PLL first locked (R15). -/
  tsc : BitVec 64 := 0
  /-- Register words that differ from their reset word, by BAR0 offset (for a Drive-die register, the Drive die's own). -/
  regs : SMap Word := []
  /-- The staging bank: entries of ST fields that differ from their reset word (R34). -/
  stage : SMap Word := []
  /-- The Core die's image of the Drive-die registers, from the latest correct upward frame (R86). -/
  up : SMap Word := []
  /-- The low words last written of 64-bit pairs whose high word is still to be written (R7). -/
  low : SMap Word := []
  /-- The same for the host: high words copied by reads of low words and not yet read (R7). -/
  shadow : List (Nat × Word) := []
  /-- How many free values have been drawn (the model's own field). -/
  freeCtr : Nat := 0
  mem : Mem := {}
  seq : Seqr := {}
  ev : EvStore := {}
  led : Ledger := {}
  jr : Journal := {}
  host : HostIf := {}
  rck : Rack := {}
  prs : Press := {}
  cel : Cellar := {}
  nvm : Nvm := {}
  vin : Vint := {}
  stn : Vector Station 6 := Vector.replicate 6 {}
  poly : Vector Polygon 6 := Vector.replicate 6 {}
  fbk : Vector Fbk 18 := Vector.replicate 18 {}
  /-- Probe queues, oldest entry first (R270). -/
  probes : Vector (List Latch) 8 := Vector.replicate 8 []
  /-- Compare outputs in a pulse: SN pin and the TSC at which the pulse ends (R273). -/
  pulses : List (Nat × Nat) := []
  /-- Compare units enabled and not yet judged: the position at the moment of enabling (R272). -/
  cmpAt : Vector (Option Word) 16 := Vector.replicate 16 none
  mot : Vector Motor 12 := Vector.replicate 12 {}
  brg : Bridge := {}
  axis : Vector Axis 20 := Vector.replicate 20 {}
  jam : Vector JamWin 32 := Vector.replicate 32 {}
  cle : Cle := {}
  heat : Heat := {}
  fuse : Fuses := {}
  sec : Sec := {}
  psq : Super := {}
  chn : Chain := {}
  rst : EngReset := {}
  /-- The register words as they stood when the present main-clock cycle began (R6). -/
  start : SMap Word := []
  /-- Counts of the present cycle that a saturated counter register did not take (R6). -/
  lost : SMap Word := []
  /-- The boot has ended in OPERATIONAL or NO_VINTAGE (R475). -/
  bootEnded : Bool := false
  deriving DecidableEq, Repr

/-- The machine right after reset: every register at its reset word (Machine/RegMap.lean), memories with nothing
listed, every other field at the value given with its declaration, and no command waiting. (DESIGN CHOICE: log 2, 87; DEDUCED: log 68) -/
def State.reset : State := {}

/-- The answer of a command's meaning. -/
abbrev Res := Host.Outcome State Fault Refusal

end Sys2Proof.Machine
end

