-- ==== Sys2Proof/Machine/Ops.lean ====
section
/-! DEFINITION. Machine/Ops.lean: the named operations every command builds on: register words and fields, event
lines (R64), events and the event store (R414–R421), MSI-X signals, Mend status (R425, R426), free values. -/

namespace Sys2Proof.Machine

/-! ## Time (R15) -/

/-- The tick number: TSC divided by 4,000, rounded down. -/
def State.tick (s : State) : Nat := s.tsc.toNat / 4000

/-- The main-clock cycle within the tick. -/
def State.cycle (s : State) : Nat := s.tsc.toNat % 4000

/-- The current loops take their references at cycle 300 of the tick: the motor registers as they stand are kept, once
(R275). -/
def State.keepRefs (s : State) : State :=
  if s.brg.refs.any fun x => x.1 == s.tick then s
  else { s with brg := { s.brg with refs := some (s.tick, s.regs.filter fun r => r.1 / 0x10000 == 0x0B) } }

/-! ## Register words and fields -/

/-- The stored word of the register at an offset. -/
def State.getR (s : State) (off : Nat) : Word := SMap.get resetWord s.regs off

/-- Store a register word. -/
def State.putR (s : State) (off : Nat) (w : Word) : State := { s with regs := SMap.set resetWord s.regs off w }

/-- A bit field of a register. -/
def State.getF (s : State) (f : Fld) : Nat := bits (s.getR f.off) f.lo f.w

/-- Is a field not zero? -/
def State.flag (s : State) (f : Fld) : Bool := s.getF f != 0

/-- Store a bit field. -/
def State.putF (s : State) (f : Fld) (v : Nat) : State := s.putR f.off (setBits (s.getR f.off) f.lo f.w v)

def State.putB (s : State) (f : Fld) (b : Bool) : State := s.putF f (boolNat b)

/-- The ledger freezes at cycle 300 of the tick whose upward frame reported the fall of AC_OK (R378). -/
def State.acFreeze (s : State) : State :=
  if s.jr.acDue then { s with jr := { s.jr with acDue := false, frozenAc := true } }.putF F.LDG_STATUS_FROZEN 1 else s

/-- TSC takes a value: a new cycle begins with the register words as they stand (R6); what belongs to the end of cycle 300
is done when it is passed. -/
def State.setTsc (s : State) (t : BitVec 64) : State :=
  if t = s.tsc then s
  else
    let s := if s.cycle ≤ 300 ∧ (300 < t.toNat % 4000 ∨ s.tick < t.toNat / 4000) then s.keepRefs.acFreeze else s
    { s with tsc := t, start := s.regs, lost := [] }

/-- One bit `i` of a field. -/
def State.bitF (s : State) (f : Fld) (i : Nat) : Bool := bit (s.getF f) i

def State.putBitF (s : State) (f : Fld) (i : Nat) (b : Bool) : State := s.putF f (setBit (s.getF f) i b)

/-- The word that a register held when the present cycle began. -/
def State.startR (s : State) (off : Nat) : Word := SMap.get resetWord s.start off

def State.putStart (s : State) (off : Nat) (w : Word) : State := { s with start := SMap.set resetWord s.start off w }

/-- A write of 1 to the bits `m` of a register: a bit that hardware has set in this cycle remains 1 (R6). -/
def State.clearBits (s : State) (off : Nat) (m : Word) : State :=
  (s.putR off (s.getR off &&& ~~~(m &&& s.startR off))).putStart off (s.startR off &&& ~~~m)

/-- A write of 1 to a one-bit field (R6). -/
def State.clearF (s : State) (f : Fld) : State := s.clearBits f.off (ones f.lo f.w)

/-- Hardware sets the bits `m` of a register: a write of 1 to them in this cycle leaves them 1 (R6). -/
def State.latchBits (s : State) (off : Nat) (m : Word) : State :=
  (s.putR off (s.getR off ||| m)).putStart off (s.startR off &&& ~~~m)

/-- Hardware sets a field to all ones (R6). -/
def State.latchF (s : State) (f : Fld) : State := s.latchBits f.off (ones f.lo f.w)

/-- What a saturated counter register has not taken in the present cycle (R6). -/
def State.lostR (s : State) (off : Nat) : Word := SMap.get (fun _ => 0#32) s.lost off

def State.putLost (s : State) (off : Nat) (w : Word) : State := { s with lost := SMap.set (fun _ => 0#32) s.lost off w }

/-- Add to a 32-bit counter register that saturates at 0xFFFF_FFFF; what it does not take is kept for a read in this cycle (R6). -/
def State.incR (s : State) (off : Nat) (n : Nat) : State :=
  (s.putR off (BitVec.ofNat 32 (satAdd 0xFFFFFFFF (s.getR off).toNat n))).putLost off
    (s.lostR off + BitVec.ofNat 32 ((s.getR off).toNat + n - 0xFFFFFFFF))

/-- Add to a counter field that saturates at its largest value. -/
def State.incF (s : State) (f : Fld) (n : Nat) : State :=
  (s.putF f (satAdd (2 ^ f.w - 1) (s.getF f) n)).putLost f.off
    (s.lostR f.off + BitVec.ofNat 32 ((s.getF f + n - (2 ^ f.w - 1)) * 2 ^ f.lo))

/-- A 64-bit quantity in two consecutive registers, low word first (R7). -/
def State.getP (s : State) (lo : Nat) : Nat := (s.getR lo).toNat + 0x100000000 * (s.getR (lo + 4)).toNat

def State.putP (s : State) (lo : Nat) (v : Nat) : State :=
  (s.putR lo (BitVec.ofNat 32 v)).putR (lo + 4) (BitVec.ofNat 32 (v / 0x100000000))

def State.addP (s : State) (lo : Nat) (n : Nat) : State := s.putP lo (s.getP lo + n)

/-- Staged value of the register word at an offset (R34). -/
def State.staged (s : State) (off : Nat) : Word := SMap.get resetWord s.stage off

def State.putStaged (s : State) (off : Nat) (w : Word) : State :=
  { s with stage := SMap.set resetWord s.stage off w }

/-- Does the offset lie on the Drive die, so that the Core die reads it from the upward frame (R86)? The IRN, HVS, GDR
and PSQ blocks and the per-source registers of THM do, the Core die's own sensors 12 to 19 apart. -/
def isDrive (off : Nat) : Bool :=
  let b := off / 65536
  b == 14 || b == 15 || b == 16 || b == 18 || (b == 17 && Nat.blt (off % 65536) 0x300 && !(Nat.ble 0x180 (off % 65536) && Nat.blt (off % 65536) 0x280))

/-! ## The downward frame -/

/-- The LEN requests go into the downward frame that is being filled (R256). -/
def State.dnLen (s : State) : State :=
  let len := (List.range 6).foldl (fun m i => setBit m i (s.flag (F.EXL_STATUS_LEN_REQ i))) 0
  { s with brg := { s.brg with out := { s.brg.out with len := len } } }

/-! ## Threads -/

def State.thr (s : State) (t : Fin 16) : Thread := s.seq.thr[t]

def State.setThr (s : State) (t : Fin 16) (h : Thread) : State :=
  { s with seq := { s.seq with thr := s.seq.thr.set t h } }

/-- Change every thread. -/
def State.mapThr (s : State) (f : Nat → Thread → Thread) : State :=
  { s with seq := { s.seq with thr := s.seq.thr.mapIdx f } }

/-- Set a pending bit of a thread. -/
def Thread.setPend (h : Thread) (i : Nat) : Thread := { h with pend := h.pend ||| BitVec.ofNat 64 (2 ^ i) }

/-! ## Event lines (R64) -/

/-- One hardware source fires: each event line that SEQ_EVMAP maps to it (class, and instance where the class has one)
sets its pending bit in the target threads; a bit already set counts a merged firing. -/
def State.fireAt (s : State) (cls inst j : Nat) (anyInst : Bool) : State :=
  if s.getF (F.SEQ_EVMAP_CLASS j) = cls ∧ (anyInst ∨ s.getF (F.SEQ_EVMAP_INST j) = inst) then
    let tg := s.getF (F.SEQ_EVMAP_TARGETS j)
    let hit := fun (n : Nat) (h : Thread) => bit tg n && h.pend.getLsbD (16 + j)
    let s1 := (List.range 16).foldl
      (fun a n => if bit tg n && (s.seq.thr.toList.getD n {}).pend.getLsbD (16 + j) then a.incR (R.SEQ_THR_EVOVF n) 1 else a) s
    s1.mapThr fun n h => if bit tg n && !hit n h then h.setPend (16 + j) else h
  else s

/-- A hardware source of Table 3-4 fires. -/
def State.fire (s : State) (cls inst : Nat) (anyInst : Bool := false) : State :=
  if cls = 0 then s else (List.range 32).foldl (fun a j => a.fireAt cls inst j anyInst) s

/-! ## Events -/

/-- Order of two events that arose in the same cycle (R415): ascending BLOCK, CODE, INSTANCE, program events last in
ascending thread order. -/
def Event.before (a b : Event) : Bool :=
  if a.tsc.toNat != b.tsc.toNat then Nat.blt a.tsc.toNat b.tsc.toNat
  else if a.program != b.program then b.program
  else if a.block != b.block then Nat.blt a.block b.block
  else if a.program then false
  else if a.code != b.code then Nat.blt a.code b.code
  else Nat.blt a.inst b.inst

/-- Put an event that has arisen into the order of issue, after every event not ordered behind it. -/
def insertEvent (e : Event) : List Event → List Event
  | [] => [e]
  | a :: r => if e.before a then e :: a :: r else a :: insertEvent e r

/-- An event arises in this cycle and waits for its issue (R415). -/
def State.arise (s : State) (e : Event) : State :=
  { s with ev := { s.ev with arisen := insertEvent { e with tsc := s.tsc } s.ev.arisen } }

/-- An event arises behind every event that waits already. -/
def State.ariseLast (s : State) (e : Event) : State :=
  { s with ev := { s.ev with arisen := s.ev.arisen ++ [{ e with tsc := s.tsc }] } }

/-- A hardware event arises (R416, R424). (DESIGN CHOICE: log 20) -/
def State.raise (s : State) (id : EvId) (inst : Nat := 0) (a : Word := 0) (b : Word := 0) : State :=
  s.arise { cls := id.cls, block := id.block, code := id.code, inst := inst, detA := a, detB := b }

/-- WRITE_REFUSED for a write that a rule discards with a WARN event: DETAIL_A is the BAR0 offset (R424). (DEDUCED: log 19) -/
def State.refuse (s : State) (off : Nat) : State :=
  s.raise (Ev.writeRefused (off / 65536)) 0 (BitVec.ofNat 32 off)

/-- The next serial number (R415), held by the EVT_SERIAL pair. -/
def State.nextSerial (s : State) : Nat := s.getP R.EVT_SERIAL_LO

/-- Take the next serial. -/
def State.takeSerial (s : State) : State := s.addP R.EVT_SERIAL_LO 1

/-- Serials of the entries that a boot delivers again and EVR has not taken yet (R422). -/
def EvStore.replaysHeld (e : EvStore) : List Nat := ((e.alarms ++ e.general).filter Event.replay).map Event.serial

/-- The settled serial S (R422): below the first entry still to be delivered again, or else past what the boot counted. (DEDUCED: log 21) -/
def EvStore.settleTo (e : EvStore) : EvStore :=
  match e.replaysHeld with
  | m :: r => { e with settled := (r.foldl min m) - 1 }
  | [] =>
    let base := max e.settled e.lostTo
    let above := e.settledAbove.filter fun k => Nat.blt base k
    let run := (List.range above.length).foldl (fun a _ => if above.contains (a + 1) then a + 1 else a) base
    { e with settled := run, settledAbove := above.filter fun k => Nat.blt run k }

/-- Mark a serial as settled: delivered, or counted as dropped (R422). -/
def EvStore.settle (e : EvStore) (n : Nat) : EvStore :=
  if Nat.blt e.lostTo n then { e with settledAbove := n :: e.settledAbove }.settleTo else e.settleTo

/-- Y, the serials above S that EVT_DROP counts already (R422), those a boot counted as LOST included. (DEDUCED: log 21) -/
def EvStore.dropsAbove (e : EvStore) : Nat :=
  e.settledAbove.length + (match e.replaysHeld with
    | [] => 0
    | l => e.lostTo - e.settled - l.length)

/-- An event of class `c` with serial `n` is dropped: EVT_DROP grows (R419), its serial stands. -/
def State.drop (s : State) (c : EvClass) (n : Nat) : State :=
  let s := s.addP (R.EVT_DROP_LO c.code) 1
  let fd := s.ev.firstDrop.toList.getD c.code 0
  { s with ev := { (s.ev.settle n) with
      firstDrop := s.ev.firstDrop.setIfInBounds c.code (if fd = 0 then n else fd) } }

/-- Update EVT_STATUS after a change of the store. -/
def State.evCounts (s : State) : State :=
  ((s.putF F.EVT_STATUS_ALARM_USED s.ev.alarms.length).putF F.EVT_STATUS_GEN_USED s.ev.general.length).putF
    F.EVT_STATUS_MARK_USED s.ev.markers.length

/-- Is it a summary or marker event (R421)? -/
def Event.marker (e : Event) : Bool := !e.program && e.block == 0x15 && Nat.ble 1 e.code && Nat.ble e.code 3

/-- Issue a marker event if a marker entry is free; otherwise it waits without a serial, EVT_TRACE_STOPPED before EVT_LOST (R421). -/
def State.issueMarker (s : State) (e : Event) : State :=
  if s.ev.markers.length < 8 then
    let n := s.nextSerial
    let s := s.takeSerial
    { s with ev := { s.ev with markers := s.ev.markers ++ [{ e with serial := n }] } }
  else
    let l := s.ev.markWait
    let w := l.filter (fun a => Nat.ble a.code e.code) ++ [e] ++ l.filter (fun a => Nat.blt e.code a.code)
    { s with ev := { s.ev with markWait := w } }

/-- The first dropped TRACE event stops trace capture (R420). -/
def State.stopTrace (s : State) : State :=
  if s.flag F.EVT_CTRL_TRACE_EN then
    let last := ((s.ev.general.filter fun e => e.cls == .trace).map Event.serial).foldl max 0
    let s := s.putF F.EVT_CTRL_TRACE_EN 0
    s.arise { cls := .info, block := 0x15, code := 2, detA := BitVec.ofNat 32 last,
              detB := BitVec.ofNat 32 (last / 0x100000000) }
  else s

/-- The oldest held general entry of a class. -/
def oldestOf (c : EvClass) (l : List Event) : Option Event := l.find? fun e => e.cls == c

def removeSerial (n : Nat) (l : List Event) : List Event := l.filter fun e => e.serial != n

/-- Place an issued event in a general entry: drop the oldest INFO, else the oldest TRACE, else the arriving event. -/
def State.placeGeneral (s : State) (e : Event) : State :=
  let put := fun (a : State) =>
    let n := a.nextSerial
    let a := a.takeSerial
    { a with ev := { a.ev with general := a.ev.general ++ [{ e with serial := n }] } }
  if s.ev.general.length < 440 then put s
  else
    match oldestOf .info s.ev.general with
    | some o => put ({ s with ev := { s.ev with general := removeSerial o.serial s.ev.general } }.drop .info o.serial)
    | none =>
      match oldestOf .trace s.ev.general with
      | some o =>
        put (({ s with ev := { s.ev with general := removeSerial o.serial s.ev.general } }.drop .trace o.serial).stopTrace)
      | none =>
        let n := s.nextSerial
        let s := s.takeSerial.drop e.cls n
        if e.cls == .trace then s.stopTrace else s

/-- Queue an issued ALARM for the alarm history (Power loss, chapter 21). -/
def State.history (s : State) (e : Event) : State := { s with ev := { s.ev with histOut := s.ev.histOut ++ [e] } }

/-- The same BLOCK, CODE and INSTANCE (R418). -/
def sameSource (a b : Event) : Bool := a.block == b.block && a.code == b.code && a.inst == b.inst

def bumpCount (e : Event) : List Event → List Event
  | [] => []
  | a :: r => if a.cls == .alarm && sameSource a e then { a with count := satAdd 65535 a.count 1 } :: r else a :: bumpCount e r

/-- Issue one event (R415, R418, R419); a TRACE event only while TRACE_EN is 1 (R414). -/
def State.issue (s : State) (e : Event) : State :=
  let s :=
    if e.cls == .trace && !s.flag F.EVT_CTRL_TRACE_EN then s
    else if e.cls == .alarm then
      if s.ev.alarms.any (sameSource e) then
        ({ s with ev := { s.ev with alarms := bumpCount e s.ev.alarms } }).incR R.EVT_COAL 1
      else if s.ev.general.any (fun a => a.cls == .alarm && sameSource a e) then
        ({ s with ev := { s.ev with general := bumpCount e s.ev.general } }).incR R.EVT_COAL 1
      else if s.ev.alarms.length < 64 then
        let n := s.nextSerial
        let s := s.takeSerial
        ({ s with ev := { s.ev with alarms := s.ev.alarms ++ [{ e with serial := n }] } }).history { e with serial := n }
      else
        let s1 := s.placeGeneral e
        let n := s1.nextSerial - 1
        s1.history { e with serial := n, dropped := !(s1.ev.general.any fun a => a.serial == n) }
    else if e.marker then s.issueMarker e
    else s.placeGeneral e
  s.evCounts

/-- Marker entries held, or due to an event that waits. -/
def State.markersDue (s : State) : Nat := s.ev.markers.length + s.ev.markWait.length + (s.ev.arisen.filter Event.marker).length

/-- EVT_DROPPED for one class whose count has grown, once 64 general entries are free (R421). -/
def State.summary (s : State) (c : Nat) : State :=
  let total := s.getP (R.EVT_DROP_LO c)
  let rep := s.ev.reported.toList.getD c 0
  if s.ev.general.length ≤ 376 ∧ rep < total ∧ s.markersDue < 8 then
    let fd := s.ev.firstDrop.toList.getD c 0
    let s := { s with ev := { s.ev with
      reported := s.ev.reported.setIfInBounds c total, firstDrop := s.ev.firstDrop.setIfInBounds c 0 } }
    s.arise { cls := .info, block := 0x15, code := 1, inst := c, detA := BitVec.ofNat 32 (total - rep), detB := BitVec.ofNat 32 fd }
  else s

/-- The first event that waits in the order of issue is issued. -/
def State.issueNext (s : State) : State :=
  match s.ev.arisen with
  | e :: r => { s with ev := { s.ev with arisen := r } }.issue e
  | [] => s

/-- One main-clock cycle of the event system: at most one event is issued, a marker event that found no free entry first (R415,
R421). (DEDUCED: log 22) -/
def State.issueOne (s : State) : State :=
  if s.ev.held then s
  else match s.ev.markWait with
  | e :: r => if s.ev.markers.length < 8 then ({ s with ev := { s.ev with markWait := r } }.issueMarker e).evCounts else s.issueNext
  | [] => s.issueNext

/-- Issue every event that waits, one per cycle, in order. (DEDUCED: log 22) -/
def State.issueAll (s : State) : State :=
  (List.range (s.ev.arisen.length + s.ev.markWait.length)).foldl (fun a _ => a.issueOne) s

/-- The 8 dwords of an entry (Table 21-1). -/
def Event.dwords (e : Event) (phase : Bool) : List Word :=
  [BitVec.ofNat 32 (e.cls.code + (if e.program then 4 else 0) + (if e.replay then 8 else 0) + (if e.dropped then 16 else 0)
      + 256 * (e.block % 256) + 65536 * (e.code % 4096) + (if phase then 0x80000000 else 0)),
   BitVec.ofNat 32 e.serial, BitVec.ofNat 32 (e.serial / 0x100000000),
   BitVec.ofNat 32 (e.count % 65536 + 65536 * (e.inst % 65536)),
   BitVec.ofNat 32 e.tsc.toNat, BitVec.ofNat 32 (e.tsc.toNat / 0x100000000), e.detA, e.detB]

/-- Write an alarm-history entry (EVT_HIST), the oldest overwritten first. -/
def State.writeHistory (s : State) (e : Event) : State :=
  let i := s.getF F.EVT_HIST_NEXT
  let s := (List.range 8).foldl (fun a k => a.putR (R.EVT_HIST i k) ((e.dwords false).getD k 0#32)) s
  s.putF F.EVT_HIST_NEXT ((i + 1) % 256)

/-! ## Vintages -/

def State.setVin (s : State) (v : Vint) : State := { s with vin := v }

/-- An accepted apply leaves the pending state without a switch. -/
def State.dropApply (s : State) : State :=
  ((s.setVin { s.vin with apply := none }).putF F.VIN_STATUS_PENDING 0).putF F.VIN_STATUS_WHOLE 0

/-- A reload of the CURRENT vintage that hardware began, at a boot, in an engine reset or after an abandoned apply, is given up. (DEDUCED: log 90) -/
def State.dropReload (s : State) : State :=
  let s := s.setVin { s.vin with jobs := s.vin.jobs.filter fun j => j != .reload }
  if s.vin.apply.any fun a => a.cid.isNone then s.dropApply else s

/-! ## Free values -/

/-- Draw a fresh free value of `w` bits (a value the spec leaves open). (DESIGN CHOICE: log 10) -/
def State.fresh (s : State) (w : Nat) : BitVec w := Config.freeValue w s.freeCtr

/-- Count one drawn free value. (DESIGN CHOICE: log 10) -/
def State.drew (s : State) : State := { s with freeCtr := s.freeCtr + 1 }

/-! ## The debug port (R399, R400) -/

/-- Is the debug port unlocked? -/
def State.dbgOpen (s : State) : Bool := s.flag F.SEC_STATUS_DEBUG_UNLOCKED

/-! ## Helpers over a list of numbers -/

/-- Apply an update for each number below `n`. -/
def State.forEach (s : State) (n : Nat) (f : State → Nat → State) : State := (List.range n).foldl f s

/-- Apply an update for each member of a list. -/
def State.each {α : Type} (s : State) (l : List α) (f : State → α → State) : State := l.foldl f s

/-- Apply an update if a condition holds. -/
def State.when (s : State) (c : Bool) (f : State → State) : State := if c then f s else s

end Sys2Proof.Machine
end

