-- ==== Sys2Proof/Machine/OpsHost.lean ====
section
/-! DEFINITION. Machine/OpsHost.lean: completions and retire entries (R109, R114, R116), MSI-X vectors (R123, R124),
consumption of submission entries (R109, R113), the device state (R26) and Mend status (R425, R426). -/

namespace Sys2Proof.Machine

/-! ## MSI-X (R123, R124) -/

/-- A vector's condition arises: its message is sent, or its pending bit is set while it is masked. (DESIGN CHOICE: log 70) -/
def State.signal (s : State) (v : Nat) : State :=
  if s.host.msixMask.getLsbD v then { s with host := { s.host with msixPend := s.host.msixPend ||| BitVec.ofNat 64 (2 ^ v) } }
  else { s with host := { s.host with msixSent := s.host.msixSent.setIfInBounds v (s.host.msixSent.toList.getD v 0 + 1) } }

/-- Set DEV_STATE.STATE; a change signals vector 3 (R26, R123). -/
def State.setDev (s : State) (v : Nat) : State :=
  if s.getF F.DEV_STATE_STATE = v then s else (s.putF F.DEV_STATE_STATE v).signal 3

def State.devIs (s : State) (v : Nat) : Bool := s.getF F.DEV_STATE_STATE == v

/-- CQ_STALL (R109): the CQ is disabled, or a submission queue waits for more entries than are free. (DEDUCED: log 35; DESIGN CHOICE: log 87) -/
def State.stallFollow (s : State) : State :=
  s.putB F.HIF_STATUS_CQ_STALL (!s.flag F.HIF_CTRL_CQ_EN || s.host.stall.toList.any fun n => Nat.blt s.host.cqFree n)

/-- HOST_READY and its copy HIF_STATUS.READY. -/
def State.hostReady (s : State) (b : Bool) : State :=
  ((s.putB F.DEV_STATE_HOST_READY b).putB F.HIF_STATUS_READY b).stallFollow

/-! ## Completion queue -/

/-- Entries of ring `r` (R106). -/
def State.ringLen (s : State) (r : Nat) : Nat := 2 ^ s.getF (F.HIF_RING_SIZE r)

/-- Advance the produced tail of CQ or EVR, inverting the phase on a wrap (R108). -/
def State.advTail (s : State) (r : Nat) : State :=
  let t := s.getF (F.HIF_RING_PTR_PTR r) + 1
  if t = s.ringLen r then
    (s.putF (F.HIF_RING_PTR_PTR r) 0).putF (F.HIF_RING_PTR_PHASE r) (1 - s.getF (F.HIF_RING_PTR_PHASE r))
  else s.putF (F.HIF_RING_PTR_PTR r) t

/-- Vector 0 or 2 under HIF_COAL: fire when COUNT is reached, or at every entry with both fields 0 (R124). -/
def State.coal (s : State) (evr : Bool) : State :=
  let c := s.getF F.HIF_COAL_COUNT
  let t := s.getF F.HIF_COAL_TICKS
  if evr then
    let n := s.host.evrUnsig + 1
    let old := if s.host.evrUnsig = 0 then s.tick else s.host.evrOldest
    if (c = 0 ∧ t = 0) ∨ (c ≠ 0 ∧ c ≤ n) then { s with host := { s.host with evrUnsig := 0 } }.signal 2
    else { s with host := { s.host with evrUnsig := n, evrOldest := old } }
  else
    let n := s.host.cqUnsig + 1
    let old := if s.host.cqUnsig = 0 then s.tick else s.host.cqOldest
    if (c = 0 ∧ t = 0) ∨ (c ≠ 0 ∧ c ≤ n) then { s with host := { s.host with cqUnsig := 0 } }.signal 0
    else { s with host := { s.host with cqUnsig := n, cqOldest := old } }

/-- The four dwords of a CQ entry (Table 5-4). -/
def CqEntry.dwords (e : CqEntry) : List Word :=
  [BitVec.ofNat 32 (e.cid.toNat + 0x10000 * e.sq.val + 0x20000 * boolNat e.retire + 0x80000000 * boolNat e.phase),
   BitVec.ofNat 32 (e.status.code + 0x100 * (e.detail % 256)), e.resA, e.resB]

/-- Write one CQ entry into a reserved slot (R108, R109). -/
def State.cqWrite (s : State) (e : CqEntry) : State :=
  let e := { e with phase := s.flag (F.HIF_RING_PTR_PHASE 2) }
  let s := { s with host := { s.host with cq := s.host.cq ++ [e], cqReserved := s.host.cqReserved - 1 } }
  (s.advTail 2).coal false

/-- Can channel 0 write an entry now: it is not halted and a shared token is free (R125, R128)? The write is over at once
and gives its token back. -/
def State.ringOpen (s : State) : Bool := s.getF (F.RCK_CH_STATUS_STATE 0) != 2 && s.getF F.RCK_TOKENS_SHARED != 0

/-- Write the first entry that waits; an entry up to an ENGINE_RESET's completion counts toward it (R122). (DEDUCED: log 35) -/
def State.cqDrainOne (s : State) : State :=
  match s.host.cqHeld with
  | [] => s
  | e :: r => { s with host := { s.host with cqHeld := r, resetHeld := s.host.resetHeld - 1 } }.cqWrite e

/-- Write the entries that wait, in order. (DEDUCED: log 35) -/
def State.cqDrain (s : State) : State :=
  if s.ringOpen then s.each s.host.cqHeld fun a _ => a.cqDrainOne else s

/-- Give channel 0 a CQ entry to write: where a shared token is free no other channel waits for it, so the entry goes out at
once; else channel 0 takes its turn (R125). (DEDUCED: log 35) -/
def State.cqPush (s : State) (e : CqEntry) : State :=
  { s with host := { s.host with cqHeld := s.host.cqHeld ++ [e] } }.cqDrain

/-- End a command with a completion (R114). -/
def State.complete (s : State) (q : Fin 2) (cid : BitVec 16) (st : Status) (detail : Nat := 0) (a : Word := 0) (b : Word := 0) :
    State :=
  s.cqPush { cid := cid, sq := q, status := st, detail := detail, resA := a, resB := b }

/-! ## EVR (R110, R417) -/

/-- Held entry of lowest serial. -/
def lowest (l : List Event) : Option Event :=
  l.foldl (fun m e => match m with
    | none => some e
    | some x => if e.serial < x.serial then some e else some x) none

/-- Room in EVR: at most 2^n − 1 entries are unreleased (R110). -/
def State.evrRoom (s : State) : Bool := s.flag F.HIF_CTRL_EVR_EN && s.ringOpen && Nat.blt (s.host.evr.length + 1) (s.ringLen 3)

/-- Events that EVR has yet to receive. -/
def EvStore.waiting (e : EvStore) : List Event := e.alarms ++ e.general ++ e.markers

/-- Copy the held entry of lowest serial to EVR: vector 1 for an ALARM, vector 2 for any other (R123). -/
def State.evrCopyOne (s : State) : State :=
  if !s.evrRoom then s
  else match lowest s.ev.waiting with
    | none => s
    | some e =>
      let ph := s.flag (F.HIF_RING_PTR_PHASE 3)
      let s := { s with host := { s.host with evr := s.host.evr ++ [(e, ph)] } }
      let ev := { s.ev with
        alarms := removeSerial e.serial s.ev.alarms, general := removeSerial e.serial s.ev.general,
        markers := removeSerial e.serial s.ev.markers }
      let s := ({ s with ev := ev.settle e.serial }.advTail 3)
      let s := if e.cls = .alarm then s.signal 1 else s.coal true
      (s.forEach 4 State.summary).evCounts

/-- Has channel 0 a write to a ring to make that can go now (R125)? (DEDUCED: log 35) -/
def State.ringWork (s : State) : Bool :=
  s.ringOpen && (!s.host.cqHeld.isEmpty || (s.host.evrDue && s.evrRoom && !s.ev.waiting.isEmpty))

/-- Channel 0's turn: one CQ entry, or else one EVR entry. (DEDUCED: log 35) -/
def State.ringTurn (s : State) : State := if s.host.cqHeld.isEmpty then s.evrCopyOne else s.cqDrainOne

/-- Give back one CQ reservation (R109). -/
def State.unreserve (s : State) : State :=
  { s with host := { s.host with cqReserved := s.host.cqReserved - 1, cqFree := s.host.cqFree + 1 } }

/-- Has an entry of queue `q` been read and not yet consumed, in a state in which it can be (R104, R107, R120, R128)? -/
def State.sqWaiting (s : State) (q : Fin 2) : Bool :=
  s.flag (if q = 0 then F.HIF_CTRL_SQ0_EN else F.HIF_CTRL_SQ1_EN) && (s.getF (F.HIF_RING_PTR_PTR q) != s.host.sqRead[q])
    && !s.flag F.HIF_STATUS_AUDIT_FAIL && s.flag F.DEV_STATE_HOST_READY

/-- May the next entry of submission queue `q`, which can produce `need` CQ entries, be consumed now (R109)? -/
def State.canConsume (s : State) (q : Fin 2) (need : Nat) : Bool :=
  s.sqWaiting q && s.flag F.HIF_CTRL_CQ_EN && Nat.ble need s.host.cqFree

/-- The next command of `q`, which waits for `need` CQ entries, cannot be consumed. -/
def State.cqStall (s : State) (q : Fin 2) (need : Nat) : State :=
  if s.sqWaiting q then { s with host := { s.host with stall := s.host.stall.set q need } }.stallFollow else s

/-- Consume the entry at the head of `q`: advance the head and reserve its CQ entries. -/
def State.consume (s : State) (q : Fin 2) (need : Nat) : State :=
  let s := s.putF (F.HIF_RING_PTR_PTR q) ((s.getF (F.HIF_RING_PTR_PTR q) + 1) % s.ringLen q)
  { s with host := { s.host with
      cqReserved := s.host.cqReserved + need, cqFree := s.host.cqFree - need, stall := s.host.stall.set q 0 } }.stallFollow

/-- The tests of R113 common to all commands, in their order after BAD_OPCODE: queue, state, fields. (DEDUCED: log 39) -/
def State.admitCmd (s : State) (q home : Fin 2) (states : List Nat) (fieldsOk : Bool) : Option Status :=
  if q ≠ home then some .badQueue
  else if !states.contains (s.getF F.DEV_STATE_STATE) then some .notReady
  else if !fieldsOk then some .badField
  else none

/-- The opcodes of Table 5-3. -/
def opcodes : List (BitVec 8) := [0x01, 0x02, 0x10, 0x11, 0x12, 0x13, 0x20, 0x21, 0x30, 0x31]

/-- Consume a command that produces one completion, answering it at once if R113 refuses it; `resA` is the RESULT_A that
Table 5-6 gives the command. An entry that spells another command than the row `op` is not this row's. (DEDUCED: log 39) -/
def State.command (s : State) (q home : Fin 2) (op : BitVec 8) (e : SqEntry) (states : List Nat) (fieldsOk : Bool) (resA : Word)
    (run : State → State) : State :=
  if e.opcode ≠ op then s
  else if s.canConsume q 1 then
    let s := s.consume q 1
    match s.admitCmd q home states fieldsOk with
    | some st => s.complete q e.cid st 0 resA
    | none => run s
  else s.cqStall q 1

/-- Header and unused dwords of an entry are 0: every dword from `2 + n` on (R112). -/
def zeroFrom (e : SqEntry) (n : Nat) : Bool :=
  e.rsvd0 == 0 && e.rsvd1 == 0 && (e.dw.toList.drop n).all (· == 0)

/-! ## Mend status (R425, R426) -/

/-- EVT_MEND with the reasons `r`: LANE_ST shows the stations in fallback, EMIT_ST those with a dead emitter, and REPLACE
the request of Table 21-4, for which reason EMITTER (bit 4) counts only while a station has SPARES_LOW or NO_WINDOW. (DEDUCED: log 23) -/
def State.mendWord (s : State) (r : Nat) : Word :=
  let low := (List.range 6).any fun i => s.flag (F.DEC_STATUS_SPARES_LOW i) || s.flag (F.DEC_STATUS_NO_WINDOW i)
  let lane := (List.finRange 6).foldl (fun (m : Nat) (i : Fin 6) => setBit m i.val s.stn[i].laneMend) 0
  let emit := (List.range 6).foldl (fun m i => setBit m i (s.getR (R.DEC_DEAD_LO i) != 0#32 || s.getR (R.DEC_DEAD_HI i) != 0#32)) 0
  BitVec.ofNat 32 (r + 0x100 * lane + 0x10000 * emit + 0x80000000 * boolNat (setBit r 4 false != 0 || (bit r 4 && low)))

/-- The tick whose journal record takes an entry made now: from cycle 3,400 on, the next one (R376). (DEDUCED: log 25) -/
def State.recTick (s : State) : Nat := if s.cycle < 3400 then s.tick else s.tick + 1

/-- FROZEN follows its causes. (DEDUCED: log 24) -/
def State.freezeFollow (s : State) : State :=
  s.putB F.LDG_STATUS_FROZEN (s.jr.frozenLoss || s.jr.frozenAc || s.flag F.LDG_STATUS_AUDIT_FAIL || s.flag F.LDG_STATUS_JFULL)

/-- JFULL: the ledger freezes when the entries beyond the next frame's 32 reach 256 (R376, R378). (DEDUCED: log 24) -/
def State.jfullCheck (s : State) : State :=
  if 256 + 32 ≤ s.jr.backlog.length + s.jr.cur.length then (s.putF F.LDG_STATUS_JFULL 1).freezeFollow else s

/-- Journal a change of EVT_MEND (R475, R376), not after the freeze of R378. -/
def State.mendJournal (s : State) : State :=
  if s.jr.frozenAc then s else
  let s := { s with jr := { s.jr with cur := s.jr.cur ++ [(s.recTick, JEntry.mend (s.getR R.EVT_MEND))] } }
  s.jfullCheck

/-- EVT_MEND takes the reasons `r`; each change is journalled (R475), and a change of DEV_STATE.MEND signals vector 4. (DEDUCED: log 23) -/
def State.mendTo (s : State) (r : Nat) : State :=
  let w := s.mendWord r
  let s := if w = s.getR R.EVT_MEND then s else (s.putR R.EVT_MEND w).mendJournal
  if s.flag F.DEV_STATE_MEND = (r != 0) then s else (s.putB F.DEV_STATE_MEND (r != 0)).signal 4

/-- The other fields of EVT_MEND follow what they report. -/
def State.mendFollow (s : State) : State := s.mendTo (s.getF F.EVT_MEND_REASONS)

/-- Set a Mend reason bit (R425). (DEDUCED: log 23) -/
def State.setMend (s : State) (i : Nat) : State :=
  if s.bitF F.EVT_MEND_REASONS i then s.mendFollow
  else
    let s := s.mendTo (setBit (s.getF F.EVT_MEND_REASONS) i true)
    s.raise Ev.EVT_MEND_SET i (s.getR R.EVT_MEND)

/-- Clear a Mend reason bit (R425). (DEDUCED: log 23) -/
def State.clearMend (s : State) (i : Nat) : State :=
  if s.bitF F.EVT_MEND_REASONS i then
    let s := s.mendTo (setBit (s.getF F.EVT_MEND_REASONS) i false)
    s.raise Ev.EVT_MEND_CLEAR i (s.getR R.EVT_MEND)
  else s.mendFollow

end Sys2Proof.Machine
end

