-- ==== Sys2Proof/Machine/OpsRst.lean ====
section
/-! DEFINITION. Machine/OpsRst.lean: requests for an engine reset (R25, R28, R30, R122). -/

namespace Sys2Proof.Machine

/-- Count a request absorbed by R25 or R30. (DEDUCED: log 40) -/
def State.extraReset (s : State) : State := s.incF F.DEV_RESET_CAUSE_EXTRA 1

/-- A request whose source has bit `i` of DEV_RESET_CAUSE: it waits for acceptance in NO_VINTAGE, OPERATIONAL and FAULT;
during an engine reset it is counted; in a FAULT that only a power-on reset leaves it is counted and refused. (DEDUCED: log 33; DESIGN CHOICE: log 85) -/
def State.resetRequest (s : State) (i : Nat) : State :=
  let st := s.getF F.DEV_STATE_STATE
  let src := fun (a : State) => a.latchBits R.DEV_RESET_CAUSE (ones i 1)
  if st = 5 then src s.extraReset
  else if st = 3 ∨ st = 4 ∨ st = 6 then
    (if st = 6 ∧ s.rst.porOnly then s.extraReset.refuse R.DEV_RESET
    else match s.rst.req with
      | some _ => src s.extraReset
      | none => { s with rst := { s.rst with req := some i } })
  else s

end Sys2Proof.Machine
end

