-- ==== Sys2Proof/Machine/LinkCode.lean ====
section
/-! DEFINITION. Machine/LinkCode.lean: blocks and packets that leave on the exposure link (R236–R241, R245, R246, R248). -/

namespace Sys2Proof.Machine

/-! ## Blocks (R236, Table 11-3) -/

/-- The CRC-8 of byte 7 of a return message: polynomial 0x07, initial value 0 (R245). -/
def crc8 (l : List Byte) : Byte :=
  l.foldl (fun c b => (List.range 8).foldl (fun (x : Byte) _ => if x.getLsbD 7 then (x <<< 1) ^^^ 0x07#8 else x <<< 1) (c ^^^ b)) 0#8

/-- Types of the return messages (Table 11-5): TRAIN_ACK, STATUS, APC, EMITTER, RESPONSE, EVENT. -/
def returnTypes : List Nat := [0xA5, 0xB4, 0xC3, 0xD2, 0xE1, 0xF0]

/-- What is wrong with a return block (R237, R245): `true` a sync error (a sync header of 0b00 or 0b11, or a control type that is
not of the return lane), `false` a wrong CRC-8; nothing for a block that is taken. (DEDUCED: log 48) -/
def returnFault (hdr : BitVec 2) (payload : BitVec 64) : Option Bool :=
  let l := leBytes 8 payload.toNat
  let ty := (l.headD 0#8).toNat
  if hdr = 1#2 then none
  else if hdr ≠ 2#2 then some true
  else if returnTypes.contains ty then (if crc8 (l.take 7) = l.getD 7 0#8 then none else some false)
  else if ty = 0x1E ∨ ty = 0x2D then none else some true

/-- A control block: its type in byte 0, its content in bytes 1 to 7. -/
def ctlBlk (ty : Nat) (body : List Byte) : LinkBlk :=
  { ctl := true, payload := BitVec.ofNat 64 (ofLeBytes ((BitVec.ofNat 8 ty :: body).take 8)) }

def dataBlk (n : Nat) : LinkBlk := { ctl := false, payload := BitVec.ofNat 64 n }

/-- Payload byte i occupies bits [8i+7:8i]. -/
def LinkBlk.bytes (b : LinkBlk) : List Byte := leBytes 8 b.payload.toNat

/-- ABORT names the sweep that the head must stop (R248). -/
def abortBlk (seq : Nat) : LinkBlk := ctlBlk 0x3C (leBytes 2 seq)

/-- ALIGN carries its lane and the marker count (R238). -/
def alignBlk (lane : Nat) (count : Word) : LinkBlk := ctlBlk 0x4B (leBytes 1 lane ++ leBytes 4 count.toNat)

/-- SWEEP_START carries SEQ, the BD number and the beam mask (R239). -/
def sweepStartBlk (seq bd mask : Nat) : LinkBlk := ctlBlk 0x55 (leBytes 2 seq ++ leBytes 1 bd ++ leBytes 4 mask)

/-- SYNC carries the BD number of the next accepted BD (R242). -/
def syncBlk (bd : Nat) : LinkBlk := ctlBlk 0x99 (leBytes 1 bd)

/-! ## Packets (R239–R241, R245) -/

/-- A packet: its first block, its data blocks, and EOP with the CRC-32C over bytes 1 to 7 of the first and every data byte,
and the count of data blocks (R241). (DEDUCED: log 48) -/
def linkPacket (ty : Nat) (header : List Byte) (data : List LinkBlk) : List LinkBlk :=
  let sop := ctlBlk ty header
  let crc := crc32c (sop.bytes.drop 1 ++ data.flatMap LinkBlk.bytes)
  sop :: data ++ [ctlBlk 0x87 (leBytes 4 crc.toNat ++ leBytes 2 data.length)]

/-- Codes of `c` bits, packed from bit 0 of the first data block (R240). -/
def packCodes (c : Nat) (codes : List Nat) : List LinkBlk :=
  let n := codes.foldr (fun d n => n * 2 ^ c + d % 2 ^ c) 0
  (List.range (ceilDiv (codes.length * c) 64)).map fun k => dataBlk (n / 2 ^ (64 * k))

/-- The LINE_SOP header (Table 11-4). -/
def lineHeader (beam emit facet fine whole segment seq : Nat) : List Byte :=
  leBytes 7 (beam % 32 + 2 ^ 5 * (emit % 64) + 2 ^ 11 * (facet % 16) + 2 ^ 15 * (fine % 64) + 2 ^ 21 * (whole % 2 ^ 14)
    + 2 ^ 35 * (segment % 128) + 2 ^ 42 * (seq % 256))

/-- A line packet: one segment of one beam. -/
def linePacket (header : List Byte) (c : Nat) (codes : List Nat) : List LinkBlk := linkPacket 0x78 header (packCodes c codes)

/-- A control packet (R245): CTYPE, TAG, ARG and its data. -/
def ctrlPacket (ctype : Nat) (tag : BitVec 8) (arg : Nat) (data : List LinkBlk) : List LinkBlk :=
  linkPacket 0x66 (leBytes 1 ctype ++ [tag] ++ leBytes 4 arg) data

end Sys2Proof.Machine
end

