-- ==== Sys2Proof/Machine/OpsLedger.lean ====
section
/-! DEFINITION. Machine/OpsLedger.lean: the ledger's transitions (Table 18-1) as journal entries with one meaning
(`Ledger.apply`), used for the live ledger when an entry is made and for the committed one when its record commits;
freezing and thawing (R24, R375, R376, R378); the audit (R375); meters (R383). -/

namespace Sys2Proof.Machine

def Place.inPath : Place → Bool
  | .picked => true
  | .zone _ => true
  | _ => false

/-- Does the record count as a sheet of the engine (R370)? PENDING_IN records do not. -/
def Place.inEngine : Place → Bool
  | .pendingIn => false
  | _ => true

/-- Table 4-8. -/
def Place.code : Place → Nat
  | .picked => 0x00
  | .zone n => 0x10 + n
  | .jammed => 0x30
  | .stranded => 0x31
  | .pendingIn => 0x3F

def Ledger.find (l : Ledger) (id : Word) : Option Sheet := l.sheets.find? fun sh => sh.id == id

def Ledger.update (l : Ledger) (id : Word) (f : Sheet → Sheet) : Ledger :=
  { l with sheets := mapIf (fun sh => sh.id == id) f l.sheets }

/-- Records that a sheet count of Table 18-3 takes. -/
def Ledger.pop (l : Ledger) (p : Place → Bool) : Nat := (l.sheets.filter fun sh => p sh.place).length

/-- The identifier after `w`: 0 is never issued, and none that is held (R370). -/
def Ledger.idAfter (l : Ledger) : Nat → Word → Word
  | 0, w => w
  | n + 1, w =>
    let v := if w = 0xFFFFFFFF#32 then 1#32 else w + 1#32
    if l.sheets.any (fun sh => sh.id == v) then l.idAfter n v else v

/-- The counter passes over identifiers that are held (R370). -/
def Ledger.skipHeld (l : Ledger) : Ledger :=
  if l.sheets.any (fun sh => sh.id == l.nextId) then { l with nextId := l.idAfter 1025 l.nextId } else l

/-- What one journal entry does to a ledger (R370–R373, R376). -/
def Ledger.apply (l : Ledger) : JEntry → Ledger
  | .enter sh byPick =>
    let l := { l with sheets := l.sheets ++ [sh] }
    if byPick then { l with picked := l.picked + 1, nextId := l.idAfter 1025 sh.id }
    else ({ l with handedIn := l.handedIn + 1 } : Ledger).skipHeld
  | .move id p o => l.update id fun sh => { sh with place := p, owner := o }
  | .leave id t =>
    let l := { l with sheets := l.sheets.filter fun sh => sh.id != id }
    match t with
    | .delivered _ => { l with delivered := l.delivered + 1 }
    | .purged => { l with purged := l.purged + 1 }
    | .handedOut => { l with handedOut := l.handedOut + 1 }
  | .own id o => l.update id fun sh => { sh with owner := o }
  | .spoil id => l.update id fun sh => { sh with spoiled := true }
  | .second id tag => l.update id fun sh => { sh with tag2 := some tag }
  | .handoff id on => l.update id fun sh => { sh with handoff := on }
  | .pendIn sh => ({ l with sheets := l.sheets ++ [sh] } : Ledger).skipHeld
  | .pendDel id => { l with sheets := l.sheets.filter fun sh => !(sh.place == .pendingIn && sh.id == id) }
  | .pendEnter id z o =>
    let shs := mapIf (fun sh => sh.place == .pendingIn && sh.id == id) (fun sh => { sh with place := .zone z, owner := o }) l.sheets
    { l with sheets := shs, handedIn := l.handedIn + 1 }
  | .pendStrand id =>
    let shs := mapIf (fun sh => sh.place == .pendingIn && sh.id == id) (fun sh => { sh with place := .stranded }) l.sheets
    { l with sheets := shs, handedIn := l.handedIn + 1 }
  | .strand keep =>
    let shs := mapIf (fun sh => sh.place.inPath && !(keep && sh.handoff))
      (fun sh => { sh with place := .stranded, handoff := false }) l.sheets
    { l with sheets := shs }
  | .purge ids =>
    let n := (l.sheets.filter fun sh => ids.contains sh.id && sh.place.inEngine).length
    { l with sheets := l.sheets.filter (fun sh => !(ids.contains sh.id && sh.place.inEngine)), purged := l.purged + n }
  | .dots .. => l
  | .mono .. => l
  | .mend .. => l
  | .index .. => l
  | .serials .. => l
  | .psqCfg .. => l

/-- Is the ledger frozen (LDG_STATUS.FROZEN)? -/
def State.frozen (s : State) : Bool := s.flag F.LDG_STATUS_FROZEN

/-- Freeze for bridge loss, SAFE_UP or a bus trip (R24). -/
def State.freezeLoss (s : State) : State := { s with jr := { s.jr with frozenLoss := true } }.freezeFollow

/-- Make a journal entry: the live ledger takes it at once and this tick's record carries it (R376). After the freeze of R378
nothing is journalled (R379). (DEDUCED: log 25) -/
def State.journal (s : State) (e : JEntry) : State :=
  if s.jr.frozenAc then s else { s with led := s.led.apply e, jr := { s.jr with cur := s.jr.cur ++ [(s.recTick, e)] } }.jfullCheck

/-- RINSE_NEEDED follows the count of jammed and stranded sheets; its setting raises an ALARM (R374). -/
def State.rinseFollow (s : State) : State :=
  let n := s.led.pop fun p => p == .jammed || p == .stranded
  if 512 ≤ n then
    if s.flag F.LDG_STATUS_RINSE_NEEDED then s else (s.putF F.LDG_STATUS_RINSE_NEEDED 1).raise Ev.LDG_RINSE_NEEDED
  else s.putF F.LDG_STATUS_RINSE_NEEDED 0

/-- Set the spoiled flag of a sheet, once (R373). -/
def State.spoil (s : State) (id : Word) : State :=
  match s.led.find id with
  | some sh => if sh.spoiled then s else s.journal (.spoil id)
  | none => s

/-- The sheet conservation identity and the uniqueness of identifiers (R375). -/
def Ledger.auditOk (l : Ledger) : Bool :=
  (l.picked + l.handedIn == l.delivered + l.purged + l.handedOut + l.pop Place.inEngine)
    && decide ((l.sheets.filter fun sh => sh.place.inEngine).map Sheet.id).Nodup

/-- A failed ledger audit (R375). -/
def State.ledgerAudit (s : State) : State :=
  if s.led.auditOk then s
  else ((s.putF F.LDG_STATUS_AUDIT_FAIL 1).freezeFollow).raise Ev.LDG_AUDIT

/-- Add to one 64-bit meter; `byte` is its offset in Table 18-3 (R383). -/
def State.meter (s : State) (byte n : Nat) : State := s.addP (R.LDG_METER ((byte - 112) / 4)) n

/-- The totals of Table 18-3 (bytes 112 to 175) from the committed ledger. -/
def State.meterTotals (s : State) : State :=
  let l := s.nvm.led
  let vals := [l.picked, l.handedIn, l.delivered, l.purged, l.handedOut, l.pop Place.inPath, l.pop (· == .jammed), l.pop (· == .stranded)]
  (List.range 8).foldl (fun a i => a.putP (R.LDG_METER (2 * i)) (vals.getD i 0)) s

/-- A committed entry acts on non-volatile memory: the committed ledger, the meters, counters, index and Mend status. -/
def State.commitEntry (s : State) (e : JEntry) : State :=
  let s :=
    match e with
    | .leave id (.delivered _) =>
      match s.nvm.led.find id with
      | some sh => if sh.spoiled then s.meter (2224 + 8 * sh.size) 1 else s.meter (176 + 8 * (16 * sh.size + sh.colour)) 1
      | none => s
    | .leave id .handedOut => { s with nvm := { s.nvm with log := (id :: s.nvm.log).take 64 } }
    | .psqCfg m f => { s with nvm := { s.nvm with minOff := m, acFilt := f } }
    | .dots st byVal lost dark =>
      let s := (List.range 16).foldl (fun (a : State) v => a.meter (2352 + 8 * (16 * st.val + v)) (byVal.getD v 0)) s
      (s.meter (3120 + 8 * st.val) lost).meter (3168 + 8 * st.val) dark
    | .mono k v => { s with nvm := { s.nvm with mono := s.nvm.mono.set k v } }
    | .mend w => { s with nvm := { s.nvm with mend := w } }
    | .index c p f u => { s with nvm := { s.nvm with cur := c, prev := p, mono := s.nvm.mono.set 0 (max s.nvm.mono[(0 : Fin 3)] f), unsigned := u } }
    | .serials i st y d => { s with nvm := { s.nvm with serialI := i, serialS := st, serialY := y, drops := d, written := true } }
    | _ => s
  { s with nvm := { s.nvm with led := s.nvm.led.apply e } }

/-! ## What the journal will have made of non-volatile memory -/

/-- Entries made and not committed. -/
def State.uncommitted (s : State) : List (Nat × JEntry) := s.jr.inflight ++ s.jr.backlog ++ s.jr.cur

/-- The value a monotonic counter will have once every journalled change has committed (R394). (DEDUCED: log 26) -/
def State.monoLive (s : State) (k : Fin 3) : Nat :=
  s.uncommitted.foldl (fun v e => match e.2 with
    | .mono j w => if j = k then w else v
    | .index _ _ f _ => if k = 0 then max v f else v
    | _ => v) s.nvm.mono[k]

/-- Journal a new value of a monotonic counter. -/
def State.monoSet (s : State) (k : Fin 3) (v : Nat) : State := s.journal (.mono k v)

/-- The running configuration becomes unsigned: the vintage index records it (R35, R58). (DEDUCED: log 73) -/
def State.markUnsigned (s : State) : State :=
  let s := { s with seq := { s.seq with patched := true } }
  if s.vin.unsigned then s
  else { s with vin := { s.vin with unsigned := true } }.journal (.index s.vin.cur s.vin.prev (s.monoLive 0) true)

end Sys2Proof.Machine
end

