-- ==== Sys2Proof/Machine/Operands.lean ====
section
/-! DEFINITION. Machine/Operands.lean: the operand forms of Ouvta instructions: registers (R72), constants (R74),
branch targets (R79), data-memory addresses and windows (R83), and little-endian loads and stores. -/

namespace Sys2Proof.Machine

/-! ## Registers (R72) -/

/-- xi; x0 reads 0. -/
def Thread.rx (h : Thread) (i : Fin 16) : Word := if i = 0 then 0#32 else h.x[i]

/-- Write xi; a write to x0 is discarded. -/
def Thread.wx (h : Thread) (i : Fin 16) (v : Word) : Thread := if i = 0 then h else { h with x := h.x.set i v }

def Thread.rf (h : Thread) (i : Fin 8) : F32 := h.f[i]

def Thread.wf (h : Thread) (i : Fin 8) (v : F32) : Thread := { h with f := h.f.set i v }

/-- xi of thread `t`. -/
def State.rx (s : State) (t i : Fin 16) : Word := (s.thr t).rx i

def State.wx (s : State) (t i : Fin 16) (v : Word) : State := s.setThr t ((s.thr t).wx i v)

/-- fi of thread `t`. -/
def State.rf (s : State) (t : Fin 16) (i : Fin 8) : F32 := (s.thr t).rf i

def State.wf (s : State) (t : Fin 16) (i : Fin 8) (v : F32) : State := s.setThr t ((s.thr t).wf i v)

def State.setAux (s : State) (t : Fin 16) (v : Word) : State := s.setThr t { s.thr t with aux := v }

/-! ## Constants (R74) -/

/-- A sign-extended 18-bit constant. -/
def sx18 (imm : BitVec 18) : Word := imm.signExtend 32

/-- The zero-extended 18-bit constant of ANDK, ORK and XORK. -/
def zx18 (imm : BitVec 18) : Word := imm.zeroExtend 32

/-- The sign-extended 22-bit constant of CALL. -/
def sx22 (imm : BitVec 22) : Word := imm.signExtend 32

/-- KHI: the 22-bit constant in bits [31:10]. -/
def khi22 (imm : BitVec 22) : Word := (imm.zeroExtend 32) <<< 10

/-- A branch target: the PC plus a signed offset, read as an unsigned 32-bit index (R79). -/
def target (pc : Nat) (off : Word) : Nat := (BitVec.ofNat 32 pc + off).toNat

/-! ## Data memory (R83) -/

/-- The byte address rs1 + imm. -/
def dmemAddr (base : Word) (imm : BitVec 18) : Nat := (base + sx18 imm).toNat

/-- First byte and end of the window a BASE and SIZE word describes; it ends at 0x1_FFFF at the latest. -/
def winRange (w : Word) : Nat × Nat :=
  let b := bits w 0 10 * 256
  (b, min 0x20000 (b + bits w 16 10 * 256))

/-- Does one byte lie in a window? -/
def inWin (w : Word) (a : Nat) : Bool := Nat.ble (winRange w).1 a && Nat.blt a (winRange w).2

/-- Every byte of an access lies in the thread's private window or the shared window. -/
def State.dmemOk (s : State) (t : Fin 16) (a n : Nat) : Bool :=
  (List.range n).all fun i => inWin (s.getR (R.SEQ_THR_WIN t)) (a + i) || inWin (s.getR R.SEQ_SHARED_WIN) (a + i)

/-- The access checks of R83 in their order: the fault code, if any. -/
def State.dmemCheck (s : State) (t : Fin 16) (a n : Nat) : Option Nat :=
  if a % n ≠ 0 then some 0x4 else if s.dmemOk t a n then none else some 0x3

/-! ## Bytes of a window -/

/-- A byte of a memory window: 0 where nothing is listed. (DESIGN CHOICE: log 65) -/
def rdByte (m : List Host.Cell) (a : Nat) : Byte := SMap.get (fun _ => 0#8) m a

/-- The memory with one byte written, in canonical form. (DESIGN CHOICE: log 65) -/
def wrByte (m : List Host.Cell) (a : Nat) (b : Byte) : List Host.Cell := SMap.set (fun _ => 0#8) m a b

/-- `n` bytes from `a` as one little-endian number. -/
def rdLe (m : List Host.Cell) (a n : Nat) : Nat := ofLeBytes ((List.range n).map fun i => rdByte m (a + i))

/-- Write bytes at `a` and following addresses. -/
def wrBytes (m : List Host.Cell) (a : Nat) : List Byte → List Host.Cell
  | [] => m
  | b :: r => wrBytes (wrByte m a b) (a + 1) r

def wrLe (m : List Host.Cell) (a n : Nat) (v : Nat) : List Host.Cell := wrBytes m a (leBytes n v)

def State.dmemRead (s : State) (a n : Nat) : Nat := rdLe s.mem.dmem a n

def State.dmemWrite (s : State) (a n : Nat) (v : Nat) : State :=
  { s with mem := { s.mem with dmem := wrLe s.mem.dmem a n v } }

/-! ## Windows from flash images -/

/-- The canonical memory whose bytes are those of a list, from address 0. -/
def ofImage (bs : List Byte) : List Host.Cell := wrBytes [] 0 bs

/-- The bits of a byte of a memory window that exist (Tables 9-3 and 16-4): the rest reads 0 and takes no value. (DEDUCED: log 18) -/
def windowMask (w : Window) (o : Nat) : Byte :=
  match w with
  | .coef => if o < 0x20000 then (if o % 0x40 < 44 then 0xFF#8 else 0#8) else if o < 0x28000 then 0xFF#8 else 0#8
  | .expo =>
    if 0x30000 ≤ o then (if o < 0x30600 then 0xFF#8 else 0#8)
    else if o % 0x8000 < 0x2400 then 0x3F#8 else if o % 0x8000 < 0x2410 then 1#8 else 0#8
  | _ => 0xFF#8

/-- An image part as a window takes it. (DEDUCED: log 18) -/
def masked (w : Window) (bs : List Byte) : List Byte := bs.zipIdx.map fun x => x.1 &&& windowMask w x.2

end Sys2Proof.Machine
end

