-- ==== Sys2Proof/Machine/Fix.lean ====
section
/-! DEFINITION. Machine/Fix.lean: sine, logarithm, exponential and the angle of a vector, computed in units of 2^-64 to well below
what a binary32 or a reading can show, and their rounding to binary32. -/

namespace Sys2Proof.Machine

namespace Fix

/-- 1, π and ln 2 in units of 2^-64. -/
def unit : Int := 18446744073709551616
def pi : Int := 57952155664616982739
def ln2 : Int := 12786308645202655660

/-- Product and quotient of two values in units of 2^-64. -/
def mul (a b : Int) : Int := a * b / unit
def div (a b : Int) : Int := if b = 0 then 0 else a * unit / b

/-- sin x for 0 ≤ x ≤ π ÷ 2. -/
def sinSmall (x : Int) : Int :=
  let xx := mul x x
  ((List.range 18).foldl (fun (a : Int × Int) k =>
    let t := -(mul a.2 xx) / ((2 * k + 2) * (2 * k + 3) : Nat)
    (a.1 + t, t)) (x, x)).1

/-- sin of m ÷ q quarter turns, 0 ≤ m ≤ q: exact where the sine is 1 or 1/2. -/
def sinQuarter (m : Int) (q : Nat) : Int :=
  if m = q then unit else if 3 * m = q then unit / 2 else sinSmall (pi * m / (2 * q))

/-- sin of p ÷ q turns. -/
def sinTurns (p : Int) (q : Nat) : Int :=
  let r := 4 * (p % q)
  let m := r % q
  match (r / q).toNat with
  | 0 => sinQuarter m q
  | 1 => sinQuarter (q - m) q
  | 2 => -sinQuarter m q
  | _ => -sinQuarter (q - m) q

/-- cos of p ÷ q turns. -/
def cosTurns (p : Int) (q : Nat) : Int := sinTurns (4 * p + q) (4 * q)

/-- ln of n ÷ d, both positive. -/
def ln (n d : Nat) : Int :=
  let e : Int := (Nat.log2 n : Int) - Nat.log2 d
  let y : Int := if 0 ≤ e then (n : Int) * unit / (d * 2 ^ e.toNat) else (n * 2 ^ (-e).toNat : Int) * unit / d
  let z := div (y - unit) (y + unit)
  let zz := mul z z
  let s := (List.range 24).foldl (fun (a : Int × Int) k => (a.1 + a.2 / (2 * k + 1 : Nat), mul a.2 zz)) (0, z)
  2 * s.1 + e * ln2

/-- e^x as (m, k): m × 2^(k - 64). -/
def exp (x : Int) : Int × Int :=
  let k := x / ln2
  let r := x - k * ln2
  (((List.range 26).foldl (fun (a : Int × Int) i => let t := mul a.2 r / (i + 1 : Nat); (a.1 + t, t)) (unit, unit)).1, k)

/-- atan t for |t| ≤ 1: to within ±√2 - 1 by a turn of π ÷ 4 first. -/
def atan (t : Int) : Int :=
  let big := 7640891576956012809 < t.natAbs
  let u := if big then div (t.natAbs - unit) (t.natAbs + unit) else (t.natAbs : Int)
  let uu := mul u u
  let s := ((List.range 30).foldl (fun (a : Int × Int) k => (a.1 + a.2 / (2 * k + 1 : Nat), -(mul a.2 uu))) (0, u)).1
  let a := if big then pi / 4 + s else s
  if t < 0 then -a else a

/-- The angle of (x, y), from 0 to 2π. -/
def angle (x y : Int) : Int :=
  let a := if y.natAbs ≤ x.natAbs then
      (if x = 0 then 0 else if 0 < x then atan (div y x) else pi + atan (div y x))
    else if 0 < y then pi / 2 - atan (div x y)
    else 3 * pi / 2 - atan (div x y)
  if a < 0 then a + 2 * pi else a

end Fix

namespace F32

/-- The binary32 value next to ±m × 2^e, away from zero where `away`, else toward zero. -/
def roundAway (s : Bool) (m : Nat) (e : Int) (away : Bool) : F32 :=
  if m = 0 then zero s
  else
    let et := max (e + (Nat.log2 m : Int) - 23) (-149)
    if et ≤ e then pack s (m * 2 ^ (e - et).toNat) et
    else
      let d := (et - e).toNat
      pack s (m / 2 ^ d + (if away && m % 2 ^ d != 0 then 1 else 0)) et

/-- A value in units of 2^-64 as one of the two binary32 values next to it: the one above where `up`. -/
def ofFix (v : Int) (up : Bool) : F32 := roundAway (v < 0) v.natAbs (-64) (up != decide (v < 0))

/-- A finite value as n ÷ d. -/
def ratio (x : F32) : Int × Nat :=
  if 0 ≤ ex x then (ssig x * 2 ^ (ex x).toNat, 1) else (ssig x, 2 ^ (-(ex x)).toNat)

/-- A finite value in units of 2^-64, rounded down. -/
def fix (x : F32) : Int := (ratio x).1 * Fix.unit / (ratio x).2

/-- The sine of p ÷ q turns. An angle within 2^-24 of a half turn is its own sine to well below what the value shows. -/
def sinRatio (p : Int) (q : Nat) : F32 :=
  let r := 2 * p % (2 * q : Nat)
  let near := fun (d : Int) => decide (d.natAbs * 16777216 < q)
  let small := fun (d : Int) => roundAway (d < 0) (d.natAbs * Fix.pi.toNat * 2 ^ (Nat.log2 q + 64) / q)
    (-128 - (Nat.log2 q : Int)) (Config.sinUp p q != decide (d < 0))
  if near r then small r else if near (q - r) then small (q - r) else if near (2 * q - r) then small (r - 2 * q)
  else ofFix (Fix.sinTurns p q) (Config.sinUp p q)
/-- The cosine. -/
def cosRatio (p : Int) (q : Nat) : F32 := sinRatio (4 * p + q) (4 * q)

/-- Sine and cosine of an angle in 1/65,536 turn. -/
def sinTurn (theta : Nat) : F32 := sinRatio theta 65536
def cosTurn (theta : Nat) : F32 := cosRatio theta 65536

/-- Sine and cosine of an angle in degrees. -/
def sinDeg (x : F32) : F32 := if isFinite x then sinRatio (ratio x).1 (360 * (ratio x).2) else Config.sinOdd x
def cosDeg (x : F32) : F32 := if isFinite x then cosRatio (ratio x).1 (360 * (ratio x).2) else Config.cosOdd x

/-- The angle of a vector in 1/65,536 turn: a whole number for the eight directions that have one. -/
def angleOf (x y : F32) : BitVec 16 :=
  if isFinite x && isFinite y && !(isZero x && isZero y) then
    let e := min (ex x) (ex y)
    let u := ssig x * 2 ^ (ex x - e).toNat
    let v := ssig y * 2 ^ (ex y - e).toNat
    if v = 0 then (if 0 < u then 0 else 32768)
    else if u = 0 then (if 0 < v then 16384 else 49152)
    else if u = v then (if 0 < u then 8192 else 40960)
    else if u = -v then (if 0 < v then 24576 else 57344)
    else BitVec.ofInt 16 (Fix.angle u v * 32768 / Fix.pi + (if Config.angleUp x y then 1 else 0))
  else Config.angleOdd x y

end F32

end Sys2Proof.Machine
end

