-- ==== Sys2Proof/Machine/OpsRack.lean ====
section
/-! DEFINITION. Machine/OpsRack.lean: Racking tokens, slots, transactions, halts and withdrawals (R125–R130). -/

namespace Sys2Proof.Machine

def State.chan (s : State) (c : Nat) : Chan := s.rck.ch.toList.getD c {}

def State.setChan (s : State) (c : Nat) (h : Chan) : State :=
  { s with rck := { s.rck with ch := s.rck.ch.setIfInBounds c h } }

/-- Station channels never halt (R126). -/
def isStation (c : Nat) : Bool := Nat.ble 8 c && Nat.ble c 13

def State.halted (s : State) (c : Nat) : Bool := s.getF (F.RCK_CH_STATUS_STATE c) == 2

/-- Put a transaction at the end of a channel's queue. -/
def State.enqueue (s : State) (c : Nat) (t : Txn) : State :=
  let h := s.chan c
  let t := { t with gen := s.getF (F.RCK_CH_STATUS_GEN c) }
  s.setChan c { h with queued := h.queued ++ [t] }

/-- Forget the transfers of which nothing is left. -/
def Chan.tidy (h : Chan) : Chan := { h with first := h.first.filter fun x => (h.issued ++ h.queued).any fun t => t.job == x.1 }

/-- Does the channel have one of its own tokens free (channels 8 to 13)? -/
def State.ownFree (s : State) (c : Nat) : Bool := isStation c && Nat.blt (s.chan c).ownUsed 4

/-- Can the first queued transaction be issued: the channel is not halted, and a token is free and, for a read, a slot? -/
def State.mayIssue (s : State) (c : Nat) : Bool :=
  match (s.chan c).queued with
  | [] => false
  | t :: _ => !s.halted c && (s.ownFree c || s.getF F.RCK_TOKENS_SHARED != 0) && (t.write || s.getF F.RCK_SLOTS != 0)

/-- Issue the first queued transaction, on the channel's own token where one is free. -/
def State.issueTxn (s : State) (c : Nat) : State :=
  let h := s.chan c
  match h.queued with
  | [] => s
  | t :: r =>
    if !s.mayIssue c then s
    else
      let own := s.ownFree c
      let first := if h.first.any fun x => x.1 == t.job then h.first else h.first ++ [(t.job, s.tick)]
      let s1 := s.setChan c { h with queued := r, issued := h.issued ++ [{ t with own := own }], first := first,
                                     ownUsed := h.ownUsed + boolNat own, slots := h.slots + boolNat (!t.write) }
      let s1 := s1.putF F.RCK_TOKENS_FREE (s1.getF F.RCK_TOKENS_FREE - 1)
      let s1 := s1.putF F.RCK_TOKENS_SHARED (s1.getF F.RCK_TOKENS_SHARED - boolNat (!own))
      let s1 := s1.putF F.RCK_SLOTS (s1.getF F.RCK_SLOTS - boolNat (!t.write))
      (s1.putF (F.RCK_CH_STATUS_TOKENS c) (s1.getF (F.RCK_CH_STATUS_TOKENS c) + 1)).putF (F.RCK_CH_STATUS_STATE c) 1

/-- Has the channel work for a shared token: a transaction, or for channel 0 a write to CQ or EVR (R125)? (DEDUCED: log 37) -/
def State.hasTurn (s : State) (c : Nat) : Bool := s.mayIssue c || (c == 0 && s.ringWork)

/-- The channel that issues next: a station channel on its own token, else the next in round-robin order (R125). (DEDUCED: log 37) -/
def State.nextGrant (s : State) : Option Nat :=
  ((List.range 6).map (8 + ·)).find? (fun c => s.ownFree c && s.mayIssue c) |>.orElse fun _ =>
    ((List.range 16).map fun i => (s.rck.last + 1 + i) % 16).find? s.hasTurn

/-- Take up to `n` turns; a write to CQ or EVR is over at once and gives its token back. -/
def State.pump : Nat → State → State
  | 0, s => s
  | n + 1, s =>
    match s.nextGrant with
    | none => s
    | some c =>
      let s1 := if c = 0 ∧ s.ringWork then s.ringTurn else s.issueTxn c
      State.pump n (if s.ownFree c then s1 else { s1 with rck := { s1.rck with last := c } })

/-- Issue what tokens, slots and halts allow. -/
def State.pumpAll (s : State) : State :=
  let s := State.pump (64 + s.host.cqHeld.length + (if s.host.evrDue then 512 else 0)) s
  if s.ringOpen then { s with host := { s.host with evrDue := false } } else s

/-- One transfer over the address ranges `parts`, cut into transactions of at most 4 KiB. -/
def State.transferParts (s : State) (c : Nat) (parts : List (Nat × Nat)) (write : Bool) (tag : Nat := 0) : State :=
  let s := { s with rck := { s.rck with jobs := s.rck.jobs + 1 } }
  let j := s.rck.jobs
  let s := s.each parts fun a x => a.forEach (ceilDiv x.2 4096) fun b i =>
    b.enqueue c { gen := 0, addr := x.1 + 4096 * i, bytes := min 4096 (x.2 - 4096 * i), write := write, tag := tag, job := j }
  s.pumpAll

/-- A request of `bytes` bytes at `addr`. -/
def State.transfer (s : State) (c addr bytes : Nat) (write : Bool) (tag : Nat := 0) : State :=
  s.transferParts c [(addr, bytes)] write tag

/-- Return what an issued transaction of a channel holds. -/
def State.returnOf (s : State) (c : Nat) (t : Txn) : State :=
  let h := s.chan c
  let r := h.issued.erase t
  let s1 := s.setChan c { h with issued := r, ownUsed := h.ownUsed - boolNat t.own, slots := h.slots - boolNat (!t.write) }.tidy
  let s1 := s1.putF F.RCK_TOKENS_FREE (s1.getF F.RCK_TOKENS_FREE + 1)
  let s1 := s1.putF F.RCK_TOKENS_SHARED (s1.getF F.RCK_TOKENS_SHARED + boolNat (!t.own))
  let s1 := s1.putF F.RCK_SLOTS (s1.getF F.RCK_SLOTS + boolNat (!t.write))
  let s1 := s1.putF (F.RCK_CH_STATUS_TOKENS c) (s1.getF (F.RCK_CH_STATUS_TOKENS c) - 1)
  if r.isEmpty && h.queued.isEmpty && !s.halted c then s1.putF (F.RCK_CH_STATUS_STATE c) 0 else s1

/-- Return what the oldest issued transaction of a channel holds. (DEDUCED: log 37, 38) -/
def State.returnTxn (s : State) (c : Nat) : State :=
  match (s.chan c).issued with
  | [] => s
  | t :: _ => s.returnOf c t

/-- The oldest transaction outstanding. -/
def State.headTxn (s : State) (c : Nat) : Option Txn := (s.chan c).issued.head?

/-- Is the page at place `seq` paused: channel 1 or 2 is halted while it serves that page (R154)? -/
def State.pausedPage (s : State) (seq : Nat) : Bool :=
  [1, 2].any fun c => s.halted c && (match (s.chan c).failed with
    | some t => t.job != 0 && t.tag == seq
    | none => false)

/-- PRS_STATUS.PAUSED: the page that PRS_CUR_TAG names is paused (R154). (DEDUCED: log 44) -/
def State.pausedFollow (s : State) : State :=
  s.putB F.PRS_STATUS_PAUSED (s.flag F.PRS_STATUS_BUSY &&
    s.cel.pages.any fun p => p.tag == s.getR R.PRS_CUR_TAG && s.pausedPage p.seq)

/-- Halt a channel for a bus error (R128): the failing transaction `t` goes back to the head of its queue for RESUME; one that
is left of an aborted transfer serves nobody and goes. (DEDUCED: log 37) -/
def State.halt (s : State) (c cause addr : Nat) (t : Txn) : State :=
  let write := t.write
  let s :=
    if (s.chan c).issued.contains t then
      let a := s.returnOf c t
      let h := a.chan c
      if t.job = 0 then a else a.setChan c { h with queued := { t with own := false } :: h.queued }
    else s
  let s := s.setChan c { s.chan c with failed := some { t with own := false } }
  let s := (s.putF (F.RCK_CH_STATUS_STATE c) 2).putB (F.RCK_CH_STATUS_DIR c) write
  let s := (s.putF (F.RCK_CH_STATUS_CAUSE c) cause).putP (R.RCK_CH_FAIL_LO c) addr
  let s := s.pausedFollow
  let detB := boolNat write * 4 + cause * 16 + (addr / 0x100000000) % 0x10000 * 0x10000
  (s.raise Ev.RCK_BUS_ERROR c (BitVec.ofNat 32 addr) (BitVec.ofNat 32 detB)).signal (16 + c)

/-- Software ends the halted transfer `j` of a channel (R128): what of it is not issued is dropped, and what is issued serves
nobody. The channel goes on with its next transfer. (DEDUCED: log 37) -/
def State.abortTransfer (s : State) (c j : Nat) : State :=
  let h := { s.chan c with failed := none }
  let rest := h.queued.filter fun t => t.job != j
  let s := s.setChan c { h with queued := rest, issued := mapIf (fun t => t.job == j) (fun t => { t with job := 0 }) h.issued }.tidy
  (s.putF (F.RCK_CH_STATUS_STATE c) (if h.issued.isEmpty && rest.isEmpty then 0 else 1)).pausedFollow.pumpAll

/-- Withdraw a channel's outstanding requests (R130): the generation rises and what is not issued is dropped. -/
def State.withdraw (s : State) (c : Nat) : State :=
  let s := s.putF (F.RCK_CH_STATUS_GEN c) ((s.getF (F.RCK_CH_STATUS_GEN c) + 1) % 16)
  let s := s.setChan c { s.chan c with queued := [] }.tidy
  if (s.chan c).issued.isEmpty then s.putF (F.RCK_CH_STATUS_STATE c) 0 else s

/-- Reading for a page in the Press stops; a halted transfer of its ends as an ABORT would (R118, R152, R154). -/
def State.stopReading (s : State) (seq : Nat) : State :=
  let s := s.each [1, 2] fun a c =>
    let h := a.chan c
    let mine := fun (t : Txn) => t.tag == seq
    let its := (h.failed.map fun t => t.job != 0 && mine t).getD false
    let rest := h.queued.filter fun t => !mine t
    let failed := if its then none else h.failed
    let a1 := a.setChan c { h with queued := rest, issued := mapIf mine (fun t => { t with job := 0 }) h.issued, failed := failed }.tidy
    if a.halted c && !its then a1
    else a1.putF (F.RCK_CH_STATUS_STATE c) (if h.issued.isEmpty && rest.isEmpty then 0 else 1)
  s.pausedFollow.pumpAll

/-- Is a read of the page at place `seq` outstanding on channel `c`, of the bytes from `lo` on? -/
def State.reading (s : State) (c seq lo len : Nat) : Bool :=
  ((s.chan c).issued ++ (s.chan c).queued).any fun t => t.tag == seq && t.job != 0 && Nat.ble lo t.addr && Nat.blt t.addr (lo + len)

/-- Tokens and slots held, summed over the channels (R125). -/
def State.tokensHeld (s : State) : Nat := (s.rck.ch.toList.map fun h => h.issued.length).foldl (· + ·) 0

def State.slotsHeld (s : State) : Nat := (s.rck.ch.toList.map Chan.slots).foldl (· + ·) 0

/-- The Racking part of the credit audit: a mismatch halts every channel but 8 to 13, at its oldest transfer. -/
def State.rackAudit (s : State) : State :=
  if s.getF F.RCK_TOKENS_FREE + s.tokensHeld = 64 ∧ s.getF F.RCK_SLOTS + s.slotsHeld = 128 then s
  else
    let s := { s with rck := { s.rck with auditFail := true } }
    let s := s.forEach 16 fun a c =>
      if isStation c then a
      else
        let h := a.chan c
        let h := if a.halted c then h else { h with failed := (h.issued ++ h.queued).find? fun t => t.job != 0 }
        ((a.setChan c h).putF (F.RCK_CH_STATUS_STATE c) 2).signal (16 + c)
    s.raise Ev.RCK_AUDIT

end Sys2Proof.Machine
end

