-- ==== Sys2Proof/Machine/OpsPages.lean ====
section
/-! DEFINITION. Machine/OpsPages.lean: granules, residency, the admission function, reservations, eviction order, and
how a page leaves the ZK960 (chapters 5, 6 and 8). -/

namespace Sys2Proof.Machine

/-! ## Geometry of a plane (R139–R142) -/

/-- Lines advanced per sweep: A. -/
def Geom.adv (g : Geom) : Nat := if g.shingle then g.beams / 2 else g.beams

/-- First page line of stream `b` (R139). -/
def Geom.firstLine (g : Geom) (b : Nat) : Nat :=
  if g.adv = 0 then 0 else (b * g.spacing + g.adv * g.offset - g.offset) % g.adv

/-- Lines of stream `b` on a page of `h` lines. -/
def Geom.streamLines (g : Geom) (h b : Nat) : Nat := if h ≤ g.firstLine b then 0 else ceilDiv (h - g.firstLine b) g.adv

/-- Blocks of stream `b`. -/
def Plane.streamBlocks (q : Plane) (h b : Nat) : Nat := ceilDiv (q.geom.streamLines h b) q.gLines

/-- Rounds of a plane. -/
def Plane.rounds (q : Plane) (h : Nat) : Nat := ((List.range q.geom.adv).map (q.streamBlocks h)).foldl max 0

/-- Number of lines in block `j` of stream `b` (R140). -/
def Plane.blockLines (q : Plane) (h b j : Nat) : Nat := min q.gLines (q.geom.streamLines h b - j * q.gLines)

/-- The blocks of a page in round order (R142). -/
def Page.order (p : Page) : List BlockPos :=
  let n := (p.planes.map (Plane.rounds · p.lines)).foldl max 0
  (List.range n).flatMap fun j =>
    (p.planes.zipIdx).flatMap fun qi =>
      ((List.range qi.1.geom.adv).filter fun b => Nat.blt j (qi.1.streamBlocks p.lines b)).map fun b =>
        { plane := qi.2, stream := b, round := j }

/-! ## Residency and lead (R177, R180) -/

/-- Chain positions a block touches. -/
def Block.grans (b : Block) : List Nat :=
  let a := b.pos / 4096
  (List.range ((b.pos + b.data.length - 1) / 4096 + 1 - a)).map (a + ·)

def Plane.resident (q : Plane) (b : Block) : Bool :=
  b.grans.all fun i => match q.chain[i]? with
    | some g => g.inCellar
    | none => false

/-- Block `j` of every stream that has one is stored and resident. -/
def Plane.roundResident (q : Plane) (h j : Nat) : Bool :=
  (List.range q.geom.adv).all fun b => !Nat.blt j (q.streamBlocks h b)
    || q.blocks.any fun x => x.stream == b && x.round == j && q.resident x

/-- r_q: consecutive resident rounds from round 0. -/
def Plane.residentRounds (q : Plane) (h : Nat) : Nat → Nat → Nat
  | 0, j => j
  | n + 1, j => if q.roundResident h j then q.residentRounds h n (j + 1) else j

def Plane.rq (q : Plane) (h : Nat) : Nat := q.residentRounds h (q.rounds h) 0

/-- Every block of the plane is resident. -/
def Plane.allResident (q : Plane) (h : Nat) : Bool := Nat.ble (q.rounds h) (q.rq h)

def Plane.residentLead (q : Plane) (h : Nat) : Nat := min h (q.rq h * q.gLines * q.geom.adv)

/-- E_q of R180 for a non-zero CEL_LEAD. -/
def Plane.effectiveLead (q : Plane) (h lead : Nat) : Nat :=
  let ga := q.gLines * q.geom.adv
  min h (ga * max 2 (ceilDiv lead ga))

/-- Lead rounds of a plane: none when CEL_LEAD is 0. -/
def Plane.leadRounds (q : Plane) (h lead : Nat) : Nat :=
  if lead = 0 then 0 else ceilDiv (q.effectiveLead h lead) (q.gLines * q.geom.adv)

def Plane.roundBytes (q : Plane) (j : Nat) : Nat :=
  ((q.blocks.filter fun b => b.round == j).map fun b => b.data.length).foldl (· + ·) 0

/-- need_q of R181, in 64-byte units per tick. The line rate f_s is the ceiling of R215, EXP_LINE_MAX divided by
the passes P of a line, so the factor P of the shingling rule cancels. (DEDUCED: log 43) -/
def Plane.demand (q : Plane) (h f margin : Nat) : Nat :=
  let bmax := ((List.range (q.rounds h)).filter (fun j => Nat.ble (q.rq h) j)).map q.roundBytes |>.foldl max 0
  ceilDiv (bmax * f * 20 * (100 + margin)) (1000000 * 100 * q.gLines * q.geom.adv * 64)

/-! ## Granules (R176, R177, R191) -/

def State.page (s : State) (tag : Word) : Option Page := s.cel.pages.find? fun p => p.tag == tag

def State.setPages (s : State) (l : List Page) : State := { s with cel := { s.cel with pages := l } }

/-- CEL_PAGES follows the pages held. -/
def State.pagesFollow (s : State) : State :=
  (s.putF F.CEL_PAGES_HELD s.cel.pages.length).putF F.CEL_PAGES_COMMITTED
    (s.cel.pages.filter fun p => p.st == .committed).length

def State.updPage (s : State) (tag : Word) (f : Page → Page) : State :=
  (s.setPages (mapIf (fun p => p.tag == tag) f s.cel.pages)).pagesFollow

def Page.updPlane (p : Page) (i : Nat) (f : Plane → Plane) : Page :=
  match p.planes[i]? with
  | some q => { p with planes := p.planes.set i (f q) }
  | none => p

/-- A free granule: from the next bank in service after the one that gave the last (R176), its lowest. (DESIGN CHOICE: log 75) -/
def State.freeGran (s : State) : Option Nat :=
  (List.range 32).findSome? fun i =>
    let k := (s.cel.lastBank + 1 + i) % 32
    if (s.getR R.CEL_BANK_OUT).getLsbD k || (s.getR R.CEL_BANK_RETIRING).getLsbD k then none
    else (List.range 256).findSome? fun j => if s.cel.used.contains (256 * k + j) then none else some (256 * k + j)

def State.takeGran (s : State) (n : Nat) : State :=
  let s := { s with cel := { s.cel with used := n :: s.cel.used, lastBank := n / 256 } }
  (s.putF F.CEL_GRAN_FREE (s.getF F.CEL_GRAN_FREE - 1)).putF F.CEL_GRAN_ALLOC (s.getF F.CEL_GRAN_ALLOC + 1)

/-- Does any page, or a refill under way, hold a granule of bank `k`? -/
def State.bankHeld (s : State) (k : Nat) : Bool :=
  s.cel.refilling.any (fun e => e.2.2.2 / 256 == k) || s.cel.pages.any fun p => p.planes.any fun q => q.chain.any fun g => match g with
    | .cellar n => n / 256 == k
    | .dram _ => false

/-- A retiring bank that holds no granule is mapped out (R191). -/
def State.bankFollow (s : State) (k : Nat) : State :=
  if (s.getR R.CEL_BANK_RETIRING).getLsbD k && !s.bankHeld k then
    let s := s.putR R.CEL_BANK_RETIRING (s.getR R.CEL_BANK_RETIRING &&& ~~~ ones k 1)
    let s := s.putR R.CEL_BANK_OUT (s.getR R.CEL_BANK_OUT ||| ones k 1)
    (s.putF F.CEL_GRAN_TOTAL (s.getF F.CEL_GRAN_TOTAL - 256)).putF F.CEL_GRAN_ALLOC (s.getF F.CEL_GRAN_ALLOC - 256)
  else s

/-- WIN_SHORT clears at each station whose own reserve is covered, in station order (R205). -/
def State.winFollow (s : State) : State :=
  s.forEach 6 fun a i =>
    if ((List.range (i + 1)).map fun k => a.getF (F.DEC_WIN_GRAN k)).foldl (· + ·) 0 ≤ a.getF F.CEL_GRAN_FREE then
      a.putF (F.DEC_STATUS_WIN_SHORT i) 0
    else a

/-- Free one granule; a granule of a retiring bank leaves service instead (R191). -/
def State.freeOne (s : State) (g : Gran) : State :=
  match g with
  | .cellar n =>
    if (s.getR R.CEL_BANK_RETIRING).getLsbD (n / 256) then s
    else
      let s := { s with cel := { s.cel with used := s.cel.used.filter (· != n) } }
      ((s.putF F.CEL_GRAN_FREE (s.getF F.CEL_GRAN_FREE + 1)).putF F.CEL_GRAN_ALLOC (s.getF F.CEL_GRAN_ALLOC - 1)).winFollow
  | .dram n =>
    let s := { s with cel := { s.cel with dramUsed := s.cel.dramUsed.filter (· != n) } }
    (s.putF F.CEL_DGRAN_FREE (s.getF F.CEL_DGRAN_FREE + 1)).putB F.CEL_STATUS_DRAM_FULL false

def State.freeChain (s : State) (l : List Gran) : State := s.each l State.freeOne

/-- Map out every retiring bank that has emptied. -/
def State.banksFollow (s : State) : State := s.forEach 32 State.bankFollow

def Page.grans (p : Page) : Nat := (p.planes.map fun q => q.chain.length).foldl (· + ·) 0

/-! ## Reservations (R185) -/

/-- RCK_RES[i] recomputed from the pages still locked with lines to expose at station `i`. -/
def State.recompute (s : State) (i : Nat) : State :=
  let v := (s.cel.pages.filter fun p => p.st == .committed || p.st == .picked).map (fun p =>
    ((p.planes.filter fun q => q.station.val == i && !q.exposed).map Plane.need).foldl max 0) |>.foldl max 0
  let old := (s.getR (R.RCK_RES i)).toNat
  (s.putR (R.RCK_RES i) (BitVec.ofNat 32 v)).putR R.RCK_RES_TOTAL
    (BitVec.ofNat 32 ((s.getR R.RCK_RES_TOTAL).toNat - old + v))

/-! ## Leaving the ZK960 (R116, R119) -/

/-- Free the granules of a page that holds them no longer, and those of its evictions and refills under way (R179, R187). -/
def State.freeStore (s : State) (p : Page) : State :=
  let s := s.each p.planes fun a q => a.freeChain q.chain
  let s := s.each (s.cel.evicting.filter fun e => e.1 == p.tag) fun a e => a.freeOne (.dram e.2.2.2)
  let s := s.each (s.cel.refilling.filter fun e => e.1 == p.tag) fun a e => a.freeOne (.cellar e.2.2.2)
  let s := { s with cel := { s.cel with
    evicting := s.cel.evicting.filter fun e => e.1 != p.tag, refilling := s.cel.refilling.filter fun e => e.1 != p.tag } }
  ((s.putB F.CEL_STATUS_EVICTING (!s.cel.evicting.isEmpty)).putB F.CEL_STATUS_REFILLING (!s.cel.refilling.isEmpty)).banksFollow

/-- Release a page: its granules, its credit, its place in the Press and its reservations. -/
def State.dropPage (s : State) (p : Page) : State :=
  let s := (s.setPages (s.cel.pages.filter fun x => x.tag != p.tag)).freeStore p
  let s := s.putF F.HIF_PAGE_CREDITS (s.getF F.HIF_PAGE_CREDITS + 1)
  let s := if p.st == .committed then s.each p.planes fun a q => a.recompute q.station else s
  s.pagesFollow

/-- The storage for jam reprint is released (R43). -/
def State.releaseStore (s : State) (p : Page) : State :=
  (s.updPage p.tag fun x => { x with released := true, planes := x.planes.map fun q => { q with chain := [], blocks := [] } }).freeStore p

/-- Is the page's sheet spoiled (DETAIL[0] of a retire entry)? -/
def State.spoiledPage (s : State) (p : Page) : Bool :=
  match p.sheet with
  | some id => match s.led.find id with
    | some sh => sh.spoiled
    | none => false
  | none => false

/-- Retire a page with a status (R119); `spoiled` is given where its record has already left the store. -/
def State.retire (s : State) (p : Page) (st : Status) (spoiled : Bool) : State :=
  let s := s.dropPage p
  s.cqPush { cid := p.cid, sq := 0, retire := true, status := st, detail := boolNat spoiled, resA := p.tag, resB := p.sheet.getD 0#32 }

/-- The lanes that hold a block of a page become free, and the page leaves the Press (R152, R155). -/
def State.clearPress (s : State) (p : Page) : State :=
  let mine := fun (l : Lane) => match l.job with
    | some j => j.1 == p.tag
    | none => false
  let s := s.forEach 4 fun a l => if mine (s.prs.lanes.toList.getD l {}) then a.putR (R.PRS_LANE_STATE l) 0#32 else a
  let isCur := s.flag F.PRS_STATUS_BUSY && s.getR R.PRS_CUR_TAG == p.tag
  let lanes := s.prs.lanes.map fun l => if mine l then ({} : Lane) else l
  let prs : Press := { s.prs with lanes := lanes, passed := s.prs.passed.filter (fun x => x.1 != p.tag) }
  if isCur then
    let nxt := s.prs.nextTag
    let s := { s with prs := { prs with handed := prs.nextHanded, storedN := 0, nextTag := none, nextHanded := 0 } }
    let s := (s.putR R.PRS_CUR_TAG (nxt.getD 0#32)).putB F.PRS_STATUS_BUSY nxt.isSome
    { s.putF F.PRS_STATUS_SPACE_WAIT 0 with cel := { s.cel with waitSince := none } }
  else if prs.nextTag = some p.tag then { s with prs := { prs with nextTag := none, nextHanded := 0 } }
  else { s with prs := prs }

/-- End a PAGE_SUBMIT with a status other than OK: the page is released as a whole (R116, R155). -/
def State.failPage (s : State) (p : Page) (st : Status) : State :=
  let s := (((s.stopReading p.seq).dropPage p).clearPress p).pausedFollow
  (s.complete 0 p.cid st 0 p.tag 0#32).unreserve

/-- Return of a page to STORED for a reprint (R189). -/
def Page.toStored (p : Page) : Page :=
  { p with st := .stored, sheet := none, second := false, jamReturn := false, outcome := none, reason := 0,
           planes := p.planes.map fun q => { q with exposed := false, need := 0, condB := false } }

/-- The page's last line has been exposed at every station (R118, R119, R178, R189): its lock ends (R179), and with it the storage
of a page whose release has waited for that (R43). -/
def State.pageExposed (s : State) (p : Page) : State :=
  let dones := fun (a : State) => a.each p.discard fun b c => b.complete 0 c .ok 0 p.tag
  match p.outcome with
  | some o => dones (s.retire p o.1 o.2)
  | none =>
    if p.discard != [] then dones (s.retire p .discarded (s.spoiledPage p))
    else if p.jamReturn then
      (if p.released then s.retire p .staleGeometry (s.spoiledPage p) else s.updPage p.tag Page.toStored)
    else
      let s1 := s.updPage p.tag fun x => { x with st := .retained, retainedAt := s.cel.nextRetained }
      let s1 := { s1 with cel := { s1.cel with nextRetained := s1.cel.nextRetained + 1 } }
      if p.released then s1.releaseStore p else s1

/-- Pages bound to a sheet. -/
def State.pagesOf (s : State) (id : Word) : List Page := s.cel.pages.filter fun p => p.sheet == some id

/-- The sheet of these pages was delivered or handed out (R119); a page discarded before that keeps DISCARDED (R118). -/
def State.retireSheet (s : State) (id : Word) (st : Status) (spoiled : Bool) : State :=
  s.each (s.pagesOf id) fun a p =>
    if p.st == .retained then a.retire p st spoiled
    else a.updPage p.tag fun x => { x with
      outcome := some (if p.discard == [] then st else .discarded, spoiled), jamReturn := false }

/-- The sheet of these pages moved to jammed or purged (R189); a page discarded under R118 does not return. -/
def State.jamSheet (s : State) (id : Word) : State :=
  s.each (s.pagesOf id) fun a p =>
    if p.noReturn then a
    else if p.st == .retained then
      (if p.released then a.retire p .staleGeometry (a.spoiledPage p) else a.updPage p.tag Page.toStored)
    else a.updPage p.tag fun x => { x with jamReturn := true }

/-! ## The admission function (R182) -/

/-- Result codes of Table 8-4. -/
inductive Admit where
  | ok (need : List Nat) (condB : Bool)
  | geometry | damaged | residency | olderWaiting | resCap
  deriving DecidableEq, Repr

def Admit.code : Admit → Nat
  | .ok .. => 0 | .geometry => 2 | .damaged => 3 | .residency => 4 | .olderWaiting => 5 | .resCap => 6

/-! ### Stream windows (R205–R207) -/

/-- Skew of the streams of one pass: D = ⌈(A − 1)·k ÷ A⌉ (R195). -/
def Geom.skew (g : Geom) : Nat := ceilDiv ((g.adv - 1) * g.spacing) g.adv

/-- Slots of a plane's window for one pass: n = 2 + ⌈D ÷ G⌉, and passes P (R206). -/
def Plane.winSlots (q : Plane) : Nat := 2 + ceilDiv q.geom.skew q.gLines

def Plane.passes (q : Plane) : Nat := if q.geom.shingle then 2 else 1

/-- Bytes of a round that do not lie in the Cellar. -/
def Plane.dramBytes (q : Plane) (j : Nat) : Nat :=
  ((q.blocks.filter fun b => b.round == j && !q.resident b).map fun b => b.data.length).foldl (· + ·) 0

/-- Granules of one slot: Z. -/
def State.slotGrans (s : State) (q : Plane) : Nat := s.getF (F.DEC_WIN_GRAN q.station) / (q.passes * q.winSlots)

/-- R207: every round beyond the lead rounds fits a slot. -/
def State.fitsWindow (s : State) (h : Nat) (q : Plane) : Bool :=
  let lead := q.leadRounds h (s.getF (F.CEL_LEAD_LINES q.station))
  (List.range (q.rounds h)).all fun j => Nat.blt j lead || Nat.ble (ceilDiv (q.dramBytes j) 4096) (s.slotGrans q)

/-- The lead the admission unit reads for a plane (R207). -/
def State.celLead (s : State) (h : Nat) (q : Plane) : Nat :=
  if s.flag (F.DEC_STATUS_WIN_SHORT q.station) || !s.fitsWindow h q then 0 else s.getF (F.CEL_LEAD_LINES q.station)

/-- Window reserves of all stations together: free granules the Press and refill leave alone (R205). -/
def State.reserves (s : State) : Nat := ((List.range 6).map fun i => s.getF (F.DEC_WIN_GRAN i)).foldl (· + ·) 0

/-- Free granules that the Press and refill may take. -/
def State.granAvail (s : State) : Nat := s.getF F.CEL_GRAN_FREE - s.reserves

/-- The need of a plane at this moment: none where it fails its lead, 0 where it is wholly resident. -/
def State.planeNeed (s : State) (h : Nat) (q : Plane) : Option Nat :=
  if q.allResident h then some 0
  else
    let lead := s.celLead h q
    if lead = 0 then none
    else if q.residentLead h < q.effectiveLead h lead then none
    else some (q.demand h (s.getF (F.EXP_LINE_MAX q.station)) (s.getF F.CEL_MARGIN))

/-- The admission function of R182. -/
def State.admission (s : State) (p : Page) (olderResWait : Bool) : Admit :=
  if p.damaged then .damaged
  else if p.planes.any fun q => q.gen != s.cel.genInForce[q.station] then .geometry
  else
    let needs := p.planes.map fun q => (q.station.val, s.planeNeed p.lines q)
    if needs.any fun x => x.2.isNone then .residency
    else
      let need := (List.range 6).map fun i =>
        ((needs.filter fun x => x.1 == i).map fun x => x.2.getD 0).foldl max 0
      let add := ((List.range 6).map fun i => need.getD i 0 - (s.getR (R.RCK_RES i)).toNat).foldl (· + ·) 0
      if 0 < add ∧ olderResWait then .olderWaiting
      else if (s.getR R.RCK_RES_CAP).toNat < (s.getR R.RCK_RES_TOTAL).toNat + add then .resCap
      else .ok need (p.planes.any fun q => !q.allResident p.lines)

/-- Raise the station reservations to the needs of a page that commits. -/
def State.raiseRes (s : State) (need : List Nat) : State :=
  s.forEach 6 fun a i =>
    let old := (a.getR (R.RCK_RES i)).toNat
    let v := max old (need.getD i 0)
    (a.putR (R.RCK_RES i) (BitVec.ofNat 32 v)).putR R.RCK_RES_TOTAL (BitVec.ofNat 32 ((a.getR R.RCK_RES_TOTAL).toNat + (v - old)))

/-- Evaluate one STORED page; the answer carries `older_res_wait` for the rest of the pass (R183). While the granule
audit has failed or RINSE_NEEDED is set, nothing commits (R192, R374). (DEDUCED: log 42) -/
def State.evaluate (s : State) (p : Page) (wait : Bool) : State × Bool :=
  let r := s.admission p wait
  let lastNeed := (p.planes.map fun q => (s.planeNeed p.lines q).getD 0).foldl max 0
  match r with
  | .ok need condB =>
    if s.flag F.CEL_STATUS_AUDIT_FAIL || s.flag F.LDG_STATUS_RINSE_NEEDED then
      (s.updPage p.tag fun x => { x with reason := 0, lastNeed := lastNeed }, wait)
    else
      let planes := p.planes.map fun q => { q with need := (s.planeNeed p.lines q).getD 0, condB := !q.allResident p.lines }
      let s := s.raiseRes need
      let s := s.updPage p.tag fun x => { x with
        st := .committed, reason := 0, lastNeed := lastNeed, planes := planes, commitAt := some s.tsc }
      let s := s.incR (if condB then R.CEL_COMMIT_B else R.CEL_COMMIT_A) 1
      (s.fire 0x08 0 true, wait)
  | r => (s.updPage p.tag fun x => { x with reason := r.code, lastNeed := lastNeed }, wait || r == .resCap)

/-- One pass over the STORED pages in submission order (R183). -/
def State.admitPass (s : State) : State :=
  ((s.cel.pages.filter fun p => p.st == .stored).foldl (fun (a : State × Bool) p => a.1.evaluate p a.2) (s, false)).1

/-! ## Eviction (R187, R191) -/

/-- A granule of a chain: the round of the first block that touches it. -/
def Plane.granRound (q : Plane) (i : Nat) : Nat := match q.blocks.find? fun b => b.grans.contains i with
  | some b => b.round
  | none => 0

/-- Insert by descending round. -/
def insertDesc (x : Nat × Nat × Nat) : List (Nat × Nat × Nat) → List (Nat × Nat × Nat)
  | [] => [x]
  | a :: r => if a.1 < x.1 then x :: a :: r else a :: insertDesc x r

/-- Cellar granules of a page as (round, plane, chain index), highest round first. -/
def Page.cellarGrans (p : Page) : List (Nat × Nat × Nat) :=
  ((p.planes.zipIdx).flatMap fun qi =>
    ((qi.1.chain.zipIdx).filter fun gi => gi.1.inCellar).map fun gi => (qi.1.granRound gi.2, qi.2, gi.2)).foldr insertDesc []

def State.isLead (s : State) (p : Page) (x : Nat × Nat × Nat) : Bool := match p.planes[x.2.1]? with
  | some q => Nat.blt x.1 (q.leadRounds p.lines (s.getF (F.CEL_LEAD_LINES q.station)))
  | none => false

/-- The granules of a page that may be evicted and meet `keep`: none that is on its way, being written, or a lead-round
granule of the page in the Press (R187). -/
def State.victimsOf (s : State) (p : Page) (keep : Nat × Nat × Nat → Bool) : List (Word × Nat × Nat) :=
  let busy := fun (x : Nat × Nat × Nat) =>
    (s.cel.evicting ++ s.cel.refilling).any fun e => e.1 == p.tag && e.2.1 == x.2.1 && e.2.2.1 == x.2.2
  let writing := fun (x : Nat × Nat × Nat) => p.st == .inPress && (match p.planes[x.2.1]? with
    | some q => x.2.2 + 1 == q.chain.length
    | none => false)
  (p.cellarGrans.filter fun x => keep x && !busy x && !writing x && !(p.st == .inPress && s.isLead p x)).map
    fun x => (p.tag, x.2.1, x.2.2)

/-- Does the granule lie in a retiring bank? -/
def State.inRetiring (s : State) (p : Page) (x : Nat × Nat × Nat) : Bool :=
  match (p.planes[x.2.1]?).bind fun q => q.chain[x.2.2]? with
  | some (.cellar n) => (s.getR R.CEL_BANK_RETIRING).getLsbD (n / 256)
  | _ => false

/-- Pages whose granules are not locked (R179). -/
def State.unlocked (s : State) : List Page := s.cel.pages.filter fun p => p.st != .committed && p.st != .picked

/-- Unlocked granules of retiring banks (R191). -/
def State.retiringVictims (s : State) : List (Word × Nat × Nat) := s.unlocked.flatMap fun p => s.victimsOf p (s.inRetiring p)

/-- RETAINED pages in order of entry. -/
def State.retainedPages (s : State) : List Page :=
  (s.unlocked.filter fun p => p.st == .retained).foldr (fun p l =>
    (l.filter fun (y : Page) => Nat.blt y.retainedAt p.retainedAt) ++ [p] ++ l.filter fun y => !Nat.blt y.retainedAt p.retainedAt) []

/-- Victims in the order of Table 8-2, granules of retiring banks first (R191). -/
def State.victims (s : State) : List (Word × Nat × Nat) :=
  let other := fun (p : Page) (keep : Nat × Nat × Nat → Bool) => s.victimsOf p fun x => !s.inRetiring p x && keep x
  let young := (s.unlocked.filter fun p => p.st == .stored || p.st == .inPress).reverse
  s.retiringVictims
    ++ s.retainedPages.flatMap (fun p => other p fun _ => true)
    ++ young.flatMap (fun p => other p fun x => !s.isLead p x)
    ++ (young.filter fun p => p.st == .stored).flatMap fun p => other p (s.isLead p)

/-- A free DRAM granule. -/
def State.freeDram (s : State) : Option Nat :=
  if s.getF F.CEL_DGRAN_FREE = 0 then none
  else (List.range (s.cel.dramUsed.length + 1)).find? fun n => !s.cel.dramUsed.contains n

/-- Start one eviction if a victim and a DRAM granule exist (R187); the answer says whether one started. (DEDUCED: log 43) -/
def State.startEviction (s : State) : State × Bool :=
  match s.victims, s.freeDram with
  | v :: _, some d =>
    let s := { s with cel := { s.cel with evicting := s.cel.evicting ++ [(v.1, v.2.1, v.2.2, d)], dramUsed := d :: s.cel.dramUsed } }
    let s := s.putF F.CEL_DGRAN_FREE (s.getF F.CEL_DGRAN_FREE - 1)
    ((s.putB F.CEL_STATUS_DRAM_FULL (s.getF F.CEL_DGRAN_FREE == 0)).putB F.CEL_STATUS_EVICTING true, true)
  | _, _ => (s, false)

end Sys2Proof.Machine
end

