-- ==== Sys2Proof/Machine/Zrb.lean ====
section
/-! DEFINITION. Machine/Zrb.lean: the ZRB block format (chapter 7): header, line images, canonical codes, the decoder
with its validity rules (R172), the decode-cycle count (R169) and the Press's own coding rules (R174, R175). -/

namespace Sys2Proof.Machine.Zrb

/-- The fixed header of a block (Table 7-1). -/
structure Hdr where
  depth : Nat
  tmode : Nat
  width : Nat
  lines : Nat
  symbols : Nat
  codedLen : Nat
  dcycles : Nat
  crc : Nat
  flags : Nat
  deriving DecidableEq, Repr

/-- Bits per dot of a DEPTH code. -/
def dotBits (depth : Nat) : Nat := 2 ^ depth

/-- Bytes of a line image (R158). -/
def lineBytes (w d : Nat) : Nat := ceilDiv (w * d) 8

def field (bs : List Byte) (off n : Nat) : Nat := ofLeBytes ((bs.drop off).take n)

/-- Read the header, refusing a wrong magic, version or reserved field (R172, rules 1 and 2), FLAGS aside: a Decanter
ignores it (R157). -/
def anyHdr (bs : List Byte) : Option Hdr :=
  let b3 := field bs 3 1
  let h : Hdr := { depth := b3 % 4, tmode := (b3 / 4) % 8, width := field bs 4 4, lines := field bs 8 2,
                   symbols := field bs 12 4, codedLen := field bs 16 4, dcycles := field bs 20 4, crc := field bs 24 4,
                   flags := field bs 28 4 }
  if 32 ≤ bs.length ∧ field bs 0 2 = 0x5A52 ∧ field bs 2 1 = 1 ∧ b3 / 32 = 0 ∧ field bs 10 2 = 0 ∧ h.depth ≤ 2 ∧ h.tmode ≤ 5 ∧
      1 ≤ h.width ∧ h.width ≤ 32768 ∧ 1 ≤ h.lines ∧ h.lines ≤ 64 then some h
  else none

/-- Read the header with its FLAGS (Table 7-2). -/
def readHdr (bs : List Byte) : Option Hdr :=
  (anyHdr bs).bind fun h => if h.flags / 4 = 0 ∧ (h.tmode = 5 ∨ h.flags = 0) then some h else none

/-- Write the header. -/
def Hdr.bytes (h : Hdr) : List Byte :=
  leBytes 2 0x5A52 ++ leBytes 1 1 ++ leBytes 1 (h.depth + 4 * h.tmode) ++ leBytes 4 h.width ++ leBytes 2 h.lines ++ leBytes 2 0
    ++ leBytes 4 h.symbols ++ leBytes 4 h.codedLen ++ leBytes 4 h.dcycles ++ leBytes 4 h.crc ++ leBytes 4 h.flags

/-- The low `n` bits of `v`, least significant first. -/
def lsbBits : Nat → Nat → List Bool
  | 0, _ => []
  | n + 1, v => (v % 2 == 1) :: lsbBits n (v / 2)

/-- The number whose bits, least significant first, these are. -/
def ofBits : List Bool → Nat
  | [] => 0
  | b :: r => boolNat b + 2 * ofBits r

/-- A byte sequence as bits (R161). -/
def toBits (bs : List Byte) : List Bool := bs.flatMap fun b => lsbBits 8 b.toNat

/-- Bits packed into bytes, the last byte filled with zeros. -/
def packBits : Nat → List Bool → List Byte
  | 0, _ => []
  | n + 1, l => BitVec.ofNat 8 (ofBits (l.take 8)) :: packBits n (l.drop 8)

/-- The line image of a line of dots (R158). -/
def image (d : Nat) (line : List Nat) : List Byte :=
  packBits (lineBytes line.length d) (line.flatMap fun v => lsbBits d v)

/-- The dots of a line image. -/
def dotsOf (d : Nat) : Nat → List Bool → List Nat
  | 0, _ => []
  | n + 1, l => ofBits (l.take d) :: dotsOf d n (l.drop d)

def linesCrc (d : Nat) (ls : List (List Nat)) : Nat := (crc32c (ls.flatMap (image d))).toNat

/-! ## Canonical codes (R166) -/

/-- The first code of length `n`. -/
def firstCode (L : List Nat) : Nat → Nat
  | 0 => 0
  | n + 1 => 2 * (firstCode L n + (if n = 0 then 0 else L.count n))

/-- The code of symbol `s`. -/
def codeOf (L : List Nat) (s : Nat) : Nat :=
  let n := L.getD s 0
  firstCode L n + (L.take s).count n

/-- Sum of 2^(15 − L) over the present symbols. -/
def kraft (L : List Nat) : Nat := (L.map fun n => if n = 0 then 0 else 2 ^ (15 - n)).foldl (· + ·) 0

/-- A table meets R166: the sum is exactly 1, or one symbol alone has length 1. -/
def tableOk (L : List Nat) : Bool :=
  L.all (fun n => Nat.ble n 15) && (kraft L == 2 ^ 15 || (L.filter (· != 0)) == [1])

/-- Read one prefix code, most significant bit first. -/
def readCode (L : List Nat) : Nat → Nat → Nat → List Bool → Option (Nat × List Bool)
  | 0, _, _, _ => none
  | fuel + 1, n, acc, l =>
    match l with
    | [] => none
    | b :: r =>
      let c := 2 * acc + boolNat b
      match (List.range 51).find? fun s => L.getD s 0 == n + 1 && codeOf L s == c with
      | some s => some (s, r)
      | none => readCode L fuel (n + 1) c r

/-- Code lengths of the static tables 0 to 3 (Tables 7-5 and 7-6). -/
def staticTable (t : Nat) : List Nat :=
  let pick := fun (a b c e : Nat) => if t = 0 then a else if t = 1 then b else if t = 2 then c else e
  let lits := [pick 6 4 4 7, pick 6 4 6 7] ++ List.replicate 2 (pick 13 6 6 7) ++ List.replicate 11 (pick 13 14 6 7) ++ [pick 13 14 4 7]
  let copy :=
    if t = 0 then [4, 5, 5, 5, 5, 5, 6, 6, 6, 7, 7, 8, 8, 9, 10, 10]
    else if t = 1 then [3, 4, 4, 5, 5, 5, 6, 6, 7, 7, 8, 9, 10, 11, 12, 12]
    else if t = 2 then [4, 4, 5, 5, 6, 6, 7, 7, 8, 8, 9, 10, 11, 12, 13, 13]
    else [5, 5, 5, 5, 6, 6, 6, 6, 7, 7, 7, 7, 8, 8, 9, 9]
  let fill :=
    if t = 0 then [5, 5, 5, 6, 6, 7, 7, 8, 8, 8, 9, 9, 10, 11, 11, 12]
    else if t = 1 then [4, 4, 5, 5, 6, 6, 8, 10, 10, 12, 12, 12, 13, 13, 13, 13]
    else if t = 2 then [4, 5, 5, 6, 6, 7, 7, 8, 8, 8, 8, 10, 10, 10, 11, 11]
    else [4, 4, 4, 5, 5, 5, 6, 6, 7, 7, 9, 10, 11, 12, 13, 13]
  lits ++ copy ++ fill ++ [pick 2 3 4 3, pick 2 4 5 3, pick 6 5 3 4]

/-- Read the 26-byte code-length section (R167). -/
def readLengths (bs : List Byte) : Option (List Nat) :=
  if bs.length < 26 ∨ (bs.getD 25 0).toNat / 16 ≠ 0 then none
  else some ((List.range 51).map fun s =>
    let b := (bs.getD (s / 2) 0).toNat
    if s % 2 = 0 then b % 16 else b / 16)

/-- Write the code-length section. -/
def writeLengths (L : List Nat) : List Byte :=
  (List.range 26).map fun i => BitVec.ofNat 8 (L.getD (2 * i) 0 + 16 * L.getD (2 * i + 1) 0)

/-! ## Decoding (R162–R165, R169) -/

/-- Base and extra-bit count of a run-length class (Table 7-4). -/
def runBase (c : Nat) : Nat := if c = 0 then 1 else if c = 1 then 2 else 2 ^ (c - 1) + 1
def runExtra (c : Nat) : Nat := c - 1

/-- The decoder between symbols: the line so far (last dot first), the reference line from `x` on and whole, the lines
done (last first), the cycles counted and the bits left. -/
structure Dec where
  x : Nat := 0
  out : List Nat := []
  refRest : List Nat
  ref : List Nat
  done : List (List Nat) := []
  cyc : Nat := 0
  bits : List Bool
  deriving DecidableEq, Repr

/-- Append dots to the line; a full line becomes the reference line of the next. -/
def Dec.put (w : Nat) (s : Dec) (dots : List Nat) (cyc : Nat) (bits : List Bool) : Dec :=
  let x := s.x + dots.length
  let out := dots.reverse ++ s.out
  if x = w then
    let l := out.reverse
    { x := 0, out := [], refRest := l, ref := l, done := l :: s.done, cyc := s.cyc + cyc, bits := bits }
  else { s with x := x, out := out, refRest := s.refRest.drop dots.length, cyc := s.cyc + cyc, bits := bits }

/-- Decode one symbol; none where it breaks R165 or R166. -/
def decodeSym (L : List Nat) (w d : Nat) (s : Dec) : Option Dec :=
  match readCode L 15 0 0 s.bits with
  | none => none
  | some (y, bs) =>
    if y < 16 then (if y < 2 ^ d then some (s.put w [y] 1 bs) else none)
    else if y < 48 then
      let c := y % 16
      let e := runExtra c
      let r := runBase c + ofBits (bs.take e)
      if bs.length < e ∨ w < s.x + r then none
      else
        let dots := if y < 32 then s.refRest.take r else List.replicate r (s.out.headD 0)
        some (s.put w dots (ceilDiv r 16) (bs.drop e))
    else if y = 48 then (if s.x = 0 then some (s.put w s.ref (ceilDiv w 16) bs) else none)
    else if y = 49 then (if s.x = 0 then some (s.put w (List.replicate w 0) (ceilDiv w 16) bs) else none)
    else
      let m := min 16 (w - s.x)
      if bs.length < m * d then none else some (s.put w (dotsOf d m bs) 1 (bs.drop (m * d)))

/-- Decode symbols until `n` lines are done or a symbol breaks a rule: what a Decanter completes (R173). -/
def decodeRun (L : List Nat) (w d n : Nat) : Nat → Dec → Dec × Bool
  | 0, s => (s, true)
  | k + 1, s =>
    if s.done.length = n then (s, false)
    else match decodeSym L w d s with
      | none => (s, false)
      | some s' => decodeRun L w d n k s'

/-- The code table of a coded block, with the bitstream after it. -/
def tableOf (h : Hdr) (payload : List Byte) : Option (List Nat × List Byte) :=
  if h.tmode < 4 then some (staticTable h.tmode, payload)
  else match readLengths payload with
    | some L => if tableOk L then some (L, payload.drop 26) else none
    | none => none

/-- Lines of a stored-form payload. -/
def storedLines (h : Hdr) (payload : List Byte) : List (List Nat) :=
  let d := dotBits h.depth
  let n := lineBytes h.width d
  (List.range h.lines).map fun i => dotsOf d h.width (toBits ((payload.drop (i * n)).take n))

/-- Round up to a multiple of 8. -/
def up8 (n : Nat) : Nat := 8 * ceilDiv n 8

/-- Validity of a block (R172), with its lines; none for a block that breaks a rule. -/
def validate (bs : List Byte) : Option (Hdr × List (List Nat)) :=
  match readHdr bs with
  | none => none
  | some h =>
    let d := dotBits h.depth
    let payload := bs.drop 32
    let bound := ceilDiv (h.lines * h.width) 16
    if payload.length ≠ h.codedLen ∨ bs.length % 8 ≠ 0 then none
    else if h.tmode = 5 then
      let n := h.lines * lineBytes h.width d
      let ls := storedLines h payload
      if h.symbols = 0 ∧ h.codedLen = up8 (32 + n) - 32 ∧ h.dcycles = bound ∧ linesCrc d ls = h.crc
          ∧ ls.flatMap (image d) = payload.take n ∧ (payload.drop n).all (· == 0) then some (h, ls)
      else none
    else
      match tableOf h payload with
      | none => none
      | some (L, stream) =>
        let z := List.replicate h.width 0
        let bits := toBits stream
        let r := decodeRun L h.width d h.lines h.symbols { refRest := z, ref := z, bits := bits }
        let usedBytes := ceilDiv (bits.length - r.1.bits.length) 8
        let sec := if h.tmode = 4 then 26 else 0
        let ls := r.1.done.reverse
        if r.2 ∧ r.1.x = 0 ∧ ls.length = h.lines ∧ r.1.bits.all (· == false)
            ∧ h.codedLen = up8 (32 + sec + usedBytes) - 32 ∧ h.dcycles = r.1.cyc ∧ h.dcycles ≤ bound ∧ linesCrc d ls = h.crc
          then some (h, ls)
        else none

/-- Opening a block (R197): its header is checked (R172) and the code lengths are read, none in stored form; no answer where
either breaks a rule. -/
def openTable (bs : List Byte) : Option (List Nat) :=
  (anyHdr bs).bind fun h => if h.tmode = 5 then some [] else (tableOf h (bs.drop 32)).map Prod.fst

/-- The lines of a block opened with the code lengths `L` that the Decanter completes before the first symbol that breaks R172
(R173). -/
def linesBy (L : List Nat) (bs : List Byte) : List (List Nat) :=
  match anyHdr bs with
  | none => []
  | some h =>
    let payload := bs.drop 32
    if h.tmode = 5 then storedLines h payload
    else
      let z := List.replicate h.width 0
      let stream := if h.tmode = 4 then payload.drop 26 else payload
      (decodeRun L h.width (dotBits h.depth) h.lines h.symbols { refRest := z, ref := z, bits := toBits stream }).1.done.reverse

/-- What a Decanter obtains of a block. A fault that shows at no symbol, a CRC, a count or padding, leaves every line decoded. (DEDUCED: log 81) -/
def decodeLines (bs : List Byte) : List (List Nat) := match openTable bs with
  | some L => linesBy L bs
  | none => []

/-! ## The Press's coding rules (R174, R175) -/

/-- A symbol to be written: its number, and the bits that follow its code. -/
abbrev Sym := Nat × List Bool

/-- Kind of a 16-dot group (R174, rule 4). -/
inductive Kind where
  | c | f | p
  deriving DecidableEq, Repr

/-- The class of a run length. -/
def runClass (r : Nat) : Nat := if r ≤ 1 then 0 else if r = 2 then 1 else Nat.log2 (r - 1) + 1

def runSym (base r : Nat) : Sym := (base + runClass r, lsbBits (runExtra (runClass r)) (r - runBase (runClass r)))

/-- Groups of a line with their kinds; `prev` is the dot before the group and `last` the kind of the group before it. -/
def groups : Nat → List Nat → List Nat → Nat → Kind → List (Kind × List Nat)
  | 0, _, _, _, _ => []
  | n + 1, line, ref, prev, last =>
    let g := line.take 16
    let isC := g == ref.take 16
    let isF := g.all (· == prev)
    let k := if isC && isF then (if last = .f then Kind.f else .c) else if isC then .c else if isF then .f else .p
    (k, g) :: groups n (line.drop 16) (ref.drop 16) (g.getLastD prev) k

/-- Maximal runs become COPY and FILL, each P group a LITERAL_PACK (R174, rules 6 and 7). -/
def emit (d : Nat) : List (Kind × List Nat) → Option (Kind × Nat) → List Sym
  | [], none => []
  | [], some (k, r) => [runSym (if k = .c then 16 else 32) r]
  | (k, g) :: rest, acc =>
    match acc with
    | some (k', r) =>
      if k = k' ∧ k ≠ .p then emit d rest (some (k, r + g.length))
      else runSym (if k' = .c then 16 else 32) r ::
        (if k = .p then (50, g.flatMap (lsbBits d)) :: emit d rest none else emit d rest (some (k, g.length)))
    | none => if k = .p then (50, g.flatMap (lsbBits d)) :: emit d rest none else emit d rest (some (k, g.length))

/-- The symbols of one line (R174). -/
def codeLine (d : Nat) (line ref : List Nat) : List Sym :=
  if line.all (· == 0) then [(49, [])]
  else if line = ref then [(48, [])]
  else emit d (groups (ceilDiv line.length 16) line ref 0 .p) none

/-- The symbols of a block's lines. -/
def codeLines (d : Nat) : List (List Nat) → List Nat → List Sym
  | [], _ => []
  | l :: r, ref => codeLine d l ref ++ codeLines d r l

/-- Cost of a written symbol in Decanter cycles (Table 7-8). -/
def symCost (w : Nat) (s : Sym) : Nat :=
  if s.1 < 16 then 1
  else if s.1 < 48 then ceilDiv (runBase (s.1 % 16) + ofBits s.2) 16
  else if s.1 < 50 then ceilDiv w 16 else 1

/-- A node of the merge: its weight and the symbols under it with their depths. -/
abbrev Node := Nat × List (Nat × Nat)

def insertNode (x : Node) : List Node → List Node
  | [] => [x]
  | a :: r => if a.1 ≤ x.1 then a :: insertNode x r else x :: a :: r

def merge : Nat → List Node → List Node
  | 0, l => l
  | n + 1, a :: b :: r => merge n (insertNode (a.1 + b.1, (a.2 ++ b.2).map fun p => (p.1, p.2 + 1)) r)
  | _ + 1, l => l

/-- Lengths limited to 15 bits (R175, rule 3): lengthen while the sum exceeds 1, then shorten while it is below 1. -/
def lengthen (cnt : Nat → Nat) : Nat → List Nat → List Nat
  | 0, L => L
  | n + 1, L =>
    if kraft L ≤ 2 ^ 15 then L
    else
      let best := (List.range 51).foldl (fun b s =>
        let v := L.getD s 0
        if v = 0 ∨ 15 ≤ v then b
        else match b with
          | none => some s
          | some t => if L.getD t 0 < v ∨ (L.getD t 0 = v ∧ cnt s < cnt t) then some s else some t) (none : Option Nat)
      match best with
      | none => L
      | some s => lengthen cnt n (L.set s (L.getD s 0 + 1))

def shorten (cnt : Nat → Nat) : Nat → List Nat → List Nat
  | 0, L => L
  | n + 1, L =>
    if 2 ^ 15 ≤ kraft L then L
    else
      let best := (List.range 51).foldl (fun b s =>
        let v := L.getD s 0
        if v = 0 then b
        else match b with
          | none => some s
          | some t => if L.getD t 0 < v ∨ (L.getD t 0 = v ∧ cnt t ≤ cnt s) then some s else some t) (none : Option Nat)
      match best with
      | none => L
      | some s => shorten cnt n (L.set s (L.getD s 0 - 1))

/-- Code lengths of a dynamic block from its symbol counts (R175). -/
def dynLengths (syms : List Sym) : List Nat :=
  let cnt := fun s => (syms.filter fun y => y.1 == s).length
  let leaves := ((List.range 51).filter fun s => cnt s != 0).foldl
    (fun (l : List Node) s => insertNode (cnt s, [(s, 0)]) l) []
  let L0 := List.replicate 51 0
  match leaves with
  | [(_, [(s, _)])] => L0.set s 1
  | _ =>
    let m := merge 60 leaves
    let L := ((m.headD (0, [])).2).foldl (fun a p => a.set p.1 p.2) L0
    if L.all fun n => Nat.ble n 15 then L
    else shorten cnt 4000000 (lengthen cnt 4000000 (L.map fun n => min n 15))

/-- The stored form of a block (R159). -/
def storedForm (depth : Nat) (ls : List (List Nat)) (w flags : Nat) : List Byte :=
  let d := dotBits depth
  let imgs := ls.flatMap (image d)
  let len := up8 (32 + imgs.length) - 32
  Hdr.bytes { depth := depth, tmode := 5, width := w, lines := ls.length, symbols := 0, codedLen := len,
              dcycles := ceilDiv (ls.length * w) 16, crc := linesCrc d ls, flags := flags }
    ++ imgs ++ List.replicate (len - imgs.length) 0

/-- The coded form of a block under table mode `tmode` (R174, R175). -/
def codedForm (depth tmode : Nat) (ls : List (List Nat)) (w : Nat) : List Byte :=
  let d := dotBits depth
  let syms := codeLines d ls (List.replicate w 0)
  let L := if tmode < 4 then staticTable tmode else dynLengths syms
  let bits := syms.flatMap fun s => (lsbBits (L.getD s.1 0) (codeOf L s.1)).reverse ++ s.2
  let sec := if tmode = 4 then writeLengths L else []
  let body := sec ++ packBits (ceilDiv bits.length 8) bits
  let len := up8 (32 + body.length) - 32
  Hdr.bytes { depth := depth, tmode := tmode, width := w, lines := ls.length, symbols := syms.length, codedLen := len,
              dcycles := (syms.map (symCost w)).foldl (· + ·) 0, crc := linesCrc d ls, flags := 0 }
    ++ body ++ List.replicate (len - body.length) 0

/-- What a lane emits (R148): the coded form if it is fast enough and smaller, else the stored form with BOUND. -/
def emitBlock (depth tmode : Nat) (ls : List (List Nat)) (w : Nat) : List Byte × Bool :=
  let c := codedForm depth tmode ls w
  let st := storedForm depth ls w 1
  let cyc := field c 20 4
  if cyc ≤ ceilDiv (ls.length * w) 16 ∧ c.length < st.length then (c, false) else (st, true)

end Sys2Proof.Machine.Zrb
end

