-- ==== Sys2Proof/Machine/OpsLine.lean ====
section
/-! DEFINITION. Machine/OpsLine.lean: line clocks and sweep clocks (R214–R220), the dot clock's frequency and alignment
(R226–R230), and the line buffers of the Carafe (R199, R200). -/

namespace Sys2Proof.Machine

def State.stnOf (s : State) (i : Fin 6) : Station := s.stn[i]

def State.updStn (s : State) (i : Fin 6) (f : Station → Station) : State := { s with stn := s.stn.set i (f s.stn[i]) }

/-- Rounded-up division of an integer by a natural number. -/
def ceilInt (a : Int) (b : Nat) : Int := -(Int.fdiv (-a) b)

/-- Advance per sweep A of a station's geometry in force (R193). -/
def State.advOf (s : State) (i : Fin 6) : Nat :=
  max 1 (if s.flag (F.DEC_GEOM_SHINGLE i) then s.getF (F.DEC_GEOM_BEAMS i) / 2 else s.getF (F.DEC_GEOM_BEAMS i))

/-- Passes P of a station's geometry in force. -/
def State.passesOf (s : State) (i : Fin 6) : Nat := if s.flag (F.DEC_GEOM_SHINGLE i) then 2 else 1

/-- The SC channel bound to a station. -/
def State.scOf (s : State) (i : Fin 6) : Fin 18 := Fin.ofNat 18 (12 + s.getF (F.EXP_LCFG_SC i) % 6)

/-- One line with 24 fractional bits. -/
def oneLine : Int := 0x1000000

/-! ## Line clock (R214–R216) -/

/-- Φ: the drum's line phase by the latest sample (R214). -/
def LineClk.drum (k : LineClk) : Int := k.base + Int.fdiv (k.counts * 2 ^ 40) k.pitch

/-- Φ̂ at a TSC: it advances at the frequency that the last update set. -/
def LineClk.phaseAt (k : LineClk) (t : Nat) : Int := k.phase + Int.fdiv (k.freq * ((t : Int) - k.since)) (2 ^ 32)

/-- A sample of the bound channel. A new EXP_LPITCH or another channel goes on from the phase reached. -/
def LineClk.sample (k : LineClk) (pos : Word) (pitch chan : Nat) : LineClk :=
  if chan ≠ k.chan then { k with base := k.drum, counts := 0, pos := pos, pitch := pitch, chan := chan }
  else
    let k := { k with counts := k.counts + (pos - k.pos).toInt, pos := pos }
    if pitch ≠ k.pitch then { k with base := k.drum, counts := 0, pitch := pitch } else k

/-- The frequency of the line-rate ceiling EXP_LINE_MAX ÷ P (R215), in 2^-56 line per cycle. -/
def State.lineTop (s : State) (i : Fin 6) : Int := (s.getF (F.EXP_LINE_MAX i) * 2 ^ 56 / (s.passesOf i * 200000000) : Nat)

/-- The exposed line rate that a frequency gives, in lines/s. -/
def State.exposedRate (s : State) (i : Fin 6) (freq : Int) : Nat := (freq.toNat * s.passesOf i * 200000000) / 2 ^ 56

/-- A quotient whose rounding the spec leaves open. (DESIGN CHOICE: log 9) -/
def openDiv (a b : Int) : Int := Int.fdiv a b + (if Int.fmod a b ≠ 0 ∧ Config.lineUp a b then 1 else 0)

/-- The proportional term for a lag, in 2^-56 line per cycle: 2 × 0.707 × ω, with ω = 2π × 25 Hz × 2^BW, that is 2π × 2^BW ÷
8,000,000 a cycle (R214). The bandwidth is read as the loop's natural frequency. (DESIGN CHOICE: log 9) -/
def linePart (bw : Nat) (lag : Int) : Int :=
  openDiv (lag * (1414 * 2 * Fix.pi) * 2 ^ (bw + 32)) (8000000000 * Fix.unit)

/-- What an update adds to the integrator for a lag: ω² × 4,000 cycles. -/
def lineInteg (bw : Nat) (lag : Int) : Int :=
  openDiv (lag * (16000 * Fix.pi * Fix.pi) * 2 ^ (2 * bw + 32)) (64000000000000 * Fix.unit * Fix.unit)

/-- One update of the loop at TSC `now` (R214, R215); the answer says whether the clock is clamped. While it is, the
integrator does not wind up. -/
def LineClk.update (k : LineClk) (now bw : Nat) (top : Int) : LineClk × Bool :=
  let here := k.phaseAt now
  let lag := k.drum - here
  let integ := k.integ + lineInteg bw lag
  let want := integ + linePart bw lag
  let high := decide (top < want)
  ({ k with phase := here, since := now, lag := lag, freq := if high then top else want, integ := if high then k.integ else integ }, high)

/-- Is the rate within 2 % of the recorded one (R225)? -/
def near2 (a b : Nat) : Bool := Nat.ble (50 * (max a b - min a b)) b

/-! ## Sweep clock (R217, R220) -/

/-- Time of the next sweep-clock edge in 1/256 cycle, if the line clock runs forward. -/
def LineClk.edgeTime (k : LineClk) : Option Nat :=
  if k.freq ≤ 0 then none else some (256 * (k.since : Int) + ceilInt ((k.edge - k.phase) * 2 ^ 40) k.freq.toNat).toNat

/-- The next edge's time, if Φ̂ has crossed it by the end of this cycle. -/
def State.edgeDue (s : State) (i : Fin 6) : Option Nat :=
  (s.stnOf i).line.edgeTime.bind fun t => if t < 256 * (s.tsc.toNat + 1) then some t else none

/-- T_sweep, the present sweep-clock period, in 1/1,024 cycle. -/
def State.tSweep (s : State) (i : Fin 6) : Option Nat :=
  let k := (s.stnOf i).line
  let lines := if k.span = 0 then oneLine * s.advOf i else k.span
  if k.freq ≤ 0 then none else some (lines.toNat * 2 ^ 42 / k.freq.toNat)

/-- e of a BD at `bd` (1/1,024 cycle) in 1/65,536 sweep, against the nearest sweep-clock edge, the latest one or the next as the
NCO gives its time; e lies in (−0.5, 0.5] sweep (R220). -/
def State.phaseErr (s : State) (i : Fin 6) (bd : Nat) : Option Int :=
  match s.tSweep i, (s.stnOf i).line.edgeTime with
  | some t, some next =>
    if t = 0 then none
    else
      let since : Int := bd - 4 * (s.stnOf i).line.edgeAt
      let until_ : Int := 4 * next - bd
      let e := Int.fdiv (65536 * (if since.natAbs ≤ until_.natAbs then since else -until_)) t
      some (max (-32767) (min 32768 e))
  | _, _ => none

/-- Φ̂ advances by `n` lines without an edge (R232): the edge after it stays where it was in time. -/
def LineClk.jump (k : LineClk) (n : Int) : LineClk := { k with phase := k.phase + n, edge := k.edge + n, lag := k.lag - n }

/-- The edge at `t` (1/256 cycle) is taken: the next lies `lines` further. -/
def LineClk.step (k : LineClk) (t : Nat) (lines : Int) : LineClk := { k with edge := k.edge + lines, edgeAt := t, span := lines }

/-- The grid is laid anew: the next edge is the first at g + nA past Φ̂. -/
def LineClk.regrid (k : LineClk) (now : Nat) (g a : Int) : LineClk :=
  { k with edge := g + a * (Int.fdiv (k.phaseAt now - g) a + 1), span := 0 }

/-! ## Dot clock (R226–R230) -/

/-- FACETS of the station's polygon. -/
def State.polyOf (s : State) (i : Fin 6) : Fin 6 := Fin.ofNat 6 (s.getF (F.EXP_LCFG_POLY i))

def State.facets (s : State) (i : Fin 6) : Nat := s.getF (F.EXP_POLY_CFG_FACETS (s.polyOf i)) + 1

/-- The last FACETS BD-to-BD periods (R226): their sum in 1/1,024 cycle, and how many there are. (DEDUCED: log 47) -/
def State.facetSum (s : State) (i : Fin 6) : Option (Nat × Nat) :=
  let l := (s.stnOf i).bds
  match l.head?, l.getLast? with
  | some a, some b => if 2 ≤ l.length ∧ b < a then some (a - b, l.length - 1) else none
  | _, _ => none

/-- The target f = DPS × (1 + MAG × 10^-6) ÷ T_facet in Hz, as a fraction (R226). -/
def State.dclkTarget (s : State) (i : Fin 6) : Option (Nat × Nat) :=
  match s.facetSum i with
  | none => none
  | some (t, n) =>
    let dps := s.getF (F.EXP_DCLK_DPS i)
    if dps = 0 then none else some (dps * (1000000 + signed 13 (s.getF (F.EXP_DCLK_MAG i))).toNat * 204800 * n, t)

/-- A frequency in 1/1,000,000 Hz. -/
def microHz (num den : Nat) : Nat := num * 1000000 / den

/-- N = ⌈4,000 MHz ÷ f⌉. -/
def dclkN (num den : Nat) : Nat := ceilDiv (4000000000 * den) num

/-- EXP_DCLK_MAX in 1/1,000,000 Hz: the output never exceeds it (R228). -/
def State.dclkTop (s : State) (i : Fin 6) : Nat := s.getF (F.EXP_DCLK_MAX i) * 1000000000

/-- A new output frequency, clamped; EXP_DCLK_FREQ shows it. -/
def State.dclkOut (s : State) (i : Fin 6) (v : Nat) : State :=
  let v := min v (s.dclkTop i)
  (s.updStn i fun t => { t with dot := { t.dot with out := v } }).putF (F.EXP_DCLK_FREQ i) (v / 1000000000)

/-- A target above EXP_DCLK_MAX is clamped until it falls below it (R228). -/
def State.clampedFollow (s : State) (i : Fin 6) : State :=
  let d := (s.stnOf i).dot
  let f := microHz d.num d.den
  let top := s.dclkTop i
  if d.den = 0 then s
  else if top < f then s.putB (F.EXP_DCLK_STATUS_CLAMPED i) true
  else if f < top then s.putB (F.EXP_DCLK_STATUS_CLAMPED i) false else s

/-- The output moves from `out` toward `f` for a time `dt` (1/1,024 cycle) at no more than 1 ppm/µs (R227): what it reaches, and
the dots it has given on the way, the mean of both ends while it moves. -/
def slewCourse (out f dt : Nat) : Nat × Nat :=
  let lim := out * dt / 204800000000
  let gap := max out f - min out f
  if gap ≤ lim then
    let t1 := if out = 0 then 0 else min dt (gap * 204800000000 / out)
    (f, (out + f) * t1 / 2 + f * (dt - t1))
  else
    let v := if out ≤ f then out + lim else out - lim
    (v, (out + v) * dt / 2)

/-- The output has moved toward the target, or EXP_DCLK_MAX below it, until `now` (1/1,024 cycle) (R227, R228). -/
def State.dclkSlew (s : State) (i : Fin 6) (now : Nat) : State :=
  let d := (s.stnOf i).dot
  let f := if d.den = 0 then d.out else min (microHz d.num d.den) (s.dclkTop i)
  let r := slewCourse d.out f (now - d.at_)
  (s.updStn i fun t => { t with dot := { t.dot with at_ := now, gone := d.gone + r.2 } }).dclkOut i r.1

/-- The NCO goes to the target without a slew limit, and N is recomputed (R228). -/
def State.dclkJump (s : State) (i : Fin 6) (now : Nat) : State :=
  let s := s.dclkSlew i now
  let d := (s.stnOf i).dot
  if d.num = 0 ∨ d.den = 0 then s
  else (s.dclkOut i (microHz d.num d.den)).putF (F.EXP_DCLK_STATUS_N i) (dclkN d.num d.den)

/-- Steps applied when `n` dot periods have passed since the BD: none in the first 16, then at most one in each (R230). -/
def DotClk.applied (d : DotClk) (n : Nat) : Int := if d.steps < 0 then max d.steps (-((n - 16 : Nat) : Int)) else min d.steps (n - 16 : Nat)

/-- The dots since the latest BD, in 1/64 dot. -/
def DotClk.gone64 (d : DotClk) : Nat := d.gone * 64 / 204800000000000000

/-- The alignment after a BD at `bd` (R230): the dot edges, which lie where the steps applied so far have moved them, shift by a
whole number of 1/64-dot steps, at most 32 either way, so that one lies at EXP_DCLK_START after the BD, and the whole dots go
into the dot count. -/
def DotClk.align (d : DotClk) (bd start : Nat) : DotClk :=
  let left := d.steps - d.applied (d.gone64 / 64)
  let ofs : Int := ((d.start : Int) - left - d.gone64).emod 64
  let c := ((start : Int) - ofs).emod 64
  let steps := if c ≤ 32 then c else c - 64
  { d with bd := bd, start := start, steps := steps, dots := (((start : Int) - ofs - steps) / 64).toNat, gone := 0 }

/-! ## The Carafe's line buffers (R199, R200) -/

/-- The next 2-bit Gray code. -/
def gray2 (c : BitVec 2) : BitVec 2 :=
  match c with
  | 0#2 => 1#2 | 1#2 => 3#2 | 3#2 => 2#2 | _ => 0#2

/-- Does the Decanter hold a credit for the beam? -/
def Beam.credit (b : Beam) : Bool := b.bufA == BufSt.free || b.bufB == BufSt.free

/-- A buffer returns its credit once its drain has ended and the other buffer holds a complete line (R199); one that was passed
over, once the line after it is complete (R232). -/
def Beam.settle (b : Beam) : Beam :=
  let frees := fun (x y : BufSt) =>
    (x == BufSt.drained && (y == BufSt.complete || y == BufSt.draining || y == BufSt.passed)) || (x == BufSt.passed && y == BufSt.complete)
  if frees b.bufA b.bufB then { b with bufA := BufSt.free }
  else if frees b.bufB b.bufA then { b with bufB := BufSt.free } else b

/-- A line is complete in the free buffer. -/
def Beam.complete (b : Beam) : Beam :=
  (if b.bufA = BufSt.free then { b with bufA := BufSt.complete, completed := gray2 b.completed }
   else { b with bufB := BufSt.complete, completed := gray2 b.completed }).settle

/-- The drain of the buffer in drain has ended. -/
def Beam.endDrain (b : Beam) : Beam :=
  if b.bufA = BufSt.draining then { b with bufA := BufSt.drained, drained := gray2 b.drained }.settle
  else if b.bufB = BufSt.draining then { b with bufB := BufSt.drained, drained := gray2 b.drained }.settle else b

/-- The drain of the complete line begins. -/
def Beam.startDrain (b : Beam) : Beam :=
  if b.bufA = BufSt.complete then { b with bufA := BufSt.draining } else if b.bufB = BufSt.complete then { b with bufB := BufSt.draining } else b

/-- The block in a decode-table slot. -/
def Beam.slot (b : Beam) (st j : Nat) : Option OpenBlk := b.slots.find? fun x => x.stream == st && x.round == j

/-- A block is opened in a decode-table slot (R197): header and code lengths are read once; the slots hold the last two. -/
def Beam.openBlock (b : Beam) (k : Block) : Beam :=
  if (b.slot k.stream k.round).isSome then b
  else
    let x : OpenBlk := { stream := k.stream, round := k.round, table := Zrb.openTable k.data }
    { b with slots := (b.slots ++ [x]).drop (b.slots.length - 1) }

/-- The complete line is passed over: it is not drained, and counts as drained (R232). -/
def Beam.pass (b : Beam) : Beam :=
  if b.bufA = BufSt.complete then { b with bufA := BufSt.passed, drained := gray2 b.drained }.settle
  else if b.bufB = BufSt.complete then { b with bufB := BufSt.passed, drained := gray2 b.drained }.settle else b

def State.updBeams (s : State) (i : Fin 6) (f : Nat → Beam → Beam) : State := s.updStn i fun t => { t with beams := t.beams.mapIdx f }

end Sys2Proof.Machine
end

