-- ==== Sys2Proof/Machine/OpsStn.lean ====
section
/-! DEFINITION. Machine/OpsStn.lean: the operations stations share: sweeps and lines (R194, R195), gating and inhibiting
(R95, R202, R248), the exposure link's state (R250, R255), deferred fields (R40), emitter windows (R212, R213). -/

namespace Sys2Proof.Machine

/-- The plane of a page at station `i`. -/
def Page.planeAt (p : Page) (i : Fin 6) : Option Plane := p.planes.find? fun q => q.station == i

/-- The page at the station, with its plane. -/
def State.stnPage (s : State) (i : Fin 6) : Option (Page × Plane) :=
  match (s.stnOf i).page.bind s.page with
  | none => none
  | some p => (p.planeAt i).map fun q => (p, q)

/-- A register word as the last switch applied it (R39). -/
def State.appl (s : State) (off : Nat) : Word := SMap.get resetWord s.vin.applied off

def State.applF (s : State) (f : Fld) : Nat := bits (s.appl f.off) f.lo f.w

/-! ## Sweeps and lines (R194, R195) -/

/-- s_first. -/
def Geom.sFirst (g : Geom) : Int := ceilInt ((g.offset : Int) - ((g.beams - 1) * g.spacing : Nat)) g.adv

/-- s_last of a page of `h` lines. -/
def Geom.sLast (g : Geom) (h : Nat) : Int := Int.fdiv ((h : Int) - 1 + g.offset) g.adv

/-- The line that beam `b` writes in sweep `s`, if it is not blank. -/
def Geom.line (g : Geom) (h : Nat) (s : Int) (b : Nat) : Option Nat :=
  let l := s * g.adv + (b * g.spacing : Nat) - g.offset
  if l < 0 ∨ (h : Int) ≤ l then none else some l.toNat

/-- The pass a beam belongs to: 0 the first, 1 the second (R208). -/
def Geom.pass (g : Geom) (b : Nat) : Nat := if g.shingle && Nat.blt b g.adv then 1 else 0

/-- Stream, round and place within the block of page line `l` written by beam `b` (R195). -/
def Plane.place (q : Plane) (b l : Nat) : Nat × Nat × Nat :=
  let st := if q.geom.adv = 0 then 0 else b % q.geom.adv
  let i := if q.geom.adv = 0 then 0 else (l - q.geom.firstLine st) / q.geom.adv
  (st, i / q.gLines, i % q.gLines)

def Plane.block (q : Plane) (st j : Nat) : Option Block := q.blocks.find? fun b => b.stream == st && b.round == j

/-! ## Masks and tables (R208–R210) -/

/-- Byte of the exposure-table window. -/
def State.expo (s : State) (a : Nat) : Nat := (rdByte s.mem.expo a).toNat

/-- Row `r` of mask `m` of station `i` (Table 9-3). -/
def State.maskRow (s : State) (i m r : Nat) : Nat :=
  ofLeBytes ((List.range 4).map fun k => rdByte s.mem.expo (0x30000 + i * 0x100 + m * 0x40 + 4 * r + k))

/-- Does the mask in use give dot `x` of line `l` to the first pass? It is fixed at the top of page (R208). -/
def Station.maskBit (t : Station) (l x : Nat) : Bool := bit (t.maskRows.getD (l % 16) 0) (x % 32)

/-- Is dot `x` of line `l` exposed by pass `p` of the plane? -/
def State.exposes (s : State) (i : Fin 6) (g : Geom) (p l x : Nat) : Bool :=
  !g.shingle || ((s.stnOf i).maskBit l x == (p == 0))

/-- How many dots of line `l` pass `p` exposes. (DEDUCED: log 45) -/
def State.share (s : State) (i : Fin 6) (g : Geom) (p l : Nat) : Nat :=
  if g.shingle then ((List.range g.width).filter (s.exposes i g p l)).length else g.width

/-- Dots of all non-blank lines of a sweep. -/
def State.sweepDots (s : State) (i : Fin 6) (g : Geom) (h : Nat) (sw : Int) : Nat :=
  ((List.range g.beams).map fun b => match g.line h sw b with
    | some l => s.share i g (g.pass b) l
    | none => 0).foldl (· + ·) 0

/-- Is region `r` of station `i` valid? -/
def State.regionValid (s : State) (i r : Nat) : Bool := bit (s.expo (i * 0x8000 + 0x2400 + r)) 0

def State.anyRegion (s : State) (i : Nat) : Bool := (List.range 16).any (s.regionValid i)

/-- The valid region nearest to duty band `d` and temperature band `t`: ties to the lower temperature band, then to the
lower duty band (R210). -/
def State.nearRegion (s : State) (i d t : Nat) : Option Nat :=
  let dist := fun (r : Nat) => (max (r / 4) t - min (r / 4) t) + (max (r % 4) d - min (r % 4) d)
  (List.range 7).findSome? fun k => (List.range 16).find? fun r => dist r == k && s.regionValid i r

/-- The tables of region `r` for the emitters of the window (R210): 16 head codes for each beam. -/
def State.copyTable (s : State) (i : Fin 6) (beams w r : Nat) : List (List Nat) :=
  (List.range beams).map fun b => (List.range 16).map fun v => (s.expo (i * 0x8000 + (b + w) * 0x100 + r * 0x10 + v)) % 64

/-- The region copy that R210 chooses for the station's next page. -/
def State.regionTable (s : State) (i : Fin 6) : List (List Nat) :=
  match s.nearRegion i (s.stnOf i).dutyNext (s.stnOf i).tempNext with
  | none => []
  | some r => s.copyTable i (s.getF (F.DEC_GEOM_BEAMS i)) (s.getF (F.DEC_STATUS_WIN_BASE i)) r

/-- The temperature band THM reports for a station (R209, R354): the selector's band, or 0 where none is set. -/
def State.expBand (s : State) (i : Fin 6) : Nat :=
  let v := bits (s.getR R.THM_EXP_SEL) (4 * i) 4
  if bit v 3 then s.getF (F.THM_BAND_STAT_BAND (v % 8)) else 0

/-! ## Gating (R95, R202, R216, R332, R367, R398, R440) -/

/-- A paper-out input at its active level gates the station (R332). -/
def State.paperOut (s : State) (i : Fin 6) : Bool :=
  (List.range 4).any fun k => s.flag (F.MOV_PAPEROUT_EN k) && s.bitF (F.MOV_PAPEROUT_MASK k) i
    && s.getF (F.SNS_STATE_LEVEL (s.getF (F.MOV_PAPEROUT_SN k))) == s.getF (F.MOV_PAPEROUT_LEVEL k)

/-- A tripped HV channel gates its station (R367), as the latest upward frame shows it. -/
def State.hvTrip (s : State) (i : Fin 6) : Bool :=
  (List.range 24).any fun c => s.getF (F.HVS_CFG_STATION c) == i.val && bits (SMap.get resetWord s.up (R.HVS_STATUS c)) 0 3 == 4

/-- Everything that gates a page being exposed. -/
def State.gatedNow (s : State) (i : Fin 6) : Bool :=
  s.getF (F.EXL_STATUS_STATE i) != 5 || s.getF (F.EXP_DCLK_STATUS_STATE i) != 2 || s.getF (F.EXP_STATUS_LOCK i) != 2
    || s.flag (F.EXP_DCLK_STATUS_CLAMPED i) || s.flag (F.FBK_STATUS_SIG_FAULT (s.scOf i)) || s.flag (F.EXP_STATUS_LOW_RATE i)
    || s.flag (F.EXL_STATUS_LEN_MISMATCH i) || s.flag F.BRG_STATUS_LOST || s.bitF F.BRG_STATUS_LINES 1
    || s.bitF F.BRG_STATUS_LINES 2 || s.bitF F.MOV_JAM_GATE i || s.paperOut i || s.hvTrip i
    || (s.flag F.CHN_STATUS_STOPPED && s.bitF F.CHN_STOP_MASK_STATIONS i)

/-- STATION_NOT_READY (Table 4-7): what gates a page, and what gates a station from its page gap on; OVERSPEED gates once the
page that raised it is over (R233). -/
def State.notReady (s : State) (i : Fin 6) : Bool :=
  s.gatedNow i || s.flag (F.EXL_STATUS_RATE_LIMIT i) || (s.flag (F.EXP_STATUS_OVERSPEED i) && s.getF (F.DEC_STATUS_STATE i) != 3) || s.flag (F.EXP_STATUS_SLEWING i)
    || !s.anyRegion i || (s.stnOf i).conGate || !s.flag (F.DEC_GEOM_EN i)

/-- Count lost dots of a page. -/
def State.loseDots (s : State) (i : Fin 6) (n : Nat) : State :=
  (s.addP (R.DEC_DOTS_LOST_LO i) n).updStn i fun t => { t with lost := t.lost + n }

/-- The sheet of the page at the station is spoiled (R373). -/
def State.spoilStn (s : State) (i : Fin 6) : State :=
  match (s.stnPage i).bind fun x => x.1.sheet with
  | some id => s.spoil id
  | none => s

def State.isMaster (s : State) (i : Fin 6) : Bool := s.getF (F.EXP_POLY_CFG_MASTER (s.polyOf i)) == i.val

/-- Stations served by a polygon. -/
def State.served (s : State) (p : Fin 6) : List (Fin 6) := (List.finRange 6).filter fun i => s.polyOf i == p && s.flag (F.DEC_GEOM_EN i)

/-- Begin a slew that is due, where R219 allows it: at a master only while no station of its polygon exposes, at any other
station in its own page gap. -/
def State.slewStart (s : State) (i : Fin 6) : State :=
  let busy := if s.isMaster i then (s.served (s.polyOf i)).any fun k => s.getF (F.DEC_STATUS_STATE k) == 3 else s.getF (F.DEC_STATUS_STATE i) == 3
  if (s.stnOf i).slewDue ≠ 0 ∧ ¬busy then
    (s.putB (F.EXP_STATUS_SLEWING i) true).updStn i fun t => { t with slewDue := 0, slewLeft := t.slewLeft + t.slewDue }
  else s

def State.slewStarts (s : State) : State := s.each (List.finRange 6) State.slewStart

/-- Exposure of the page in the middle stops (R202): decoding ends, the stream is withdrawn, the remaining dots are lost,
the sheet is spoiled, ABORT is sent (R248), and the station stays idle until the page gap. The lines in drain, which ABORT cuts,
are lost as a whole; the line buffers and decode-table slots are free and the counts of R200 are 0 for the next page (DESIGN
CHOICE: log 96). A slew that waited for this station may begin (R219). (DESIGN CHOICE: log 96) -/
def State.inhibit (s : State) (i : Fin 6) : State :=
  if s.getF (F.DEC_STATUS_STATE i) = 3 then
    match s.stnPage i with
    | none => s
    | some (p, q) =>
      let t := s.stnOf i
      let from_ := if t.skipping then t.sweep + 1 else t.sweep
      let rest := (List.range (q.geom.sLast p.lines + 1 - from_).toNat).map fun k => s.sweepDots i q.geom p.lines (from_ + k)
      let s := (s.withdraw (8 + i)).loseDots i (rest.foldl (· + ·) 0 + t.drainDots.foldl (· + ·) 0)
      let s := s.updStn i fun t => { t with
        notices := [], drainDots := [], skipping := false, abort := some (abortBlk (t.seq.emod 65536).toNat),
        lineEnd := min t.lineEnd s.tsc.toNat, beams := Vector.replicate 32 {} }
      ((s.spoilStn i).putF (F.DEC_STATUS_STATE i) 5).slewStarts
  else s

/-- Inhibit every exposing station that is gated now. -/
def State.gateFollow (s : State) : State := s.each (List.finRange 6) fun a i => if a.gatedNow i then a.inhibit i else a

/-- A lower EXP_DCLK_MAX clamps the output at once; a target above it gates the station (R228). -/
def State.dclkClamp (s : State) (i : Fin 6) : State := ((s.dclkSlew i (1024 * s.tsc.toNat)).clampedFollow i).gateFollow

/-! ## Polygon lock (Table 10-1) -/

/-- Change a station's polygon lock state: runs of sweeps begin anew, source class 0x09 fires at a change, and an exposing
page is inhibited on a loss. -/
def State.setLock (s : State) (i : Fin 6) (v : Nat) : State :=
  let s := s.updStn i fun t => { t with freqRun := 0, lockRun := 0 }
  if s.getF (F.EXP_STATUS_LOCK i) = v then s
  else
    let s := s.putF (F.EXP_STATUS_LOCK i) v
    let s := if s.isMaster i then s.putF (F.EXP_POLY_STATUS_LOCK (s.polyOf i)) v else s
    let s := s.fire 0x09 (s.polyOf i)
    if v = 2 then s else s.inhibit i

/-- Threads start: every station is in FREQ_ACQ, and facets are numbered anew (R221, R224). -/
def State.freqAcqAll (s : State) : State :=
  let s := s.each (List.finRange 6) fun a i => a.setLock i 0
  { s with poly := Vector.replicate 6 {} }

/-- A once-per-revolution mark of a polygon (R224): facet 0 is the next BD; a BD count since the last mark that is not FACETS is
reported. -/
def State.indexMark (s : State) (p : Fin 6) : State :=
  let g := s.poly[p]
  let s := if g.marked && g.bdSince != s.getF (F.EXP_POLY_CFG_FACETS p) + 1 then s.raise Ev.EXP_FACET_SLIP p else s
  { s with poly := s.poly.set p { g with bdSince := 0, mark := true, marked := true } }

/-! ## Dot clock (R228) -/

/-- Loss of dot-clock lock, or entry to relock: the output is gated, the NCO goes to the target and N is recomputed (R228). -/
def State.dclkRelock (s : State) (i : Fin 6) : State :=
  let lost := s.getF (F.EXP_DCLK_STATUS_STATE i) == 2
  let s := (s.putF (F.EXP_DCLK_STATUS_STATE i) 1).dclkJump i (1024 * s.tsc.toNat)
  let s := s.updStn i fun t => { t with windows := 0, relockAt := s.tsc.toNat, dot := { t.dot with winFrom := microHz t.dot.num t.dot.den } }
  let s := if lost then (s.incR (R.EXP_DCLK_UNLOCK i) 1).raise Ev.EXP_DCLK_UNLOCK i else s
  s.inhibit i

/-! ## Exposure link (R250–R256) -/

/-- The Core die requests LEN while all four conditions hold (R256). -/
def State.lenFollow (s : State) (i : Fin 6) : State :=
  let s := s.putB (F.EXL_STATUS_LEN_REQ i) (s.flag (F.EXL_CTRL_LEN_EN i) && s.getF (F.EXL_STATUS_STATE i) == 5
    && s.flag (F.DEC_GEOM_EN i) && !s.flag (F.EXL_STATUS_LEN_MISMATCH i))
  if s.cycle < 3400 then s.dnLen else s

/-- Change the link's training state; a change fires source class 0x0A (Table 3-4). -/
def State.setLink (s : State) (i : Fin 6) (v : Nat) : State :=
  if s.getF (F.EXL_STATUS_STATE i) = v then s
  else ((s.putF (F.EXL_STATUS_STATE i) v).fire 0x0A i).lenFollow i

/-- Drop the packets that await a response; a head access ends with RESULT error. -/
def State.dropPkts (s : State) (i : Fin 6) : State :=
  let s := if s.flag (F.EXL_HACC_BUSY i) then (s.putF (F.EXL_HACC_BUSY i) 0).putF (F.EXL_HACC_RESULT i) 1 else s
  s.updStn i fun t => { t with pkts := [] }

/-- Training starts anew from attempt 1 after electrical idle (R253, R255). -/
def State.retrain (s : State) (i : Fin 6) : State :=
  let s := (s.dropPkts i).putB (F.EXL_STATUS_FALLBACK i) false
  let s := s.updStn i fun t => { t with nextAttempt := 1, configOk := false, syncErrs := [], lenDiff := 0, lenKnown := false }
  let s := (s.putB (F.EXL_STATUS_RETRAIN_PENDING i) false).putB (F.EXL_CTRL_RETRAIN i) false
  let s := ((s.putB (F.EXL_STATUS_HEAD_READY i) false).putF (F.EXL_STATUS_LANES i) 0).setLink i 0
  s.inhibit i

/-- The link goes down for a cause of Table 21-7 (R250). -/
def State.linkDown (s : State) (i : Fin 6) (cause : Nat) : State :=
  if s.getF (F.EXL_STATUS_STATE i) = 5 then
    let st := s.getR (R.EXL_STATUS i)
    let s := (s.raise Ev.EXL_LINK_DOWN i (BitVec.ofNat 32 cause) st).incR (R.EXL_RETRAINS i) 1
    s.retrain i
  else s

/-- The blocks of a page's TABLE packet (Table 11-5): `first` is the first SEQ of the page. -/
def State.tableBlocks (s : State) (i : Fin 6) (tag : BitVec 8) (first : Nat) (table : List (List Nat)) : List LinkBlk :=
  ctrlPacket 0x02 tag (first + 2 ^ 16 * s.getF (F.DEC_STATUS_WIN_BASE i)) (packCodes 8 table.flatten)

/-- The blocks of a control packet (Table 11-5) other than TABLE. -/
def State.pktBlocks (s : State) (i : Fin 6) (k : PktKind) (tag : BitVec 8) : List LinkBlk :=
  let addr := s.getF (F.EXL_HACC_ADDR i)
  match k with
  | .config =>
    ctrlPacket 0x01 tag 0 [dataBlk (s.getF (F.DEC_WIDTH i) - 1 + 2 ^ 16 * s.getF (F.DEC_GEOM_DEPTH i) + 2 ^ 18 * s.getF (F.EXL_CFG_MODE i)
      + 2 ^ 19 * s.getF (F.EXL_CFG_SEG i) + 2 ^ 24 * s.getF (F.DEC_GEOM_BEAMS i) + 2 ^ 32 * s.getF (F.EXL_STATUS_LANES i)
      + 2 ^ 40 * s.getF (F.DEC_EMIT_NSPARE i))]
  | .table => []
  | .read => ctrlPacket 0x03 tag addr []
  | .write => ctrlPacket 0x04 tag addr [dataBlk (s.getR (R.EXL_HDATA i)).toNat]

/-- SYNC goes out during training and at every page gap (R242). -/
def State.sendSync (s : State) (i : Fin 6) : State := s.updStn i fun t => { t with sync := some (syncBlk ((t.bdNum + 1) % 256)) }

/-- Picoseconds that one block lasts on a transmit lane (Table 11-2). -/
def State.blockPs (s : State) (i : Fin 6) : Nat :=
  if s.getF (F.EXL_STATUS_LANES i) ≠ 3 then 10560
  else match s.getF (F.EXL_CFG_BAUD i) with
    | 0 => 5280 | 1 => 6400 | _ => 10560

/-- Cycles that `n` blocks take on the lanes in use. -/
def State.blockCycles (s : State) (i : Fin 6) (n : Nat) : Nat :=
  ceilDiv ((if s.getF (F.EXL_STATUS_LANES i) = 3 then ceilDiv n 2 else n) * s.blockPs i) 5000

/-- Blocks that a packet takes on the link. -/
def State.pktLen (s : State) (i : Fin 6) (p : Packet) : Nat :=
  if p.kind = .table then (s.tableBlocks i p.tag 0 (s.regionTable i)).length else p.blocks.length

/-- A packet goes out: after the last line packet of the sweep, and after the control packets that wait (R239); its EOP has gone
at `sentAt`. (DEDUCED: log 48) -/
def State.putPkt (s : State) (i : Fin 6) (p : Packet) : State :=
  let at_ := max s.tsc.toNat (max (s.stnOf i).lineEnd (s.stnOf i).ctrlEnd) + s.blockCycles i (s.pktLen i p)
  s.updStn i fun t => { t with pkts := t.pkts ++ [{ p with sentAt := at_ }], ctrlEnd := at_ }

/-- Control packets that have not gone when a sweep begins go after its line data (R239). (DEDUCED: log 48) -/
def State.holdPkts (s : State) (i : Fin 6) : State :=
  let now := s.tsc.toNat
  let wait := fun (p : Packet) => Nat.blt now p.sentAt
  let late := (s.stnOf i).pkts.filter wait
  let s := s.updStn i fun t => { t with pkts := t.pkts.filter fun p => !wait p, ctrlEnd := 0 }
  s.each late fun a p => a.putPkt i p

/-- Send a control packet: the next tag, and its response awaited (R245, R247). CONFIG is followed by SYNC. The blocks of a TABLE
are known when its page begins: they name the page's first SEQ and hold the region copy of its top of page (R210, R246); they
are recorded there, under this packet's tag. (DESIGN CHOICE: log 99) -/
def State.sendPkt (s : State) (i : Fin 6) (k : PktKind) : State :=
  let tag := (s.stnOf i).nextTag
  let b := s.pktBlocks i k tag
  let s := if k = .config then s.sendSync i else s
  (s.putPkt i { kind := k, tag := tag, blocks := b }).updStn i fun t => { t with
    nextTag := tag + 1#8, tableTag := if k = .table then some tag else t.tableTag }

/-- Bits for each dot on the link: d in VALUE mode, 6 in CODE mode (R240). -/
def State.codeBits (s : State) (i : Fin 6) : Nat :=
  if s.flag (F.EXL_CFG_MODE i) then 6 else 2 ^ s.getF (F.DEC_GEOM_DEPTH i)

/-- Payload and lead rules of R244 in fallback (R254): `true` where both hold at the dot clock's frequency × 1.004 on one
lane at 6.25 Gbaud. Rates are in bits per second; times in picoseconds (one block lasts 10,560 ps). -/
def State.fallbackOk (s : State) (i : Fin 6) : Bool :=
  let b := s.getF (F.DEC_GEOM_BEAMS i)
  let seg := 256 * 2 ^ s.getF (F.EXL_CFG_SEG i)
  let c := s.codeBits i
  let f := s.getF (F.EXP_DCLK_FREQ i) * 1004
  let r := 1 + b * (2 + ceilDiv (seg * c) 64)
  Nat.ble (b * f * (c * seg + 128)) (6000000000 * seg)
    && Nat.ble (2 * s.getF (F.EXP_DCLK_DPS i) * 64 * 10000000000 + r * 10560 * f * 64) (s.getF (F.EXP_DCLK_START i) * 1000000000000)

/-- RATE_LIMIT_CHECK (R254). -/
def State.rateCheck (s : State) (i : Fin 6) : State :=
  s.putB (F.EXL_STATUS_RATE_LIMIT i) (s.flag (F.EXL_STATUS_FALLBACK i) && !s.fallbackOk i)

/-! ## Emitters (R212, R213) -/

/-- Is physical emitter `e` of a station reported dead? -/
def State.dead (s : State) (i : Fin 6) (e : Nat) : Bool :=
  if e < 32 then (s.getR (R.DEC_DEAD_LO i)).getLsbD e else (s.getR (R.DEC_DEAD_HI i)).getLsbD (e - 32)

def State.anyDead (s : State) (i : Fin 6) : Bool := s.getR (R.DEC_DEAD_LO i) != 0#32 || s.getR (R.DEC_DEAD_HI i) != 0#32

/-- Does the window at base `w` hold no dead emitter? -/
def State.windowFree (s : State) (i : Fin 6) (w : Nat) : Bool :=
  (List.range (s.getF (F.DEC_GEOM_BEAMS i))).all fun b => !s.dead i (b + w)

/-- The base nearest to `w` whose window holds no dead emitter, a tie to the lower. -/
def State.nearBase (s : State) (i : Fin 6) (w : Nat) : Option Nat :=
  let n := s.getF (F.DEC_EMIT_NSPARE i)
  (List.range (n + 1)).findSome? fun d =>
    if d ≤ w ∧ w - d ≤ n ∧ s.windowFree i (w - d) then some (w - d)
    else if w + d ≤ n ∧ s.windowFree i (w + d) then some (w + d) else none

/-- Live emitters outside the window. -/
def State.spares (s : State) (i : Fin 6) (w : Nat) : Nat :=
  let b := s.getF (F.DEC_GEOM_BEAMS i)
  ((List.range (b + s.getF (F.DEC_EMIT_NSPARE i))).filter fun e => !(Nat.ble w e && Nat.blt e (w + b)) && !s.dead i e).length

/-- Put the window at base `w`: the base and the top-of-page shift (R212). -/
def State.putWindow (s : State) (i : Fin 6) (w : Nat) : State :=
  let k := s.getF (F.DEC_GEOM_SPACING i)
  let d : Int := (w : Int) - s.getF (F.DEC_EMIT_BASE0 i)
  (s.putF (F.DEC_STATUS_WIN_BASE i) w).putF (F.DEC_TOP_SHIFT i) (unsigned 16 (d * k))

/-- Reasons EXL_LANE and EMITTER stay until the boot has ended and every enabled station has reached ACTIVE or FAILED for
the first time since (R475). (DEDUCED: log 23) -/
def State.settledAll (s : State) : Bool :=
  s.bootEnded && (List.finRange 6).all fun i => !s.flag (F.DEC_GEOM_EN i) || (s.stnOf i).settled

/-- Mend reason EMITTER clears when no station has a dead bit, EXL_LANE when none holds it (Table 21-4, R254). (DEDUCED: log 23) -/
def State.emitterMend (s : State) : State :=
  if s.settledAll then
    let s := if (List.finRange 6).any s.anyDead then s.mendFollow else s.clearMend 4
    if (List.finRange 6).any fun i => (s.stnOf i).laneMend then s else s.clearMend 3
  else s.mendFollow

/-- The window move of R212, or NO_WINDOW of R213. -/
def State.moveWindow (s : State) (i : Fin 6) : State :=
  let w := s.getF (F.DEC_STATUS_WIN_BASE i)
  if !s.anyDead i then
    if w = s.getF (F.DEC_EMIT_BASE0 i) then s else s.putWindow i (s.getF (F.DEC_EMIT_BASE0 i))
  else if s.windowFree i w then s
  else
    match s.nearBase i w with
    | some v =>
      let s := (s.putWindow i v).putB (F.DEC_STATUS_SPARES_LOW i) (Nat.ble (s.spares i v) 1)
      let s := (s.putB (F.DEC_STATUS_NO_WINDOW i) false).raise Ev.DEC_EMITTER_REMAP i
      s.setMend 4
    | none =>
      if s.flag (F.DEC_STATUS_NO_WINDOW i) then s
      else ((s.putB (F.DEC_STATUS_NO_WINDOW i) true).raise Ev.DEC_NO_WINDOW i).setMend 4

/-! ## Grid slew (R219) -/

/-- Grid phase g in 1/256 line: EXP_GRID less the top shift. (DEDUCED: log 47) -/
def State.gridPhase (s : State) (i : Fin 6) : Int :=
  (s.getF (F.EXP_GRID i) : Int) - 256 * signed 16 (s.getF (F.DEC_TOP_SHIFT i))

/-- A change of g: reduced to (−A/2, A/2] lines, the whole sweeps being absorbed in the sweep count (R219). -/
def State.slewFollow (s : State) (i : Fin 6) : State :=
  let g := s.gridPhase i
  let st := s.stnOf i
  if g = st.grid then s
  else
    let a : Int := 256 * s.advOf i
    let d := g - st.grid
    let whole := ceilInt (2 * d - a) (2 * a).toNat
    let rest := d - whole * a
    (s.updStn i fun t => { t with grid := g, seq := t.seq - whole, slewDue := t.slewDue + 0x10000 * rest }).slewStart i

/-- What a sweep adds to its lines while the grid slews: at most EXP_POLY_SLEW of a sweep (R219). -/
def State.slewStep (s : State) (i : Fin 6) : Int :=
  let lim : Int := s.getF (F.EXP_POLY_SLEW (s.polyOf i)) * s.advOf i * 256
  max (-lim) (min lim (s.stnOf i).slewLeft)

/-- A new A lays the grid anew (R217) at the phase that the edges have; what is missing to g, with what a slew had left to do,
is slewed, reduced to (−A/2, A/2] lines (R219). -/
def State.regrid (s : State) (i : Fin 6) : State :=
  let g := s.gridPhase i
  let t := s.stnOf i
  let here := 0x10000 * t.grid - t.slewLeft - t.slewDue
  let a : Int := oneLine * s.advOf i
  let d := 0x10000 * g - here
  let whole := ceilInt (2 * d - a) (2 * a).toNat
  ((s.putB (F.EXP_STATUS_SLEWING i) false).updStn i fun t => { t with
    grid := g, seq := t.seq - whole, slewDue := d - whole * a, slewLeft := 0, line := t.line.regrid s.tsc.toNat here a }).slewStart i

/-- A window move, and the change of g that it causes (R212, R219). -/
def State.moveGrid (s : State) (i : Fin 6) : State := (s.moveWindow i).slewFollow i

/-! ## Deferred fields (R40) -/

/-- A word's fields that wait for the page gap: marked G or B. -/
def gbMask (off : Nat) : Word := match findReg off with
  | some r => BitVec.ofNat 32 (r.g ||| r.b)
  | none => 0#32

/-- The registers with G or B fields of a station. A polygon's fields change with those of its master under the applied
bank. -/
def State.gbRegs (s : State) (i : Fin 6) : List Nat :=
  [R.DEC_GEOM i, R.DEC_EMIT i, R.DEC_WIDTH i, R.DEC_OFFSET i, R.DEC_SHINGLE i, R.EXP_LCFG i, R.EXP_LPITCH i, R.EXP_GRID i,
   R.EXP_DCLK_DPS i] ++ ((List.range 6).filter fun p => s.applF (F.EXP_POLY_CFG_MASTER p) == i.val).map fun p => R.EXP_POLY_CFG p

/-- The station has deferred fields. -/
def State.deferredAt (s : State) (i : Fin 6) : Bool :=
  (s.gbRegs i).any fun o => (s.getR o &&& gbMask o) != (s.appl o &&& gbMask o)

/-- Merge the bits of a mask from the applied bank into the word in force. -/
def State.mergeApplied (s : State) (o : Nat) (m : Word) : State := s.putR o ((s.getR o &&& ~~~ m) ||| (s.appl o &&& m))

/-- Picked pages pressed under another generation that have still to be exposed at the station (R40). -/
def State.oldPicked (s : State) (i : Fin 6) : Bool :=
  s.cel.pages.any fun p => p.st == .picked && p.planes.any fun q => q.station == i && !q.exposed && q.gen != s.getF (F.PRS_GEOM_GEN i)

/-- A page whose plane at a station is of another generation than the one now in force loses its storage for reprint
(R43), a picked one when its lock ends (R179); one that a jam has returned to STORED retires (R189). (DEDUCED: log 57) -/
def State.releaseStale (s : State) (i : Fin 6) : State :=
  let back := s.cel.pages.filter fun p => (p.st == .stored || p.st == .committed) && p.planes.any fun q =>
    q.station == i && q.gen != s.getF (F.PRS_GEOM_GEN i)
  let s := s.each back fun a p => a.retire p .staleGeometry (a.spoiledPage p)
  s.each (s.cel.pages.filter fun p => (p.st == .picked || p.st == .retained) && p.planes.any fun q =>
      q.station == i && q.gen != s.getF (F.PRS_GEOM_GEN i)) fun a p =>
    if p.released then a
    else if p.st == .retained then a.releaseStore p
    else a.updPage p.tag fun x => { x with released := true }

/-- The deferred fields of a station take effect (R40). `ev` is false where the change was not deferred. (DEDUCED: log 57) -/
def State.takeDeferred (s : State) (i : Fin 6) (ev : Bool) : State :=
  let a0 := s.advOf i
  let s := s.each (s.gbRegs i) fun a o => a.mergeApplied o (gbMask o)
  let s := { s with cel := { s.cel with genInForce := s.cel.genInForce.set i (s.getF (F.PRS_GEOM_GEN i)) } }
  let s := (s.putBitF F.VIN_STATUS_DEFERRED i false).releaseStale i
  let s := if ev then (s.raise Ev.VIN_DEFERRED_DONE i).fire 0x0D 0 true else s
  let s := if s.advOf i = a0 then s else s.regrid i
  (s.lenFollow i).moveGrid i

/-- At a page gap, or in an idle station, the deferred fields take effect once no old picked page remains. (DEDUCED: log 45) -/
def State.deferredGap (s : State) (i : Fin 6) : State :=
  if s.bitF F.VIN_STATUS_DEFERRED i && !s.oldPicked i then s.takeDeferred i true else s

/-! ## Consumable gate (R398) -/

/-- The gate of a station follows the latest results at its page gap, or at once while it is idle. (DEDUCED: log 69) -/
def State.conFollow (s : State) (i : Fin 6) : State :=
  let g := (List.range 4).any fun p => s.flag (F.SEC_CON_CFG_EN p) && s.bitF (F.SEC_CON_CFG_MASK p) i && s.flag (F.SEC_CON_STATUS_GATED p)
  s.updStn i fun t => { t with conGate := g }

/-- Is the station idle, or in its page gap? -/
def State.stnIdle (s : State) (i : Fin 6) : Bool :=
  s.getF (F.DEC_STATUS_STATE i) == 0 || s.getF (F.DEC_STATUS_STATE i) == 4

/-- A primed station whose compare has fired is armed (R203). -/
def State.armFollow (s : State) (i : Fin 6) : State :=
  if s.getF (F.DEC_STATUS_STATE i) = 1 ∧ (s.stnOf i).primed ∧ (s.stnOf i).top then s.putF (F.DEC_STATUS_STATE i) 2 else s

/-- Fire the top-of-page action of a position compare that crossed at `ts` (R203, R218, R272): it arms the station for the
picked page that waits for it; a page that is being exposed, or was inhibited, has had its own. (DEDUCED: log 46) -/
def State.topFire (s : State) (i : Fin 6) (ts : Nat) : State :=
  let n := s.getF (F.DEC_STATUS_STATE i)
  let cur := if n = 3 ∨ n = 5 then (s.stnOf i).page else none
  let waits := s.cel.pages.any fun p => p.st == .picked && some p.tag != cur && p.planes.any fun q => q.station == i && !q.exposed
  if waits then (s.updStn i fun t => { t with top := true, topPhase := t.line.phaseAt ts }).armFollow i else s

/-- LINE_FAULT stands while the bound SC channel reports a signal fault (R216). -/
def State.lineFaults (s : State) : State :=
  s.each (List.finRange 6) fun a i => a.putB (F.EXP_STATUS_LINE_FAULT i) (a.flag (F.FBK_STATUS_SIG_FAULT (a.scOf i)))

end Sys2Proof.Machine
end

