-- ==== Sys2Proof/Machine/Press.lean ====
section
/-! DEFINITION. Machine/Press.lean: page start, descriptor and index checks, lanes, verification, storing (chapter 6). -/

namespace Sys2Proof.Machine

/-! ## Pressing geometry (R138) -/


/-- The pressing geometry of station `i`. -/
def State.pressGeom (s : State) (i : Nat) : Geom :=
  { beams := s.applF (F.DEC_GEOM_BEAMS i), spacing := s.applF (F.DEC_GEOM_SPACING i), offset := s.applF (F.DEC_OFFSET i),
    depth := s.applF (F.DEC_GEOM_DEPTH i), width := s.applF (F.DEC_WIDTH i), shingle := s.applF (F.DEC_GEOM_SHINGLE i) != 0 }

/-- Generations and geometries of the six stations now. -/
def State.stampNow (s : State) : List (Nat × Geom) :=
  (List.range 6).map fun i => (s.getF (F.PRS_GEOM_GEN i), s.pressGeom i)

/-! ## Descriptors (R134–R137) -/

def dword (l : List Word) (i : Nat) : Word := l.getD i 0#32

/-- A 64-bit field of two dwords. -/
def qword (l : List Word) (i : Nat) : Nat := (dword l i).toNat + 0x100000000 * (dword l (i + 1)).toNat

/-- The page header obeys Table 6-1 for `n` planes. -/
def headerOk (l : List Word) (n : Nat) : Bool :=
  dword l 0 == 0x00015047#32 && Nat.blt (dword l 1).toNat 64 && popCount 6 (dword l 1).toNat == n
    && Nat.ble 1 (dword l 2).toNat && Nat.ble (dword l 2).toNat 262144 && Nat.blt (dword l 3).toNat 256
    && (List.range 4).all fun i => dword l (4 + i) == 0#32

/-- Lines per block of a GSEL code. -/
def gLinesOf (g : Nat) : Nat := 8 * 2 ^ g

/-- Parse the plane descriptor of 16 dwords; the stamp gives generation and geometry. -/
def readPlane (l : List Word) (stamps : List (Nat × Geom)) : Plane :=
  let d0 := dword l 0
  let st := bits d0 0 3
  let stamp := stamps.getD st (0, { beams := 0, spacing := 0, offset := 0, depth := 0, width := 0, shingle := false })
  { station := Fin.ofNat 6 st, pre := d0.getLsbD 4, depth := bits d0 8 2, gLines := gLinesOf (bits d0 10 2), tmode := bits d0 12 3,
    width := (dword l 1).toNat, gen := stamp.1, geom := stamp.2, base := qword l 8, len := qword l 10,
    count := (dword l 6).toNat, pitch := (dword l 7).toNat, table := qword l 4 }

/-- Bands of a raw plane: first line address and line count. -/
def readBands (b : List (Vector Word 4)) : List (Nat × Nat) := b.map fun e => (e[0].toNat + 0x100000000 * e[1].toNat, e[2].toNat)

/-- Bytes of a line of the plane. -/
def Plane.lineBytes (q : Plane) : Nat := ceilDiv (q.width * 2 ^ q.depth) 8

/-- The rules of R136 and R137 for one plane whose dwords are `l`, its band table aside. The raw block size is that of a
block of G lines. (DEDUCED: log 79) -/
def planeOk (l : List Word) (q : Plane) (en : Bool) : Bool :=
  let d0 := dword l 0
  Nat.blt (bits d0 0 3) 6 && bits d0 3 1 == 0 && bits d0 5 3 == 0 && bits d0 15 17 == 0 && Nat.ble q.depth 2
    && (dword l 3 == 0#32) && ((List.range 4).all fun i => dword l (12 + i) == 0#32) && Nat.blt (dword l 2).toNat 65536
    && en && q.depth == q.geom.depth && q.width == q.geom.width && Nat.ble (q.gLines * q.lineBytes) 131072
    && (if q.pre then
          q.tmode == 0 && qword l 4 % 8 == 0 && q.pitch == 0 && q.base % 8 == 0 && Nat.blt q.len (2 ^ 40)
        else
          Nat.ble q.tmode 4 && (dword l 2 == 0#32) && qword l 4 % 16 == 0 && Nat.ble 1 q.count && Nat.ble q.count 4096
            && q.base == 0 && q.len == 0 && q.pitch % 8 == 0 && Nat.ble q.lineBytes q.pitch)

/-- The band table of a raw plane on a page of `h` lines (R137, R143). -/
def bandsOk (bands : List (Vector Word 4)) (h : Nat) : Bool :=
  ((readBands bands).map Prod.snd).foldl (· + ·) 0 == h && bands.all fun e => e[0].toNat % 8 == 0 && e[2] != 0#32 && e[3] == 0#32

/-- The address of page line `l` (R143): its band's address and the pitch. -/
def bandLine (pitch : Nat) : List (Nat × Nat) → Nat → Nat
  | [], _ => 0
  | (a, n) :: r, l => if l < n then a + l * pitch else bandLine pitch r (l - n)

/-- The planes of a descriptor of `n` plane descriptors. -/
def planesOf (desc : List Word) (n : Nat) (stamps : List (Nat × Geom)) : List (List Word × Plane) :=
  (List.range n).map fun i => let l := (desc.drop (8 + 16 * i)).take 16; (l, readPlane l stamps)

/-- A descriptor's length is that of `n` planes, 1 to 6, and it is aligned (R134). -/
def Page.descOk (p : Page) : Bool :=
  let n := (p.descLen - 32) / 64
  p.desc % 64 == 0 && p.descLen == 32 + 64 * n && Nat.ble 1 n && Nat.ble n 6

/-- The page at work in the Press: the next page if it has begun, else the current one. -/
def State.pressing (s : State) : Option Page :=
  match s.prs.nextTag with
  | some t => s.page t
  | none => if s.flag F.PRS_STATUS_BUSY then s.page (s.getR R.PRS_CUR_TAG) else none

/-- PRESS_PAGE_START (R138, R146): the next page in SQ_0 order begins, once every block of the current page has been
handed out. -/
def execPressPageStart (s : State) : Res :=
  .next (
    match s.cel.pages.find? fun p => p.st == .inPress && !p.started with
    | none => s
    | some p =>
      let begin_ := fun (a : State) =>
        let a := a.updPage p.tag fun x => { x with started := true, stamps := s.stampNow }
        (if p.descOk then a.transfer 2 p.desc p.descLen false p.seq else a).pausedFollow
      if !s.flag F.PRS_STATUS_BUSY then
        let s1 := ((s.putB F.PRS_STATUS_BUSY true).putR R.PRS_CUR_TAG p.tag)
        begin_ { s1 with prs := { s1.prs with handed := 0, storedN := 0 } }
      else
        match s.page (s.getR R.PRS_CUR_TAG) with
        | none => s
        | some c =>
          if s.prs.nextTag = none ∧ c.planes ≠ [] ∧ c.order.length ≤ s.prs.handed then
            begin_ { s with prs := { s.prs with nextTag := some p.tag, nextHanded := 0 } }
          else s)

/-- The planes of a checked page: a pre-encoded plane of another generation completes it with STALE_GEOMETRY; otherwise
the planes are known and channel 1 starts to read the index tables (R127, R138). -/
def State.planesKnown (s : State) (p : Page) (desc : List Word) (xs : List (List Word × Plane)) (bands : List (List (Vector Word 4))) :
    State :=
  if xs.any fun x => x.2.pre && bits (dword x.1 2) 0 16 != x.2.gen then s.failPage p .staleGeometry
  else
    let withBands := xs.zipIdx.map fun x => { x.1.2 with bands := readBands (bands.getD x.2 []) }
    let s := s.updPage p.tag fun x => { x with
      lines := (dword desc 2).toNat, size := bits (dword desc 3) 0 4, colour := bits (dword desc 3) 4 4, planes := withBands }
    s.each (withBands.filter Plane.pre) fun a q => a.transfer 1 q.table (8 * q.count) false p.seq

/-- DESCRIPTOR_CHECK (R134–R138): what channel 2 has read is checked, first the descriptor, then the band tables it
points to; a broken rule completes the page with BAD_FIELD. (DEDUCED: log 80) -/
def execDescriptorCheck (desc : List Word) (bands : List (List (Vector Word 4))) (s : State) : Res :=
  .next (
    match s.pressing with
    | none => s
    | some p =>
      if p.planes ≠ [] ∨ s.halted 2 ∨ s.reading 2 p.seq 0 (2 ^ 64) then s
      else
        let n := (p.descLen - 32) / 64
        let d := if p.descr = [] then (List.range (8 + 16 * n)).map (dword desc) else p.descr
        let xs := planesOf d n p.stamps
        let raws := xs.filter fun x => !x.2.pre
        let tables := xs.zipIdx.map fun x => if x.1.2.pre then [] else
          (List.range x.1.2.count).map fun k => (bands.getD x.2 []).getD k (Vector.replicate 4 0#32)
        if p.descr = [] then
          let sts := xs.map fun x => x.2.station.val
          let each := xs.all fun x => planeOk x.1 x.2 (s.applF (F.DEC_GEOM_EN x.2.station) != 0)
          if !(p.descOk && headerOk d n && each && (sts == (List.range 6).filter fun i => (dword d 1).getLsbD i)) then
            s.failPage p .badField
          else if raws = [] then s.planesKnown p d xs tables
          else
            let s := s.updPage p.tag fun x => { x with descr := d }
            s.each raws fun a x => a.transfer 2 x.2.table (16 * x.2.count) false p.seq
        else if (xs.zip tables).all fun x => x.1.2.pre || bandsOk x.2 (dword d 2).toNat then s.planesKnown p d xs tables
        else s.failPage p .badField)

/-- Every entry of an index table lies in the plane, aligned and not empty (R127). -/
def indexOk (len : Nat) (entries : List (BitVec 64)) : Bool :=
  entries.all fun e =>
    let off := e.toNat % 2 ^ 40
    let n := e.toNat / 2 ^ 40
    off % 8 == 0 && n != 0 && Nat.ble (off + n) len

/-- INDEX_TABLE_CHECK (R127, R144): `entries` is the table as channel 1 has read it. -/
def execIndexTableCheck (plane : Fin 6) (entries : List (BitVec 64)) (s : State) : Res :=
  .next (
    match s.pressing with
    | none => s
    | some p =>
      match p.planes[plane.val]? with
      | none => s
      | some q =>
        if !q.pre || !q.index.isEmpty || s.halted 1 || s.reading 1 p.seq q.table (8 * q.count) then s
        else
          let entries := (List.range q.count).map fun k => entries.getD k 0#64
          let want := ((List.range q.geom.adv).map (q.streamBlocks p.lines)).foldl (· + ·) 0
          if indexOk q.len entries && q.count == want then
            s.updPage p.tag fun x => x.updPlane plane fun y =>
              { y with index := entries.map fun e => (e.toNat % 2 ^ 40, e.toNat / 2 ^ 40) }
          else s.failPage p .badBlock)

/-! ## Lanes (R146–R151) -/

def State.lane (s : State) (l : Nat) : Lane := s.prs.lanes.toList.getD l {}

def State.setLane (s : State) (l : Nat) (x : Lane) : State :=
  { s with prs := { s.prs with lanes := s.prs.lanes.setIfInBounds l x } }

/-- The lowest free lane in service; for a block that passes on, one other than the lane it comes from, where one is
free (R146, R149). (DEDUCED: log 44) -/
def State.freeLane (s : State) : Option Nat :=
  let free := (List.range 4).filter fun l => s.bitF F.PRS_STATUS_IN_SERVICE l && (s.lane l).job.isNone
  let other := s.prs.passed.head?.bind fun x => free.find? fun l => l != x.2.2
  other.orElse fun _ => free.head?

/-- The next block to hand out: a block that passed on, else the next of the current page, else of the next page. -/
def State.nextBlock (s : State) : Option (Word × BlockPos) :=
  match s.prs.passed with
  | x :: _ => some (x.1, x.2.1)
  | [] =>
    match s.page (s.getR R.PRS_CUR_TAG) with
    | none => none
    | some p =>
      match p.order[s.prs.handed]? with
      | some b => some (p.tag, b)
      | none =>
        match s.prs.nextTag.bind s.page with
        | none => none
        | some n => (n.order[s.prs.nextHanded]?).map fun b => (n.tag, b)

/-- Count one block as handed out. (DEDUCED: log 44) -/
def State.handBlock (s : State) (t : Word) : State :=
  match s.prs.passed with
  | _ :: r => { s with prs := { s.prs with passed := r } }
  | [] =>
    if t = s.getR R.PRS_CUR_TAG then { s with prs := { s.prs with handed := s.prs.handed + 1 } }
    else { s with prs := { s.prs with nextHanded := s.prs.nextHanded + 1 } }

/-- Index-table position of a block: its place among its plane's blocks in round order (R142). -/
def Page.indexOf (p : Page) (b : BlockPos) : Nat := (p.order.filter fun x => x.plane == b.plane).idxOf b

/-- Start evictions for as many granules as are short (R187). (DEDUCED: log 43) -/
def State.evictFor : Nat → State → State
  | 0, s => s
  | n + 1, s =>
    let r := s.startEviction
    if r.2 then
      let v := r.1.cel.evicting.getLast?
      State.evictFor n (match v with
        | some e => r.1.transfer 6 (4096 * e.2.2.2) 4096 true
        | none => r.1)
    else s

/-- The page lines of a block, in stream order (R139, R140). -/
def Plane.linesOf (q : Plane) (h : Nat) (b : BlockPos) : List Nat :=
  (List.range (q.blockLines h b.stream b.round)).map fun i => q.geom.firstLine b.stream + (b.round * q.gLines + i) * q.geom.adv

/-- The address ranges a block is read from: each line of a raw plane, or the indexed bytes (R127, R143). -/
def Page.blockParts (p : Page) (q : Plane) (b : BlockPos) : List (Nat × Nat) :=
  if q.pre then
    let e := q.index.getD (p.indexOf b) (0, 0)
    [(q.base + e.1, e.2)]
  else (q.linesOf p.lines b).map fun l => (bandLine q.pitch q.bands l, q.lineBytes)

/-- The dots of a raw block from the bytes of its lines; bits beyond the last dot are ignored (R143). -/
def Plane.rawLines (q : Plane) (h : Nat) (b : BlockPos) (bytes : List (List Byte)) : List (List Nat) :=
  (List.range (q.blockLines h b.stream b.round)).map fun i =>
    Zrb.dotsOf (2 ^ q.depth) q.width (Zrb.toBits ((List.range q.lineBytes).map fun k => (bytes.getD i []).getD k 0#8))

/-- The lines of lane `l`'s block, or its bytes, are still on their way. -/
def State.laneReading (s : State) (l : Nat) : Bool :=
  ((s.chan 1).issued ++ (s.chan 1).queued).any fun t => t.job == (s.lane l).reads && t.job != 0

/-- Every table that must be read before a block of the plane has been read and checked (R127). -/
def Plane.tablesRead (q : Plane) : Bool := !q.pre || !q.index.isEmpty

/-- The first block of a newer page clears the lane's page faults (R150). -/
def State.laneTakes (s : State) (l : Nat) (p : Page) : State :=
  let newer := match s.prs.laneSeq.toList.getD l none with
    | some n => Nat.blt n p.seq
    | none => true
  if newer then
    { s.putF (F.PRS_LANE_PGFAULT l) 0 with prs := { s.prs with laneSeq := s.prs.laneSeq.setIfInBounds l (some p.seq) } }
  else s

/-- Granules that the evictions under way will free: those of retiring banks leave service instead (R187, R191). -/
def State.evictGain (s : State) : Nat :=
  (s.cel.evicting.filter fun e => match s.page e.1 with
    | some p => !s.inRetiring p (0, e.2.1, e.2.2.1)
    | none => false).length

/-- LANE_BLOCK_START (R146–R148): the lowest free lane takes the next block; `raw` and `pre` are the bytes of its lines, or
its own bytes, as channel 1 brings them. Too few free granules start evictions (R187). -/
def execLaneBlockStart (raw : List (List Byte)) (pre : List Byte) (s : State) : Res :=
  .next (
    match s.freeLane, s.nextBlock with
    | some l, some (tag, b) =>
      match (s.page tag).bind fun p => (p.planes[b.plane]?).map fun q => (p, q) with
      | none => s
      | some (p, q) =>
        if s.pausedPage p.seq || !q.tablesRead then s
        else
          let s := (s.handBlock tag).laneTakes l p
          let lines := if q.pre then [] else q.rawLines p.lines b raw
          let own := (List.range (q.index.getD (p.indexOf b) (0, 0)).2).map fun k => pre.getD k 0#8
          let out := if q.pre then (own, false) else Zrb.emitBlock q.depth q.tmode lines q.width
          let s := s.transferParts 1 (p.blockParts q b) false p.seq
          let s := s.setLane l { job := some (tag, b), raw := lines, pre := q.pre, out := out.1, storedForm := out.2, byBound := out.2,
                                 reads := s.rck.jobs }
          let s := (s.putF (F.PRS_LANE_STATE_STATE l) (if q.pre then 2 else 1)).putR R.PRS_CUR_ROUND (BitVec.ofNat 32 b.round)
          s.evictFor (ceilDiv out.1.length 4096 - s.granAvail - s.evictGain)
    | _, _ => s)

/-- The rules of R145 for a pre-encoded block at its position. -/
def preOk (p : Page) (q : Plane) (b : BlockPos) (bs : List Byte) : Bool :=
  match Zrb.validate bs with
  | none => false
  | some (h, _) =>
    bs.length == (q.index.getD (p.indexOf b) (0, 0)).2 && h.depth == q.depth && h.width == q.width
      && h.lines == q.blockLines p.lines b.stream b.round && Nat.ble h.flags 1

/-- A verify fault is counted and reported (R149). -/
def State.verifyFault (s : State) (l : Nat) (p : Page) (q : Plane) (b : BlockPos) (stored : Bool) : State :=
  let s := (s.incR (R.PRS_LANE_VFAULT l) 1).putF (F.PRS_LANE_PGFAULT l) (min 3 (s.getF (F.PRS_LANE_PGFAULT l) + 1))
  let d := q.station.val + 16 * b.stream + 4096 * boolNat stored + 65536 * (b.round % 65536)
  s.raise Ev.PRS_VERIFY_FAULT l p.tag (BitVec.ofNat 32 d)

/-- Every page in the Press completes with NOT_READY, in submission order (R151). -/
def State.noLane (s : State) : State :=
  (s.each (s.cel.pages.filter fun p => p.st == .inPress) fun a p => a.failPage p .notReady).raise Ev.PRS_NO_LANE

/-- Where a block that passes on stands: blocks of the current page first, then in round order (R142, R146). -/
def State.passRank (s : State) (x : Word × BlockPos × Nat) : Nat × Nat :=
  (boolNat (x.1 != s.getR R.PRS_CUR_TAG), ((s.page x.1).map fun p => p.order.idxOf x.2.1).getD 0)

/-- A block passes on from lane `l`: those that wait are handed out in round order (R146, R149). (DEDUCED: log 44) -/
def State.passOn (s : State) (j : Word × BlockPos) (l : Nat) : State :=
  let x := (j.1, j.2, l)
  let k := s.passRank x
  let before := fun (y : Word × BlockPos × Nat) => let m := s.passRank y
    Nat.blt m.1 k.1 || (m.1 == k.1 && Nat.ble m.2 k.2)
  { s with prs := { s.prs with passed := s.prs.passed.filter before ++ [x] ++ s.prs.passed.filter fun y => !before y } }

/-- Retire a lane (R150). (DEDUCED: log 44) -/
def State.retireLane (s : State) (l : Nat) : State :=
  let s := (s.putBitF F.PRS_STATUS_IN_SERVICE l false).putBitF F.PRS_STATUS_RETIRED l true
  let s := match (s.lane l).job with
    | some j => s.passOn j l
    | none => s
  let s := (s.setLane l {}).putF (F.PRS_LANE_STATE_STATE l) 3
  let s := (s.raise Ev.PRS_LANE_RETIRED l).setMend 0
  if s.getF F.PRS_STATUS_IN_SERVICE = 0 then s.noLane else s

/-- The four steps of R149 on a lane's output: it decodes to the raw lines, its CRC is theirs, and its cycle count is the
one measured. -/
def Lane.selfOk (x : Lane) : Bool :=
  match Zrb.validate x.out with
  | some r => r.2 == x.raw
  | none => false

/-- BLOCK_VERIFY (R145, R149, R150): the verifier of lane `l` ends. `seen` is what the lane's buffer holds where a hardware
fault has changed it, none where it holds what the lane wrote. -/
def execBlockVerify (l : Fin 4) (seen : Option (List Byte)) (s : State) : Res :=
  .next (
    let x := { s.lane l with out := seen.getD (s.lane l).out }
    match x.job.bind fun j => (s.page j.1).bind fun p => (p.planes[j.2.plane]?).map fun q => (j, p, q) with
    | none => s
    | some (j, p, q) =>
      if x.verified || s.pausedPage p.seq || s.laneReading l then s
      else if x.pre then
        if preOk p q j.2 x.out then s.setLane l { x with verified := true } else s.failPage p .badBlock
      else if x.selfOk then (s.setLane l { x with verified := true }).putF (F.PRS_LANE_STATE_STATE l) 2
      else
        let s := s.verifyFault l p q j.2 x.storedForm
        if s.getF (F.PRS_LANE_PGFAULT l) = 3 then s.retireLane l
        else if x.storedForm then
          let s := s.passOn j l
          (s.setLane l {}).putF (F.PRS_LANE_STATE_STATE l) 0
        else
          let y := { x with out := Zrb.storedForm q.depth x.raw q.width 2, storedForm := true, byFault := true }
          (s.setLane l y).putF (F.PRS_LANE_STATE_STATE l) 2)

/-! ## Storing (R146, R152, R153, R177) -/

/-- Take `n` free granules for a plane's chain. -/
def State.takeGrans : Nat → State → List Gran → State × List Gran
  | 0, s, acc => (s, acc)
  | n + 1, s, acc =>
    match s.freeGran with
    | some g => State.takeGrans n (s.takeGran g) (acc ++ [.cellar g])
    | none => (s, acc)

/-- The page in the Press leaves it: the next page takes its place. -/
def State.nextPage (s : State) : State :=
  let nxt := s.prs.nextTag
  let s := (s.putR R.PRS_CUR_TAG (nxt.getD 0#32)).putB F.PRS_STATUS_BUSY nxt.isSome
  { s.pausedFollow with prs := { s.prs with handed := s.prs.nextHanded, storedN := 0, nextTag := none, nextHanded := 0 } }

/-- PAGE_COMPLETE (R153, R43): PAGE_SUBMIT completes with OK and the page is STORED, or with STALE_GEOMETRY where a
switch has changed a generation since the stamp. -/
def State.pageComplete (s : State) (p : Page) : State :=
  if p.planes.any fun q => q.gen != s.getF (F.PRS_GEOM_GEN q.station) then s.failPage p .staleGeometry
  else
    let s := s.nextPage
    let s := s.updPage p.tag fun x => { x with st := .stored }
    s.complete 0 p.cid .ok 0 p.tag (BitVec.ofNat 32 p.grans)

/-- Granules that storing a lane's block takes (R177). -/
def Plane.needs (q : Plane) (x : Lane) : Nat := ceilDiv (Zrb.up8 q.chainEnd + x.out.length) 4096 - q.chain.length

/-- BLOCK_STORE (R146, R152, R177): the verified block of lane `l` is stored if every earlier block of its page is;
`cycles` is the time it held the lane. A block of the next page waits until that page is the one PRS_CUR_TAG names, since
PRS_CUR_TAG and the lanes' storing follow one page at a time. A lane that can neither be given granules nor have them freed by evictions waits. (DESIGN CHOICE: log 98) -/
def execBlockStore (l : Fin 4) (cycles : BitVec 24) (s : State) : Res :=
  .next (
    let x := s.lane l
    match x.job.bind fun j => (s.page j.1).bind fun p => (p.planes[j.2.plane]?).map fun q => (j, p, q) with
    | none => s
    | some (j, p, q) =>
      if !x.verified || s.pausedPage p.seq || p.tag != s.getR R.PRS_CUR_TAG || p.order[s.prs.storedN]? != some j.2 then s
      else
        let pos := Zrb.up8 q.chainEnd
        let need := q.needs x
        if s.granAvail < need then
          let s := s.evictFor (need - s.granAvail - s.evictGain)
          if need ≤ s.granAvail + s.evictGain then
            { (s.putF F.PRS_STATUS_SPACE_WAIT 0).putF (F.PRS_LANE_STATE_WAIT l) 0 with cel := { s.cel with waitSince := none } }
          else
            let s := (s.putF F.PRS_STATUS_SPACE_WAIT 1).putF (F.PRS_LANE_STATE_WAIT l) 1
            if s.cel.waitSince.isSome then s else { s with cel := { s.cel with waitSince := some s.tick } }
        else
          let r := State.takeGrans need s []
          let blk : Block := { stream := j.2.stream, round := j.2.round, pos := pos, data := x.out }
          let put := fun (y : Plane) => { y with
            chain := y.chain ++ r.2, chainEnd := pos + x.out.length, blocks := y.blocks ++ [blk] }
          let s := r.1.updPage p.tag fun y => y.updPlane j.2.plane put
          let s := { s with prs := { s.prs with storedN := s.prs.storedN + 1 }, cel := { s.cel with waitSince := none } }
          let ctr := if x.pre then R.PRS_PRE_BLOCKS else if x.byFault then R.PRS_STORED_VERIFY
            else if x.byBound then R.PRS_STORED_BOUND else R.PRS_BLOCKS_CODED
          let s := ((s.incR ctr 1).incR (R.PRS_LANE_BLOCKS l) 1).putF (F.PRS_LANE_CYCLES l) cycles.toNat
          let s := ((s.setLane l {}).putR (R.PRS_LANE_STATE l) 0#32).putF F.PRS_STATUS_SPACE_WAIT 0
          if p.order.length ≤ s.prs.storedN then
            match s.page p.tag with
            | some p2 => s.pageComplete p2
            | none => s
          else s)

/-- Can the block that is next to be stored be given granules, now or by evictions under way? -/
def State.spaceCame (s : State) (p : Page) : Bool :=
  s.prs.lanes.toList.any fun x => match x.job with
    | some j => j.1 == p.tag && p.order[s.prs.storedN]? == some j.2 && (match p.planes[j.2.plane]? with
      | some q => Nat.ble (q.needs x) (s.granAvail + s.evictGain)
      | none => false)
    | none => false

/-- SPACE_WAIT_TIMEOUT (R152): a lane has waited PRS_SPACE_WAIT ticks for granules. -/
def execSpaceWaitTimeout (s : State) : Res :=
  .next (
    match s.cel.waitSince, s.page (s.getR R.PRS_CUR_TAG) with
    | some t, some p =>
      if t + (s.getR R.PRS_SPACE_WAIT).toNat ≤ s.tick ∧ ¬s.spaceCame p then
        let s := { s with cel := { s.cel with waitSince := none } }
        let s := (s.putF F.PRS_STATUS_SPACE_WAIT 0).forEach 4 fun a l => a.putF (F.PRS_LANE_STATE_WAIT l) 0
        (s.failPage p .noSpace).raise Ev.PRS_NO_SPACE
      else s
    | _, _ => s)

end Sys2Proof.Machine
end

