-- ==== Sys2Proof/Machine/Cellar.lean ====
section
/-! DEFINITION. Machine/Cellar.lean: the admission pass, eviction, refill, Cellar errors and the granule audit (chapter 8). -/

namespace Sys2Proof.Machine

/-- ADMISSION_EVALUATION (R182, R183). -/
def execAdmissionEvaluation (s : State) : Res := .next s.admitPass

/-- Replace granule `i` of a plane's chain. -/
def State.moveGran (s : State) (tag : Word) (plane i : Nat) (g : Gran) : State :=
  s.updPage tag fun p => p.updPlane plane fun q => { q with chain := q.chain.set i g }

/-- Granule `i` of a plane's chain. -/
def State.granAt (s : State) (tag : Word) (plane i : Nat) : Option Gran :=
  (s.page tag).bind fun p => (p.planes[plane]?).bind fun q => q.chain[i]?

/-- Unlocked granules of retiring banks are evicted ahead of all other eviction (R191). (DEDUCED: log 43) -/
def State.evictRetiring (s : State) : State := State.evictFor s.retiringVictims.length s

/-- Is the page's storage locked (R179)? -/
def State.locked (s : State) (tag : Word) : Bool :=
  match s.page tag with
  | some p => p.st == .committed || p.st == .picked
  | none => false

/-- An eviction that channel 6 has written. -/
def State.evictionWritten (s : State) : Option (Word × Nat × Nat × Nat) :=
  s.cel.evicting.find? fun e => !((s.chan 6).issued ++ (s.chan 6).queued).any fun t => t.addr == 4096 * e.2.2.2

/-- EVICTION_DONE (R187, R191): channel 6 has written a granule to DRAM, and it is freed. A granule that has been locked
meanwhile stays where it is (R179). (DEDUCED: log 76) -/
def execEvictionDone (s : State) : Res :=
  .next (
    match s.evictionWritten with
    | none => s
    | some (tag, plane, i, d) =>
      let old := s.granAt tag plane i
      let r := s.cel.evicting.erase (tag, plane, i, d)
      let s := { s with cel := { s.cel with evicting := r } }.putB F.CEL_STATUS_EVICTING (!r.isEmpty)
      if s.locked tag then s.freeOne (.dram d)
      else
        let s := s.moveGran tag plane i (.dram d)
        let s := match old with
          | some g => s.freeOne g
          | none => s
        (s.incR R.CEL_EVICT_GRAN 1).banksFollow.evictRetiring.winFollow)

/-- The next granule to refill: the oldest STORED page that has evicted granules, ascending rounds, planes in order. -/
def State.refillNext (s : State) : Option (Word × Nat × Nat × Nat) :=
  (s.cel.pages.filter fun p => p.st == .stored).findSome? fun p =>
    let out := (p.planes.zipIdx).flatMap fun qi => (qi.1.chain.zipIdx).filterMap fun gi =>
      match gi.1 with
      | .dram d =>
        if s.cel.refilling.any fun e => e.1 == p.tag && e.2.1 == qi.2 && e.2.2.1 == gi.2 then none
        else some (qi.1.granRound gi.2, qi.2, gi.2, d)
      | .cellar _ => none
    let low := (out.map fun x => x.1).foldl min 1000000
    (out.find? fun x => x.1 == low).map fun x => (p.tag, x.2.1, x.2.2.1, x.2.2.2)

/-- REFILL (R188): one granule of the oldest STORED page with evicted granules starts on channel 7. -/
def execRefill (s : State) : Res :=
  .next (
    if s.getF F.CEL_GRAN_FREE ≤ s.getF F.CEL_REFILL_RESERVE ∨ s.granAvail = 0 ∨ s.cel.evicting ≠ [] ∨ s.flag F.PRS_STATUS_SPACE_WAIT then s
    else match s.refillNext, s.freeGran with
      | some (tag, plane, i, d), some g =>
        let s := s.takeGran g
        let s := { s with cel := { s.cel with refilling := s.cel.refilling ++ [(tag, plane, i, g)] } }
        (s.putF F.CEL_STATUS_REFILLING 1).transfer 7 (4096 * d) 4096 false
      | _, _ => s)

/-- The refill whose DRAM granule lies at `addr`, if it is still wanted. -/
def State.refillAt (s : State) (addr : Nat) : Option (Word × Nat × Nat × Nat) :=
  s.cel.refilling.find? fun e => s.granAt e.1 e.2.1 e.2.2.1 == some (.dram (addr / 4096))

/-- Take one refill off the list of those in progress. -/
def State.endRefill (s : State) (e : Word × Nat × Nat × Nat) : State :=
  let r := s.cel.refilling.erase e
  { s with cel := { s.cel with refilling := r } }.putB F.CEL_STATUS_REFILLING (!r.isEmpty)

/-- A refill ends: the granule is in the Cellar again and its DRAM granule is free. A granule that has been locked meanwhile
stays in DRAM (R179). (DEDUCED: log 76) -/
def State.refillDone (s : State) (e : Word × Nat × Nat × Nat) : State :=
  if s.locked e.1 then ((s.endRefill e).freeOne (.cellar e.2.2.2)).banksFollow
  else
  let old := s.granAt e.1 e.2.1 e.2.2.1
  let s := (s.endRefill e).moveGran e.1 e.2.1 e.2.2.1 (.cellar e.2.2.2)
  let s := match old with
    | some o => s.freeOne o
    | none => s
  s.incR R.CEL_REFILL_GRAN 1

/-- A granule of a page is uncorrectable: the blocks that touch it are damaged, and so is the page (R190). The event gives the
round of the first block that touches the granule. (DESIGN CHOICE: log 77) -/
def State.damage (s : State) (tag : Word) (plane i : Nat) : State :=
  match (s.page tag).bind fun p => p.planes[plane]? with
  | none => s
  | some q =>
    let s := s.updPage tag fun p => { p.updPlane plane fun y =>
      { y with blocks := mapIf (fun b => b.grans.contains i) (fun b => { b with damaged := true }) y.blocks } with damaged := true }
    s.raise Ev.CEL_PAGE_DAMAGED q.station tag (BitVec.ofNat 32 (q.granRound i))

/-- The page, plane and chain position that hold a Cellar granule. -/
def State.ownerOf (s : State) (g : Nat) : Option (Word × Nat × Nat) :=
  s.cel.pages.findSome? fun p => (p.planes.zipIdx).findSome? fun qi =>
    ((qi.1.chain.zipIdx).find? fun x => x.1 == .cellar g).map fun x => (p.tag, qi.2, x.2)

/-- Start the retirement of bank `k` (R191). The event carries the bank number in its INSTANCE field. (DESIGN CHOICE: log 78) -/
def State.retireBank (s : State) (k : Nat) : State :=
  let free := ((List.range 256).filter fun j => !s.cel.used.contains (256 * k + j)).length
  let s := s.putR R.CEL_BANK_RETIRING (s.getR R.CEL_BANK_RETIRING ||| ones k 1)
  let s := (s.putF F.CEL_GRAN_FREE (s.getF F.CEL_GRAN_FREE - free)).putF F.CEL_GRAN_ALLOC (s.getF F.CEL_GRAN_ALLOC + free)
  let s := (s.raise Ev.CEL_BANK_RETIRED k).setMend 1
  (s.bankFollow k).evictRetiring

/-- CELLAR_SRAM_ERROR (R190, R191): an error in a granule; a single-bit error is corrected and counted. -/
def execCellarSramError (gran : Fin 8192) (uncorrectable : Bool) (s : State) : Res :=
  .next (
    if !uncorrectable then s.incR R.CEL_SRAM_CORR 1
    else
      let k := gran.val / 256
      let s := s.incR R.CEL_SRAM_UNCORR 1
      let n := s.getF (F.CEL_BANK_UERR_COUNT k)
      let s := s.putF (F.CEL_BANK_UERR_COUNT k) (min 3 (n + 1))
      let s := match s.ownerOf gran with
        | some x => s.damage x.1 x.2.1 x.2.2
        | none => s
      if n = 2 then s.retireBank k else s)

/-- Granules of pages (with those on the way in or out), by kind. -/
def State.granHeld (s : State) (cellar : Bool) : Nat :=
  let inChains := (s.cel.pages.map fun p => (p.planes.map fun q => (q.chain.filter fun g => g.inCellar == cellar).length).foldl (· + ·) 0).foldl (· + ·) 0
  inChains + (if cellar then s.cel.refilling.length else s.cel.evicting.length)

/-- Granules of retiring banks that no page or refill holds: out of service, counted as allocated (R191). -/
def State.granOut (s : State) : Nat :=
  (List.range 32).map (fun k =>
    if (s.getR R.CEL_BANK_RETIRING).getLsbD k then
      256 - (s.cel.pages.map fun p => (p.planes.map fun q => (q.chain.filter fun g => match g with
        | .cellar n => n / 256 == k
        | .dram _ => false).length).foldl (· + ·) 0).foldl (· + ·) 0
        - (s.cel.refilling.filter fun e => e.2.2.2 / 256 == k).length
    else 0) |>.foldl (· + ·) 0

/-- The granule audit (R192). -/
def State.granuleAudit (s : State) : State :=
  let total := s.getF F.CEL_GRAN_TOTAL
  let dAlloc := s.getF F.CEL_DGRAN_TOTAL - s.getF F.CEL_DGRAN_FREE
  if s.getF F.CEL_GRAN_FREE + s.getF F.CEL_GRAN_ALLOC = total ∧ s.getF F.CEL_DGRAN_FREE ≤ s.getF F.CEL_DGRAN_TOTAL
      ∧ s.granHeld true + s.granOut = s.getF F.CEL_GRAN_ALLOC ∧ s.granHeld false = dAlloc then s
  else (s.putF F.CEL_STATUS_AUDIT_FAIL 1).raise Ev.CEL_AUDIT

end Sys2Proof.Machine
end

