-- ==== Sys2Proof/Machine/OpsAngle.lean ====
section
/-! DEFINITION. Machine/OpsAngle.lean: the angle of a vector, in 1/1,024 turn rounded down (R263). -/

namespace Sys2Proof.Machine

/-- tan(2π k ÷ 1,024) in 1/2^72, rounded down, for k from 1. -/
def tan1024a : List Nat :=
  [28976441483243613383, 57955065003542428016, 86938053255264142694, 115927590247822261996,
   144925861964251488342, 173935057021047396629, 202957367329693980593, 231994988760304517549,
   261050121807803525871, 290124972261080391426, 319221751875548519921, 348342679049547637224,
   377489979505031115673, 406665886972984958242, 435872643884030332444, 465112502064667320820,
   494387723439623854746, 523700580740780633857, 553053358223150216308, 582448352388396408251,
   611887872716388597808, 641374242405294784481, 670909799120726765070, 700496895754461268798,
   730137901193271805662, 759835201098417622361, 789591198696348470144, 819408315581196900485,
   849288992529643540978, 879235690328755289970, 909250890617411630363, 939337096741950328698]

/-- tan(2π k ÷ 1,024) in 1/2^72, rounded down, for k from 33. -/
def tan1024b : List Nat :=
  [969496834626680684234, 999732653659930255634, 1030047127596309652835, 1060442855475899573549,
   1090922462561084824403, 1121488601291781634843, 1152143952259827188553, 1182891225203324005686,
   1213733160021756655299, 1244672527812724309402, 1275712131931159918801, 1306854809071935350253,
   1338103430376781731114, 1369460902566485561395, 1400930169099353937259, 1432514211356976551037,
   1464216049858348061223, 1496038745503452035841, 1527985400847447042455, 1560059161406636670615,
   1592263216997448415018, 1624600803109691512379, 1657075202315411109244, 1689689745714705644660,
   1722447814419926169344, 1755352841079730606513, 1788408311444522810260, 1821617765974865823340,
   1854984801494521113127, 1888513072889830915521, 1922206294857229293397, 1956068243700739279026]

/-- tan(2π k ÷ 1,024) in 1/2^72, rounded down, for k from 65. -/
def tan1024c : List Nat :=
  [1990102759181388688521, 2024313746420556050220, 2058705177859340768263, 2093281095276138348522,
   2128045611864692459969, 2163002914374991016140, 2198157265319473578215, 2233513005247122456914,
   2269074555088120194192, 2304846418571871922899, 2340833184721312735992, 2377039530426547967993,
   2413470223101008541264, 2450130123423444620774, 2487024188169229138184, 2524157473134598698294,
   2561535136157623403049, 2599162440239869682544, 2637044756772901800740, 2675187568873958828981,
   2713596474835345109974, 2752277191692284161645, 2791235558914209225878, 2830477542224698924695,
   2870009237555514463421, 2909836875140456281760, 2949966823755033815671, 2990405595108232966231,
   3031159848392972906045, 3072236395002167981988, 3113642203417652755806, 3155384404279589795096]

/-- tan(2π k ÷ 1,024) in 1/2^72, rounded down, for k from 97. -/
def tan1024d : List Nat :=
  [3197470295644361898388, 3239907348439354306111, 3282703212123459501464, 3325865720562588926875,
   3369402898129953923525, 3413322966041384147621, 3457634348936487454676, 3502345681717022731029,
   3547465816654458492150, 3593003830779327515908, 3638969033565663758575, 3685370974924524914496,
   3732219453521365024685, 3779524525432829523181, 3827296513159403269480, 3875546015011253934372,
   3924283914885582336849, 3973521392454822013803, 4023269933786126799770, 4073541342413752201159,
   4124347750887178940494, 4175701632819150697523, 4227615815459208702029, 4280103492819809832394,
   4333178239383719160361, 4386854024423079939561, 4441145226962391965690, 4496066651419581817533,
   4551633543961435235178, 4607861609611893124619, 4664767030154099596524]

/-- Whole steps of 1/1,024 turn in the angle of a vector of the first octant: 0 ≤ y ≤ x. -/
def octant (x y : Nat) : Nat :=
  if x ≤ y then 128
  else (tan1024a ++ tan1024b ++ tan1024c ++ tan1024d).foldl (fun n t => if Nat.blt (x * t) (y * 2 ^ 72) then n + 1 else n) 0

/-- Is the angle in a first octant a whole number of steps? Only 0 and 1/8 turn are, for whole x and y. -/
def octantWhole (x y : Nat) : Bool := y == 0 || x == y

/-- Whole steps from `n` steps of a range that runs backwards, `top` at its start. -/
def backSteps (top n : Nat) (whole : Bool) : Nat := if whole then top - n else top - n - 1

/-- The angle of (x, y) in whole steps of 1/1,024 turn, rounded down, and whether it is exact. -/
def angle1024 (x y : Int) : Nat × Bool :=
  let ax := x.natAbs
  let ay := y.natAbs
  let low := Nat.ble ay ax
  let n := if low then octant ax ay else octant ay ax
  let whole := if low then octantWhole ax ay else octantWhole ay ax
  -- within the first quadrant
  let q := if low then n else backSteps 256 n whole
  let a := if 0 ≤ x ∧ 0 ≤ y then q
    else if x < 0 ∧ 0 ≤ y then backSteps 512 q whole
    else if x < 0 then 512 + q
    else backSteps 1024 q whole
  (a % 1024, whole)

end Sys2Proof.Machine
end

