-- ==== Sys2Proof/Machine/OpsFbk.lean ====
section
/-! DEFINITION. Machine/OpsFbk.lean: moves of a feedback channel, compare units, probes, SC samples and speed (R260–R273). -/

namespace Sys2Proof.Machine

def State.fbkOf (s : State) (c : Fin 18) : Fbk := s.fbk[c]

def State.updFbk (s : State) (c : Fin 18) (f : Fbk → Fbk) : State := { s with fbk := s.fbk.set c (f s.fbk[c]) }

/-- Signed difference of two positions (R260). -/
def posDiff (a b : Word) : Int := (a - b).toInt

def State.pos (s : State) (c : Nat) : Word := s.getR (R.FBK_POS c)

/-! ## Compare units (R272, R273) -/

/-- Does a move from `old` to `new` cross the threshold in a unit's direction? -/
def crosses (dir : Nat) (old new thr : Word) : Bool :=
  let up := decide (posDiff old thr < 0) && decide (0 ≤ posDiff new thr)
  let dn := decide (0 < posDiff old thr) && decide (posDiff new thr ≤ 0)
  if dir = 1 then up else if dir = 2 then dn else up || dn

/-- Compare unit `u` fires at time `ts`. (DEDUCED: log 49) -/
def State.fireCmp (s : State) (u ts : Nat) : State :=
  let s := (s.incR (R.FBK_CMP_CNT u) 1).putP (R.FBK_CMP_TS_LO u) ts
  let s := if s.flag (F.FBK_CMP_CFG_PERIODIC u) then s.putR (R.FBK_CMP_POS u) (s.getR (R.FBK_CMP_POS u) + s.getR (R.FBK_CMP_STEP u))
    else s.putF (F.FBK_CMP_CFG_EN u) 0
  let s := if s.flag (F.FBK_CMP_CFG_EVT u) then s.fire 0x01 u else s
  let n := s.getF (F.FBK_CMP_CFG_SN u)
  let s := if s.flag (F.FBK_CMP_CFG_PIN u) && s.getF (F.SNS_CFG_DIR n) == 2 then
      { s with pulses := (n, s.tsc.toNat + 200 * s.getF (F.SNS_CFG_PULSE n)) :: s.pulses.filter fun x => x.1 != n }
    else s
  if s.flag (F.FBK_CMP_CFG_TOP u) && Nat.blt (s.getF (F.FBK_CMP_CFG_STATION u)) 6 then
    s.topFire (Fin.ofNat 6 (s.getF (F.FBK_CMP_CFG_STATION u))) ts
  else s

def State.setCmpAt (s : State) (u : Nat) (p : Option Word) : State := { s with cmpAt := s.cmpAt.setIfInBounds u p }

/-- Judge every unit of channel `c` for a move; units fire in ascending order. A unit judges its first move against the
position at the moment it was enabled. (DEDUCED: log 49) -/
def State.compares (s : State) (c : Nat) (old new : Word) (ts : Nat) : State :=
  s.forEach 16 fun a u =>
    if a.flag (F.FBK_CMP_CFG_EN u) && a.getF (F.FBK_CMP_CFG_CH u) == c then
      let from_ := (a.cmpAt.toList.getD u none).getD old
      let a := a.setCmpAt u none
      if crosses (a.getF (F.FBK_CMP_CFG_DIR u)) from_ new (a.getR (R.FBK_CMP_POS u)) then a.fireCmp u ts else a
    else a

/-- A write of FBK_CMP_CFG: a unit that it enables, or moves to another channel, keeps the position of that moment (R272). -/
def State.cmpWrite (s : State) (u : Nat) (w : Word) : State :=
  let was := s.flag (F.FBK_CMP_CFG_EN u)
  let ch := s.getF (F.FBK_CMP_CFG_CH u)
  let s := s.putR (R.FBK_CMP_CFG u) (w &&& 0x3F7FFF#32)
  if s.flag (F.FBK_CMP_CFG_EN u) ∧ (¬was ∨ s.getF (F.FBK_CMP_CFG_CH u) ≠ ch) then s.setCmpAt u (some (s.pos (s.getF (F.FBK_CMP_CFG_CH u))))
  else s

/-! ## Moves -/

/-- DIR follows a new position (R266). (DEDUCED: log 49) -/
def State.dirFollow (s : State) (c : Fin 18) (p : Word) : State :=
  let k := (s.fbkOf c).peak
  let flip := fun (up : Bool) => (s.putB (F.FBK_STATUS_DIR c) up).updFbk c fun f => { f with peak := p }
  let keep := s.updFbk c fun f => { f with peak := p }
  if s.flag (F.FBK_STATUS_DIR c) then
    if 0 < posDiff p k then keep else if posDiff p k ≤ -2 then flip false else s
  else if posDiff p k < 0 then keep else if 2 ≤ posDiff p k then flip true else s

/-- Step the position by `d`: the direction and the compare units follow. -/
def State.stepPos (s : State) (c : Fin 18) (d : Int) (ts : Nat) : State :=
  let old := s.pos c
  let new := old + BitVec.ofInt 32 d
  ((s.putR (R.FBK_POS c) new).dirFollow c new).compares c old new ts

/-- A count change at time `ts`: an edge (R267). -/
def State.count (s : State) (c : Fin 18) (d : Int) (ts : Nat) : State :=
  let s := s.updFbk c fun f => { f with edges := ((ts, if d < 0 then -1 else 1) :: f.edges).take 2 }
  s.stepPos c d ts

/-- The sense of counting (R262). -/
def State.sense (s : State) (c : Fin 18) (d : Int) : Int := if s.flag (F.FBK_CFG_INVERT c) then -d else d

/-! ## Speed (R267) -/

/-- FBK_SPD and SPD_VALID of a channel at a tick boundary. -/
def State.speed (s : State) (c : Fin 18) : State :=
  let f := s.fbkOf c
  let lim := 200 * s.getF (F.FBK_SPD_TO c)
  let v : Option F32 := match f.edges with
    | [(t2, a), (t1, b)] =>
      let d := t2 - t1
      let t := s.tsc.toNat - t2
      if a = b ∧ d ≤ lim ∧ t ≤ lim then
        some (if c.val < 12 then (if max d t = 0 then F32.zero false else F32.ofRat (a * 200000000) (max d t)) else F32.ofInt (f.moved * 50000))
      else none
    | _ => none
  (s.putR (R.FBK_SPD c) (v.getD 0#32)).putB (F.FBK_STATUS_SPD_VALID c) v.isSome

def State.speeds (s : State) : State := s.each (List.finRange 18) State.speed

/-! ## Probes (R270) -/

/-- The registers show the oldest available entry. -/
def State.probeFollow (s : State) (p : Fin 8) : State :=
  let l := (s.probes[p]).takeWhile fun e => e.pos.isSome
  let s := s.putF (F.SNS_PRB_STATUS_COUNT p) l.length
  match l with
  | e :: _ => (s.putP (R.SNS_PRB_TS_LO p) e.tsc).putR (R.SNS_PRB_POS p) (e.pos.getD 0#32)
  | [] => (s.putP (R.SNS_PRB_TS_LO p) 0).putR (R.SNS_PRB_POS p) 0#32

/-- Positions of latches of SC channel `c` that fall between a sample at `t0` (position `p0`) and the next at `t1` (`p1`),
by linear interpolation; each entry that becomes available fires source class 0x02. -/
def State.probeFill (s : State) (c t0 : Nat) (p0 : Word) (t1 : Nat) (p1 : Word) : State :=
  s.each (List.finRange 8) fun a p =>
    let due := fun (e : Latch) => e.src == c && e.pos.isNone && Nat.ble t0 e.tsc && Nat.ble e.tsc t1
    let fill := fun (e : Latch) => if due e then
        { e with pos := some (p0 + BitVec.ofInt 32 (if t1 = t0 then 0 else Int.fdiv (posDiff p1 p0 * (e.tsc - t0 : Nat)) (t1 - t0 : Nat))) }
      else e
    let n := ((a.probes[p]).filter due).length
    if n = 0 then a
    else
      let a := ({ a with probes := a.probes.set p ((a.probes[p]).map fill) }).probeFollow p
      a.forEach n fun b _ => b.fire 0x02 p

/-! ## Sine/cosine and resolver samples (R263–R265) -/

/-- A signal fault begins (R265). -/
def State.sigFault (s : State) (c : Fin 18) : State :=
  if s.flag (F.FBK_STATUS_SIG_FAULT c) then s
  else
    let s := (s.putB (F.FBK_STATUS_SIG_FAULT c) true).updFbk c fun f => { f with good := 0, angle := none }
    s.raise Ev.FBK_SIG_FAULT c

/-- The angle of a sine and a cosine in 1/1,024 line (R263). -/
def scAngle (sin cos : Int) : Nat :=
  let a := angle1024 cos sin
  (a.1 + (if !a.2 && Config.scRoundUp sin cos then 1 else 0)) % 1024

/-- One sample of an SC channel, or one update of a resolver: the corrected codes of sine and cosine, taken at `ts`; the
previous one was taken at `t0`. -/
def State.scValue (s : State) (c : Fin 18) (t0 ts : Nat) (sin cos : Int) : State :=
  let res := s.getF (F.FBK_CFG_MODE c) == 5
  let a := sin - signed 16 (s.getF (F.FBK_SC_OFS_SIN c))
  let b := cos - signed 16 (s.getF (F.FBK_SC_OFS_COS c))
  let x := a * 32768
  let y := b * s.getF (F.FBK_SC_GAIN_COS_GAIN c)
  let amp : Int := s.getF (F.FBK_SC_GAIN_AMP c) * 32768
  let m := x * x + y * y
  let okAmp := decide (9 * amp * amp ≤ 25 * m) && decide (25 * m ≤ 49 * amp * amp)
  let f := s.fbkOf c
  let ang := scAngle x y
  let d := match f.angle with
    | some p => signed 10 ((ang + 1024 - p) % 1024)
    | none => 0
  let fast := decide ((if res then (128 : Int) else 256) < d.natAbs)
  if s.flag (F.FBK_STATUS_SIG_FAULT c) then
    let good := if okAmp && !fast then f.good + 1 else 0
    let s := (s.updFbk c fun f => { f with good := good, angle := some ang, bad := 0 }).probeFill c t0 (s.pos c) ts (s.pos c)
    if (if res then 20 else 1000) ≤ good then
      (s.putB (F.FBK_STATUS_SIG_FAULT c) false).putB (F.FBK_STATUS_POS_LOST c) true
    else s
  else
    let bad := if okAmp then 0 else f.bad + 1
    let s := s.updFbk c fun f => { f with bad := bad }
    if 4 ≤ bad ∨ fast then (s.sigFault c).probeFill c t0 (s.pos c) ts (s.pos c)
    else
      let old := s.pos c
      let e := s.sense c d
      let s := s.updFbk c fun f => { f with angle := some ang, moved := f.moved + e }
      let s := if e = 0 then s else s.count c e ts
      s.probeFill c t0 old ts (s.pos c)

/-- Is an SC channel on? -/
def State.isSc (s : State) (c : Fin 18) : Bool := s.getF (F.FBK_CFG_MODE c) == 4 || s.getF (F.FBK_CFG_MODE c) == 5

/-- What SC_n_EXC drives at `ts` (R264): amplitude in 1/255 of full scale, place in the 10 kHz cycle in µs, and whether the
sine is in its positive half-cycle; none while the excitation is off. The sine starts a cycle at TSC 0. (DEDUCED: log 49) -/
def State.excitation (s : State) (c : Fin 18) (ts : Nat) : Option (Nat × Nat × Bool) :=
  let amp := s.getF (F.FBK_SC_EXC_AMP c)
  let at_ := ts / 200 % 100
  if s.getF (F.FBK_CFG_MODE c) = 5 ∧ amp ≠ 0 then some (amp, at_, Nat.blt at_ 50) else none

/-- A pair of converter codes sampled at `ts`: in sine/cosine mode a sample, in resolver mode a part of the excitation
half-cycle in progress. Each code counts with the polarity of the excitation, and the 50 codes of a half-cycle demodulate to
one update at its last sample; a half-cycle some of whose samples a missed frame took gives none. (DEDUCED: log 49) -/
def State.scSample (s : State) (c : Fin 18) (ts : Nat) (sin cos : Int) : State :=
  let t0 := (s.fbkOf c).lastAt
  if s.getF (F.FBK_CFG_MODE c) = 4 then
    (s.scValue c t0 ts sin cos).updFbk c fun f => { f with lastAt := ts }
  else
    match s.excitation c ts with
    | none => s.updFbk c fun f => { f with cycle := [] }
    | some (_, at_, up) =>
      let way : Int := if up then 1 else -1
      let l := (if at_ % 50 = 0 then [] else (s.fbkOf c).cycle) ++ [(way * sin, way * cos)]
      if at_ % 50 ≠ 49 then s.updFbk c fun f => { f with cycle := l }
      else
        let s := s.updFbk c fun f => { f with cycle := [] }
        if l.length = 50 then
          (s.scValue c t0 ts (Config.demod (l.map Prod.fst)) (Config.demod (l.map Prod.snd))).updFbk c fun f => { f with lastAt := ts }
        else s

/-! ## Index (R268, R269) -/

/-- The index position expected nearest the present position: FBK_IDX_POS + n × FBK_REV (R268). The answer is the error. -/
def State.indexError (s : State) (c : Fin 18) : Int :=
  let rev : Int := (s.getR (R.FBK_REV c)).toNat
  let d := posDiff (s.pos c) (s.getR (R.FBK_IDX_POS c))
  if rev = 0 then d else
    let m := d.emod rev
    if 2 * m ≤ rev then m else m - rev

/-- A rising edge of the index input at the present position, stamped `ts`. A correction is no step while a signal fault
holds the position (R265). (DEDUCED: log 49) -/
def State.indexTake (s : State) (c : Fin 18) (ts : Nat) : State :=
  let mode := s.getF (F.FBK_CFG_MODE c)
  let taken := s.flag (F.FBK_CFG_IDX_EN c) && mode != 0 && (mode != 2 || (s.fbkOf c).ab == some 3) && !s.flag (F.FBK_STATUS_IDX_DROPPED c)
  if taken then
    if ¬s.flag (F.FBK_STATUS_IDX_VALID c) ∨ s.flag (F.FBK_STATUS_POS_LOST c) then
      let s := (s.putR (R.FBK_IDX_POS c) (s.pos c)).putF (F.FBK_STATUS_IDX_VALID c) 1
      s.putF (F.FBK_STATUS_POS_LOST c) 0
    else
      let e := s.indexError c
      if e.natAbs ≤ s.getF (F.FBK_IDX_WIN c) then
        let s := ((s.putR (R.FBK_IDX_ERR c) (BitVec.ofInt 32 e)).incR (R.FBK_IDX_CORR c) 1).putF (F.FBK_STATUS_IDX_CONSEC c) 0
        if e = 0 ∨ s.flag (F.FBK_STATUS_SIG_FAULT c) then s else s.stepPos c (-e) ts
      else
        let n := s.getF (F.FBK_STATUS_IDX_CONSEC c) + 1
        let s := ((s.incR (R.FBK_IDX_MISM c) 1).putF (F.FBK_STATUS_IDX_CONSEC c) n).raise Ev.INDEX_MISMATCH c
        if 3 ≤ n then (s.putF (F.FBK_STATUS_IDX_DROPPED c) 1).raise Ev.FBK_INDEX_DROPPED c else s
  else s

/-- The index edges of an SC channel that the sample at `ts` is the first to see (R263). -/
def State.scIndex (s : State) (c : Fin 18) (ts : Nat) : State :=
  let due := (s.fbkOf c).idxAt.filter fun t => Nat.ble t ts
  let s := s.updFbk c fun f => { f with idxAt := f.idxAt.filter fun t => Nat.blt ts t }
  s.each due fun a _ => a.indexTake c ts

/-- The samples of one upward frame (R263): sample `k` of 20 was taken k + 1 µs after the previous tick boundary. An index
edge that no sample saw, its frame missed or its channel off, is lost. (DEDUCED: log 49) -/
def State.scFrame (s : State) (c : Fin 18) (l : Vector (Int × Int) 20) : State :=
  let base := (s.tick - 1) * 4000
  let s := s.updFbk c fun f => { f with idxAt := f.idxAt.filter fun t => s.isSc c && Nat.blt base t }
  if s.isSc c then
    let s := s.updFbk c fun f => { f with moved := 0 }
    l.toList.zipIdx.foldl (fun a x =>
      let ts := base + 200 * (x.2 + 1)
      (a.scSample c ts x.1.1 x.1.2).scIndex c ts) s
  else s

/-! ## The channels at the tick boundary (R279) -/

/-- A channel as it stands. -/
def State.fbkNow (s : State) (c : Fin 18) : FbkAt :=
  { pos := s.pos c, sector := (s.fbkOf c).sector, edge := ((s.fbkOf c).edges.head?).map Prod.fst, speed := s.getR (R.FBK_SPD c)
    valid := s.flag (F.FBK_STATUS_SPD_VALID c), bad := s.flag (F.FBK_STATUS_SIG_FAULT c) || s.flag (F.FBK_STATUS_POS_LOST c) }

/-- Keep the given channels as they stand. -/
def State.fbkKeep (s : State) (p : Fin 18 → Bool) : State :=
  { s with brg := { s.brg with fbkAt := Vector.ofFn fun c => if p c then s.fbkNow c else s.brg.fbkAt[c] } }

/-- At the tick boundary the Core die's own channels stand at t0; those of the Drive die do after the frame of t0. -/
def State.fbkTick (s : State) : State := s.fbkKeep fun c => Nat.blt c.val 12

def State.fbkFrame (s : State) : State := s.fbkKeep fun c => Nat.ble 12 c.val

/-- What the loops of a tick read whose frame came late: the Drive die's image and the feedback words before it (R22). -/
def State.loopView (s : State) : State :=
  match s.brg.before with
  | some (up, fb) =>
    let base := s.regs.filter fun r => r.1 / 0x10000 != 0x0D
    { s with up := up, regs := fb.foldl (fun m r => SMap.set resetWord m r.1 r.2) base }
  | none => s

end Sys2Proof.Machine
end

