-- ==== Sys2Proof/Machine/OpsGate.lean ====
section
/-! DEFINITION. Machine/OpsGate.lean: the power stage: group faults, policies, return to service, retirement, bootstrap
refresh (R292–R307), and the lines and safe state of the die bridge (R23, R24, Table 1-4). -/

namespace Sys2Proof.Machine

/-! ## The lines of Table 1-4 -/

/-- BRG_STATUS.LINES shows KILL_DN, SAFE_UP, ILK_UP and GFLT_UP from bit 8 (ILK_UP is kept by its own commands). -/
def State.linesFollow (s : State) : State :=
  let s := s.putBitF F.BRG_STATUS_LINES 0 s.brg.kill
  let s := s.putBitF F.BRG_STATUS_LINES 1 (s.flag F.BRG_STATUS_DRIVE_SAFE)
  s.putBitF F.BRG_STATUS_LINES 3 (s.flag F.GDR_STATUS_GRP_FAULT)

/-! ## Supplies (R17, R401, R466) -/

/-- Is VANA_5 good? -/
def State.vanaGood (s : State) : Bool := s.getF (F.PSQ_RAIL_STATUS_STATE Config.vanaRail) == 3

/-- UVLO thresholds in mV of a gate supply and of a high-side supply at its nominal voltage (Table 14-2): falling, rising. -/
def State.vglMv (s : State) (v : Nat) : Nat × Nat :=
  [(8600, 9100), (10300, 10800), (12900, 13400)].getD (bits (s.getR R.GDR_VGL_CFG) (2 * v) 2) (12900, 13400)

def State.bstMv (s : State) (h : Nat) : Nat × Nat :=
  [(6500, 7500), (8000, 9000), (10000, 11000)].getD (bits (s.getR R.GDR_VGL_CFG) (2 * (h / 12)) 2) (10000, 11000)

/-- Is VGL_v below its thresholds, once armed (R459)? -/
def State.vglLow (s : State) (v : Nat) : Bool := s.bitF F.GDR_STATUS_VGL_UV v

/-- Is VGL_v good: risen through its rising threshold, and not fallen since? -/
def State.vglGood (s : State) (v : Nat) : Bool := s.brg.armedVgl.toList.getD v false && !s.vglLow v

/-- Are the engine outputs held off: in the safe state, in NO_VINTAGE, FAULT and POWERING_DOWN (Table 1-6, R23)? -/
def State.outputsHeld (s : State) : Bool :=
  s.flag F.BRG_STATUS_DRIVE_SAFE || s.getF F.DEV_STATE_STATE == 3 || s.getF F.DEV_STATE_STATE == 6 || s.getF F.DEV_STATE_STATE == 7

/-- May the gates of a group be driven? -/
def State.gatesLive (s : State) (g : Nat) : Bool := s.vanaGood && s.vglGood (g / 3) && !s.outputsHeld

/-! ## Half-bridges and groups -/

def State.half (s : State) (h : Nat) : Half := s.brg.half.toList.getD h {}

def State.setHalf (s : State) (h : Nat) (x : Half) : State := { s with brg := { s.brg with half := s.brg.half.setIfInBounds h x } }

def State.grp (s : State) (g : Nat) : Group := s.brg.grp.toList.getD g {}

def State.setGrp (s : State) (g : Nat) (x : Group) : State := { s with brg := { s.brg with grp := s.brg.grp.setIfInBounds g x } }

/-- Put a half-bridge in both-off. -/
def State.bothOff (s : State) (h : Nat) : State := s.setHalf h {}

/-- The half-bridges of GRP_g that hold a role of its motor channel (R274). A solenoid without an A− role uses independent
mode (R293). -/
def State.roles (s : State) (g : Nat) : List Nat :=
  let hb := fun (k : Nat) => 4 * g + bits (s.getR (R.MOT_HB_MAP g)) (2 * k) 2
  match s.getF (F.MOT_CFG_TYPE g) with
  | 1 => [hb 0, hb 1, hb 2]
  | 2 => [hb 0, hb 1, hb 2, hb 3]
  | 3 => [hb 0, hb 1]
  | 4 => if s.flag (F.GDR_HB_CFG_MODE (hb 0)) then [hb 0] else [hb 0, hb 1]
  | _ => []

/-- A latched fault keeps this half-bridge off whatever the policy: a latched cause of its own, or retirement. -/
def State.hbLatched (s : State) (h : Nat) : Bool := bits (s.getR (R.GDR_HB_STATUS h)) 0 5 != 0

/-- Is a cause latched in the group (1 UV_BST to 5 BUS_OV)? -/
def State.hasCause (s : State) (g c : Nat) : Bool := s.bitF (F.GDR_GRP_STATUS_CAUSES g) (c - 1)

/-- The policy in force: 0 GROUP_OFF, 1 GROUP_SHORT, 2 HB_OFF (R300, R301). -/
def State.policy (s : State) (g : Nat) : Nat :=
  if s.hasCause g 2 || s.hasCause g 4 || s.hasCause g 5 || (s.grp g).forcedOff then 0 else s.getF (F.GDR_GRP_CFG_POLICY g)

/-- What a half-bridge of a faulted group does with commanded windows: in GROUP_SHORT the low switch is on continuously. -/
def State.faulted (s : State) (h : Nat) (d : Option Nat × Nat) : Option Nat × Nat :=
  let g := h / 4
  if s.hbLatched h then (none, 0)
  else if s.flag (F.GDR_GRP_STATUS_FAULT g) then (match s.policy g with
    | 1 => (some 0, 65536)
    | 2 => d
    | _ => (none, 0))
  else d

/-! ## Brake choppers (R291) -/

def State.chopOf (s : State) (i : Fin 4) : Chopper := s.brg.chop[i]

def State.setChop (s : State) (i : Fin 4) (x : Chopper) : State := { s with brg := { s.brg with chop := s.brg.chop.set i x } }

/-- The chopper stops conducting; its on-time of this tick is counted. -/
def State.chopOff (s : State) (i : Fin 4) : State :=
  match (s.chopOf i).onSince with
  | some t =>
    let from_ := max t (s.tick * 4000)
    (s.setChop i { onCycles := (s.chopOf i).onCycles + (s.tsc.toNat - from_) }).putB (F.MOT_BRK_STAT_ON i) false
  | none => s

/-- Must the low switch of a chopper stay off: its supplies are not up (R17), a cause is latched in its half-bridge, or its
group is both-off? A bus trip, and the safe state, leave the chopper acting (R291, R305). -/
def State.chopBlocked (s : State) (i : Fin 4) : Bool :=
  let h := s.getF (F.MOT_BRK_CFG_HB i)
  let g := h / 4
  !s.vanaGood || !s.vglGood (g / 3) || s.hbLatched h
    || (s.flag (F.GDR_GRP_STATUS_FAULT g) && (s.hasCause g 2 || s.hasCause g 4 || (s.grp g).forcedOff
      || ((s.hasCause g 1 || s.hasCause g 3) && s.getF (F.GDR_GRP_CFG_POLICY g) == 0)))

/-- Choppers that must not conduct stop. -/
def State.chopsFollow (s : State) : State := s.each (List.finRange 4) fun a i => if a.chopBlocked i then a.chopOff i else a

/-- The four half-bridges of a group take the states the group's faults call for. -/
def State.groupOutputs (s : State) (g : Nat) : State :=
  let s := s.putB (F.GDR_GRP_STATUS_SHORTING g) (s.flag (F.GDR_GRP_STATUS_FAULT g) && s.policy g == 1)
  s.forEach 4 fun a k =>
    let h := 4 * g + k
    let x := a.half h
    let d := if a.gatesLive g then a.faulted h (x.duty, x.low) else (none, 0)
    if d = (x.duty, x.low) then a else a.setHalf h { duty := d.1, low := d.2 }

/-- DETAIL_B of GDR_GROUP_FAULT for the first cause (Table 21-7). -/
def State.groupDetail (s : State) (g : Nat) : Nat :=
  match s.getF (F.GDR_GRP_STATUS_FIRST g) with
  | 4 => g / 3
  | 5 => (s.grp g).monitor
  | _ => 4 * g + s.getF (F.GDR_GRP_STATUS_FIRST_HB g)

/-- A cause latches in a group, raised by half-bridge `hb` of it (0 for UV_VGL and BUS_OV), or by bus monitor `mon` (R300, R301).
Of causes that latch in one cycle the lower half-bridge counts as first; a UV_BST or DESAT ends short-braking only where the
half-bridge was braking. (DEDUCED: log 52) -/
def State.latchGroup (s : State) (g cause hb : Nat) (mon : Nat := 0) : State :=
  let braked := s.flag (F.GDR_GRP_STATUS_SHORTING g) && Nat.ble cause 2 && (s.half (4 * g + hb)).duty.isSome
  let s := s.incR (R.GDR_GRP_FAULTS g) 1
  let now := s.tsc.toNat
  let first := !s.flag (F.GDR_GRP_STATUS_FAULT g) || ((s.grp g).firstAt == now && Nat.blt hb (s.getF (F.GDR_GRP_STATUS_FIRST_HB g)))
  let s := if first then
      (((s.putF (F.GDR_GRP_STATUS_FAULT g) 1).putF (F.GDR_GRP_STATUS_FIRST g) cause).putF (F.GDR_GRP_STATUS_FIRST_HB g) hb).setGrp g
        { s.grp g with firstAt := now, monitor := mon }
    else s
  let s := (s.putBitF (F.GDR_GRP_STATUS_CAUSES g) (cause - 1) true).putBitF F.GDR_STATUS_GRP_FAULT g true
  let s := (s.putB (F.GDR_GRP_STATUS_RETRY_WAIT g) false).setGrp g
    { s.grp g with retryAt := none, faultTick := some s.tick, forcedOff := (s.grp g).forcedOff || braked }
  let s := (((s.groupOutputs g).chopsFollow).putF (F.MOT_STATUS_GROUP_FAULT g) 1).linesFollow
  let a := s.getF (F.GDR_GRP_STATUS_FIRST g) + 16 * s.getF (F.GDR_GRP_STATUS_FIRST_HB g) + 65536 * s.getF (F.GDR_GRP_STATUS_CAUSES g)
  s.raise Ev.GDR_GROUP_FAULT g (BitVec.ofNat 32 a) (BitVec.ofNat 32 (s.groupDetail g))

/-- Retire a half-bridge (R303). -/
def State.retireHb (s : State) (h : Nat) : State :=
  if s.flag (F.GDR_HB_STATUS_RETIRED h) then s
  else ((((s.putF (F.GDR_HB_STATUS_RETIRED h) 1).bothOff h).chopsFollow).raise Ev.GDR_HB_RETIRED h).setMend 2

/-! ## Return to service (R302) -/

/-- Is a high-side supply below its thresholds, once armed (R459)? -/
def State.bstLow (s : State) (h : Nat) : Bool := s.brg.armedBst.toList.getD h false && !s.flag (F.GDR_HB_STATUS_BST_OK h)

def State.supplyLow (s : State) (g : Nat) : Bool := s.vglLow (g / 3) || (List.range 4).any fun k => s.bstLow (4 * g + k)

def State.retiredRole (s : State) (g : Nat) : Bool := (s.roles g).any fun h => s.flag (F.GDR_HB_STATUS_RETIRED h)

/-- Does every supply of a group lie above its rising threshold? -/
def State.suppliesUp (s : State) (g : Nat) : Bool :=
  s.vglGood (g / 3) && (List.range 4).all fun k => s.flag (F.GDR_HB_STATUS_BST_OK (4 * g + k))

/-- Does a retired half-bridge with a role, or a tripped bus monitor, keep the group out of service (R302, R303)? -/
def State.keptOut (s : State) (g : Nat) : Bool :=
  s.retiredRole g || (List.range 4).any fun i => s.bitF F.GDR_STATUS_BUS_TRIP i && s.bitF (F.GDR_BUS_CFG_GROUPS i) g

/-- Is a cause still present that keeps a CLEAR from acting (R302)? (DEDUCED: log 52) -/
def State.causePresent (s : State) (g : Nat) : Bool := !s.suppliesUp g || s.keptOut g

/-- The group returns to service: every latched cause clears, DESAT_CNT and RETIRED aside. -/
def State.groupReturn (s : State) (g : Nat) : State :=
  let keep := s.getR (R.GDR_GRP_STATUS g) &&& 0x700#32
  let s := (s.putR (R.GDR_GRP_STATUS g) keep).putBitF F.GDR_STATUS_GRP_FAULT g false
  let s := (s.setGrp g { s.grp g with retryAt := none, forcedOff := false }).putF (F.MOT_STATUS_GROUP_FAULT g) 0
  (s.forEach 4 fun a k => a.putR (R.GDR_HB_STATUS (4 * g + k)) (a.getR (R.GDR_HB_STATUS (4 * g + k)) &&& ~~~0xF#32)).linesFollow

/-- Start the retry wait of a group whose latched causes are only UV causes, none of them present (R302). -/
def State.retryStart (s : State) (g : Nat) : State :=
  if s.flag (F.GDR_GRP_STATUS_FAULT g) && s.flag (F.GDR_GRP_CFG_RETRY g) && !s.flag (F.GDR_GRP_STATUS_EXHAUSTED g)
      && !s.hasCause g 2 && !s.hasCause g 3 && !s.hasCause g 5 && !s.supplyLow g then
    (s.putB (F.GDR_GRP_STATUS_RETRY_WAIT g) true).setGrp g { s.grp g with retryAt := some (s.tick + 50) }
  else s

/-- Retries of a group in the preceding 50,000 ticks. -/
def State.retriesOf (s : State) (g : Nat) : List Nat := (s.grp g).retries.filter fun t => Nat.ble s.tick (t + 50000)

/-- The effect of a CLEAR at the tick boundary; a fault that latched in the tick of its write, or since, wins. (DEDUCED: log 52) -/
def State.groupClear (s : State) (g madeAt : Nat) : State :=
  let later := match (s.grp g).faultTick with
    | some t => Nat.ble madeAt t
    | none => false
  if !s.flag (F.GDR_GRP_STATUS_FAULT g) then s
  else if s.causePresent g then s.refuse (R.GDR_GRP_CTRL g)
  else if later then s
  else (s.putF (F.GDR_GRP_STATUS_EXHAUSTED g) 0).groupReturn g

/-- Does every monitor input lie below its LEVEL − HYST (R305)? (DEDUCED: log 31) -/
def State.busLow (s : State) : Bool := (List.range 4).all fun i =>
  !s.flag (F.GDR_BUS_CFG_EN i) || Nat.blt (s.getF (F.GDR_BUS_VAL i) + s.getF (F.GDR_BUS_WARN_HYST i)) (s.getF (F.GDR_BUS_WARN_LEVEL i))

/-- A group stays out of service with the causes of `keep` (bits of CAUSES) and no other: BUS_OV, or none where a retired
half-bridge holds a role (R303, R305). -/
def State.groupKeep (s : State) (g keep : Nat) : State :=
  let s := (s.groupReturn g).putF (F.GDR_GRP_STATUS_FAULT g) 1
  let s := ((s.putF (F.GDR_GRP_STATUS_CAUSES g) keep).putF (F.GDR_GRP_STATUS_FIRST g) (if keep = 0 then 0 else 5)).putF (F.MOT_STATUS_GROUP_FAULT g) 1
  (s.putBitF F.GDR_STATUS_GRP_FAULT g true).linesFollow

/-- An engine reset clears the causes, the retry counts and EXHAUSTED of every group (R307), and BUS_OV if every monitor input is
low (R305). -/
def State.gateReset (s : State) : State :=
  let s := if s.busLow then s.putF F.GDR_STATUS_BUS_TRIP 0 else s
  s.forEach 12 fun a g =>
    let a := (a.setGrp g { a.grp g with retries := [] }).putR (R.GDR_GRP_STATUS g) (a.getR (R.GDR_GRP_STATUS g) &&& ~~~0x700#32)
    if a.hasCause g 5 && !s.busLow then a.groupKeep g 16
    else if a.flag (F.GDR_GRP_STATUS_FAULT g) && a.retiredRole g then a.groupKeep g 0
    else a.groupReturn g

/-! ## PWM at the tick boundary (R20, R297) -/

/-- PWM period of a half-bridge, in ns (R276). -/
def State.pwmPeriod (s : State) (h : Nat) : Nat := if s.flag (F.MOT_CFG_PERIOD (h / 4)) then 40000 else 20000

/-- The high-side duty above which a refresh is forced, in 1/65,536. -/
def State.clampDuty (s : State) (h : Nat) : Nat := s.getF (F.GDR_HB_CFG_CLAMP h) * 65536 / 1000

/-- Dead time in ns (R299). -/
def State.deadTime (s : State) (h : Nat) : Nat := 50 + 5 * s.getF (F.GDR_HB_CFG_DT h)

/-- Is the present period one with a refresh pulse: the eighth of eight? -/
def Half.refreshing (x : Half) : Bool := match x.refresh with
  | some k => k % 8 == 7
  | none => false

/-- The high-side duty of a refresh period: 1 − (REFRESH + 2 × dead time) ÷ period, in 1/65,536. -/
def State.refreshDuty (s : State) (h : Nat) : Nat :=
  65536 - (s.getF F.GDR_REFRESH + 2 * s.deadTime h) * 65536 / s.pwmPeriod h

/-- Two dead times in 1/65,536 of the period. -/
def State.deadPart (s : State) (h : Nat) : Nat := 2 * s.deadTime h * 65536 / s.pwmPeriod h

/-- The low-side window of a half-bridge in independent mode that stands as `x`: its own, extended to the refresh pulse in a refresh
period (R297). -/
def State.ownLow (s : State) (x : Half) (h : Nat) : Nat :=
  if x.refreshing then max x.low (s.getF F.GDR_REFRESH * 65536 / s.pwmPeriod h) else x.low

/-- The high-side window a half-bridge that stands as `x` carries in its period: the duty of a refresh period, or in independent
mode its own, which gives way to an extended low-side window alone (R297, R299). -/
def State.carriedBy (s : State) (x : Half) (h : Nat) : Option Nat :=
  if s.flag (F.GDR_HB_CFG_MODE h) then
    x.duty.map fun d => if x.refreshing then min d (65536 - s.ownLow x h - s.deadPart h) else d
  else if x.refreshing then some (s.refreshDuty h) else x.duty

/-- The duty a half-bridge carries in this period. -/
def State.carried (s : State) (h : Nat) : Option Nat := s.carriedBy (s.half h) h

/-- The low-side on-time of a half-bridge that stands as `x`, in 1/65,536 of its period: its own window in independent mode, else
what the high side leaves, two dead times aside where it switches at all (R293, R297, R299). -/
def State.lowBy (s : State) (x : Half) (h : Nat) : Nat :=
  match s.carriedBy x h with
  | none => 0
  | some d =>
    if s.flag (F.GDR_HB_CFG_MODE h) then s.ownLow x h
    else if d = 0 then 65536 else 65536 - d - s.deadPart h

/-- Is a switch of the half-bridge turned on in this period (R298)? -/
def State.switchOn (s : State) (h : Nat) (high : Bool) : Bool :=
  if high then (s.carried h).getD 0 != 0 else s.lowBy (s.half h) h != 0

/-- Would the two windows of a command in independent mode overlap, dead times included (R299)? -/
def State.overlap (s : State) (h : Nat) (d : Option Nat) (low : Nat) : Bool :=
  s.flag (F.GDR_HB_CFG_MODE h) && low != 0 && d.getD 0 != 0 && Nat.blt 65536 (d.getD 0 + low + s.deadPart h)

/-- Does a PWM period of the half-bridge start at this tick boundary (R16)? -/
def State.periodStarts (s : State) (h : Nat) : Bool := s.pwmPeriod h == 20000 || s.tick % 2 == 0

/-- Apply a commanded duty to a half-bridge, held low until its supplies are good (R17), and count its periods above CLAMP. -/
def State.applyDuty (s : State) (h : Nat) (cmd : Option Nat) (low : Nat) : State :=
  let d := if s.gatesLive (h / 4) then s.faulted h (cmd, low) else (none, 0)
  let x := s.half h
  let hot := match d.1 with
    | some v => s.flag (F.GDR_HB_CFG_BOOT h) && Nat.blt (s.clampDuty h) v
    | none => false
  let r := if !hot then none else if s.periodStarts h then some (match x.refresh with
    | some k => k + 1
    | none => 0) else x.refresh
  s.setHalf h { duty := d.1, low := if d.1 = none then 0 else d.2, refresh := r }

/-- The outputs of the power stage go to both-off: the safe state, or a bus trip. -/
def State.allOff (s : State) : State := { s with brg := { s.brg with half := Vector.replicate 48 {} } }

/-! ## The downward frame (R20) -/

/-- Do the Drive die's outputs hold their last values: from H of a whole apply to its switch (Table 2-3)? -/
def State.outputsFrozen (s : State) : Bool := s.vin.apply.any fun a => a.whole && a.h.isSome

/-- Does what is sent now wait for a later frame: from cycle 3,400 of the tick on, and while the outputs hold their values? -/
def State.dnLate (s : State) : Bool := Nat.ble 3400 s.cycle || s.outputsFrozen

/-- A write to a Drive-die register joins the frame of this tick, or waits for a later one. -/
def State.dnWrite (s : State) (off : Nat) (w : Word) : State :=
  let x : DnWrite := { off := off, w := w, tick := s.tick }
  if s.dnLate then { s with brg := { s.brg with late := s.brg.late ++ [x] } }
  else { s with brg := { s.brg with out := { s.brg.out with writes := s.brg.out.writes ++ [x] } } }

/-- The windows of a half-bridge in a frame. -/
def DnFrame.put (f : DnFrame) (x : Nat × Option Nat × Nat) : DnFrame :=
  { f with hb := f.hb.setIfInBounds x.1 x.2.1, lo := f.lo.setIfInBounds x.1 x.2.2 }

/-- Put the high-side and the low-side window of a half-bridge, or both-off, into the downward frame of this tick or a later one. -/
def State.dnWindows (s : State) (h : Nat) (d : Option Nat) (low : Nat) : State :=
  if s.dnLate then { s with brg := { s.brg with lateHb := s.brg.lateHb ++ [(h, d, low)] } }
  else { s with brg := { s.brg with out := s.brg.out.put (h, d, low) } }

/-- The same with the low switch on for the rest of the period, dead times aside: what complementary mode makes of the duty. -/
def State.dnDuty (s : State) (h : Nat) (d : Option Nat) : State :=
  s.dnWindows h d (match d with
    | none => 0
    | some v => if v = 0 then 65536 else 65536 - v - s.deadPart h)

/-- The frame carries the acceptance of an engine reset (R369, R406). -/
def State.dnReset (s : State) : State :=
  if s.cycle < 3400 then { s with brg := { s.brg with out := { s.brg.out with reset := true } } }
  else { s with brg := { s.brg with lateReset := true } }

/-- What came too late for its tick joins the frame of the new tick, unless the outputs hold their values. -/
def State.dnNext (s : State) : State :=
  let b := s.brg
  let s := { s with brg := { b with out := { b.out with reset := b.out.reset || b.lateReset }, lateReset := false } }
  let b := s.brg
  if s.outputsFrozen then s
  else
    let f := b.lateHb.foldl DnFrame.put b.out
    { s with brg := { b with out := { f with writes := f.writes ++ b.late }, late := [], lateHb := [] } }

end Sys2Proof.Machine
end

