-- ==== Sys2Proof/Machine/OpsMot.lean ====
section
/-! DEFINITION. Machine/OpsMot.lean: the current loops of the motor channels: measurement, rotor angle, demand, control,
rotor loss and catch-spin (R274–R291). Amperes, volts, electrical Hz and degrees are binary32. -/

namespace Sys2Proof.Machine

def State.motOf (s : State) (n : Fin 12) : Motor := s.mot[n]

def State.updMot (s : State) (n : Fin 12) (f : Motor → Motor) : State := { s with mot := s.mot.set n (f s.mot[n]) }

def State.motState (s : State) (n : Fin 12) : Nat := s.getF (F.MOT_STATUS_STATE n)

/-- 20 µs, 30 µs, √3 and 1/√3 as binary32. -/
def f20us : F32 := 0x37A7C5AC
def f30us : F32 := 0x37FBA882
def fSqrt3 : F32 := 0x3FDDB3D7
def fInvSqrt3 : F32 := 0x3F13CD3A
def fHalf : F32 := 0x3F000000

/-- A reference of the loop run of this tick: the register as it stood at cycle 300 (R275). -/
def State.refR (s : State) (off : Nat) : F32 :=
  match s.brg.refs with
  | some (t, m) => if t = s.tick then SMap.get resetWord m off else s.getR off
  | none => s.getR off

/-- No limit acts in a loop that does not run. -/
def State.noLimits (s : State) (n : Fin 12) : State :=
  (((s.putF (F.MOT_STATUS_CLAMP_D n) 0).putF (F.MOT_STATUS_CLAMP_Q n) 0).putF (F.MOT_STATUS_VLIM n) 0).putF (F.MOT_STATUS_ILIMIT n) 0

/-- Both-off for every role into the downward frame. -/
def State.motOff (s : State) (n : Fin 12) : State := (s.noLimits n).each (s.roles n) fun a h => a.dnDuty h none

/-- A fraction of 1 as a duty in 1/65,536. -/
def dutyOf (x : F32) : Nat := (F32.clampInt 0 65536 (F32.toInt (F32.mul x (F32.ofNat 65536)))).toNat

/-! ## Samples and currents (R277, R278) -/

/-- Input selectors of MOT_AIN; 0x3F names none. -/
def State.ainIa (s : State) (n : Fin 12) : Nat := s.getF (F.MOT_AIN_IA n)
def State.ainIb (s : State) (n : Fin 12) : Nat := s.getF (F.MOT_AIN_IB n)
def State.ainVbus (s : State) (n : Fin 12) : Nat := s.getF (F.MOT_AIN_VBUS n)
def State.ainShunt (s : State) (n : Fin 12) : Nat := s.getF (F.MOT_AIN_SHUNT n)

/-- The sample of an input on which the loops of this tick run (R22). -/
def State.ain (s : State) (k : Nat) : Ain := s.brg.loop.ain.toList.getD k {}

/-- A current in amperes: the code of an input scaled by MOT_ISCALE. -/
def State.current (s : State) (n : Fin 12) (sel : Nat) (code : Ain → Int) : F32 :=
  let c := if sel = 0x3F then Config.openInput (12 * s.tick + n.val) else code (s.ain sel)
  F32.mul (F32.ofInt c) (s.getR (R.MOT_ISCALE n))

/-- The currents of the two in-line sensors (R277). -/
def State.iA (s : State) (n : Fin 12) : F32 := s.current n (s.ainIa n) Ain.code
def State.iB (s : State) (n : Fin 12) : F32 := s.current n (s.ainIb n) Ain.code

/-- The voltage of an input; `k` numbers the voltage inputs of a channel. -/
def State.voltsOf (s : State) (n : Fin 12) (k sel : Nat) : F32 :=
  if sel = 0x3F then Config.openVolts (4 * (12 * s.tick + n.val) + k) else (s.ain sel).volts

/-- The bus voltage read at t0 (R284). -/
def State.vbus (s : State) (n : Fin 12) : F32 := s.voltsOf n 0 (s.ainVbus n)

/-- The single-shunt measurement of a period whose half-bridges stood as `hv` says: the phases of the largest, middle and
smallest duty, the shortfall of the two windows in ns, and whether their edges can be moved (R278). -/
structure Shunt where
  hi : Fin 3
  mid : Fin 3
  lo : Fin 3
  sh1 : Nat
  sh2 : Nat
  ok1 : Bool
  ok2 : Bool
  deriving DecidableEq, Repr

/-- The high-side on-time of a half-bridge in a half-period of 10 µs, in ns. -/
def State.onHalf (s : State) (hv : Vector Half 48) (h : Nat) : Nat := (s.carriedBy (hv.toList.getD h {}) h).getD 0 * 10000 / 65536

/-- How far into a half-period the edge of a half-bridge may reach: to its start, or to the refresh pulse. -/
def State.edgeLimit (s : State) (hv : Vector Half 48) (h : Nat) : Nat :=
  if (hv.toList.getD h {}).refreshing then 10000 - s.getF F.GDR_REFRESH / 2 - s.deadTime h else 10000

def State.shuntOf (s : State) (n : Fin 12) (hv : Vector Half 48) : Shunt :=
  let on := fun (p : Fin 3) => s.onHalf hv ((s.roles n).getD p 0)
  let hi : Fin 3 := if on 1 ≤ on 0 ∧ on 2 ≤ on 0 then 0 else if on 2 ≤ on 1 then 1 else 2
  let lo : Fin 3 := if hi = 0 then (if on 2 ≤ on 1 then 2 else 1) else if hi = 1 then (if on 2 ≤ on 0 then 2 else 0)
    else (if on 1 ≤ on 0 then 1 else 0)
  let mid : Fin 3 := 3 - hi - lo
  let t := s.getF (F.MOT_SS_TMIN n)
  let sh1 := t - (on hi - on mid)
  let sh2 := t - (on mid - on lo)
  { hi := hi, mid := mid, lo := lo, sh1 := sh1, sh2 := sh2
    ok1 := Nat.ble (on hi + sh1) (s.edgeLimit hv ((s.roles n).getD hi 0)), ok2 := Nat.ble sh2 (on lo) }

/-- The Drive die shifts edges, or finds that it cannot, in the period that has just ended (R278). -/
def State.shuntShift (s : State) (n : Fin 12) : State :=
  let x := s.shuntOf n s.brg.halfPrev
  let s := if x.sh1 ≠ 0 ∨ x.sh2 ≠ 0 then s.incR (R.MOT_SS_SHIFTS n) 1 else s
  s.putB (F.MOT_STATUS_SS_SHIFT n) ((x.sh1 != 0 && x.ok1) || (x.sh2 != 0 && x.ok2))

/-- The phase currents of a TYPE 1 channel from the samples in force: U, V, W. (PRESUMED: log 50) -/
def State.phaseCurrents (s : State) (n : Fin 12) : Vector F32 3 :=
  if s.getF (F.MOT_CFG_ISENSE n) = 0 then
    let u := s.iA n
    let v := s.iB n
    #v[u, v, F32.neg (F32.add u v)]
  else
    let x := s.shuntOf n s.brg.loop.half
    let prev := (s.motOf n).iPrev
    let iHi := if x.ok1 then s.current n (s.ainShunt n) Ain.shunt1 else prev[x.hi]
    let iLo := if x.ok2 then F32.neg (s.current n (s.ainShunt n) Ain.shunt2) else prev[x.lo]
    ((prev.set x.hi iHi).set x.lo iLo).set x.mid (F32.neg (F32.add iHi iLo))

/-! ## Angle (R279) -/

/-- Angle and electrical speed at t0 from the sensor of a channel; none where the sensor gives no angle. -/
def State.sensorAngle (s : State) (n : Fin 12) : Option (Nat × F32) :=
  let c : Fin 18 := Fin.ofNat 18 (s.getF (F.MOT_CFG_FBKCH n))
  let x := s.brg.fbkAt[c]
  let src := if (s.motOf n).encAfter then 2 else s.getF (F.MOT_CFG_POS_SRC n)
  let ofs := s.getF (F.MOT_ENC_OFS n)
  if src = 1 then
    match x.sector with
    | none => none
    | some k =>
      let w := F32.div x.speed (F32.ofNat 6)
      let since := s.tick * 4000 - x.edge.getD (s.tick * 4000)
      let adv := if x.valid then
          F32.clampInt (-5461) 5461 (F32.toInt (F32.mul (F32.mul w (F32.ofRat since 200000000)) (F32.ofNat 65536)))
        else 0
      some (unsigned 16 (((2 * k + 1) * 65536 / 12 : Nat) + adv + ofs), w)
  else if src = 2 ∨ src = 3 then
    if x.bad then none
    else
      let rev := (s.getR (R.FBK_REV c)).toNat
      let pp := s.getF (F.MOT_CFG_POLE_PAIRS n)
      let m := (x.pos.toInt.emod rev).toNat
      some ((ofs + m * pp * 65536 / rev) % 65536, F32.div (F32.mul x.speed (F32.ofNat pp)) (F32.ofNat rev))
  else none

/-! ## Estimators (R280, R281) -/

/-- The two-axis components of three phase quantities. -/
def clarke (u v w : F32) : F32 × F32 := (u, F32.mul fInvSqrt3 (F32.sub v w))

/-- The component of a vector on the q axis of a frame at an angle. -/
def qOf (theta : Nat) (x : F32 × F32) : F32 :=
  F32.sub (F32.mul x.2 (F32.cosTurn (theta % 65536))) (F32.mul x.1 (F32.sinTurn (theta % 65536)))

/-- The injection tracking loop takes the change of the q-axis current since the tick before; a tick with repeated samples
does not advance it (R280, R285). -/
def State.hfiStep (s : State) (n : Fin 12) (fresh : Bool) (i : Vector F32 3) : State :=
  let m := s.motOf n
  let q := qOf m.hfiAngle.toNat (clarke i[0] i[1] i[2])
  let x := Config.hfiTrack (F32.sub q m.hfiIq) m.hfiNeg m.hfiAngle m.hfiSpeed
  if fresh then s.updMot n fun y => { y with hfiAngle := x.1, hfiSpeed := x.2, hfiIq := q } else s

/-- The magnitude of a vector. -/
def magOf (x : F32 × F32) : F32 := F32.sqrt (F32.add (F32.mul x.1 x.1) (F32.mul x.2 x.2))

/-- The observer runs: MOT_RESID is the magnitude of the difference between the measured and the predicted current (R281). -/
def State.obsStep (s : State) (n : Fin 12) (v i : F32 × F32) : State :=
  let o := (s.motOf n).obs
  (s.putR (R.MOT_RESID n) (magOf (F32.sub i.1 o.ia, F32.sub i.2 o.ib))).updMot n fun y => { y with obs := Config.observe v i o }

/-- Both estimators of a TYPE 1 channel that applies voltage. -/
def State.estimate (s : State) (n : Fin 12) (fresh : Bool) (i : Vector F32 3) : State :=
  let m := s.motOf n
  (s.obsStep n (m.vA, m.vB) (clarke i[0] i[1] i[2])).hfiStep n fresh i

/-- With the outputs off the observer runs on the terminal voltages and no current (R287). (DEDUCED: log 88) -/
def State.observeOff (s : State) (n : Fin 12) : State :=
  let v := fun (k : Nat) => s.voltsOf n (k + 1) (bits (s.getR (R.MOT_VSENSE n)) (8 * k) 6)
  let x := clarke (v 0) (v 1) (v 2)
  (s.obsStep n x (F32.zero false, F32.zero false)).putR (R.MOT_SPEED n) (Config.observe x (F32.zero false, F32.zero false) (s.motOf n).obs).speed

def State.hfiAngle (s : State) (n : Fin 12) : Nat := (s.motOf n).hfiAngle.toNat
def State.hfiSpeed (s : State) (n : Fin 12) : F32 := (s.motOf n).hfiSpeed
def State.obsAngle (s : State) (n : Fin 12) : Nat := (s.motOf n).obs.angle.toNat
def State.obsSpeed (s : State) (n : Fin 12) : F32 := (s.motOf n).obs.speed

/-- Do two angles agree within HO_TOL (R281)? -/
def State.agree (s : State) (n : Fin 12) (a b : Nat) : Bool :=
  Nat.ble ((signed 16 (a + 65536 - b)).natAbs * 360) (s.getF (F.MOT_HO_TOL n) * 65536)

/-! ## Output (R276, R284) -/

/-- Space-vector modulation of a d-q voltage at an angle: three duties with min-max zero-sequence injection. (PRESUMED: log 50) -/
def State.focVolt (s : State) (n : Fin 12) (theta : Nat) (vd vq vbus : F32) : State :=
  let sn := F32.sinTurn (theta % 65536)
  let cs := F32.cosTurn (theta % 65536)
  let va := F32.sub (F32.mul vd cs) (F32.mul vq sn)
  let vb := F32.add (F32.mul vd sn) (F32.mul vq cs)
  let r := F32.mul fSqrt3 vb
  let u := va
  let v := F32.mul fHalf (F32.sub r va)
  let w := F32.mul fHalf (F32.sub (F32.neg r) va)
  let z := F32.neg (F32.mul fHalf (F32.add (F32.fmax u (F32.fmax v w)) (F32.fmin u (F32.fmin v w))))
  let duty := fun x => dutyOf (F32.add fHalf (F32.div (F32.add x z) vbus))
  let s := ((s.putR (R.MOT_VD n) vd).putR (R.MOT_VQ n) vq).updMot n fun y => { y with vA := va, vB := vb }
  ((s.dnDuty ((s.roles n).getD 0 0) (some (duty u))).dnDuty ((s.roles n).getD 1 0) (some (duty v))).dnDuty
    ((s.roles n).getD 2 0) (some (duty w))

/-- One proportional-integral controller (R284), with an injected voltage (R280): output, next integrator, output
clamped, integrator held. (PRESUMED: log 50) -/
def piAxis (kp ki e int inj lim : F32) (integrate : Bool) : F32 × F32 × Bool × Bool :=
  let v := F32.add (F32.add (F32.mul kp e) int) inj
  let hi := F32.lt lim v
  let lo := F32.lt v (F32.neg lim)
  let held := (hi && F32.lt (F32.zero false) e) || (lo && F32.lt e (F32.zero false))
  let next := if held || !integrate then int else F32.add int (F32.mul (F32.mul ki e) f20us)
  (F32.clamp (F32.neg lim) lim v, next, hi || lo, held)

/-- The voltage limit MOD_MAX × V_bus. -/
def State.modVolt (s : State) (n : Fin 12) (vbus : F32) : F32 :=
  F32.mul (F32.ofRat (s.getF (F.MOT_MOD_MAX n)) 65536) vbus

/-- The angle extrapolated to the middle of the tick in which an output applies: θ + ω × 30 µs (R276). -/
def State.ahead (_s : State) (theta : Nat) (w : F32) : Nat :=
  unsigned 16 (theta + F32.toInt (F32.mul (F32.mul w f30us) (F32.ofNat 65536)))

/-- Close both current axes in the frame of `theta` and drive the phases (R276, R284). (PRESUMED: log 50) -/
def State.focLoop (s : State) (n : Fin 12) (theta : Nat) (w id iq idRef iqRef inj : F32) (integrate : Bool) : State :=
  let vbus := s.vbus n
  let lim := F32.mul (s.modVolt n vbus) fInvSqrt3
  let m := s.motOf n
  let kp := s.getR (R.MOT_KP n)
  let ki := s.getR (R.MOT_KI n)
  let d := piAxis kp ki (F32.sub idRef id) m.int1 inj lim integrate
  let limQ := F32.sqrt (F32.sub (F32.mul lim lim) (F32.mul d.1 d.1))
  let q := piAxis kp ki (F32.sub iqRef iq) m.int2 (F32.zero false) limQ integrate
  let s := s.updMot n fun x => { x with int1 := d.2.1, int2 := q.2.1 }
  let s := ((s.putB (F.MOT_STATUS_CLAMP_D n) d.2.2.2).putB (F.MOT_STATUS_CLAMP_Q n) q.2.2.2).putB (F.MOT_STATUS_VLIM n) (d.2.2.1 || q.2.2.1)
  s.focVolt n (s.ahead theta w) d.1 q.1 vbus

/-- Phase-advance angle at |ω| in degrees (R283). -/
def State.padv (s : State) (n : Fin 12) (w : F32) : F32 :=
  let k := s.getF (F.MOT_CFG_NADV n)
  let sp := fun i => s.getR (R.MOT_PADV_SPD n i)
  let ad := fun i => s.getR (R.MOT_PADV_ADV n i)
  let x := F32.abs w
  if k = 0 then F32.zero false
  else if F32.lt x (sp 0) then ad 0
  else if !F32.lt x (sp (k - 1)) then ad (k - 1)
  else
    let i := ((List.range (k - 1)).find? fun i => F32.lt x (sp (i + 1))).getD 0
    F32.add (ad i) (F32.mul (F32.sub (ad (i + 1)) (ad i)) (F32.div (F32.sub x (sp i)) (F32.sub (sp (i + 1)) (sp i))))

/-- The current demand of R283 from the references scaled by `k`, and the loop. -/
def State.focRefs (s : State) (n : Fin 12) (theta : Nat) (w id iq k inj : F32) (integrate : Bool) : State :=
  let iqr := F32.mul k (F32.add (s.refR (R.MOT_IQ_REF n)) (s.refR (R.MOT_IQ_FF n)))
  let idr := F32.mul k (s.refR (R.MOT_ID_REF n))
  let b := s.padv n w
  let id1 := F32.sub idr (F32.mul (F32.abs iqr) (F32.sinDeg b))
  let iq1 := F32.mul iqr (F32.cosDeg b)
  let mag := F32.sqrt (F32.add (F32.mul id1 id1) (F32.mul iq1 iq1))
  let il := s.getR (R.MOT_ILIM n)
  let high := F32.lt il mag
  let g := if high then F32.div il mag else F32.one
  (s.putB (F.MOT_STATUS_ILIMIT n) high).focLoop n theta w id iq (F32.mul g id1) (F32.mul g iq1) inj integrate

/-! ## States -/

/-- No angle (R284): integrators 0, both-off in the same tick, FAULTED. -/
def State.sensorLost (s : State) (n : Fin 12) : State :=
  (((s.updMot n fun m => { m with int1 := 0, int2 := 0 }).motOff n).putF (F.MOT_STATUS_STATE n) 5).raise Ev.MOT_SENSOR_LOST n

/-- Declare rotor loss (R286). -/
def State.rotorLoss (s : State) (n : Fin 12) : State :=
  let s := (s.incR (R.MOT_LOSSES n) 1).raise Ev.MOT_ROTOR_LOST n
  let p := s.getF (F.MOT_CFG_POLY n)
  let s := if p < 6 then s.each (s.served (Fin.ofNat 6 p)) fun a i => a.setLock i 0 else s
  let s := s.updMot n fun m => { m with above := 0, clean := 0, hand := none }
  if s.flag (F.MOT_CFG_ALT_ENC n) then
    let s := (s.putF (F.MOT_STATUS_METHOD n) 3).updMot n fun m => { m with encAfter := true, phase := .run }
    if s.motState n = 1 then s.putF (F.MOT_STATUS_STATE n) 2 else s
  else
    let s := s.motOff n
    if s.motState n = 3 then s.updMot n fun m => { m with phase := .coast 0 }
    else if s.getF (F.MOT_STATUS_CATCH n) = 2 then
      ((s.putF (F.MOT_STATUS_STATE n) 5).putF (F.MOT_STATUS_ROTOR_LOST n) 1).raise Ev.MOT_ROTOR_FAULT n
    else
      (((s.putF (F.MOT_STATUS_CATCH n) (s.getF (F.MOT_STATUS_CATCH n) + 1)).putF (F.MOT_STATUS_STATE n) 4).updMot n
        fun m => { m with phase := .observe 0 0 })

/-- Start from OFF, or from standstill in a catch-spin (R287, R289). (DEDUCED: log 51) -/
def State.motStart (s : State) (n : Fin 12) : State :=
  let s := s.updMot n fun m => { m with startAt := none, int1 := 0, int2 := 0, hand := none, above := 0, clean := 0, pull := 0, pulled := false }
  let set := fun (a : State) (st me : Nat) (ph : MotPhase) =>
    ((a.putF (F.MOT_STATUS_STATE n) st).putF (F.MOT_STATUS_METHOD n) me).updMot n fun m => { m with phase := ph }
  if s.getF (F.MOT_CFG_TYPE n) = 1 then
    match s.getF (F.MOT_CFG_POS_SRC n) with
    | 4 => (set s 1 1 (.polarity 0)).updMot n fun m => { m with peakPos := 0, peakNeg := 0 }
    | 5 =>
      if s.getF (F.MOT_OL_ALIGN n) = 0 then (set s 1 0 (.ramp 0)).updMot n fun m => { m with olSpeed := 0, olTurns := 0 }
      else set s 1 0 (.align 0)
    | _ => set s 2 0 .run
  else set s 2 0 .run

/-- Count a handover that does not come about (R281, R282): after 50 ticks the rotor is lost. -/
def State.handWait (s : State) (n : Fin 12) : State :=
  match (s.motOf n).hand with
  | none => s.updMot n fun m => { m with hand := some 0 }
  | some k => if k + 1 = 50 then s.rotorLoss n else s.updMot n fun m => { m with hand := some (k + 1) }

/-- The change between injection and observer (R281). -/
def State.handover (s : State) (n : Fin 12) : State :=
  let step := fun (to_ : Nat) => (s.putF (F.MOT_STATUS_METHOD n) to_).updMot n fun m => { m with hand := none }
  let settle := s.updMot n fun m => { m with hand := none }
  let ok := s.agree n (s.hfiAngle n) (s.obsAngle n)
  if s.getF (F.MOT_CFG_POS_SRC n) ≠ 4 then s
  else if s.getF (F.MOT_STATUS_METHOD n) = 1 then
    if F32.le (s.getR (R.MOT_HO_HI n)) (F32.abs (s.hfiSpeed n)) then (if ok then step 2 else s.handWait n) else settle
  else if s.getF (F.MOT_STATUS_METHOD n) = 2 then
    if F32.lt (F32.abs (s.obsSpeed n)) (s.getR (R.MOT_HO_LO n)) then (if ok then step 1 else s.handWait n) else settle
  else s

/-- The residual test of R286 and the success of a catch-spin try (R287). (DEDUCED: log 88) -/
def State.residual (s : State) (n : Fin 12) : State :=
  if F32.lt (s.getR (R.MOT_RES_TH n)) (s.getR (R.MOT_RESID n)) then
    let k := (s.motOf n).above + 1
    let s := s.updMot n fun m => { m with above := k, clean := 0 }
    if k = (if s.flag (F.MOT_CFG_PERIOD n) then 6 else 3) then s.rotorLoss n else s
  else
    let k := (s.motOf n).clean + 1
    let s := s.updMot n fun m => { m with above := 0, clean := k }
    if k = 500 then s.putF (F.MOT_STATUS_CATCH n) 0 else s

/-- Measured currents into the d-q frame of `theta`, stored in MOT_ID and MOT_IQ. -/
def State.parkAt (s : State) (n : Fin 12) (theta : Nat) (i : Vector F32 3) : State :=
  let sn := F32.sinTurn (theta % 65536)
  let cs := F32.cosTurn (theta % 65536)
  let a := i[0]
  let b := F32.mul fInvSqrt3 (F32.add i[0] (F32.mul (F32.ofNat 2) i[1]))
  let s := (s.putR (R.MOT_ID n) (F32.add (F32.mul a cs) (F32.mul b sn))).putR (R.MOT_IQ n)
    (F32.sub (F32.mul b cs) (F32.mul a sn))
  (s.putF (F.MOT_ANGLE n) (theta % 65536)).updMot n fun m => { m with iPrev := i }

/-- A running field-oriented channel: angle, handover, loop, residual (R279–R286). `k` scales the references. (DEDUCED: log 51) -/
def State.focRun (s : State) (n : Fin 12) (fresh : Bool) (i : Vector F32 3) (k : F32) : State :=
  let before := s.motState n
  let was := s.getF (F.MOT_STATUS_METHOD n)
  let s := s.handover n
  if s.motState n ≠ before ∨ ((s.motOf n).phase ≠ .run) then s
  else
    let now := s.getF (F.MOT_STATUS_METHOD n)
    -- The encoder gives the angle from the tick after the loss on (R286).
    let me := if now = 3 then was else now
    let ang := if me = 1 then some (s.hfiAngle n, s.hfiSpeed n)
      else if me = 2 then some (s.obsAngle n, s.obsSpeed n)
      else s.sensorAngle n
    match ang with
    | none => s.sensorLost n
    | some (th, w) =>
      let s := (s.parkAt n th i).putR (R.MOT_SPEED n) w
      let injecting := s.getF (F.MOT_CFG_POS_SRC n) == 4 && me != 3 && F32.lt (F32.abs w) (s.getR (R.MOT_HO_HI n))
      let amp := s.getR (R.MOT_HFI_AMP n)
      let inj := if !injecting then F32.zero false else if (s.motOf n).hfiNeg then F32.neg amp else amp
      let s := s.updMot n fun m => { m with hfiNeg := if injecting then !m.hfiNeg else m.hfiNeg }
      let s := s.focRefs n th w (s.getR (R.MOT_ID n)) (s.getR (R.MOT_IQ n)) k inj fresh
      if (now = 1 ∨ now = 2) ∧ fresh then s.residual n else s

/-- One loop run of a TYPE 1 channel in STARTING, RUNNING or STOPPING. (DEDUCED: log 51) -/
def State.focTick (s : State) (n : Fin 12) (fresh : Bool) (k : F32) : State :=
  let i := s.phaseCurrents n
  let s := if s.getF (F.MOT_CFG_ISENSE n) = 0 then s else s.shuntShift n
  let s := s.estimate n fresh i
  let run := fun (a : State) (me : Nat) =>
    let a := (a.putF (F.MOT_STATUS_METHOD n) me).updMot n fun m => { m with phase := .run, hand := none }
    if a.motState n = 1 then a.putF (F.MOT_STATUS_STATE n) 2 else a
  match (s.motOf n).phase with
  | .polarity c =>
    let s := (s.parkAt n (s.hfiAngle n) i).putR (R.MOT_SPEED n) (s.hfiSpeed n)
    let x := F32.abs (s.getR (R.MOT_ID n))
    let s := if fresh ∧ 2 ≤ c then s.updMot n fun m =>
        (if c < 12 then { m with peakPos := F32.fmax m.peakPos x } else { m with peakNeg := F32.fmax m.peakNeg x }) else s
    let amp := s.getR (R.MOT_HFI_AMP n)
    let v := if c < 10 then amp else if c < 20 then F32.neg amp else F32.zero false
    let lim := F32.mul (s.modVolt n (s.vbus n)) fInvSqrt3
    let vd := F32.clamp (F32.neg lim) lim v
    let s := (s.noLimits n).putB (F.MOT_STATUS_VLIM n) (!F32.eq vd v)
    let s := s.focVolt n (s.ahead (s.hfiAngle n) (s.hfiSpeed n)) vd (F32.zero false) (s.vbus n)
    if c + 1 = 22 then (run s 1).updMot n fun m => if F32.lt m.peakPos m.peakNeg then { m with hfiAngle := m.hfiAngle + 0x8000#16 } else m
    else s.updMot n fun m => { m with phase := .polarity (c + 1) }
  | .align c =>
    let s := (s.parkAt n 0 i).putR (R.MOT_SPEED n) 0#32
    let s := s.focLoop n 0 (F32.zero false) (s.getR (R.MOT_ID n)) (s.getR (R.MOT_IQ n)) (F32.mul k (s.getR (R.MOT_OL_I n)))
      (F32.zero false) (F32.zero false) fresh
    s.updMot n fun m => if s.getF (F.MOT_OL_ALIGN n) ≤ c + 1 then { m with phase := .ramp 0, olSpeed := 0, olTurns := 0 }
      else { m with phase := .align (c + 1) }
  | .ramp c =>
    let hi := s.getR (R.MOT_HO_HI n)
    let w := F32.fmin hi (F32.add (s.motOf n).olSpeed (F32.mul (s.getR (R.MOT_OL_RATE n)) f20us))
    let t := F32.add (s.motOf n).olTurns (F32.mul w f20us)
    let t := if F32.le F32.one t then F32.sub t F32.one else t
    let th := (F32.toInt (F32.mul t (F32.ofNat 65536))).toNat % 65536
    let s := s.updMot n fun m => { m with olSpeed := w, olTurns := t }
    if F32.le hi w ∧ s.agree n (s.obsAngle n) th then (run s 2).focRun n fresh i k
    else if F32.le hi w ∧ c = 50 ∧ ¬s.flag (F.MOT_CFG_ALT_ENC n) then s.rotorLoss n
    else
      let s := (s.parkAt n th i).putR (R.MOT_SPEED n) w
      let s := s.focLoop n th w (s.getR (R.MOT_ID n)) (s.getR (R.MOT_IQ n)) (F32.zero false) (F32.mul k (s.getR (R.MOT_OL_I n)))
        (F32.zero false) fresh
      if F32.le hi w ∧ c = 50 then s.rotorLoss n
      else s.updMot n fun m => { m with phase := .ramp (if F32.le hi w then c + 1 else 0) }
  | .run => s.focRun n fresh i k
  | .observe _ _ => s
  | .coast _ => s

/-! ## Steppers, brushed motors, solenoids (R288) -/

/-- Drive a full bridge A+, A− with a voltage. -/
def State.bridgeVolt (s : State) (p m : Nat) (v vbus : F32) : State :=
  let x := F32.mul fHalf (F32.div v vbus)
  (s.dnDuty p (some (dutyOf (F32.add fHalf x)))).dnDuty m (some (dutyOf (F32.sub fHalf x)))

def State.stepperTick (s : State) (n : Fin 12) (fresh : Bool) (k : F32) : State :=
  let vb := s.vbus n
  let ia := s.iA n
  let ib := s.iB n
  let lim := s.modVolt n vb
  let m := s.motOf n
  let a := piAxis (s.getR (R.MOT_KP n)) (s.getR (R.MOT_KI n)) (F32.sub (F32.mul k m.wA) ia) m.int1 (F32.zero false) lim fresh
  let b := piAxis (s.getR (R.MOT_KP n)) (s.getR (R.MOT_KI n)) (F32.sub (F32.mul k m.wB) ib) m.int2 (F32.zero false) lim fresh
  let s := s.updMot n fun y => { y with int1 := a.2.1, int2 := b.2.1 }
  let s := ((s.putB (F.MOT_STATUS_CLAMP_D n) a.2.2.2).putB (F.MOT_STATUS_CLAMP_Q n) b.2.2.2).putB (F.MOT_STATUS_VLIM n) (a.2.2.1 || b.2.2.1)
  let s := (((s.putR (R.MOT_ID n) ia).putR (R.MOT_IQ n) ib).putR (R.MOT_VD n) a.1).putR (R.MOT_VQ n) b.1
  let r := fun i => (s.roles n).getD i 0
  (s.bridgeVolt (r 0) (r 1) a.1 vb).bridgeVolt (r 2) (r 3) b.1 vb

/-- One axis that follows `ref`: a brushed motor, or a solenoid. (DEDUCED: log 51) -/
def State.singleTick (s : State) (n : Fin 12) (fresh : Bool) (ref : F32) : State :=
  let vb := s.vbus n
  let i := s.iA n
  let lim := s.modVolt n vb
  let q := piAxis (s.getR (R.MOT_KP n)) (s.getR (R.MOT_KI n)) (F32.sub ref i) (s.motOf n).int2 (F32.zero false) lim fresh
  let s := s.updMot n fun y => { y with int2 := q.2.1 }
  let s := (s.putB (F.MOT_STATUS_CLAMP_Q n) q.2.2.2).putB (F.MOT_STATUS_VLIM n) q.2.2.1
  let s := (s.putR (R.MOT_IQ n) i).putR (R.MOT_VQ n) q.1
  match s.roles n with
  | [p, m] => s.bridgeVolt p m q.1 vb
  | p :: _ => s.dnWindows p (some (dutyOf (F32.div q.1 vb))) 0
  | [] => s

/-- The current loop of a solenoid channel for one tick. (DEDUCED: log 51) -/
def State.solenoidTick (s : State) (n : Fin 12) (fresh : Bool) (k : F32) : State :=
  let ref := s.refR (R.MOT_IQ_REF n)
  let single := (s.roles n).length == 1
  let ref := if single && F32.lt ref (F32.zero false) then F32.zero false else ref
  let on := !F32.isZero ref
  let m := s.motOf n
  let pull := if on && !m.pulled then s.getF (F.MOT_PULLIN n) else m.pull - 1
  let s := s.updMot n fun x => { x with pulled := on, pull := if on then pull else 0, released := x.released && !on }
  if on then s.singleTick n fresh (F32.mul k (if pull = 0 then s.getR (R.MOT_HOLD n) else ref))
  else if single then ((s.noLimits n).dnWindows ((s.roles n).getD 0 0) (some 0) 0).updMot n fun x => { x with int2 := 0 }
  else
    let vb := s.vbus n
    let i := s.iA n
    let s := (s.putR (R.MOT_IQ n) i).updMot n fun y => { y with int2 := 0 }
    if (s.motOf n).released || F32.lt i (F32.mul (F32.ofRat 1 100) (s.getR (R.MOT_ILIM n))) then
      (s.motOff n).updMot n fun y => { y with released := true }
    else (s.noLimits n).bridgeVolt ((s.roles n).getD 0 0) ((s.roles n).getD 1 0) (F32.neg (s.modVolt n vb)) vb

/-! ## One channel's loop run -/

/-- The loop of the channel's type, references scaled by `k`; a standstill mode of its axis overrides it (R325). -/
def State.typeTick (s : State) (n : Fin 12) (fresh : Bool) (k : F32) : State :=
  let still := if s.flag (F.MOV_AX_STATUS_STILL_ON n) then s.getF (F.MOV_AX_CFG_STILL n) else 0
  let hold := fun (a : State) => a.updMot n fun m => { m with int1 := 0, int2 := 0 }
  if still = 1 then (hold s).motOff n
  else if still = 2 then ((hold s).noLimits n).each (s.roles n) fun a h => a.dnDuty h (some 0)
  else
    match s.getF (F.MOT_CFG_TYPE n) with
    | 1 => s.focTick n fresh k
    | 2 => s.stepperTick n fresh k
    | 3 => s.singleTick n fresh (F32.mul k (F32.add (s.refR (R.MOT_IQ_REF n)) (s.refR (R.MOT_IQ_FF n))))
    | 4 => s.solenoidTick n fresh k
    | _ => s

/-- Is a fault of the channel's group reported (R290)? (DEDUCED: log 51) -/
def State.groupFault (s : State) (n : Fin 12) : Bool := s.bitF F.GDR_STATUS_GRP_FAULT n

/-- One loop run of channel `n` (R275, R289, R290). -/
def State.motTick (s : State) (n : Fin 12) : State :=
  let fresh := s.brg.gotUp && s.brg.onTime
  let st := s.motState n
  if s.getF (F.MOT_CFG_TYPE n) = 0 then s
  else if s.groupFault n then
    let s := s.updMot n fun m => { m with int1 := 0, int2 := 0, rampLeft := m.rampLeft - 1, held := true }
    s.motOff n
  else
    let back := (s.motOf n).held && (st == 1 || st == 4)
    let s := s.updMot n fun m => { m with held := false }
    let due := match (s.motOf n).startAt with
      | some t => Nat.ble t s.tick
      | none => false
    if back then (s.motStart n).typeTick n fresh F32.one
    else if st = 0 then (if due then (s.motStart n).typeTick n fresh F32.one else s)
    else if st = 1 ∨ st = 2 then s.typeTick n fresh F32.one
    else if st = 3 then
      let left := (s.motOf n).rampLeft - 1
      let s := s.updMot n fun m => { m with rampLeft := left }
      if left = 0 then s else s.typeTick n fresh (F32.ofRat left (s.getF (F.MOT_OFF_RAMP n)))
    else if st = 4 then
      match (s.motOf n).phase with
      | .observe k c =>
        let s := s.observeOff n
        let c := if F32.lt (s.getR (R.MOT_RESID n)) (s.getR (R.MOT_RES_TH n)) then c + 1 else 0
        s.updMot n fun m => { m with phase := .observe (k + 1) c }
      | .coast k =>
        let s := s.observeOff n
        let k := if F32.lt (F32.abs (s.getR (R.MOT_SPEED n))) (s.getR (R.MOT_HO_LO n)) then k + 1 else 0
        if s.getF (F.MOT_CATCH_T n) ≤ k then s.motStart n else s.updMot n fun m => { m with phase := .coast k }
      | _ => s
    else s

/-- Fields of a channel that wait until it is OFF take effect (R39, chapter 13): TYPE, ISENSE and the half-bridge map. -/
def State.motDeferred (s : State) (n : Fin 12) : State :=
  (s.mergeApplied (R.MOT_CFG n) 0x2007#32).mergeApplied (R.MOT_HB_MAP n) 0xFFFFFFFF#32

/-- Both-off, OFF; a pending enable starts the channel in the next tick (R289). -/
def State.motStop (s : State) (n : Fin 12) : State :=
  let pend := s.flag (F.MOT_STATUS_PENDING_ENABLE n)
  let s := ((s.motOff n).putF (F.MOT_STATUS_STATE n) 0).putF (F.MOT_STATUS_PENDING_ENABLE n) 0
  let s := s.updMot n fun m => { m with
    phase := .run, encAfter := false, rampLeft := 0, hand := none, released := false, held := false, startAt := if pend then some (s.tick + 1) else none }
  ((s.putF (F.MOT_STATUS_METHOD n) 0).putF (F.MOT_STATUS_CATCH n) 0).motDeferred n

/-- A write of MOT_CTRL (R289); ENABLE and DISABLE together are discarded. Every channel leaves RESETTING in OFF, so an ENABLE has no
effect there. -/
def State.motCtrl (s : State) (n : Fin 12) (w : Word) : State :=
  let en := w.getLsbD 0
  let dis := w.getLsbD 1
  let st := s.motState n
  if en && !dis then
    if s.devIs 5 then s
    else if st = 0 ∧ s.getF (F.MOT_CFG_TYPE n) ≠ 0 then
      (if (s.motOf n).startAt.isSome then s else s.updMot n fun m => { m with startAt := some (s.tick + 1) })
    else if st = 3 then s.putF (F.MOT_STATUS_PENDING_ENABLE n) 1
    else s
  else if dis && !en then
    if st = 0 then s.updMot n fun m => { m with startAt := none }
    else if st = 3 then s.putF (F.MOT_STATUS_PENDING_ENABLE n) 0
    else if st = 5 then (s.motStop n).putF (F.MOT_STATUS_ROTOR_LOST n) 0
    else (s.putF (F.MOT_STATUS_STATE n) 3).updMot n fun m => { m with rampLeft := s.getF (F.MOT_OFF_RAMP n) }
  else s

/-- Every channel stops computing and enters FAULTED: bridge loss or the FAULT state (R290). (DEDUCED: log 51) -/
def State.motFault (s : State) : State :=
  s.each (List.finRange 12) fun a n =>
    ((a.noLimits n).updMot n fun m => { m with startAt := none }).putF (F.MOT_STATUS_STATE n) 5

end Sys2Proof.Machine
end

