-- ==== Sys2Proof/Machine/OpsPlan.lean ====
section
/-! DEFINITION. Machine/OpsPlan.lean: profile generation of the Mangle (R313, R316, R317, R320): the time-optimal profile
within the limits, as stretches of constant jerk. Quantities are integers scaled by 2^96, in counts and ticks; the spec
gives no number format but the 32 fractional bits of the position. -/

namespace Sys2Proof.Machine.Plan

/-- The scale. -/
def one : Int := 2 ^ 96

def mul (x y : Int) : Int := x * y / one

def div (x y : Int) : Int := if y = 0 then 0 else x * one / y

/-- Square root of a scaled number, to the scale's precision. -/
def sqrt (x : Int) : Int := if x ≤ 0 then 0 else (Nat.sqrt (x.toNat * 2 ^ 96) : Nat)

/-- What stands for an infinite velocity or acceleration: 2^64 counts per tick or tick². Positions wrap at 2^32 counts and
the axis is seen at tick boundaries, so that no larger one can be told from it. -/
def infinite : Int := 2 ^ 160

/-- A binary32 divided by `den`, scaled; NaN gives 0. -/
def ofF32 (x : F32) (den : Nat) : Int :=
  if F32.isNaN x then 0
  else if !F32.isFinite x then (if x.msb then -infinite else infinite)
  else if 0 ≤ F32.ex x + 96 then F32.ssig x * 2 ^ (F32.ex x + 96).toNat / den
  else F32.ssig x / 2 ^ (-(F32.ex x + 96)).toNat / den

/-- counts/s, counts/s² and counts/s³ per tick of 20 µs. -/
def vel (x : F32) : Int := ofF32 x 50000
def acc (x : F32) : Int := ofF32 x (50000 * 50000)
/-- An infinite jerk is no limit, as 0 is (R313). -/
def jrk (x : F32) : Int := if F32.isFinite x then ofF32 x (50000 * 50000 * 50000) else 0

/-- A scaled velocity or acceleration as binary32 in counts/s or counts/s². -/
def velF (v : Int) : F32 := F32.roundInt (v * 50000) (-96) false
def accF (a : Int) : F32 := F32.roundInt (a * 2500000000) (-96) false

/-- Travel, velocity and acceleration after `t` in a stretch entered at velocity `v`. -/
def within (s : Seg) (v t : Int) : Int × Int × Int :=
  let at_ := mul s.a t
  let jt := mul s.j t
  (mul v t + mul at_ t / 2 + mul (mul jt t) t / 6, v + at_ + mul jt t / 2, s.a + jt)

/-- Travel, velocity and acceleration at time `t` of a plan; past its end it goes on at its last velocity. -/
def eval : List Seg → Int → Int → Int × Int × Int
  | [], v, t => (mul v t, v, 0)
  | s :: r, v, t =>
    if t < s.dur then within s v t
    else
      let e := within s v s.dur
      let x := eval r e.2.1 (t - s.dur)
      (e.1 + x.1, x.2)

def total (l : List Seg) : Int := l.foldl (fun a s => a + s.dur) 0

/-- Travel and velocity at the end of a plan. -/
def ends (l : List Seg) (v : Int) : Int × Int :=
  let x := eval l v (total l)
  (x.1, x.2.1)

def flip (l : List Seg) : List Seg := l.map fun s => { s with a := -s.a, j := -s.j }

/-- From velocity `v` and acceleration `a` to velocity `u` with acceleration 0, both velocities in the positive direction:
rising velocities within `up`, falling ones within `dn`, jerk within `j` (0: no limit). -/
def ramp (v a u up dn j : Int) : List Seg :=
  if j = 0 then
    if v ≤ u then [{ dur := div (u - v) up, a := up, j := 0 }] else [{ dur := div (v - u) dn, a := -dn, j := 0 }]
  else
    let settle := v + div (mul a (a.natAbs : Int)) (2 * j)
    let half := mul a a / 2
    let ap := if settle ≤ u then min up (sqrt (mul j (u - v) + half)) else -min dn (sqrt (mul j (v - u) + half))
    let j1 := if a ≤ ap then j else -j
    let t1 := div (ap - a) j1
    let va := v + div (mul ap ap - mul a a) (2 * j1)
    let v3 := div (mul ap (ap.natAbs : Int)) (2 * j)
    let t2 := max 0 (div (u - va - v3) ap)
    [{ dur := t1, a := a, j := j1 }, { dur := t2, a := ap, j := 0 }, { dur := div (ap.natAbs : Int) j, a := ap, j := if 0 ≤ ap then -j else j }]

/-- To standstill from `v ≥ 0` at deceleration `d`. -/
def stopUp (v a up d j : Int) : List Seg := ramp v a 0 up d j

/-- Smallest number in [lo, hi] whose image reaches `goal`, for a rising function, by bisection. -/
def bisect (f : Int → Int) (goal : Int) : Nat → Int → Int → Int
  | 0, _, hi => hi
  | n + 1, lo, hi => let m := (lo + hi) / 2; if f m < goal then bisect f goal n m hi else bisect f goal n lo m

/-- 2^-40 count: differences below it are rounding. -/
def eps : Int := 2 ^ 56

/-- A plan ahead over distance `d`, no shorter than the stopping distance, from `0 ≤ v ≤ VMAX`. -/
def ahead (l : Lim) (v a d : Int) : List Seg :=
  let up := fun (s : Int) => ramp v a s l.a l.d l.j ++ ramp s 0 0 l.a l.d l.j
  let f := fun (s : Int) => (ends (up s) v).1
  if f l.v ≤ d then ramp v a l.v l.a l.d l.j ++ [{ dur := div (d - f l.v) l.v, a := 0, j := 0 }] ++ ramp l.v 0 0 l.a l.d l.j
  else
    let s0 := if l.j = 0 then v else v + div (mul a (a.natAbs : Int)) (2 * l.j)
    if a < 0 ∧ l.j ≠ 0 ∧ d < f s0 then
      let ease := fun (t : Int) =>
        let x : Seg := { dur := t, a := a, j := l.j }
        let e := within x v t
        x :: ramp e.2.1 e.2.2 0 l.a l.d l.j
      ease (bisect (fun t => (ends (ease t) v).1) d 128 0 (div (-a) l.j))
    else up (bisect f d 160 s0 l.v)

/-- Stopping distance in the direction of motion. -/
def stopDist (l : Lim) (v a : Int) : Int := (ends (stopUp v a l.a l.d l.j) v).1

/-- The plan of R313 in coordinates where the axis moves, or is to move, in the positive direction. -/
def forward (l : Lim) (v a d : Int) : List Seg :=
  let pre := if l.v < v then ramp v a l.v l.a l.d l.j else []
  let e := ends pre v
  let v1 := if pre.isEmpty then v else e.2
  let a1 := if pre.isEmpty then a else 0
  let d1 := d - e.1
  let ds := stopDist l v1 a1
  if d1 + eps < ds then
    let back := ds - d1
    pre ++ stopUp v1 a1 l.a l.d l.j ++ flip (ahead l 0 0 back)
  else pre ++ ahead l v1 a1 d1

/-- Can a plan be made: every limit is positive. -/
def Lim.ok (l : Lim) : Bool := decide (0 < l.v) && decide (0 < l.a) && decide (0 < l.d)

/-- The time-optimal plan over signed distance `d` from the present velocity and acceleration (R313). -/
def move (l : Lim) (v a d : Int) : List Seg :=
  let neg := decide (v < 0) || (v == 0 && (decide (a < 0) || (a == 0 && decide (d < 0))))
  if neg then flip (forward l (-v) (-a) (-d)) else forward l v a d

/-- To standstill at deceleration `d` (R317). -/
def stop (l : Lim) (v a d : Int) : List Seg :=
  if v < 0 ∨ (v = 0 ∧ a < 0) then flip (stopUp (-v) (-a) l.a d l.j) else stopUp v a l.a d l.j

/-- To velocity `u`; a change of direction goes through standstill. -/
def jog (l : Lim) (v a u : Int) : List Seg :=
  let up := fun (x y : Int) => if y < 0 then flip (ramp (-x) 0 (-y) l.a l.d l.j) else ramp x 0 y l.a l.d l.j
  if (v < 0 ∧ 0 < u) ∨ (0 < v ∧ u < 0) then stop l v a l.d ++ up 0 u
  else if v < 0 ∨ u < 0 then flip (ramp (-v) (-a) (-u) l.a l.d l.j)
  else ramp v a u l.a l.d l.j

/-- Does motion at velocity `v` go toward a target at distance `d`, and not away from one behind it? -/
def toward (v d : Int) : Bool := (decide (0 < v) && decide (-eps ≤ d)) || (decide (v < 0) && decide (d ≤ eps))

/-- Cannot the target at distance `d` be reached, from the present state and within the limits, without passing it? -/
def passes (l : Lim) (v a d : Int) : Bool :=
  if 0 < v then decide (d + eps < stopDist l v a)
  else if v < 0 then decide (-d + eps < stopDist l (-v) (-a))
  else false

/-- One Hermite segment from velocity `v` over distance `d` to velocity `u` in `dur` ticks (R320). -/
def hermite (d v u : Int) (dur : Nat) : Seg :=
  let t : Int := dur
  { dur := t * one, a := 6 * d / (t * t) - (4 * v + 2 * u) / t, j := 6 * (v + u) / (t * t) - 12 * d / (t * t * t) }

end Sys2Proof.Machine.Plan
end

