-- ==== Sys2Proof/Machine/OpsAxis.lean ====
section
/-! DEFINITION. Machine/OpsAxis.lean: motion axes: commands, plans, limits, stops, faults, tables, homing, steppers and
step pulses (R308–R329). -/

namespace Sys2Proof.Machine

def State.ax (s : State) (a : Fin 20) : Axis := s.axis[a]

def State.updAx (s : State) (a : Fin 20) (f : Axis → Axis) : State := { s with axis := s.axis.set a (f s.axis[a]) }

def State.axState (s : State) (a : Fin 20) : Nat := s.getF (F.MOV_AX_STATUS_STATE a)

def State.setAxState (s : State) (a : Fin 20) (v : Nat) : State := s.putF (F.MOV_AX_STATUS_STATE a) v

/-- TYPE of the motor channel of an axis; 0 for a step/direction axis. -/
def State.axType (s : State) (a : Fin 20) : Nat := if a.val < 12 then s.getF (F.MOT_CFG_TYPE a) else 0

def State.isServo (s : State) (a : Fin 20) : Bool := s.axType a == 1 || s.axType a == 3
def State.isStepper (s : State) (a : Fin 20) : Bool := s.axType a == 2
def isSd (a : Fin 20) : Bool := Nat.ble 12 a.val

/-- Is the axis enabled, and is there one (R308)? -/
def State.axOn (s : State) (a : Fin 20) : Bool := s.flag (F.MOV_AX_CFG_EN a) && (isSd a || s.isServo a || s.isStepper a)

/-- The feedback channel of a servo axis. -/
def State.axFbk (s : State) (a : Fin 20) : Fin 18 := Fin.ofNat 18 (s.getF (F.MOV_AX_CFG_FBKCH a))

/-- Integer part of the commanded position. -/
def Axis.pcmd (x : Axis) : Word := x.p.extractLsb' 32 32

/-- A position with no fraction. -/
def posOf (w : Word) : BitVec 64 := w ++ 0#32

/-- A scaled distance as a difference of positions with 32 fractional bits. -/
def posAdd (p : BitVec 64) (d : Int) : BitVec 64 := p + BitVec.ofInt 64 (d / 2 ^ 64)

/-- The scaled distance from a position to a target, the shorter way round (R260). -/
def distTo (p : BitVec 64) (t : Word) : Int := (posOf t - p).toInt * 2 ^ 64

/-- The position of an axis: measured for a servo (R308), steps emitted for step/direction, commanded for a stepper. -/
def State.axPos (s : State) (a : Fin 20) : Word :=
  if isSd a then (s.ax a).steps
  else if s.isServo a then s.getR (R.FBK_POS (s.axFbk a)) + s.getR (R.MOV_AX_OFS a)
  else (s.ax a).pcmd

/-- The step count in force at a TSC: the steps whose rising edges are still to come are not counted (R270). -/
def Axis.stepsAt (x : Axis) (t : Nat) : Word :=
  (x.edges.filter fun e => Nat.blt t e.1).foldl (fun p e => if e.2 then p - 1#32 else p + 1#32) x.steps

/-- Its position at the tick boundary. -/
def State.axPosT0 (s : State) (a : Fin 20) : Word :=
  if isSd a then (s.ax a).stepsAt (s.tick * 4000)
  else if s.isServo a then s.brg.fbkAt[s.axFbk a].pos + s.getR (R.MOV_AX_OFS a)
  else s.axPos a

/-- A command or move ends: RESULT and event-line class 0x07 (R311, R314). -/
def State.axResult (s : State) (a : Fin 20) (r : Nat) : State := (s.putF (F.MOV_AX_STATUS_RESULT a) r).fire 0x07 a

/-- The reported commanded state. -/
def State.axReport (s : State) (a : Fin 20) : State :=
  let x := s.ax a
  ((s.putR (R.MOV_AX_PCMD a) x.pcmd).putR (R.MOV_AX_VCMD a) (Plan.velF x.v)).putR (R.MOV_AX_ACMD a) (Plan.accF x.a)

/-! ## Limits (R304, R316) -/

/-- Is the deceleration of an axis halved: a warning of a monitor that covers its group came with a frame of an earlier tick? -/
def State.halvedNow (s : State) (a : Fin 20) : Bool :=
  Nat.blt a.val 12 && (List.range 4).any fun i => bit s.brg.warned i && s.bitF (F.GDR_BUS_CFG_GROUPS i) a

/-- The limits of the registers, after halving; DEFF and SEFF report them. -/
def State.limNow (s : State) (a : Fin 20) : Lim :=
  let h : Int := if s.flag (F.MOV_AX_STATUS_HALVED a) then 2 else 1
  { v := Plan.vel (s.getR (R.MOV_AX_VMAX a)), a := Plan.acc (s.getR (R.MOV_AX_AMAX a)),
    d := Plan.acc (s.getR (R.MOV_AX_DMAX a)) / h, j := Plan.jrk (s.getR (R.MOV_AX_JMAX a)),
    s := Plan.acc (s.getR (R.MOV_AX_DSTOP a)) / h }

def State.limReport (s : State) (a : Fin 20) : State :=
  let s := s.putB (F.MOV_AX_STATUS_HALVED a) (s.halvedNow a)
  let h := fun (x : F32) => if s.flag (F.MOV_AX_STATUS_HALVED a) then F32.mul fHalf x else x
  (s.putR (R.MOV_AX_DEFF a) (h (s.getR (R.MOV_AX_DMAX a)))).putR (R.MOV_AX_SEFF a) (h (s.getR (R.MOV_AX_DSTOP a)))

/-- Put a plan in force from the present state, from tick `t0`. -/
def State.setPlan (s : State) (a : Fin 20) (segs : List Seg) (t0 : Nat) : State :=
  s.updAx a fun x => { x with segs := segs, p0 := x.p, v0 := x.v, t0 := t0, held := false }

/-- Plan a move to the axis's target (R313). With a limit that is not positive there is no motion. (DESIGN CHOICE: log 53) -/
def State.planMove (s : State) (a : Fin 20) (t0 : Nat) : State :=
  let x := s.ax a
  if x.lim.v ≤ 0 ∨ x.lim.a ≤ 0 ∨ x.lim.d ≤ 0 then s.setPlan a [] t0
  else s.setPlan a (Plan.move x.lim x.v x.a (distTo x.p x.target)) t0

/-- Decelerate to standstill (R317); RESULT at standstill is `r`. (DESIGN CHOICE: log 53) -/
def State.axStop (s : State) (a : Fin 20) (hard keep : Bool) (r : Nat) : State :=
  let x := s.ax a
  let d := if hard then x.lim.s else x.lim.d
  let segs := if d ≤ 0 then [] else Plan.stop x.lim x.v x.a d
  let s := (s.setPlan a segs s.tick).updAx a fun y => { y with stopRes := r, hard := hard, keep := keep, home := none }
  s.setAxState a 4

/-- Stop at DSTOP: a stop in progress keeps its RESULT, any other motion ends STOPPED (R312, R317, R319). (DESIGN CHOICE: log 53) -/
def State.axHalt (s : State) (a : Fin 20) : State :=
  let st := s.axState a
  let x := s.ax a
  s.axStop a true (st == 1 || (st == 4 && x.keep)) (if st = 4 then x.stopRes else 2)

/-- Is the axis in a stop of homing? -/
def Axis.halting (x : Axis) : Bool := match x.home with
  | some (.halt _) => true
  | _ => false

/-- Limits have changed: replan, or keep the deceleration in progress to its standstill, after which a move that turns back
is replanned (R316). -/
def State.limChange (s : State) (a : Fin 20) (l : Lim) : State :=
  let x := s.ax a
  let st := s.axState a
  let s := s.updAx a fun y => { y with lim := l }
  if x.held then (if st = 1 ∧ 0 < x.v * x.a then s.planMove a s.tick else s)
  else if x.lim = l then s
  else if st = 1 then
    let d := distTo x.p x.target
    let falling := (0 < x.v ∧ x.a < 0) ∨ (x.v < 0 ∧ 0 < x.a)
    if falling ∧ 0 < l.d ∧ Plan.toward x.v d ∧ Plan.passes l x.v x.a d then
      ((s.updAx a fun y => { y with held := true }).latchF (F.MOV_AX_STATUS_LIMIT_DEFERRED a)).raise Ev.MOV_LIMIT_DEFERRED a
    else s.planMove a s.tick
  else if st = 5 ∧ x.halting then
    (if l.d ≤ 0 then s else s.setPlan a (Plan.stop l x.v x.a l.d) s.tick)
  else if st = 4 then
    let d := if x.hard then l.s else l.d
    if d ≤ 0 then s else s.setPlan a (Plan.stop l x.v x.a d) s.tick
  else if st = 2 ∨ (st = 5 ∧ x.segs ≠ []) then
    s.setPlan a (Plan.jog l x.v x.a (F32.clampInt (-l.v) l.v x.jog)) s.tick
  else s

/-! ## Sensor pins -/

def State.pin (s : State) (n : Nat) : Bool := s.flag (F.SNS_STATE_LEVEL n)

/-- Is the home switch of an axis active? -/
def State.homeOn (s : State) (a : Fin 20) : Bool :=
  s.pin (s.getF (F.MOV_HOME_CFG_PIN a)) == s.flag (F.MOV_HOME_CFG_LEVEL a)

/-- LIM_POS and LIM_NEG follow the pins (R327). -/
def State.limPins (s : State) (a : Fin 20) : State :=
  let p := s.flag (F.MOV_LIM_CFG_PEN a) && s.pin (s.getF (F.MOV_LIM_CFG_PPIN a)) == s.flag (F.MOV_LIM_CFG_PLVL a)
  let n := s.flag (F.MOV_LIM_CFG_NEN a) && s.pin (s.getF (F.MOV_LIM_CFG_NPIN a)) == s.flag (F.MOV_LIM_CFG_NLVL a)
  (s.putB (F.MOV_AX_STATUS_LIM_POS a) p).putB (F.MOV_AX_STATUS_LIM_NEG a) n

/-- Is the limit in a direction active? -/
def State.limAt (s : State) (a : Fin 20) (dir : Int) : Bool :=
  (decide (0 < dir) && s.flag (F.MOV_AX_STATUS_LIM_POS a)) || (decide (dir < 0) && s.flag (F.MOV_AX_STATUS_LIM_NEG a))

/-- An axis that moves toward an active limit stops at DSTOP with RESULT LIMIT (R327); a stop at DSTOP in progress goes on to it. -/
def State.limTrip (s : State) (a : Fin 20) : State :=
  let x := s.ax a
  let st := s.axState a
  if s.limAt a x.v ∧ st ≠ 0 ∧ st ≠ 6 then
    if ¬(st = 4 ∧ x.hard) then (s.axStop a true (st == 1 || (st == 4 && x.keep)) 3).raise Ev.MOV_LIMIT a
    else if x.stopRes ≠ 3 then (s.updAx a fun y => { y with stopRes := 3 }).raise Ev.MOV_LIMIT a
    else s
  else s

/-! ## Commands (R311–R313) -/

/-- The axis comes to rest: state IDLE with a result. -/
def State.axRest (s : State) (a : Fin 20) (r : Nat) : State :=
  ((s.setAxState a 0).updAx a fun x => { x with
    v := 0, a := 0, segs := [], held := false, home := none, restAt := s.tick }).axResult a r

/-- Begin a move to a target. -/
def State.beginMove (s : State) (a : Fin 20) (t : Word) (t0 : Nat) : State :=
  let s := s.updAx a fun x => { x with target := t, began := s.tick, home := none }
  (s.setAxState a 1).planMove a t0

/-- Run at a velocity, clamped to VMAX; the velocity asked for is kept, so that a changed VMAX clamps it anew. -/
def State.beginJog (s : State) (a : Fin 20) (u : Int) (t0 : Nat) : State :=
  let x := s.ax a
  let segs := if x.lim.v ≤ 0 ∨ x.lim.a ≤ 0 ∨ x.lim.d ≤ 0 then []
    else Plan.jog x.lim x.v x.a (F32.clampInt (-x.lim.v) x.lim.v u)
  (s.updAx a fun y => { y with jog := u }).setPlan a segs t0

/-- Read the next table entry and begin its segment, or end the table (R320). -/
def State.beginSegment (s : State) (a : Fin 20) (t0 : Nat) : State :=
  let x := s.ax a
  let dur := bits (s.getR (R.MOV_SEGMENT x.next 0)) 0 16
  if x.next = x.last ∨ dur = 0 then
    (((s.updAx a fun y => { y with jog := y.v, a := 0 }).setPlan a [] t0).setAxState a 2).axResult a 1
  else
    let goal := x.base + posOf (s.getR (R.MOV_SEGMENT x.next 1))
    let d := (goal - x.p).toInt * 2 ^ 64
    (s.setPlan a [Plan.hermite d x.v (Plan.vel (s.getR (R.MOV_SEGMENT x.next 2))) dur] t0).updAx a fun y => { y with next := y.next + 1 }

/-- Direction of homing: +1 or −1. -/
def State.homeDir (s : State) (a : Fin 20) : Int := if s.flag (F.MOV_HOME_CFG_DIR a) then 1 else -1

/-- Enter a homing stage (R329). -/
def State.homeStage (s : State) (a : Fin 20) (h : HomeStage) (t0 : Nat) : State :=
  let s := s.updAx a fun x => { x with home := some h, offSince := if s.homeOn a then none else some s.tick }
  let v1 := Plan.vel (F32.abs (s.getR (R.MOV_HOME_V1 a)))
  let v2 := Plan.vel (F32.abs (s.getR (R.MOV_HOME_V2 a)))
  match h with
  | .leave _ => s.beginJog a (-(s.homeDir a) * v1) t0
  | .approach false => s.beginJog a (s.homeDir a * v1) t0
  | .approach true => s.beginJog a (s.homeDir a * v2) t0
  | .halt _ => s.setPlan a (if (s.ax a).lim.d ≤ 0 then [] else Plan.stop (s.ax a).lim (s.ax a).v (s.ax a).a (s.ax a).lim.d) t0

/-- A running table, jog or homing ends with RESULT STOPPED when another motion takes its place (R313). -/
def State.axSupplant (s : State) (a : Fin 20) : State :=
  if s.axState a = 2 ∨ s.axState a = 3 ∨ s.axState a = 5 then s.axResult a 2 else s

/-- The sign of the motion a command asks for: that of its target minus MOV_AX_PCMD, or of JOGV (R327). -/
def State.cmdDir (s : State) (a : Fin 20) (c : AxCmd) : Int :=
  let x := s.ax a
  match c.op with
  | 1 => posDiff c.tgt x.pcmd
  | 2 => posDiff ((if s.axState a = 1 then x.target else x.pcmd) + c.tgt) x.pcmd
  | 3 => Plan.vel c.jogv
  | 6 => (s.getR (R.MOV_AX_REMAIN a)).toInt
  | 7 => if s.homeOn a then -(s.homeDir a) else s.homeDir a
  | _ => 0

/-- Start a motion command on an axis that is not stopping. (DESIGN CHOICE: log 53) -/
def State.axMotion (s : State) (a : Fin 20) (c : AxCmd) : State :=
  let energise := s.isStepper a && s.flag (F.MOV_AX_STATUS_STILL_ON a)
  let t0 := if energise then s.tick + 1 else s.tick
  let s := (s.putF (F.MOV_AX_STATUS_STILL_ON a) 0).updAx a fun x => { x with restAt := s.tick }
  let x := s.ax a
  if s.limAt a (s.cmdDir a c) then s.axResult a 3
  else
    match c.op with
    | 1 => (s.axSupplant a).beginMove a c.tgt t0
    | 2 => (s.axSupplant a).beginMove a ((if s.axState a = 1 then x.target else x.pcmd) + c.tgt) t0
    | 3 => (((s.axSupplant a).updAx a fun y => { y with home := none }).setAxState a 2).beginJog a (Plan.vel c.jogv) t0
    | 4 =>
      let first := bits c.seg 0 10
      let count := bits c.seg 16 11
      if 1024 < first + count then s.axResult a 9
      else
        let s := (s.axSupplant a).updAx a fun y => { y with base := posOf y.pcmd, next := first, last := first + count, began := s.tick, home := none }
        (s.setAxState a 3).beginSegment a t0
    | 6 => if s.getR (R.MOV_AX_REMAIN a) = 0#32 then s.axResult a 1
      else (s.axSupplant a).beginMove a (x.pcmd + s.getR (R.MOV_AX_REMAIN a)) t0
    | 7 =>
      let s := (s.axSupplant a).updAx a fun y => { y with point := none, edgeAt := none, chatEnd := 0, began := s.tick }
      let s := s.putF (F.MOV_AX_STATUS_HOMED a) 0
      (s.setAxState a 5).homeStage a (if s.homeOn a then .leave false else .approach false) t0
    | _ => s

/-- SET_POS (R311): the present position becomes the target; the commanded one moves with it. (DESIGN CHOICE: log 53) -/
def State.setPosition (s : State) (a : Fin 20) (t : Word) : State :=
  if s.axState a = 0 then
    let d := t - s.axPos a
    let s := if s.isServo a then s.putR (R.MOV_AX_OFS a) (s.getR (R.MOV_AX_OFS a) + d) else s
    let s := s.updAx a fun x => { x with p := x.p + posOf d, steps := if isSd a then x.steps + d else x.steps, restAt := s.tick }
    (s.putF (F.MOV_AX_STATUS_STILL_ON a) 0).axResult a 1
  else s.axResult a 9

/-- Take a command at the cycle-100 sample (R310–R312, R317, R318). -/
def State.axTake (s : State) (a : Fin 20) (c : AxCmd) : State :=
  let st := s.axState a
  if st = 6 then s.axResult a 9
  else if c.op = 8 then s.setPosition a c.tgt
  else if c.op = 5 then
    if st = 4 then (s.updAx a fun x => { x with queued := none }).putF (F.MOV_AX_STATUS_PENDING a) 0
    else if st = 0 then ((s.putF (F.MOV_AX_STATUS_STILL_ON a) 0).updAx a fun x => { x with restAt := s.tick }).axResult a 2
    else s.axStop a false (st == 1) 2
  else if st = 4 then
    let s := if (s.ax a).queued.isSome then s.incR (R.MOV_AX_SUPERSEDED a) 1 else s
    (s.updAx a fun x => { x with queued := some c }).putF (F.MOV_AX_STATUS_PENDING a) 1
  else s.axMotion a c

/-! ## Homing (R328, R329) -/

/-- Position at a time, interpolated between the tick boundaries that bracket it; none until both are known. -/
def Axis.posAt (x : Axis) (ts : Nat) : Option Word :=
  match x.hist.find? (fun h => h.1 == ts / 4000 + 1), x.hist.find? (fun h => h.1 == ts / 4000) with
  | some b, some a => some (a.2 + BitVec.ofInt 32 (Int.fdiv ((b.2 - a.2).toInt * (ts % 4000 : Nat)) 4000))
  | _, _ => none

/-- A qualified edge of the home pin into or out of its active level. -/
def State.homeEdge (s : State) (a : Fin 20) (active : Bool) (ts : Nat) : State :=
  let x := s.ax a
  let s := if active then s.updAx a fun y => { y with offSince := none } else s.updAx a fun y => { y with offSince := some s.tick }
  if ts < x.chatEnd then s.incR (R.MOV_AX_CHATTER a) 1
  else
    match x.home with
    | some h =>
      if active then
        let s := s.updAx a fun y => { y with chatEnd := ts + 4000 * s.getF (F.MOV_HOME_CHAT a) + 1 }
        match h with
        | .approach k => (s.updAx a fun y => { y with edgeAt := some ts }).homeStage a (.halt k) s.tick
        | _ => s
      else s
    | none => s

/-- Homing at a tick: stages that end, and completion. -/
def State.homeTick (s : State) (a : Fin 20) (still : Bool) : State :=
  let x := s.ax a
  let s := match x.edgeAt with
    | some ts => (match x.posAt ts with
      | some p => s.updAx a fun y => { y with point := some p, edgeAt := none }
      | none => if ts / 4000 + 1 < s.tick then s.updAx a fun y => { y with point := some (s.axPos a), edgeAt := none } else s)
    | none => s
  match x.home with
  | some (.leave k) =>
    (match x.offSince with
     | some t => if t + s.getF (F.MOV_HOME_CHAT a) ≤ s.tick then s.homeStage a (.approach k) s.tick else s
     | none => s)
  | some (.halt k) =>
    if still ∧ (s.ax a).edgeAt = none then
      if s.flag (F.MOV_HOME_CFG_MODE a) ∧ ¬k then s.homeStage a (.leave true) s.tick
      else
        let d := s.getR (R.MOV_HOME_POS a) - (s.ax a).point.getD (s.axPos a)
        let s := if s.isServo a then s.putR (R.MOV_AX_OFS a) (s.getR (R.MOV_AX_OFS a) + d) else s
        let s := (s.updAx a fun y => { y with p := y.p + posOf d, steps := if isSd a then y.steps + d else y.steps }).putF (F.MOV_AX_STATUS_HOMED a) 1
        (s.putR (R.MOV_AX_REMAIN a) 0#32).axRest a 8
    else s
  | _ => s

/-! ## Faults (R318) -/

/-- Is a cause of FAULT present? -/
def State.axCause (s : State) (a : Fin 20) : Bool :=
  s.devIs 6 ||
  (if isSd a then
    let k := a.val - 12
    s.getF (F.MOV_SD_CFG_FPIN k) != 63 && s.pin (s.getF (F.MOV_SD_CFG_FPIN k)) == s.flag (F.MOV_SD_CFG_FLVL k)
  else s.getF (F.MOT_STATUS_STATE a) == 5 || s.flag (F.MOT_STATUS_GROUP_FAULT a))

/-- Step pulses whose rising edges are still to come are not emitted, and the axis stands at the steps emitted (R318). -/
def State.cutSteps (s : State) (a : Fin 20) : State :=
  if isSd a then s.updAx a fun x =>
    let gone := x.edges.filter fun e => Nat.ble e.1 s.tsc.toNat
    { x with steps := x.stepsAt s.tsc.toNat, p := posOf (x.stepsAt s.tsc.toNat), edges := gone
             dir := (gone.getLast?.map Prod.snd).getD x.dir }
  else s

/-- Enter FAULT. -/
def State.axFault (s : State) (a : Fin 20) : State :=
  let s := s.cutSteps a
  let x := s.ax a
  let st := s.axState a
  let s := if st = 1 ∨ (st = 4 ∧ x.keep) then s.putR (R.MOV_AX_REMAIN a) (x.target - x.pcmd) else s
  let s := s.updAx a fun y => { y with segs := [], held := false, home := none, queued := none, v := if s.isServo a then y.v else 0, a := 0 }
  ((s.putF (F.MOV_AX_STATUS_PENDING a) 0).setAxState a 6).axResult a 5

/-- Leave FAULT: at standstill, or at engine reset; a stepper is no longer homed. -/
def State.axLeaveFault (s : State) (a : Fin 20) : State :=
  let s := (s.setAxState a 0).updAx a fun x => { x with v := 0, a := 0, restAt := s.tick }
  if s.isStepper a then s.putF (F.MOV_AX_STATUS_HOMED a) 0 else s

/-- An axis in FAULT: a servo follows the measured motion; the axis leaves at standstill once the cause has cleared. -/
def State.faultTick (s : State) (a : Fin 20) : State :=
  let s := if s.isServo a then s.updAx a fun x => { x with p := posOf (s.axPos a), v := Plan.vel (s.getR (R.FBK_SPD (s.axFbk a))) } else s
  if ¬s.axCause a ∧ (s.ax a).v = 0 then s.axLeaveFault a else s

/-! ## The state of a tick -/

/-- Has the plan of an axis run out by tick `t`? -/
def Axis.planDone (x : Axis) (t : Nat) : Bool := decide (Plan.total x.segs ≤ (t - x.t0 : Nat) * Plan.one + Plan.one / 2 ^ 32)

/-- Bring the commanded state of a moving axis to the boundary of the present tick: its plan at that time, or its target once
the plan of a move has run out (R314). -/
def State.axReach (s : State) (a : Fin 20) : State :=
  let x := s.ax a
  let st := s.axState a
  if st = 0 ∨ 5 < st then s
  else
    let e := Plan.eval x.segs x.v0 ((s.tick - x.t0 : Nat) * Plan.one)
    s.updAx a fun y => { y with p := if st = 1 ∧ x.planDone s.tick ∧ x.segs ≠ [] then posOf y.target else posAdd y.p0 e.1, v := e.2.1, a := e.2.2 }

/-- The commanded state of a moving axis at the present tick, and the end of what ends (R314, R317, R320). A table ends over
the VMAX that is in force from this tick. (DESIGN CHOICE: log 53) -/
def State.advance (s : State) (a : Fin 20) : State :=
  let was := s.ax a
  let s := s.axReach a
  let x := s.ax a
  let fin := x.planDone s.tick
  match s.axState a with
  | 1 =>
    if (fin ∧ x.segs ≠ []) ∨ (distTo was.p x.target = 0 ∧ was.v = 0 ∧ x.segs = []) then (s.putR (R.MOV_AX_REMAIN a) 0#32).axRest a 1
    else s
  | 3 =>
    if (s.limNow a).v < (x.v.natAbs : Int) then s.axStop a false false 6
    else if fin then s.beginSegment a s.tick
    else s
  | 4 =>
    if fin then
      let r := if x.keep then x.target - x.pcmd else 0#32
      (s.putR (R.MOV_AX_REMAIN a) r).axRest a x.stopRes
    else s
  | 5 =>
    let s := if x.halting ∧ fin then s.updAx a fun y => { y with v := 0, a := 0 } else s
    s.homeTick a (x.halting && fin)
  | _ => s

/-! ## Steppers (R321–R323) -/

/-- Full steps per second of a scaled speed. -/
def fullSteps (v : Int) : F32 := F32.mul (Plan.velF (v.natAbs : Int)) (F32.ofRat 1 256)

/-- Quantised angle at resolution code `r` (R321). -/
def quant (r : Nat) (p : Word) : Int :=
  let x := p.toInt
  let m : Int := [256, 64, 16, 4].getD r 4
  if r = 4 then 256 * Int.fdiv x 256 + 128 else (256 / m) * Int.fdiv (x * m) 256

/-- One entry of waveform set `w` (a signed 16-bit value). -/
def State.wave (s : State) (w : Nat) (e : Int) : Int :=
  let i := (e.emod 1024).toNat
  signed 16 (bits (s.getR (R.MOV_WAVE w (i / 2))) (16 * (i % 2)) 16)

/-- The winding references, resolution, waveform and boost of a tick; `band` is the temperature band in force. -/
def State.stepperRefs (s : State) (a : Fin 20) (n : Fin 12) (prev : Word) : State :=
  let x := s.ax a
  let p := x.pcmd
  let moving := s.axState a != 0 && s.axState a != 6
  let sp := fullSteps x.v
  let cross := decide (Int.fdiv prev.toInt 256 ≠ Int.fdiv p.toInt 256)
  let r := s.getF (F.MOV_STP_STATE_RES a)
  let up := decide (r < 4) && F32.le (s.getR (R.MOV_STP_THR a r)) sp
  let dn := decide (0 < r) && F32.lt sp (F32.mul (F32.ofRat 7 8) (s.getR (R.MOV_STP_THR a (r - 1))))
  let r' := if cross then (if up then r + 1 else if dn then r - 1 else r) else r
  let band := s.getF (F.THM_BAND_STAT_BAND (s.getF (F.MOV_STP_CFG_BANDSEL a)))
  let w := if cross || !moving then bits (s.getR (R.MOV_STP_CFG a)) (8 + 2 * band) 2 else s.getF (F.MOV_STP_STATE_WAVE a)
  -- load angle of the previous tick (R323)
  let slow := F32.lt sp (s.getR (R.MOV_STP_VMIN a))
  let rw := s.getR (R.MOV_STP_RW a)
  let lw := s.getR (R.MOV_STP_LW a)
  let ia := s.getR (R.MOT_ID n)
  let ib := s.getR (R.MOT_IQ n)
  let emf := fun (v i i0 : F32) => F32.sub (F32.sub v (F32.mul rw i)) (F32.mul lw (F32.div (F32.sub i i0) f20us))
  let ang := F32.angleOf (emf (s.getR (R.MOT_VD n)) ia x.ia) (emf (s.getR (R.MOT_VQ n)) ib x.ib)
  let q := quant r' p
  let delta : Int := if slow then 0 else signed 16 (unsigned 16 (64 * q - ang.toNat - 16384))
  let above := fun (d : Nat) => decide (65536 * (d : Int) < 360 * delta)
  let cap := 10 * (s.getF (F.MOV_STP_BOOST_CAP a) - 100)
  let step := s.getF (F.MOV_STP_BOOST_STEP a)
  let db := s.getF (F.MOV_STP_BOOST_DELTA_BOOST a)
  let b := if !moving then 0 else if slow then x.boost
    else if above db then min cap (x.boost + step)
    else if 360 * delta < 65536 * ((db : Int) - 5) then x.boost - step
    else x.boost
  let st := if b = cap ∧ moving ∧ above (s.getF (F.MOV_STP_BOOST_DELTA_STALL a)) then x.stall + 1 else 0
  let cur := if moving then F32.mul (s.getR (R.MOV_STP_IRUN a)) (F32.ofRat (1000 + b : Nat) 1000) else s.getR (R.MOV_STP_IHOLD a)
  let ref := fun (e : Int) => F32.mul cur (F32.ofRat (s.wave w e) 32767)
  let s := s.updMot n fun m => { m with wA := ref q, wB := ref (q - 256) }
  let s := s.updAx a fun y => { y with boost := b, stall := st, ia := ia, ib := ib }
  (((s.putF (F.MOV_STP_STATE_RES a) r').putF (F.MOV_STP_STATE_WAVE a) w).putF (F.MOV_STP_STATE_BOOST a) (b / 10)).putF
    (F.MOV_STP_STATE_DELTA a) (unsigned 16 delta)

/-! ## Step pulses (R326) -/

/-- Times, within the previous tick, at which the commanded position crossed an integer, in order, with the direction. -/
def crossings (p0 p1 : BitVec 64) : List (Nat × Bool) :=
  let d := (p1 - p0).toInt
  let one : Int := 2 ^ 32
  let f : Int := p0.toNat % 2 ^ 32
  let n := if 0 ≤ d then ((f + d) / one).toNat else (-((f + d) / one)).toNat
  (List.range n).map fun k =>
    let way : Int := if 0 ≤ d then one * (k + 1) - f else f + one * k
    ((way.natAbs * 4000 / (max 1 d.natAbs)), decide (0 ≤ d))

/-- The edges that still matter at time `t`: those to come and the latest one gone, whose pulse may last. -/
def edgesFrom (l : List (Nat × Bool)) (t : Nat) : List (Nat × Bool) :=
  ((l.filter fun e => Nat.blt e.1 t).getLast?).toList ++ l.filter fun e => Nat.ble t e.1

/-- Emit the pulses of the crossings of the previous tick, one tick later. -/
def State.emitSteps (s : State) (a : Fin 20) (p0 : BitVec 64) : State :=
  let k := a.val - 12
  let pw := 20 * s.getF (F.MOV_SD_TIM_PW k)
  let dsu := 20 * s.getF (F.MOV_SD_TIM_DSU k)
  let s := s.updAx a fun x => { x with edges := edgesFrom x.edges (s.tick * 4000) }
  (crossings p0 (s.ax a).p).foldl (fun b c =>
    let x := b.ax a
    let want := b.tick * 4000 + c.1
    let turn := c.2 != x.dir
    let free := x.lastEdge + 2 * pw
    let at_ := max want (if turn then max free (max (b.tick * 4000) (x.lastEdge + pw) + dsu) else if x.lastEdge = 0 then 0 else free)
    let new := if c.2 then x.steps + 1#32 else x.steps - 1#32
    b.updAx a fun y => { y with steps := new, dir := c.2, edges := y.edges ++ [(at_, c.2)], lastEdge := at_ }) s

/-- At the tick boundary every moving axis reaches its place, so that what stops it before the evaluation of the tick stops it
there, and the step pulses of the tick are known from its first cycle. (DESIGN CHOICE: log 53) -/
def State.axBoundary (s : State) : State :=
  s.each (List.finRange 20) fun b a =>
    if !b.axOn a then b
    else
      let before := (b.ax a).p
      let b := b.axReach a
      if isSd a ∧ b.axState a ≠ 6 then b.emitSteps a before else b

/-- The level of the STEP pin of axis 12 + k: high for PW × 100 ns from each rising edge (R326). -/
def State.stepLevel (s : State) (k : Fin 8) : Bool :=
  (s.ax (k.addNat 12)).edges.any fun e =>
    Nat.ble e.1 s.tsc.toNat && Nat.blt s.tsc.toNat (e.1 + 20 * s.getF (F.MOV_SD_TIM_PW k))

/-- The level of its DIR pin: from DSU × 100 ns before a step on it shows the direction of that step, up being the level
that the polarity bit names (R326). (DESIGN CHOICE: log 53) -/
def State.dirLevel (s : State) (k : Fin 8) : Bool :=
  let x := s.ax (k.addNat 12)
  let due := x.edges.filter fun e => Nat.ble e.1 (s.tsc.toNat + 20 * s.getF (F.MOV_SD_TIM_DSU k))
  let up := match due.getLast? with
    | some e => e.2
    | none => x.edges.isEmpty && x.dir
  up != s.flag (F.MOV_SD_CFG_DPOL k)

/-- What the Mangle drives on an SN pin: the STEP or DIR of an enabled step/direction axis that names it (R326). -/
def State.axDrive (s : State) (n : Nat) : Option Bool :=
  ((List.finRange 8).find? fun (k : Fin 8) => s.axOn (k.addNat 12) && (s.getF (F.MOV_SD_CFG_STEP k) == n || s.getF (F.MOV_SD_CFG_DIR k) == n)).map
    fun (k : Fin 8) => if s.getF (F.MOV_SD_CFG_STEP k) = n then s.stepLevel k else s.dirLevel k

/-! ## One axis, one tick (R310) -/

/-- A motion command or STOP taken at standstill before a queued command has started takes that command's place (R312). -/
def State.axUnqueue (s : State) (a : Fin 20) (c : AxCmd) : State :=
  if s.axState a = 0 ∧ (s.ax a).queued.isSome ∧ c.op ≠ 8 then
    let s := if c.op = 5 then s else s.incR (R.MOV_AX_SUPERSEDED a) 1
    (s.updAx a fun y => { y with queued := none }).putF (F.MOV_AX_STATUS_PENDING a) 0
  else s

def State.axTick (s : State) (a : Fin 20) : State :=
  if !s.axOn a then s
  else
    let prev := s.getR (R.MOV_AX_PCMD a)
    let s := s.limReport a
    let s := s.advance a
    let s := s.updAx a fun x => { x with hist := ((s.tick, s.axPosT0 a) :: x.hist).take 24 }
    let s := s.limPins a
    let s := if s.axState a ≠ 6 ∧ s.axCause a then s.axFault a else s
    let s := if s.axState a = 6 then s.faultTick a else s
    let s := s.limChange a (s.limNow a)
    let x := s.ax a
    let s := match x.cmd with
      | some op =>
        let c : AxCmd := { op := op, tgt := s.getR (R.MOV_AX_TGT a), jogv := s.getR (R.MOV_AX_JOGV a), seg := s.getR (R.MOV_AX_SEG a) }
        ((s.updAx a fun y => { y with cmd := none }).axUnqueue a c).axTake a c
      | none =>
        (match x.queued with
         | some c => if s.axState a = 0 ∧ x.restAt < s.tick then
             ((s.updAx a fun y => { y with queued := none }).putF (F.MOV_AX_STATUS_PENDING a) 0).axMotion a c else s
         | none => s)
    let s := s.limTrip a
    let s := s.axReport a
    if h : a.val < 12 then
      (if s.isStepper a then s.stepperRefs a ⟨a.val, h⟩ prev else s)
    else s

/-! ## Acceptance of an engine reset (R319) -/

/-- Every axis stops at DSTOP, commands are dropped, tables and homing end, jam windows are disarmed. -/
def State.mangleReset (s : State) : State :=
  let s := s.each (List.finRange 20) fun b a =>
    let b := (b.updAx a fun x => { x with cmd := none, queued := none }).putF (F.MOV_AX_STATUS_PENDING a) 0
    let st := b.axState a
    if st = 0 ∨ st = 6 ∨ !b.axOn a then b else b.axHalt a
  s.forEach 32 fun b j => if b.getF (F.MOV_JW_STATUS j) = 1 then b.putF (F.MOV_JW_STATUS j) 0 else b

/-- Are all enabled axes at standstill? -/
def State.axesStill (s : State) : Bool :=
  (List.finRange 20).all fun a => !s.axOn a || s.axState a == 0 || (s.ax a).v == 0

end Sys2Proof.Machine
end

