-- ==== Sys2Proof/Machine/Flags.lean ====
section
/-! DEFINITION. Machine/Flags.lean: the comparisons and integer results of Table 4-2. Ouvta keeps no flags (R82): a test
writes 1 or 0 to a register, and a branch compares two registers. -/

namespace Sys2Proof.Machine

/-- The 1 or 0 a test writes. -/
def test (b : Bool) : Word := if b then 1#32 else 0#32

/-- Less than, as signed. -/
def slt (a b : Word) : Bool := BitVec.slt a b

/-- Lower, as unsigned. -/
def ult (a b : Word) : Bool := BitVec.ult a b

/-- A signed result limited to 0x8000_0000 … 0x7FFF_FFFF (R80). -/
def sat32 (v : Int) : Word := BitVec.ofInt 32 (F32.clampInt (-2147483648) 2147483647 v)

/-- ADDS and SUBS. -/
def adds (a b : Word) : Word := sat32 (a.toInt + b.toInt)
def subs (a b : Word) : Word := sat32 (a.toInt - b.toInt)

/-- MHS: bits [63:32] of the signed product. -/
def mhs (a b : Word) : Word := BitVec.ofInt 32 (Int.fdiv (a.toInt * b.toInt) 0x100000000)

/-- MHU: bits [63:32] of the unsigned product. -/
def mhu (a b : Word) : Word := BitVec.ofNat 32 (a.toNat * b.toNat / 0x100000000)

/-- QUO (R81): rounded toward zero, saturating. -/
def quo (a b : Word) : Word :=
  if b = 0#32 then (if slt a 0#32 then 0x80000000#32 else 0x7FFFFFFF#32) else sat32 (Int.tdiv a.toInt b.toInt)

def quou (a b : Word) : Word := if b = 0#32 then 0xFFFFFFFF#32 else BitVec.ofNat 32 (a.toNat / b.toNat)

/-- MOD (R81): the remainder has the sign of the dividend; by zero it gives the dividend. -/
def modS (a b : Word) : Word := if b = 0#32 then a else BitVec.ofInt 32 (Int.tmod a.toInt b.toInt)

def modU (a b : Word) : Word := if b = 0#32 then a else BitVec.ofNat 32 (a.toNat % b.toNat)

/-- MIN and MAX, as signed. -/
def minS (a b : Word) : Word := if slt b a then b else a
def maxS (a b : Word) : Word := if slt a b then b else a

/-- Shifts use the low 5 bits of the amount. -/
def shl (a b : Word) : Word := a <<< (b.toNat % 32)
def shr (a b : Word) : Word := a >>> (b.toNat % 32)
def shra (a b : Word) : Word := a.sshiftRight (b.toNat % 32)

end Sys2Proof.Machine
end

