-- ==== Sys2Proof/Machine/OuvtaCode.lean ====
section
/-! DEFINITION. Machine/OuvtaCode.lean: the encodings of Ouvta instructions (R73–R75, R101, Tables 4-1 to 4-9): the word of
an instruction, and the instruction a word of program memory stands for. -/

namespace Sys2Proof.Machine

/-! ## Fields (Table 4-1) -/

def ouOp (w : Word) : BitVec 6 := BitVec.ofNat 6 (w.toNat / 2 ^ 26)
/-- Bits [25:22]: rd, or rs1 in the M and C formats. -/
def ouA (w : Word) : BitVec 4 := BitVec.ofNat 4 (w.toNat / 2 ^ 22)
/-- Bits [21:18]: rs1, or rs2 in the M and C formats. -/
def ouB (w : Word) : BitVec 4 := BitVec.ofNat 4 (w.toNat / 2 ^ 18)
/-- Bits [17:14]: rs2. -/
def ouC (w : Word) : BitVec 4 := BitVec.ofNat 4 (w.toNat / 2 ^ 14)
def ouFn (w : Word) : BitVec 14 := BitVec.ofNat 14 w.toNat
def ouImm (w : Word) : BitVec 18 := BitVec.ofNat 18 w.toNat
def ouWide (w : Word) : BitVec 22 := BitVec.ofNat 22 w.toNat

/-- A register field. -/
def regField {n : Nat} (i : Fin n) : BitVec 4 := BitVec.ofNat 4 i.val
/-- The x register that a field names. -/
def xReg (b : BitVec 4) : Fin 16 := Fin.ofNat 16 b.toNat
/-- The f register that a field names: bit 3 must be clear. -/
def fReg (b : BitVec 4) : Option (Fin 8) := if b.toNat < 8 then some (Fin.ofNat 8 b.toNat) else none

/-- The A format. -/
def fmtA (op : BitVec 6) (rd rs1 rs2 : BitVec 4) (fn : BitVec 14) : Word :=
  BitVec.ofNat 32 (op.toNat * 2 ^ 26 + rd.toNat * 2 ^ 22 + rs1.toNat * 2 ^ 18 + rs2.toNat * 2 ^ 14 + fn.toNat)
/-- The K, M and C formats. -/
def fmtK (op : BitVec 6) (r1 r2 : BitVec 4) (imm : BitVec 18) : Word :=
  BitVec.ofNat 32 (op.toNat * 2 ^ 26 + r1.toNat * 2 ^ 22 + r2.toNat * 2 ^ 18 + imm.toNat)
/-- The W and L formats. -/
def fmtW (op : BitVec 6) (rd : BitVec 4) (imm : BitVec 22) : Word :=
  BitVec.ofNat 32 (op.toNat * 2 ^ 26 + rd.toNat * 2 ^ 22 + imm.toNat)

/-! ## Decoding -/

/-- An instruction whose unused fields are 0. -/
def ifZero (z : Bool) (i : Instr) : Option Instr := if z then some i else none

/-- Three f registers. -/
def withFff (w : Word) (k : Fin 8 → Fin 8 → Fin 8 → Instr) : Option Instr :=
  match fReg (ouA w), fReg (ouB w), fReg (ouC w) with
  | some d, some a, some b => some (k d a b)
  | _, _, _ => none

/-- Two f registers, rs2 unused. -/
def withFf (w : Word) (k : Fin 8 → Fin 8 → Instr) : Option Instr :=
  match fReg (ouA w), fReg (ouB w) with
  | some d, some a => ifZero (ouC w == 0#4) (k d a)
  | _, _ => none

/-- An x result of two f registers. -/
def withXff (w : Word) (k : Fin 16 → Fin 8 → Fin 8 → Instr) : Option Instr :=
  match fReg (ouB w), fReg (ouC w) with
  | some a, some b => some (k (xReg (ouA w)) a b)
  | _, _ => none

/-- An f result of an x register, rs2 unused. -/
def withFx (w : Word) (k : Fin 8 → Fin 16 → Instr) : Option Instr :=
  match fReg (ouA w) with
  | some d => ifZero (ouC w == 0#4) (k d (xReg (ouB w)))
  | none => none

/-- An x result of an f register, rs2 unused. -/
def withXf (w : Word) (k : Fin 16 → Fin 8 → Instr) : Option Instr :=
  match fReg (ouB w) with
  | some a => ifZero (ouC w == 0#4) (k (xReg (ouA w)) a)
  | none => none

/-- Three x registers. -/
def withXxx (w : Word) (k : Fin 16 → Fin 16 → Fin 16 → Instr) : Instr := k (xReg (ouA w)) (xReg (ouB w)) (xReg (ouC w))

/-- Two x registers and a constant. -/
def withXxk (w : Word) (k : Fin 16 → Fin 16 → BitVec 18 → Instr) : Instr := k (xReg (ouA w)) (xReg (ouB w)) (ouImm w)

/-- A shift by a constant: imm[17:5] = 0. -/
def withShift (w : Word) (k : Fin 16 → Fin 16 → BitVec 5 → Instr) : Option Instr :=
  ifZero (decide ((ouImm w).toNat < 32)) (k (xReg (ouA w)) (xReg (ouB w)) (BitVec.ofNat 5 (ouImm w).toNat))

/-- Opcode 0x01. -/
def decInt (t : Fin 16) (w : Word) : Option Instr :=
  match (ouFn w).toNat with
  | 0x00 => some (withXxx w (.add t))
  | 0x01 => some (withXxx w (.sub t))
  | 0x02 => some (withXxx w (.and t))
  | 0x03 => some (withXxx w (.or t))
  | 0x04 => some (withXxx w (.xor t))
  | 0x05 => some (withXxx w (.shl t))
  | 0x06 => some (withXxx w (.shr t))
  | 0x07 => some (withXxx w (.shra t))
  | 0x08 => some (withXxx w (.tlt t))
  | 0x09 => some (withXxx w (.tlo t))
  | 0x0A => some (withXxx w (.adds t))
  | 0x0B => some (withXxx w (.subs t))
  | 0x0C => some (withXxx w (.min t))
  | 0x0D => some (withXxx w (.max t))
  | _ => none

/-- Opcode 0x02. -/
def decMul (t : Fin 16) (w : Word) : Option Instr :=
  match (ouFn w).toNat with
  | 0x00 => some (withXxx w (.mul t))
  | 0x01 => some (withXxx w (.mhs t))
  | 0x02 => some (withXxx w (.mhu t))
  | 0x03 => some (withXxx w (.quo t))
  | 0x04 => some (withXxx w (.quou t))
  | 0x05 => some (withXxx w (.mod t))
  | 0x06 => some (withXxx w (.modu t))
  | _ => none

/-- Opcode 0x28 (Table 4-3). -/
def decFloat (t : Fin 16) (w : Word) : Option Instr :=
  match (ouFn w).toNat with
  | 0x00 => withFff w (.fadd t)
  | 0x01 => withFff w (.fsub t)
  | 0x02 => withFff w (.fmul t)
  | 0x03 => withFff w (.fdiv t)
  | 0x04 => withFf w (.fsqrt t)
  | 0x05 => withFff w (.fmin t)
  | 0x06 => withFff w (.fmax t)
  | 0x07 => withFf w (.fabs t)
  | 0x08 => withFf w (.fneg t)
  | 0x09 => withXff w (.fceq t)
  | 0x0A => withXff w (.fclt t)
  | 0x0B => withXff w (.fcle t)
  | 0x0C => withFx w (.fitof t)
  | 0x0D => withFx w (.futof t)
  | 0x0E => withXf w fun d a => .fftoi t d a false
  | 0x0F => withXf w fun d a => .fftou t d a false
  | 0x10 => withXf w (.fmovx t)
  | 0x11 => withFx w (.fmovf t)
  | 0x12 => withFff w (.flim t)
  | 0x4E => withXf w fun d a => .fftoi t d a true
  | 0x4F => withXf w fun d a => .fftou t d a true
  | _ => none

/-- Opcode 0x29: fs3 in fn[13:10], fn[9:0] = 0. -/
def decFmac (t : Fin 16) (w : Word) : Option Instr :=
  match fReg (BitVec.ofNat 4 ((ouFn w).toNat / 1024)) with
  | some c => if (ouFn w).toNat % 1024 = 0 then withFff w fun d a b => .fmac t d a b c else none
  | none => none

/-- Opcode 0x3D (Table 4-6). -/
def decAux (t : Fin 16) (w : Word) : Option Instr :=
  match (ouFn w).toNat with
  | 0x0 => ifZero (ouB w == 0#4 && ouC w == 0#4) (.tsc t (xReg (ouA w)))
  | 0x1 => ifZero (ouB w == 0#4 && ouC w == 0#4) (.tickn t (xReg (ouA w)))
  | 0x2 => ifZero (ouB w == 0#4 && ouC w == 0#4) (.tcyc t (xReg (ouA w)))
  | 0x3 => ifZero (ouB w == 0#4 && ouC w == 0#4) (.mova t (xReg (ouA w)))
  | 0x4 => ifZero (ouA w == 0#4 && ouC w == 0#4) (.setdl t (xReg (ouB w)))
  | 0x5 => ifZero (ouA w == 0#4) (.setdla t (xReg (ouB w)) (xReg (ouC w)))
  | 0x6 => ifZero (ouA w == 0#4 && ouB w == 0#4 && ouC w == 0#4) (.brk t)
  | _ => none

/-- A float load. -/
def decLdf (t : Fin 16) (e : Ecc) (w : Word) : Option Instr :=
  match fReg (ouA w) with
  | some d => some (.ldf t d (xReg (ouB w)) (ouImm w) e)
  | none => none

/-- A float store. -/
def decStf (t : Fin 16) (w : Word) : Option Instr :=
  match fReg (ouB w) with
  | some b => some (.stf t (xReg (ouA w)) b (ouImm w))
  | none => none

/-- The instruction that word `w` stands for in thread `t` (R75, R101): none where it is ILLEGAL. `e` is the outcome of the
memory check on the word that a load or ADDM reads. BRK is ILLEGAL also while the debug port is locked, which its meaning
tests. (DEDUCED: log 12) -/
def decodeOuvta (t : Fin 16) (e : Ecc) (w : Word) : Option Instr :=
  match (ouOp w).toNat with
  | 0x01 => decInt t w
  | 0x02 => decMul t w
  | 0x04 => some (withXxk w (.addk t))
  | 0x05 => some (withXxk w (.andk t))
  | 0x06 => some (withXxk w (.ork t))
  | 0x07 => some (withXxk w (.xork t))
  | 0x08 => some (withXxk w (.tltk t))
  | 0x09 => some (withXxk w (.tlok t))
  | 0x0A => withShift w (.shlk t)
  | 0x0B => withShift w (.shrk t)
  | 0x0C => withShift w (.shrak t)
  | 0x0D => some (.khi t (xReg (ouA w)) (ouWide w))
  | 0x10 => some (withXxk w fun d a k => .ldw t d a k e)
  | 0x11 => some (withXxk w fun d a k => .ldh t d a k e)
  | 0x12 => some (withXxk w fun d a k => .ldhu t d a k e)
  | 0x13 => some (withXxk w fun d a k => .ldb t d a k e)
  | 0x14 => some (withXxk w fun d a k => .ldbu t d a k e)
  | 0x15 => decLdf t e w
  | 0x18 => some (withXxk w (.stw t))
  | 0x19 => some (withXxk w (.sth t))
  | 0x1A => some (withXxk w (.stb t))
  | 0x1B => decStf t w
  | 0x1C => ifZero (ouFn w == 0#14) (withXxx w fun d a b => .addm t d a b e)
  | 0x20 => some (withXxk w (.ifeq t))
  | 0x21 => some (withXxk w (.ifne t))
  | 0x22 => some (withXxk w (.iflt t))
  | 0x23 => some (withXxk w (.ifge t))
  | 0x24 => some (withXxk w (.iflo t))
  | 0x25 => some (withXxk w (.ifhs t))
  | 0x26 => some (.call t (xReg (ouA w)) (ouWide w))
  | 0x27 => some (withXxk w (.callr t))
  | 0x28 => decFloat t w
  | 0x29 => decFmac t w
  | 0x30 => some (withXxk w (.portIn t))
  | 0x31 => some (withXxk w (.portOut t))
  | 0x38 => ifZero (ouFn w == 0#14) (withXxx w (.wait t))
  | 0x39 => ifZero (ouFn w == 0#14) (withXxx w (.pick t))
  | 0x3A => ifZero (decide ((ouFn w).toNat < 128)) (withXxx w fun d a b => .ldgm t d a b (BitVec.ofNat 6 (ouFn w).toNat) (decide (64 ≤ (ouFn w).toNat)))
  | 0x3B => ifZero (ouA w == 0#4 && ouC w == 0#4) (.evt t (xReg (ouB w)) (BitVec.ofNat 2 ((ouFn w).toNat / 4096)) (BitVec.ofNat 12 (ouFn w).toNat))
  | 0x3C => ifZero (ouA w == 0#4) (.sig t (xReg (ouB w)) (ouImm w))
  | 0x3D => decAux t w
  | _ => none

/-! ## Encoding -/

/-- An A-format word of three registers. -/
def encRrr {a b c : Nat} (op : BitVec 6) (fn : BitVec 14) (rd : Fin a) (rs1 : Fin b) (rs2 : Fin c) : Option Word :=
  some (fmtA op (regField rd) (regField rs1) (regField rs2) fn)

/-- An A-format word with rs2 = 0. -/
def encRr {a b : Nat} (op : BitVec 6) (fn : BitVec 14) (rd : Fin a) (rs1 : Fin b) : Option Word :=
  some (fmtA op (regField rd) (regField rs1) 0#4 fn)

/-- A word of two registers and an 18-bit constant. -/
def encRrk {a b : Nat} (op : BitVec 6) (r1 : Fin a) (r2 : Fin b) (imm : BitVec 18) : Option Word :=
  some (fmtK op (regField r1) (regField r2) imm)

/-- The word of an Ouvta instruction: none for every other command. The thread and the outcome of a memory check are not part
of the word. -/
def encodeOuvta : Instr → Option Word
  | .add _ d a b => encRrr 0x01#6 0x00#14 d a b
  | .sub _ d a b => encRrr 0x01#6 0x01#14 d a b
  | .and _ d a b => encRrr 0x01#6 0x02#14 d a b
  | .or _ d a b => encRrr 0x01#6 0x03#14 d a b
  | .xor _ d a b => encRrr 0x01#6 0x04#14 d a b
  | .shl _ d a b => encRrr 0x01#6 0x05#14 d a b
  | .shr _ d a b => encRrr 0x01#6 0x06#14 d a b
  | .shra _ d a b => encRrr 0x01#6 0x07#14 d a b
  | .tlt _ d a b => encRrr 0x01#6 0x08#14 d a b
  | .tlo _ d a b => encRrr 0x01#6 0x09#14 d a b
  | .adds _ d a b => encRrr 0x01#6 0x0A#14 d a b
  | .subs _ d a b => encRrr 0x01#6 0x0B#14 d a b
  | .min _ d a b => encRrr 0x01#6 0x0C#14 d a b
  | .max _ d a b => encRrr 0x01#6 0x0D#14 d a b
  | .mul _ d a b => encRrr 0x02#6 0x00#14 d a b
  | .mhs _ d a b => encRrr 0x02#6 0x01#14 d a b
  | .mhu _ d a b => encRrr 0x02#6 0x02#14 d a b
  | .quo _ d a b => encRrr 0x02#6 0x03#14 d a b
  | .quou _ d a b => encRrr 0x02#6 0x04#14 d a b
  | .mod _ d a b => encRrr 0x02#6 0x05#14 d a b
  | .modu _ d a b => encRrr 0x02#6 0x06#14 d a b
  | .addk _ d a k => encRrk 0x04#6 d a k
  | .andk _ d a k => encRrk 0x05#6 d a k
  | .ork _ d a k => encRrk 0x06#6 d a k
  | .xork _ d a k => encRrk 0x07#6 d a k
  | .tltk _ d a k => encRrk 0x08#6 d a k
  | .tlok _ d a k => encRrk 0x09#6 d a k
  | .callr _ d a k => encRrk 0x27#6 d a k
  | .portIn _ d a k => encRrk 0x30#6 d a k
  | .shlk _ d a k => encRrk 0x0A#6 d a (BitVec.ofNat 18 k.toNat)
  | .shrk _ d a k => encRrk 0x0B#6 d a (BitVec.ofNat 18 k.toNat)
  | .shrak _ d a k => encRrk 0x0C#6 d a (BitVec.ofNat 18 k.toNat)
  | .ifeq _ a b k => encRrk 0x20#6 a b k
  | .ifne _ a b k => encRrk 0x21#6 a b k
  | .iflt _ a b k => encRrk 0x22#6 a b k
  | .ifge _ a b k => encRrk 0x23#6 a b k
  | .iflo _ a b k => encRrk 0x24#6 a b k
  | .ifhs _ a b k => encRrk 0x25#6 a b k
  | .stw _ a b k => encRrk 0x18#6 a b k
  | .sth _ a b k => encRrk 0x19#6 a b k
  | .stb _ a b k => encRrk 0x1A#6 a b k
  | .portOut _ a b k => encRrk 0x31#6 a b k
  | .ldw _ d a k _ => encRrk 0x10#6 d a k
  | .ldh _ d a k _ => encRrk 0x11#6 d a k
  | .ldhu _ d a k _ => encRrk 0x12#6 d a k
  | .ldb _ d a k _ => encRrk 0x13#6 d a k
  | .ldbu _ d a k _ => encRrk 0x14#6 d a k
  | .fadd _ d a b => encRrr 0x28#6 0x00#14 d a b
  | .fsub _ d a b => encRrr 0x28#6 0x01#14 d a b
  | .fmul _ d a b => encRrr 0x28#6 0x02#14 d a b
  | .fdiv _ d a b => encRrr 0x28#6 0x03#14 d a b
  | .fmin _ d a b => encRrr 0x28#6 0x05#14 d a b
  | .fmax _ d a b => encRrr 0x28#6 0x06#14 d a b
  | .flim _ d a b => encRrr 0x28#6 0x12#14 d a b
  | .fceq _ d a b => encRrr 0x28#6 0x09#14 d a b
  | .fclt _ d a b => encRrr 0x28#6 0x0A#14 d a b
  | .fcle _ d a b => encRrr 0x28#6 0x0B#14 d a b
  | .fsqrt _ d a => encRr 0x28#6 0x04#14 d a
  | .fabs _ d a => encRr 0x28#6 0x07#14 d a
  | .fneg _ d a => encRr 0x28#6 0x08#14 d a
  | .fitof _ d a => encRr 0x28#6 0x0C#14 d a
  | .futof _ d a => encRr 0x28#6 0x0D#14 d a
  | .fftoi _ d a z => encRr 0x28#6 (if z then 0x4E#14 else 0x0E#14) d a
  | .fftou _ d a z => encRr 0x28#6 (if z then 0x4F#14 else 0x0F#14) d a
  | .fmovx _ d a => encRr 0x28#6 0x10#14 d a
  | .fmovf _ d a => encRr 0x28#6 0x11#14 d a
  | .fmac _ d a b c => encRrr 0x29#6 (BitVec.ofNat 14 (c.val * 1024)) d a b
  | .khi _ d k => some (fmtW 0x0D#6 (regField d) k)
  | .call _ d k => some (fmtW 0x26#6 (regField d) k)
  | .ldf _ d a k _ => encRrk 0x15#6 d a k
  | .stf _ a b k => encRrk 0x1B#6 a b k
  | .addm _ d a b _ => encRrr 0x1C#6 0#14 d a b
  | .wait _ d a b => encRrr 0x38#6 0#14 d a b
  | .pick _ d a b => encRrr 0x39#6 0#14 d a b
  | .ldgm _ d a b p o => encRrr 0x3A#6 (BitVec.ofNat 14 (p.toNat + if o then 64 else 0)) d a b
  | .evt _ a c k => some (fmtA 0x3B#6 0#4 (regField a) 0#4 (BitVec.ofNat 14 (c.toNat * 4096 + k.toNat)))
  | .sig _ a k => some (fmtK 0x3C#6 0#4 (regField a) k)
  | .tsc _ d => some (fmtA 0x3D#6 (regField d) 0#4 0#4 0#14)
  | .tickn _ d => some (fmtA 0x3D#6 (regField d) 0#4 0#4 1#14)
  | .tcyc _ d => some (fmtA 0x3D#6 (regField d) 0#4 0#4 2#14)
  | .mova _ d => some (fmtA 0x3D#6 (regField d) 0#4 0#4 3#14)
  | .setdl _ a => some (fmtA 0x3D#6 0#4 (regField a) 0#4 4#14)
  | .setdla _ a b => some (fmtA 0x3D#6 0#4 (regField a) (regField b) 5#14)
  | .brk _ => some (fmtA 0x3D#6 0#4 0#4 0#4 6#14)
  | _ => none

end Sys2Proof.Machine
end

