-- ==== Sys2Proof/Machine/OpsSeq.lean ====
section
/-! DEFINITION. Machine/OpsSeq.lean: when a thread may issue, charging, faults, waiting and starting (R49–R71, R75–R79,
R89). -/

namespace Sys2Proof.Machine

/-! ## Thread states -/

/-- The state a thread is in apart from a debug halt or a suspension. -/
def Thread.run (h : Thread) : ThrState := if h.st = .debugHalted ∨ h.st = .suspended then h.back else h.st

/-- Change that state. -/
def Thread.setRun (h : Thread) (v : ThrState) : Thread :=
  if h.st = .debugHalted ∨ h.st = .suspended then { h with back := v } else { h with st := v }

def State.faultThread (s : State) : Nat := s.getF F.SEQ_CTRL_FAULT_THREAD

/-- The wake-source bits of a thread (Table 3-3): SIG, event lines, TICK and FRAME are held; TIME, MBOX and FAULT are
levels of their causes. (DEDUCED: log 15) -/
def State.pendOf (s : State) (t : Fin 16) : BitVec 64 :=
  let h := s.thr t
  let time := match h.deadline with
    | some d => Nat.ble d.toNat s.tsc.toNat
    | none => false
  let mbox := (List.range 8).any fun m => s.flag (F.SEQ_MBI_STATUS_FULL m) && s.getF (F.SEQ_MBI_CFG_THREAD m) == t.val
  let flt := s.flag F.SEQ_FAULT_SRC_SRC && s.faultThread == t.val
  (h.pend &&& 0x3FFFFFFFFFFFF#64) ||| (if time then 0x4000000000000#64 else 0#64) |||
    (if mbox then 0x8000000000000#64 else 0#64) ||| (if flt then 0x10000000000000#64 else 0#64)

/-- May the thread issue an instruction of cost `c` in this cycle (R49–R51, R71)? (DESIGN CHOICE: log 7) -/
def State.canIssue (s : State) (t : Fin 16) (c : Nat) : Bool :=
  let h := s.thr t
  (h.st == .eligible || (h.st == .debugHalted && !h.susp && h.back == .eligible && h.step))
    && h.owed == 0 && Nat.ble h.readyAt s.tsc.toNat && Nat.ble 200 s.cycle && Nat.blt s.cycle 3800
    && Nat.ble c (h.budget + h.prepaid) && Nat.blt 0 (h.budget + h.prepaid)

/-- Charge an instruction of cost `c`; cycles charged at its first grant are not charged again (R51). (DESIGN CHOICE: log 7) -/
def State.charge (s : State) (t : Fin 16) (c : Nat) : State :=
  let h := s.thr t
  let s := s.setThr t { h with budget := h.budget - (c - h.prepaid), used := h.used + (c - h.prepaid), prepaid := 0, owed := 0, step := false }
  { s with seq := { s.seq with lastGrant := t } }

/-! ## The next instruction (R75, R76) -/

/-- The word of program memory at an instruction index. -/
def State.fetchOuvta (s : State) (pc : Nat) : Word := BitVec.ofNat 32 (rdLe s.mem.pmem (4 * pc) 4)

/-- The next instruction of a thread: none where its encoding is undefined. -/
def State.nextInstr (s : State) (t : Fin 16) : Option Instr := decodeOuvta t .clean (s.fetchOuvta (s.thr t).pc)

/-- The cost of an instruction (R76); a branch costs 2 when it is taken. (PRESUMED: log 11) -/
def State.costOf (s : State) (i : Option Instr) : Nat :=
  match i with
  | some (.quo ..) => 8
  | some (.quou ..) => 8
  | some (.mod ..) => 8
  | some (.modu ..) => 8
  | some (.fdiv ..) => 8
  | some (.fsqrt ..) => 8
  | some (.fmac ..) => 2
  | some (.ldw ..) => 2
  | some (.ldh ..) => 2
  | some (.ldhu ..) => 2
  | some (.ldb ..) => 2
  | some (.ldbu ..) => 2
  | some (.ldf ..) => 2
  | some (.addm ..) => 2
  | some (.portIn ..) => 4
  | some (.portOut ..) => 2
  | some (.call ..) => 2
  | some (.callr ..) => 2
  | some (.pick ..) => 4
  | some (.ldgm ..) => 2
  | some (.ifeq t a b _) => if s.rx t a == s.rx t b then 2 else 1
  | some (.ifne t a b _) => if s.rx t a != s.rx t b then 2 else 1
  | some (.iflt t a b _) => if slt (s.rx t a) (s.rx t b) then 2 else 1
  | some (.ifge t a b _) => if slt (s.rx t a) (s.rx t b) then 1 else 2
  | some (.iflo t a b _) => if ult (s.rx t a) (s.rx t b) then 2 else 1
  | some (.ifhs t a b _) => if ult (s.rx t a) (s.rx t b) then 1 else 2
  | _ => 1

/-! ## Faults (R54–R56) -/

/-- Halt a thread with a fault code. -/
def State.faultThr (s : State) (t : Fin 16) (code : Nat) : State :=
  let h := s.thr t
  let other := s.faultThread != t.val
  let s := s.setThr t { h with st := .halted, fault := code, owed := 0, prepaid := 0, step := false,
                               handover := if other then some (s.tick + 1) else h.handover }
  if other then s.raise Ev.SEQ_THREAD_FAULT t (BitVec.ofNat 32 code) (BitVec.ofNat 32 h.pc)
  else
    let s := { s with seq := { s.seq with noHandlerTick := s.seq.noHandlerTick.orElse fun _ => some s.tick } }
    (s.putF F.SEQ_STATUS_NO_HANDLER 1).raise Ev.SEQ_NO_HANDLER t

/-! ## Port accesses refused to threads (R61, Table 3-2) -/

/-- Is this access one that Table 3-2 refuses to a thread (R61)? (DEDUCED: log 34) -/
def State.portDenied (s : State) (p : Port) (off : Nat) (isWrite : Bool) : Bool :=
  match p with
  | .host => false
  | .thread t =>
    off / 0x10000 == 0x14 || off == R.SEQ_DBG || (Nat.ble 0x800000 off && Nat.blt off 0x840000)
      || (Nat.ble 0xC00000 off && Nat.blt off 0xC20000)
      || (isWrite && (off / 0x10000 == 3 || off == R.DEV_RESET || (off == R.SEQ_THR_RESTART && s.faultThread != t.val)))

/-- PORT_DENIED faults the thread; the access has no effect. (DEDUCED: log 34) -/
def State.denied (s : State) (p : Port) : State :=
  match p with
  | .host => s
  | .thread t => s.faultThr t 0x5

/-- A write at `off` by a port that may make it; by another it faults the thread (R61). -/
def State.viaPort (s : State) (p : Port) (off : Nat) (f : State → State) : State :=
  if s.portDenied p off true then s.denied p else f s

/-- Set the PC, or fault with PC_RANGE where it passes index 65,535 (R79). -/
def State.setPc (s : State) (t : Fin 16) (pc : Nat) : State :=
  if pc < 65536 then s.setThr t { s.thr t with pc := pc } else s.faultThr t 0x2

/-- Perform an instruction of cost `c`, if the thread may issue it: its effects, then the advance of the PC. (DESIGN CHOICE: log 7) -/
def State.perform (s : State) (t : Fin 16) (c : Nat) (run : State → State) : State :=
  if s.canIssue t c then (run (s.charge t c)).setPc t ((s.thr t).pc + 1) else s

/-- Perform a control transfer to `dest`. -/
def State.performTo (s : State) (t : Fin 16) (c dest : Nat) (run : State → State) : State :=
  if s.canIssue t c then (run (s.charge t c)).setPc t dest else s

/-- Perform an instruction that faults with `code`: no other effect. -/
def State.performFault (s : State) (t : Fin 16) (c code : Nat) : State :=
  if s.canIssue t c then (s.charge t c).faultThr t code else s

/-! ## Waiting (R62, R63, R89) -/

/-- The TSC from which a thread whose condition became true now is eligible (R63). (DEDUCED: log 15) -/
def State.wakeFrom (s : State) : Nat :=
  if s.cycle < 200 then s.tick * 4000 + 200
  else if s.cycle < 3799 then s.tsc.toNat + 1
  else (s.tick + 1) * 4000 + 200

/-- End the WAIT of a thread with the matching bits `m`. (DEDUCED: log 15) -/
def State.endWait (s : State) (t : Fin 16) (m : BitVec 64) : State :=
  let h := s.thr t
  let h1 := h.wx h.waitRd (m.setWidth 32)
  let h1 := { h1 with aux := (m >>> 32).setWidth 32, pend := h.pend &&& ~~~ (m &&& 0xFFFFFFFFFFFF#64) }
  let h1 := if m.getLsbD 50 then { h1 with deadline := none } else h1
  s.setThr t h1

/-- Wake a waiting thread whose condition holds. -/
def State.wake (s : State) (t : Fin 16) : State :=
  let h := s.thr t
  let m := s.pendOf t &&& h.mask
  if h.run = .waiting ∧ m ≠ 0#64 then
    let s1 := s.endWait t m
    s1.setThr t { (s1.thr t).setRun .eligible with readyAt := s.wakeFrom }
  else s

/-! ## Starting (R68) -/

/-- A debug-halted thread leaves its debug halt: a suspended one is suspended again (R70, R71). -/
def Thread.resume (h : Thread) : Thread :=
  if h.st = .debugHalted then { h with st := if h.susp then .suspended else h.back, susp := false, step := false } else h

/-- A thread is suspended (R70). (DEDUCED: log 74) -/
def Thread.suspend (h : Thread) : Thread :=
  if h.st = .disabled ∨ h.st = .halted ∨ h.st = .suspended then h
  else if h.st = .debugHalted then { h with susp := true }
  else { h with st := .suspended, back := h.run }

/-- Is the thread suspended, debug-halted or not? -/
def Thread.isSuspended (h : Thread) : Bool := h.st == .suspended || (h.st == .debugHalted && h.susp)

/-- The state of a starting thread. -/
def Thread.start (n entry budget : Nat) : Thread :=
  { st := .eligible, pc := entry, x := (Vector.replicate 16 (0#32 : Word)).setIfInBounds 1 (BitVec.ofNat 32 n), budget := budget }

/-- The fields that a settings apply leaves until threads next start: SEQ_CTRL, and the thread's EN and ENTRY (R39, R69). (DEDUCED: log 13) -/
def State.seqDeferred (s : State) (n : Nat) : State :=
  let new := fun (off : Nat) => SMap.get resetWord s.vin.applied off
  let cfg := (s.getR (R.SEQ_THR_CFG n) &&& ~~~1#32) ||| (new (R.SEQ_THR_CFG n) &&& 1#32)
  ((s.putR R.SEQ_CTRL (new R.SEQ_CTRL)).putR (R.SEQ_THR_CFG n) cfg).putR (R.SEQ_THR_ENTRY n) (new (R.SEQ_THR_ENTRY n))

/-- Start one thread at its entry point, or leave it disabled where its EN is 0: its pending bits stay until it starts (R65). A
thread other than the fault thread that starts while threads are suspended is suspended too (R70). (DEDUCED: log 13, 74; DESIGN CHOICE: log 86) -/
def State.startThr (s : State) (t : Fin 16) : State :=
  let s := s.seqDeferred t
  if s.flag (F.SEQ_THR_CFG_EN t) then
    let h := Thread.start t (s.getF (F.SEQ_THR_ENTRY t)) (s.getF (F.SEQ_THR_CFG_BUDGET t))
    s.setThr t (if s.flag F.SEQ_STATUS_SUSPENDED && s.faultThread != t.val then h.suspend else h)
  else s.setThr t { (s.thr t) with st := .disabled, fault := 0, consec := 0, restart := none }

/-- BUDGET values that a settings apply holds back until cycle 200 of its switch tick (R39, R69). -/
def State.takeBudgets (s : State) : State :=
  if s.seq.budgetDue then
    { s with seq := { s.seq with budgetDue := false } }.forEach 16 fun a n =>
      a.putR (R.SEQ_THR_CFG n) ((a.getR (R.SEQ_THR_CFG n) &&& ~~~0xFFF0#32)
        ||| (SMap.get resetWord a.vin.applied (R.SEQ_THR_CFG n) &&& 0xFFF0#32))
  else s

/-- The reload at cycle 200 (R51, R57, R62, R69): due restarts, budgets, pre-empted threads and the TICK wake source. -/
def State.budgetReload (s : State) : State :=
  let s := s.takeBudgets
  let due := fun (h : Thread) => match h.restart with
    | some k => Nat.ble k s.tick
    | none => false
  let start := fun (a : State) (n : Nat) => if due (a.seq.thr.toList.getD n {}) then a.startThr (Fin.ofNat 16 n) else a
  let s := s.forEach 16 start
  s.mapThr fun n h =>
    let h1 : Thread := { h with budget := s.getF (F.SEQ_THR_CFG_BUDGET n) }
    (if h1.run = .preempted then h1.setRun .eligible else h1).setPend 48

/-- Charge an overrun (R52, R53): the thread is pre-empted, or halted at its third overrun in a row. -/
def State.overrunThr (s : State) (t : Fin 16) : State :=
  let h := s.thr t
  let s := s.incR (R.SEQ_THR_OVR t) 1
  let s := s.setThr t { h with consec := h.consec + 1, ovrThisTick := true, st := .preempted }
  if 3 ≤ h.consec + 1 then s.faultThr t 0x7 else s.raise Ev.SEQ_OVERRUN t (BitVec.ofNat 32 h.pc)

/-- Clear what every whole apply clears before threads start (R68). (DEDUCED: log 14; DESIGN CHOICE: log 86) -/
def State.clearSeqFaults (s : State) : State :=
  let s := (s.putF F.SEQ_FAULT_SRC_SRC 0).putF F.SEQ_STATUS_NO_HANDLER 0
  let s := { s with seq := { s.seq with noHandlerTick := none } }
  s.mapThr fun _ h => { h with handover := none, restart := none }

/-- Halt every thread without a fault code and without handover (R70). One that a fault halted before keeps its code
until threads start (R54, R68); no restart takes effect meanwhile, and none is suspended. (DEDUCED: log 14) -/
def State.haltAll (s : State) : State :=
  (s.mapThr fun _ h =>
    if h.st = .disabled then h
    else if h.st = .halted then { h with restart := none }
    else { h with st := .halted, fault := 0, owed := 0, prepaid := 0, step := false, susp := false, restart := none }).putF
    F.SEQ_STATUS_SUSPENDED 0

/-- DEV_STATE became FAULT: suspend every thread but the fault thread (R70). -/
def State.suspendAll (s : State) : State :=
  let ft := s.faultThread
  let s1 := s.mapThr fun n h => if n = ft then h else h.suspend
  s1.putF F.SEQ_STATUS_SUSPENDED 1

/-! ## Host access to sequencer memory (R58–R60) -/

/-- The dwords that a list of rising addresses touches. -/
def dwordCount : List Nat → Nat
  | [] => 0
  | [_] => 1
  | a :: b :: r => (if a / 4 = b / 4 then 0 else 1) + dwordCount (b :: r)

/-- How many leading addresses of a rising list lie in its first `k` dwords, `last` being a dword already counted. -/
def inFirst : Nat → Option Nat → List Nat → Nat
  | _, _, [] => 0
  | k, last, a :: r =>
    if last = some (a / 4) then 1 + inFirst k last r
    else match k with
      | 0 => 0
      | k + 1 => 1 + inFirst k (some (a / 4)) r

/-- The addresses that an access names. -/
def HostAcc.addrs (h : HostAcc) : List Nat := h.write.map Prod.fst ++ h.read

/-- The part of an access in its first `n` bytes, and the rest. -/
def HostAcc.take (h : HostAcc) (n : Nat) : HostAcc := { h with write := h.write.take n, read := h.read.take n }

def HostAcc.drop (h : HostAcc) (n : Nat) : HostAcc := { h with write := h.write.drop n, read := h.read.drop n }

/-- Are host accesses served in this cycle (R49)? -/
def State.reserved (s : State) : Bool := Nat.blt s.cycle 200 || Nat.ble 3800 s.cycle

/-- Write bytes of program memory or data memory. -/
def putBytes (m : List Host.Cell) (l : List (Nat × Byte)) : List Host.Cell := l.foldl (fun a x => wrByte a x.1 x.2) m

/-- Carry out a host access to program memory or data memory: a write to program memory makes the running configuration
unsigned (R58); the bytes of a read go to the host. -/
def State.serveAcc (s : State) (h : HostAcc) : State :=
  let s := { s with host := { s.host with readData := s.host.readData ++ h.read.map (rdByte (if h.prog then s.mem.pmem else s.mem.dmem)) } }
  let s := { s with seq := { s.seq with served := s.seq.served + dwordCount h.addrs } }
  if h.write = [] then s
  else if h.prog then { s with mem := { s.mem with pmem := putBytes s.mem.pmem h.write } }.markUnsigned
  else { s with mem := { s.mem with dmem := putBytes s.mem.dmem h.write } }

/-- Serve the waiting host accesses that still fit in the 400 dwords of this tick; one of more than 400 dwords is served by
parts. (DEDUCED: log 72) -/
def serveMem : List HostAcc → State → State
  | [], s => { s with seq := { s.seq with waiting := [] } }
  | h :: r, s =>
    let n := dwordCount h.addrs
    let room := 400 - s.seq.served
    if n ≤ room then serveMem r (s.serveAcc h)
    else if 400 < n ∧ 0 < room then
      let k := inFirst room none h.addrs
      let s := s.serveAcc (h.take k)
      { s with seq := { s.seq with waiting := h.drop k :: r } }
    else { s with seq := { s.seq with waiting := h :: r } }

/-- A host access queues behind those that wait; in a reserved cycle it is served at once where there is room. (DEDUCED: log 72) -/
def State.hostMem (s : State) (h : HostAcc) : State :=
  let l := s.seq.waiting ++ [h]
  if s.reserved then serveMem l s else { s with seq := { s.seq with waiting := l } }

/-- The bytes of a host write at `a` and following addresses. -/
def bytesAt (a : Nat) (bs : List Byte) : List (Nat × Byte) := bs.zipIdx.map fun x => (a + x.2, x.1)

/-- A host write to program memory: carried out only while the debug port is unlocked (R58). -/
def State.pmemWrite (s : State) (l : List (Nat × Byte)) : State :=
  if s.dbgOpen then s.hostMem { prog := true, write := l } else s.raise (Ev.writeRefused 2) 0 (BitVec.ofNat 32 (0x800000 + (l.headD (0, 0#8)).1))

/-- A host write to data memory: carried out only where every byte lies within SEQ_HOST_WIN (R59). -/
def State.dmemHostWrite (s : State) (l : List (Nat × Byte)) : State :=
  if l.all fun x => inWin (s.getR R.SEQ_HOST_WIN) x.1 then s.hostMem { prog := false, write := l }
  else s.raise (Ev.writeRefused 2) 0 (BitVec.ofNat 32 (0xC00000 + (l.headD (0, 0#8)).1))

/-! ## Mailboxes (R66, R67) -/

/-- The MBOX_FULL test and fill of R66: `true` where the payload was written. -/
def State.fillMbi (s : State) (m n : Nat) (data : Vector Word 16) : State :=
  let s := s.forEach n fun a i => a.putR (R.SEQ_MBI_DATA m i) (data.toList.getD i 0#32)
  (s.putF (F.SEQ_MBI_STATUS_COUNT m) n).latchF (F.SEQ_MBI_STATUS_FULL m)

/-- A post of outbound mailbox `m` with `n` dwords (R67). (DEDUCED: log 67) -/
def State.postMbo (s : State) (m n : Nat) : State :=
  if s.flag (F.SEQ_MBO_STATUS_FULL m) then s.latchF (F.SEQ_MBO_STATUS_OVR m)
  else (((s.putF (F.SEQ_MBO_STATUS_COUNT m) n).latchF (F.SEQ_MBO_STATUS_FULL m)).raise Ev.SEQ_MBOX_POSTED m).signal (8 + m)

end Sys2Proof.Machine
end

