-- ==== Sys2Proof/Machine/OpsRead.lean ====
section
/-! DEFINITION. Machine/OpsRead.lean: what a register reads as: the word it holds, or, for a register that reports state
kept elsewhere, the value at the moment of the read (R6, R86). -/

namespace Sys2Proof.Machine

/-- One dword of a 64-bit number. -/
def half64 (v : Nat) (hi : Bool) : Word := BitVec.ofNat 32 (if hi then v / 0x100000000 else v)

/-- Index of an element of a register array, if the offset is one of it. -/
def arrIdx (off base stride n : Nat) : Option Nat :=
  if base ≤ off ∧ (off - base) % stride = 0 ∧ (off - base) / stride < n then some ((off - base) / stride) else none

/-- A per-thread register that reports the thread (Table 3-6). -/
def State.readThr (s : State) (off : Nat) : Option Word :=
  if off < 0x20100 ∨ 0x20500 ≤ off then none
  else
    let n : Fin 16 := Fin.ofNat 16 ((off - 0x20100) / 0x40)
    let h := s.thr n
    match (off - 0x20100) % 0x40 with
    | 0x0C =>
      -- A thread that woke is waiting until the cycle from which it is eligible (R63).
      let st := if h.st == .eligible && Nat.blt s.tsc.toNat h.readyAt then ThrState.waiting else h.st
      some (BitVec.ofNat 32 (st.code + 16 * h.fault + 256 * (h.consec % 4)))
    | 0x10 => some (BitVec.ofNat 32 h.pc)
    | 0x14 => some (BitVec.ofNat 32 (h.usedLast + 65536 * h.usedMax))
    | 0x20 => some ((s.pendOf n).extractLsb' 0 32)
    | 0x24 => some ((s.pendOf n).extractLsb' 32 32)
    | _ => none

/-- The query registers of the Cellar. (DEDUCED: log 42) -/
def State.readPageQuery (s : State) (off : Nat) : Option Word :=
  let p := s.cel.pages.find? fun p => p.tag == s.getR R.CEL_QUERY
  let chain : List Gran := match p with
    | none => []
    | some p => p.planes.flatMap Plane.chain
  if off = R.CEL_QUERY_STATE then
    some (match p with
      | none => 0#32
      | some p =>
        let cb := p.planes.foldl (fun m q => if q.condB then m ||| 2 ^ q.station.val else m) 0
        let short := (p.planes.filter fun q => (s.planeNeed p.lines q).isNone).foldl (fun m q => m ||| 2 ^ q.station.val) 0
        BitVec.ofNat 32 (p.st.code + 8 * boolNat p.damaged + 16 * p.reason + 256 * cb + 65536 * short))
  else if off = R.CEL_QUERY_GRAN then some (BitVec.ofNat 32 (chain.filter Gran.inCellar).length)
  else if off = R.CEL_QUERY_DGRAN then some (BitVec.ofNat 32 (chain.filter fun g => !g.inCellar).length)
  else if off = R.CEL_QUERY_NEED then some (BitVec.ofNat 32 ((p.map Page.lastNeed).getD 0))
  else none

/-- The ledger's reporting registers. -/
def State.readLedger (s : State) (off : Nat) : Option Word :=
  let l := s.led
  if off = R.LDG_POP_PATH then some (BitVec.ofNat 32 (l.pop Place.inPath))
  else if off = R.LDG_POP_JAM then some (BitVec.ofNat 32 (l.pop (· == .jammed)))
  else if off = R.LDG_POP_STRAND then some (BitVec.ofNat 32 (l.pop (· == .stranded)))
  else if off = R.LDG_NEXT_ID then some l.nextId
  else if off = R.LDG_QUERY_PLACE then
    some (match l.find (s.getR R.LDG_QUERY) with
      | none => 0x3F#32
      | some sh => BitVec.ofNat 32 (sh.place.code + 256 * sh.owner.val + 4096 * boolNat sh.spoiled + 8192 * boolNat sh.tag2.isSome))
  else if 0x130040 ≤ off ∧ off < 0x130068 then
    some (half64 ([l.picked, l.handedIn, l.delivered, l.purged, l.handedOut].getD ((off - 0x130040) / 8) 0) (off % 8 == 4))
  else none

/-! ## Sensor pins set as outputs (R271, R273) -/

/-- The level an SN pin drives: OUT, what a step/direction axis drives in its place (R326), or the pulse of a compare unit;
none for an input. -/
def State.snDrive (s : State) (n : Nat) : Option Bool :=
  match s.getF (F.SNS_CFG_DIR n) with
  | 1 => some ((s.axDrive n).getD (s.flag (F.SNS_STATE_OUT n)))
  | 2 => some (s.pulses.any (fun x => x.1 == n) == s.flag (F.SNS_CFG_LEVEL n))
  | _ => none

/-- SNS_STATE: the raw level of an output pin is the level it drives. -/
def State.readPin (s : State) (off : Nat) : Option Word :=
  match arrIdx off (R.SNS_STATE 0) 0x10 64 with
  | some n => (s.snDrive n).map fun b => setBits (s.getR off) 1 1 (boolNat b)
  | none => none

/-- The value of the register at an offset: no effect of the read is made here. (DEDUCED: log 44) -/
def State.readReg (s : State) (off : Nat) : Word :=
  let held := fun (_ : Unit) =>
    let w := if isDrive off then SMap.get resetWord s.up off else s.getR off
    match findReg off with
    | some r => w &&& ~~~BitVec.ofNat 32 r.wo
    | none => w
  match off / 0x10000 with
  | 0 =>
    if off = R.DEV_TICK_LO then half64 s.tick false
    else if off = R.DEV_TICK_HI then half64 s.tick true
    else if off = R.DEV_TSC_LO then half64 s.tsc.toNat false
    else if off = R.DEV_TSC_HI then half64 s.tsc.toNat true
    else held ()
  | 1 =>
    if off = R.VIN_CURRENT then
      BitVec.ofNat 32 (((s.vin.cur.map Fin.val).getD 0) + 16 * ((s.vin.prev.map Fin.val).getD 0) + 128 * boolNat s.vin.prev.isSome)
    else held ()
  | 2 =>
    if off = R.SEQ_STATUS then
      (held () &&& 0xFFFF0000#32) ||| BitVec.ofNat 32 ((List.range 16).foldl
        (fun m n => if (s.seq.thr.toList.getD n {}).run == .halted && (s.seq.thr.toList.getD n {}).fault != 0 then m + 2 ^ n else m) 0)
    else (s.readThr off).getD (held ())
  | 5 =>
    -- BUSY: a page is in the Press from the consumption of its PAGE_SUBMIT to its completion (R153).
    if off = R.PRS_STATUS ∧ (s.cel.pages.any fun p => p.st == .inPress) then held () ||| 0x100#32 else held ()
  | 6 => (s.readPageQuery off).getD (held ())
  | 8 =>
    match arrIdx off (R.EXP_POLY_STATUS 0) 0x40 6 with
    | some p => held () ||| BitVec.ofNat 32 ((s.served (Fin.ofNat 6 p)).foldl (fun m i => m + 2 ^ (16 + i.val)) 0)
    | none => held ()
  | 19 => (s.readLedger off).getD (held ())
  | 20 =>
    if R.SEC_MONO_LO 0 ≤ off ∧ off ≤ R.SEC_MONO_HI 2 then
      half64 (s.nvm.mono.toList.getD ((off - R.SEC_MONO_LO 0) / 8) 0) (off % 8 == 4)
    else held ()
  | 24 => (s.readPin off).getD (held ())
  | _ => held ()

end Sys2Proof.Machine
end

