-- ==== Sys2Proof/Machine/OpsCle.lean ====
section
/-! DEFINITION. Machine/OpsCle.lean: selectors, compensators, regions, repetitive controllers, test signals and the capture
(R333–R346). Sums are formed in binary32, term by term in the order in which R335 writes them. -/

namespace Sys2Proof.Machine

def State.slotOf (s : State) (n : Fin 256) : Slot := s.cle.slot[n]

def State.updSlot (s : State) (n : Fin 256) (f : Slot → Slot) : State :=
  { s with cle := { s.cle with slot := s.cle.slot.set n (f s.cle.slot[n]) } }

def State.updInj (s : State) (g : Fin 2) (f : Inject → Inject) : State :=
  { s with cle := { s.cle with inj := s.cle.inj.set g (f s.cle.inj[g]) } }

def State.setCap (s : State) (c : Capture) : State := { s with cle := { s.cle with cap := c } }

/-! ## Selectors (R334) -/

/-- The value a selector reads, converted to binary32: +0.0 where it is not enabled. -/
def State.selRead (s : State) (sel : Word) : F32 :=
  if sel.getLsbD 31 then
    let w := s.readReg (bits sel 0 24)
    match bits sel 24 2 with
    | 0 => w
    | 1 => F32.ofInt w.toInt
    | _ => F32.ofInt (signed 16 (bits w 0 16))
  else F32.zero false

/-- A NaN read is replaced by the previous value; the flag says so. -/
def noNaN (x prev : F32) : F32 × Bool := if F32.isNaN x then (prev, true) else (x, false)

/-- Write an output; a Drive-die register takes it at the next tick boundary (R20). -/
def State.selWrite (s : State) (sel : Word) (u : F32) : State :=
  if sel.getLsbD 31 then
    let w := if bits sel 24 2 = 1 then F32.toI32 false u else u
    let off := bits sel 0 24
    if isDrive off then s.dnWrite off w else s.putR off w
  else s

/-! ## Coefficients (Table 16-4) -/

/-- Dword `i` of region `r` of slot `n` in the coefficient window. -/
def State.coefWord (s : State) (n r i : Nat) : F32 := BitVec.ofNat 32 (rdLe s.mem.coef (0x200 * n + 0x40 * r + 4 * i) 4)

def State.coefs (s : State) (n r : Nat) : Vector F32 9 := Vector.ofFn fun i : Fin 9 => s.coefWord n r i

/-- The compensator of R335 without its clamp. -/
def comp (form : Bool) (k : Vector F32 9) (e : F32) (eh vh : Vector F32 3) : F32 :=
  let v := F32.add (F32.add (F32.mul k[0] e) (F32.mul k[1] eh[0])) (F32.mul k[2] eh[1])
  let v := F32.sub (F32.sub v (F32.mul k[4] vh[0])) (F32.mul k[5] vh[1])
  if form then F32.sub (F32.add v (F32.mul k[3] eh[2])) (F32.mul k[6] vh[2]) else v

/-! ## Regions (R337) -/

/-- The region an evaluation aims at from region `c`, and whether the signal lies outside every region. (DEDUCED: log 54) -/
def State.regionFor (s : State) (n c : Nat) (x : F32) (fresh : Bool) : Nat × Bool :=
  let k := s.getF (F.CLE_SLOT_CFG_NREG n)
  let lo := fun i => s.coefWord n i 9
  let hi := fun i => s.coefWord n i 10
  let hys := s.getR (R.CLE_SLOT_HYS n)
  let out := F32.lt x (lo 0) || F32.le (hi k) x
  let near := if F32.lt x (lo 0) then 0 else if F32.le (hi k) x then k
    else ((List.range (k + 1)).find? fun i => F32.le (lo i) x && F32.lt x (hi i)).getD c
  if F32.isNaN x then (c, true)
  else if !fresh && F32.le (F32.sub (lo c) hys) x && F32.lt x (F32.add (hi c) hys) then (c, out)
  else (near, out)

/-- STALE, and its event on each entry. -/
def State.setStale (s : State) (n : Nat) (b : Bool) (x : F32) : State :=
  let was := s.flag (F.CLE_SLOT_CTRL_STALE n)
  let s := (s.putB (F.CLE_SLOT_CTRL_STALE n) b).putR (R.CLE_STALE_SUM (n / 32)) (BitVec.ofNat 32 (setBit (s.getR (R.CLE_STALE_SUM (n / 32))).toNat (n % 32) b))
  if b && !was then s.raise Ev.CLE_REGION_STALE n x else s

/-! ## Test signals (R344) -/

/-- Is a generator running in this tick? -/
def State.injOn (s : State) (g : Fin 2) : Bool := match (s.cle.inj[g]).startAt with
  | some t => Nat.ble t s.tick && Nat.blt (s.tick - t) (s.getF (F.CLE_INJ_LEN_LEN g))
  | none => false

/-- What the phase of a sweep advances by at tick `t` of a run of `len` ticks, in 2^-64 turn: f × 20 µs with
f = F0·(F1 ÷ F0)^(t ÷ LEN). Where F0 or F1 is no positive number the rule gives no frequency. -/
def sweepStep (f0 f1 : F32) (t len : Nat) : Nat :=
  let a := F32.ratio f0
  let b := F32.ratio f1
  if F32.isFinite f0 && F32.isFinite f1 && decide (0 < a.1) && decide (0 < b.1) then
    let e := Fix.exp (Fix.ln (b.1.toNat * a.2) (b.2 * a.1.toNat) * t / max 1 len)
    let n := a.1.toNat * e.1.toNat
    if 0 ≤ e.2 then n * 2 ^ e.2.toNat / (a.2 * 50000) else n / (a.2 * 50000 * 2 ^ (-e.2).toNat)
  else Config.sweepOdd f0 f1 t len

/-- Advance a generator to this tick: CLE_INJ_VAL shows j. (DEDUCED: log 54) -/
def State.injTick (s : State) (g : Fin 2) : State :=
  if s.injOn g then
    let x := s.cle.inj[g]
    let t := s.tick - x.startAt.getD 0
    let amp := s.getR (R.CLE_INJ_AMP g)
    let hold := max 1 (s.getF (F.CLE_INJ_CFG_HOLD g))
    let s := (s.putF (F.CLE_INJ_STATUS_RUN g) 1).putF (F.CLE_INJ_STATUS_ELAPSED g) t
    match s.getF (F.CLE_INJ_CFG_KIND g) with
    | 1 =>
      let turn := t != 0 && t % hold == 0
      let l := if turn then (x.lfsr >>> 1) ||| ((x.lfsr ^^^ (x.lfsr >>> 1)) &&& 1#15) <<< 14 else x.lfsr
      (s.updInj g fun y => { y with lfsr := l }).putR (R.CLE_INJ_VAL g) (if l.getLsbD 0 then amp else F32.neg amp)
    | 2 =>
      let j := F32.mul amp (F32.sinRatio x.phase 18446744073709551616)
      let p := x.phase + sweepStep (s.getR (R.CLE_INJ_F0 g)) (s.getR (R.CLE_INJ_F1 g)) t (s.getF (F.CLE_INJ_LEN_LEN g))
      (s.updInj g fun y => { y with phase := p % 18446744073709551616 }).putR (R.CLE_INJ_VAL g) j
    | 3 => s.putR (R.CLE_INJ_VAL g) (if t < s.getF (F.CLE_INJ_CFG_HOLD g) then F32.zero false else amp)
    | _ => s.putR (R.CLE_INJ_VAL g) 0#32
  else (s.putR (R.CLE_INJ_VAL g) 0#32).putF (F.CLE_INJ_STATUS_RUN g) 0

/-- The sum of the injections into slot `n` at a point (0 reference, 1 error, 2 output). -/
def State.injAt (s : State) (n point : Nat) : F32 :=
  (List.finRange 2).foldl (fun a g =>
    if s.injOn g && s.getF (F.CLE_INJ_CFG_SLOT g) == n && s.getF (F.CLE_INJ_CFG_POINT g) == point then F32.add a (s.getR (R.CLE_INJ_VAL g)) else a)
    (F32.zero false)

/-! ## One slot (R335, R338–R340) -/

/-- Does the slot stand still in this tick: HOLD, or a missed upward frame with FREEZE_MISS (R340)? -/
def State.slotFrozen (s : State) (n : Nat) (fresh : Bool) : Bool :=
  s.flag (F.CLE_SLOT_CTRL_HOLD n) || (!fresh && s.flag (F.CLE_SLOT_CFG_FREEZE_MISS n))

def State.setClamp (s : State) (n : Nat) (lo hi : Bool) : State :=
  let s := (s.putB (F.CLE_SLOT_CTRL_CLAMP_LO n) lo).putB (F.CLE_SLOT_CTRL_CLAMP_HI n) hi
  s.putR (R.CLE_CLAMP_SUM (n / 32)) (BitVec.ofNat 32 (setBit (s.getR (R.CLE_CLAMP_SUM (n / 32))).toNat (n % 32) (lo || hi)))

/-- Was RELOAD written in an earlier tick (R339)? -/
def State.reloadDue (s : State) (n : Fin 256) : Bool := (s.slotOf n).reload.any fun t => Nat.blt t s.tick

/-- One evaluation. -/
def State.slotEval (s : State) (n : Fin 256) (fresh : Bool) : State :=
  let s := s.putB (F.CLE_SLOT_CTRL_MISS_FROZEN n) (!fresh && s.flag (F.CLE_SLOT_CFG_FREEZE_MISS n))
  let reload := s.reloadDue n
  let now := s.tick
  let s := s.updSlot n fun x => { x with reload := x.reload.filter fun t => Nat.ble now t }
  if s.slotFrozen n fresh then
    let k := s.coefs n (s.getF (F.CLE_SLOT_CTRL_REGION n))
    let s := if reload && (s.slotOf n).started then s.updSlot n fun x => { x with coef := k } else s
    (s.setClamp n false false).putF (F.CLE_SLOT_CTRL_NAN n) 0
  else
    let s := if (s.slotOf n).restart then s.updSlot n fun x => { last := x.last, reload := x.reload } else s
    let x := s.slotOf n
    let r0 := noNaN (s.loopView.selRead (s.getR (R.CLE_SLOT_REF n))) x.last[0]
    let y0 := noNaN (s.loopView.selRead (s.getR (R.CLE_SLOT_FB n))) x.last[1]
    let raw := s.loopView.selRead (s.getR (R.CLE_SLOT_SEL n))
    let sg := if F32.isNaN raw then x.last[2] else raw
    let s := s.putB (F.CLE_SLOT_CTRL_NAN n) (r0.2 || y0.2 || F32.isNaN raw)
    -- region and working copy
    let c := s.getF (F.CLE_SLOT_CTRL_REGION n)
    let first := !x.started
    let pick := s.regionFor n (x.move.getD c) raw first
    let now := if first then pick.1 else x.move.getD c
    let switch := !first && x.move.isSome && now != c
    let coef := if first || switch || reload then s.coefs n now else x.coef
    let s := (s.putF (F.CLE_SLOT_CTRL_REGION n) now).setStale n pick.2 raw
    -- error
    let r := F32.add r0.1 (s.injAt n 0)
    let e := if s.flag (F.CLE_SLOT_CFG_NEG n) then F32.sub y0.1 r else F32.sub r y0.1
    let e := F32.add e (s.injAt n 1)
    -- compensator and transfer offset
    let form := s.flag (F.CLE_SLOT_CFG_FORM n)
    let v := comp form coef e x.eHist x.vHist
    let ft := s.getF (F.CLE_SLOT_CFG_FADE_T n)
    let o1 := if switch then F32.add x.ofs (F32.sub (comp form x.coef e x.eHist x.vHist) v) else x.ofs
    let k := if switch then 0 else x.fade + 1
    let o0 := if switch then o1 else x.ofs0
    let o := if ft = 0 then F32.zero false else if switch then o1
      else if ft ≤ k then F32.zero false else F32.mul o0 (F32.ofRat (ft - k : Nat) ft)
    let j := s.injAt n 2
    let w := F32.add (F32.add v o) j
    let u := F32.clamp coef[7] coef[8] w
    let s := s.setClamp n (F32.lt w coef[7]) (F32.lt coef[8] w)
    let hist := F32.sub (F32.sub u o) j
    let s := s.updSlot n fun y => { y with
      started := true
      restart := false
      coef := coef
      move := if pick.1 = now then none else some pick.1
      eHist := #v[e, y.eHist[0], y.eHist[1]]
      vHist := #v[hist, y.vHist[0], y.vHist[1]]
      ofs := o
      ofs0 := o0
      fade := k
      last := #v[r0.1, y0.1, sg] }
    let s := s.putB (F.CLE_SLOT_CTRL_FADING n) (!F32.isZero o)
    let s := (s.putR (R.CLE_SLOT_E n) e).putR (R.CLE_SLOT_U n) u
    s.selWrite (s.getR (R.CLE_SLOT_OUT n)) u

/-! ## Repetitive controllers (R342, R343, R225) -/

/-- The station whose banding cancellation is bound to controller `c`: one that uses or learns its table. -/
def State.rcStation (s : State) (c : Nat) : Option (Fin 6) :=
  (List.finRange 6).find? fun i => (s.flag (F.EXP_BANDC_EN i) || s.flag (F.EXP_BANDC_LEARN i)) && s.getF (F.EXP_BANDC_RC i) == c

/-- Does a learning begin with this tick (R225)? -/
def State.learnBegins (s : State) (i : Fin 6) : Bool := !(s.stnOf i).learnOn || (s.stnOf i).learned == 0

/-- May the station's table be learned: LEARN, LOCKED, the index in use, the line rate within 2 % of the recorded one unless the
learning begins (R225)? -/
def State.mayLearn (s : State) (i : Fin 6) : Bool :=
  s.flag (F.EXP_BANDC_LEARN i) && s.getF (F.EXP_STATUS_LOCK i) == 2 && (s.learnBegins i || near2 (s.getF (F.EXP_LRATE i)) (s.stnOf i).learned)

/-- A tick of learning, or none: the rate is recorded when a learning begins (R225). -/
def State.learnRate (s : State) (i : Fin 6) (learns : Bool) : State :=
  let rate := if learns && s.learnBegins i then s.getF (F.EXP_LRATE i) else (s.stnOf i).learned
  let on := s.flag (F.EXP_BANDC_LEARN i) && (learns || (s.stnOf i).learnOn)
  s.updStn i fun t => { t with learned := rate, learnOn := on }

/-- The bin of a controller on feedback channel `f`. -/
def State.rcBin (s : State) (f : Nat) : Nat :=
  let rev := (s.getR (R.FBK_REV f)).toNat
  ((posDiff (s.pos f) (s.getR (R.FBK_IDX_POS f))).emod rev).toNat * 1024 / rev % 1024

/-- Table entry `k` of controller `c` in the coefficient window. -/
def State.rcTable (s : State) (c k : Nat) : F32 := BitVec.ofNat 32 (rdLe s.mem.coef (0x20000 + 0x1000 * c + 4 * k) 4)

def State.putRcTable (s : State) (c k : Nat) (v : F32) : State :=
  { s with mem := { s.mem with coef := wrLe s.mem.coef (0x20000 + 0x1000 * c + 4 * k) 4 v.toNat } }

/-- One controller in one tick. -/
def State.rcEval (s : State) (c : Nat) (fresh : Bool) : State :=
  let f := s.getF (F.CLE_RC_CFG_FBKCH c)
  let dropped := s.flag (F.FBK_STATUS_IDX_DROPPED f)
  let st := s.rcStation c
  let outOk := match st with
    | some i => s.flag (F.EXP_BANDC_EN i) && !s.flag (F.EXP_STATUS_BANDC_STALE i)
    | none => s.flag (F.FBK_STATUS_IDX_VALID f) && !dropped
  let slot := Fin.ofNat 256 (s.getF (F.CLE_RC_CFG_SLOT c))
  let learnOk := s.flag (F.CLE_RC_CFG_LEARN c) && !(!fresh && s.flag (F.CLE_SLOT_CFG_FREEZE_MISS slot)) && (match st with
    | some i => s.mayLearn i && !dropped
    | none => s.flag (F.FBK_STATUS_IDX_VALID f) && !dropped)
  let k := s.loopView.rcBin f
  let u := if outOk then s.rcTable c ((k + s.getF (F.CLE_RC_CFG_LEAD c)) % 1024) else F32.zero false
  let ch := s.getF (F.CLE_RC_CFG_CHAN c)
  let s := s.putR (R.MOT_IQ_FF ch) (F32.add (s.getR (R.MOT_IQ_FF ch)) u)
  let s := (s.putF (F.CLE_RC_STATUS_BIN c) k).putB (F.CLE_RC_STATUS_ON c) outOk
  let s := (s.putB (F.CLE_RC_STATUS_LEARNING c) learnOk).putB (F.CLE_RC_STATUS_FROZEN c) dropped
  let s := match st with
    | some i => s.learnRate i learnOk
    | none => s
  if learnOk then
    let lim := s.getR (R.CLE_RC_LIM c)
    let t := F32.add (F32.mul (s.getR (R.CLE_RC_Q c)) (s.rcTable c k)) (F32.mul (s.getR (R.CLE_RC_GAIN c)) (s.getR (R.CLE_SLOT_E slot)))
    s.putRcTable c k (F32.clamp (F32.neg lim) lim t)
  else s

/-! ## The list (R333, R341) -/

/-- Are the slot list, the controllers and injection suspended (R341)? -/
def State.cleSuspended (s : State) : Bool :=
  s.devIs 5 || s.devIs 6 || (match s.vin.apply with
    | some a => a.whole && (match a.h with
      | some h => Nat.ble h s.tick
      | none => false)
    | none => false)

/-- The cost of the list in cycles (Table 16-1). -/
def State.listCost (s : State) : Nat :=
  let slots := (List.range 256).foldl (fun c n => if s.flag (F.CLE_SLOT_CFG_EN n) then c + (if s.flag (F.CLE_SLOT_CFG_FORM n) then 5 else 4) else c) 0
  let inj := (List.finRange 2).foldl (fun c g => if s.injOn g && s.flag (F.CLE_SLOT_CFG_EN (s.getF (F.CLE_INJ_CFG_SLOT g))) then c + 1 else c) 0
  let rcs := (List.range 8).foldl (fun c k => if s.flag (F.CLE_RC_CFG_EN k) then c + 3 else c) 0
  slots + inj + rcs

/-- A slot starts: zero histories, o = 0, HOLD clear (R341). -/
def State.slotStart (s : State) (n : Fin 256) : State :=
  let s := (s.updSlot n fun _ => {}).putR (R.CLE_SLOT_CTRL n) 0#32
  let r := R.CLE_STALE_SUM (n / 32)
  (s.setClamp n false false).putR r (BitVec.ofNat 32 (setBit (s.getR r).toNat (n % 32) false))

/-- Every slot starts afresh (R341). -/
def State.cleStart (s : State) : State := s.each (List.finRange 256) State.slotStart

/-- Nothing was clamped, replaced or frozen in a tick in which the list does not run. -/
def State.cleQuiet (s : State) : State :=
  let s := s.forEach 8 fun a i => a.putR (R.CLE_CLAMP_SUM i) 0#32
  s.forEach 256 fun a n =>
    let w := a.getR (R.CLE_SLOT_CTRL n)
    if w &&& 0x1B000#32 = 0#32 then a else a.putR (R.CLE_SLOT_CTRL n) (w &&& ~~~0x1B000#32)

/-- A running capture stops (R341): DONE and STOPPED. (DEDUCED: log 54) -/
def State.capStop (s : State) : State :=
  let st := s.getF F.CLE_CAP_STATUS_STATE
  if st = 1 ∨ st = 2 then
    let c := s.cle.cap
    let n := min c.total 65536
    let s := (s.putF F.CLE_CAP_STATUS_STATE 3).putF F.CLE_CAP_STATUS_STOPPED 1
    (s.putF F.CLE_CAP_COUNT n).putF F.CLE_CAP_FIRST ((c.pos + 65536 - n) % 65536)
  else s

/-- Begin recording (R345). -/
def State.capArm (s : State) : State :=
  let s := s.setCap { s.cle.cap with pos := 0, total := 0, left := none, prev := none, armWait := false }
  let s := (s.putF F.CLE_CAP_STATUS_STATE 1).putF F.CLE_CAP_STATUS_STOPPED 0
  (s.putF F.CLE_CAP_COUNT 0).putF F.CLE_CAP_FIRST 0

end Sys2Proof.Machine
end

