-- ==== Sys2Proof/Machine/Control.lean ====
section
/-! DEFINITION. Machine/Control.lean: the control engine's list, test signals and capture (chapter 16). -/

namespace Sys2Proof.Machine

/-- SLOT_LIST (R333): once in a tick. -/
def execSlotList (s : State) : Res :=
  .next (
    if s.cle.listTick = some s.tick then s
    else
      let s := { s.keepRefs with cle := { s.cle with listTick := some s.tick } }
      let susp := s.cleSuspended
      let s := (s.putB F.CLE_STATUS_SUSP susp).putB F.CLE_STATUS_RUN (!susp)
      if susp then s.cleQuiet.capStop
      else
        let fresh := s.brg.gotUp && s.brg.onTime
        let s := s.putF F.CLE_STATUS_LIST_CYCLES s.listCost
        let s := s.each (List.finRange 2) State.injTick
        let s := s.each (List.finRange 256) fun a n => if a.flag (F.CLE_SLOT_CFG_EN n) then a.slotEval n fresh else a
        let s := s.forEach 12 fun a n => a.putR (R.MOT_IQ_FF n) 0#32
        s.forEach 8 fun a c => if a.flag (F.CLE_RC_CFG_EN c) then a.rcEval c fresh else a)

/-- RELOAD is written (R339). -/
def State.slotReload (s : State) (n : Fin 256) : State := s.updSlot n fun x => { x with reload := x.reload.filter (· != s.tick) ++ [s.tick] }

/-- A write of CLE_SLOT_CTRL (R339, R340). -/
def State.slotCtrl (s : State) (n : Fin 256) (w : Word) : State :=
  let s := s.putB (F.CLE_SLOT_CTRL_HOLD n) (w.getLsbD 0)
  let s := if w.getLsbD 1 then s.updSlot n fun x => { x with restart := true } else s
  if w.getLsbD 2 then s.slotReload n else s

/-- SLOT_RESET (R340). -/
def execSlotReset (_port : Port) (n : Fin 256) (s : State) : Res := .next (s.updSlot n fun x => { x with restart := true })

/-- SLOT_RELOAD (R339). -/
def execSlotReload (_port : Port) (n : Fin 256) (s : State) : Res := .next (s.slotReload n)

/-- A write of CLE_INJ_CTRL (R344); GO and STOP together are discarded. -/
def State.injCtrl (s : State) (g : Fin 2) (w : Word) : State :=
  let go := w.getLsbD 0
  let stop := w.getLsbD 1
  if go && !stop then s.updInj g fun _ => { startAt := some (s.tick + 1) }
  else if stop && !go then
    ((s.updInj g fun x => { x with startAt := none }).putF (F.CLE_INJ_STATUS_RUN g) 0).putR (R.CLE_INJ_VAL g) 0#32
  else s

/-- INJECTION_GO (R344). -/
def execInjectionGo (_port : Port) (g : Fin 2) (w : Word) (s : State) : Res := .next (if w.getLsbD 0 then s.injCtrl g w else s)

/-- INJECTION_STOP (R344). -/
def execInjectionStop (_port : Port) (g : Fin 2) (w : Word) (s : State) : Res := .next (if w.getLsbD 1 then s.injCtrl g w else s)

/-- INJECTION_END (R344): LEN ticks have passed. -/
def execInjectionEnd (g : Fin 2) (s : State) : Res :=
  .next (
    match (s.cle.inj[g]).startAt with
    | some t =>
      if t + s.getF (F.CLE_INJ_LEN_LEN g) ≤ s.tick then
        ((s.updInj g fun x => { x with startAt := none }).putF (F.CLE_INJ_STATUS_RUN g) 0).putR (R.CLE_INJ_VAL g) 0#32
      else s
    | none => s)

/-! ## Capture (R345, R346) -/

/-- A write of CLE_CAP_CTRL; ARM and STOP together are discarded. (DEDUCED: log 54) -/
def State.capCtrl (s : State) (w : Word) : State :=
  let arm := w.getLsbD 0
  let stop := w.getLsbD 1
  if arm && !stop then
    if s.cle.cap.xfer.isSome then s.setCap { s.cle.cap with armWait := true } else s.capArm
  else if stop && !arm then s.capStop
  else s

/-- CAPTURE_ARM (R345). -/
def execCaptureArm (_port : Port) (w : Word) (s : State) : Res := .next (if w.getLsbD 0 then s.capCtrl w else s)

/-- CAPTURE_STOP (R345). -/
def execCaptureStop (_port : Port) (w : Word) (s : State) : Res := .next (if w.getLsbD 1 then s.capCtrl w else s)

/-- Does this tick trigger the capture? -/
def State.capTrigger (s : State) (cur : F32) : Bool :=
  let started := fun (g : Fin 2) => (s.cle.inj[g]).startAt == some s.tick
  let level := s.getR R.CLE_CAP_LEVEL
  match s.getF F.CLE_CAP_CFG_TRIG with
  | 0 => true
  | 1 => started 0
  | 2 => started 1
  | _ => match s.cle.cap.prev with
    | some p => F32.lt p level && F32.le level cur
    | none => false

/-- CAPTURE_SAMPLE (R345): at cycle 1,400, one sample of the four signals. -/
def execCaptureSample (s : State) : Res :=
  .next (
    let st := s.getF F.CLE_CAP_STATUS_STATE
    if s.cleSuspended then s.capStop
    else if (st = 1 ∨ st = 2) ∧ s.cle.capTick ≠ some s.tick then
      let c := s.cle.cap
      let raw := fun (j : Nat) => let sel := s.getR (R.CLE_CAP_SIG j); if sel.getLsbD 31 then s.readReg (bits sel 0 24) else 0#32
      let was := rdLe s.mem.capture (16 * c.pos) 16
      let mem := (List.range 4).foldl (fun m j => wrLe m (16 * c.pos + 4 * j) 4 (raw j).toNat) s.mem.capture
      let cur := s.selRead (s.getR (R.CLE_CAP_SIG 0))
      let trig := st = 1 && s.capTrigger cur
      let ring := s.flag F.CLE_CAP_CFG_RING
      let left := if ring then none else if trig then some (65536 - s.getF F.CLE_CAP_CFG_PRE - 1) else c.left.map (· - 1)
      let s := { s with mem := { s.mem with capture := mem }, cle := { s.cle with capTick := some s.tick } }
      let total := c.total + 1
      let kept := if trig && !ring then min total (s.getF F.CLE_CAP_CFG_PRE + 1) else total
      let s := s.setCap { c with pos := (c.pos + 1) % 65536, total := kept, left := left, prev := some cur, former := some (s.tsc.toNat, c.pos, was) }
      let s := if trig || ring then s.putF F.CLE_CAP_STATUS_STATE 2 else s
      let n := min kept 65536
      let s := (s.putF F.CLE_CAP_COUNT n).putF F.CLE_CAP_FIRST ((c.pos + 1 + 65536 - n) % 65536)
      if left = some 0 then (s.putF F.CLE_CAP_STATUS_STATE 3).raise Ev.CLE_CAPTURE_DONE else s
    else s)

/-- A write of CLE_CAP_XFER_CTRL (R346). -/
def State.capXfer (s : State) (w : Word) : State :=
  let n := s.getF F.CLE_CAP_COUNT
  if w.getLsbD 0 ∧ s.getF F.CLE_CAP_STATUS_STATE = 3 ∧ s.cle.cap.xfer = none then
    let a := s.getP R.CLE_CAP_XFER_LO
    let s := s.setCap { s.cle.cap with xfer := some (s.getF F.CLE_CAP_FIRST, n, a) }
    s.transfer 14 a (16 * n) true
  else s

/-- CAPTURE_TRANSFER (R346). -/
def execCaptureTransfer (_port : Port) (w : Word) (s : State) : Res := .next (s.capXfer w)

/-- The samples of a transfer, oldest first (R346). -/
def State.capBytes (s : State) (first n : Nat) : List Byte :=
  (List.range n).flatMap fun k => (List.range 16).map fun j => BitVec.ofNat 8 (rdLe s.mem.capture (16 * ((first + k) % 65536) + j) 1)

/-- The transfer ends; an ARM that waited takes effect. -/
def State.capXferEnd (s : State) : State :=
  let wait := s.cle.cap.armWait
  let s := s.setCap { s.cle.cap with xfer := none }
  if wait then s.capArm else s

/-- CAPTURE_TRANSFER_DONE (R346): the last write of the transfer has been issued. -/
def execCaptureTransferDone (s : State) : Res :=
  .next (
    match s.cle.cap.xfer with
    | some (first, n, a) =>
      if (s.chan 14).queued.isEmpty ∧ ¬s.halted 14 then
        let s := s.setCap { s.cle.cap with sent := some (a, s.capBytes first n) }
        s.capXferEnd.raise Ev.CLE_CAP_XFER_DONE
      else s
    | none => s)

end Sys2Proof.Machine
end

