-- ==== Sys2Proof/Machine/Decanter.lean ====
section
/-! DEFINITION. Machine/Decanter.lean: priming, decoding, sweeps and page gaps (chapter 9, R217–R219, R232, R233, R239). -/

namespace Sys2Proof.Machine

/-! ## Stream window (R206) -/

/-- The round that a beam's line of the sweep in drain lies in; past the last round once its lines are over. -/
def State.roundAt (s : State) (i : Fin 6) (p : Page) (q : Plane) (b : Nat) : Nat :=
  let l := (s.stnOf i).cur * q.geom.adv + (b * q.geom.spacing : Nat) - q.geom.offset
  if l < 0 then 0 else if (p.lines : Int) ≤ l then q.rounds p.lines else (q.place b l.toNat).2.1

/-- Beams of a pass. -/
def Geom.beamsOf (g : Geom) (p : Nat) : List Nat := (List.range g.beams).filter fun b => g.pass b == p

/-- The oldest round that some stream of the pass has not finished. -/
def State.oldestRound (s : State) (i : Fin 6) (p : Page) (q : Plane) (pass : Nat) : Nat :=
  ((q.geom.beamsOf pass).map (s.roundAt i p q)).foldl min (q.rounds p.lines)

/-- The next round, from `j` on, that has bytes to fetch. -/
def Plane.nextFetch (q : Plane) (h : Nat) (j : Nat) : Option Nat :=
  ((List.range (q.rounds h)).filter (Nat.ble j)).find? fun k => q.dramBytes k != 0

/-- DEC_WIN_STATE follows the rounds held in slots. -/
def State.winState (s : State) (i : Fin 6) : State :=
  match s.stnPage i with
  | none => (s.putF (F.DEC_WIN_STATE_GRAN i) 0).putF (F.DEC_WIN_STATE_SLOTS i) 0
  | some (p, q) =>
    if q.allResident p.lines then (s.putF (F.DEC_WIN_STATE_GRAN i) 0).putF (F.DEC_WIN_STATE_SLOTS i) 0
    else
      let held := (List.range q.passes).map fun k =>
        (((List.range (q.rounds p.lines)).filter fun j => Nat.blt j ((s.stnOf i).fetched.toList.getD k 0) && Nat.ble (s.oldestRound i p q k) j).map
          fun j => ceilDiv (q.dramBytes j) 4096).foldl (· + ·) 0
      (s.putF (F.DEC_WIN_STATE_GRAN i) (held.foldl (· + ·) 0)).putF (F.DEC_WIN_STATE_SLOTS i) (q.passes * q.winSlots)

/-- The parts of a block that lie in DRAM, as address ranges (R177). -/
def Plane.dramParts (q : Plane) (b : Block) : List (Nat × Nat) :=
  b.grans.filterMap fun i => match q.chain[i]? with
    | some (Gran.dram d) =>
      let lo := max b.pos (4096 * i)
      some (4096 * d + lo % 4096, min (b.pos + b.data.length) (4096 * (i + 1)) - lo)
    | _ => none

/-- Start the fetch of a pass's next round if its slot is released and no fetch of the pass runs (R206): each block that
does not lie in the Cellar is one request on channel 8 + s. -/
def State.fetchRound (s : State) (i : Fin 6) (p : Page) (q : Plane) (pass : Nat) : State :=
  let t := s.stnOf i
  match t.fetching.toList.getD pass none, q.nextFetch p.lines (t.fetched.toList.getD pass 0) with
  | none, some j =>
    if j < s.oldestRound i p q pass + q.winSlots then
      let s := s.updStn i fun t => { t with fetching := t.fetching.setIfInBounds pass (some j) }
      s.each (q.blocks.zipIdx.filter fun x => x.1.round == j && !q.resident x.1) fun a x =>
        a.transferParts (8 + i) (q.dramParts x.1) false (2 * x.2 + pass)
    else s
  | _, _ => s

/-- ROUND_FETCH_START (R198, R206): from the top of page on. -/
def execRoundFetchStart (st : Fin 6) (s : State) : Res :=
  .next (
    if s.getF (F.DEC_STATUS_STATE st) = 3 then
      match s.stnPage st with
      | some (p, q) => (List.range q.passes).foldl (fun (a : State) k => a.fetchRound st p q k) s
      | none => s
    else s)

/-! ## Decoding (R196–R201) -/

/-- Are the bytes of a block there for a pass: resident, or in the stream window (R198)? -/
def State.blockHere (s : State) (i : Fin 6) (q : Plane) (pass : Nat) (k : Block) : Bool :=
  q.resident k || Nat.blt k.round ((s.stnOf i).fetched.toList.getD pass 0)

/-- Can the line `l` of beam `b` be decoded: its block is open in a decode-table slot of the beam, there, undamaged, and the line
is in it? -/
def State.decodable (s : State) (i : Fin 6) (q : Plane) (b l : Nat) : Bool :=
  let x := q.place b l
  let pass := q.geom.pass b
  let t := s.stnOf i
  match q.block x.1 x.2.1, ((t.beams.toList.getD b {}).slot x.1 x.2.1).bind OpenBlk.table with
  | some k, some L =>
    s.blockHere i q pass k && !k.damaged && !t.lostRounds.contains (pass, x.1, x.2.1)
      && !t.poisoned.contains (pass, x.1, x.2.1) && Nat.blt x.2.2 (Zrb.linesBy L k.data).length
  | _, _ => false

/-- Beams below `n` that still wait for their notice, and can get it. -/
def State.undone (s : State) (i : Fin 6) (p : Page) (q : Plane) (n : Nat) : List Nat :=
  (List.range n).filter fun b => match q.geom.line p.lines (s.stnOf i).sweep b with
    | some l => s.decodable i q b l && !(s.stnOf i).notices.contains b
    | none => false

/-- The blocks of a beam's lines of the next two sweeps are opened in its decode-table slots, where they are there (R197). (DEDUCED: log 45) -/
def State.openBlocks (s : State) (i : Fin 6) (p : Page) (q : Plane) : State :=
  let slot := fun (b : Nat) (sw : Int) (x : Beam) => match q.geom.line p.lines sw b with
    | some l =>
      let k := q.place b l
      match q.block k.1 k.2.1 with
      | some k => if s.blockHere i q (q.geom.pass b) k then x.openBlock k else x
      | none => x
    | none => x
  let sw := (s.stnOf i).sweep
  s.updBeams i fun b x => if b < q.geom.beams then slot b (sw + 1) (slot b sw x) else x

/-- The Decanter abandons a line that had no notice: it decodes the beam's next line only where that opens a block. -/
def State.abandon (s : State) (i : Fin 6) (q : Plane) (b l : Nat) : State :=
  let x := q.place b l
  if (q.place b (l + q.geom.adv)).2.1 = x.2.1 then
    s.updStn i fun t => { t with lostRounds := (q.geom.pass b, x.1, x.2.1) :: t.lostRounds }
  else s

/-- The Decanter turns to the sweep after the one passed over; what it has not decoded of that is abandoned (R232). -/
def State.skipEnd (s : State) (i : Fin 6) (p : Page) (q : Plane) : State :=
  if (s.stnOf i).skipping then
    let s := s.forEach q.geom.beams fun a b => match q.geom.line p.lines (a.stnOf i).sweep b with
      | some l => if (a.stnOf i).notices.contains b then a else a.abandon i q b l
      | none => a
    (s.updStn i fun t => { t with sweep := t.sweep + 1, notices := [], skipping := false }).openBlocks i p q
  else s

/-- A sweep that is passed over ends when every line of it that can be has been decoded: they serve as reference lines (R232). -/
def State.skipDone (s : State) (i : Fin 6) (p : Page) (q : Plane) : State :=
  if (s.undone i p q q.geom.beams).isEmpty then s.skipEnd i p q else s

/-- LINE_COMPLETE (R196–R200, R232): the beam's line of the next sweep has been decoded into a line buffer whose credit the Decanter
holds, in ascending beam order; its notice is raised. A line of a sweep that is passed over is not drained. The drain of a
line buffer has ended once the last line packet of its sweep has gone. -/
def execLineComplete (st : Fin 6) (beam : Fin 32) (s : State) : Res :=
  .next (
    let s := if (s.stnOf st).lineEnd ≤ s.tsc.toNat then s.updBeams st fun _ x => x.endDrain else s
    let n := s.getF (F.DEC_STATUS_STATE st)
    if n = 1 ∨ n = 2 ∨ n = 3 then
      match s.stnPage st with
      | none => s
      | some (p, q) =>
        match q.geom.line p.lines (s.stnOf st).sweep beam with
        | none => s
        | some l =>
          if beam.val < q.geom.beams ∧ s.decodable st q beam l ∧ s.undone st p q beam = [] ∧ (s.stnOf st).notices.all (Nat.blt · beam)
              ∧ ((s.stnOf st).beams.toList.getD beam {}).credit then
            let over_ := (s.stnOf st).skipping
            let s := (s.openBlocks st p q).updBeams st fun b x =>
              if b = beam.val then (if over_ then x.complete.pass else x.complete) else x
            let s := s.updStn st fun t => { t with notices := t.notices ++ [beam.val] }
            if over_ then s.skipDone st p q else s
          else s
    else s)

/-! ## Priming (R203, R210, R246) -/

/-- The oldest picked page with a plane to expose at the station. -/
def State.nextAt (s : State) (i : Fin 6) : Option (Page × Plane) :=
  let c := s.cel.pages.filter fun p => p.st == .picked && p.planes.any fun q => q.station == i && !q.exposed
  match c.foldl (fun (m : Option Page) p => match m with
      | some x => if p.pickedAt < x.pickedAt then some p else m
      | none => some p) none with
  | some p => (p.planeAt i).map fun q => (p, q)
  | none => none

/-- At a top of page the region is chosen and its tables are copied (R209, R210). -/
def State.chooseRegion (s : State) (i : Fin 6) : State :=
  let t := s.stnOf i
  let want := 4 * t.tempNext + t.dutyNext
  let s := s.updStn i fun t => { t with table := s.regionTable i }
  match s.nearRegion i t.dutyNext t.tempNext with
  | none => s
  | some r =>
    if r = want then s.putB (F.DEC_STATUS_STALE i) false
    else (s.putB (F.DEC_STATUS_STALE i) true).raise Ev.DEC_TABLE_STALE i (BitVec.ofNat 32 want) (BitVec.ofNat 32 r)

/-- PRIMING_START (R203): at the previous page's gap, or at once if the station is idle. In VALUE mode the TABLE packet
goes out while the link is ACTIVE (R246). (DEDUCED: log 45) -/
def execPrimingStart (st : Fin 6) (s : State) : Res :=
  .next (
    if s.stnIdle st then
      match s.nextAt st with
      | none => s
      | some (p, q) =>
        let s := s.putF (F.DEC_STATUS_STATE st) 1
        let code := s.flag (F.EXL_CFG_MODE st)
        let s := s.updStn st fun t => { t with
          page := some p.tag, primed := false, tableOk := code, slips := 0, sweep := q.geom.sFirst, cur := q.geom.sFirst - 1, notices := [],
          lostRounds := [], poisoned := [], byVal := List.replicate 16 0, lost := 0, dark := 0, skipped := 0,
          drainDots := [], skipping := false, tableTag := none, tableBlks := [], beams := t.beams.map fun b => { b with slots := [] },
          abort := none, fetched := Vector.replicate 2 0, fetching := Vector.replicate 2 none }
        let s := s.openBlocks st p q
        if !code && (s.getF (F.EXL_STATUS_STATE st) == 4 || s.getF (F.EXL_STATUS_STATE st) == 5) then s.sendPkt st .table else s
    else s)

/-- PRIMING_DONE (R203): one buffer of every beam holds its line of sweep s_first; a station whose compare has fired is armed. (DEDUCED: log 45) -/
def execPrimingDone (st : Fin 6) (s : State) : Res :=
  .next (
    if s.getF (F.DEC_STATUS_STATE st) = 1 then
      match s.stnPage st with
      | none => s
      | some (p, q) =>
        if s.undone st p q q.geom.beams = [] then (s.updStn st fun t => { t with primed := true }).armFollow st else s
    else s)

/-! ## Sweeps (R201, R204, R208, R211, R217, R218, R232, R233, R239) -/

/-- Values of line `l` as beam `b` exposes it: each dot that the beam's pass exposes. -/
def State.dotsAt (s : State) (i : Fin 6) (q : Plane) (b l : Nat) : List Nat :=
  let x := q.place b l
  match q.block x.1 x.2.1 with
  | none => []
  | some k =>
    let line := (Zrb.decodeLines k.data).getD x.2.2 []
    (line.zipIdx.filter fun d => s.exposes i q.geom (q.geom.pass b) l d.2).map Prod.fst

def countVal (l : List Nat) (v : Nat) : Nat := (l.filter (· == v)).length

/-- Dots of a line in drain, by value. -/
def State.countDots (s : State) (i : Fin 6) (dots : List Nat) : State :=
  s.updStn i fun t => { t with drainDots := (List.range 16).map fun v => t.drainDots.getD v 0 + countVal dots v }

/-- The drain has ended: the dots it has exposed are counted by value (R211). (DEDUCED: log 45) -/
def State.drainEnd (s : State) (i : Fin 6) : State :=
  let d := (s.stnOf i).drainDots
  let s := s.forEach 16 fun a v => if d.getD v 0 = 0 then a else a.addP (R.DEC_DOTS_LO i v) (d.getD v 0)
  s.updStn i fun t => { t with byVal := (List.range 16).map (fun v => t.byVal.getD v 0 + d.getD v 0), drainDots := [] }

/-- A lost line (R201): exposed blank, counted, reported, and the sheet spoiled. -/
def State.loseLine (s : State) (i : Fin 6) (p : Page) (q : Plane) (b l : Nat) : State :=
  let s := (s.incR (R.DEC_LINES_LOST i) 1).loseDots i (s.share i q.geom (q.geom.pass b) l)
  (s.raise Ev.DEC_LINE_LOST i (BitVec.ofNat 32 (l % 262144 + 0x1000000 * (b % 32))) p.tag).spoilStn i

/-- The drain of one beam's line. A dead emitter's lines count as lost (R212, R213). -/
def State.drainLine (s : State) (i : Fin 6) (p : Page) (q : Plane) (b : Nat) : State :=
  match q.geom.line p.lines (s.stnOf i).sweep b with
  | none => s
  | some l =>
    if s.dead i (b + s.getF (F.DEC_STATUS_WIN_BASE i)) then s.loseLine i p q b l
    else if (s.stnOf i).notices.contains b then s.countDots i (s.dotsAt i q b l)
    else (s.loseLine i p q b l).abandon i q b l

/-- Lines of a sweep that are passed over (R232). -/
def State.skipSweep (s : State) (i : Fin 6) (p : Page) (q : Plane) (sw : Int) : State :=
  let n := ((List.range q.geom.beams).filter fun b => (q.geom.line p.lines sw b).isSome).length
  let first := (s.stnOf i).skipped == 0
  let s := (s.incR (R.EXP_LINES_SKIPPED i) n).loseDots i (s.sweepDots i q.geom p.lines sw)
  let s := (s.updStn i fun t => { t with skipped := t.skipped + n }).spoilStn i
  let s := if first && n != 0 then s.raise Ev.EXP_LINES_SKIPPED i else s
  if p.lines * q.passes < 100 * (s.stnOf i).skipped ∧ ¬s.flag (F.EXP_STATUS_OVERSPEED i) then
    (s.latchF (F.EXP_STATUS_OVERSPEED i)).raise Ev.EXP_OVERSPEED i
  else s

/-- The sweep that the next edge passes over, where a page exposes: its lines are still decoded (R232). -/
def State.skipFollow (s : State) (i : Fin 6) (p : Page) (q : Plane) : State :=
  if (s.stnOf i).skipDue ∧ (s.stnOf i).sweep ≤ q.geom.sLast p.lines then
    ((s.skipSweep i p q (s.stnOf i).sweep).updStn i fun t => { t with skipping := true }).skipDone i p q
  else s

/-- The BD paired with this sweep-clock edge, the nearest one, and its facet (R220, R224): the latest, or the one to come. (DEDUCED: log 48) -/
def State.pairedBd (s : State) (i : Fin 6) : Nat × Nat :=
  let t := s.stnOf i
  let p := s.polyOf i
  let f := s.getF (F.EXP_POLY_STATUS_FACET p)
  let past := match t.bds.head?, s.tSweep i with
    | some a, some d => Nat.blt (2 * (4 * t.line.edgeAt - a)) d
    | _, _ => false
  let marked := s.poly[p].mark && s.getF (F.EXP_POLY_CFG_INDEX p) != 0x7F
  if past then (t.bdNum, f) else ((t.bdNum + 1) % 256, if marked then 0 else (f + 1) % s.facets i)

/-- What a beam sends for a line (R208, R240): dot values after the mask, or head codes of the drain-side table (R210); a lost
line is blank (R201). (DEDUCED: log 48) -/
def State.lineCodes (s : State) (i : Fin 6) (q : Plane) (b l : Nat) : List Nat :=
  let t := s.stnOf i
  let lost := s.dead i (b + s.getF (F.DEC_STATUS_WIN_BASE i)) || !t.notices.contains b
  let x := q.place b l
  let vals := match (if lost then none else q.block x.1 x.2.1) with
    | none => List.replicate q.width 0
    | some k => ((Zrb.decodeLines k.data).getD x.2.2 []).zipIdx.map fun d => if s.exposes i q.geom (q.geom.pass b) l d.2 then d.1 else 0
  if s.flag (F.EXL_CFG_MODE i) then vals.map fun v => (t.table.getD b []).getD v 0 else vals

/-- The packet of segment `k` of beam `b` (R239, R231). -/
def State.segmentPacket (s : State) (i : Fin 6) (facet b k : Nat) (codes : List Nat) : List LinkBlk :=
  let t := s.stnOf i
  let row := if s.getF (F.EXP_POLY_CFG_INDEX (s.polyOf i)) = 0x7F then 0 else facet
  let ofs := SMap.get resetWord t.bofs (R.EXP_BOFS i row b)
  linePacket (lineHeader b (b + s.getF (F.DEC_STATUS_WIN_BASE i)) facet (bits ofs 0 6) (bits ofs 8 14) k (t.seq.emod 65536).toNat) (s.codeBits i) codes

/-- What the sweep that begins sends (R239): SWEEP_START and the line packets in segment rounds; nothing for a sweep with no
line that is not blank. -/
def State.sweepBlocks (s : State) (i : Fin 6) (p : Page) (q : Plane) : List LinkBlk :=
  let t := s.stnOf i
  let bd := s.pairedBd i
  let lines := (List.range q.geom.beams).filterMap fun b => (q.geom.line p.lines t.sweep b).map fun l => (b, s.lineCodes i q b l)
  let n := 256 * 2 ^ s.getF (F.EXL_CFG_SEG i)
  if lines.isEmpty then []
  else
    sweepStartBlk (t.seq.emod 65536).toNat bd.1 (lines.foldl (fun a x => a + 2 ^ x.1) 0)
      :: (List.range (ceilDiv q.width n)).flatMap fun k => lines.flatMap fun x => s.segmentPacket i bd.2 x.1 k ((x.2.drop (n * k)).take n)

/-- The drain of the next sweep begins: SWEEP_START (R239), then each beam's line, ahead of control packets that have not gone;
the next sweep is then decoded. -/
def State.drainSweep (s : State) (i : Fin 6) (p : Page) (q : Plane) : State :=
  let sw := (s.stnOf i).sweep
  let s := s.putR (R.DEC_CUR_SWEEP i) (BitVec.ofInt 32 sw)
  let out := s.sweepBlocks i p q
  let s := s.updStn i fun t => { t with sent := out, cur := sw, lineEnd := s.tsc.toNat + s.blockCycles i out.length }
  let s := if out.isEmpty then s else s.holdPkts i
  let s := s.forEach q.geom.beams fun a b => a.drainLine i p q b
  let s := s.updBeams i fun b x => if (s.stnOf i).notices.contains b then x.startDrain else x
  let s := (s.updStn i fun t => { t with sweep := t.sweep + 1, notices := [] }).openBlocks i p q
  (s.skipFollow i p q).winState i

/-- The mask in use for a page: with ROTATE the next of masks 0 to MASKS, else mask 0 (R208). The first page of all, before which
no mask was in use, has mask 0. (DESIGN CHOICE: log 96) -/
def State.nextMask (s : State) (i : Fin 6) : Nat :=
  match s.flag (F.DEC_SHINGLE_ROTATE i), (s.stnOf i).mask with
  | true, some m => if m < s.getF (F.DEC_SHINGLE_MASKS i) then m + 1 else 0
  | _, _ => 0

/-- The runs that a SEQ can still name: those of the last 65,536 sweeps (R243). -/
def Station.runsKept (t : Station) : List Run := t.runs.filter fun r => decide (t.seq - r.seq0 - (r.sLast - r.sFirst) < 65536)

/-- Top of page (R203, R204, R208, R210, R218, R231): the drain of sweep s_first begins at the edge of phase `edge`. (DEDUCED: log 45; DESIGN CHOICE: log 99) -/
def State.topOfPage (s : State) (i : Fin 6) (p : Page) (q : Plane) (edge : Int) : State :=
  let t := s.stnOf i
  let s := (((s.putF (F.DEC_STATUS_STATE i) 3).putR (R.DEC_CUR_TAG i) p.tag).putF (F.EXP_TOP_RESID i) (unsigned 16 (Int.fdiv (edge - t.topPhase) 0x10000))).chooseRegion i
  let s := (s.putF (F.DEC_STATUS_DUTY i) t.dutyNext).putF (F.DEC_STATUS_TEMP i) t.tempNext
  let run : Run := { seq0 := t.seq, sFirst := q.geom.sFirst, sLast := q.geom.sLast p.lines, sheet := p.sheet, geom := q.geom, lines := p.lines, width := q.width }
  let bofs := s.regs.filter fun e => Nat.ble (R.EXP_BOFS i 0 0) e.1 && Nat.blt e.1 (R.EXP_BOFS i 0 0 + 0x800)
  let mask := s.nextMask i
  let s := s.updStn i fun t => { t with top := false, phWarned := false, mask := some mask, maskRows := (List.range 16).map (s.maskRow i mask), bofs := bofs, runs := run :: t.runsKept
                                        darkSeen := if t.runsKept = [] then [] else t.darkSeen }
  let s := match t.tableTag with
    | some tag => s.updStn i fun t => { t with tableBlks := s.tableBlocks i tag (t.seq.emod 65536).toNat t.table }
    | none => s
  let s := if t.slips = 0 then s
    else ((s.incR (R.DEC_START_SLIP i) t.slips).raise Ev.DEC_START_SLIP i).spoilStn i
  s.fire 0x04 i

/-- The age of every APC reading, in units of 64 sweeps (R249). -/
def State.apcAges (s : State) (i : Fin 6) : State :=
  s.each (s.stnOf i).apcAt fun a e => a.putF (F.EXL_APC_AGE i e.1) (min 255 (((s.stnOf i).seq - e.2).toNat / 64))

/-- The sweep clock takes an edge at `t` (1/256 cycle): its time, the sweep count, and the next edge (R217, R219). While the
line clock is clamped, a lag of A lines makes the next edge stand for the sweep after next, and Φ̂ advances by A (R232). -/
def State.clockEdge (s : State) (i : Fin 6) (t : Nat) : State :=
  let a : Int := oneLine * s.advOf i
  let x := s.stnOf i
  let skip := s.flag (F.EXP_STATUS_CLAMPED i) && decide (a ≤ x.line.lag)
  let d := s.slewStep i
  let k := x.line.step t (a + d)
  (s.putP (R.EXP_SWEEP_TS_LO i) (t / 256)).updStn i fun y => { y with
    seq := y.seq + (if y.skipDue then 2 else 1), skipDue := skip, slewLeft := y.slewLeft - d, line := if skip then k.jump a else k
    beams := y.beams.map Beam.endDrain }

/-- SWEEP_EDGE: Φ̂ has crossed the grid (R217); the drain of a sweep begins (R201). A page does not start while a slew is due or in
progress (R219). (DEDUCED: log 45) -/
def execSweepEdge (st : Fin 6) (s : State) : Res :=
  .next (
    match s.edgeDue st with
    | none => s
    | some at_ =>
      let edge := (s.stnOf st).line.edge
      let s := ((s.clockEdge st at_).apcAges st).drainEnd st
      let n := s.getF (F.DEC_STATUS_STATE st)
      match s.stnPage st with
      | none => s
      | some (p, q) =>
        let t := s.stnOf st
        if n = 3 then
          let s := s.skipEnd st p q
          if (s.stnOf st).sweep ≤ q.geom.sLast p.lines then s.drainSweep st p q else s
        else if (n = 1 ∨ n = 2) ∧ t.top then
          if n = 1 ∨ ¬t.tableOk ∨ s.flag (F.EXP_STATUS_SLEWING st) ∨ t.slewDue ≠ 0 then s.updStn st fun t => { t with slips := t.slips + 1 }
          else
            let gated := s.notReady st
            let s := s.topOfPage st p q edge
            if gated then s.inhibit st else s.drainSweep st p q
        else s)

/-! ## The page gap -/

/-- The duty band of a coverage of `nz` non-zero dots among the page's `n` (R209): a band changes only where the coverage lies
more than HYS points beyond the threshold crossed. -/
def State.dutyBand (s : State) (i : Fin 6) (old nz n : Nat) : Nat :=
  let cut := fun (k : Nat) => s.getF (if k = 0 then F.DEC_DUTY_CUT_0 i else if k = 1 then F.DEC_DUTY_CUT_1 i else F.DEC_DUTY_CUT_2 i)
  let hys := s.getF (F.DEC_DUTY_HYS i)
  let band := ((List.range 3).filter fun k => Nat.ble (cut k * n) (100 * nz)).foldl (fun a k => max a (k + 1)) 0
  if n = 0 ∨ band = old then old
  else if old < band then
    -- Up: the highest band whose lower threshold is passed by more than HYS points.
    ((List.range 3).filter fun k => Nat.blt ((cut k + hys) * n) (100 * nz)).foldl (fun a k => max a (k + 1)) old
  else
    -- Down: to the lowest band whose upper threshold is undercut by more than HYS points.
    ((List.range 3).filter fun k => Nat.blt (100 * nz + hys * n) (cut k * n)).foldl (fun a k => min a k) old

/-- Pass the page's counts to the ledger and check them (R211). -/
def State.dotAudit (s : State) (i : Fin 6) (p : Page) (q : Plane) : State :=
  let t := s.stnOf i
  let s := s.journal (.dots i t.byVal t.lost t.dark)
  if t.byVal.foldl (· + ·) 0 + t.lost = p.lines * q.width then s
  else (s.raise Ev.DEC_DOT_AUDIT i).spoilStn i

/-- PAGE_GAP_BEGIN (R204): the drain of sweep s_last has ended, or an inhibited page's gap has come. Dots of lost lines count
among the page's dots in its coverage, and not as non-zero (DESIGN CHOICE: log 96). (DEDUCED: log 45; DESIGN CHOICE: log 96) -/
def execPageGapBegin (st : Fin 6) (s : State) : Res :=
  .next (
    match s.stnPage st with
    | none => s
    | some (p, q) =>
      let n := s.getF (F.DEC_STATUS_STATE st)
      let s := if n = 3 ∧ q.geom.sLast p.lines < (s.stnOf st).sweep then s.drainEnd st else s
      let t := s.stnOf st
      if n = 5 ∨ (n = 3 ∧ q.geom.sLast p.lines < t.sweep) then
        let s := ((s.putF (F.DEC_STATUS_STATE st) 4).putR (R.DEC_CUR_TAG st) 0#32).fire 0x05 st
        let s := s.dotAudit st p q
        let s := if (s.chan (8 + st)).issued.isEmpty && (s.chan (8 + st)).queued.isEmpty then s else s.withdraw (8 + st)
        let drained := t.byVal.foldl (· + ·) 0
        let duty := s.dutyBand st t.dutyNext (drained - t.byVal.getD 0 0) (p.lines * q.width)
        let temp := s.expBand st
        let s := s.updStn st fun t => { t with page := none, primed := false, dutyNext := duty, tempNext := temp, notices := [], beams := t.beams.map Beam.endDrain }
        let s := s.updPage p.tag fun x => { x with planes := x.planes.map fun y => if y.station == st then { y with exposed := true } else y }
        let s := s.recompute st
        let s := s.deferredGap st
        let s := match s.page p.tag with
          | some x => if x.planes.all Plane.exposed then s.pageExposed x else s
          | none => s
        let s := (s.sendSync st).moveWindow st |>.emitterMend
        let s := if s.flag (F.EXL_STATUS_RETRAIN_PENDING st) then s.retrain st else s.rateCheck st
        let s := (s.conFollow st).winState st
        (s.slewFollow st).slewStarts
      else s)

end Sys2Proof.Machine
end

