-- ==== Sys2Proof/Machine/ExposureLink.lean ====
section
/-! DEFINITION. Machine/ExposureLink.lean: training, head messages, responses, retraining, LEN (chapter 11). -/

namespace Sys2Proof.Machine

/-! ## Training (R252–R255) -/

/-- Lanes of an attempt: A at bit 0, B at bit 1 (Table 11-7). -/
def lanesOf (a : Nat) : Nat := if a ≤ 3 then 3 else if a = 4 then 1 else 2

/-- The attempt fails: the next one follows after electrical idle, or the link enters FAILED (R253). -/
def State.failLink (s : State) (i : Fin 6) : State :=
  let s := (s.dropPkts i).updStn i fun t => { t with failedAt := s.tick, nextAttempt := 1, configOk := false, settled := true }
  ((s.putF (F.EXL_STATUS_LANES i) 0).setLink i 6).emitterMend

def State.failAttempt (s : State) (i : Fin 6) : State :=
  let a := s.getF (F.EXL_STATUS_ATTEMPT i)
  let last := if s.flag (F.EXL_CFG_FALLBACK i) then 5 else 3
  if a < last then
    let s := (s.dropPkts i).updStn i fun t => { t with nextAttempt := a + 1, configOk := false }
    (s.putF (F.EXL_STATUS_LANES i) 0).setLink i 0
  else (s.failLink i).raise Ev.EXL_LINK_FAILED i

/-- Is the link in training (states 1 to 4)? -/
def State.training (s : State) (i : Fin 6) : Bool :=
  Nat.ble 1 (s.getF (F.EXL_STATUS_STATE i)) && Nat.ble (s.getF (F.EXL_STATUS_STATE i)) 4

/-- TRAIN_ATTEMPT_START (R252): an attempt begins in RET_LOCK; a new sequence uses the applied EXL_CFG (R255). -/
def execTrainAttemptStart (st : Fin 6) (s : State) : Res :=
  .next (
    if s.flag (F.DEC_GEOM_EN st) ∧ s.getF (F.EXL_STATUS_STATE st) = 0 then
      let a := (s.stnOf st).nextAttempt
      let s := if a = 1 then s.putR (R.EXL_CFG st) (s.appl (R.EXL_CFG st)) else s
      let s := s.updStn st fun t => { t with attemptAt := s.tsc.toNat, deadSeen := false }
      ((s.putF (F.EXL_STATUS_ATTEMPT st) a).putF (F.EXL_STATUS_LANES st) (lanesOf a)).setLink st 1
    else s)

/-- RET_LOCK (Table 11-6): 64 consecutive valid sync headers on the return lane. -/
def execRetLock (st : Fin 6) (s : State) : Res :=
  .next (if s.getF (F.EXL_STATUS_STATE st) = 1 then s.setLink st 2 else s)

/-- Entry to CONFIG: the CONFIG packet, and TABLE for a primed page in VALUE mode, which the training may have brought (Table 11-6,
R246). -/
def State.enterConfig (s : State) (i : Fin 6) : State :=
  let s := (s.setLink i 4).sendPkt i .config
  let n := s.getF (F.DEC_STATUS_STATE i)
  let code := s.flag (F.EXL_CFG_MODE i)
  if n == 1 || n == 2 then
    let s := s.updStn i fun t => { t with tableOk := code, tableTag := none }
    if code then s else s.sendPkt i .table
  else s

/-- TRAIN_ACK (R245, Table 11-6). -/
def execTrainAck (st : Fin 6) (lockA lockB deskew : Bool) (s : State) : Res :=
  .next (
    let l := s.getF (F.EXL_STATUS_LANES st)
    let locked := (!bit l 0 || lockA) && (!bit l 1 || lockB)
    match s.getF (F.EXL_STATUS_STATE st) with
    | 2 => if locked then (if l = 3 then s.setLink st 3 else s.enterConfig st) else s
    | 3 => if deskew then s.enterConfig st else s
    | _ => s)

/-- TRAIN_TIMEOUT (R252): not ACTIVE within EXL_TRAIN_TO. -/
def execTrainTimeout (st : Fin 6) (s : State) : Res :=
  .next (
    if s.training st ∧ (s.stnOf st).attemptAt + 200 * s.getF (F.EXL_TRAIN_TO st) ≤ s.tsc.toNat then s.failAttempt st else s)

/-- FAILED_RESTART (Table 11-6): 1,000 ticks after FAILED the sequence starts again. -/
def execFailedRestart (st : Fin 6) (s : State) : Res :=
  .next (if s.getF (F.EXL_STATUS_STATE st) = 6 ∧ (s.stnOf st).failedAt + 1000 ≤ s.tick then s.setLink st 0 else s)

/-! ## Responses (R245–R247) -/

/-- The third expiry for one packet, or third failed check (R247). -/
def State.pktDead (s : State) (i : Fin 6) (k : PktKind) : State :=
  let s := if k == .read || k == .write then (s.putF (F.EXL_HACC_BUSY i) 0).putF (F.EXL_HACC_RESULT i) 2 else s
  if s.getF (F.EXL_STATUS_STATE i) = 5 then s.linkDown i 6
  else if s.training i then s.failAttempt i else s

/-- Send a packet again with the same tag, or give up at the third time. -/
def State.again (s : State) (i : Fin 6) (p : Packet) : State :=
  let s := s.updStn i fun t => { t with pkts := t.pkts.filter fun x => x.tag != p.tag }
  if 3 ≤ p.tries + 1 then s.pktDead i p.kind
  else s.putPkt i { p with tries := p.tries + 1 }

/-- A packet has been answered with OK. `data` holds bytes 3 to 6 of the RESPONSE. -/
def State.answered (s : State) (i : Fin 6) (k : PktKind) (data : Word) : State :=
  match k with
  | .config =>
    let s := s.updStn i fun t => { t with configOk := true }
    s.putR (R.EXL_HEAD_CAP i) (BitVec.ofNat 32 (bits data 0 6 + 64 * bits data 8 3 + 4096 * bits data 16 4 + 65536 * bits data 24 1))
  | .table => s.updStn i fun t => { t with tableOk := true }
  | .read => ((s.putR (R.EXL_HDATA i) data).putF (F.EXL_HACC_BUSY i) 0).putF (F.EXL_HACC_RESULT i) 0
  | .write => (s.putF (F.EXL_HACC_BUSY i) 0).putF (F.EXL_HACC_RESULT i) 0

/-- RESPONSE (R245, R247, R252). -/
def execResponse (st : Fin 6) (tag status : BitVec 8) (data : Word) (s : State) : Res :=
  .next (
    match (s.stnOf st).pkts.find? fun p => p.tag == tag with
    | none => s
    | some p =>
      let drop := s.updStn st fun t => { t with pkts := t.pkts.filter fun x => x.tag != tag }
      if status = 0#8 then drop.answered st p.kind data
      else if status = 1#8 then s.again st p
      else if s.training st then
        if p.kind = .config then ((drop.failLink st).raise Ev.EXL_HEAD_REFUSED st)
        else drop.failAttempt st
      else if p.kind = .read ∨ p.kind = .write then (drop.putF (F.EXL_HACC_BUSY st) 0).putF (F.EXL_HACC_RESULT st) 1
      else drop)

/-- RESPONSE_TIMEOUT (R247): the packet sent longest ago has had no response for EXL_RESP_TO. -/
def execResponseTimeout (st : Fin 6) (s : State) : Res :=
  .next (
    match (s.stnOf st).pkts with
    | [] => s
    | p :: _ =>
      if p.sentAt + 200 * s.getF (F.EXL_RESP_TO st) ≤ s.tsc.toNat then
        (s.incR (R.EXL_RESP_TIMEOUTS st) 1).again st p
      else s)

/-! ## Head reports (R249–R251, R254) -/

/-- The link reaches ACTIVE (R213, R253, R254). The window of a head without dead emitters returns at the next page gap. -/
def State.linkActive (s : State) (i : Fin 6) : State :=
  let one := s.getF (F.EXL_STATUS_LANES i) != 3
  let clean := !(s.stnOf i).deadSeen
  let s := (s.setLink i 5).updStn i fun t => { t with settled := true, syncErrs := [], laneMend := one }
  let s := if clean then
      let a := ((s.putR (R.DEC_DEAD_LO i) 0#32).putR (R.DEC_DEAD_HI i) 0#32).putF (F.DEC_STATUS_NO_WINDOW i) 0
      a.putF (F.DEC_STATUS_SPARES_LOW i) 0
    else s
  let s := s.putB (F.EXL_STATUS_FALLBACK i) one
  let s := if one then (s.raise Ev.EXL_FALLBACK i).setMend 3 else s
  s.emitterMend.rateCheck i

/-- A retrain is requested (R251, R255): at the next page gap, or at once if the station is idle. (DEDUCED: log 48) -/
def State.askRetrain (s : State) (i : Fin 6) : State :=
  let s := (s.putB (F.EXL_STATUS_RETRAIN_PENDING i) true).putB (F.EXL_CTRL_RETRAIN i) true
  if s.stnIdle i then s.retrain i else s

/-- The head's count of packet CRC failures (R251): those of the last 1,000 ticks are held against the limit. -/
def State.crcCount (s : State) (i : Fin 6) (crc : BitVec 8) : State :=
  let t := s.stnOf i
  let n := (crc.toNat + 256 - t.crcLast.getD crc.toNat) % 256
  let l := (t.crcs.filter fun x => Nat.blt s.tick (x.1 + 1000)) ++ if n = 0 then [] else [(s.tick, n)]
  let sum := (l.map Prod.snd).foldl (· + ·) 0
  let s := (s.incR (R.EXL_CRC_ERR i) n).updStn i fun t => { t with crcLast := some crc.toNat, crcs := l }
  if s.getF (F.EXL_CRC_LIMIT i) < sum then
    ((s.raise Ev.EXL_CRC_RATE i).updStn i fun t => { t with crcs := [] }).askRetrain i
  else s

/-- STATUS (R249–R251, R257): flags as in Table 11-5. Packet CRC failures are counted in every state. -/
def execStatus (st : Fin 6) (flags : BitVec 7) (temp : BitVec 16) (crc : BitVec 8) (s : State) : Res :=
  .next (
    let s := s.putF (F.EXL_HEAD_TEMP st) temp.toNat
    let s := (s.putB (F.EXL_STATUS_HEAD_READY st) (flags.getLsbD 0)).putB (F.EXL_STATUS_HEAD_FAULT st) (flags.getLsbD 1)
    let s := (s.putB (F.EXL_STATUS_LEN_SEEN st) (flags.getLsbD 2)).updStn st fun t => { t with statusAt := s.tsc.toNat, lenKnown := true }
    let s := s.crcCount st crc
    match s.getF (F.EXL_STATUS_STATE st) with
    | 4 =>
      if (s.stnOf st).configOk ∧ flags.getLsbD 0 then s.linkActive st else s
    | 5 =>
      let l := s.getF (F.EXL_STATUS_LANES st)
      if (bit l 0 && !flags.getLsbD 3) || (bit l 1 && !flags.getLsbD 4) then s.linkDown st 3
      else if flags.getLsbD 5 then s.linkDown st 4
      else if flags.getLsbD 1 then s.linkDown st 5
      else s
    | _ => s)

/-- STATUS_TIMEOUT (R250): no correct STATUS for 8 µs. (DESIGN CHOICE: log 4) -/
def execStatusTimeout (st : Fin 6) (s : State) : Res :=
  .next (if (s.stnOf st).statusAt + 1600 ≤ s.tsc.toNat then s.linkDown st 1 else s)

/-- APC (R249). -/
def execApc (st : Fin 6) (emitter : BitVec 8) (power : BitVec 16) (s : State) : Res :=
  .next (
    let e := emitter.toNat
    if e < 36 then
      let s := (s.putF (F.EXL_APC_POWER st e) power.toNat).putF (F.EXL_APC_AGE st e) 0
      s.updStn st fun t => { t with apcAt := (e, t.seq) :: t.apcAt.filter fun x => x.1 != e }
    else s)

/-- EMITTER (R212, R249): a DEAD emitter's bit sets at its first copy; an idle station moves its window at once. -/
def execEmitter (st : Fin 6) (emitter state : BitVec 8) (s : State) : Res :=
  .next (
    let e := emitter.toNat
    if e < 36 ∧ state.toNat ≤ 2 then
      let old := s.getF (F.EXL_APC_STATE st e)
      let s := s.putF (F.EXL_APC_STATE st e) state.toNat
      if state = 2#8 then
        let s := s.updStn st fun t => { t with deadSeen := true }
        let r := if e < 32 then R.DEC_DEAD_LO st else R.DEC_DEAD_HI st
        let s := (s.putR r (s.getR r ||| ones (e % 32) 1)).mendFollow
        if s.stnIdle st then s.moveGrid st else s
      else if state = 1#8 ∧ old ≠ 1 then s.raise Ev.EXL_EMITTER_DEGRADED st
      else s
    else s)

/-- The page that a SEQ identifies, with its sweep: the latest one in which the SEQ occurred (R243). (DEDUCED: log 48) -/
def Station.runOf (t : Station) (seq : Nat) : Option (Run × Int) :=
  (t.runs.find? fun r => decide (((seq : Int) - r.seq0).emod 65536 ≤ r.sLast - r.sFirst)).map fun r =>
    (r, r.sFirst + ((seq : Int) - r.seq0).emod 65536)

/-- Dark dots go to the page's counts: with its page gap's entry, or in an entry of their own once that has gone. -/
def State.darkDots (s : State) (i : Fin 6) (r : Run) (n : Nat) : State :=
  let s := s.addP (R.EXL_DOTS_DARK_LO i) n
  let live := (s.stnOf i).page.isSome && (s.stnOf i).runs.head? == some r && Nat.ble 3 (s.getF (F.DEC_STATUS_STATE i))
    && s.getF (F.DEC_STATUS_STATE i) != 4
  let s := if live then s.updStn i fun t => { t with dark := t.dark + n } else s.journal (.dots i [] 0 n)
  match r.sheet with
  | some id => s.spoil id
  | none => s

/-- Count a dark line once for each sweep count and beam. (DEDUCED: log 48) -/
def State.darkLine (s : State) (i : Fin 6) (seq : Int) (beam : Nat) : State :=
  if (s.stnOf i).darkSeen.contains (seq, beam) then s
  else (s.incR (R.EXL_LINES_DARK i) 1).updStn i fun t => { t with darkSeen := (seq, beam) :: t.darkSeen }

/-- Dots of segment `k` of a line of `w` dots (R240). -/
def State.segDots (s : State) (i : Fin 6) (w k : Nat) : Nat :=
  let seg := 256 * 2 ^ s.getF (F.EXL_CFG_SEG i)
  min seg (w - k * seg)

/-- EVENT (R242, R243): kind 1 a late and 2 a discarded segment, 3 a late sweep. A SEQ that names no page known has its line and
dots counted at the station. -/
def execEvent (st : Fin 6) (kind : BitVec 8) (seq : BitVec 16) (beam segment : BitVec 8) (s : State) : Res :=
  .next (
    let s := if kind = 3#8 then s.incR (R.EXL_SWEEP_LATE st) 1 else s
    let seg := kind = 1#8 ∨ kind = 2#8
    match (s.stnOf st).runOf seq.toNat with
    | none =>
      if seg then (s.incR (R.EXL_LINES_DARK st) 1).addP (R.EXL_DOTS_DARK_LO st) (s.segDots st (s.getF (F.DEC_WIDTH st)) segment.toNat) else s
    | some (r, sw) =>
      let n := r.seq0 + (sw - r.sFirst)
      if kind = 3#8 then
        let lines := (List.range r.geom.beams).filter fun b => (r.geom.line r.lines sw b).isSome
        (lines.foldl (fun (a : State) b => a.darkLine st n b) s).darkDots st r (lines.length * r.width)
      else if seg then (s.darkLine st n beam.toNat).darkDots st r (s.segDots st r.width segment.toNat)
      else s)

/-- RETURN_BLOCK_ERROR (R237, R245, R250): a return block that is discarded: its sync header or its type is bad, or its CRC-8 is
wrong. -/
def execReturnBlockError (st : Fin 6) (hdr : BitVec 2) (payload : BitVec 64) (block : Nat) (s : State) : Res :=
  .next (
    match returnFault hdr payload with
    | none => s
    | some sync =>
      let s := s.incR (R.EXL_RX_SYNC_ERR st) 1
      if sync ∧ s.getF (F.EXL_STATUS_STATE st) = 5 then
        let l := block :: (s.stnOf st).syncErrs.filter fun b => Nat.blt block (b + 64)
        let s := s.updStn st fun t => { t with syncErrs := l }
        if 16 ≤ l.length then s.linkDown st 2 else s
      else s)

/-- ALIGN_MARKER (R238): one ALIGN block on each transmit lane. -/
def execAlignMarker (st : Fin 6) (s : State) : Res :=
  .next (s.updStn st fun t =>
    let n := t.markers + 1#32
    { t with markers := n, align := [alignBlk 0 n, alignBlk 1 n] })

/-! ## Writes of EXL_CTRL and EXL_HACC -/

/-- RETRAIN (R255): a write of 1 to EXL_CTRL.RETRAIN, with LEN_EN from the same word. -/
def execRetrain (_port : Port) (st : Fin 6) (w : Word) (s : State) : Res :=
  .next (((s.putB (F.EXL_CTRL_LEN_EN st) (w.getLsbD 0)).lenFollow st).askRetrain st)

/-- RETRAIN_FORCE (R255): RETRAIN with FORCE; training restarts at once. -/
def execRetrainForce (_port : Port) (st : Fin 6) (w : Word) (s : State) : Res :=
  .next (((s.putB (F.EXL_CTRL_LEN_EN st) (w.getLsbD 0)).lenFollow st).retrain st)

/-- HEAD_ACCESS (R245): a write of EXL_HACC: ADDR and OP are taken, and GO starts the access, ignored while BUSY. While the link
is not ACTIVE the access ends with RESULT error. GO clears as the access starts, so that it reads 0. (DESIGN CHOICE: log 97) -/
def execHeadAccess (_port : Port) (st : Fin 6) (w : Word) (s : State) : Res :=
  .next (
    let busy := s.flag (F.EXL_HACC_BUSY st)
    let s := (s.putF (F.EXL_HACC_ADDR st) (bits w 0 16)).putB (F.EXL_HACC_OP st) (w.getLsbD 16)
    if w.getLsbD 17 && !busy then
      if s.getF (F.EXL_STATUS_STATE st) = 5 then
        (s.putF (F.EXL_HACC_BUSY st) 1).sendPkt st (if w.getLsbD 16 then .write else .read)
      else s.putF (F.EXL_HACC_RESULT st) 1
    else s)

/-! ## LEN (R256, R257) -/

/-- LEN_MISMATCH (R257): LEN_SEEN has differed from LEN_s for 3 consecutive ticks. -/
def execLenMismatch (st : Fin 6) (s : State) : Res :=
  .next (
    if 3 ≤ (s.stnOf st).lenDiff ∧ ¬s.flag (F.EXL_STATUS_LEN_MISMATCH st) then
      let s := ((s.putF (F.EXL_STATUS_LEN_MISMATCH st) 1).lenFollow st).raise Ev.EXL_LEN_MISMATCH st
      s.inhibit st
    else s)

/-- LEN_MISMATCH_CLEAR (R257): a write of 1, only while the two states agree. -/
def execLenMismatchClear (_port : Port) (st : Fin 6) (s : State) : Res :=
  .next (
    if s.getF (F.EXL_STATUS_LEN_SEEN st) = s.getF (F.EXL_STATUS_LEN_OUT st) then
      (s.clearF (F.EXL_STATUS_LEN_MISMATCH st)).lenFollow st
    else s)

end Sys2Proof.Machine
end

