-- ==== Sys2Proof/Machine/OpsHeat.lean ====
section
/-! DEFINITION. Machine/OpsHeat.lean: thermistors, heater trips, temperature bands, the HV regulator (R347–R369). -/

namespace Sys2Proof.Machine

def State.thermOf (s : State) (n : Fin 12) : Therm := s.heat.therm[n]

def State.updTherm (s : State) (n : Fin 12) (f : Therm → Therm) : State :=
  { s with heat := { s.heat with therm := s.heat.therm.set n (f s.heat.therm[n]) } }

def State.heaterOf (s : State) (h : Fin 4) : Heater := s.heat.heater[h]

def State.updHeater (s : State) (h : Fin 4) (f : Heater → Heater) : State :=
  { s with heat := { s.heat with heater := s.heat.heater.set h (f s.heat.heater[h]) } }

def State.hvOf (s : State) (c : Fin 24) : HvCh := s.heat.hv[c]

def State.updHv (s : State) (c : Fin 24) (f : HvCh → HvCh) : State :=
  { s with heat := { s.heat with hv := s.heat.hv.set c (f s.heat.hv[c]) } }

/-! ## Heaters -/

/-- A heater's outputs carry `d` from now on. -/
def State.heaterDrive (s : State) (h : Fin 4) (d : HeaterDrive) : State :=
  (s.updHeater h fun x => { x with drive := d }).putB (F.IRN_HTR_STATUS_ON h) (d != .low)

/-- The outputs of a heater go low. -/
def State.heaterOff (s : State) (h : Fin 4) : State := s.heaterDrive h .low

/-- The TSC at which the `k`th period of a run of induction drive ends; a period is 20,000,000 ÷ f main-clock cycles. -/
def Induction.edge (i : Induction) (k : Nat) : Nat := i.t0 + ceilDiv (k * 20000000) i.f

/-- A new frequency takes over at the first period boundary after it was commanded (R360). -/
def Induction.roll (i : Induction) (now : Nat) : Induction :=
  if i.next ≠ i.f ∧ i.edge 1 ≤ now then { t0 := i.edge 1, f := i.next, next := i.next } else i

/-- A frequency is commanded. -/
def Induction.command (i : Induction) (now f : Nat) : Induction :=
  let i := i.roll now
  if f = i.f then { i with next := f } else { t0 := i.edge ((now - i.t0) * i.f / 20000000), f := i.f, next := f }

/-- The levels of HTR_h_A and HTR_h_B now (Table 17-3): in induction drive each is high in its half of the period but for the dead
time at its start, DT × 10 ns. -/
def State.heaterPins (s : State) (h : Fin 4) : Bool × Bool :=
  let now := s.tsc.toNat
  match (s.heaterOf h).drive with
  | .low => (false, false)
  | .cycle => (true, false)
  | .pulse rise fall => (Nat.ble rise now && Nat.blt now fall, false)
  | .square i =>
    let i := i.roll now
    let m := (now - i.t0) * i.f % 20000000
    let dead := 2 * s.getF (F.IRN_IND_CFG_DT h) * i.f
    (Nat.ble dead m && Nat.blt m 10000000, Nat.ble (10000000 + dead) m)

/-- Is an interlock of a mask open? -/
def State.ilkOpen (s : State) (mask : Nat) : Bool := Nat.land s.brg.ilk.toNat mask != 0

/-- Trip a heater for a cause: its bit in IRN_HTR_STATUS and, for the first cause of a thermistor, its number (R361). (DEDUCED: log 55) -/
def State.heaterTrip (s : State) (h : Fin 4) (cause : Nat) (th : Option Nat) : State :=
  let old := s.flag (F.IRN_HTR_STATUS_TRIP h)
  let named := s.flag (F.IRN_HTR_STATUS_OVER h) || s.flag (F.IRN_HTR_STATUS_RATE h) || s.flag (F.IRN_HTR_STATUS_BROKEN h)
  let s := (s.heaterOff h).putR (R.IRN_HTR_STATUS h) ((s.heaterOff h).getR (R.IRN_HTR_STATUS h) ||| BitVec.ofNat 32 (2 + 2 ^ cause))
  let s := s.updHeater h fun x => { x with tripTick := some s.tick }
  let s := match th with
    | some n => if named then s else s.putF (F.IRN_HTR_STATUS_FIRST h) n
    | none => s
  if old then s else s.incR (R.IRN_HTR_TRIPS h) 1

/-- The thermistors of a heater's protection mask whose flag `f` is set. -/
def State.flagged (s : State) (h : Fin 4) (f : Nat → Fld) : List (Fin 12) :=
  (List.finRange 12).filter fun n => s.bitF (F.IRN_HTR_PROT_MASK h) n && s.flag (f n)

/-- The trips that flags, the driver input and interlocks call for (R361). -/
def State.heaterJudge (s : State) (h : Fin 4) : State :=
  let go := fun (a : State) (f : Nat → Fld) (st : Nat → Fld) (c : Nat) => match a.flagged h f with
    | n :: _ => if a.flag (st h) then a else a.heaterTrip h c (some n.val)
    | [] => a
  let s := go s F.THM_STAT_OVER F.IRN_HTR_STATUS_OVER 2
  let s := go s F.THM_STAT_RATE F.IRN_HTR_STATUS_RATE 3
  let s := go s F.THM_STAT_BROKEN F.IRN_HTR_STATUS_BROKEN 4
  let s := if (s.heaterOf h).fault && s.getF (F.IRN_HTR_CFG_MODE h) == 3 && !s.flag (F.IRN_HTR_STATUS_DRIVER h) then s.heaterTrip h 5 none else s
  if s.ilkOpen (s.getF (F.IRN_HTR_CFG_ILK h)) && !s.flag (F.IRN_HTR_STATUS_ILK h) then s.heaterTrip h 6 none else s

def State.heaterJudgeAll (s : State) : State := s.each (List.finRange 4) State.heaterJudge

/-- Is a cause of a heater trip present? -/
def State.heaterCause (s : State) (h : Fin 4) : Bool :=
  !(s.flagged h F.THM_STAT_OVER).isEmpty || !(s.flagged h F.THM_STAT_RATE).isEmpty || !(s.flagged h F.THM_STAT_BROKEN).isEmpty
    || ((s.heaterOf h).fault && s.getF (F.IRN_HTR_CFG_MODE h) == 3) || s.ilkOpen (s.getF (F.IRN_HTR_CFG_ILK h))

/-- A CLEAR at the tick boundary (R362); a trip in the tick of its write, or since, wins. -/
def State.heaterClear (s : State) (h : Fin 4) (madeAt : Nat) : State :=
  let later := match (s.heaterOf h).tripTick with
    | some t => Nat.ble madeAt t
    | none => false
  if !s.flag (F.IRN_HTR_STATUS_TRIP h) then s
  else if s.heaterCause h then s.refuse (R.IRN_HTR_CTRL h)
  else if later then s
  else (s.putR (R.IRN_HTR_STATUS h) 0#32).updHeater h fun x => { x with acc := 0 }

/-- The demand in force: NaN and negative values count as 0, values above 1 as 1 (R356). -/
def State.heaterCmd (s : State) (h : Fin 4) : F32 :=
  let w := s.getR (R.IRN_HTR_CMD h)
  if F32.isNaN w then F32.zero false else F32.clamp (F32.zero false) F32.one w

/-- May a heater's output be driven: not tripped, not stopped, not in the safe state? -/
def State.heaterLive (s : State) (h : Fin 4) : Bool :=
  !s.flag (F.IRN_HTR_STATUS_TRIP h) && !s.brg.stopped && !s.flag F.BRG_STATUS_DRIVE_SAFE && !s.outputsHeld

/-- Cycles a burst heater has fired in the last second. -/
def State.firedNow (s : State) (h : Fin 4) : List Nat := (s.heaterOf h).fired.filter fun t => Nat.blt s.tsc.toNat (t + 200000000)

/-- The frequency of a command in 10 Hz units: FMAX − cmd × (FMAX − FMIN) (R360). -/
def State.heaterFreq (s : State) (h : Fin 4) : Nat :=
  let lo := s.getF (F.IRN_IND_FREQ_FMIN h)
  let hi := s.getF (F.IRN_IND_FREQ_FMAX h)
  (F32.toInt (F32.sub (F32.ofNat hi) (F32.mul (s.heaterCmd h) (F32.ofInt ((hi : Int) - lo))))).toNat

/-- A heater at a tick boundary: what another mode drove ends (R355), the count of a burst heater, induction drive (R360). (DEDUCED: log 55) -/
def State.heaterTick (s : State) (h : Fin 4) : State :=
  match s.getF (F.IRN_HTR_CFG_MODE h), (s.heaterOf h).drive with
  | 1, .pulse .. | 1, .square _ | 2, .cycle | 2, .square _ => s.heaterOff h
  | 1, _ => s.putR (R.IRN_HTR_APPLIED h) (BitVec.ofNat 32 (s.firedNow h).length)
  | 2, _ => s
  | 3, d =>
    if !s.heaterLive h || F32.lt (s.heaterCmd h) (F32.ofRat (s.getF (F.IRN_IND_CFG_MIN h)) 256) then s.heaterOff h
    else
      let f := s.heaterFreq h
      let now := s.tsc.toNat
      let i := match d with
        | .square i => i.command now f
        | _ => { t0 := now, f := f, next := f }
      (s.heaterDrive h (.square i)).putR (R.IRN_HTR_APPLIED h) (BitVec.ofNat 32 i.f)
  | _, _ => s.heaterOff h

/-! ## The firing angle (R359) -/

/-- 1 − α/π + sin 2α ÷ (2π) at α = a ÷ 65,536 of π, in units of 2^-64. -/
def phasePower (a : Nat) : Int := Fix.unit - Fix.unit * a / 65536 + Fix.div (Fix.sinTurns a 65536) (2 * Fix.pi)

/-- Does an angle give the command to within 0.005? -/
def phaseNear (c : F32) (a : Nat) : Bool := decide (200 * (phasePower a - F32.fix c).natAbs ≤ Fix.unit.natAbs)

/-- The greatest angle whose power reaches the command, bit by bit from bit `k - 1`. -/
def phaseSearch (c : Int) : Nat → Nat → Nat
  | 0, a => a
  | k + 1, a => phaseSearch c k (if c ≤ phasePower (a + 2 ^ k) then a + 2 ^ k else a)

/-- α of a command in 1/65,536 half-cycle: which angle within the tolerance the part computes is left open. -/
def phaseAngle (c : F32) : Nat :=
  let a := (Config.phaseAngle c).toNat
  if phaseNear c a then a else phaseSearch (F32.fix c) 16 0

/-! ## Thermistors (R348–R351) -/

/-- 1 ÷ T of R348 in units of 2^-64, from R = pull-up × code ÷ (16,383 − code). -/
def thermInverse (rpu : Nat) (a b c : F32) (code : Nat) : Int :=
  let l := Fix.ln ([1000, 10000, 100000].getD rpu 100000 * code) (16383 - code)
  F32.fix a + Fix.mul (F32.fix b) l + Fix.mul (F32.fix c) (Fix.mul l (Fix.mul l l))

/-- 16 × the temperature of R348 in °C, in units of 2^-64; none where the equation gives no positive temperature. -/
def thermExact (rpu : Nat) (a b c : F32) (code : Nat) : Option Int :=
  let i := thermInverse rpu a b c code
  if F32.isFinite a && F32.isFinite b && F32.isFinite c && decide (0 < i) then some (16 * Fix.unit * Fix.unit / i - 43704 * Fix.unit / 10) else none

/-- Temperature in 1/16 °C from a thermistor's code: which reading within 0.1 °C of the equation the part computes is left open, and
so is the reading where the equation gives none that THM_TEMP can hold. -/
def thermTemp (rpu : Nat) (a b c : F32) (code : Nat) : BitVec 16 :=
  let x := Config.thermTemp rpu a b c code
  match thermExact rpu a b c code with
  | none => x
  | some t =>
    let r := (t + Fix.unit / 2) / Fix.unit
    if 10 * (x.toInt * Fix.unit - t).natAbs ≤ 16 * Fix.unit.natAbs ∨ r < -32768 ∨ 32767 < r then x else BitVec.ofInt 16 r

/-- The THERMISTOR reason of Mend status clears when no enabled thermistor is broken (R350); after a boot it is kept until
the boot has ended and every thermistor then enabled has taken 3 samples (R475). -/
def State.mendTherm (s : State) : State :=
  let up := s.heat.thermUp || (s.bootEnded
    && (List.finRange 12).all fun n => !s.flag (F.THM_CFG_EN n) || Nat.ble 3 (s.thermOf n).taken)
  let s := { s with heat := { s.heat with thermUp := up } }
  if up && s.bitF F.EVT_MEND_REASONS 5 && !((List.range 12).any fun m => s.flag (F.THM_CFG_EN m) && s.flag (F.THM_STAT_BROKEN m)) then
    s.clearMend 5
  else s

/-- A write of THM_STAT: flags clear only while the thermistor is good and at least 5 °C below LEVEL (R351). -/
def State.thermClear (s : State) (n : Fin 12) (w : Word) : State :=
  let below := decide (signed 16 (s.getF (F.THM_TEMP n)) + 80 ≤ signed 16 (s.getF (F.THM_LIM_LEVEL n)))
  if w &&& 6#32 = 0#32 then s
  else if below && !s.flag (F.THM_STAT_BROKEN n) then
    let s := s.updTherm n fun x => { x with
      hot := if w.getLsbD 1 then 0 else x.hot
      rate := if w.getLsbD 2 then 0 else x.rate }
    s.clearBits (R.THM_STAT n) (w &&& 6#32)
  else s.refuse (R.THM_STAT n)

/-- An engine reset clears the trips whose causes are absent, with the flags R351 would allow to clear (R363). -/
def State.heatReset (s : State) : State :=
  let s := s.each (List.finRange 12) fun a n =>
    let below := decide (signed 16 (a.getF (F.THM_TEMP n)) + 80 ≤ signed 16 (a.getF (F.THM_LIM_LEVEL n)))
    if below && !a.flag (F.THM_STAT_BROKEN n) then
      ((a.updTherm n fun x => { x with hot := 0, rate := 0 }).putF (F.THM_STAT_OVER n) 0).putF (F.THM_STAT_RATE n) 0
    else a
  s.each (List.finRange 4) fun a h =>
    let a := a.putR (R.IRN_HTR_CMD h) 0#32
    if a.flag (F.IRN_HTR_STATUS_TRIP h) && !a.heaterCause h then (a.putR (R.IRN_HTR_STATUS h) 0#32).updHeater h fun x => { x with acc := 0 } else a

/-! ## Bands (R353, R354) -/

/-- The latest reading of a temperature source, and whether it is broken or not available. -/
def State.tempOf (s : State) (src : Nat) : Int × Bool × Bool :=
  let img := fun off => SMap.get resetWord s.up off
  if src < 12 then (signed 16 (bits (img (R.THM_TEMP src)) 0 16), (img (R.THM_STAT src)).getLsbD 0, false)
  else if src < 20 then (signed 16 (s.getF (F.THM_TEMP src)), false, false)
  else if src < 24 then (signed 16 (bits (img (R.THM_TEMP src)) 0 16), false, false)
  else (signed 16 (s.getF (F.EXL_HEAD_TEMP (src - 24))), false, s.getF (F.EXL_STATUS_STATE (src - 24)) != 5)

/-- The band of a reading, from the present band (R353). -/
def bandStep (b : Nat) (t c0 c1 c2 hys : Int) : Nat :=
  let up := if c2 ≤ t then 3 else if c1 ≤ t then 2 else if c0 ≤ t then 1 else 0
  let keep := fun (i : Nat) (c : Int) => decide (i ≤ b) && !decide (t < c - hys)
  let dn := if keep 3 c2 then 3 else if keep 2 c1 then 2 else if keep 1 c0 then 1 else 0
  max up dn

/-- Evaluate one selector at a tick boundary. -/
def State.bandTick (s : State) (j : Nat) : State :=
  let old := s.getF (F.THM_BAND_STAT_BAND j)
  let put := fun (a : State) (b : Nat) => if b = old then a else ((a.putF (F.THM_BAND_STAT_BAND j) b).fire 0x0B j).raise Ev.THM_BAND j
  if s.flag (F.THM_BAND_CFG_EN j) then
    let r := s.tempOf (s.getF (F.THM_BAND_CFG_SRC j))
    let s := (s.putB (F.THM_BAND_STAT_BROKEN j) r.2.1).putB (F.THM_BAND_STAT_HELD j) r.2.2
    if r.2.2 then s
    else if r.2.1 then put s 3
    else put s (bandStep old r.1 (signed 16 (s.getF (F.THM_BAND_CUT01_CUT_0 j))) (signed 16 (s.getF (F.THM_BAND_CUT01_CUT_1 j)))
      (signed 16 (s.getF (F.THM_BAND_CUT2_CUT_2 j))) (s.getF (F.THM_BAND_CUT2_HYS j)))
  else put ((s.putF (F.THM_BAND_STAT_BROKEN j) 0).putF (F.THM_BAND_STAT_HELD j) 0) 0

/-- MEM_STATUS.REFRESH follows the DRAM band: faster at once, slower after 1,000 ticks (Table 17-2). -/
def State.refreshTick (s : State) : State :=
  let b := if s.flag F.THM_DRAM_EN then s.getF (F.THM_BAND_STAT_BAND (s.getF F.THM_DRAM_SEL)) else 0
  let want := if s.flag F.THM_DRAM_EN then bits (s.getR R.THM_DRAM) (8 + 2 * b) 2 else 0
  let now := s.getF F.MEM_STATUS_REFRESH
  let since := fun (x : Option (Nat × Nat)) => { s with heat := { s.heat with slowSince := x } }
  if now ≤ want then (since none).putF F.MEM_STATUS_REFRESH want
  else
    match s.heat.slowSince with
    | none => since (some (s.tick, b))
    | some (t, k) =>
      if k ≠ b then since (some (s.tick, b))
      else if t + 1000 ≤ s.tick then (since none).putF F.MEM_STATUS_REFRESH want
      else s

/-- A reading of on-die sensor `k` (source 12 + k) (R352). -/
def State.dieTemp (s : State) (k : Fin 12) (t : BitVec 16) : State :=
  let s := s.putF (F.THM_TEMP (12 + k)) t.toNat
  let w := signed 16 (s.getF F.THM_DIE)
  let put := fun (a : State) (b : Bool) => { a with heat := { a.heat with warned := a.heat.warned.set k b } }
  if w ≤ t.toInt then (if s.heat.warned[k] then s else (put s true).raise Ev.THM_DIE_WARN (12 + k))
  else if t.toInt ≤ w - 80 then put s false
  else s

/-! ## High voltage (R364–R369) -/

def State.hvState (s : State) (c : Nat) : Nat := s.getF (F.HVS_STATUS_STATE c)

/-- The output goes low. -/
def State.hvLow (s : State) (c : Fin 24) : State :=
  (((s.putF (F.HVS_STATUS_DUTY c) 0).putF (F.HVS_STATUS_DCLAMP c) 0).putF (F.HVS_STATUS_ACLAMP c) 0).updHv c fun x => { x with on := false }

/-- Every HV output goes low, the channels as they are (R17). -/
def State.hvAllLow (s : State) : State := s.each (List.finRange 24) State.hvLow

/-- Trip a channel (R367): cause 1 MON, 2 AUX, 3 ILK. (DEDUCED: log 56) -/
def State.hvTripNow (s : State) (c : Fin 24) (cause : Nat) : State :=
  if s.hvState c = 4 then s
  else
    let s := ((s.hvLow c).putF (F.HVS_STATUS_STATE c) 4).putF (F.HVS_STATUS_CAUSE c) cause
    let s := (s.putF (F.HVS_STATUS_PENDING_ENABLE c) 0).updHv c fun _ => {}
    (s.incR (R.HVS_TRIPS c) 1).raise Ev.HVS_TRIP c

/-- Is |MON|, or |AUX|, above its trip level (R367)? -/
def State.monOver (s : State) (c : Nat) : Bool := F32.lt (s.getR (R.HVS_TRIP_MON c)) (F32.abs (s.getR (R.HVS_MON c)))

def State.auxOver (s : State) (c : Nat) : Bool :=
  s.getF (F.HVS_CFG_AUX c) != 63 && F32.lt (s.getR (R.HVS_TRIP_AUX c)) (F32.abs (s.getR (R.HVS_AUX c)))

/-- The cause present: an interlock open, |MON| or |AUX| above its level. -/
def State.hvCause (s : State) (c : Nat) : Nat :=
  if s.ilkOpen (s.getF (F.HVS_CFG_ILK c)) then 3 else if s.monOver c then 1 else if s.auxOver c then 2 else 0

/-- Begin from OFF, with the set-point in use at 0 (R368). -/
def State.hvStart (s : State) (c : Fin 24) : State := (s.putF (F.HVS_STATUS_STATE c) 1).updHv c fun _ => {}

/-- A write of HVS_CTRL takes effect (R367, R368). -/
def State.hvCtrl (s : State) (c : Fin 24) (w : Word) : State :=
  let en := w.getLsbD 0
  let dis := w.getLsbD 1
  let st := s.hvState c
  let s :=
    if en && !dis then
      if st = 0 then s.hvStart c
      else if st = 3 then s.putF (F.HVS_STATUS_PENDING_ENABLE c) 1
      else s
    else if dis && !en then
      if st = 3 then s.putF (F.HVS_STATUS_PENDING_ENABLE c) 0
      else if st = 1 ∨ st = 2 then s.putF (F.HVS_STATUS_STATE c) 3
      else s.updHv c fun x => { x with startAt := none }
    else s
  if w.getLsbD 2 && s.hvState c == 4 && s.hvCause c == 0 then
    (s.putF (F.HVS_STATUS_STATE c) 0).putF (F.HVS_STATUS_CAUSE c) 0
  else s

/-- The set-point in use one period of `ms` milliseconds later. -/
def State.hvRamp (s : State) (c : Fin 24) (ms : F32) : F32 :=
  let x := (s.hvOf c).setp
  let z := F32.zero false
  let goal := if s.hvState c = 3 then z else s.getR (R.HVS_SET c)
  let cross := (F32.lt x z && F32.lt z goal) || (F32.lt z x && F32.lt goal z)
  let goal := if cross then z else goal
  let rises := F32.lt (F32.abs x) (F32.abs goal)
  let step := match (s.hvOf c).resetStep with
    | some d => F32.mul d ms
    | none => F32.mul (s.getR (if rises then R.HVS_RAMP_UP c else R.HVS_RAMP_DN c)) ms
  if F32.lt x goal then (if F32.le (F32.sub goal x) step then goal else F32.add x step)
  else if F32.lt goal x then (if F32.le (F32.sub x goal) step then goal else F32.sub x step)
  else goal

/-- The conversions of MON and of AUX, scaled; an AUX of 0x3F names none (Table 17-9). -/
def State.hvMeasure (s : State) (c : Fin 24) (mon aux : BitVec 14) : State :=
  let s := s.putR (R.HVS_MON c) (F32.mul (F32.ofNat mon.toNat) (s.getR (R.HVS_SCALE c)))
  if s.getF (F.HVS_CFG_AUX c) = 63 then s
  else s.putR (R.HVS_AUX c) (F32.mul (F32.ofNat aux.toNat) (s.getR (R.HVS_ASCALE c)))

/-- Is a channel running, in RAMP_UP, REGULATING or RAMP_DOWN? -/
def State.hvRuns (s : State) (c : Nat) : Bool := Nat.ble 1 (s.hvState c) && Nat.ble (s.hvState c) 3

/-- The trips of a running channel, each level judged by its own run of regulator periods (R367). -/
def State.hvJudge (s : State) (c : Fin 24) : State :=
  let s := s.updHv c fun x => { x with
    hotMon := if s.monOver c then x.hotMon + 1 else 0
    hotAux := if s.auxOver c then x.hotAux + 1 else 0 }
  if s.ilkOpen (s.getF (F.HVS_CFG_ILK c)) then s.hvTripNow c 3
  else if 3 ≤ (s.hvOf c).hotMon then s.hvTripNow c 1
  else if 3 ≤ (s.hvOf c).hotAux then s.hvTripNow c 2
  else s

/-- DMAX of a channel. -/
def State.hvDmax (s : State) (c : Nat) : F32 := F32.ofRat (s.getF (F.HVS_DLIM c)) 65536

/-- The DC duty `d` is applied, or the output held low (R17) or OFF. -/
def State.hvDuty (s : State) (c : Fin 24) (d : F32) : State :=
  if !s.vanaGood || s.outputsHeld || s.getF (F.HVS_CFG_MODE c) == 0 then s.hvLow c
  else
    (s.updHv c fun x => { x with duty := d, on := true }).putF (F.HVS_STATUS_DUTY c)
      (F32.clampInt 0 65535 (F32.toInt (F32.mul d (F32.ofNat 65536)))).toNat

/-- The duty of the PWM period that begins at TSC `t`, in units of 2^-64: d, or d + d_ac·sin(2π·f·t) with AC = 1 (R366). -/
def State.hvDutyAt (s : State) (c : Fin 24) (t : Nat) : Int :=
  let x := s.hvOf c
  F32.fix x.duty + (if s.flag (F.HVS_CFG_AC c) then Fix.mul (F32.fix x.dac) (Fix.sinTurns (s.getF (F.HVS_AC_FREQ c) * t : Nat) 200000000) else 0)

/-- The level of HV_cc_PWM now: high from the start of each period of HVS_PERIOD × 10 ns, for the duty of the period in steps of 10 ns
(R364). -/
def State.hvPin (s : State) (c : Fin 24) : Bool :=
  let p := s.getF F.HVS_PERIOD_PERIOD
  let at_ := s.tsc.toNat / 2 % p
  let d := s.hvDutyAt c (s.tsc.toNat - s.tsc.toNat % (2 * p))
  (s.hvOf c).on && decide (((at_ : Int) + 1) * Fix.unit ≤ d * p + Fix.unit / 2)

/-- One run of the DC regulator of a running channel over `secs` seconds (`ms` milliseconds) (R364, R365). -/
def State.hvRegulate (s : State) (c : Fin 24) (secs ms : F32) : State :=
  let sp := s.hvRamp c ms
  let s := s.updHv c fun x => { x with setp := sp }
  let s := if s.hvState c = 1 && F32.eq sp (s.getR (R.HVS_SET c)) then s.putF (F.HVS_STATUS_STATE c) 2 else s
  let z := F32.zero false
  if s.getF (F.HVS_CFG_MODE c) ≤ 1 then (s.putF (F.HVS_STATUS_DCLAMP c) 0).hvDuty c (F32.clamp z (s.hvDmax c) sp)
  else
    let e := F32.sub sp (s.getR (R.HVS_MON c))
    let x := s.hvOf c
    let raw := F32.add (F32.mul (s.getR (R.HVS_KP c)) e) x.int
    let held := (F32.le (s.hvDmax c) raw && F32.lt z e) || (F32.le raw z && F32.lt e z)
    let int := if held then x.int else F32.add x.int (F32.mul (F32.mul (s.getR (R.HVS_KI c)) e) secs)
    ((s.updHv c fun y => { y with int := int }).putB (F.HVS_STATUS_DCLAMP c) held).hvDuty c (F32.clamp z (s.hvDmax c) raw)

/-- A run of the regulator: measure, judge, and regulate while the channel runs. -/
def State.hvRun (s : State) (c : Fin 24) (mon aux : BitVec 14) (secs ms : F32) : State :=
  let s := s.hvMeasure c mon aux
  if s.hvRuns c then
    let s := s.hvJudge c
    if s.hvRuns c then s.hvRegulate c secs ms else s
  else s

/-- The AC amplitude loop, once per AC cycle, before the DC regulator (R366). -/
def State.hvAcLoop (s : State) (c : Fin 24) : State :=
  let d := (s.hvOf c).duty
  let room := F32.fmin d (F32.sub (s.hvDmax c) d)
  let e := F32.sub (s.getR (R.HVS_AC_SET c)) (s.getR (R.HVS_AC_MEAS c))
  let want := F32.add (s.hvOf c).dac (F32.mul (s.getR (R.HVS_AC_KI c)) e)
  let v := F32.clamp (F32.neg room) room want
  (s.updHv c fun x => { x with dac := v }).putB (F.HVS_STATUS_ACLAMP c) (!F32.eq v want)

/-- An engine reset clears TRIPPED where the cause is absent (R369). -/
def State.hvReset (s : State) : State :=
  s.each (List.finRange 24) fun a c =>
    if a.hvState c = 4 ∧ a.hvCause c = 0 then (a.putF (F.HVS_STATUS_STATE c) 0).putF (F.HVS_STATUS_CAUSE c) 0 else a

/-- Engine reset acceptance: every running channel ramps to 0 in 4 ms, and TRIPPED clears (R369). -/
def State.hvResetRamp (s : State) : State :=
  s.hvReset.each (List.finRange 24) fun a c =>
    let st := a.hvState c
    let a := a.putF (F.HVS_STATUS_PENDING_ENABLE c) 0
    if st = 0 ∨ st = 4 then a.updHv c fun x => { x with startAt := none }
    else (a.putF (F.HVS_STATUS_STATE c) 3).updHv c fun x => { x with resetStep := some (F32.div (F32.abs x.setp) (F32.ofNat 4)) }

/-- Every output low at once; running channels are off (R23, R369). -/
def State.hvAllOff (s : State) : State :=
  s.each (List.finRange 24) fun a c =>
    let a := (a.hvLow c).updHv c fun _ => {}
    if a.hvState c = 4 then a else (a.putF (F.HVS_STATUS_STATE c) 0).putF (F.HVS_STATUS_PENDING_ENABLE c) 0

end Sys2Proof.Machine
end

