-- ==== Sys2Proof/Machine/Crypto.lean ====
section
/-! DEFINITION. Machine/Crypto.lean: the algorithms R386 names, from their public standards: SHA-256 (FIPS 180-4), ECDSA on
NIST P-256 (FIPS 186), AES-256 in Galois/counter mode (FIPS 197, SP 800-38D) for additional data alone. -/

namespace Sys2Proof.Machine.Crypto

/-- The number whose big-endian bytes these are. -/
def ofBeBytes (l : List Byte) : Nat := l.foldl (fun n b => 256 * n + b.toNat) 0

/-- Big-endian bytes of a number, `n` of them. -/
def beBytes (n v : Nat) : List Byte := (leBytes n v).reverse

/-! ## SHA-256 -/

/-- The round constants, for rounds 0 to 31. -/
def roundA : List Nat :=
  [0x428a2f98, 0x71374491, 0xb5c0fbcf, 0xe9b5dba5, 0x3956c25b, 0x59f111f1, 0x923f82a4, 0xab1c5ed5,
   0xd807aa98, 0x12835b01, 0x243185be, 0x550c7dc3, 0x72be5d74, 0x80deb1fe, 0x9bdc06a7, 0xc19bf174,
   0xe49b69c1, 0xefbe4786, 0x0fc19dc6, 0x240ca1cc, 0x2de92c6f, 0x4a7484aa, 0x5cb0a9dc, 0x76f988da,
   0x983e5152, 0xa831c66d, 0xb00327c8, 0xbf597fc7, 0xc6e00bf3, 0xd5a79147, 0x06ca6351, 0x14292967]

/-- The round constants, for rounds 32 to 63. -/
def roundB : List Nat :=
  [0x27b70a85, 0x2e1b2138, 0x4d2c6dfc, 0x53380d13, 0x650a7354, 0x766a0abb, 0x81c2c92e, 0x92722c85,
   0xa2bfe8a1, 0xa81a664b, 0xc24b8b70, 0xc76c51a3, 0xd192e819, 0xd6990624, 0xf40e3585, 0x106aa070,
   0x19a4c116, 0x1e376c08, 0x2748774c, 0x34b0bcb5, 0x391c0cb3, 0x4ed8aa4a, 0x5b9cca4f, 0x682e6ff3,
   0x748f82ee, 0x78a5636f, 0x84c87814, 0x8cc70208, 0x90befffa, 0xa4506ceb, 0xbef9a3f7, 0xc67178f2]

/-- The initial hash value. -/
def hash0 : List Word :=
  [0x6a09e667, 0xbb67ae85, 0x3c6ef372, 0xa54ff53a, 0x510e527f, 0x9b05688c, 0x1f83d9ab, 0x5be0cd19].map (BitVec.ofNat 32)

/-- The message followed by a 1 bit, zeros and its length in bits, in whole blocks of 64 bytes. -/
def padded (m : List Byte) : List Byte :=
  let n := m.length
  m ++ [0x80#8] ++ List.replicate ((119 - n % 64) % 64) 0#8 ++ beBytes 8 (8 * n)

/-- A list cut into pieces of `n`, `k` of them. -/
def pieces {α : Type} (n : Nat) : Nat → List α → List (List α)
  | 0, _ => []
  | k + 1, l => l.take n :: pieces n k (l.drop n)

def sigma0 (x : Word) : Word := x.rotateRight 7 ^^^ x.rotateRight 18 ^^^ x >>> 3
def sigma1 (x : Word) : Word := x.rotateRight 17 ^^^ x.rotateRight 19 ^^^ x >>> 10
def bigSigma0 (x : Word) : Word := x.rotateRight 2 ^^^ x.rotateRight 13 ^^^ x.rotateRight 22
def bigSigma1 (x : Word) : Word := x.rotateRight 6 ^^^ x.rotateRight 11 ^^^ x.rotateRight 25

/-- The next word of the message schedule, from the 16 before it, the latest first. -/
def scheduleStep (l : List Word) : List Word :=
  (sigma1 (l.getD 1 0#32) + l.getD 6 0#32 + sigma0 (l.getD 14 0#32) + l.getD 15 0#32) :: l

/-- The 64 words of the message schedule of a block. -/
def schedule (block : List Byte) : List Word :=
  let w := (pieces 4 16 block).map fun b => BitVec.ofNat 32 (ofBeBytes b)
  ((List.range 48).foldl (fun l _ => scheduleStep l) w.reverse).reverse

/-- One round on the working variables a to h. -/
def shaRound (v : List Word) (kw : Nat × Word) : List Word :=
  match v with
  | [a, b, c, d, e, f, g, h] =>
    let t1 := h + bigSigma1 e + ((e &&& f) ^^^ (~~~e &&& g)) + BitVec.ofNat 32 kw.1 + kw.2
    let t2 := bigSigma0 a + ((a &&& b) ^^^ (a &&& c) ^^^ (b &&& c))
    [t1 + t2, a, b, c, d + t1, e, f, g]
  | _ => v

/-- The hash value after one more block. -/
def shaBlock (h : List Word) (block : List Byte) : List Word :=
  List.zipWith (· + ·) h (((roundA ++ roundB).zip (schedule block)).foldl shaRound h)

/-- The 32 bytes of the hash of a byte string. -/
def shaBytes (m : List Byte) : List Byte :=
  let p := padded m
  ((pieces 64 (p.length / 64) p).foldl shaBlock hash0).flatMap fun w => beBytes 4 w.toNat

/-- The hash as a number whose bits [7:0] are its first byte. (PRESUMED: log 89) -/
def sha256 (m : List Byte) : BitVec 256 := BitVec.ofNat 256 (ofLeBytes (shaBytes m))

/-! ## ECDSA on P-256 -/

/-- The field prime, the order of the base point, the curve coefficient b, and the base point. -/
def fieldP : Nat := 0xffffffff00000001000000000000000000000000ffffffffffffffffffffffff
def orderN : Nat := 0xffffffff00000000ffffffffffffffffbce6faada7179e84f3b9cac2fc632551
def curveB : Nat := 0x5ac635d8aa3a93e7b3ebbd55769886bc651d06b0cc53b0f63bce3c3e27d2604b
def baseX : Nat := 0x6b17d1f2e12c4247f8bce6e563a440f277037d812deb33a0f4a13945d898c296
def baseY : Nat := 0x4fe342e2fe1a7f9b8ee7eb4a7c0f9e162bce33576b315ececbb6406837bf51f5

/-- a^e mod m, over the low `k` bits of e. -/
def powMod (m a : Nat) : Nat → Nat → Nat
  | 0, _ => 1
  | k + 1, e =>
    let h := powMod m a k (e / 2)
    if e % 2 = 1 then h * h % m * a % m else h * h % m

/-- The inverse of a modulo a prime. -/
def invMod (m a : Nat) : Nat := powMod m (a % m) 256 (m - 2)

/-- A point in Jacobian coordinates: (x / z², y / z³), or the point at infinity where z = 0. -/
structure Point where
  x : Nat
  y : Nat
  z : Nat
  deriving DecidableEq, Repr

def infinity : Point := { x := 1, y := 1, z := 0 }
def basePoint : Point := { x := baseX, y := baseY, z := 1 }

/-- Field subtraction. -/
def subF (a b : Nat) : Nat := (a + fieldP - b % fieldP) % fieldP

/-- Twice a point. -/
def Point.double (p : Point) : Point :=
  let yy := p.y * p.y % fieldP
  let zz := p.z * p.z % fieldP
  let s := 4 * p.x * yy % fieldP
  let m := 3 * subF p.x zz * (p.x + zz) % fieldP
  let x := subF (m * m) (2 * s)
  { x := x, y := subF (m * subF s x) (8 * yy * yy), z := 2 * p.y * p.z % fieldP }

/-- The sum of two points. -/
def Point.plus (p q : Point) : Point :=
  if p.z = 0 then q
  else if q.z = 0 then p
  else
    let pz := p.z * p.z % fieldP
    let qz := q.z * q.z % fieldP
    let u := p.x * qz % fieldP
    let v := q.x * pz % fieldP
    let s := p.y * qz % fieldP * q.z % fieldP
    let t := q.y * pz % fieldP * p.z % fieldP
    if u = v then (if s = t then p.double else infinity)
    else
      let h := subF v u
      let r := subF t s
      let hh := h * h % fieldP
      let hhh := h * hh % fieldP
      let w := u * hh % fieldP
      let x := subF (r * r) (hhh + 2 * w)
      { x := x, y := subF (r * subF w x) (s * hhh), z := h * p.z % fieldP * q.z % fieldP }

/-- k times a point, over the low `n` bits of k. -/
def Point.times (p : Point) : Nat → Nat → Point
  | 0, _ => infinity
  | n + 1, k =>
    let h := (p.times n (k / 2)).double
    if k % 2 = 1 then h.plus p else h

/-- The x and y of a point that is not at infinity. -/
def Point.affine (p : Point) : Nat × Nat :=
  let i := invMod fieldP p.z
  let ii := i * i % fieldP
  (p.x * ii % fieldP, p.y * ii % fieldP * i % fieldP)

/-- Is (x, y) on the curve? -/
def onCurve (x y : Nat) : Bool :=
  Nat.blt x fieldP && Nat.blt y fieldP
    && y * y % fieldP == (x * x % fieldP * x + (fieldP - 3) * x + curveB) % fieldP

/-- A random number as a private key or a nonce, 1 to n − 1. (PRESUMED: log 89) -/
def scalarOf (v : BitVec 256) : Nat := v.toNat % (orderN - 1) + 1

/-- The public key of a private key: x followed by y, big-endian. (PRESUMED: log 89) -/
def ecdsaPub (d : BitVec 256) : List Byte :=
  let q := (basePoint.times 256 (scalarOf d)).affine
  beBytes 32 q.1 ++ beBytes 32 q.2

/-- The hash as the integer that is signed. -/
def hashInt (h : BitVec 256) : Nat := ofBeBytes (leBytes 32 h.toNat)

/-- The signature of a hash under a private key and a nonce: r followed by s, big-endian. (PRESUMED: log 89) -/
def ecdsaSign (d nonce h : BitVec 256) : List Byte :=
  let k := scalarOf nonce
  let r := (basePoint.times 256 k).affine.1 % orderN
  let s := invMod orderN k * (hashInt h + r * scalarOf d) % orderN
  beBytes 32 r ++ beBytes 32 s

/-- Verification of a signature over a hash: r or s outside 1 to n − 1, and a key that is not on the curve, are rejected (R386). (PRESUMED: log 89) -/
def ecdsaVerify (key : List Byte) (h : BitVec 256) (sig : List Byte) : Bool :=
  let x := ofBeBytes (key.take 32)
  let y := ofBeBytes (key.drop 32)
  let r := ofBeBytes (sig.take 32)
  let s := ofBeBytes (sig.drop 32)
  let inRange := fun v => Nat.ble 1 v && Nat.blt v orderN
  key.length == 64 && sig.length == 64 && onCurve x y && inRange r && inRange s
    && (let w := invMod orderN s
        let p := (basePoint.times 256 (hashInt h * w % orderN)).plus ({ x := x, y := y, z := 1 : Point }.times 256 (r * w % orderN))
        p.z % fieldP != 0 && p.affine.1 % orderN == r)

/-! ## AES-256-GCM -/

/-- Multiplication by x in GF(2^8). -/
def xtime (a : Byte) : Byte := if a.getLsbD 7 then a <<< 1 ^^^ 0x1B#8 else a <<< 1

/-- Product in GF(2^8), over the low `k` bits of b. -/
def gmul (a b : Byte) : Nat → Byte
  | 0 => 0#8
  | k + 1 => xtime (gmul a b k) ^^^ (if b.getLsbD (7 - k) then a else 0#8)

def gm (a b : Byte) : Byte := gmul a b 8

/-- The S-box: the inverse a^254, then the affine map. -/
def subByte (a : Byte) : Byte :=
  let a2 := gm a a
  let a3 := gm a2 a
  let a12 := (let q := gm a3 a3; gm q q)
  let a15 := gm a12 a3
  let a240 := (List.range 4).foldl (fun v _ => gm v v) a15
  let i := gm (gm a240 a12) a2
  i ^^^ i.rotateLeft 1 ^^^ i.rotateLeft 2 ^^^ i.rotateLeft 3 ^^^ i.rotateLeft 4 ^^^ 0x63#8

def xorBytes (a b : List Byte) : List Byte := List.zipWith (· ^^^ ·) a b

/-- One more word of the key schedule, the latest of `l` first; `i` is its number. -/
def keyStep (l : List (List Byte)) (i : Nat) : List (List Byte) :=
  let t := l.headD []
  let rcon := (List.range (i / 8 - 1)).foldl (fun v _ => xtime v) 1#8
  let u := if i % 8 = 0 then xorBytes ((t.drop 1 ++ t.take 1).map subByte) [rcon, 0#8, 0#8, 0#8]
    else if i % 8 = 4 then t.map subByte else t
  xorBytes (l.getD 7 []) u :: l

/-- The 15 round keys of 16 bytes. -/
def roundKeys (key : List Byte) : List (List Byte) :=
  let w := ((List.range 52).foldl (fun l i => keyStep l (i + 8)) (pieces 4 8 key).reverse).reverse
  pieces 16 15 w.flatten

/-- Row r of the state moves left by r; the state is held by columns. -/
def shiftRows (b : List Byte) : List Byte :=
  (List.range 16).map fun i => b.getD ((i + 4 * (i % 4)) % 16) 0#8

def mixColumn (c : List Byte) : List Byte :=
  let a := fun (i : Nat) => c.getD (i % 4) 0#8
  (List.range 4).map fun i => xtime (a i) ^^^ (xtime (a (i + 1)) ^^^ a (i + 1)) ^^^ a (i + 2) ^^^ a (i + 3)

/-- The cipher on one block of 16 bytes. (PRESUMED: log 89) -/
def aesBlock (key b : List Byte) : List Byte :=
  let ks := roundKeys key
  let s0 := xorBytes b (ks.getD 0 [])
  let s := (List.range 13).foldl (fun st i =>
    xorBytes ((pieces 4 4 (shiftRows (st.map subByte))).flatMap mixColumn) (ks.getD (i + 1) [])) s0
  xorBytes (shiftRows (s.map subByte)) (ks.getD 14 [])

/-- Product in GF(2^128) of Galois/counter mode: the first bit of a block is the coefficient of x^0. -/
def ghashMul (x y : BitVec 128) : BitVec 128 :=
  ((List.range 128).foldl (fun (a : BitVec 128 × BitVec 128) i =>
    (if x.getLsbD (127 - i) then a.1 ^^^ a.2 else a.1,
     if a.2.getLsbD 0 then a.2 >>> 1 ^^^ 0xE1000000000000000000000000000000#128 else a.2 >>> 1)) (0#128, y)).1

def blockOf (l : List Byte) : BitVec 128 := BitVec.ofNat 128 (ofBeBytes (l ++ List.replicate (16 - l.length) 0#8))

/-- The tag of an empty plaintext under a 32-byte key, an IV of 12 bytes and additional data (R396), in its 16 bytes. (PRESUMED: log 89) -/
def gcmTag (key iv aad : List Byte) : List Byte :=
  let h := blockOf (aesBlock key (List.replicate 16 0#8))
  let bs := (pieces 16 ((aad.length + 15) / 16) aad).map blockOf ++ [blockOf (beBytes 8 (8 * aad.length) ++ beBytes 8 0)]
  let g := bs.foldl (fun y b => ghashMul (y ^^^ b) h) 0#128
  xorBytes (aesBlock key (iv ++ [0#8, 0#8, 0#8, 1#8])) (beBytes 16 g.toNat)

end Sys2Proof.Machine.Crypto
end

