-- ==== Sys2Proof/Machine/OpsChn.lean ====
section
/-! DEFINITION. Machine/OpsChn.lean: CoeneLink (chapter 22): message queues and frames (R429, R430), enumeration (R431),
alignment (R432, R433), handover (R434–R438), alarms and coordinated stop (R439, R440), port loss (R441); and entry to
FAULT, which the chain reports. -/

namespace Sys2Proof.Machine

def State.cport (s : State) (p : Fin 2) : ChnPort := s.chn.port[p]

def State.updPort (s : State) (p : Fin 2) (f : ChnPort → ChnPort) : State :=
  { s with chn := { s.chn with port := s.chn.port.set p (f s.chn.port[p]) } }

/-- The other port. -/
def otherPort (p : Fin 2) : Fin 2 := if p = 0 then 1 else 0

def State.chnUp (s : State) (p : Fin 2) : Bool := s.getF (F.CHN_PORT_STATUS_STATE p) == 2

def State.chnAddr (s : State) : BitVec 4 := BitVec.ofNat 4 (s.getF F.CHN_STATUS_ADDR)

def bodyOf (l : List Byte) : Vector Byte 14 := Vector.ofFn fun (i : Fin 14) => l.getD i 0#8

/-- A 32-bit field of a message, at an offset in its content. -/
def msgWord (m : ChnMsg) (i : Nat) : Word := BitVec.ofNat 32 (ofLeBytes ((m.body.toList.drop i).take 4))

def msgByte (m : ChnMsg) (i : Nat) : Byte := m.body.toList.getD i 0#8

/-- Handover messages go ahead of every other type (R430). -/
def isHandover (m : ChnMsg) : Bool := Nat.ble 0x10 m.ty.toNat && Nat.ble m.ty.toNat 0x15

/-- Queue a message on a port; one that would overflow the 32 entries is dropped and counted (R430). -/
def State.chnQueue (s : State) (p : Fin 2) (m : ChnMsg) : State :=
  if (s.cport p).txq.length < 32 then s.updPort p fun x => { x with txq := x.txq ++ [m] } else s.incR R.CHN_DROP 1

/-- Queue a message of this unit. -/
def State.chnSend (s : State) (p : Fin 2) (ty : BitVec 8) (dest : BitVec 4) (content : List Byte) : State :=
  s.chnQueue p { ty := ty, dest := dest, src := s.chnAddr, body := bodyOf content }

def idBytes (id : Word) : List Byte := leBytes 4 id.toNat

/-- Queue a handover message: while FORMED is 0 none is sent (R431). -/
def State.hoSend (s : State) (p : Fin 2) (ty : BitVec 8) (id : Word) : State :=
  if s.flag F.CHN_STATUS_FORMED then s.chnSend p ty 0#4 (idBytes id) else s

/-- A message is received on a port: source class 0x0C (Table 3-4). An outcome or an alarm that a message brings fires it
itself. (DEDUCED: log 94) -/
def State.chnHeard (s : State) (p : Fin 2) : State := s.fire 0x0C p

/-! ## Frames (R429) -/

/-- The chain tick number: own tick number plus CHN_TICK_OFS (R433). -/
def State.chainTick (s : State) : Nat := (s.tick + s.getP R.CHN_TICK_OFS_LO) % 2 ^ 64

def msgBytes (m : ChnMsg) : List Byte := m.ty :: BitVec.ofNat 8 (m.dest.toNat + 16 * m.src.toNat) :: m.body.toList

/-- The message count of a received frame, what its CRC covers, and its fields (Table 22-2). -/
def ChnFrame.count (f : ChnFrame) : Nat := (f.bytes.getD 5 0#8).toNat

def ChnFrame.covered (f : ChnFrame) : List Byte := f.bytes.take (6 + 16 * ChnFrame.count f)

def ChnFrame.tick (f : ChnFrame) : Nat := ofLeBytes (f.bytes.take 2)

def ChnFrame.aligned (f : ChnFrame) : Bool := (f.bytes.getD 2 0#8).getLsbD 4

def ChnFrame.delay (f : ChnFrame) : Nat := ofLeBytes ((f.bytes.drop 3).take 2)

/-- Is a received frame correct (R429)? -/
def ChnFrame.ok (f : ChnFrame) : Bool :=
  !f.codeErr && Nat.ble (ChnFrame.count f) 8 && f.bytes.length == 10 + 16 * ChnFrame.count f
    && ofLeBytes (f.bytes.drop (6 + 16 * ChnFrame.count f)) == (crc32c (ChnFrame.covered f)).toNat

/-- A message from its 16 bytes (R430). -/
def msgOf (l : List Byte) : ChnMsg :=
  { ty := l.getD 0 0#8, dest := (l.getD 1 0#8).extractLsb' 0 4, src := (l.getD 1 0#8).extractLsb' 4 4, body := bodyOf (l.drop 2) }

def ChnFrame.msgs (f : ChnFrame) : List ChnMsg := (List.range (ChnFrame.count f)).map fun k => msgOf ((f.bytes.drop (6 + 16 * k)).take 16)

/-- The frame of a port with its messages (Table 22-2). -/
def State.chnFrame (s : State) (p : Fin 2) (ms : List ChnMsg) : List Byte :=
  let d := if p = 1 then s.getF (F.CHN_LAT 1) else (s.cport p).hold % 65536
  let body := leBytes 2 (s.chainTick % 65536)
    ++ [BitVec.ofNat 8 (s.chnAddr.toNat + 16 * s.getF F.CHN_STATUS_ALIGNED)] ++ leBytes 2 d ++ [BitVec.ofNat 8 ms.length]
    ++ ms.flatMap msgBytes
  [0xBC#8, 0xFB#8] ++ body ++ leBytes 4 (crc32c body).toNat ++ [0xFD#8]

/-- At the tick boundary a port that is up sends one frame with at most 8 messages. -/
def State.chnTickPort (s : State) (p : Fin 2) : State :=
  if s.chnUp p then
    let q := (s.cport p).txq
    let ordered := q.filter isHandover ++ q.filter fun m => !isHandover m
    let f := s.chnFrame p (ordered.take 8)
    s.updPort p fun x => { x with txq := ordered.drop 8, sent := f }
  else s.updPort p fun x => { x with sent := [] }

def State.chnTick (s : State) : State := (s.chnTickPort 0).chnTickPort 1

/-! ## Coordinated stop and alarms (R439, R440) -/

/-- Send the ordered set of a coordinated stop on one port. -/
def State.stopOut (s : State) (p : Fin 2) (src : BitVec 4) : State :=
  s.updPort p fun x => { x with stops := x.stops + 1, stopAt := s.tsc.toNat, stopSrc := src }

def State.stopSend (s : State) : State := (s.stopOut 0 s.chnAddr).stopOut 1 s.chnAddr

/-- Broadcast ALARM, with a coordinated stop while AUTO_STOP is 1. -/
def State.chnAlarm (s : State) (cause port : Nat) : State :=
  let c := [BitVec.ofNat 8 cause, BitVec.ofNat 8 port]
  let s := (s.chnSend 0 0x20#8 0xF#4 c).chnSend 1 0x20#8 0xF#4 c
  if s.flag F.CHN_CFG_AUTO_STOP then s.stopSend else s

/-- A coordinated stop is received. -/
def State.stopRecv (s : State) (p : Fin 2) (src : BitVec 4) : State :=
  let again := match s.chn.lastStop with
    | some (x, t) => x == src && Nat.ble s.tsc.toNat (t + 4000)
    | none => false
  let s := if again then s else s.stopOut (otherPort p) src
  let s := { s with chn := { s.chn with lastStop := some (src, s.tsc.toNat), stopDue := true } }
  let s := (s.latchF F.CHN_STATUS_STOPPED).raise Ev.CHN_STOP
  (s.fire 0x0C p).gateFollow

/-- The device enters FAULT: threads but the fault thread are suspended (R70), the chain is told (R439), and a reload that
hardware had begun is given up, so that FAULT is left by an engine reset or a power-on reset alone (R25). -/
def State.enterFault (s : State) : State := if s.devIs 6 then s else ((s.dropReload.setDev 6).suspendAll).chnAlarm 1 0

/-! ## Enumeration (R431) -/

def State.sendEnumEnd (s : State) (units : Nat) : State := s.chnSend 0 0x02#8 0#4 [BitVec.ofNat 8 units]

/-- The unit count is recorded; a count of 0 says that the chain is too long. -/
def State.enumEnd (s : State) (units : Nat) : State :=
  if units = 0 then ((s.putF F.CHN_STATUS_TOO_LONG 1).putF F.CHN_STATUS_FORMED 0).raise Ev.CHN_TOO_LONG
  else ((s.putF F.CHN_STATUS_UNITS units).putF F.CHN_STATUS_TOO_LONG 0).putF F.CHN_STATUS_FORMED 1

/-- Offer the next address on the down port, or end the enumeration there. -/
def State.enumDown (s : State) : State :=
  let a := s.getF F.CHN_STATUS_ADDR
  if s.chnUp 1 then s.chnSend 1 0x01#8 0#4 [BitVec.ofNat 8 (a + 1)]
  else (s.enumEnd a).when (!s.flag F.CHN_STATUS_HEAD) fun b => b.sendEnumEnd a

/-- ENUM is received on the up port. (DESIGN CHOICE: log 60) -/
def State.enumTake (s : State) (p : Fin 2) (a : Nat) : State :=
  if p ≠ 0 ∨ s.flag F.CHN_STATUS_HEAD then s
  else
    let no := a == 0 || Nat.blt 8 a
    let new := if no then 0 else a
    let old := s.getF F.CHN_STATUS_ADDR
    let s := (s.putF F.CHN_STATUS_ADDR new).chnHeard p
    let s := if old ≠ 0 ∧ old ≠ new then s.raise Ev.CHN_ADDR_CHANGED else s
    if no then s.sendEnumEnd 0 else s.enumDown

/-- ENUM_END travels up to the head. (DESIGN CHOICE: log 60) -/
def State.enumEndTake (s : State) (p : Fin 2) (units : Nat) : State :=
  if p ≠ 1 ∨ s.flag F.CHN_STATUS_CONFLICT then s
  else ((s.chnHeard p).enumEnd units).when (!s.flag F.CHN_STATUS_HEAD) fun b => b.sendEnumEnd units

/-- A port comes up (R428, R441): the unit that has an address enumerates the units below it. (DESIGN CHOICE: log 60) -/
def State.portUp (s : State) (p : Fin 2) : State :=
  if s.chnUp p then s
  else
    let again := (s.cport p).wasUp
    let s := (s.putF (F.CHN_PORT_STATUS_STATE p) 2).updPort p fun x => { x with wasUp := true, lastGood := s.tick }
    let s := if again then s.raise Ev.CHN_PORT_UP p else s
    if p = 1 ∧ s.getF F.CHN_STATUS_ADDR ≠ 0 ∧ s.flag F.CHN_STATUS_CONFLICT = false then s.enumDown else s

def State.alignLost (s : State) : State :=
  let s := { s with chn := { s.chn with good := 0 } }
  if s.flag F.CHN_STATUS_ALIGNED && !s.flag F.CHN_STATUS_HEAD then (s.putF F.CHN_STATUS_ALIGNED 0).raise Ev.CHN_ALIGN_LOST else s

/-- A port goes down (R441). -/
def State.portDown (s : State) (p : Fin 2) : State :=
  let s := ((s.putF (F.CHN_PORT_STATUS_STATE p) 0).putF (F.CHN_PORT_STATUS_NALIGNED p) 0).raise Ev.CHN_PORT_DOWN p
  let s := if p = 0 then (s.alignLost).putF F.CHN_STATUS_FORMED 0 else if s.flag F.CHN_STATUS_HEAD then s.putF F.CHN_STATUS_FORMED 0 else s
  s.chnAlarm 4 p

/-! ## Alignment (R432, R433), in units of 0.8 ns: 25,000 in a tick, 10 from the boundary to K27.7 -/

/-- A number of 0.8 ns units brought to half a tick either side of 0. -/
def wrapTick (x : Int) : Int := (x + 12500).emod 25000 - 12500

/-- The trim the second-order loop gives is not stated: a free value within ±300 ppm (R433). (DESIGN CHOICE: log 10) -/
def State.trimFollow (s : State) : State :=
  let v := F32.clampInt (-30000) 30000 (s.fresh 32).toInt
  (s.putR R.CHN_TRIM (BitVec.ofInt 32 v)).drew

/-- A correct downward frame reaches the up port: delay, hold time, phase error and trim. -/
def State.fromAbove (s : State) (f : ChnFrame) : State :=
  let s := s.putF (F.CHN_LAT 0) (ChnFrame.delay f)
  let s := s.updPort 0 fun x => { x with hold := (25010 + 25000 - f.arrive % 25000) % 25000 }
  let e := -wrapTick ((f.arrive : Int) - ChnFrame.delay f - 10)
  let s := s.putR R.CHN_PHASE_ERR (BitVec.ofInt 32 e)
  let g := if 3 < e.natAbs then 0 else if s.chn.goodAt = some s.tick then s.chn.good else s.chn.good + 1
  let lost := Nat.blt 12 e.natAbs || !ChnFrame.aligned f
  let s := if lost && s.flag F.CHN_STATUS_ALIGNED then s.alignLost else s.trimFollow
  { s with chn := { s.chn with good := g, goodAt := some s.tick } }

/-- A correct upward frame reaches the down port: the delay D of the cable (R432). -/
def State.fromBelow (s : State) (f : ChnFrame) : State :=
  s.putF (F.CHN_LAT 1) ((((f.arrive : Int) - 10 - ChnFrame.delay f).emod 25000 / 2).toNat)

/-! ## Handover (R434–R438) -/

def State.setOffers (s : State) (l : List Offer) : State := { s with chn := { s.chn with offers := l } }

def State.setPends (s : State) (l : List Pend) : State := { s with chn := { s.chn with pends := l } }

/-- Record an outcome: CHN_HO_LAST, and source class 0x0C with the port (R435). -/
def State.hoOutcome (s : State) (p : Fin 2) (out reason : Nat) (id : Word) : State :=
  let s := (s.putF F.CHN_HO_LAST_OUTCOME out).putF F.CHN_HO_LAST_REASON reason
  (s.putR R.CHN_HO_LAST_ID id).fire 0x0C p

def State.pendCount (s : State) : State :=
  s.putF F.CHN_PEND_IN (s.led.pop fun p => p == .pendingIn)

/-- Sheets that count against the limit of 256 (R434). -/
def State.handedInHeld (s : State) : Nat :=
  (s.led.sheets.filter fun sh => sh.place == .pendingIn || (sh.place.inPath && sh.via.isSome)).length

/-- The reason for which an OFFER is refused, if any. -/
def State.offerRefusal (s : State) (id : Word) : Option Nat :=
  if !s.flag F.CHN_CFG_EN || !s.flag F.CHN_STATUS_FORMED then some 1
  else if s.frozen then some 2
  else if Nat.ble 256 s.handedInHeld || s.flag F.LDG_STATUS_RINSE_NEEDED then some 3
  else if (s.led.find id).isSome then some 4
  else none

/-- OFFER received: REFUSE, or a journalled PENDING_IN record. -/
def State.offerTake (s : State) (p : Fin 2) (id : Word) (spoiled : Bool) (size colour : Nat) (t1 t2 : Word) : State :=
  let s := s.chnHeard p
  match s.offerRefusal id with
  | some r => s.chnSend p 0x12#8 0#4 (idBytes id ++ [BitVec.ofNat 8 r])
  | none =>
    let sh : Sheet := { id := id, place := .pendingIn, spoiled := spoiled, tag1 := some t1,
                        tag2 := if t2 = 0#32 then none else some t2, size := size, colour := colour, via := some p }
    let s := s.journal (.pendIn sh)
    let x : Pend := { id := id, port := p, tick := s.tick }
    (s.setPends (s.chn.pends ++ [x])).pendCount

/-- The sender moves the sheet to handed out; the transition waits for its commit. -/
def State.handOut (s : State) (o : Offer) : State :=
  let sp := match s.led.find o.id with
    | some sh => sh.spoiled
    | none => o.spoiled
  let s := s.setOffers (mapIf (fun x => x.id == o.id) (fun x => { x with accepted := true, heldAccept := false, spoiled := sp }) s.chn.offers)
  s.journal (.leave o.id .handedOut)

/-- Is the sheet of an offer still in HANDOFF? A bus over-voltage trip may have stranded it (R305). -/
def State.inHandoff (s : State) (id : Word) : Bool := match s.led.find id with
  | some sh => sh.handoff
  | none => false

/-- An ACCEPT for a sheet that has left HANDOFF is answered with ABORT, as one after an ABORT (R435). (DESIGN CHOICE: log 60) -/
def State.acceptLate (s : State) (o : Offer) : State :=
  ((s.setOffers (s.chn.offers.filter fun x => x.id != o.id)).hoSend o.port 0x14#8 o.id).hoOutcome o.port 3 0 o.id

/-- The transition that follows an ACCEPT. (DESIGN CHOICE: log 60) -/
def State.acceptDo (s : State) (o : Offer) : State := if s.inHandoff o.id then s.handOut o else s.acceptLate o

/-- ACCEPT received. -/
def State.acceptTake (s : State) (p : Fin 2) (id : Word) : State :=
  if !s.flag F.CHN_STATUS_FORMED then s
  else match s.chn.offers.find? fun o => o.id == id with
  | none => (s.chnHeard p).hoSend p 0x14#8 id
  | some o =>
    if o.accepted || o.heldAccept then s.chnHeard p
    else if s.frozen then (s.chnHeard p).setOffers (mapIf (fun x => x.id == id) (fun x => { x with heldAccept := true }) s.chn.offers)
    else if s.inHandoff o.id then (s.chnHeard p).handOut o
    else s.acceptLate o

/-- The offer ends without a handover: the sheet leaves HANDOFF, or is stranded at once after an engine reset (R435,
R436). -/
def State.offerBack (s : State) (o : Offer) : State :=
  let s := s.setOffers (s.chn.offers.filter fun x => x.id != o.id)
  let s := s.journal (.handoff o.id false)
  if o.reset then (s.journal (.move o.id .stranded 0)).rinseFollow else s

/-- REFUSE received. -/
def State.refuseTake (s : State) (p : Fin 2) (id : Word) (reason : Nat) : State :=
  if !s.flag F.CHN_STATUS_FORMED then s
  else match s.chn.offers.find? fun o => o.id == id && !o.accepted with
  | none => s.chnHeard p
  | some o => (s.offerBack o).hoOutcome o.port 2 reason id

/-- No answer in time: the sender sends ABORT (R435). -/
def State.offerAbort (s : State) (o : Offer) : State :=
  let s := (s.hoSend o.port 0x14#8 o.id).offerBack o
  (s.raise Ev.CHN_HO_ABORT o.port).hoOutcome o.port 3 0 o.id

/-- A PENDING_IN record ends. -/
def State.pendEnd (s : State) (x : Pend) (out : Nat) : State :=
  let s := (s.setPends (s.chn.pends.filter fun y => y.id != x.id)).pendCount
  if x.resolving then (s.raise Ev.CHN_HO_RESOLVED x.port).hoOutcome x.port 5 0 x.id else s.hoOutcome x.port out 0 x.id

/-- The sheet of a PENDING_IN record enters IN_ZONE (R434), or is stranded at once after a boot (R437). (DEDUCED: log 26) -/
def State.pendEnter (s : State) (x : Pend) : State :=
  let s := if x.boot then (s.journal (.pendStrand x.id)).rinseFollow
    else s.journal (.pendEnter x.id (Fin.ofNat 16 (s.getF F.CHN_CFG_IN_ZONE)) (Fin.ofNat 16 (s.getF F.CHN_CFG_IN_OWNER)))
  s.pendEnd x 4

/-- COMMIT received. -/
def State.commitTake (s : State) (p : Fin 2) (id : Word) : State :=
  if !s.flag F.CHN_STATUS_FORMED then s
  else match s.chn.pends.find? fun x => x.id == id with
  | none => s.chnHeard p
  | some x =>
    if s.frozen then (s.chnHeard p).setPends (mapIf (fun y => y.id == id) (fun y => { y with held := true }) s.chn.pends) else s.pendEnter x

/-- ABORT received. -/
def State.abortTake (s : State) (p : Fin 2) (id : Word) : State :=
  if !s.flag F.CHN_STATUS_FORMED then s
  else match s.chn.pends.find? fun x => x.id == id with
  | none => s.chnHeard p
  | some x => (s.journal (.pendDel id)).pendEnd x 3

/-- RESOLVE received: the answer comes from the log of committed handed-out transitions (R437). (DEDUCED: log 26) -/
def State.resolveTake (s : State) (p : Fin 2) (id : Word) : State :=
  if s.flag F.CHN_STATUS_FORMED then (s.chnHeard p).hoSend p (if s.nvm.log.contains id then 0x13#8 else 0x14#8) id else s

/-- The ledger has thawed: what a frozen ledger held back is done (R435). -/
def State.chnThaw (s : State) : State :=
  if s.frozen then s
  else
    let s := s.each (s.chn.pends.filter Pend.held) State.pendEnter
    s.each (s.chn.offers.filter Offer.heldAccept) State.acceptDo

/-- A commit becomes known at cycle 300 (R434): ACCEPT, or COMMIT and the retirement of the sheet's pages. -/
def State.commitKnown (s : State) (e : JEntry) : State :=
  match e with
  | .pendIn sh =>
    match s.chn.pends.find? fun x => x.id == sh.id with
    | some x => s.hoSend x.port 0x11#8 sh.id
    | none => s
  | .leave id .handedOut =>
    match s.chn.offers.find? fun o => o.id == id with
    | some o =>
      let s := s.setOffers (s.chn.offers.filter fun x => x.id != id)
      let s := (s.hoSend o.port 0x13#8 id).retireSheet id .handedOut o.spoiled
      s.hoOutcome o.port 1 0 id
    | none => s
  | _ => s

def State.commitsKnown (s : State) : State :=
  let l := s.jr.ripe
  s.each l State.commitKnown |> fun a => { a with jr := { a.jr with ripe := [] } }

/-! ## USER messages (R430) -/

/-- CHN_MSG_RX and CHN_MSG_RX_STAT show the oldest received message. -/
def State.rxFollow (s : State) (p : Fin 2) : State :=
  let q := (s.cport p).rx
  let s := s.putF (F.CHN_MSG_RX_STAT_COUNT p) q.length
  let x := q.head?.getD (0, Vector.replicate 3 0)
  let s := s.putF (F.CHN_MSG_RX_STAT_SRC p) x.1.toNat
  s.forEach 3 fun a i => a.putR (R.CHN_MSG_RX p i) (x.2.toList.getD i 0#32)

/-- USER received: queued, or dropped with OVF; none is accepted while the chain is not formed (R431). -/
def State.userTake (s : State) (p : Fin 2) (src : BitVec 4) (d : Vector Word 3) : State :=
  if !s.flag F.CHN_STATUS_FORMED || !s.flag F.CHN_CFG_EN then s
  else if (s.cport p).rx.length < 8 then ((s.updPort p fun x => { x with rx := x.rx ++ [(src, d)] }).rxFollow p).chnHeard p
  else (s.latchF (F.CHN_MSG_RX_STAT_OVF p)).chnHeard p

def State.userPop (s : State) (p : Fin 2) : State := (s.updPort p fun x => { x with rx := x.rx.drop 1 }).rxFollow p

/-- POST queues a USER message on the port toward DEST. (DESIGN CHOICE: log 60) -/
def State.userPost (s : State) (dest : BitVec 4) : State :=
  if !s.flag F.CHN_STATUS_FORMED || !s.flag F.CHN_CFG_EN then s
  else
    let body := (List.range 3).flatMap fun i => leBytes 4 (s.getR (R.CHN_MSG_TX i)).toNat
    let send := fun (a : State) (p : Fin 2) => a.chnSend p 0x30#8 dest body
    if dest = 0xF#4 then send (send s 0) 1
    else if dest = 0#4 then send s (Fin.ofNat 2 (s.getF F.CHN_CFG_HO_PORT))
    else if dest.toNat < s.getF F.CHN_STATUS_ADDR then send s 0
    else if s.getF F.CHN_STATUS_ADDR < dest.toNat then send s 1
    else s

/-- ALARM received (R439). The loss of a port elsewhere ends FORMED at the head, for a down port, and at every unit below,
for an up port (R441). (DESIGN CHOICE: log 60) -/
def State.alarmTake (s : State) (p : Fin 2) (src : BitVec 4) (cause port : Nat) : State :=
  let lost := cause == 4 && ((p == 0 && port == 0) || (p == 1 && port == 1 && s.flag F.CHN_STATUS_HEAD))
  let s := if lost then s.putF F.CHN_STATUS_FORMED 0 else s
  (s.raise Ev.CHN_REMOTE_ALARM 0 (BitVec.ofNat 32 src.toNat) (BitVec.ofNat 32 cause)).fire 0x0C p

/-! ## Delivery (R430) -/

/-- A message that names this unit is acted on. -/
def State.chnDeliver (s : State) (p : Fin 2) (m : ChnMsg) : State :=
  match m.ty.toNat with
  | 0x01 => s.enumTake p (msgByte m 0).toNat
  | 0x02 => s.enumEndTake p (msgByte m 0).toNat
  | 0x10 => s.offerTake p (msgWord m 0) ((msgByte m 4).getLsbD 0) ((msgByte m 5).toNat % 16) ((msgByte m 5).toNat / 16) (msgWord m 6) (msgWord m 10)
  | 0x11 => s.acceptTake p (msgWord m 0)
  | 0x12 => s.refuseTake p (msgWord m 0) (msgByte m 4).toNat
  | 0x13 => s.commitTake p (msgWord m 0)
  | 0x14 => s.abortTake p (msgWord m 0)
  | 0x15 => s.resolveTake p (msgWord m 0)
  | 0x20 => s.alarmTake p m.src (msgByte m 0).toNat (msgByte m 1).toNat
  | 0x30 => s.userTake p m.src (Vector.ofFn fun (i : Fin 3) => msgWord m (4 * i.val))
  | _ => s

/-- Forward a message on the other port; while FORMED is 0 a unit sends no handover or USER message (R431). -/
def State.chnForward (s : State) (p : Fin 2) (m : ChnMsg) : State :=
  if !s.flag F.CHN_STATUS_FORMED && (isHandover m || m.ty == 0x30#8) then s else s.chnQueue (otherPort p) m

/-- Deliver a message, forward it on the other port, or both. -/
def State.chnMessage (s : State) (p : Fin 2) (m : ChnMsg) : State :=
  if m.dest = 0xF#4 then (s.chnDeliver p m).chnForward p m
  else if m.dest = 0#4 ∨ m.dest = s.chnAddr then s.chnDeliver p m
  else s.chnForward p m

end Sys2Proof.Machine
end

