-- ==== Sys2Proof/Machine/OpsMeter.lean ====
section
/-! DEFINITION. Machine/OpsMeter.lean: the journal's way to non-volatile memory (R376–R378), the Rinse (R380, R381) and the
meter report (R384). -/

namespace Sys2Proof.Machine

/-! ## The journal -/

/-- Is an entry one of those R376 counts? The fixed fields of R422 are not. -/
def JEntry.counted : JEntry → Bool
  | .serials .. => false
  | _ => true

/-- The fixed fields of a record (R422): I, S, Y and EVT_DROP as they stand. -/
def State.serialsEntry (s : State) : JEntry :=
  .serials (s.nextSerial - 1) s.ev.settled s.ev.dropsAbove ((List.range 5).map fun c => s.getP (R.EVT_DROP_LO c))

/-- JFULL thaws when the backlog falls below 128 entries (R376). (DEDUCED: log 24) -/
def State.jfullFollow (s : State) : State :=
  if s.jr.backlog.length < 128 ∧ s.flag F.LDG_STATUS_JFULL then (s.putF F.LDG_STATUS_JFULL 0).freezeFollow
  else s

/-- The record leaves with the downward frame of its tick: at most 32 entries, the rest wait (R376). (DEDUCED: log 25) -/
def State.sendRecord (s : State) : State :=
  let all := s.jr.backlog ++ s.jr.cur.filter fun e => Nat.ble e.1 s.tick
  let later := s.jr.cur.filter fun e => Nat.blt s.tick e.1
  let s := { s with jr := { s.jr with inflight := s.jr.inflight ++ all.take 32 ++ [(s.tick, s.serialsEntry)], backlog := all.drop 32, cur := later } }
  s.jfullFollow

/-- The Drive die has programmed the record and its commit word (R377). (DEDUCED: log 25) -/
def State.commitRecord (s : State) : State :=
  let l := s.jr.inflight
  let s := s.each l fun a e => a.commitEntry e.2
  let n := (l.filter fun e => e.2.counted).length
  let kn := s.jr.known ++ l.map Prod.snd
  let s := { s with jr := { s.jr with inflight := [], known := kn } }
  let ms : List MeterJob := s.host.meters.map fun (m : MeterJob) => { m with waits := m.waits - n }
  let s := { s with host := { s.host with meters := ms } }
  s.meterTotals.putR R.VIN_FLOOR (BitVec.ofNat 32 s.nvm.mono[(0 : Fin 3)])

/-! ## The Rinse -/

/-- End the Rinse: its completion, REQ and, where it moved nothing, the cause. -/
def State.rinseEnd (s : State) (j : RinseJob) (st : Status) (moved cause : Nat) : State :=
  let s := { s with host := { s.host with rinse := none } }
  let s := s.putF F.LDG_RINSE_REQ 0
  let s := if st = .ok then s else s.putF F.LDG_RINSE_CAUSE cause
  s.complete 1 j.cid st 0 (BitVec.ofNat 32 moved)

/-- The bulk record of a CLEAR: every sheet of the set moves to purged, and pages bound to them return (R189, R380). -/
def State.rinsePurge (s : State) (j : RinseJob) : State :=
  let n := (s.led.sheets.filter fun sh => j.ids.contains sh.id && sh.place.inEngine).length
  let s := s.each j.ids State.jamSheet
  let s := (s.journal (.purge j.ids)).rinseFollow
  s.rinseEnd j .ok n 0

/-- A write of LDG_RINSE. -/
def State.rinseWrite (s : State) (w : Word) : State :=
  let clear := w.getLsbD 1
  let fail := w.getLsbD 2
  if !clear && !fail then s
  else if clear && fail then s.refuse R.LDG_RINSE
  else match s.host.rinse with
    | none => s.refuse R.LDG_RINSE
    | some j =>
      if clear then
        (if s.frozen then { s with host := { s.host with rinse := some { j with heldClear := true } } } else s.rinsePurge j)
      else if j.heldClear then s else s.rinseEnd j .rinseRefused 0 3

/-- A CLEAR held while the ledger was frozen acts in the tick of the thaw (R380). -/
def State.rinseThaw (s : State) : State :=
  match s.host.rinse with
  | some j => if j.heldClear && !s.frozen then s.rinsePurge j else s
  | none => s

/-- What a thaw of the ledger releases. -/
def State.thawed (s : State) : State := s.rinseThaw.chnThaw

/-- A PICK that succeeds during a Rinse ends it as FAIL would (R380). -/
def State.rinsePick (s : State) : State :=
  match s.host.rinse with
  | some j => s.rinseEnd j .rinseRefused 0 5
  | none => s

/-! ## The meter report (R384, Table 18-3) -/

/-- DEVICE_ID: the SHA-256 of the identity public key (R395). -/
def State.deviceId (s : State) : List Byte := (List.range 8).flatMap fun i => leBytes 4 (s.getR (R.SEC_ID_HASH i)).toNat

def State.slotVersion (s : State) (k : Option (Fin 8)) : Nat :=
  match k.bind fun n => s.vin.slots[n] with
  | some im => im.version.toNat
  | none => 0

/-- Bytes 0 to 3,215 of a report taken now. (DEDUCED: log 26) -/
def State.reportBody (s : State) (m : MeterJob) : List Byte :=
  let flags := boolNat (s.flag F.LDG_STATUS_AUDIT_FAIL) + 2 * boolNat (s.flag F.LDG_STATUS_RINSE_NEEDED)
    + 4 * boolNat (s.getR R.LDG_UNRESOLVED != 0#32)
  leBytes 2 0x4D52 ++ [1#8, 0#8] ++ leBytes 4 3280 ++ leBytes 8 (s.monoLive 1) ++ leBytes 8 s.tick ++ s.deviceId
    ++ leBytes 4 (s.slotVersion s.nvm.cur) ++ leBytes 4 s.nvm.mono[(0 : Fin 3)] ++ leBytes 4 s.nvm.mend.toNat ++ leBytes 4 flags
    ++ leBytes 8 (s.getR R.LDG_UNRESOLVED).toNat ++ m.nonce.flatMap (fun w => leBytes 4 w.toNat)
    ++ (List.range 776).flatMap fun i => leBytes 4 (s.getR (R.LDG_METER i)).toNat

/-- Take the snapshot of a report that is due: the first tick boundary after its consumption at which every earlier entry has
committed; REPORT_SEQ counts it (R384, R394). (DEDUCED: log 26) -/
def State.meterTake (x : State × List MeterJob) (m : MeterJob) : State × List MeterJob :=
  if m.waits = 0 ∧ m.tick < x.1.tick ∧ m.body.isNone ∧ x.1.getF F.SEC_STATUS_RNG_FAIL = 0 then
    let s := x.1.monoSet 1 (x.1.monoLive 1 + 1)
    (s, x.2 ++ [{ m with body := some (s.reportBody m) }])
  else (x.1, x.2 ++ [m])

def State.meterTick (s : State) : State :=
  let r := s.host.meters.foldl State.meterTake (s, [])
  { r.1 with host := { r.1.host with meters := r.2 } }

/-- The signed report (R384). The nonce of the signature is a free value. -/
def State.signReport (s : State) (body : List Byte) : List Byte :=
  body ++ Crypto.ecdsaSign ((s.fuse.idKey).getD 0) (s.fresh 256) (Crypto.sha256 body)

end Sys2Proof.Machine
end

