-- ==== Sys2Proof/Machine/OpsSec.lean ====
section
/-! DEFINITION. Machine/OpsSec.lean: fuses and lifecycle (R388–R390), chain blocks (R391, R392), die pairing (R396),
consumable authentication (R397, R398), the debug port (R399, R400). Byte strings taken from a number have their first byte
in bits [7:0]. -/

namespace Sys2Proof.Machine

/-! ## Fuses -/

/-- The identity public key and DEVICE_ID (R395). -/
def Fuses.pub (f : Fuses) : List Byte := match f.idKey with
  | some k => Crypto.ecdsaPub k
  | none => List.replicate 64 0

/-- LIFECYCLE (R388). (DESIGN CHOICE: log 61) -/
def Fuses.lifecycle (f : Fuses) : Nat := if f.secured then 2 else if f.idKey.isSome then 1 else 0

def Fuses.validMask (f : Fuses) : Nat := (List.finRange 4).foldl (fun m k => if f.roots[k].isSome then m + 2 ^ k.val else m) 0

/-- GENERATE has failed 3 times (R389). -/
def Fuses.dead (f : Fuses) : Bool := Nat.ble 3 f.genFails && f.idKey.isNone

/-- The registers that show the fuses. -/
def State.fuseFollow (s : State) : State :=
  let f := s.fuse
  let s := (s.putF F.SEC_STATUS_LIFECYCLE f.lifecycle).putB F.SEC_STATUS_DEBUG_PERM_LOCK f.permLock
  let s := (s.putF F.SEC_STATUS_ROOT_VALID f.validMask).putF F.SEC_STATUS_ROOT_REVOKED f.revoked.toNat
  let s := (s.putB F.SEC_STATUS_PROV_DEAD f.dead).putF F.SEC_PROV_RESULT_FAILS f.genFails
  let s := s.putF F.DEV_ID_STEP f.stepping.toNat
  match f.idKey with
  | none => s
  | some _ =>
    let pub := f.pub
    let h := Crypto.shaBytes pub
    let s := s.forEach 16 fun a i => a.putR (R.SEC_ID_PUB i) (BitVec.ofNat 32 (ofLeBytes ((pub.drop (4 * i)).take 4)))
    s.forEach 8 fun a i => a.putR (R.SEC_ID_HASH i) (BitVec.ofNat 32 (ofLeBytes ((h.drop (4 * i)).take 4)))

/-- New fuses, and the registers that show them. (DESIGN CHOICE: log 61) -/
def State.setFuse (s : State) (f : Fuses) : State := { s with fuse := f }.fuseFollow

/-- The root hash written to SEC_PROV_DATA. -/
def State.provData (s : State) : BitVec 256 :=
  BitVec.ofNat 256 ((List.range 8).foldl (fun n i => n + (s.getR (R.SEC_PROV_DATA i)).toNat * 2 ^ (32 * i)) 0)

/-- A write of SEC_PROV (R389); `readback` says whether the burnt fuses read back as they were written. (DESIGN CHOICE: log 61) -/
def State.secProv (s : State) (op : Nat) (slot : Fin 4) (key : Nat) (readback : Bool) : State :=
  let f := s.fuse
  let result := fun (a : State) (r : Nat) => a.putF F.SEC_PROV_RESULT_RESULT r
  if key ≠ 0x5EC0 ∨ f.secured then s.refuse R.SEC_PROV
  else if op = 1 then
    if f.idKey.isSome ∨ f.dead then s.refuse R.SEC_PROV
    else if s.flag F.SEC_STATUS_RNG_FAIL then result s 3
    else if readback then result ((s.drew).setFuse { f with idKey := some (s.fresh 256) }) 1
    else result ((s.drew).setFuse { f with genFails := f.genFails + 1 }) 2
  else if op = 2 then
    if f.roots[slot].isSome ∨ f.dead then s.refuse R.SEC_PROV
    else if readback then result (s.setFuse { f with roots := f.roots.set slot (some s.provData) }) 1
    else result s 2
  else if op = 3 then
    if f.validMask = 0 ∨ f.dead then s.refuse R.SEC_PROV
    else if readback then result (s.setFuse { f with secured := true }) 1
    else result s 2
  else s.refuse R.SEC_PROV

/-- A write of SEC_ROOT_REVOKE (R390): refused where no unrevoked programmed slot would remain. (DESIGN CHOICE: log 61) -/
def State.rootRevoke (s : State) (w : Word) : State :=
  let f := s.fuse
  let r := f.revoked ||| w.extractLsb' 0 4
  if bits w 16 16 ≠ 0x5EC0 then s
  else if (List.finRange 4).any fun k => f.roots[k].isSome && !r.getLsbD k then s.setFuse { f with revoked := r }
  else s

/-! ## Chain blocks (R391, R392) -/

structure Leaf where
  key : List Byte
  serial : Nat
  kind : Nat
  stations : Nat
  deriving DecidableEq, Repr

def slice (l : List Byte) (a n : Nat) : List Byte := (l.drop a).take n

def byteAt (l : List Byte) (i : Nat) : Nat := (l.getD i 0#8).toNat

def zeros (l : List Byte) (a n : Nat) : Bool := (slice l a n).all (· == 0#8)

/-- ROOT is a programmed slot that is not revoked, in a device that is SECURED (R388). (DESIGN CHOICE: log 61) -/
def Fuses.rootOk (f : Fuses) (root : List Byte) : Bool :=
  f.secured && (List.finRange 4).any fun k => f.roots[k] == some (Crypto.sha256 root) && !f.revoked.getLsbD k

/-- One certificate under the key of its issuer: format, ISSUER, signature, reserved bytes (Table 19-3). -/
def certOk (issuer c : List Byte) : Bool :=
  let role := byteAt c 3
  c.length == 192 && byteAt c 0 == 0x43 && byteAt c 1 == 0x4C && byteAt c 2 == 1 && zeros c 5 3 && zeros c 18 14
    && (role == 1 || byteAt c 4 == 0) && (role == 3 || (byteAt c 16 == 0 && byteAt c 17 == 0))
    && slice c 96 32 == Crypto.shaBytes issuer && Crypto.ecdsaVerify issuer (Crypto.sha256 (slice c 0 128)) (slice c 128 64)

def chainGo (role : Nat) : List (List Byte) → List Byte → Option Leaf
  | [], _ => none
  | [c], k =>
    if certOk k c && byteAt c 3 == role then
      some { key := slice c 32 64, serial := ofLeBytes (slice c 8 8), kind := byteAt c 16, stations := byteAt c 17 }
    else none
  | c :: d :: r, k =>
    if certOk k c && byteAt c 3 == 1 && bit (byteAt c 4) role && (r.isEmpty || bit (byteAt c 4) 1) then
      chainGo role (d :: r) (slice c 32 64)
    else none

/-- The leaf of a chain block that is valid for a role. -/
def Fuses.chainLeaf (f : Fuses) (role : Nat) (b : List Byte) : Option Leaf :=
  let n := byteAt b 64
  if 1 ≤ n ∧ n ≤ 3 ∧ b.length = 72 + 192 * n ∧ zeros b 65 7 ∧ f.rootOk (slice b 0 64) then
    chainGo role ((List.range n).map fun i => slice b (72 + 192 * i) 192) (slice b 0 64)
  else none

/-! ## Random values (R387) -/

def State.rngFail (s : State) : Bool := s.flag F.SEC_STATUS_RNG_FAIL

/-- Draw `n` random words: free values. (DESIGN CHOICE: log 10) -/
def State.randomWords (s : State) (n : Nat) : State × List Word :=
  (List.range n).foldl (fun (a : State × List Word) _ => (a.1.drew, a.2 ++ [a.1.fresh 32])) (s, [])

/-! ## Consumables (R397, R398) -/

def State.conOf (s : State) (p : Fin 4) : ConPort := s.sec.con[p]

def State.updCon (s : State) (p : Fin 4) (f : ConPort → ConPort) : State :=
  { s with sec := { s.sec with con := s.sec.con.set p (f s.sec.con[p]) } }

/-- A transaction starts on the port. -/
def State.conStage (s : State) (p : Fin 4) (g : ConStage) : State := s.updCon p fun c => { c with stage := g, at_ := s.tsc.toNat }

/-- An authentication starts; a start while the port is busy is discarded. (DESIGN CHOICE: log 61; DEDUCED: log 69) -/
def State.conStart (s : State) (p : Fin 4) : State :=
  if s.flag (F.SEC_CON_CFG_EN p) && (s.conOf p).stage == .idle then
    ((s.putF (F.SEC_CON_STATUS_STATE p) 1).updCon p fun c => { c with chain := [], nonce := [] }).conStage p .header
  else s

/-- Stations that are idle or in their page gap follow the results at once (R398). (DEDUCED: log 69) -/
def State.conGates (s : State) : State := s.each (List.finRange 6) fun a i => if a.stnIdle i then a.conFollow i else a

/-- A switch tick has changed SEC_CON_CFG[p]: an authentication starts, and PERIOD counts from now (R398). -/
def State.conChanged (s : State) (p : Fin 4) : State := (s.updCon p fun c => { c with periodAt := s.tsc.toNat }).conStart p

/-- The result of an authentication. (DESIGN CHOICE: log 20) -/
def State.conEnd (s : State) (p : Fin 4) (result serial : Nat) : State :=
  let s := (s.putF (F.SEC_CON_STATUS_STATE p) result).putB (F.SEC_CON_STATUS_GATED p) (result != 2)
  let s := if result = 2 then s.putP (R.SEC_CON_SERIAL_LO p) serial else s.incR (R.SEC_CON_FAILS p) 1
  let now := s.tsc.toNat
  let s := (s.updCon p fun c => { c with stage := .idle, recAt := if result = 7 then some now else c.recAt }).raise Ev.SEC_CON_AUTH p (BitVec.ofNat 32 result) (BitVec.ofNat 32 serial)
  s.conGates

def State.conLeaf (s : State) (p : Fin 4) : Option Leaf := s.fuse.chainLeaf 3 (s.conOf p).chain

/-- SERIAL of the leaf, once the chain has been read and is valid. -/
def State.conSerial (s : State) (p : Fin 4) : Nat := ((s.conLeaf p).map Leaf.serial).getD 0

/-- The lines (SCL, SDA) that the port drives after a TIMEOUT: 9 clocks of the port's rate, then a STOP, SDA rising while SCL is high
(R397); both released at any other time. (DESIGN CHOICE: log 93) -/
def State.conLines (s : State) (p : Fin 4) : Bool × Bool :=
  match (s.conOf p).recAt with
  | none => (true, true)
  | some t0 =>
    let bit := if s.flag (F.SEC_CON_CFG_SPEED p) then 500 else 2000
    let k := (s.tsc.toNat - t0) / bit
    let high := Nat.ble (bit / 2) ((s.tsc.toNat - t0) % bit)
    if k < 9 then (high, true)
    else if k = 9 then (high, false)
    else (true, true)

/-- Every certificate has been read: stages 2 to 4. -/
def State.conVerify (s : State) (p : Fin 4) : State :=
  match s.conLeaf p with
  | none => s.conEnd p 4 0
  | some l =>
    let mask := s.getF (F.SEC_CON_CFG_MASK p)
    if l.kind ≠ s.getF (F.SEC_CON_CFG_KIND p) ∨ Nat.land mask l.stations ≠ mask then s.conEnd p 6 l.serial
    else if s.rngFail then (s.conStage p .stuck).updCon p fun c => { c with challAt := s.tsc.toNat }
    else
      let r := s.randomWords 8
      (r.1.updCon p fun c => { c with nonce := r.2.flatMap fun w => leBytes 4 w.toNat }).conStage p .challenge

/-- An I²C transaction has ended (Table 19-5). -/
def State.conDone (s : State) (p : Fin 4) (nack : Bool) (data : List Byte) : State :=
  let c := s.conOf p
  match c.stage with
  | .idle => s
  | .wait => s
  | .stuck => s
  | g =>
    if nack then s.conEnd p 3 (s.conSerial p)
    else match g with
      | .header =>
        let n := byteAt data 64
        if 1 ≤ n ∧ n ≤ 3 then (s.updCon p fun x => { x with chain := data.take 72 }).conStage p (.cert 0) else s.conEnd p 4 0
      | .cert i =>
        let s := s.updCon p fun x => { x with chain := x.chain ++ data.take 192 }
        if i + 1 < byteAt c.chain 64 then s.conStage p (.cert (i + 1)) else s.conVerify p
      | .challenge => s.updCon p fun x => { x with stage := .wait, challAt := s.tsc.toNat, pollAt := s.tsc.toNat }
      | .status =>
        if byteAt data 0 = 0 then s.updCon p fun x => { x with stage := .wait }
        else if byteAt data 0 = 1 then s.conStage p .response
        else s.conEnd p 5 (s.conSerial p)
      | .response =>
        (match s.conLeaf p with
         | none => s.conEnd p 4 0
         | some l =>
           if Crypto.ecdsaVerify l.key (Crypto.sha256 (c.nonce ++ leBytes 8 l.serial)) (data.take 64) then s.conEnd p 2 l.serial
           else s.conEnd p 5 l.serial)
      | _ => s

/-- The first OPERATIONAL entry after power-on reset starts every authentication (R398). -/
def State.conBoot (s : State) : State :=
  if s.sec.everUp then s
  else
    let s := { s with sec := { s.sec with everUp := true } }
    s.each (List.finRange 4) State.conChanged

/-! ## Debug port (R399, R400) -/

/-- The token in the window, its length as SEC_DBG_LEN gives it. -/
def State.token (s : State) : List Byte := ((List.range 256).flatMap fun i => leBytes 4 (s.getR (R.SEC_TOKEN i)).toNat).take (s.getF F.SEC_DBG_LEN)

def State.challenge (s : State) : List Byte := (List.range 8).flatMap fun i => leBytes 4 (s.getR (R.SEC_DBG_CHAL i)).toNat

/-- A challenge is drawn into SEC_DBG_CHAL. -/
def State.newChal (s : State) : State :=
  if s.rngFail then s
  else
    let r := s.randomWords 8
    let s := r.1.forEach 8 fun a i => a.putR (R.SEC_DBG_CHAL i) (r.2.getD i 0#32)
    { s with sec := { s.sec with chal := true } }

/-- SEC_DBG_RESULT of an UNLOCK, and the leaf's serial where it succeeds. -/
def State.unlockResult (s : State) : Nat × Nat :=
  if s.flag F.SEC_STATUS_LOCKOUT || s.fuse.permLock then (5, 0)
  else if !s.sec.chal then (4, 0)
  else
    let t := s.token
    let n := 72 + 192 * byteAt t 64
    match (if t.length = n + 64 then s.fuse.chainLeaf 4 (t.take n) else none) with
    | none => (2, 0)
    | some l =>
      let h := Crypto.sha256 (s.challenge ++ s.deviceId ++ leBytes 8 (s.monoLive 2))
      if Crypto.ecdsaVerify l.key h (t.drop n) then (1, l.serial) else (3, 0)

/-- UNLOCK: it consumes the challenge, and opens the debug port or counts a failure. (DESIGN CHOICE: log 61) -/
def State.unlock (s : State) : State :=
  let r := s.unlockResult
  let locked := s.flag F.SEC_STATUS_LOCKOUT
  let s := { s with sec := { s.sec with chal := false } }
  let s := s.forEach 8 fun a i => a.putR (R.SEC_DBG_CHAL i) 0#32
  let s := s.putF F.SEC_DBG_RESULT r.1
  if r.1 = 1 then
    let s := (s.monoSet 2 (s.monoLive 2 + 1)).putF F.SEC_STATUS_DEBUG_UNLOCKED 1
    s.raise Ev.SEC_DEBUG_UNLOCKED 0 (BitVec.ofNat 32 r.2) (BitVec.ofNat 32 (r.2 / 0x100000000))
  else if locked then s
  else
    let n := s.getF F.SEC_STATUS_UNLOCK_FAILS + 1
    (s.putF F.SEC_STATUS_UNLOCK_FAILS n).putB F.SEC_STATUS_LOCKOUT (Nat.ble 3 n)

/-- LOCK: debug-halted threads resume, and a configuration changed under the open port is unsigned (R400). -/
def State.dbgLock (s : State) : State :=
  let s := s.putF F.SEC_STATUS_DEBUG_UNLOCKED 0
  let s := s.mapThr fun _ h => h.resume
  if s.seq.patched then s.markUnsigned else s

/-- A write of SEC_DBG_CTRL: LOCK and UNLOCK together are discarded. -/
def State.dbgCtrl (s : State) (w : Word) : State :=
  let s := if w.getLsbD 0 then s.newChal else s
  if w.getLsbD 1 && w.getLsbD 2 then s
  else
    let s := if w.getLsbD 1 then s.unlock else s
    if w.getLsbD 2 then s.dbgLock else s

end Sys2Proof.Machine
end

