-- ==== Sys2Proof/Machine/OpsPsq.lean ====
section
/-! DEFINITION. Machine/OpsPsq.lean: the always-on supervisor: power-good, rail states, starts and stops, total shut-off,
power-down, lockout, held events and margins (R401–R413), and what the loss and the release of the Core die do. -/

namespace Sys2Proof.Machine

/-! ## Drive-die outputs in the states of R17 and R23 -/

/-- LEN_s is high while the latest downward frame requests it, every ILK_n is closed, and neither the safe state, nor the
stop of Table 1-4, nor a state in which the outputs are off holds (R256, R409, Table 1-6). -/
def State.lenDrive (s : State) : State :=
  let on := s.brg.ilk == 0#4 && !s.outputsHeld && !s.brg.stopped
  { s with brg := { s.brg with len := if on then s.brg.lenReq else 0 } }

/-- Gates low, LEN_0 to LEN_5 low, HV outputs low without ramp, heater outputs off. -/
def State.outputsOff (s : State) : State :=
  let s := (s.allOff).hvAllOff
  let s := s.each (List.finRange 4) State.heaterOff
  { s with brg := { s.brg with lenReq := 0, len := 0 } }

/-! ## Rails (R402) -/

def State.railOf (s : State) (r : Nat) : Rail := s.psq.rail.toList.getD r {}

def State.updRail (s : State) (r : Nat) (f : Rail → Rail) : State :=
  { s with psq := { s.psq with rail := s.psq.rail.setIfInBounds r (f (s.railOf r)) } }

def State.railState (s : State) (r : Nat) : Nat := s.getF (F.PSQ_RAIL_STATUS_STATE r)

/-- The rail's window, moved by the margin in force: is a sensed voltage in mV above its lower and below its upper end? -/
def State.railAbove (s : State) (r vs : Nat) : Bool :=
  let n := s.getF (F.PSQ_RAIL_NOM r) * (1000 + (s.railOf r).margin).toNat
  Nat.blt (n * (1000 + s.getF (F.PSQ_RAIL_WIN_OV r))) (vs * 1000000)

def State.railBelow (s : State) (r vs : Nat) : Bool :=
  let n := s.getF (F.PSQ_RAIL_NOM r) * (1000 + (s.railOf r).margin).toNat
  Nat.blt (vs * 1000000) (n * (1000 - s.getF (F.PSQ_RAIL_WIN_UV r)))

/-- Is the rail good at this voltage and this level of RAIL_nn_PG (R402)? -/
def State.railGood (s : State) (r vs : Nat) (pg : Bool) : Bool :=
  !s.railAbove r vs && !s.railBelow r vs && (pg || !s.flag (F.PSQ_RAIL_CFG_PGUSE r))

/-- Is the voltage under the off threshold? -/
def State.underOff (s : State) (r vs : Nat) : Bool :=
  Nat.blt (vs * 100000) (s.getF (F.PSQ_RAIL_NOM r) * (1000 + (s.railOf r).margin).toNat * s.getF (F.PSQ_RAIL_WIN_OFF r))

/-- Report the sensed voltage and BELOW_OFF. -/
def State.railSense (s : State) (r vs : Nat) : State :=
  (s.putF (F.PSQ_RAIL_STATUS_VS r) (min vs 4095)).putB (F.PSQ_RAIL_STATUS_BELOW_OFF r) (s.underOff r vs)

/-- Enter a rail state: GOOD, enable and, on leaving GOOD, the margin follow (Table 20-2, R413). From the rise of its enable until a
command shows its voltage under the off threshold a rail counts as not below it (R402). Gates and HV outputs go low with VANA_5
(R17). (DEDUCED: log 95) -/
def State.setRail (s : State) (r v : Nat) : State :=
  let was := s.railState r
  let s := s.putF (F.PSQ_RAIL_STATUS_STATE r) v
  let s := (s.putBitF F.PSQ_GOOD r (v == 3)).putBitF F.PSQ_ENABLED r (v == 2 || v == 3)
  let now := s.psq.now
  let s := s.updRail r fun x => { x with
    onAt := if v = 2 then now else x.onAt
    offAt := if (was = 2 ∨ was = 3) ∧ (v = 4 ∨ v = 5) then now else x.offAt
    stop := if v = 0 then false else x.stop
    margin := if v = 3 then x.margin else 0 }
  let s := if v = 3 then s else (s.putF (F.PSQ_RAIL_STATUS_MARGINED r) 0).putF (F.PSQ_RAIL_MARGIN r) 0
  let s := if v = 2 then { s with psq := { s.psq with offSince := none } }.putF (F.PSQ_RAIL_STATUS_BELOW_OFF r) 0 else s
  if was = 3 ∧ v ≠ 3 ∧ r = Config.vanaRail.val then (s.allOff).hvAllLow else s

/-- Does rail `r` depend directly on rail `d`? -/
def State.dependsOn (s : State) (r d : Nat) : Bool := bit (s.getF (F.PSQ_RAIL_DEPS r)) d

/-- A set of rails (a mask) with every rail that depends on one of them, directly or not. -/
def State.dependants (s : State) (m : Nat) : Nat :=
  (List.range 16).foldl (fun m _ => (List.range 16).foldl
    (fun a r => if (List.range 16).any (fun d => bit a d && s.dependsOn r d) then setBit a r true else a) m) m

/-- A set of rails with every rail that one of them depends on, directly or not. -/
def State.dependencies (s : State) (m : Nat) : Nat :=
  (List.range 16).foldl (fun m _ => (List.range 16).foldl
    (fun a d => if (List.range 16).any (fun r => bit a r && s.dependsOn r d) then setBit a d true else a) m) m

/-- A rail in WAIT_DEPS whose dependencies are all GOOD has its enable rise (R403). -/
def State.railsRise (s : State) : State :=
  s.forEach 16 fun a r =>
    if a.railState r = 1 ∧ (List.range 16).all (fun d => !a.dependsOn r d || a.railState d == 3) then a.setRail r 2 else a

/-- Start the rails of a mask that are OFF. -/
def State.railsStart (s : State) (m : Nat) : State :=
  (s.forEach 16 fun a r => if bit m r && a.railState r == 0 then a.setRail r 1 else a).railsRise

/-- A rail to be stopped whose dependants are all off or FAILED enters TURNING_OFF; one that still waits is OFF again
(R406, R409). (DEDUCED: log 63) -/
def State.railsStop (s : State) : State :=
  let s := s.forEach 16 fun a r => if (a.railOf r).stop ∧ a.railState r = 1 then a.setRail r 0 else a
  let off := fun (a : State) (r : Nat) => a.railState r == 0 || a.railState r == 5
  let due := (List.range 16).filter fun r =>
    (s.railOf r).stop && (s.railState r == 2 || s.railState r == 3)
      && (List.range 16).all fun k => !s.dependsOn k r || off s k
  s.each due fun a r => a.setRail r 4

/-- Mark the rails of a mask to be stopped, in reverse dependency order. -/
def State.railsMark (s : State) (m : Nat) : State :=
  (s.forEach 16 fun a r => if bit m r && a.railState r != 0 then a.updRail r fun x => { x with stop := true } else a).railsStop

/-- An engine rail that is managed: boot rails are not commanded. -/
def State.engineRail (s : State) (r : Nat) : Bool := Nat.ble 6 r && s.flag (F.PSQ_RAIL_CFG_EN r)

def engineMask : Nat := 0xFFC0

/-- Start a rail and every engine rail it depends on (R405). -/
def State.railOn (s : State) (r : Nat) : State :=
  s.railsStart (Nat.land (s.dependencies (2 ^ r)) engineMask)

/-! ## Supervisor state, events and time -/

def State.psqState (s : State) : Nat := s.getF F.PSQ_STATUS_STATE

/-- A supervisor event: raised at once while the Core die is up, else held for the next boot (R412). -/
def State.psqEvent (s : State) (id : EvId) (inst : Nat) : State :=
  if s.psq.core && s.flag F.BRG_STATUS_UP && s.psqState != 3 && s.psqState != 5 then s.raise id inst
  else if s.nvm.held.length < 16 then
    { s with nvm := { s.nvm with held := s.nvm.held ++ [{ id := id, inst := inst }] } }
  else { s with nvm := { s.nvm with heldLost := s.nvm.heldLost + 1 } }

/-- Ten minutes, in supervisor microseconds (R408). -/
def tenMinutes : Nat := 600000000

/-- Shut-offs inside the sliding window. (DESIGN CHOICE: log 62) -/
def State.shutFollow (s : State) : State :=
  let l := s.psq.shutoffs.filter fun t => Nat.blt s.psq.now (t + tenMinutes)
  { s with psq := { s.psq with shutoffs := l } }.putF F.PSQ_STATUS_SHUTOFFS (min l.length 3)

/-! ## The Core die -/

/-- Is a register word held in the always-on domain: the supervisor's own registers, and what non-volatile memory holds? (DEDUCED: log 64) -/
def isKept (off : Nat) : Bool :=
  off / 0x10000 == 0x12 || (Nat.ble (R.LDG_METER 0) off && Nat.ble off (R.LDG_METER 775)) || off == R.LDG_UNRESOLVED
    || off == R.EVT_HIST_NEXT || (Nat.ble (R.EVT_HIST 0 0) off && Nat.ble off (R.EVT_HIST 255 7))

/-- The first and last tick of a list of journal entries, if it holds one that counts. -/
def tickRange (l : List (Nat × JEntry)) : Option (Nat × Nat) :=
  match l.filter fun e => e.2.counted with
  | [] => none
  | e :: r => some (r.foldl (fun m x => min m x.1) e.1, r.foldl (fun m x => max m x.1) e.1)

/-- One unresolved record covers what two losses of power left unreported (R379, R385). (DEDUCED: log 64) -/
def joinRange : Option (Nat × Nat) → Option (Nat × Nat) → Option (Nat × Nat)
  | some x, some y => some (min x.1 y.1, max x.2 y.2)
  | none, y => y
  | x, none => x

/-- `t` with what the always-on domain and external flash of `s` hold: `keep` chooses the registers. (DEDUCED: log 64) -/
def State.carry (s t : State) (keep : Nat → Bool) (psq : Super) (nvm : Nvm) (inflight : List (Nat × JEntry)) : State :=
  { t with pending := s.pending, freeCtr := s.freeCtr, regs := s.regs.filter (fun x => keep x.1), nvm := nvm, led := nvm.led,
           fuse := s.fuse, psq := psq, jr := { t.jr with inflight := inflight }, vin := { t.vin with slots := s.vin.slots },
           brg := { t.brg with ilk := s.brg.ilk } }

/-- Everything restarts but that; `lost` are the journal entries that can no longer commit (R379, R407). (DEDUCED: log 64) -/
def State.restart (s : State) (keep : Nat → Bool) (psq : Super) (inflight lost : List (Nat × JEntry)) : State :=
  let nvm := { s.nvm with unresolved := joinRange s.nvm.unresolved (tickRange lost) }
  (s.carry State.reset keep psq nvm inflight).fuseFollow

/-- The Core die loses a supply: it is held in reset until its next release. -/
def State.coreLost (s : State) : State :=
  let dev := s.getF F.DEV_STATE_STATE
  (s.restart isKept { s.psq with core := false, pll := false } s.jr.inflight (s.jr.backlog ++ s.jr.cur)).putF F.DEV_STATE_STATE dev

def State.coreRails (s : State) : Bool := (List.range 4).all fun k => s.railState (k + 2) == 3

/-- The Core die is lost with its rails (R404). (DEDUCED: log 63) -/
def State.coreFollow (s : State) : State := if s.psq.core && !s.coreRails then s.coreLost else s

/-- The Core die is released from reset at supervisor time `t`: the head has address 1 and is aligned (R431, R433). -/
def State.coreStart (s : State) (t : Nat) : State :=
  let s := { s with psq := { s.psq with core := true, coreAt := t, againAt := none } }
  let s := s.putB F.CHN_STATUS_HEAD s.psq.head
  if s.psq.head then (s.putF F.CHN_STATUS_ADDR 1).putF F.CHN_STATUS_ALIGNED 1 else s

/-- A Core die held in reset after a PLL lock timeout is released when its time has come (R423). -/
def State.coreAgain (s : State) : State := match s.psq.againAt with
  | some t =>
    if t ≤ s.psq.now then
      (if s.coreRails && s.psqState == 2 then s.coreStart t else { s with psq := { s.psq with againAt := none } })
    else s
  | none => s

/-- Supervisor time passes. (DESIGN CHOICE: log 62) -/
def State.psqAdvance (s : State) (dt : Nat) : State := ({ s with psq := { s.psq with now := s.psq.now + dt } }.shutFollow).coreAgain

/-- RAIL_02 to RAIL_05 are GOOD: the Core die is released, the straps are sampled, and the state becomes BOOTING (R404,
R456). An engine rail has the configuration of its reset words until a vintage applies. (DEDUCED: log 64; DESIGN CHOICE: log 70) -/
def State.coreRelease (s : State) (head test : Bool) : State :=
  if s.psq.core || !s.coreRails || s.psqState != 1 then s
  else
    let s := { s with psq := { s.psq with head := head, test := test, pllRetries := 0 } }
    ((s.putF F.PSQ_STATUS_STATE 2).setDev 2).coreStart s.psq.now

/-! ## Power-up (R404) -/

/-- MIN_OFF and AC_FILT are those of non-volatile memory, so that they hold while the Core die is unpowered. (DEDUCED: log 63) -/
def State.minOffDone (s : State) : Bool := match s.psq.offSince with
  | some t => Nat.ble (t + 1000 * s.nvm.minOff) s.psq.now
  | none => false

/-- Leave STANDBY for POWERING when the three conditions hold: every boot rail starts. -/
def State.tryPowerUp (s : State) : State :=
  if s.psqState = 0 ∧ s.psq.standby ∧ s.flag F.PSQ_STATUS_AC_OK ∧ s.minOffDone ∧ ¬s.psq.lockout then
    let s := (s.putF F.PSQ_STATUS_STATE 1).setDev 1
    ({ s with psq := { s.psq with total := false, seq := false } }).railsStart 0x3F
  else s

/-! ## Shut-off and power-down (R407–R411) -/

/-- A vintage command that waits for its switch or its check ends with CANCELLED (R45, R48). -/
def State.vinCancel (s : State) (cid : Option (BitVec 16)) (slot : Nat) : State :=
  match cid with
  | some c => (s.putF F.VIN_STATUS_RESULT 9).complete 1 c .vintageFail 9 (BitVec.ofNat 32 slot)
  | none => s

/-- Does a job lead to a switch? -/
def VinJob.switches : VinJob → Option (Option (BitVec 16))
  | .apply c _ => some (some c)
  | .revert c => some (some c)
  | .reload => some none
  | .load _ _ => none
  | .check _ _ => none

/-- Loss of AC_OK before the switch cancels an apply, pending or waiting for its check (R45). (DEDUCED: log 63) -/
def State.cancelApplies (s : State) : State :=
  let s := match s.vin.apply with
    | some a => s.vinCancel a.cid a.slot
    | none => s
  let s := s.each (s.vin.jobs.filterMap VinJob.switches) fun a c => a.vinCancel c (a.getF F.VIN_STATUS_SLOT)
  let s := { s with vin := { s.vin with apply := none, jobs := s.vin.jobs.filter fun j => j.switches.isNone } }
  (s.putF F.VIN_STATUS_PENDING 0).putF F.VIN_STATUS_WHOLE 0

/-- What both ways down do first: outputs, state, PENDING_ENABLE, a pending apply. (DEDUCED: log 63) -/
def State.goDown (s : State) (cause rail : Nat) (above : Bool) : State :=
  let s := (s.outputsOff).forEach 16 fun a r => a.putF (F.PSQ_RAIL_STATUS_PENDING_ENABLE r) 0
  let s := (s.putF F.PSQ_STATUS_STATE 3).setDev 7
  let s := (s.putR R.PSQ_LAST (BitVec.ofNat 32 (cause + 16 * rail + 256 * boolNat above))).putR R.PSQ_FAIL_DOWN 0#32
  s.cancelApplies

/-- Every rail is off: STANDBY, or LOCKOUT as it stands. -/
def State.standbyFollow (s : State) : State :=
  let off := (List.range 16).all fun r => s.flag (F.PSQ_RAIL_STATUS_BELOW_OFF r)
  let s := { s with psq := { s.psq with offSince := if off then (match s.psq.offSince with
    | some t => some t
    | none => some s.psq.now) else none } }
  if (List.range 16).all (fun r => s.railState r == 0) ∧ s.devIs 7 then
    let s := if s.psqState = 3 then s.putF F.PSQ_STATUS_STATE 0 else s
    s.setDev 0
  else s

/-- Every enable drops in the same supervisor cycle. -/
def State.dropEnables (s : State) : State :=
  s.forEach 16 fun a k =>
    if a.railState k = 1 then a.setRail k 0 else if a.railState k = 2 ∨ a.railState k = 3 then a.setRail k 4 else a

/-- The fourth total shut-off in 10 minutes puts the supervisor in lockout (R408). (DEDUCED: log 63) -/
def State.lockoutFollow (s : State) : State :=
  if 4 ≤ s.psq.shutoffs.length ∧ ¬s.psq.lockout then
    let s := { s with psq := { s.psq with lockout := true, lockFell := false } }
    (s.putF F.PSQ_STATUS_STATE 5).psqEvent Ev.PSQ_LOCKOUT 0
  else s

/-- Total shut-off (R407): cause 2 RAIL_FAULT or 3 RAIL_TIMEOUT. (DEDUCED: log 63) -/
def State.shutOff (s : State) (cause r : Nat) (above : Bool) : State :=
  let s := ((s.dropEnables).goDown cause r above).incR R.PSQ_SHUTOFF_CNT 1
  let s := { s with psq := { s.psq with total := true, seq := true, shutoffs := s.psq.now :: s.psq.shutoffs } }.shutFollow
  let id := if cause = 2 then Ev.PSQ_RAIL_FAULT else Ev.PSQ_RAIL_TIMEOUT
  (s.psqEvent id r).lockoutFollow.coreFollow.standbyFollow

/-- AC_OK has fallen through its filter while rails are on (R409, R411). (DEDUCED: log 63) -/
def State.acDown (s : State) : State :=
  let s := (s.goDown 1 0 false).psqEvent Ev.PSQ_AC_LOSS 0
  let s := { s with psq := { s.psq with total := false, seq := false, fellAt := s.psq.now, fell := s.psq.core } }
  if s.psq.core then s.chnAlarm 3 0 else s

/-- Begin to switch the rails off (R409). -/
def State.railSequence (s : State) : State :=
  let s := { s with psq := { s.psq with seq := true } }
  (s.railsMark 0xFFFF).coreFollow.standbyFollow

/-- The last commit word is written, or 300 µs have passed since AC_OK fell; a Core die that was not released has nothing to
commit (R411). -/
def State.sequenceDue (s : State) : Bool :=
  !s.psq.core || Nat.ble (s.psq.fellAt + 300) s.psq.now
    || (s.jr.frozenAc && (s.uncommitted.filter fun e => e.2.counted).isEmpty)

/-- A rail that is enabled stops being good during the sequence of R409 (R410). -/
def State.railFailed (s : State) (r : Nat) : State :=
  let deps := s.dependants (2 ^ r)
  let s := (s.setRail r 5).putBitF F.PSQ_FAIL_DOWN r true
  let s := s.psqEvent Ev.PSQ_RAIL_FAIL_DOWN r
  let s := s.forEach 16 fun a k =>
    if k ≠ r ∧ bit deps k ∧ (a.railState k = 2 ∨ a.railState k = 3) then a.setRail k 4 else a
  s.railsStop.coreFollow.standbyFollow

/-- A rail reaches OFF: rails that wait for it go off, and then, in the next supervisor cycle, a queued start begins (R406, R409). -/
def State.railIsOff (s : State) (r : Nat) : State :=
  let s := (s.setRail r 0).railsStop
  let s := if s.flag (F.PSQ_RAIL_STATUS_PENDING_ENABLE r) then (s.putF (F.PSQ_RAIL_STATUS_PENDING_ENABLE r) 0).railOn r else s
  s.coreFollow.standbyFollow

/-! ## Engine rails under command (R405, R406) -/

/-- A write of PSQ_RAIL_CTRL[r] at the tick boundary in which it takes effect. -/
def State.psqCtrl (s : State) (r : Nat) (w : Word) : State :=
  let on := w.getLsbD 0
  let off := w.getLsbD 1
  if (on && off) || !s.engineRail r || s.psqState != 2 then s
  else if on then
    match s.railState r with
    | 0 => s.railOn r
    | 4 => s.putF (F.PSQ_RAIL_STATUS_PENDING_ENABLE r) 1
    | _ => s
  else if off then
    let s := s.putF (F.PSQ_RAIL_STATUS_PENDING_ENABLE r) 0
    if s.railState r = 0 ∨ s.railState r = 4 then s else s.railsMark (s.dependants (2 ^ r))
  else s

/-- At the switch tick of a whole apply every engine rail with EN and AUTO that is OFF starts. -/
def State.railsAuto (s : State) : State :=
  let m := (List.range 16).foldl (fun m r => if s.engineRail r && s.flag (F.PSQ_RAIL_CFG_AUTO r) then setBit m r true else m) 0
  if s.psqState = 2 then s.railsStart m else s

/-- An engine reset leaves rails as they are, and clears PENDING_ENABLE and every margin (R406). -/
def State.psqEngineReset (s : State) : State :=
  s.forEach 16 fun a r =>
    let a := (a.putF (F.PSQ_RAIL_STATUS_PENDING_ENABLE r) 0).putF (F.PSQ_RAIL_STATUS_MARGINED r) 0
    (a.putF (F.PSQ_RAIL_MARGIN r) 0).updRail r fun x => { x with margin := 0 }

/-! ## Margins (R413) -/

/-- A 7-bit two's-complement number. -/
def marginOf (w : Word) : Int := (w.extractLsb' 0 7).toInt

/-- A write of PSQ_RAIL_MARGIN[r] at the tick boundary in which it takes effect. -/
def State.psqMargin (s : State) (r : Nat) (w : Word) : State :=
  let v := marginOf w
  if v < -50 ∨ 50 < v ∨ s.railState r ≠ 3 then s
  else (s.putF (F.PSQ_RAIL_MARGIN r) (bits w 0 7)).updRail r fun x => { x with stepAt := s.psq.now }

/-- The margin in force moves one step toward its setting, every 100 µs. -/
def State.marginStep (s : State) (r : Nat) : State :=
  let x := s.railOf r
  let set := marginOf (s.getR (R.PSQ_RAIL_MARGIN r))
  if s.railState r = 3 ∧ x.margin ≠ set ∧ x.stepAt + 100 ≤ s.psq.now then
    let m := if x.margin < set then x.margin + 1 else x.margin - 1
    (s.updRail r fun x => { x with margin := m, stepAt := s.psq.now }).putB (F.PSQ_RAIL_STATUS_MARGINED r) (m != 0)
  else s

/-- The current at RAIL_nn_TRIM in units of 1/50 µA: margin ÷ 5% × TRIM_FS. (DEDUCED: log 63) -/
def State.trimCurrent (s : State) (r : Nat) : Int := (s.railOf r).margin * (s.getF (F.PSQ_RAIL_CFG_TRIM_FS r) : Int)

end Sys2Proof.Machine
end

