-- ==== Sys2Proof/Machine/VinCheck.lean ====
section
/-! DEFINITION. Machine/VinCheck.lean: the consistency check (R36, Table 2-2) over the staging bank and the parts of an
image. A rule that fails answers the BAR0 offset of the first field involved and the station concerned (7: none). -/

namespace Sys2Proof.Machine

/-! ## The staging bank -/

/-- Fields of a boot rail other than TRIM_FS are fixed by Table 20-1. -/
def bootFixed (off : Nat) : Word :=
  if off < R.PSQ_RAIL_CFG 0 ∨ R.PSQ_RAIL_CFG 6 ≤ off then 0#32
  else if off % 0x20 = 0 then 0xFFFF00FF#32 else 0xFFFFFFFF#32

/-- What the staging bank holds for a register word. -/
def State.bank (s : State) (off : Nat) : Word :=
  (s.staged off &&& ~~~bootFixed off) ||| (resetWord off &&& bootFixed off)

def State.bf (s : State) (f : Fld) : Nat := bits (s.bank f.off) f.lo f.w

def State.bb (s : State) (f : Fld) : Bool := s.bf f != 0

/-- Stations that the bank enables. -/
def State.bStations (s : State) : List Nat := (List.range 6).filter fun i => s.bb (F.DEC_GEOM_EN i)

/-- The first index whose test fails. -/
def firstBad {α : Type} (l : List α) (ok : α → Bool) (off : α → Nat) (st : α → Nat) : Option (Nat × Nat) :=
  match l.find? fun x => !ok x with
  | some x => some (off x, st x)
  | none => none

def State.perStation (s : State) (off : Nat → Nat) (ok : Nat → Bool) : Option (Nat × Nat) :=
  firstBad s.bStations ok off fun i => i

/-- A test over numbered elements that no station is concerned in. -/
def perItem (n : Nat) (off : Nat → Nat) (ok : Nat → Bool) : Option (Nat × Nat) :=
  firstBad (List.range n) ok off fun _ => 7

/-! ## Class 1: geometry -/

/-- The highest mask a station uses (R208). -/
def State.bMasks (s : State) (i : Nat) : Nat := if s.bb (F.DEC_SHINGLE_ROTATE i) then s.bf (F.DEC_SHINGLE_MASKS i) else 0

def State.vinGeometry (s : State) (img : Image) : List (Nat × (Unit → Option (Nat × Nat))) :=
  let b := fun (i : Nat) => s.bf (F.DEC_GEOM_BEAMS i)
  let k := fun (i : Nat) => s.bf (F.DEC_GEOM_SPACING i)
  let w := fun (i : Nat) => s.bf (F.DEC_WIDTH i)
  let sh := fun (i : Nat) => s.bb (F.DEC_GEOM_SHINGLE i)
  [(1, fun _ => s.perStation R.DEC_GEOM fun i => Nat.ble 1 (b i) && Nat.ble (b i) 32),
   (2, fun _ => s.perStation R.DEC_GEOM fun i => Nat.ble 1 (k i) && Nat.gcd (k i) (b i) == 1),
   (3, fun _ => s.perStation R.DEC_WIDTH fun i => Nat.ble 1 (w i) && Nat.ble (w i) 32768),
   (4, fun _ => s.perStation R.EXP_LINE_MAX fun i => Nat.ble (s.bf (F.EXP_LINE_MAX i)) 96000),
   (5, fun _ => s.perStation R.EXP_LINE_MAX fun i => Nat.ble (s.bf (F.EXP_LINE_MAX i) * w i) 3200000000),
   (6, fun _ => s.perStation R.DEC_SHINGLE fun i =>
      !sh i || Nat.ble (0x30000 + i * 0x100 + (s.bMasks i + 1) * 0x40) img.expo.length),
   (7, fun _ => s.perStation R.DEC_GEOM fun i => !sh i || b i % 2 == 0),
   (8, fun _ => s.perStation R.DEC_GEOM fun i => s.bf (F.DEC_GEOM_DEPTH i) != 3)]

/-! ## Class 2: dot clock and link (R244) -/

/-- Payload limit of two lanes in bits per second, and one block of 66 bits on a lane in femtoseconds (Table 11-7). -/
def payloadLimit (baud : Nat) : Nat := [24200000000, 20000000000, 12100000000].getD baud 0
def blockFs (baud : Nat) : Nat := [5280000, 6400000, 10560000].getD baud 0

def State.bCode (s : State) (i : Nat) : Nat := if s.bb (F.EXL_CFG_MODE i) then 6 else 2 ^ s.bf (F.DEC_GEOM_DEPTH i)

def State.bSeg (s : State) (i : Nat) : Nat := 256 * 2 ^ s.bf (F.EXL_CFG_SEG i)

/-- Q = B × f_max × (c + 128 ÷ SEG) within the limit of the configured rate. -/
def State.payloadOk (s : State) (i : Nat) : Bool :=
  let q := s.bf (F.DEC_GEOM_BEAMS i) * (s.bf (F.EXP_DCLK_MAX i) * 1000) * (s.bCode i * s.bSeg i + 128)
  Nat.ble q (payloadLimit (s.bf (F.EXL_CFG_BAUD i)) * s.bSeg i)

/-- EXP_DCLK_START ÷ 64 ≥ 0.02 × EXP_DCLK_DPS + t_r × f_max, t_r for half the round. -/
def State.leadOk (s : State) (i : Nat) : Bool :=
  let r := 1 + s.bf (F.DEC_GEOM_BEAMS i) * (2 + ceilDiv (s.bSeg i * s.bCode i) 64)
  let tr := ceilDiv r 2 * blockFs (s.bf (F.EXL_CFG_BAUD i))
  -- both sides in 1/64 dot, scaled by 10^15
  let need := 64 * (2 * s.bf (F.EXP_DCLK_DPS i) * 10000000000000 + tr * (s.bf (F.EXP_DCLK_MAX i) * 1000))
  Nat.ble need (s.bf (F.EXP_DCLK_START i) * 1000000000000000)

def State.vinLink (s : State) : List (Nat × (Unit → Option (Nat × Nat))) :=
  let mx := fun (i : Nat) => s.bf (F.EXP_DCLK_MAX i)
  [(1, fun _ => s.perStation R.EXP_DCLK_MAX fun i => Nat.ble 40000 (mx i) && Nat.ble (mx i) 400000),
   (2, fun _ => s.perStation R.EXP_DCLK_MAX fun i =>
      Nat.ble (s.bf (F.EXP_DCLK_DPS i) * s.bf (F.EXP_LINE_MAX i) * 1004) (mx i * 1000 * s.bf (F.DEC_GEOM_BEAMS i) * 1000)),
   (3, fun _ => s.perStation R.EXL_CFG s.payloadOk),
   (4, fun _ => s.perStation R.EXP_DCLK_START s.leadOk)]

/-! ## Class 3: binding -/

def State.bServed (s : State) (p : Nat) : Nat := (s.bStations.filter fun i => s.bf (F.EXP_LCFG_POLY i) == p).length

/-- The first station that a mask names and the bank does not enable. -/
def State.maskBad (s : State) (m : Nat) : Option Nat := (List.range 6).find? fun i => bit m i && !s.bb (F.DEC_GEOM_EN i)

/-- Station masks of the sensors, whether an input is enabled or not (R332): the register that holds each and the mask it gives. (DEDUCED: log 59) -/
def State.sensorMasks (s : State) : List (Nat × Nat) :=
  ((List.range 4).map fun i => (R.MOV_PAPEROUT i, s.bf (F.MOV_PAPEROUT_MASK i)))
    ++ (List.range 32).map fun j => (R.MOV_JW_CFG j, s.getF (F.MOV_JW_CFG_MASK j))

/-- The controller bound by EXP_BANDC names the SC channel of the station, and a motor channel that runs on that channel
(R343). -/
def State.bandcOk (s : State) (i : Nat) : Bool :=
  if s.bb (F.EXP_BANDC_EN i) || s.bb (F.EXP_BANDC_LEARN i) then
    let c := s.bf (F.EXP_BANDC_RC i)
    let sc := 12 + s.bf (F.EXP_LCFG_SC i)
    let m := s.bf (F.CLE_RC_CFG_CHAN c)
    s.bf (F.CLE_RC_CFG_FBKCH c) == sc && Nat.blt m 12 && s.bf (F.MOT_CFG_FBKCH m) == sc
  else true

/-- Class 3 of Table 2-2: bindings. (DEDUCED: log 59) -/
def State.vinBinding (s : State) : List (Nat × (Unit → Option (Nat × Nat))) :=
  [(1, fun _ => s.perStation R.EXP_LCFG fun i => Nat.blt (s.bf (F.EXP_LCFG_SC i)) 6 && Nat.blt (s.bf (F.EXP_LCFG_POLY i)) 6),
   (2, fun _ => s.perStation R.EXP_LCFG fun i => Nat.ble (s.bServed (s.bf (F.EXP_LCFG_POLY i))) 4),
   (3, fun _ => s.sensorMasks.findSome? fun x => (s.maskBad x.2).map fun i => (x.1, i)),
   (4, fun _ => s.perStation R.EXP_BANDC s.bandcOk)]

/-! ## Class 4: ownership -/

def State.bType (s : State) (n : Nat) : Nat := s.bf (F.MOT_CFG_TYPE n)

/-- Half-bridges that hold the roles of a channel (R274, R293). -/
def State.bRoles (s : State) (n : Nat) : List Nat :=
  let hb := fun (k : Nat) => 4 * n + bits (s.bank (R.MOT_HB_MAP n)) (2 * k) 2
  match s.bType n with
  | 1 => [hb 0, hb 1, hb 2]
  | 2 => [hb 0, hb 1, hb 2, hb 3]
  | 3 => [hb 0, hb 1]
  | 4 => if s.bb (F.GDR_HB_CFG_MODE (hb 0)) then [hb 0] else [hb 0, hb 1]
  | _ => []

def State.bOwned (s : State) (h : Nat) : Bool := (List.range 12).any fun n => (s.bRoles n).contains h

def State.bChoppers (s : State) : List Nat := (List.range 4).filter fun i => s.bb (F.MOT_BRK_CFG_EN i)

/-- Pins that the enabled step/direction axes name: STEP, DIR and the fault pin where there is one. -/
def State.sdPins (s : State) : List Nat :=
  (((List.range 8).map (12 + ·)).filter fun a => s.bb (F.MOV_AX_CFG_EN a)).flatMap fun a =>
    [s.bf (F.MOV_SD_CFG_STEP (a - 12)), s.bf (F.MOV_SD_CFG_DIR (a - 12))] ++
      (if s.bf (F.MOV_SD_CFG_FPIN (a - 12)) = 0x3F then [] else [s.bf (F.MOV_SD_CFG_FPIN (a - 12))])

/-- Is no number of a list in it twice? -/
def noTwice : List Nat → Bool
  | [] => true
  | a :: r => !r.contains a && noTwice r

def policyOk (type policy : Nat) : Bool :=
  policy == 0 || (policy == 1 && Nat.ble 1 type && Nat.ble type 3) || (policy == 2 && type == 0)

/-- Offsets named by output selectors with EN = 1, the selectors of disabled slots included (R334). (DEDUCED: log 59) -/
def State.slotOutputs (s : State) : List Nat :=
  ((List.range 256).filter fun n => (s.bank (R.CLE_SLOT_OUT n)).getLsbD 31).map fun n =>
    bits (s.bank (R.CLE_SLOT_OUT n)) 0 24

/-- Class 4 of Table 2-2: ownership. A chopper on a half-bridge that a motor role holds fails rule 3; rule 1 is left to two choppers on
one half-bridge. (DEDUCED: log 59) -/
def State.vinOwnership (s : State) : List (Nat × (Unit → Option (Nat × Nat))) :=
  let hb := fun (i : Nat) => s.bf (F.MOT_BRK_CFG_HB i)
  [(1, fun _ => firstBad s.bChoppers (fun i => !(s.bChoppers.any fun j => Nat.blt j i && hb j == hb i)) R.MOT_BRK_CFG fun _ => 7),
   (2, fun _ => perItem 12 R.MOT_HB_MAP fun n => (s.bRoles n).all fun h => h / 4 == n),
   (3, fun _ => firstBad s.bChoppers (fun i => Nat.blt (hb i) 48 && !s.bOwned (hb i)) R.MOT_BRK_CFG fun _ => 7),
   (4, fun _ => perItem 12 R.MOT_HB_MAP fun n => noTwice (s.bRoles n)),
   (5, fun _ => perItem 12 R.MOT_AIN fun n =>
      !(s.bType n == 1 || s.bType n == 2) || s.bb (F.MOT_CFG_ISENSE n) || s.bf (F.MOT_AIN_IA n) % 8 != s.bf (F.MOT_AIN_IB n) % 8),
   (6, fun _ => perItem 12 R.GDR_GRP_CFG fun g => policyOk (s.bType g) (s.bf (F.GDR_GRP_CFG_POLICY g))),
   (7, fun _ => perItem 12 R.MOV_AX_CFG fun a => !(s.bType a == 1 && s.bb (F.MOV_AX_CFG_EN a)) || s.bf (F.MOV_AX_CFG_STILL a) == 0),
   (8, fun _ => if noTwice s.sdPins then none else some (R.MOV_SD_CFG 0, 7)),
   (9, fun _ => if noTwice s.slotOutputs then none else some (R.CLE_SLOT_OUT 0, 7))]

/-! ## Class 5: budgets -/

def State.bThreads (s : State) : List Nat := (List.range 16).filter fun t => s.bb (F.SEQ_THR_CFG_EN t)

def State.bSlots (s : State) : List Nat := (List.range 256).filter fun n => s.bb (F.CLE_SLOT_CFG_EN n)

/-- Registers that a chapter names as a slot output (R334, R356, R364). -/
def slotOutput (off : Nat) : Bool :=
  (List.range 12).any (fun n => off == R.MOT_ID_REF n || off == R.MOT_IQ_REF n)
    || (Nat.ble (R.CLE_SLOT_RCONST 0) off && Nat.ble off (R.CLE_SLOT_RCONST 255) && (off - R.CLE_SLOT_RCONST 0) % 0x20 == 0)
    || (List.range 4).any (fun h => off == R.IRN_HTR_CMD h)
    || (List.range 24).any (fun c => off == R.HVS_SET c || off == R.HVS_AC_SET c)

/-- Is a selector permitted (R334, Table 16-2)? One with EN = 0 names nothing. -/
def selectorOk (sel : Word) (out : Bool) : Bool :=
  let off := bits sel 0 24
  let fmt := bits sel 24 2
  if !sel.getLsbD 31 then true
  else bits sel 26 5 == 0 && off % 4 == 0 && Nat.blt fmt (if out then 2 else 3) &&
    (if out then slotOutput off
     else match findReg off with
       | some r => off / 0x10000 != 0x14 && r.rc == 0 && r.wo == 0
       | none => false)

def coefAt (img : Image) (n r i : Nat) : F32 :=
  BitVec.ofNat 32 (ofLeBytes ((img.coef.drop (0x200 * n + 0x40 * r + 4 * i)).take 4))

/-- The regions of a slot ascend without gaps (R337). -/
def State.regionsOk (s : State) (img : Image) (n : Nat) : Bool :=
  let last := s.bf (F.CLE_SLOT_CFG_NREG n)
  (List.range (last + 1)).all fun i => F32.lt (coefAt img n i 9) (coefAt img n i 10)
    && (i == last || F32.eq (coefAt img n i 10) (coefAt img n (i + 1) 9))

def State.vinBudgets (s : State) (img : Image) : List (Nat × (Unit → Option (Nat × Nat))) :=
  let cost := (s.bSlots.map fun n => if s.bb (F.CLE_SLOT_CFG_FORM n) then 5 else 4).foldl (· + ·) 0
    + 3 * ((List.range 8).filter fun c => s.bb (F.CLE_RC_CFG_EN c)).length
  let budget := fun (t : Nat) => s.bf (F.SEQ_THR_CFG_BUDGET t)
  let worst := fun (t : Nat) => match img.worst.find? fun x => x.1 == t with
    | some x => Nat.ble x.2 (budget t)
    | none => false
  [(1, fun _ => if (s.bThreads.map budget).foldl (· + ·) 0 ≤ 3600 then none else some (R.SEQ_THR_CFG (s.bThreads.headD 0), 7)),
   (2, fun _ => firstBad s.bThreads worst R.SEQ_THR_CFG fun _ => 7),
   (3, fun _ => if s.bSlots.length ≤ 256 then none else some (R.CLE_SLOT_CFG 0, 7)),
   (4, fun _ => if cost ≤ 1098 then none else some (R.CLE_SLOT_CFG (s.bSlots.headD 0), 7)),
   (5, fun _ => (List.range 256).findSome? fun n =>
      firstBad [(R.CLE_SLOT_REF n, false), (R.CLE_SLOT_FB n, false), (R.CLE_SLOT_OUT n, true), (R.CLE_SLOT_SEL n, false)]
        (fun x => selectorOk (s.bank x.1) x.2) Prod.fst fun _ => 7),
   (6, fun _ => firstBad s.bSlots (s.regionsOk img) R.CLE_SLOT_CFG fun _ => 7)]

/-! ## Class 6: memory -/

/-- Every temperature band that THM_EXP_SEL can report for a station has a VALID region (R210). -/
def State.bandsOk (s : State) (img : Image) (i : Nat) : Bool :=
  let v := bits (s.bank R.THM_EXP_SEL) (4 * i) 4
  let bands := if bit v 3 && s.bb (F.THM_BAND_CFG_EN (v % 8)) then 4 else 1
  (List.range bands).all fun t => (List.range 4).any fun d =>
    bit (img.expo.getD (i * 0x8000 + 0x2400 + 4 * t + d) 0#8).toNat 0

/-- Class 6 of Table 2-2: memory. (DEDUCED: log 59) -/
def State.vinMemory (s : State) (img : Image) : List (Nat × (Unit → Option (Nat × Nat))) :=
  [(1, fun _ => if (s.getR R.RCK_RES_TOTAL).toNat ≤ (s.getR R.RCK_RES_CAP).toNat then none else some (R.RCK_RES_TOTAL, 7)),
   (2, fun _ => s.perStation (fun _ => R.THM_EXP_SEL) (s.bandsOk img))]

/-! ## Class 7: rails -/

/-- Rails that a set of rails depends on, directly. -/
def State.bNeeds (s : State) (m : Nat) : Nat :=
  (List.range 16).foldl (fun a r => if bit m r then a ||| s.bf (F.PSQ_RAIL_DEPS r) else a) 0

/-- Does a rail depend on itself, directly or not? -/
def State.cyclic (s : State) (r : Nat) : Bool :=
  bit ((List.range 16).foldl (fun m _ => m ||| s.bNeeds m) (s.bf (F.PSQ_RAIL_DEPS r))) r

def State.vinRails (s : State) : List (Nat × (Unit → Option (Nat × Nat))) :=
  let managed := fun (r : Nat) => (List.range 16).all fun d => !bit (s.bf (F.PSQ_RAIL_DEPS r)) d || s.bb (F.PSQ_RAIL_CFG_EN d)
  [(1, fun _ => perItem 16 R.PSQ_RAIL_DEPS fun r => !s.cyclic r),
   (2, fun _ => perItem 16 R.PSQ_RAIL_DEPS managed),
   (3, fun _ => perItem 16 R.PSQ_RAIL_DEPS fun r => !bit (s.bf (F.PSQ_RAIL_DEPS r)) r && managed r)]

/-! ## Class 8: limits -/

def f32of (n : Nat) : F32 := F32.ofNat n

/-- F0 and F1 of a sine sweep lie in 0.01 to 12,500 Hz (R344). -/
def sweepOk (f : F32) : Bool := F32.le (F32.ofRat 1 100) f && F32.le f (f32of 12500)

/-- VMAX of a step/direction axis is at most 1 ÷ (2 × PW × 100 ns) (R326). -/
def State.stepRateOk (s : State) (a : Nat) : Bool :=
  F32.le (s.getR (R.MOV_AX_VMAX a)) (F32.div (f32of 5000000) (f32of (s.bf (F.MOV_SD_TIM_PW (a - 12)))))

/-- High-side duty of a refresh period is at least 90% (R297). -/
def State.refreshOk (s : State) (h : Nat) : Bool :=
  let period := if s.bb (F.MOT_CFG_PERIOD (h / 4)) then 40000 else 20000
  s.bf (F.GDR_HB_CFG_CLAMP h) != 1000
    && Nat.ble (10 * (s.bf F.GDR_REFRESH + 2 * (50 + 5 * s.bf (F.GDR_HB_CFG_DT h)))) period

def heaterFreqOk (lo hi : Nat) : Bool := Nat.blt lo hi && Nat.ble 2000 lo && Nat.ble hi 10000

def State.cutsOk (s : State) (j : Nat) : Bool :=
  let c := fun (f : Fld) => (BitVec.ofNat 16 (s.bf f)).toInt
  !s.bb (F.THM_BAND_CFG_EN j) || (decide (c (F.THM_BAND_CUT01_CUT_0 j) ≤ c (F.THM_BAND_CUT01_CUT_1 j))
    && decide (c (F.THM_BAND_CUT01_CUT_1 j) ≤ c (F.THM_BAND_CUT2_CUT_2 j)))

def State.dutyOk (s : State) (i : Nat) : Bool :=
  Nat.ble (s.bf (F.DEC_DUTY_CUT_0 i)) (s.bf (F.DEC_DUTY_CUT_1 i)) && Nat.ble (s.bf (F.DEC_DUTY_CUT_1 i)) (s.bf (F.DEC_DUTY_CUT_2 i))

/-- Strictly ascending breakpoints of the phase-advance table (ch. 13). -/
def State.padvOk (s : State) (n : Nat) : Bool :=
  (List.range (s.bf (F.MOT_CFG_NADV n) - 1)).all fun i => F32.lt (s.bank (R.MOT_PADV_SPD n i)) (s.bank (R.MOT_PADV_SPD n (i + 1)))

/-- The conditions that chapters give without a number (rule 0 of class 8). (DEDUCED: log 59) -/
def State.unnumbered (s : State) : Option (Nat × Nat) :=
  let t1 := fun (n : Nat) => s.bType n == 1
  let chk := [
    perItem 18 R.FBK_CFG fun c => (if c < 12 then [0, 1, 2] else [0, 4, 5]).contains (s.bf (F.FBK_CFG_MODE c)),
    perItem 12 R.MOT_CFG fun n => Nat.ble (s.bType n) 4 && (!s.bb (F.MOT_CFG_ISENSE n) || (t1 n && !s.bb (F.MOT_CFG_PERIOD n))),
    perItem 12 R.MOT_HO_LO fun n =>
      !(t1 n && Nat.ble 4 (s.bf (F.MOT_CFG_POS_SRC n)) && Nat.ble (s.bf (F.MOT_CFG_POS_SRC n)) 5) || F32.lt (s.bank (R.MOT_HO_LO n)) (s.bank (R.MOT_HO_HI n)),
    perItem 12 R.MOT_OL_I fun n => !(t1 n && s.bf (F.MOT_CFG_POS_SRC n) == 5)
      || (F32.lt 0#32 (s.bank (R.MOT_OL_I n)) && F32.lt 0#32 (s.bank (R.MOT_OL_RATE n))),
    perItem 12 (fun n => R.MOT_PADV_SPD n 0) s.padvOk,
    perItem 4 R.MOT_BRK_OFF fun i => !s.bb (F.MOT_BRK_CFG_EN i) || Nat.blt (s.bf (F.MOT_BRK_OFF i)) (s.bf (F.MOT_BRK_ON i)),
    perItem 4 R.GDR_BUS_TRIP fun i =>
      !s.bb (F.GDR_BUS_CFG_EN i) || Nat.blt (s.bf (F.GDR_BUS_WARN_LEVEL i)) (s.bf (F.GDR_BUS_TRIP_LEVEL i)),
    perItem 12 (fun a => R.MOV_STP_THR a 0) fun a => !(s.bType a == 2 && s.bb (F.MOV_AX_CFG_EN a))
      || (List.range 3).all fun i => F32.lt (s.bank (R.MOV_STP_THR a i)) (s.bank (R.MOV_STP_THR a (i + 1))),
    perItem 24 R.HVS_AC_FREQ fun c =>
      Nat.ble 500 (s.bf (F.HVS_AC_FREQ c)) && Nat.ble (s.bf (F.HVS_AC_FREQ c)) 4000]
  chk.findSome? id

/-- Class 8 of Table 2-2: limits. (DEDUCED: log 59) -/
def State.vinLimits (s : State) : List (Nat × (Unit → Option (Nat × Nat))) :=
  [(1, fun _ => if decide ((BitVec.ofNat 16 (s.bf F.THM_DIE)).toInt ≤ 2000) then none else some (R.THM_DIE, 7)),
   (2, fun _ => perItem 48 R.GDR_HB_CFG fun h => !s.bb (F.GDR_HB_CFG_BOOT h) || s.refreshOk h),
   (3, fun _ => firstBad (((List.range 8).map (12 + ·)).filter fun a => s.bb (F.MOV_AX_CFG_EN a)) s.stepRateOk R.MOV_AX_VMAX fun _ => 7),
   (4, fun _ => perItem 2 R.CLE_INJ_F0 fun g => s.getF (F.CLE_INJ_CFG_KIND g) != 2
      || (sweepOk (s.getR (R.CLE_INJ_F0 g)) && sweepOk (s.getR (R.CLE_INJ_F1 g)))),
   (5, fun _ => (perItem 8 R.THM_BAND_CUT01 s.cutsOk).or (s.perStation R.DEC_DUTY s.dutyOk)),
   (6, fun _ => perItem 4 R.IRN_IND_FREQ fun h => heaterFreqOk (s.bf (F.IRN_IND_FREQ_FMIN h)) (s.bf (F.IRN_IND_FREQ_FMAX h))),
   (7, fun _ => perItem 4 R.IRN_HTR_PROT fun h => s.bf (F.IRN_HTR_CFG_MODE h) == 0 || s.bf (F.IRN_HTR_PROT_MASK h) != 0),
   (0, fun _ => s.unnumbered)]

/-! ## Class 9: image -/

def State.vinImage (s : State) (img : Image) (preloadOk : Bool) : List (Nat × (Unit → Option (Nat × Nat))) :=
  let need := fun (b : Bool) => if b then none else some (0, 7)
  [(1, fun _ => need preloadOk), (2, fun _ => need (img.certHash == img.hashes.getD 1 0)), (3, fun _ => need (Nat.ble img.floor.toNat img.version.toNat)),
   (4, fun _ => need (Nat.ble (s.monoLive 0) img.version.toNat))]

/-! ## The check -/

/-- The outcome of one failing rule: class, rule, offset, station. -/
structure CheckFail where
  cls : Nat
  rule : Nat
  off : Nat
  st : Nat
  deriving DecidableEq, Repr

def runClass (c : Nat) (l : List (Nat × (Unit → Option (Nat × Nat)))) : Option CheckFail :=
  l.findSome? fun r => (r.2 ()).map fun x => { cls := c, rule := r.1, off := x.1, st := x.2 }

/-- The first failing rule, in ascending class and number, rule 0 of a class last. (DEDUCED: log 59) -/
def State.vinCheck (s : State) (img : Image) (preloadOk : Bool) : Option CheckFail :=
  (runClass 1 (s.vinGeometry img)).or <| (runClass 2 s.vinLink).or <| (runClass 3 s.vinBinding).or <|
  (runClass 4 s.vinOwnership).or <| (runClass 5 (s.vinBudgets img)).or <| (runClass 6 (s.vinMemory img)).or <|
  (runClass 7 s.vinRails).or <| (runClass 8 s.vinLimits).or <| runClass 9 (s.vinImage img preloadOk)

end Sys2Proof.Machine
end

