-- ==== Sys2Proof/Machine/OpsVin.lean ====
section
/-! DEFINITION. Machine/OpsVin.lean: vintages: verification and the staging bank (R32–R36), acceptance of an apply
(R37, R38, R45), the two kinds of switch (R39–R43), abandonment (R42), the index and the floor (R33, R39, R46, R47). -/

namespace Sys2Proof.Machine

/-! ## Results (R48) -/

/-- End a vintage command with a result of Table 2-4. -/
def State.vinDone (s : State) (cid : Option (BitVec 16)) (res : Nat) (slot : Nat) (tick : Nat := 0) : State :=
  match cid with
  | none => s
  | some c => (s.putF F.VIN_STATUS_RESULT res).complete 1 c (if res = 0 then .ok else .vintageFail) res (BitVec.ofNat 32 slot)
      (BitVec.ofNat 32 tick)

/-- VIN_STATUS.PENDING is set or a station's fields are deferred: a further apply, revert or check is BUSY (R45). -/
def State.vinBusy (s : State) : Bool := s.vin.apply.isSome || s.getF F.VIN_STATUS_DEFERRED != 0

/-- VERSION registers follow the index. -/
def State.vinFollow (s : State) : State :=
  let ver := fun (k : Option (Fin 8)) => match k.bind fun n => s.vin.slots[n] with
    | some im => im.version
    | none => 0#32
  (s.putR R.VIN_CUR_VERSION (ver s.vin.cur)).putR R.VIN_PREV_VERSION (ver s.vin.prev)

/-! ## Verification (R32, R393) -/

/-- The image has the shape of Table 2-1: its magic, the sizes its Header gives, and at most 1 MiB. (DESIGN CHOICE: log 83) -/
def Image.shapeOk (img : Image) : Bool :=
  img.magic == 0x5649 && img.sizes == img.parts.map List.length
    && Nat.ble (((img.header :: img.parts).map List.length).foldl (· + ·) (img.chain.length + img.sig.length)) 0x100000
    && Nat.ble img.program.length 0x40000 && Nat.ble img.data.length 0x20000 && Nat.ble img.coef.length 0x40000
    && Nat.ble img.expo.length 0x40000

/-- Each part hash in the Header matches its part (R393). -/
def Image.hashesOk (img : Image) : Bool := img.hashes == img.parts.map Crypto.sha256

/-- The Signature part verifies (R32, R393): its chain is valid for signing vintages, and the signature verifies under the
leaf key over SHA-256 of every preceding part. -/
def State.signatureOk (s : State) (img : Image) : Bool :=
  match s.fuse.chainLeaf 2 img.chain with
  | some l => img.sig.length == 64 && Crypto.ecdsaVerify l.key (Crypto.sha256 (img.header ++ img.parts.flatten)) img.sig
  | none => false

/-- The image verifies (R32, R393). -/
def State.imageSigned (s : State) (img : Image) : Bool := Image.shapeOk img && Image.hashesOk img && s.signatureOk img

/-- The anti-rollback floor (R46), raises that are journalled included. -/
def State.belowFloor (s : State) (img : Image) : Bool := Nat.blt img.version.toNat (s.monoLive 0)

/-- The staging-bank image as a canonical map: ST fields only. -/
def bankOf (l : List (Nat × Word)) : SMap Word :=
  l.foldl (fun m x => match findReg x.1 with
    | some r => SMap.set resetWord m x.1 ((x.2 &&& BitVec.ofNat 32 r.st) ||| (resetWord x.1 &&& ~~~BitVec.ofNat 32 r.st))
    | none => m) []

/-- Fill the staging bank and the preload area from an image. -/
def State.fillBank (s : State) (slot : Fin 8) (img : Image) : State :=
  let s := { s with stage := bankOf img.stage, vin := { s.vin with preload := some img } }
  let s := (s.putF F.VIN_STATUS_SLOT slot).putF F.VIN_STATUS_LOADED 1
  (s.putF F.VIN_STATUS_DIRTY 0).putF F.VIN_STATUS_CHECKED 0

/-! ## The check (R36) -/

/-- Record what the check found; `true` where it passed. -/
def State.runCheck (s : State) (img : Image) (preloadOk : Bool) : State × Option CheckFail :=
  match s.vinCheck img preloadOk with
  | none =>
    (((s.putR R.VIN_CHECK_RESULT (resetWord R.VIN_CHECK_RESULT)).putR R.VIN_CHECK_OFFSET 0#32).putF F.VIN_STATUS_CHECKED 1, none)
  | some f =>
    let s := ((s.putF F.VIN_CHECK_RESULT_CLASS f.cls).putF F.VIN_CHECK_RESULT_RULE f.rule).putF F.VIN_CHECK_RESULT_STATION f.st
    ((s.putR R.VIN_CHECK_OFFSET (BitVec.ofNat 32 f.off)).putF F.VIN_STATUS_CHECKED 0, some f)

/-- The code of Table 2-4 for a failing rule. -/
def CheckFail.result (f : CheckFail) : Nat := if f.cls = 9 ∧ f.rule = 4 then 2 else 4

/-- Read a slot, verify it, fill the staging bank and run the check: the code of Table 2-4. -/
def State.checkSlot (s : State) (slot : Fin 8) (flashOk preloadOk : Bool) : State × Nat :=
  match s.vin.slots[slot] with
  | none => (s.putR R.VIN_CHECK_RESULT (resetWord R.VIN_CHECK_RESULT), 1)
  | some img =>
    if flashOk && s.imageSigned img then
      let r := (s.fillBank slot img).runCheck img preloadOk
      (r.1, match r.2 with
        | none => 0
        | some f => f.result)
    else (s.putR R.VIN_CHECK_RESULT (resetWord R.VIN_CHECK_RESULT), 1)

/-- The check over the staging bank as it stands, before an apply (R37). -/
def State.checkBank (s : State) (preloadOk : Bool) : State × Nat :=
  match s.vin.preload with
  | none => (s.putR R.VIN_CHECK_RESULT (resetWord R.VIN_CHECK_RESULT), 4)
  | some img =>
    let r := s.runCheck img preloadOk
    (r.1, match r.2 with
      | none => 0
      | some f => f.result)

/-! ## Acceptance (R37, R38, R113) -/

/-- Do the parts of two images differ? -/
def partsDiffer (a b : Image) : Bool := a.program != b.program || a.data != b.data || a.coef != b.coef || a.expo != b.expo

/-- Is the apply a whole apply (R37)? In NO_VINTAGE every apply is. -/
def State.wholeApply (s : State) : Bool :=
  s.devIs 3 || (match s.vin.preload, s.vin.inForce with
    | some a, some b => partsDiffer a b
    | _, _ => true)

def State.dramOk (s : State) : Bool := s.flag F.MEM_STATUS_TRAINED

/-- Accept an apply: it is pending until its switch. (DEDUCED: log 57) -/
def State.acceptApply (s : State) (cid : BitVec 16) (at_ : Nat) (revert : Bool) : State :=
  let whole := s.wholeApply
  let at_ := if at_ = 0 then s.tick + 2 else at_
  let job : ApplyJob := { cid := some cid, at_ := at_, whole := whole, slot := Fin.ofNat 8 (s.getF F.VIN_STATUS_SLOT), revert := revert,
                          dirty := s.flag F.VIN_STATUS_DIRTY }
  let s := (s.setVin { s.vin with apply := some job }).putF F.VIN_STATUS_PENDING 1
  ((s.putB F.VIN_STATUS_WHOLE whole).putP R.VIN_APPLY_TICK_LO at_).fire 0x0D 0 true

/-- Why a VINTAGE_APPLY for tick `at_` is refused at once, if it is. (DEDUCED: log 57) -/
def State.applyRefusal (s : State) (at_ : Nat) : Option Nat :=
  if s.vinBusy then some 6
  else if s.devIs 3 && !s.flag F.VIN_STATUS_LOADED then some 4
  else if s.flag F.VIN_STATUS_DIRTY && (s.devIs 3 || !s.dbgOpen) then some 5
  else if s.wholeApply && !s.dramOk then some 8
  else if at_ ≠ 0 ∧ at_ < s.tick + 2 then some 7
  else none

/-! ## ST writes (R34, R45) -/

/-- The write lands in the staging bank. -/
def State.stageWrite (s : State) (off : Nat) (w : Word) : State :=
  match findReg off with
  | none => s
  | some r =>
    let m := BitVec.ofNat 32 r.st &&& ~~~bootFixed off
    if m = 0#32 then s
    else
      let s := s.putStaged off ((s.staged off &&& ~~~m) ||| (w &&& m))
      (s.putF F.VIN_STATUS_DIRTY 1).putF F.VIN_STATUS_CHECKED 0

/-- A write of ST fields: held once the switch can no longer be cancelled, else it cancels a pending apply. (DEDUCED: log 58) -/
def State.stWrite (s : State) (off : Nat) (w : Word) : State :=
  match findReg off with
  | none => s
  | some r =>
    if BitVec.ofNat 32 r.st &&& ~~~bootFixed off = 0#32 then s
    else match s.vin.apply with
      | none => s.stageWrite off w
      | some a =>
        if (a.whole && a.h.isSome) || (!a.whole && Nat.ble a.at_ s.tick) then
          s.setVin { s.vin with held := s.vin.held ++ [(off, w)] }
        else (s.dropApply.vinDone a.cid 9 a.slot).stageWrite off w

/-- Writes that were held land after the switch. (DEDUCED: log 58) -/
def State.landHeld (s : State) : State :=
  let l := s.vin.held
  (s.setVin { s.vin with held := [] }).each l fun a x => a.stageWrite x.1 x.2

/-! ## The switch: fields (R39, R41) -/

/-- Offsets at which the staging bank and the registers may differ. -/
def State.stOffsets (s : State) : List Nat := (s.stage.map Prod.fst ++ s.regs.map Prod.fst).eraseDups

/-- The bits of an ST register that a settings apply leaves for later. -/
def deferMask (off : Nat) : Word :=
  let b := off / 0x10000
  if b = 2 then
    (if off = R.SEQ_CTRL then 0xFFFFFFFF#32
     else if (List.range 16).any (fun n => off == R.SEQ_THR_CFG n) then 0xFFF1#32
     else if (List.range 16).any (fun n => off == R.SEQ_THR_ENTRY n) then 0xFFFFFFFF#32
     else 0#32)
  else if (List.range 6).any (fun i => off == R.DEC_WIN_GRAN i || off == R.EXL_CFG i) then 0xFFFFFFFF#32
  else if (List.range 12).any (fun n => off == R.MOT_CFG n) then 0x2007#32
  else if (List.range 12).any (fun n => off == R.MOT_HB_MAP n) then 0xFFFFFFFF#32
  else gbMask off

/-- Take the staged values of every ST field but those of `skip`. -/
def State.takeStage (s : State) (skip : Nat → Word) : State :=
  s.each s.stOffsets fun a off =>
    match findReg off with
    | some r =>
      let m := BitVec.ofNat 32 r.st &&& ~~~skip off &&& ~~~bootFixed off
      let w := (a.getR off &&& ~~~m) ||| (a.staged off &&& m)
      if w = a.getR off then a else a.putR off w
    | none => a

/-- Slots whose CFG, REF, FB or SEL the switch changes start afresh (R341). -/
def State.changedSlots (s : State) : List (Fin 256) :=
  let diff := fun (off : Nat) => s.staged off != s.getR off
  (List.finRange 256).filter fun n =>
    diff (R.CLE_SLOT_CFG n) || diff (R.CLE_SLOT_REF n) || diff (R.CLE_SLOT_FB n) || diff (R.CLE_SLOT_SEL n)

/-- Ports whose SEC_CON_CFG the switch changes (R398). -/
def State.changedPorts (s : State) : List (Fin 4) :=
  (List.finRange 4).filter fun p => s.staged (R.SEC_CON_CFG p) != s.getR (R.SEC_CON_CFG p)

/-- Stations whose G or B fields, or whose EXL_CFG, differ between the applied bank and the registers. -/
def State.geomChanged (s : State) : List (Fin 6) := (List.finRange 6).filter s.deferredAt

def State.linkChanged (s : State) : List (Fin 6) :=
  (List.finRange 6).filter fun i => s.appl (R.EXL_CFG i) != s.getR (R.EXL_CFG i)

/-- MIN_OFF and AC_FILT are journalled at each switch that changes them (R404). -/
def State.psqJournal (s : State) (old : Word) : State :=
  if s.getR R.PSQ_CFG = old then s
  else s.journal (.psqCfg (s.getF F.PSQ_CFG_MIN_OFF) (s.getF F.PSQ_CFG_AC_FILT))

/-! ## Pages of an old geometry (R43) -/

def State.stalePage (s : State) (p : Page) : Bool := p.planes.any fun q => q.gen != s.getF (F.PRS_GEOM_GEN q.station)

/-- Stored pages that are not picked leave with STALE_GEOMETRY. -/
def State.discardStale (s : State) : State :=
  s.each (s.cel.pages.filter fun p => (p.st == .stored || p.st == .committed) && s.stalePage p) fun a p =>
    a.retire p .staleGeometry (a.spoiledPage p)

/-! ## The switch: index (R39, R46, R47) -/

/-- The marks after the switch, and the floor. A dirty bank leaves the marks (R35). (DEDUCED: log 57) -/
def State.moveMarks (s : State) (job : ApplyJob) : State :=
  let img := s.vin.preload
  let floor := max (s.monoLive 0) ((img.map fun i => i.floor.toNat).getD 0)
  if job.dirty then (s.setVin { s.vin with unsigned := true }).journal (.index s.vin.cur s.vin.prev (s.monoLive 0) true)
  else
    let prev := if s.vin.cur = some job.slot then s.vin.prev else s.vin.cur
    let s := s.setVin { s.vin with cur := some job.slot, prev := prev, unsigned := false }
    (s.journal (.index s.vin.cur s.vin.prev floor false)).vinFollow

/-- What both kinds of switch do at their end. -/
def State.endSwitch (s : State) (job : ApplyJob) : State :=
  let s := (s.moveMarks job).setVin { (s.moveMarks job).vin with inForce := s.vin.preload }
  let s := (s.dropApply).putP R.VIN_SWITCH_TICK_LO s.tick
  let s := s.each (List.finRange 6) State.dclkClamp
  (s.vinDone job.cid 0 job.slot s.tick).landHeld

/-! ## Settings apply (R39) -/

/-- The switch of a settings apply (R39). (DEDUCED: log 57) -/
def State.settingsSwitch (s : State) (job : ApplyJob) : State :=
  let slots := s.changedSlots
  let ports := s.changedPorts
  let psq := s.getR R.PSQ_CFG
  let s := s.setVin { s.vin with applied := s.stage }
  let geom := s.geomChanged
  let links := s.linkChanged
  let s := { s.takeStage deferMask with seq := { (s.takeStage deferMask).seq with budgetDue := true } }
  -- stations: deferred fields and the generation
  let s := s.each geom fun a i => (a.putF (F.PRS_GEOM_GEN i) (a.getF (F.PRS_GEOM_GEN i) + 1)).putBitF F.VIN_STATUS_DEFERRED i true
  let s := s.discardStale
  let s := s.each geom fun a i => if a.stnIdle i then a.deferredGap i else a
  -- links, motors, slots, ports, rails
  let s := s.each links State.askRetrain
  let s := s.each (List.finRange 12) fun a n => if a.motState n = 0 then a.motDeferred n else a
  let s := s.each slots State.slotStart
  let s := s.each ports State.conChanged
  let s := (s.psqJournal psq).conGates
  s.endSwitch job

/-! ## Whole apply (R41) -/

/-- First byte of the preload area: 1 MiB directly below 7/8 of the DRAM. -/
def State.preloadAt (s : State) : Nat := s.getF F.MEM_CFG_CAP_GIB * 0x40000000 / 8 * 7 - 0x100000

def Image.bytes (img : Image) : Nat := img.program.length + img.data.length + img.coef.length + img.expo.length

/-- Tick H: threads halt, slots are suspended, a running capture stops and the copy begins (Table 2-3, R341). -/
def State.startCopy (s : State) (job : ApplyJob) : State :=
  let s := s.setVin { s.vin with apply := some { job with h := some s.tick } }
  let s := (s.haltAll.capStop).putF F.CLE_STATUS_SUSP 1
  match s.vin.preload with
  | some img => if s.dramOk then s.transfer 4 s.preloadAt (Image.bytes img) false else s
  | none => s

/-- Nothing of the preload copy is outstanding. -/
def State.copyDone (s : State) : Bool := (s.chan 4).issued.isEmpty && (s.chan 4).queued.isEmpty && !s.halted 4

/-- No sheet in the picked place or a zone, and every axis at standstill. -/
def State.engineIdle (s : State) : Bool := s.led.pop Place.inPath == 0 && s.axesStill

/-- The window reserves of the new vintage: a reserve is short until free granules cover it (R205). -/
def State.winSwitch (s : State) : State :=
  (s.forEach 6 fun a i => a.putB (F.DEC_STATUS_WIN_SHORT i) (a.getF (F.DEC_WIN_GRAN i) != 0)).winFollow

/-- The copied parts are in place; a memory beyond a part that is shorter holds 0. (DESIGN CHOICE: log 91) -/
def State.loadParts (s : State) (img : Image) : State :=
  let mem : Mem := { s.mem with
    pmem := ofImage img.program, dmem := ofImage img.data, coef := ofImage (masked .coef img.coef), expo := ofImage (masked .expo img.expo) }
  { s with mem := mem, seq := { s.seq with patched := false, budgetDue := false } }

/-- The switch of a whole apply. `reset`: it ends an engine reset (R259). -/
def State.wholeSwitch (s : State) (job : ApplyJob) (img : Image) : State :=
  let ports := s.changedPorts
  let psq := s.getR R.PSQ_CFG
  let s := (s.setVin { s.vin with applied := s.stage }).loadParts img
  let geom := s.geomChanged
  let links := s.linkChanged
  let s := s.takeStage fun off =>
    if (List.range 6).any (fun i => off == R.EXL_CFG i) || (List.range 12).any (fun n => off == R.MOT_HB_MAP n) then 0xFFFFFFFF#32
    else if (List.range 12).any (fun n => off == R.MOT_CFG n) then 0x2007#32 else 0#32
  let s := s.each (List.finRange 12) fun a n => if a.motState n = 0 then a.motDeferred n else a
  let s := s.each geom fun a i => a.putF (F.PRS_GEOM_GEN i) (a.getF (F.PRS_GEOM_GEN i) + 1)
  let s := s.discardStale
  let s := s.each geom fun a i => a.takeDeferred i false
  let s := (s.putF F.VIN_STATUS_DEFERRED 0).winSwitch
  let s := s.each links State.askRetrain
  let s := if s.devIs 5 then s.each (List.finRange 6) fun a i =>
      if a.getF (F.EXL_STATUS_STATE i) = 5 then (a.updStn i fun t => { t with configOk := false }).sendPkt i .config else a
    else s
  let s := ((s.cleStart).putF F.CLE_STATUS_SUSP 0).clearSeqFaults
  let s := s.each ports State.conChanged
  let s := ((s.psqJournal psq).conGates).railsAuto
  let s := { s with seq := { s.seq with startDue := true } }
  let s := s.each (List.finRange 6) State.lenFollow
  let s := if s.devIs 3 then s.setDev 2 else s
  s.endSwitch job

/-! ## Abandonment (R42) -/

/-- A whole apply that had begun to copy is abandoned: the CURRENT vintage is reloaded, threads stay halted. While the
reload runs PENDING reads 0 and WHOLE stays 1, though a further command is BUSY. Where what is abandoned is the reload's own copy, it
is made again. (DESIGN CHOICE: log 84) -/
def State.abandonApply (s : State) : State :=
  match s.vin.apply with
  | some a =>
    if a.whole && a.h.isSome then
      let s := (s.withdraw 4).vinDone a.cid 8 a.slot
      let s := s.raise Ev.VIN_APPLY_TIMEOUT
      (s.setVin { s.vin with apply := some { a with cid := none }, jobs := s.vin.jobs ++ [.reload] }).putF F.VIN_STATUS_PENDING 0
    else s
  | none => s

/-- No valid vintage: the host interface is up, every engine output is off (Table 1-6). An engine reset ends, and the frame that ends
its stop goes out; ST writes held for the switch that does not come stay held. (DESIGN CHOICE: log 92) -/
def State.noVintage (s : State) : State :=
  let reset := s.devIs 5
  let s := { (s.dropApply.setDev 3).hostReady true with bootEnded := true }
  let s := if reset then { s with rst := { s.rst with stage := .none, endStop := true } } else s
  (s.each (List.finRange 12) State.motOff).lenDrive.emitterMend

/-- The CURRENT vintage is read from flash, verified and checked, and applied as a whole apply without waiting (R27, R28,
R42, R47); else NO_VINTAGE. -/
def State.loadCurrent (s : State) (flashOk preloadOk : Bool) : State :=
  match s.vin.cur with
  | none => s.noVintage
  | some k =>
    let r := s.checkSlot k flashOk preloadOk
    if r.2 = 0 then r.1.startCopy { cid := none, at_ := s.tick, whole := true, slot := k } else r.1.noVintage

end Sys2Proof.Machine
end

