-- ==== Sys2Proof/Machine/Vintage.lean ====
section
/-! DEFINITION. Machine/Vintage.lean: the vintage commands and the moments of an apply (chapter 2). -/

namespace Sys2Proof.Machine

/-- VINTAGE_LOAD (R33): the slot is tested before any byte is read. -/
def execVintageLoad (q : Fin 2) (e : SqEntry) (s : State) : Res :=
  .next (
    let addr := e.dw[1].toNat + 0x100000000 * e.dw[2].toNat
    let len := e.dw[3].toNat
    s.command q 1 0x10#8 e [4, 3, 6] (zeroFrom e 4 && Nat.blt e.dw[0].toNat 8 && Nat.ble 1 len && Nat.ble len 0x100000) (e.dw[0] &&& 7#32) fun s =>
      let k : Fin 8 := Fin.ofNat 8 e.dw[0].toNat
      if s.vin.cur = some k ∨ s.vin.prev = some k then s.vinDone (some e.cid) 3 k
      else (s.setVin { s.vin with jobs := s.vin.jobs ++ [.load e.cid k] }).transfer 3 addr len false)

/-- The first load, and the first other job, that waits. -/
def VinJob.isLoad : VinJob → Bool
  | .load _ _ => true
  | _ => false

/-- VINTAGE_LOAD_DONE (R32, R33, R46, R48): the image has been read; it is verified, and written to the slot where it
verifies. -/
def execVintageLoadDone (img : Image) (s : State) : Res :=
  .next (
    match s.vin.jobs.find? VinJob.isLoad with
    | some (.load cid k) =>
      if (s.chan 3).issued.isEmpty && (s.chan 3).queued.isEmpty && !s.halted 3 then
        let s := s.setVin { s.vin with jobs := s.vin.jobs.erase (.load cid k) }
        if !s.imageSigned img then s.vinDone (some cid) 1 k
        else if s.belowFloor img then s.vinDone (some cid) 2 k
        else ((s.setVin { s.vin with slots := s.vin.slots.set k (some img) }).vinDone (some cid) 0 k).vinFollow
      else s
    | _ => s)

/-- VINTAGE_CHECK (R36, R45). -/
def execVintageCheck (q : Fin 2) (e : SqEntry) (s : State) : Res :=
  .next (s.command q 1 0x11#8 e [4, 3] (zeroFrom e 1 && Nat.blt e.dw[0].toNat 8) (e.dw[0] &&& 7#32) fun s =>
    let k : Fin 8 := Fin.ofNat 8 e.dw[0].toNat
    if s.vinBusy then s.vinDone (some e.cid) 6 k
    else s.setVin { s.vin with jobs := s.vin.jobs ++ [.check e.cid k] })

/-- VINTAGE_APPLY (R35, R37, R38, R45, R113, R133). (DEDUCED: log 57) -/
def execVintageApply (q : Fin 2) (e : SqEntry) (s : State) : Res :=
  .next (s.command q 1 0x12#8 e [4, 3] (zeroFrom e 2) (BitVec.ofNat 32 (s.getF F.VIN_STATUS_SLOT)) fun s =>
    let at_ := e.dw[0].toNat + 0x100000000 * e.dw[1].toNat
    match s.applyRefusal at_ with
    | some r =>
      let s := if r = 4 then s.putR R.VIN_CHECK_RESULT (resetWord R.VIN_CHECK_RESULT) else s
      s.vinDone (some e.cid) r (s.getF F.VIN_STATUS_SLOT)
    | none =>
      if s.flag F.VIN_STATUS_CHECKED then s.acceptApply e.cid at_ false
      else s.setVin { s.vin with jobs := s.vin.jobs ++ [.apply e.cid at_] })

/-- VINTAGE_REVERT (R45, R47). -/
def execVintageRevert (q : Fin 2) (e : SqEntry) (s : State) : Res :=
  .next (s.command q 1 0x13#8 e [4] (zeroFrom e 0) (BitVec.ofNat 32 ((s.vin.prev.map Fin.val).getD 0)) fun s =>
    if s.vinBusy then s.vinDone (some e.cid) 6 ((s.vin.prev.map Fin.val).getD 0)
    else match s.vin.prev with
      | none => s.vinDone (some e.cid) 10 0
      | some k => match s.vin.slots[k] with
        | some img =>
          if s.belowFloor img then s.vinDone (some e.cid) 2 k
          else s.setVin { s.vin with jobs := s.vin.jobs ++ [.revert e.cid] }
        | none => s.setVin { s.vin with jobs := s.vin.jobs ++ [.revert e.cid] })

/-- VINTAGE_CHECK_DONE (R36, R37, R42): the first check that waits ends: `flashOk` says whether the slot reads from flash as
it was written, `preloadOk` whether the preloaded parts match their header hashes. A check that ends while an apply is
pending is BUSY, and the refusals of an apply are tested again when its check has ended. (DEDUCED: log 57) -/
def execVintageCheckDone (flashOk preloadOk : Bool) (s : State) : Res :=
  .next (
    match s.vin.jobs.find? fun j => !j.isLoad with
    | none => s
    | some j =>
      let s := s.setVin { s.vin with jobs := s.vin.jobs.erase j }
      match j with
      | .load _ _ => s
      | .check cid k =>
        if s.vinBusy then s.vinDone (some cid) 6 k
        else
          let r := s.checkSlot k flashOk preloadOk
          r.1.vinDone (some cid) r.2 k
      | .apply cid at_ =>
        let slot := s.getF F.VIN_STATUS_SLOT
        if s.vinBusy then s.vinDone (some cid) 6 slot
        else
          let r := s.checkBank preloadOk
          if r.2 ≠ 0 then r.1.vinDone (some cid) r.2 slot
          else match r.1.applyRefusal at_ with
            | some k => r.1.vinDone (some cid) k slot
            | none => r.1.acceptApply cid at_ false
      | .revert cid =>
        let k := s.vin.prev.getD 0
        if s.vinBusy then s.vinDone (some cid) 6 k else
        let r := s.checkSlot k flashOk preloadOk
        if r.2 ≠ 0 then r.1.vinDone (some cid) r.2 k
        else if r.1.wholeApply && !r.1.dramOk then r.1.vinDone (some cid) 8 k
        else r.1.acceptApply cid 0 true
      | .reload => if s.devIs 2 || s.devIs 3 || s.devIs 4 || s.devIs 5 then s.loadCurrent flashOk preloadOk else s)

/-- BOOT_VINTAGE_LOAD (R27, R47): during BOOTING, once the journal has been replayed. (DEDUCED: log 27) -/
def execBootVintageLoad (flashOk preloadOk : Bool) (s : State) : Res :=
  .next (if s.devIs 2 ∧ s.flag F.DEV_STATE_PAIRED ∧ s.vin.apply.isNone ∧ ¬s.ev.held ∧ ¬s.psq.test ∧ ¬s.seq.startDue then s.loadCurrent flashOk preloadOk else s)

/-- ENGINE_RESET_RELOAD (R28, R29, R47): the last stage of Table 1-8 before threads start. -/
def execEngineResetReload (flashOk preloadOk : Bool) (s : State) : Res :=
  .next (if s.devIs 5 ∧ s.rst.stage = .emptied ∧ s.vin.apply.isNone ∧ ¬s.seq.startDue then
    s.loadCurrent flashOk preloadOk
  else s)

/-- ST_WRITE (R34, R45, R61): a write to a register's ST fields. -/
def execStWrite (port : Port) (addr : Nat) (w : Word) (s : State) : Res :=
  .next (s.viaPort port (addr / 4 * 4) fun s => s.stWrite (addr / 4 * 4) w)

/-- SETTINGS_SWITCH (R39): the switch tick of a settings apply has come. -/
def execSettingsSwitch (s : State) : Res :=
  .next (
    match s.vin.apply with
    | some a => if !a.whole && Nat.ble a.at_ s.tick then s.settingsSwitch a else s
    | none => s)

/-- WHOLE_APPLY_IDLE (R41): the engine is idle at a tick boundary at or after S. -/
def execWholeApplyIdle (s : State) : Res :=
  .next (
    match s.vin.apply with
    | some a => if a.whole && a.h.isNone && Nat.ble a.at_ s.tick && s.engineIdle then s.startCopy a else s
    | none => s)

/-- WHOLE_APPLY_SWITCH (R41): the preload copy has ended. -/
def execWholeApplySwitch (s : State) : Res :=
  .next (
    match s.vin.apply, s.vin.preload with
    | some a, some img =>
      if a.whole && a.h.isSome && s.copyDone && !s.vin.jobs.contains .reload then s.wholeSwitch a img else s
    | _, _ => s)

/-- APPLY_TIMEOUT (R42): a whole apply has not reached H within VIN_APPLY_TIMEOUT ticks of S. (DESIGN CHOICE: log 4) -/
def execApplyTimeout (s : State) : Res :=
  .next (
    match s.vin.apply with
    | some a =>
      if a.whole && a.h.isNone && Nat.ble (a.at_ + (s.getR R.VIN_APPLY_TIMEOUT).toNat) s.tick then
        (s.dropApply.raise Ev.VIN_APPLY_TIMEOUT).vinDone a.cid 8 a.slot
      else s
    | none => s)

end Sys2Proof.Machine
end

