-- ==== Sys2Proof/Machine/Racking.lean ====
section
/-! DEFINITION. Machine/Racking.lean: how transactions and transfers of the Racking engine end (R125–R130), and the audits
at the end of a tick (R18, R120). -/

namespace Sys2Proof.Machine

/-! ## Data reaches its consumer -/

/-- Submission entries have been read: the index up to which queue `q` has been read moves on. (DEDUCED: log 35) -/
def State.entriesRead (s : State) (q : Fin 2) (n : Nat) : State :=
  { s with host := { s.host with sqRead := s.host.sqRead.set q ((s.host.sqRead[q] + n) % s.ringLen q) } }

/-- A meter report has been written to host memory: METER_REPORT completes (R384). (DEDUCED: log 26) -/
def State.reportSent (s : State) : State :=
  match s.host.sending with
  | [] => s
  | m :: r =>
    { s with host := { s.host with sending := r, report := some (m.2.1, m.2.2) } }.complete 1 m.1 .ok 0 (BitVec.ofNat 32 m.2.2.length)

/-- A mailbox payload has been read (R66, R121): FULL is tested now. -/
def State.mailRead (s : State) : State :=
  match s.host.mails with
  | [] => s
  | x :: r =>
    let s := { s with host := { s.host with mails := r } }
    let m := BitVec.ofNat 32 x.box
    if s.flag (F.SEQ_MBI_STATUS_FULL x.box) then s.complete 1 x.cid .mboxFull 0 m
    else (s.fillMbi x.box x.count x.payload).complete 1 x.cid .ok 0 m

/-- Part of a round of a station stream has arrived (R206); the round is complete when nothing of its pass is outstanding. -/
def State.roundData (s : State) (c : Nat) (t : Txn) (poisoned : Bool) : State :=
  let i : Fin 6 := Fin.ofNat 6 (c - 8)
  let pass := t.tag % 2
  match s.stnPage i with
  | none => s
  | some (p, q) =>
    let s := match poisoned, q.blocks[t.tag / 2]? with
      | true, some b => s.updStn i fun x => { x with poisoned := x.poisoned ++ [(pass, b.stream, b.round)] }
      | _, _ => s
    let h := s.chan c
    match (s.stnOf i).fetching.toList.getD pass none with
    | none => s
    | some j =>
      if (h.issued ++ h.queued).any fun x => x.tag % 2 == pass && x.job != 0 then s
      else
        let done := fun (x : Station) => { x with
          fetched := x.fetched.setIfInBounds pass (j + 1), fetching := x.fetching.setIfInBounds pass none }
        (((s.updStn i done).openBlocks i p q).winState i).fetchRound i p q pass

/-- The data of a transaction, or its end, reaches what it serves. -/
def State.deliver (s : State) (c : Nat) (t : Txn) (poisoned : Bool) : State :=
  if t.job = 0 then s
  else if c = 0 then (if t.write then s else s.entriesRead (Fin.ofNat 2 t.tag) (t.bytes / 64))
  else if c = 4 then (if poisoned then s.abandonApply else s)
  else if c = 5 then (if t.write then s.reportSent else s.mailRead)
  else if c = 7 then
    (match s.refillAt t.addr with
    | some e => if poisoned && !s.locked e.1 then (s.refillDone e).damage e.1 e.2.1 e.2.2.1 else s.refillDone e
    | none => s)
  else if isStation c then s.roundData c t poisoned
  else s

/-- Does the transaction read DRAM (Table 5-8)? -/
def readsDram (c : Nat) (t : Txn) : Bool := !t.write && (c == 4 || c == 7 || isStation c || c == 15)

/-- Does it read host memory over PCI Express? -/
def readsHost (c : Nat) (t : Txn) : Bool := !t.write && (Nat.ble c 3 || c == 5)

/-- Data of an older generation is discarded and counted (R130). (DEDUCED: log 37) -/
def State.discardOld (s : State) (c : Nat) (t : Txn) : State :=
  if t.write then s else (s.incR (R.RCK_CH_DISCARD c) t.bytes).incR (R.RCK_CH_WDRAW c) 1

/-- Does the transaction go to DRAM (Table 5-8)? -/
def inDram (c : Nat) : Bool := c == 4 || c == 6 || c == 7 || isStation c || c == 15

/-- A DRAM address beyond the data area is a bus error (R128). -/
def State.outOfRange (s : State) (c : Nat) (t : Txn) : Bool :=
  inDram c && !isStation c && Nat.blt (s.getP R.MEM_DATA_TOP_LO) (t.addr + t.bytes)

/-- The ECC part of a DRAM read's end (R129). -/
def State.dramEcc (s : State) (res : TxnResult) : State :=
  match res with
  | .dramCorr => s.incR R.MEM_ECC_CORR 1
  | .dramUncorr a => (s.incR R.MEM_ECC_UNCORR 1).putP R.MEM_ECC_ADDR_LO a
  | _ => s

/-- Can the transaction end so? -/
def endFits (res : TxnResult) (c : Nat) (t : Txn) : Bool :=
  match res with
  | .ok => true
  | .dramCorr | .dramUncorr _ => readsDram c t
  | .busError k => !inDram c && (k == 1 || k == 2 || k == 3)

/-- A transaction's end under an older generation, or in full (R129, R130). -/
def State.txnEnd (s : State) (c : Nat) (t : Txn) (res : TxnResult) : State :=
  let s := (s.dramEcc res).returnTxn c
  (if t.gen ≠ s.getF (F.RCK_CH_STATUS_GEN c) then s.discardOld c t
  else s.deliver c t (match res with
    | .dramUncorr _ => true
    | _ => false)).pumpAll

/-- RACKING_TRANSACTION_DONE (R125, R128–R130): the oldest transaction of channel `c` that is on the bus ends; one from
before an engine reset holds no token any more. (DESIGN CHOICE: log 8; DEDUCED: log 37) -/
def execRackingTransactionDone (c : Fin 16) (res : TxnResult) (s : State) : Res :=
  .next (
    match (s.chan c).stale, s.headTxn c with
    | t :: r, _ =>
      if endFits res c t then ((s.setChan c { s.chan c with stale := r }).dramEcc res).discardOld c t else s
    | [], none => s
    | [], some t =>
      if s.outOfRange c t && t.gen == s.getF (F.RCK_CH_STATUS_GEN c) then
        (if s.halted c then s else (s.halt c 6 t.addr t).pumpAll)
      else if !endFits res c t then s
      else match res with
        | .busError cause =>
          if s.halted c then s
          else if t.gen ≠ s.getF (F.RCK_CH_STATUS_GEN c) then ((s.returnTxn c).discardOld c t).pumpAll
          else (s.halt c cause.toNat t.addr t).pumpAll
        | _ => s.txnEnd c t res)

/-- COMPLETION_TIMEOUT (R128): a PCI Express read of channel `c` got no completion in time. (DEDUCED: log 37) -/
def execCompletionTimeout (c : Fin 16) (s : State) : Res :=
  .next (
    match s.headTxn c with
    | some t => if readsHost c t && !s.halted c then (s.halt c 4 t.addr t).pumpAll else s
    | none => s)

/-- The tick of a transfer's first issue (R126). -/
def Chan.issuedAt (h : Chan) (job : Nat) : Option Nat := (h.first.find? fun x => x.1 == job).map Prod.snd

/-- TRANSFER_TIMEOUT (R126): the oldest unfinished transfer has not finished within RCK_XFER_TIMEOUT ticks of its first issue. (DESIGN CHOICE: log 4; DEDUCED: log 37) -/
def execTransferTimeout (c : Fin 16) (s : State) : Res :=
  .next (
    let h := s.chan c
    match (h.issued ++ h.queued).find? fun t => t.job != 0 with
    | none => s
    | some t =>
      match h.issuedAt t.job with
      | none => s
      | some k =>
        if !isStation c && !s.halted c && Nat.ble (k + (s.getR R.RCK_XFER_TIMEOUT).toNat) s.tick then
          (s.halt c 5 t.addr t).pumpAll
        else s)

/-! ## RESUME and ABORT (R128, Table 5-9) -/

/-- The page a transaction of channel 1 or 2 serves. -/
def State.pageOfSeq (s : State) (n : Nat) : Option Page := s.cel.pages.find? fun p => p.seq == n && p.st == .inPress

/-- A granule or capture transfer was dropped: its source keeps its data. -/
def State.dropped (s : State) (c : Nat) (t : Txn) : State :=
  let s := if c = 6 then
      (match s.cel.evicting.find? fun e => 4096 * e.2.2.2 == t.addr with
      | some e => ({ s with cel := { s.cel with evicting := s.cel.evicting.erase e } }.freeOne (.dram e.2.2.2)).putB
          F.CEL_STATUS_EVICTING (!(s.cel.evicting.erase e).isEmpty)
      | none => s)
    else if c = 7 then
      (match s.refillAt t.addr with
      | some e => ((s.endRefill e).freeOne (.cellar e.2.2.2)).banksFollow
      | none => s)
    else if c = 14 then s.capXferEnd
    else s
  s.raise Ev.RCK_XFER_DROPPED c

/-- The request that an aborted transfer served ends as in Table 5-9. -/
def State.aborted (s : State) (c : Nat) (t : Txn) : State :=
  if c = 0 then s.putB (if t.tag = 0 then F.HIF_CTRL_SQ0_EN else F.HIF_CTRL_SQ1_EN) false
  else if c = 1 ∨ c = 2 then
    (match s.pageOfSeq t.tag with
    | some p => s.failPage p .busError
    | none => s)
  else if c = 3 then
    (match s.vin.jobs.find? VinJob.isLoad with
    | some (.load cid k) => (s.setVin { s.vin with jobs := s.vin.jobs.erase (.load cid k) }).vinDone (some cid) 1 k
    | _ => s)
  else if c = 4 then s.abandonApply
  else if c = 5 then
    (if t.write then (match s.host.sending with
      | [] => s
      | m :: r => { s with host := { s.host with sending := r } }.complete 1 m.1 .busError)
    else match s.host.mails with
      | [] => s
      | x :: r => { s with host := { s.host with mails := r } }.complete 1 x.cid .busError 0 (BitVec.ofNat 32 x.box))
  else s.dropped c t

/-- A write of RCK_CH_CTRL, which concerns the transfer of the failing transaction (R128): both bits set, or either while the channel is not halted, is discarded. (DEDUCED: log 19, 37) -/
def State.chCtrl (s : State) (c : Nat) (w : Word) : State :=
  let resume := w.getLsbD 0
  let abort := w.getLsbD 1
  if !s.halted c || resume == abort then s
  else
    let h := s.chan c
    let j := (h.failed.map Txn.job).getD 0
    let h := { h with failed := none }
    if resume then
      let s := s.setChan c { h with first := h.first.filter fun x => x.1 != j || h.issued.any fun t => t.job == j }
      let s := s.setChan c { s.chan c with first := mapIf (fun x => x.1 == j) (fun x => (x.1, s.tick)) (s.chan c).first }
      (s.putF (F.RCK_CH_STATUS_STATE c) (if (h.issued ++ h.queued).isEmpty then 0 else 1)).pausedFollow.pumpAll
    else
      let a := s.abortTransfer c j
      match (s.chan c).failed with
      | some t => if t.job = 0 then a else (a.aborted c t).pumpAll
      | none => a

/-- CHANNEL_RESUME (R128): a write of RCK_CH_CTRL with RESUME. -/
def execChannelResume (_port : Port) (c : Fin 16) (w : Word) (s : State) : Res := .next (s.chCtrl c w)

/-- CHANNEL_ABORT (R128): a write of RCK_CH_CTRL with ABORT. -/
def execChannelAbort (_port : Port) (c : Fin 16) (w : Word) (s : State) : Res := .next (s.chCtrl c w)

/-! ## Audits at the end of a tick (R18) -/

/-- The credit audit (R120). -/
def State.creditAudit (s : State) : State :=
  let usable := s.ringLen 2 - 1
  if s.getF F.HIF_PAGE_CREDITS + s.cel.pages.length = 256 ∧ s.host.cqFree + s.host.cqReserved + s.host.cq.length = usable then s
  else (s.putF F.HIF_STATUS_AUDIT_FAIL 1).raise Ev.HIF_AUDIT

/-- The audit of event serials (R382, R415): every serial issued has been delivered or counted as dropped, or its entry is held.
The spec gives its failure no effect: it is held. (DESIGN CHOICE: log 5) -/
def State.serialAudit (s : State) : State :=
  if s.ev.settled + s.ev.dropsAbove + s.ev.waiting.length = s.nextSerial - 1 then s
  else { s with ev := { s.ev with auditFail := true } }

/-- TICK_AUDITS (R18, R382): in cycles 3,800 to 3,999. Granules of retiring banks that have unlocked are evicted (R191). (DESIGN CHOICE: log 5; DEDUCED: log 43) -/
def execTickAudits (s : State) : Res :=
  .next (
    let s := if s.cycle < 3800 then (s.setTsc (BitVec.ofNat 64 (s.tick * 4000 + 3800))).issueAll else s
    s.evictRetiring.ledgerAudit.granuleAudit.creditAudit.rackAudit.serialAudit)

end Sys2Proof.Machine
end

