-- ==== Sys2Proof/Machine/OpsBoot.lean ====
section
/-! DEFINITION. Machine/OpsBoot.lean: what a boot does beside the supervisor: die pairing (R396), the replay of the journal
(R379), the recovery of the event serials (R422), Mend status (R475) and the start of the threads (R68). -/

namespace Sys2Proof.Machine

/-! ## Events of earlier boots (R422, R412) -/

/-- An entry of the alarm history, to be delivered again. -/
def State.histEvent (s : State) (i : Nat) : Event :=
  let w := fun (k : Nat) => s.getR (R.EVT_HIST i k)
  { cls := .alarm, program := (w 0).getLsbD 2, replay := true, dropped := (w 0).getLsbD 4, block := bits (w 0) 8 8, code := bits (w 0) 16 12,
    inst := bits (w 3) 16 16, count := bits (w 3) 0 16, serial := (w 1).toNat + 0x100000000 * (w 2).toNat,
    tsc := BitVec.ofNat 64 ((w 4).toNat + 0x100000000 * (w 5).toNat), detA := w 6, detB := w 7 }

/-- The history entries that R422 delivers again, oldest first. -/
def State.replays (s : State) : List Event :=
  let next := s.getF F.EVT_HIST_NEXT
  ((List.range 256).map fun k => s.histEvent ((next + k) % 256)).filter fun e => Nat.blt s.nvm.serialS e.serial && !e.dropped

/-- Serials that no boot will account for otherwise (R422). -/
def State.lostSerials (s : State) : Nat :=
  s.nvm.serialI + 65535 - s.nvm.serialS - s.nvm.serialY - s.replays.length

/-- Take up the serials after the last committed record; with no record ever committed there is nothing to take up. (DEDUCED: log 21) -/
def State.serialsBack (s : State) : State :=
  if s.nvm.written then
    let l := s.replays
    let lost := s.lostSerials
    let i := s.nvm.serialI
    let d := fun (c : Nat) => s.nvm.drops.getD c 0
    let s := s.putP R.EVT_SERIAL_LO (i + 65536)
    let s := s.forEach 5 fun a c => a.putP (R.EVT_DROP_LO c) (if c = 4 then d c + lost else d c)
    let ev : EvStore := { s.ev with
      alarms := l.take 64, general := l.drop 64, settled := s.nvm.serialS, settledAbove := [], lostTo := i + 65535, reported := Vector.ofFn fun (c : Fin 4) => d c,
      firstDrop := Vector.replicate 4 0 }
    let e : Event := {
      cls := .info, block := 0x15, code := 3, detA := BitVec.ofNat 32 lost,
      detB := BitVec.ofNat 32 s.nvm.heldLost }
    ({ s with ev := ev.settleTo }).ariseLast e
  else if s.nvm.heldLost = 0 then s
  else s.ariseLast { cls := .info, block := 0x15, code := 3, detB := BitVec.ofNat 32 s.nvm.heldLost }

/-- Raise the supervisor's events that non-volatile memory holds, in the order in which they arose, behind what already waits. -/
def State.heldBack (s : State) : State :=
  let l := s.nvm.held
  let s := { s with nvm := { s.nvm with held := [], heldLost := 0 } }
  s.each l fun a e =>
    a.ariseLast { cls := e.id.cls, block := e.id.block, code := e.id.code, inst := e.inst }

/-- The event system takes up its work. (DEDUCED: log 21, 22) -/
def State.recoverEvents (s : State) : State :=
  if s.ev.held then
    let s := { s with ev := { s.ev with held := false } }
    (s.serialsBack.heldBack).evCounts
  else s

/-! ## The ledger (R379, R436, R437) -/

/-- Report the unresolved record, if there is one. (DESIGN CHOICE: log 20) -/
def State.reportUnresolved (s : State) : State :=
  match s.nvm.unresolved with
  | some (a, b) =>
    let s := { s with nvm := { s.nvm with unresolved := none } }
    (s.incR R.LDG_UNRESOLVED 1).raise Ev.LDG_UNRESOLVED 0 (BitVec.ofNat 32 a) (BitVec.ofNat 32 b)
  | none => s

/-- Sheets in the path move to stranded in one bulk record (R377). -/
def State.strandPath (s : State) (keepHandoff : Bool) : State :=
  if s.led.pop Place.inPath = 0 then s else (s.journal (.strand keepHandoff)).rinseFollow

/-- PENDING_IN records wait for RESOLVE (R437). -/
def State.pendsBack (s : State) : State :=
  let l := (s.led.sheets.filter fun sh => sh.place == .pendingIn).map fun sh =>
    ({ id := sh.id, port := sh.via.getD 0, tick := s.tick, boot := true } : Pend)
  (s.setPends l).pendCount

/-- Replay of the journal: what was being programmed has been programmed; the rest is unresolved. -/
def State.replay (s : State) : State :=
  let s := s.commitRecord
  let s := { s with led := s.nvm.led }
  (((s.reportUnresolved.strandPath false).rinseFollow).pendsBack).meterTotals

/-- Mend status after the replay (R475). -/
def State.mendBack (s : State) : State :=
  let s := (s.putR R.EVT_MEND s.nvm.mend).mendFollow
  ((s.clearMend 0).clearMend 1).clearMend 2

/-- The vintage index and the floor as non-volatile memory holds them (R33, R46). -/
def State.indexBack (s : State) : State :=
  let s := (s.setVin { s.vin with cur := s.nvm.cur, prev := s.nvm.prev, unsigned := s.nvm.unsigned }).vinFollow
  s.putR R.VIN_FLOOR (BitVec.ofNat 32 s.nvm.mono[(0 : Fin 3)])

/-! ## FAULT from which only a power-on reset recovers (R25) -/

/-- Enter such a FAULT; the host interface is up, so that ENGINE_RESET can answer NOT_READY. (DEDUCED: log 22, 27) -/
def State.porFault (s : State) (ev : EvId) : State :=
  let s := (s.recoverEvents.enterFault).hostReady true
  { s with rst := { s.rst with porOnly := true, stage := .none, req := none } }.raise ev

/-! ## Die pairing (R396) -/

/-- Do both tags of an attempt with nonces `nc` and `nd` agree? The Core die computes with its key, the Drive die with its
own. -/
def Fuses.pairOk (f : Fuses) (nc nd : List Byte) : Bool :=
  let m1 := [1#8] ++ nd ++ nc
  let m2 := [2#8] ++ nc ++ nd
  let kc := leBytes 32 f.pairCore.toNat
  let kd := leBytes 32 f.pairDrive.toNat
  Crypto.gcmTag kc (nd.take 12) m1 == Crypto.gcmTag kd (nd.take 12) m1
    && Crypto.gcmTag kd (nc.take 12) m2 == Crypto.gcmTag kc (nc.take 12) m2

/-- An attempt has failed: the next one starts, or the third failure refuses the pairing. -/
def State.pairFail (s : State) : State :=
  let n := s.sec.pairFails + 1
  let s := { s with sec := { s.sec with pairFails := n, pairAt := s.tsc.toNat } }
  if n < 3 then s
  else ((s.latchF F.DEV_RESET_CAUSE_PAIRING).outputsOff).porFault Ev.SEC_PAIRING_REFUSED

/-- Is a pairing attempt in progress? -/
def State.pairing (s : State) : Bool := s.devIs 2 && s.flag F.BRG_STATUS_UP && !s.flag F.DEV_STATE_PAIRED

/-! ## OPERATIONAL -/

/-- A boot or an engine reset ends: OPERATIONAL (Table 1-7, Table 1-8). The downward frame of this tick ends the stop of
Table 1-4. -/
def State.operational (s : State) : State :=
  if s.devIs 2 || s.devIs 5 then
    let s := { s with rst := { s.rst with stage := .none, endStop := s.devIs 5 } }
    { ((s.setDev 4).hostReady true).conBoot with bootEnded := true }.emitterMend
  else s

/-- Start every enabled thread, and what starts with the threads: polygon locks, and the pitch of picks (R68, R186, R221). -/
def State.startThreads (s : State) : State :=
  let s := { s with seq := { s.seq with startDue := false } }
  let s := (s.forEach 16 fun a n => a.startThr (Fin.ofNat 16 n)).freqAcqAll
  { s with cel := { s.cel with lastPick := none } }.operational

end Sys2Proof.Machine
end

