-- ==== Sys2Proof/Machine/Boot.lean ====
section
/-! DEFINITION. Machine/Boot.lean: power-on reset and the steps of a boot (Table 1-7). -/

namespace Sys2Proof.Machine

/-- POWER_ON_RESET (R17, R27, R408, R467): VSTBY_33 rises, or PORST_N is held low (`porst`). Non-volatile memory, fuses and
external flash survive; the supervisor starts in STANDBY with every rail off. (DEDUCED: log 64) -/
def execPowerOnReset (porst : Bool) (s : State) : Res :=
  .next (
    if !porst && s.psq.standby then s
    else
      let keep := fun (o : Nat) => isKept o && (o / 0x10000 != 0x12 || o == R.PSQ_LAST || o == R.PSQ_FAIL_DOWN)
      let ac := s.flag F.PSQ_STATUS_AC_OK
      let t := ((s.restart keep {} [] s.uncommitted).outputsOff).putB F.PSQ_STATUS_AC_OK ac
      if porst then t.putR R.PSQ_LAST 4#32 else t)

/-- SYSTEM_PLL_LOCK (R15, Table 1-7): TSC and the tick number start. -/
def execSystemPllLock (s : State) : Res :=
  .next (
    if s.devIs 2 && s.psq.core && !s.psq.pll then
      let n := s.psq.pllRetries
      let s := { s.setTsc 0 with psq := { s.psq with pll := true } }
      if n = 0 then s else s.raise Ev.DEV_PLL_TIMEOUT 0 (BitVec.ofNat 32 n)
    else s)

/-- PLL_LOCK_TIMEOUT (R423): no lock 2 ms after the release of the Core die; it is held in reset and released again 100 ms later. (DEDUCED: log 27) -/
def execPllLockTimeout (dt : Nat) (s : State) : Res :=
  .next (
    let s := s.psqAdvance dt
    if s.psq.core ∧ ¬s.psq.pll ∧ s.psq.coreAt + 2000 ≤ s.psq.now then
      let s := s.coreLost
      { s with psq := { s.psq with pllRetries := s.psq.pllRetries + 1, againAt := some (s.psq.now + 100000) } }
    else s)

/-- BRIDGE_TRAINED (Table 1-7): mutual authentication begins. -/
def execBridgeTrained (s : State) : Res :=
  .next (
    if s.devIs 2 && s.psq.pll && !s.flag F.BRG_STATUS_UP && !s.psq.test then
      let s := (s.putF F.BRG_STATUS_UP 1).putF F.DEV_STATE_BRIDGE_UP 1
      { s with sec := { s.sec with pairFails := 0, pairAt := s.tsc.toNat } }
    else s)

/-- DIE_PAIRING (R396): an attempt ends with the check of the tags; both nonces are drawn fresh. (DEDUCED: log 27) -/
def execDiePairing (s : State) : Res :=
  .next (
    if s.pairing && s.rngFail then s.pairFail
    else if s.pairing then
      let nc := leBytes 16 (s.fresh 128).toNat
      let s := s.drew
      let nd := leBytes 16 (s.fresh 128).toNat
      let s := s.drew
      if s.tsc.toNat ≤ s.sec.pairAt + 40000 ∧ s.fuse.pairOk nc nd then s.putF F.DEV_STATE_PAIRED 1 else s.pairFail
    else s)

/-- PAIRING_TIMEOUT (R396): the attempt has not ended within 200 µs. (DESIGN CHOICE: log 8; DEDUCED: log 27) -/
def execPairingTimeout (s : State) : Res :=
  .next (if s.pairing ∧ s.sec.pairAt + 40000 ≤ s.tsc.toNat then s.pairFail else s)

/-- SRAM_ZEROED (R27, R379, R394, R412, R422, R475): the journal is replayed. `monoOk`: every monotonic counter read back
passes its check code. (DESIGN CHOICE: log 65) -/
def execSramZeroed (monoOk : Bool) (s : State) : Res :=
  .next (
    if s.devIs 2 && s.flag F.DEV_STATE_PAIRED && s.ev.held then
      if monoOk then (((s.replay).recoverEvents).mendBack).indexBack else s.porFault Ev.SEC_NVM_CORRUPT
    else s)

/-- Granules of the DRAM page store for `gib` GiB: 7/8 of it but for the preload area of 1 MiB. (DEDUCED: log 28) -/
def dramGrans (gib : Nat) : Nat := (gib * 0x40000000 / 8 * 7 - 0x100000) / 4096

/-- DRAM_TRAINING (R131, R133, R425, R475): it passes with a capacity in GiB and a rate in MT/s, or fails. (DEDUCED: log 28) -/
def execDramTraining (pass : Bool) (gib rate : Nat) (s : State) : Res :=
  .next (
    if s.devIs 2 && !s.ev.held && !s.flag F.MEM_STATUS_TRAINED && Nat.ble 1 gib && Nat.ble gib 16 && Nat.ble rate 8533 then
      if pass then
        let s := ((s.putF F.MEM_CFG_CAP_GIB gib).putF F.MEM_CFG_RATE rate).putF F.MEM_STATUS_TRAINED 1
        let s := (s.putR R.RCK_RES_CAP (BitVec.ofNat 32 rate)).putP R.MEM_DATA_TOP_LO (gib * 0x40000000 / 8 * 7)
        let s := (s.putF F.CEL_DGRAN_TOTAL (dramGrans gib)).putF F.CEL_DGRAN_FREE (dramGrans gib)
        (s.putF F.CEL_STATUS_DRAM_FULL 0).clearMend 6
      else
        let s := (s.putR R.RCK_RES_CAP 0#32).putF F.CEL_DGRAN_TOTAL 0
        ((s.putF F.CEL_DGRAN_FREE 0).putF F.CEL_STATUS_DRAM_FULL 1).setMend 6
    else s)

/-- THREAD_START (R68, R221, Table 1-7, Table 1-8): the enabled threads start at their entry points; a boot or an engine
reset ends in OPERATIONAL, the reset only after its reload. (DESIGN CHOICE: log 3) -/
def execThreadStart (s : State) : Res :=
  .next (if s.seq.startDue && (s.devIs 2 || s.devIs 4 || s.devIs 6 || (s.devIs 5 && s.rst.stage == .emptied)) then s.startThreads else s)

end Sys2Proof.Machine
end

