-- ==== Sys2Proof/Machine/Motor.lean ====
section
/-! DEFINITION. Machine/Motor.lean: the commands of the motor channels (chapter 13). -/

namespace Sys2Proof.Machine

/-- Does the Core die close its loops? Not in FAULT, not with the bridge lost (R290), and not while the Drive die's outputs hold
their last values for a whole apply (Table 2-3). -/
def State.loopsRun (s : State) : Bool := !s.devIs 6 && !s.flag F.BRG_STATUS_LOST && !s.outputsFrozen

/-- CURRENT_LOOP (R275): once in a tick, every channel in ascending order. -/
def execCurrentLoop (s : State) : Res :=
  .next (
    if s.loopsRun && s.brg.loopTick != some s.tick then
      let s := { s with brg := { s.brg with loopTick := some s.tick } }
      s.each (List.finRange 12) State.motTick
    else s)

/-- MOT_ENABLE (R289). -/
def execMotEnable (_port : Port) (n : Fin 12) (w : Word) (s : State) : Res :=
  .next (if w.getLsbD 0 then s.motCtrl n w else s)

/-- MOT_DISABLE (R289). -/
def execMotDisable (_port : Port) (n : Fin 12) (w : Word) (s : State) : Res :=
  .next (if w.getLsbD 1 then s.motCtrl n w else s)

/-- STOP_RAMP_DONE (R289): MOT_OFF_RAMP ticks have passed. -/
def execStopRampDone (n : Fin 12) (s : State) : Res :=
  .next (if s.motState n = 3 ∧ (s.motOf n).rampLeft = 0 then s.motStop n else s)

/-- CATCH_SPIN_TRY (R287): after MOT_CATCH_T observing runs the channel restarts on the observed back-EMF, or waits. -/
def execCatchSpinTry (n : Fin 12) (s : State) : Res :=
  .next (
    match (s.motOf n).phase with
    | .observe k c =>
      let t := s.getF (F.MOT_CATCH_T n)
      if s.motState n = 4 ∧ t ≤ k then
        let none_ := s.getR (R.MOT_VSENSE n) &&& 0x3F3F3F#32 == 0x3F3F3F#32
        if t ≤ 2 * c ∧ ¬none_ then
          let s := ((s.putF (F.MOT_STATUS_STATE n) 2).putF (F.MOT_STATUS_METHOD n) 2).updMot n fun m => { m with
            phase := .run, int1 := m.obs.emfD, int2 := m.obs.emfQ, above := 0, clean := 0, hand := none }
          let s := s.putF (F.MOT_ANGLE n) (s.obsAngle n)
          s.focRefs n (s.obsAngle n) (s.obsSpeed n) (F32.zero false) (F32.zero false) F32.one (F32.zero false) false
        else s.updMot n fun m => { m with phase := .coast 0 }
      else s
    | _ => s)

end Sys2Proof.Machine
end

