-- ==== Sys2Proof/Machine/GateDrive.lean ====
section
/-! DEFINITION. Machine/GateDrive.lean: UVLO, desaturation, group clear and retry, bus monitors and brake choppers
(R291, R294–R307, R459). -/

namespace Sys2Proof.Machine

/-- VGL_UVLO (R294, R295, R459): a gate supply falls to `mv` mV. -/
def execVglUvlo (v : Fin 4) (mv : Nat) (s : State) : Res :=
  .next (
    if s.brg.armedVgl[v] && !s.vglLow v && Nat.blt mv (s.vglMv v).1 then
      let s := (s.putBitF F.GDR_STATUS_VGL_UV v true).raise Ev.GDR_VGL_UV v
      s.forEach 3 fun a k => a.latchGroup (3 * v + k) 4 0
    else s)

/-- BST_UVLO (R294, R296, R459): a high-side supply falls to `mv` mV. -/
def execBstUvlo (h : Fin 48) (mv : Nat) (s : State) : Res :=
  .next (
    if s.brg.armedBst[h] && Nat.blt mv (s.bstMv h).1 && s.flag (F.GDR_HB_STATUS_BST_OK h) then
      let s := (s.putF (F.GDR_HB_STATUS_BST_OK h) 0).putF (F.GDR_HB_STATUS_UV_BST h) 1
      s.latchGroup (h / 4) 1 (h % 4)
    else s)

/-- UVLO_RISING_THRESHOLD (R294, R302, R459): a supply rises to `mv` mV. (DESIGN CHOICE: log 70) -/
def execUvloRisingThreshold (u : UvSupply) (mv : Nat) (s : State) : Res :=
  .next (
    match u with
    | .vgl v =>
      if mv < (s.vglMv v).2 then s
      else
        let s := { s with brg := { s.brg with armedVgl := s.brg.armedVgl.set v true } }
        (s.putBitF F.GDR_STATUS_VGL_UV v false).forEach 3 fun a k => a.retryStart (3 * v + k)
    | .bst h =>
      if mv < (s.bstMv h).2 then s
      else
        let s := { s with brg := { s.brg with armedBst := s.brg.armedBst.set h true } }
        (s.putF (F.GDR_HB_STATUS_BST_OK h) 1).retryStart (h / 4))

/-! ## Choppers (R291, R306) -/

/-- A chopper fault (R306): disabled, its half-bridge retired. -/
def State.chopFault (s : State) (i : Fin 4) (desat : Bool) : State :=
  let s := (s.chopOff i).putBitF F.GDR_STATUS_CHOP_FAULT i true
  let s := if desat then s.putF (F.GDR_CHOP_STAT_DESAT i) 1 else s.putF (F.GDR_CHOP_STAT_RISE i) 1
  (s.retireHb (s.getF (F.MOT_BRK_CFG_HB i))).raise Ev.GDR_CHOPPER_FAULT i

/-- CHOPPER_CONVERSION (R291, R306): a conversion of the chopper's bus input. -/
def execChopperConversion (i : Fin 4) (code : BitVec 14) (s : State) : Res :=
  .next (
    let now := s.tsc.toNat
    if s.flag (F.MOT_BRK_CFG_EN i) && !s.bitF F.GDR_STATUS_CHOP_FAULT i && !s.chopBlocked i then
      match (s.chopOf i).onSince with
      | none =>
        if s.getF (F.MOT_BRK_ON i) ≤ code.toNat then
          (s.setChop i { s.chopOf i with onSince := some now, hist := [(now, code.toNat)] }).putB (F.MOT_BRK_STAT_ON i) true
        else s
      | some t =>
        if code.toNat < s.getF (F.MOT_BRK_OFF i) ∧ t + 400 ≤ now then s.chopOff i
        else
          let win := 200 * s.getF (F.GDR_CHOP_CHK_WIN i)
          let hist := (now, code.toNat) :: (s.chopOf i).hist
          let s := s.setChop i { s.chopOf i with hist := hist.filter fun x => Nat.ble now (x.1 + win) }
          match hist.find? fun x => Nat.ble (x.1 + win) now with
          | some x => if x.2 + s.getF (F.GDR_CHOP_CHK_RISE i) < code.toNat then s.chopFault i false else s
          | none => s
    else s.chopOff i)

/-! ## Desaturation (R298, R303) -/

/-- DESATURATION: the sense input of a switch that has been on for `onNs` ns has stood at `mv` mV for 100 ns. A voltage at or
below the threshold, or within the blanking time, has no effect. -/
def execDesaturation (h : Fin 48) (high : Bool) (mv onNs : Nat) (s : State) : Res :=
  .next (
    let seen := Nat.blt (1000 + 500 * s.getF (F.GDR_HB_CFG_DS_TH h)) mv && Nat.ble (250 + 50 * s.getF (F.GDR_HB_CFG_BLANK h)) onNs
    let chop : List (Fin 4) := (List.finRange 4).filter fun (i : Fin 4) => s.getF (F.MOT_BRK_CFG_HB i) == h.val && (s.chopOf i).onSince.isSome && !high
    if seen && (s.switchOn h high || !chop.isEmpty) then
      let s := s.putF (if high then F.GDR_HB_STATUS_DESAT_H h else F.GDR_HB_STATUS_DESAT_L h) 1
      let n := s.getF (F.GDR_HB_STATUS_DESAT_CNT h) + 1
      let s := (s.putF (F.GDR_HB_STATUS_DESAT_CNT h) (min n 3)).latchGroup (h / 4) 2 (h % 4)
      let s := if 3 ≤ n then s.retireHb h else s
      s.each chop fun a (i : Fin 4) => a.chopFault i true
    else s)

/-! ## Clear and retry (R302) -/

/-- GROUP_CLEAR: a write of GDR_GRP_CTRL[g] travels in the downward frame and acts at the tick boundary (R20, R307). (DEDUCED: log 52) -/
def execGroupClear (_port : Port) (g : Fin 12) (w : Word) (s : State) : Res :=
  .next (if w.getLsbD 0 then s.dnWrite (R.GDR_GRP_CTRL g) w else s)

/-- GROUP_RETRY: the retry wait of a group has run out. -/
def execGroupRetry (g : Fin 12) (s : State) : Res :=
  .next (
    match (s.grp g).retryAt with
    | some t =>
      if t ≤ s.tick ∧ s.flag (F.GDR_GRP_STATUS_RETRY_WAIT g) then
        if (s.retriesOf g).length < 3 then
          if s.supplyLow g || s.keptOut g then s
          else
            let s := (s.setGrp g { s.grp g with retries := s.tick :: s.retriesOf g }).groupReturn g
            (s.putF (F.GDR_GRP_STATUS_RETRIES g) (s.retriesOf g).length).raise Ev.GDR_RETRY g
        else
          let s := (s.putF (F.GDR_GRP_STATUS_EXHAUSTED g) 1).putB (F.GDR_GRP_STATUS_RETRY_WAIT g) false
          (s.setGrp g { s.grp g with retryAt := none }).raise Ev.GDR_RETRY_EXHAUSTED g
      else s
    | none => s)

/-! ## Bus monitors (R304, R305) -/

/-- The trip: every half-bridge of all groups off, choppers apart, and BUS_OV in every group. (DESIGN CHOICE: log 20; DEDUCED: log 31) -/
def State.busTrip (s : State) (i : Nat) : State :=
  let s := ((s.putBitF F.GDR_STATUS_BUS_TRIP i true)).allOff
  let s := { s with brg := { s.brg with tripDue := true } }
  s.forEach 12 fun a g => a.latchGroup g 5 0 i

/-- BUS_MONITOR_CONVERSION. -/
def execBusMonitorConversion (i : Fin 4) (code : BitVec 14) (s : State) : Res :=
  .next (
    let v := code.toNat
    let s := s.putF (F.GDR_BUS_VAL i) v
    if s.flag (F.GDR_BUS_CFG_EN i) then
      let lvl := s.getF (F.GDR_BUS_WARN_LEVEL i)
      let s :=
        if lvl ≤ v then
          (if s.bitF F.GDR_STATUS_BUS_WARN i then s
           else (s.putBitF F.GDR_STATUS_BUS_WARN i true).raise Ev.GDR_BUS_OV_WARN i)
        else if v + s.getF (F.GDR_BUS_WARN_HYST i) < lvl then s.putBitF F.GDR_STATUS_BUS_WARN i false
        else s
      if s.getF (F.GDR_BUS_TRIP_LEVEL i) ≤ v ∧ ¬s.bitF F.GDR_STATUS_BUS_TRIP i then s.busTrip i else s
    else s)

end Sys2Proof.Machine
end

