-- ==== Sys2Proof/Machine/OpsTick.lean ====
section
/-! DEFINITION. Machine/OpsTick.lean: what the tick boundary and the frames of the die bridge do (R16–R25, R305). -/

namespace Sys2Proof.Machine

/-! ## A write reaches the Drive die (R20) -/

/-- Which element of a register array lies at an offset? -/
def elem (n : Nat) (f : Nat → Nat) (off : Nat) : Option Nat := (List.range n).find? fun i => f i == off

/-- A register that simply holds what is written takes its writable bits. -/
def State.rwWrite (s : State) (off : Nat) (w : Word) : State :=
  match findReg off with
  | some r => s.putR off ((s.getR off &&& ~~~BitVec.ofNat 32 r.rw) ||| (w &&& BitVec.ofNat 32 r.rw))
  | none => s

/-- A supervisor register is written. -/
def State.psqWrite (s : State) (x : DnWrite) : State :=
  match elem 16 R.PSQ_RAIL_CTRL x.off with
  | some r => s.psqCtrl r x.w
  | none => match elem 16 R.PSQ_RAIL_MARGIN x.off with
    | some r => s.psqMargin r x.w
    | none => s.rwWrite x.off x.w

/-- A high-voltage register is written; no channel starts while the outputs are held off (R23, Table 1-6). -/
def State.hvsWrite (s : State) (x : DnWrite) : State :=
  match elem 24 R.HVS_CTRL x.off with
  | some c => s.hvCtrl (Fin.ofNat 24 c) (if s.outputsHeld then x.w &&& ~~~1#32 else x.w)
  | none => s.rwWrite x.off x.w

/-- A write that a downward frame carried takes effect at the tick boundary. -/
def State.driveWrite (s : State) (x : DnWrite) : State :=
  match x.off / 0x10000 with
  | 0x0E => (match elem 12 R.GDR_GRP_CTRL x.off with
    | some g => if x.w.getLsbD 0 then s.groupClear g x.tick else s
    | none => s.rwWrite x.off x.w)
  | 0x0F => (match elem 4 R.IRN_HTR_CTRL x.off with
    | some h => if x.w.getLsbD 0 then s.heaterClear (Fin.ofNat 4 h) x.tick else s
    | none => s.rwWrite x.off x.w)
  | 0x10 => s.hvsWrite x
  | 0x11 => (match elem 12 R.THM_STAT x.off with
    | some n => s.thermClear (Fin.ofNat 12 n) x.w
    | none => s.rwWrite x.off x.w)
  | _ => s.psqWrite x

/-- A command that would have both switches of a half-bridge on is refused (R299, R300). -/
def State.refuseCmd (s : State) (h : Nat) : State :=
  if s.flag F.BRG_STATUS_DRIVE_SAFE then s
  else ((s.putF (F.GDR_HB_STATUS_HB_XCMD h) 1).bothOff h).latchGroup (h / 4) 3 (h % 4)

/-- A half-bridge takes its command: one that would have both switches on is refused. -/
def State.takeDuty (s : State) (h : Nat) (d : Option Nat) (low : Nat) : State :=
  if s.overlap h d low then s.refuseCmd h else s.applyDuty h d low

/-- The Drive die learns of the acceptance of an engine reset: HV channels begin their ramp, trips whose causes are absent
clear, margins and queued rail starts go (R363, R369, R406). -/
def State.driveReset (s : State) : State :=
  let s := ((s.hvResetRamp).heatReset).psqEngineReset
  { s with rst := { s.rst with rampAt := some s.tsc.toNat } }

/-- The Drive die applies the frame it holds, or, where one was missed, the values of the previous tick again (R18, R21). (DEDUCED: log 29) -/
def State.applyFrame (s : State) : State :=
  let safe := s.flag F.BRG_STATUS_DRIVE_SAFE
  match s.brg.received with
  | some f =>
    let s := { s with brg := { s.brg with received := none, lenReq := f.len, stopped := s.brg.stopped && !f.endStop } }
    let s := if f.reset then s.driveReset else s
    let s := s.each f.writes State.driveWrite
    let s := if safe then s else s.forEach 48 fun a h => a.takeDuty h (f.hb.toList.getD h none) (f.lo.toList.getD h 0)
    s.lenDrive
  | none => if safe then s else s.forEach 48 fun a h => a.applyDuty h (a.half h).duty (a.half h).low

/-! ## The tick boundary -/

/-- Threads at the end of a tick: cycles used, and CONSEC (R53, R70). -/
def Thread.tickEnd (h : Thread) : Thread :=
  { h with usedLast := h.used, usedMax := max h.usedMax h.used, used := 0, ovrThisTick := false,
           consec := if h.ovrThisTick || h.isSuspended then h.consec else 0 }

/-- The chopper's on-time in the tick that ends, in 100 ns units (R291). -/
def State.chopTick (s : State) (i : Fin 4) : State :=
  let x := s.chopOf i
  let on := x.onCycles + (match x.onSince with
    | some t => s.tsc.toNat - max t (s.tsc.toNat - 4000)
    | none => 0)
  (s.putF (F.MOT_BRK_STAT_ONTIME i) (on / 20)).setChop i { x with onCycles := 0 }

/-- TSC reaches the next tick boundary. -/
def State.nextTick (s : State) : State :=
  let s := s.issueAll
  s.setTsc (BitVec.ofNat 64 ((s.tick + 1) * 4000))

/-- The Drive die latches the sample set of the tick: its registers, and a fall of AC_OK (R86, R378). A loop that runs without
this tick's frame takes the feedback of the frame before, which may have come late (R285). (DEDUCED: log 55) -/
def State.latchUp (s : State) : State :=
  let s := if s.brg.gotUp && !s.brg.onTime && s.brg.missUp == 0 then s.fbkFrame else s
  let s := { s with brg := { s.brg with
    latched := s.regs.filter (fun x => isDrive x.1), acFell := s.psq.fell, gotUp := false, onTime := false, loop := s.brg.samples
    before := none } }
  { s with jr := { s.jr with ripe := s.jr.ripe ++ s.jr.known, known := [] } }

/-- Drive-die work of a tick boundary. (DEDUCED: log 29) -/
def State.driveTick (s : State) (xcmd : List (Fin 48)) : State :=
  let s := { s with brg := { s.brg with halfPrev := s.brg.half } }
  let s := (s.applyFrame).each xcmd fun a h => a.refuseCmd h
  let due := fun (a : State) (c : Fin 24) => match (a.hvOf c).startAt with
    | some t => Nat.ble t a.tick
    | none => false
  let s := s.each (List.finRange 24) fun a c => if due a c then a.hvStart c else a
  let s := (s.heaterJudgeAll).each (List.finRange 4) State.heaterTick
  let s := s.forEach 12 fun a g => a.putF (F.GDR_GRP_STATUS_RETRIES g) (a.retriesOf g).length
  (s.each (List.finRange 4) State.chopTick).latchUp

/-- Core-die work of a tick boundary. -/
def State.coreTick (s : State) (die : Vector (BitVec 16) 12) : State :=
  let s := (s.dnNext).dnLen
  let s := { s with brg := { s.brg with warned := bits (SMap.get resetWord s.up R.GDR_STATUS) 16 4 } }
  let s := { s.mapThr fun _ h => h.tickEnd with seq := { (s.mapThr fun _ h => h.tickEnd).seq with served := 0, lastGrant := 15 } }
  let s := s.each (List.finRange 12) fun a k => a.dieTemp k die[k]
  (((((s.meterTick.mendTherm.speeds).fbkTick).forEach 8 State.bandTick).refreshTick).axBoundary).chnTick

/-! ## The upward frame (R22, R86) -/

/-- Heater trips that the frame reports for the first time (R361). -/
def State.tripsKnown (s : State) (old : SMap Word) : State :=
  let on := fun (m : SMap Word) (h : Nat) => bits (SMap.get resetWord m (R.IRN_HTR_STATUS h)) (F.IRN_HTR_STATUS_TRIP h).lo 1 == 1
  s.forEach 4 fun a h => if on s.up h && !on old h then a.raise Ev.IRN_TRIP h else a

/-- The Core die answers a bus over-voltage trip (R305); NO_VINTAGE and POWERING_DOWN have no way to FAULT (Table 1-6). (DEDUCED: log 31) -/
def State.tripAnswer (s : State) : State :=
  let i := ((List.range 4).find? fun i => s.bitF F.GDR_STATUS_BUS_TRIP i).getD 0
  let s := { s with brg := { s.brg with tripDue := false, kill := true } }.linesFollow
  let s := if s.frozen then s else s.strandPath false
  let s := s.freezeLoss
  let s := if s.devIs 2 || s.devIs 4 || s.devIs 5 then s.enterFault else s
  ((s.motFault).raise Ev.GDR_BUS_OV_TRIP i).gateFollow

/-- Does the frame carry a bus trip that awaits its answer? (DEDUCED: log 31) -/
def State.tripKnown (s : State) : Bool :=
  s.brg.tripDue && bits (SMap.get resetWord s.up R.GDR_STATUS) F.GDR_STATUS_BUS_TRIP.lo F.GDR_STATUS_BUS_TRIP.w != 0

/-- The fall of AC_OK is reported: the ledger freezes at cycle 300, or now where the frame comes after it (R378). (DEDUCED: log 25) -/
def State.acKnown (s : State) : State :=
  if s.brg.acFell then
    let s := { s with psq := { s.psq with fell := false }, brg := { s.brg with acFell := false }, jr := { s.jr with acDue := true } }
    if s.cycle ≤ 300 then s else s.acFreeze
  else s

/-- LEN_SEEN is compared with the LEN_s that the frame carries (R257), once a STATUS has come since training began. (DEDUCED: log 48) -/
def State.lenCompare (s : State) : State :=
  s.each (List.finRange 6) fun a i =>
    let same := a.getF (F.EXL_STATUS_LEN_SEEN i) == a.getF (F.EXL_STATUS_LEN_OUT i)
    a.updStn i fun t => { t with lenDiff := if same || !t.lenKnown then 0 else t.lenDiff + 1 }

/-- Samples, fault states and register values of the frame enter the Core die. -/
def State.frameIn (s : State) (ain : Vector Ain 64) (sc : Vector (Vector (Int × Int) 20) 6) : State :=
  let old := s.up
  let ok := decide (s.cycle ≤ 300)
  let x : Samples := { ain := ain, half := s.brg.halfPrev }
  let kept := if ok then none else some (old, s.regs.filter fun r => r.1 / 0x10000 == 0x0D)
  let s := { s with up := s.brg.latched, brg := { s.brg with
    samples := x, loop := if ok then x else s.brg.loop, gotUp := true, onTime := ok, before := kept } }
  let s := s.each (List.finRange 6) fun a i => a.scFrame (Fin.ofNat 18 (12 + i)) sc[i]
  let s := if ok then s.fbkFrame else s
  let s := s.forEach 6 fun a i => a.putF (F.EXL_STATUS_LEN_OUT i) (boolNat (bit s.brg.len i))
  let s := (s.putB F.BRG_STATUS_MISS_DN (s.brg.missDn != 0)).commitsKnown
  let s := (s.acKnown).tripsKnown old
  let s := (s.lineFaults).lenCompare
  if s.tripKnown then s.tripAnswer else s.gateFollow

/-- FRAME becomes pending in every thread (R22, Table 3-3). -/
def State.frameWake (s : State) : State := s.mapThr fun _ h => h.setPend 49

/-! ## Bridge loss (R23, R24) -/

/-- The Core die declares bridge loss. NO_VINTAGE has no way to FAULT (Table 1-6), nor have the states of the supervisor. (DEDUCED: log 30) -/
def State.coreBridgeLoss (s : State) : State :=
  if s.flag F.BRG_STATUS_LOST then s
  else
    let s := { s with brg := { s.brg with kill := true } }
    let s := ((s.putF F.BRG_STATUS_LOST 1).putF F.BRG_STATUS_UP 0).putF F.DEV_STATE_BRIDGE_UP 0
    let s := s.linesFollow
    let s := if s.devIs 2 || s.devIs 4 || s.devIs 5 then
        { s.enterFault with rst := { s.enterFault.rst with stage := .none } } else s
    let s := if s.devIs 6 then s.hostReady true else s
    ((s.motFault).freezeLoss).gateFollow

/-- The Drive die enters its safe state. (DEDUCED: log 29) -/
def State.driveSafe (s : State) : State :=
  let s := { (s.outputsOff).putF F.BRG_STATUS_DRIVE_SAFE 1 with brg := { s.outputsOff.brg with goodUp := 0, goodDn := 0 } }
  s.linesFollow

/-! ## The downward frame (R20, R376) -/

/-- The frame of this tick reaches the Drive die, with the journal record and the alarm-history entries of the tick. (DEDUCED: log 29) -/
def State.frameOut (s : State) : State :=
  let f : DnFrame := { s.brg.out with endStop := s.rst.endStop }
  let s := { s with brg := { s.brg with received := some f, out := { s.brg.out with writes := [], reset := false } }, rst := { s.rst with endStop := false } }
  let was := s.frozen
  let s := s.sendRecord
  let hist := s.ev.histOut
  let s := ({ s with ev := { s.ev with histOut := [] } }).each hist State.writeHistory
  let s := { s with brg := { s.brg with missDn := 0, goodDn := s.brg.goodDn + 1 } }
  if was && !s.frozen then s.thawed else s

end Sys2Proof.Machine
end

