-- ==== Sys2Proof/Machine/OpsReset.lean ====
section
/-! DEFINITION. Machine/OpsReset.lean: the steps of an engine reset (Table 1-8). -/

namespace Sys2Proof.Machine

/-! ## Acceptance -/

/-- Exposure stops at every station (Table 1-8, R202). -/
def State.stopExposure (s : State) : State := s.each (List.finRange 6) State.inhibit

/-- A pending apply is cancelled; the vintage commands that wait are discarded without completions (R31, R45). -/
def State.cancelVintage (s : State) : State :=
  let s := match s.vin.apply with
    | some a => if a.cid.isSome then s.dropApply.putF F.VIN_STATUS_RESULT 9 else s.dropApply
    | none => s
  (s.setVin { s.vin with jobs := [] }).landHeld

/-- Channels that have not started do not start (R289). -/
def State.motNoStart (s : State) : State :=
  s.each (List.finRange 12) fun a n => (a.putF (F.MOT_STATUS_PENDING_ENABLE n) 0).updMot n fun m => { m with startAt := none }

/-- The Rinse ends with no transition and no completion (R381). -/
def State.rinseDrop (s : State) : State := { s with host := { s.host with rinse := none } }.putF F.LDG_RINSE_REQ 0

/-- Heater demands that have not reached the Drive die go with the demands the reset sets to 0 (R363). -/
def State.dropDemands (s : State) : State :=
  let keep := fun (l : List DnWrite) => l.filter fun x => !(List.range 4).any fun h => x.off == R.IRN_HTR_CMD h
  { s with brg := { s.brg with out := { s.brg.out with writes := keep s.brg.out.writes }, late := keep s.brg.late } }

/-- The request of source `i` is accepted. (DEDUCED: log 33) -/
def State.acceptReset (s : State) (i : Nat) : State :=
  let lost := s.flag F.BRG_STATUS_LOST
  let s := s.latchBits R.DEV_RESET_CAUSE (ones i 1)
  let s := if lost then s.latchF F.DEV_RESET_CAUSE_BRIDGE else s
  let s := (s.setDev 5).hostReady false
  let rst : EngReset := { stage := .stopping, at_ := s.tsc.toNat, noBridge := lost }
  let s := { s with rst := rst, host := { s.host with resetHeld := 0 }, brg := { s.brg with kill := false },
                    seq := { s.seq with startDue := false } }
  let s := ((s.linesFollow).haltAll.stopExposure).cancelVintage
  let s := (((s.mangleReset).motNoStart).dnReset).dropDemands
  let s := s.rinseDrop
  let s := s.setOffers (s.chn.offers.map fun o => { o with reset := true })
  s.chnAlarm 2 0

/-- Is the state one in which a request is accepted (Table 1-6)? -/
def State.resettable (s : State) : Bool := (s.devIs 3 || s.devIs 4 || s.devIs 6) && !s.rst.porOnly

/-! ## Standstill -/

/-- The ledger as the journal holds it, once every earlier record has been committed (R375). -/
def State.rebuilt (s : State) : Ledger := s.uncommitted.foldl (fun l e => l.apply e.2) s.nvm.led

/-- Sheets whose COMMIT came while the ledger was frozen are entered, so that the reset strands them (R435). (DEDUCED: log 33) -/
def State.heldEnter (s : State) : State := s.each (s.chn.pends.filter Pend.held) State.pendEnter

/-- The stranding step (R28, R375, R435, R436). (DEDUCED: log 33) -/
def State.strandStep (s : State) : State :=
  let s := { s with led := s.rebuilt }
  let stays := s.jr.frozenAc || s.flag F.LDG_STATUS_JFULL
  let t := (if stays then s else s.heldEnter).strandPath true
  if t.led.auditOk then
    let s := (t.putF F.LDG_STATUS_AUDIT_FAIL 0)
    ({ s with jr := { s.jr with frozenLoss := false } }.freezeFollow).thawed
  else
    let s := s.strandPath true
    let s := ((s.putF F.LDG_STATUS_AUDIT_FAIL 1).freezeFollow).raise Ev.LDG_AUDIT
    { s with rst := { s.rst with auditBad := true } }

/-- Every axis stands, or coasts: gates off, causes cleared, no axis in FAULT (R28, R307, R318). (DEDUCED: log 33) -/
def State.gatesOff (s : State) : State :=
  let s := ((s.each (List.finRange 12) State.motStop).motNoStart).gateReset
  s.each (List.finRange 20) fun b a => if b.axState a = 6 then b.axLeaveFault a else b

/-! ## The stores are emptied (R28, R31, R111) -/

/-- No page, no granule in use, every page credit free. -/
def State.emptyPages (s : State) : State :=
  let s := s.each s.cel.pages State.dropPage
  let s := { s with cel := { s.cel with pages := [], used := [], dramUsed := [], evicting := [], refilling := [], waitSince := none } }
  let s := (s.putF F.CEL_GRAN_FREE (s.getF F.CEL_GRAN_TOTAL)).putF F.CEL_GRAN_ALLOC 0
  let s := (s.putF F.CEL_DGRAN_FREE (s.getF F.CEL_DGRAN_TOTAL)).putB F.CEL_STATUS_DRAM_FULL (s.getF F.CEL_DGRAN_TOTAL == 0)
  let s := ((s.putF F.CEL_STATUS_EVICTING 0).putF F.CEL_STATUS_REFILLING 0).putF F.CEL_STATUS_AUDIT_FAIL 0
  let s := s.forEach 6 fun a i => a.putR (R.RCK_RES i) 0#32
  ((s.putR R.RCK_RES_TOTAL 0#32).putF F.HIF_PAGE_CREDITS 256).pagesFollow

/-- The Press is idle; lanes that are retired stay so. -/
def State.emptyPress (s : State) : State :=
  let s := { s with prs := {} }
  let s := s.forEach 4 fun a l => if a.getF (F.PRS_LANE_STATE_STATE l) = 3 then a else a.putR (R.PRS_LANE_STATE l) 0#32
  let s := ((s.putF F.PRS_STATUS_BUSY 0).putF F.PRS_STATUS_SPACE_WAIT 0).putF F.PRS_STATUS_PAUSED 0
  (s.putR R.PRS_CUR_TAG 0#32).putR R.PRS_CUR_ROUND 0#32

/-- No station holds a page. -/
def State.emptyStations (s : State) : State :=
  s.each (List.finRange 6) fun a i =>
    let a := a.updStn i fun t => { t with
      page := none, primed := false, tableOk := false, top := false, slips := 0, sweep := 0, notices := [], lostRounds := [],
      poisoned := [], byVal := [], lost := 0, dark := 0, skipped := 0, drainDots := [], skipping := false, tableTag := none, phWarned := false, sent := [], abort := none,
      fetched := Vector.replicate 2 0, fetching := Vector.replicate 2 none }
    (((a.putF (F.DEC_STATUS_STATE i) 0).putR (R.DEC_CUR_TAG i) 0#32)).putR (R.DEC_WIN_STATE i) 0#32

/-- Rings disabled, pointers 0, phases 1, queues and what waited for completions gone (R31, R111). -/
def State.emptyHost (s : State) : State :=
  let s := s.putR R.HIF_CTRL (s.getR R.HIF_CTRL &&& ~~~0xF#32)
  let s := s.forEach 4 fun a r => (a.putF (F.HIF_RING_PTR_PTR r) 0).putF (F.HIF_RING_PTR_PHASE r) (if r < 2 then 0 else 1)
  let h : HostIf := { s.host with
    sqTail := Vector.replicate 2 0, sqRead := Vector.replicate 2 0, stall := Vector.replicate 2 0, cq := [], cqReserved := 0,
    cqFree := s.ringLen 2 - 1, evr := [], cqUnsig := 0, evrUnsig := 0, discards := [], meters := [], sending := [],
    cqHeld := [], evrDue := false, mails := [] }
  ({ s with host := h }.putF F.HIF_STATUS_AUDIT_FAIL 0).stallFollow

/-- Tokens and slots are free; channels are idle under a new generation, so that late data is discarded (R125, R130). -/
def State.emptyRack (s : State) : State :=
  let s := { s with rck := { s.rck with ch := s.rck.ch.map fun (h : Chan) => { stale := h.stale ++ h.issued }, auditFail := false } }
  let s := ((s.putR R.RCK_TOKENS (resetWord R.RCK_TOKENS)).putR R.RCK_SLOTS (resetWord R.RCK_SLOTS))
  s.forEach 16 fun a c =>
    let g := (a.getF (F.RCK_CH_STATUS_GEN c) + 1) % 16
    (a.putR (R.RCK_CH_STATUS c) 0#32).putF (F.RCK_CH_STATUS_GEN c) g

/-- Mailboxes are empty, and no capture transfer runs. -/
def State.emptyBoxes (s : State) : State :=
  let s := s.forEach 8 fun a m => (a.putR (R.SEQ_MBI_STATUS m) 0#32).putR (R.SEQ_MBO_STATUS m) 0#32
  let s := s.forEach 8 fun a m => a.forEach 16 fun b i => (b.putR (R.SEQ_MBI_DATA m i) 0#32).putR (R.SEQ_MBO_DATA m i) 0#32
  s.setCap { s.cle.cap with xfer := none, armWait := false }

/-- An engine reset ends in FAULT; HOST_READY returns. (DEDUCED: log 33) -/
def State.resetFault (s : State) : State :=
  let s := (s.enterFault).hostReady true
  { s with rst := { s.rst with stage := .none } }

/-- The tick after the stranding step. (DEDUCED: log 33) -/
def State.emptyAll (s : State) : State :=
  let s := ((((s.emptyPages).emptyPress).emptyStations.emptyRack).emptyHost.emptyBoxes).raise Ev.DEV_REINIT
  if s.rst.auditBad || s.getF F.GDR_STATUS_BUS_TRIP != 0 then s.resetFault
  else { s with rst := { s.rst with stage := .emptied } }

end Sys2Proof.Machine
end

