-- ==== Sys2Proof/Machine/Device.lean ====
section
/-! DEFINITION. Machine/Device.lean: requests for an engine reset and the steps of Table 1-8 (R25, R28–R31). -/

namespace Sys2Proof.Machine

/-- DEV_RESET (R25, R28, R30): a write with the key 0x7A5E and ENGINE set. (DEDUCED: log 19) -/
def execDevReset (w : Word) (s : State) : Res :=
  .next (if bits w 16 16 = 0x7A5E ∧ w.getLsbD 0 then s.resetRequest 1 else s)

/-- ERST_N (R457): a falling edge followed by 1 µs low. (DESIGN CHOICE: log 70) -/
def execErstN (s : State) : Res := .next (s.resetRequest 2)

/-- The PCI Express function's MSI-X table is as PCI Express resets it. (PRESUMED: log 36) -/
def State.pcieReset (s : State) : State := { s with host := { s.host with msixMask := BitVec.allOnes 64, msixPend := 0 } }

/-- FUNCTION_LEVEL_RESET (R25, R28). -/
def execFunctionLevelReset (s : State) : Res := .next (s.pcieReset.resetRequest 3)

/-- PERST_N (R25, R28, R30): it acts on the link, and requests an engine reset in OPERATIONAL or FAULT. -/
def execPerstN (s : State) : Res :=
  .next (
    let t := s.pcieReset
    if s.devIs 4 || s.devIs 5 || s.devIs 6 then t.resetRequest 4 else t)

/-- ENGINE_RESET_ACCEPT (R28, R30, R31, R70, R122, R289, R319, R363, R369, R381, R406, R439). -/
def execEngineResetAccept (s : State) : Res :=
  .next (
    match s.rst.req with
    | some i => if s.resettable && (i != 1 || s.host.resetHeld == 0) then s.acceptReset i else s
    | none => s)

/-- HV_RESET_RAMP_DONE (R369): 4 ms after the tick boundary at which the ramp began (R20). -/
def execHvResetRampDone (s : State) : Res :=
  .next (
    if s.devIs 5 && !s.rst.hvDone && (s.rst.rampAt.any fun t => Nat.ble (t + 800000) s.tsc.toNat) then
      let s := s.each (List.finRange 24) fun a c =>
        if a.hvState c = 3 then ((a.hvLow c).putF (F.HVS_STATUS_STATE c) 0).updHv c fun _ => {} else a
      { s.hvReset with rst := { s.rst with hvDone := true } }
    else s)

/-- AXIS_COAST_TIMEOUT (R29): the axis still moves 300 ms after acceptance; its gates go off. -/
def execAxisCoastTimeout (a : Fin 20) (s : State) : Res :=
  .next (
    if s.devIs 5 && s.rst.stage == .stopping && Nat.ble (s.rst.at_ + 60000000) s.tsc.toNat && s.flag (F.MOV_AX_CFG_EN a)
        && s.axState a != 0 && (s.ax a).v != 0 then
      let s := if h : a.val < 12 then s.motStop ⟨a.val, h⟩ else s
      (s.axRest a 2).raise Ev.DEV_AXIS_COAST a
    else s)

/-- ENGINE_RESET_STANDSTILL (R28, R29, R375, R436): every axis stands and the bridge is up. -/
def execEngineResetStandstill (s : State) : Res :=
  .next (
    if s.devIs 5 && s.rst.stage == .stopping && s.axesStill && !s.rst.noBridge then
      let s := s.strandStep.gatesOff
      { s with rst := { s.rst with stage := .stranded, strandTick := s.tick } }
    else s)

/-- ENGINE_RESET_EMPTY (R28, R31, R111, R305, R375). -/
def execEngineResetEmpty (s : State) : Res :=
  .next (if s.devIs 5 && s.rst.stage == .stranded && Nat.blt s.rst.strandTick s.tick then s.emptyAll else s)

/-- BRIDGE_RETRAINED (R29). (DEDUCED: log 30) -/
def execBridgeRetrained (s : State) : Res :=
  .next (
    if s.devIs 5 && s.rst.noBridge then
      let s := ((s.putF F.BRG_STATUS_UP 1).putF F.BRG_STATUS_LOST 0).putF F.DEV_STATE_BRIDGE_UP 1
      { s with rst := { s.rst with noBridge := false }, brg := { s.brg with missUp := 0, missDn := 0, goodUp := 0, goodDn := 0 } }
    else s)

/-- BRIDGE_RETRAIN_TIMEOUT (R25, R29, R423): 1,000 ticks after acceptance. -/
def execBridgeRetrainTimeout (s : State) : Res :=
  .next (
    if s.devIs 5 && s.rst.noBridge && Nat.ble (s.rst.at_ / 4000 + 1000) s.tick then
      let s := s.resetFault
      { s with rst := { s.rst with porOnly := true } }.raise Ev.DEV_RETRAIN_TIMEOUT
    else s)

end Sys2Proof.Machine
end

