-- ==== Sys2Proof/Machine/Feedback.lean ====
section
/-! DEFINITION. Machine/Feedback.lean: Hall, quadrature and index edges, probes, compare pulses (chapter 12). -/

namespace Sys2Proof.Machine

/-- The sector of a Hall code (R261): codes 1, 3, 2, 6, 4, 5 in that order. -/
def hallSector (code : Nat) : Option Nat := [1, 3, 2, 6, 4, 5].findIdx? (· == code)

/-- HALL_EDGE (R261): the filtered code of the pins of a channel changes. It counts in Hall mode only; in every mode HALL
shows the code and the last valid sector and the levels of A and B, the same pins (R262), are kept. (DEDUCED: log 49) -/
def execHallEdge (c : Fin 12) (code : BitVec 3) (s : State) : Res :=
  .next (
    let k : Fin 18 := c.castLE (by decide)
    let s := s.putF (F.FBK_STATUS_HALL c) code.toNat
    let s := if s.getF (F.FBK_CFG_MODE c) = 2 then s else s.updFbk k fun f => { f with ab := some (code.toNat % 4) }
    if s.getF (F.FBK_CFG_MODE c) = 1 then
      match hallSector code.toNat with
      | none =>
        if s.flag (F.FBK_STATUS_HALL_INVALID c) then s
        else (s.putF (F.FBK_STATUS_HALL_INVALID c) 1).raise Ev.FBK_HALL_INVALID c
      | some n =>
        let s := s.putF (F.FBK_STATUS_HALL_INVALID c) 0
        let old := (s.fbkOf k).sector
        let s := s.updFbk k fun f => { f with sector := some n }
        match old with
        | none => s
        | some o =>
          match (n + 6 - o) % 6 with
          | 0 => s
          | 1 => s.count k (s.sense k 1) s.tsc.toNat
          | 5 => s.count k (s.sense k (-1)) s.tsc.toNat
          | 2 => (s.count k (s.sense k 2) s.tsc.toNat).incR (R.FBK_ERR c) 1
          | 4 => (s.count k (s.sense k (-2)) s.tsc.toNat).incR (R.FBK_ERR c) 1
          | _ => s.incR (R.FBK_ERR c) 1
    else s.updFbk k fun f => { f with sector := (hallSector code.toNat).or f.sector })

/-- Place of the levels A, B in the quadrature cycle; A leading B counts up (R262). -/
def quadPhase (ab : Nat) : Nat := if ab = 0 then 0 else if ab = 1 then 1 else if ab = 3 then 2 else 3

/-- QUADRATURE_EDGE (R262): the filtered levels of A and B change. They are kept in every mode and count in quadrature mode;
the first levels ever seen are where counting starts. (DEDUCED: log 49) -/
def execQuadratureEdge (c : Fin 12) (a b : Bool) (s : State) : Res :=
  .next (
    let k : Fin 18 := c.castLE (by decide)
    let new := boolNat a + 2 * boolNat b
    let old := ((s.fbkOf k).ab).getD new
    let s := (s.putF (F.FBK_STATUS_HALL c) (s.getF (F.FBK_STATUS_HALL c) / 4 * 4 + new)).updFbk k fun f => { f with ab := some new }
    if s.getF (F.FBK_CFG_MODE c) = 2 then
      match (quadPhase new + 4 - quadPhase old) % 4 with
      | 0 => s
      | 1 => s.count k (s.sense k 1) s.tsc.toNat
      | 3 => s.count k (s.sense k (-1)) s.tsc.toNat
      | _ => s.incR (R.FBK_ERR c) 1
    else s)

/-- INDEX_EDGE (R268, R269): a rising edge of the index input. That of an SC channel is sampled on the grid of its samples
(R263), so the first sample from now on sees it; while the channel is off nothing is sampled. (DEDUCED: log 49) -/
def execIndexEdge (c : Fin 18) (s : State) : Res :=
  .next (
    if c.val < 12 then s.indexTake c s.tsc.toNat
    else if s.isSc c then s.updFbk c fun f => { f with idxAt := f.idxAt ++ [s.tsc.toNat] }
    else s)

/-- INDEX_REARM (R269): the next index becomes a new reference. -/
def execIndexRearm (_port : Port) (c : Fin 18) (w : Word) (s : State) : Res :=
  .next (if w.getLsbD 0 then
      ((s.putF (F.FBK_STATUS_IDX_DROPPED c) 0).putF (F.FBK_STATUS_IDX_VALID c) 0).putF (F.FBK_STATUS_IDX_CONSEC c) 0
    else s)

/-- POSITION_WRITE (R265, R272): at once, and no move for the compare units. (DEDUCED: log 49) -/
def execPositionWrite (_port : Port) (c : Fin 18) (w : Word) (s : State) : Res :=
  .next (((s.putR (R.FBK_POS c) w).putF (F.FBK_STATUS_POS_LOST c) 0).updFbk c fun f => { f with peak := w })

/-- COMPARE_PULSE_END (R273). -/
def execComparePulseEnd (n : Fin 64) (s : State) : Res :=
  .next { s with pulses := s.pulses.filter fun x => !(x.1 == n.val && Nat.ble x.2 s.tsc.toNat) }

/-- PROBE_POP (R270): a write of 1 removes the oldest entry available. -/
def execProbePop (_port : Port) (p : Fin 8) (w : Word) (s : State) : Res :=
  .next (
    if w.getLsbD 0 ∧ s.getF (F.SNS_PRB_STATUS_COUNT p) ≠ 0 then
      ({ s with probes := s.probes.set p (s.probes[p]).tail }).probeFollow p
    else s)

end Sys2Proof.Machine
end

