-- ==== Sys2Proof/Machine/HostCmd.lean ====
section
/-! DEFINITION. Machine/HostCmd.lean: doorbells, the page commands, MAILBOX and ENGINE_RESET, MSI-X and the ring registers
(chapter 5). -/

namespace Sys2Proof.Machine

/-! ## Doorbells (R107, R109) -/

/-- Is ring `r` enabled? -/
def State.ringOn (s : State) (r : Nat) : Bool := s.bitF { off := R.HIF_CTRL, lo := 0, w := 4 } r

/-- Discard a doorbell write. -/
def State.dropDoorbell (s : State) : State := s.incR R.HIF_DB_DROP 1

/-- The doorbell's index, if the write passes the tests that hold for every ring. -/
def State.doorbell (s : State) (r : Nat) (w : Word) : Option Nat :=
  let i := bits w 0 12
  if Nat.blt i (s.ringLen r) && s.ringOn r && s.flag F.DEV_STATE_HOST_READY then some i else none

/-- Entries of queue `q` whose reading is outstanding. -/
def State.readsDue (s : State) (q : Fin 2) : Nat :=
  ((((s.chan 0).issued ++ (s.chan 0).queued).filter fun t => t.job != 0 && !t.write && t.tag == q.val).map Txn.bytes).foldl (· + ·) 0 / 64

/-- Read `n` entries of queue `q` from index `i`, which do not cross the end of the ring. (DEDUCED: log 35) -/
def State.readEntries (s : State) (q : Fin 2) (i n : Nat) : State :=
  if n = 0 then s else s.transfer 0 (s.getP (R.HIF_RING_BASE_LO q) + 64 * i) (64 * n) false q

/-- Read every published entry of queue `q` that has not been asked for. (DEDUCED: log 35) -/
def State.fetchEntries (s : State) (q : Fin 2) : State :=
  let n := s.ringLen q
  let i := (s.host.sqRead[q] + s.readsDue q) % n
  let t := s.host.sqTail[q]
  if i ≤ t then s.readEntries q i (t - i) else (s.readEntries q i (n - i)).readEntries q 0 t

/-- SQ_DOORBELL (R104, R107). -/
def execSqDoorbell (q : Fin 2) (w : Word) (s : State) : Res :=
  .next (
    match s.doorbell q w with
    | some t => { s with host := { s.host with sqTail := s.host.sqTail.set q t } }.fetchEntries q
    | none => s.dropDoorbell)

/-- How many entries a new head releases, if it lies in ring order between the present head and the produced tail. -/
def State.released (s : State) (r held head : Nat) : Option Nat :=
  let n := s.ringLen r
  let old := (s.getF (F.HIF_RING_PTR_PTR r) + n - held) % n
  let k := (head + n - old) % n
  if k ≤ held then some k else none

/-- CQ_DOORBELL (R107, R109). -/
def execCqDoorbell (w : Word) (s : State) : Res :=
  .next (
    match (s.doorbell 2 w).bind (s.released 2 s.host.cq.length) with
    | some k => { s with host := { s.host with cq := s.host.cq.drop k, cqFree := s.host.cqFree + k } }.stallFollow
    | none => s.dropDoorbell)

/-- EVR_DOORBELL (R107, R110). -/
def execEvrDoorbell (w : Word) (s : State) : Res :=
  .next (
    match (s.doorbell 3 w).bind (s.released 3 s.host.evr.length) with
    | some k => { s with host := { s.host with evr := s.host.evr.drop k } }
    | none => s.dropDoorbell)

/-! ## The page commands (R113, R115, R118) -/

/-- PAGE_SUBMIT (R113, R115). -/
def execPageSubmit (q : Fin 2) (e : SqEntry) (s : State) : Res :=
  .next (
    if e.opcode ≠ 0x01#8 then s
    else if !s.canConsume q 2 then s.cqStall q 2
    else
      let s := s.consume q 2
      let tag := e.dw[0]
      let no := fun (st : Status) => (s.complete q e.cid st 0 tag).unreserve
      match s.admitCmd q 0 [4] (zeroFrom e 4 && tag != 0#32) with
      | some st => no st
      | none =>
        if s.flag F.CEL_STATUS_AUDIT_FAIL ∨ s.getF F.PRS_STATUS_IN_SERVICE = 0 then no .notReady
        else if s.getF F.HIF_PAGE_CREDITS = 0 then no .noCredit
        else if (s.page tag).isSome then no .duplicateTag
        else
          let p : Page := { tag := tag, cid := e.cid, seq := s.cel.nextSeq, desc := e.dw[1].toNat + 0x100000000 * e.dw[2].toNat,
                            descLen := e.dw[3].toNat }
          let s := s.putF F.HIF_PAGE_CREDITS (s.getF F.HIF_PAGE_CREDITS - 1)
          ({ s with cel := { s.cel with pages := s.cel.pages ++ [p], nextSeq := s.cel.nextSeq + 1 } }).pagesFollow)

/-- PAGE_DISCARD (R118): a page that is not held is unknown at once; any other waits for the tick boundary. (DEDUCED: log 41) -/
def execPageDiscard (q : Fin 2) (e : SqEntry) (s : State) : Res :=
  .next (s.command q 0 0x02#8 e [4] (zeroFrom e 1) e.dw[0] fun s =>
    let tag := e.dw[0]
    match s.page tag with
    | some p =>
      { s with host := { s.host with discards := s.host.discards ++ [{ tag := tag, seq := p.seq, cid := e.cid, tick := s.tick }] } }
    | none => s.complete 0 e.cid .unknownTag 0 tag)

/-- A page is discarded (R118, R119). (DEDUCED: log 41) -/
def State.discardPage (s : State) (p : Page) (cid : BitVec 16) : State :=
  let done := fun (a : State) => a.complete 0 cid .ok 0 p.tag
  match p.st with
  | .inPress => done (s.failPage p .discarded)
  | .picked =>
    s.updPage p.tag fun x => { x with discard := x.discard ++ [cid], noReturn := true, jamReturn := false }
  | _ => done (s.retire p .discarded (s.spoiledPage p))

/-- PAGE_DISCARD_ACTION (R118): at the tick boundary after the command, by the page's state there. (DEDUCED: log 41) -/
def execPageDiscardAction (tag : Word) (s : State) : Res :=
  .next (
    match s.host.discards.find? fun d => d.tag == tag && Nat.blt d.tick s.tick with
    | none => s
    | some d =>
      let s := { s with host := { s.host with discards := s.host.discards.erase d } }
      match s.cel.pages.find? fun p => p.tag == tag && p.seq == d.seq with
      | none => s.complete 0 d.cid .unknownTag 0 tag
      | some p => s.discardPage p d.cid)

/-! ## Other commands -/

/-- MAILBOX (R66, R121): its payload is read on channel 5; the read's end fills the mailbox or answers. `payload` is what
host memory holds at the payload address. -/
def execMailbox (q : Fin 2) (e : SqEntry) (payload : Vector Word 16) (s : State) : Res :=
  .next (
    let m := bits e.dw[0] 0 3
    let n := bits e.dw[0] 8 5
    let ok := zeroFrom e 3 && (e.dw[0] &&& ~~~0x1F07#32 == 0#32) && Nat.ble 1 n && Nat.ble n 16
    s.command q 1 0x21#8 e [4] ok (BitVec.ofNat 32 m) fun s =>
      let x : Mail := { cid := e.cid, box := m, count := n, payload := payload }
      { s with host := { s.host with mails := s.host.mails ++ [x] } }.transfer 5
        (e.dw[1].toNat + 0x100000000 * e.dw[2].toNat) (4 * n) false)

/-- UNDEFINED_COMMAND (R113): an entry whose opcode is not in Table 5-3. -/
def execUndefinedCommand (q : Fin 2) (e : SqEntry) (s : State) : Res :=
  .next (
    if opcodes.contains e.opcode then s
    else if s.canConsume q 1 then (s.consume q 1).complete q e.cid .badOpcode else s.cqStall q 1)

/-- ENGINE_RESET (R25, R122): the completion leaves the link before the request waits for acceptance. (DEDUCED: log 40) -/
def execEngineReset (q : Fin 2) (e : SqEntry) (s : State) : Res :=
  .next (s.command q 1 0x30#8 e [4, 3, 6] (zeroFrom e 0) 0#32 fun s =>
    if s.devIs 6 ∧ s.rst.porOnly then (s.complete 1 e.cid .notReady).resetRequest 1
    else
      let s := (s.complete 1 e.cid .ok).resetRequest 1
      { s with host := { s.host with resetHeld := s.host.cqHeld.length } })

/-! ## MSI-X (R123, R124) -/

/-- MSIX_UNMASK (R123): a write of a vector's Mask bit in the MSI-X table; one that clears it sends what is pending. (PRESUMED: log 36; DESIGN CHOICE: log 70) -/
def execMsixUnmask (v : Fin 64) (mask : Bool) (s : State) : Res :=
  .next (
    let b := BitVec.ofNat 64 (2 ^ v.val)
    if mask then { s with host := { s.host with msixMask := s.host.msixMask ||| b } } else
    let due := s.host.msixPend.getLsbD v
    let s := { s with host := { s.host with msixMask := s.host.msixMask &&& ~~~b, msixPend := s.host.msixPend &&& ~~~b } }
    if due then s.signal v else s)

/-- COAL_TIMEOUT (R124): the oldest unsignalled entry has waited HIF_COAL.TICKS ticks. -/
def execCoalTimeout (evr : Bool) (s : State) : Res :=
  .next (
    let t := s.getF F.HIF_COAL_TICKS
    let n := if evr then s.host.evrUnsig else s.host.cqUnsig
    let old := if evr then s.host.evrOldest else s.host.cqOldest
    if t ≠ 0 ∧ n ≠ 0 ∧ old + t ≤ s.tick then
      (if evr then { s with host := { s.host with evrUnsig := 0 } }.signal 2
      else { s with host := { s.host with cqUnsig := 0 } }.signal 0)
    else s)

/-! ## Ring registers (R106) -/

/-- The low word of a 64-bit pair is accepted; it acts with the high word (R7). -/
def State.pairLow (s : State) (lo : Nat) (w : Word) : State := { s with low := SMap.set resetWord s.low lo w }

/-- The high word is written: the pair takes both. -/
def State.pairHigh (s : State) (lo : Nat) (w : Word) : State := (s.putR lo (SMap.get resetWord s.low lo)).putR (lo + 4) w

/-- A write of HIF_RING_BASE_LO or HIF_RING_BASE_HI. -/
def State.ringBase (s : State) (r : Nat) (high : Bool) (w : Word) : State :=
  let off := R.HIF_RING_BASE_LO r
  if s.ringOn r then s.refuse (if high then off + 4 else off)
  else if high then s.pairHigh off w
  else if bits w 0 12 ≠ 0 then s.refuse off
  else s.pairLow off w

/-- A write of HIF_RING_SIZE. -/
def State.ringSize (s : State) (r : Nat) (w : Word) : State :=
  let n := bits w 0 4
  if s.ringOn r ∨ n < 4 ∨ 12 < n then s.refuse (R.HIF_RING_SIZE r)
  else
    let s := s.putF (F.HIF_RING_SIZE r) n
    if r = 2 then { s with host := { s.host with cqFree := 2 ^ n - 1 - s.host.cq.length - s.host.cqReserved } } else s

/-- RING_BASE_WRITE (R106). -/
def execRingBaseWrite (port : Port) (r : Fin 4) (high : Bool) (w : Word) (s : State) : Res :=
  .next (s.viaPort port (R.HIF_RING_BASE_LO r) fun s => s.ringBase r high w)

/-- RING_SIZE_WRITE (R106). -/
def execRingSizeWrite (port : Port) (r : Fin 4) (w : Word) (s : State) : Res :=
  .next (s.viaPort port (R.HIF_RING_SIZE r) fun s => s.ringSize r w)

/-- A write of HIF_CTRL. A ring that is enabled with its tail at 0 starts with phase 1, also where it has wrapped before
(R108). (DEDUCED: log 35; DESIGN CHOICE: log 82) -/
def State.hifCtrl (s : State) (w : Word) : State :=
  let old := s.getR R.HIF_CTRL
  let s := s.putR R.HIF_CTRL (w &&& 0x10F#32)
  let s := s.each [2, 3] fun a r =>
    if w.getLsbD r && !old.getLsbD r && a.getF (F.HIF_RING_PTR_PTR r) == 0 then a.putF (F.HIF_RING_PTR_PHASE r) 1 else a
  let s := s.each [(0 : Fin 2), 1] fun a q => if w.getLsbD q && !old.getLsbD q then a.fetchEntries q else a
  s.stallFollow.cqDrain

end Sys2Proof.Machine
end

