-- ==== Sys2Proof/Machine/Ledger.lean ====
section
/-! DEFINITION. Machine/Ledger.lean: the ledger's commands, the Rinse, the meter report and the copy of events to EVR
(chapters 18 and 21). -/

namespace Sys2Proof.Machine

/-- A write of LDG_SPOIL (R373). -/
def State.spoilWrite (s : State) (id : Word) : State :=
  match s.led.find id with
  | some sh => if sh.place.inEngine then s.spoil id else s.refuse R.LDG_SPOIL
  | none => s.refuse R.LDG_SPOIL

/-- SPOIL: a write of LDG_SPOIL (R373). -/
def execSpoil (_port : Port) (id : Word) (s : State) : Res := .next (s.spoilWrite id)

/-- JOURNAL_COMMIT (R377, R383, R394). -/
def execJournalCommit (s : State) : Res := .next s.commitRecord

/-- RINSE (R380). -/
def execRinse (q : Fin 2) (e : SqEntry) (s : State) : Res :=
  .next (s.command q 1 0x31#8 e [4] (zeroFrom e 0) 0#32 fun a =>
    let no := fun (c : Nat) => (a.putF F.LDG_RINSE_CAUSE c).complete 1 e.cid .rinseRefused
    if a.led.sheets.any fun sh => sh.place.inPath then no 1
    else if a.host.rinse.isSome then no 2
    else
      let ids := (a.led.sheets.filter fun sh => sh.place == .jammed || sh.place == .stranded).map Sheet.id
      { a.putF F.LDG_RINSE_REQ 1 with host := { a.host with rinse := some { cid := e.cid, ids := ids, since := a.tick } } })

/-- RINSE_CLEAR: CLEAR written to LDG_RINSE (R380). -/
def execRinseClear (_port : Port) (s : State) : Res := .next (s.rinseWrite 2#32)
/-- RINSE_FAIL: FAIL written to LDG_RINSE (R380). -/
def execRinseFail (_port : Port) (s : State) : Res := .next (s.rinseWrite 4#32)

/-- RINSE_TIMEOUT (R380): LDG_RINSE_TO ticks without CLEAR or FAIL. (DESIGN CHOICE: log 4) -/
def execRinseTimeout (s : State) : Res :=
  .next (match s.host.rinse with
    | some j =>
      if !j.heldClear && Nat.ble (j.since + (s.getR R.LDG_RINSE_TO).toNat) s.tick then
        (s.raise Ev.LDG_RINSE_TIMEOUT).rinseEnd j .rinseRefused 0 4
      else s
    | none => s)

/-- METER_REPORT (R384, R387). (DEDUCED: log 26) -/
def execMeterReport (q : Fin 2) (e : SqEntry) (s : State) : Res :=
  .next (
    let unused := e.rsvd0 == 0 && e.rsvd1 == 0 && e.dw[3] == 0 && e.dw[4] == 0 && e.dw[5] == 0
    s.command q 1 0x20#8 e [3, 4, 6] unused 0#32 fun a =>
      if a.flag F.SEC_STATUS_RNG_FAIL then a.complete 1 e.cid .vintageFail 1
      else if e.dw[2].toNat < 3280 then a.complete 1 e.cid .reportTooSmall
      else
        let m : MeterJob := { cid := e.cid, addr := e.dw[0].toNat + 0x100000000 * e.dw[1].toNat, nonce := e.dw.toList.drop 6,
                              tick := a.tick, waits := (a.uncommitted.filter fun x => x.2.counted).length }
        { a with host := { a.host with meters := a.host.meters ++ [m] } })

/-- METER_SNAPSHOT (R384): the report whose snapshot the tick boundary took is signed and written. (DEDUCED: log 26) -/
def execMeterSnapshot (s : State) : Res :=
  .next (match s.host.meters with
    | [] => s
    | m :: r =>
      let t := { s with host := { s.host with meters := r } }
      if s.flag F.SEC_STATUS_RNG_FAIL then t.complete 1 m.cid .vintageFail 1
      else match m.body with
      | some b =>
        let bytes := t.signReport b
        let t := { t.drew with host := { t.host with sending := t.host.sending ++ [(m.cid, m.addr, bytes)] } }
        t.transfer 5 m.addr 3280 true
      | none => s)

/-! ## EVR (R110, R417) -/

/-- EVR_COPY (R110, R417, R421): channel 0 copies the held events when its turn comes (R125). -/
def execEvrCopy (s : State) : Res :=
  .next ((({ s with host := { s.host with evrDue := true } } : State).pumpAll).forEach 4 State.summary)

end Sys2Proof.Machine
end

