-- ==== Sys2Proof/Machine/LineClock.lean ====
section
/-! DEFINITION. Machine/LineClock.lean: line clocks, polygon lock and dot clocks (chapter 10). The deviation of a lock
window is a measurement: its command carries it. -/

namespace Sys2Proof.Machine

/-- The banding table of a station is stale once the line rate is further than 2 % from the learned one (R225). -/
def State.bandc (s : State) (i : Fin 6) (rate : Nat) : State :=
  let learned := (s.stnOf i).learned
  let stale := s.flag (F.EXP_BANDC_EN i) && learned != 0 && !near2 rate learned
  let s1 := s.putB (F.EXP_STATUS_BANDC_STALE i) stale
  if stale && !s.flag (F.EXP_STATUS_BANDC_STALE i) then s1.raise Ev.EXP_BANDC_STALE i else s1

/-- LINE_CLOCK_UPDATE (R214–R216, R225): at cycle 600, once in each tick, the loop follows the sample latched at the start of
the tick; during a signal fault the clock coasts. (DEDUCED: log 47) -/
def execLineClockUpdate (st : Fin 6) (s : State) : Res :=
  .next (
    if 600 < s.cycle ∨ (s.stnOf st).line.upAt = some s.tick then s
    else
    let s := s.issueAll.setTsc (s.tsc + BitVec.ofNat 64 (600 - s.cycle))
    let s := s.updStn st fun t => { t with line := { t.line with upAt := some s.tick } }
    let rate := s.exposedRate st (s.stnOf st).line.freq
    let s := (s.putF (F.EXP_LRATE st) (min rate 131071)).putB (F.EXP_STATUS_LOW_RATE st) (Nat.blt rate (s.getF (F.EXP_LINE_MIN st)))
    let s := (s.lineFaults).bandc st rate
    if s.flag (F.EXP_STATUS_LINE_FAULT st) then s.gateFollow
    else
      let k := (s.stnOf st).line.sample s.brg.fbkAt[s.scOf st].pos (s.getR (R.EXP_LPITCH st)).toNat (s.scOf st).val
      let u := k.update s.tsc.toNat (s.getF (F.EXP_LCFG_BW st)) (s.lineTop st)
      let s := s.updStn st fun t => { t with line := u.1 }
      ((s.putR (R.EXP_TRACK_ERR st) (BitVec.ofInt 32 (Int.fdiv u.1.lag 0x10000))).putB (F.EXP_STATUS_CLAMPED st) u.2).gateFollow)

/-! ## Beam detect -/

/-- Facet numbering at a BD of the master (R224). -/
def State.facetStep (s : State) (i : Fin 6) : State :=
  let p := s.polyOf i
  let f := s.getF (F.EXP_POLY_STATUS_FACET p)
  let g := s.poly[p]
  let first := if s.getF (F.EXP_POLY_CFG_INDEX p) = 0x7F then !g.seen else g.mark
  { s.putF (F.EXP_POLY_STATUS_FACET p) (if first then 0 else (f + 1) % s.facets i) with
    poly := s.poly.set p { g with bdSince := g.bdSince + 1, mark := false, seen := true } }

/-- Is |v| at most `pct` per cent of a sweep (v in 1/65,536 sweep)? -/
def within (v : Int) (pct : Nat) : Bool := Nat.ble (100 * v.natAbs) (pct * 65536)

/-- Facet rate minus sweep rate in ppm of the sweep rate, once a facet period is known (R221). -/
def State.rateErr (s : State) (i : Fin 6) : Option Int :=
  match s.facetSum i, s.tSweep i with
  | some (t, n), some w => some (Int.fdiv ((((w * n : Nat) : Int) - t) * 1000000) t)
  | _, _ => none

/-- Is the facet rate within `ppm` of the sweep rate? -/
def rateWithin (r : Option Int) (ppm : Nat) : Bool := match r with
  | some v => Nat.ble v.natAbs ppm
  | none => false

/-- The lock state follows one BD (Table 10-1): `e` the phase error, `rate` the facet-rate error in ppm. (DEDUCED: log 47) -/
def State.lockStep (s : State) (i : Fin 6) (e : Int) (rate : Option Int) : State :=
  let t := s.stnOf i
  match s.getF (F.EXP_STATUS_LOCK i) with
  | 0 =>
    if rateWithin rate 10000 then
      if 16 ≤ t.freqRun + 1 then s.setLock i 1 else s.updStn i fun t => { t with freqRun := t.freqRun + 1 }
    else s.updStn i fun t => { t with freqRun := 0 }
  | 1 =>
    if !within e 10 || !rateWithin rate 20000 then s.setLock i 0
    else if within e 2 then
      if s.getF (F.EXP_POLY_CFG_LOCK_SWEEPS (s.polyOf i)) ≤ t.lockRun + 1 then s.setLock i 2
      else s.updStn i fun t => { t with lockRun := t.lockRun + 1 }
    else s.updStn i fun t => { t with lockRun := 0 }
  | _ =>
    if !within e 10 then s.setLock i 0
    else if within e 2 then s
    else
      let s1 := s.incR (R.EXP_PHWARN i) 1
      if t.phWarned then s1 else (s1.updStn i fun t => { t with phWarned := true }).raise Ev.EXP_PHASE_WARN i

/-- The BD is paired with its sweep-clock edge: phase error, lock state and polygon loop error follow (R220, R221). While the
line clock stands there is no edge to pair it with. -/
def State.bdPhase (s : State) (i : Fin 6) (now : Nat) : State :=
  match s.phaseErr i now with
  | none => s
  | some e =>
    let rate := s.rateErr i
    let s := (s.putF (F.EXP_PHERR i) (unsigned 16 e)).lockStep i e rate
    if s.isMaster i then
      let p := s.polyOf i
      if s.getF (F.EXP_STATUS_LOCK i) = 0 then (match rate with
        | some r => s.putR (R.EXP_POLY_ERR p) (BitVec.ofInt 32 r)
        | none => s)
      else s.putR (R.EXP_POLY_ERR p) (BitVec.ofInt 32 e)
    else s

/-- The dot clock at a BD (R226–R228, R230): a new target, which a locked clock follows and one in relock takes at once; then
the alignment. The 0.4 % of R227 is taken of the greater of target and output, so that a step of EXP_DCLK_MAG within 4,000 ppm
never relocks. (DEDUCED: log 47) -/
def State.dclkStep (s : State) (i : Fin 6) (now : Nat) : State :=
  match s.dclkTarget i with
  | none => s
  | some (num, den) =>
    let s := s.dclkSlew i now
    let s := s.updStn i fun t => { t with dot := { t.dot with num := num, den := den } }
    let f := microHz num den
    let s := s.clampedFollow i
    let out := (s.stnOf i).dot.out
    let n := s.getF (F.EXP_DCLK_STATUS_N i)
    let far := Nat.blt (4 * max out f) (1000 * (max out f - min out f)) || Nat.blt (f * n) 3300000000000000 || Nat.blt 6200000000000000 (f * n)
    let s := match s.getF (F.EXP_DCLK_STATUS_STATE i) with
      | 0 => s.dclkRelock i
      | 1 => s.dclkJump i now
      | _ => if far then s.dclkRelock i else s
    (s.updStn i fun t => { t with dot := t.dot.align now (s.getF (F.EXP_DCLK_START i)) }).gateFollow

/-- BD_PULSE (R220–R230, R258): a BD at this TSC plus `frac`/1,024 cycle. -/
def execBdPulse (st : Fin 6) (frac : BitVec 10) (s : State) : Res :=
  .next (
    let now := s.tsc.toNat * 1024 + frac.toNat
    let early := match (s.stnOf st).bds.head?, s.facetSum st with
      | some a, some (t, n) => Nat.blt (2 * (now - a) * n) t
      | _, _ => false
    if early then s.incR (R.EXL_BD_REJECT st) 1
    else
      let s := if s.isMaster st then s.facetStep st else s
      let s := s.updStn st fun t => { t with bds := (now :: t.bds).take (s.facets st + 1), bdMissed := 0, bdNum := (t.bdNum + 1) % 256 }
      let s := (s.putP (R.EXP_BD_TS_LO st) s.tsc.toNat).putF (F.EXP_BD_FRAC_FRAC st) frac.toNat
      let s := s.putF (F.EXP_BD_FRAC_FACET st) (s.getF (F.EXP_POLY_STATUS_FACET (s.polyOf st)))
      (s.bdPhase st now).dclkStep st now)

/-- BD_MISSING_TIMEOUT (R222): no BD within 1.5 sweep periods of the previous one, nor, after a miss, within one more. The runs
of consecutive sweeps end, and the dot clock keeps its alignment. (DEDUCED: log 47) -/
def execBdMissingTimeout (st : Fin 6) (s : State) : Res :=
  .next (
    match (s.stnOf st).bds.head?, s.tSweep st with
    | some a, some w =>
      let m := (s.stnOf st).bdMissed
      if 2 * (1024 * s.tsc.toNat - a) < (3 + 2 * m) * w then s
      else
        let s := (s.incR (R.EXP_BD_MISS st) 1).raise Ev.EXP_BD_MISSING st
        let s := s.updStn st fun t => { t with bdMissed := m + 1, freqRun := 0, lockRun := 0 }
        if 2 ≤ m + 1 then s.setLock st 0 else s
    | _, _ => s)

/-! ## Dot-clock lock (R228) -/

/-- Did the target move by less than 1 ppm/µs over a window of 4,096 cycles of the 25 MHz reference, 163.84 µs (R228)? -/
def State.dclkSteady (s : State) (i : Fin 6) : Bool :=
  let d := (s.stnOf i).dot
  let f := microHz d.num d.den
  Nat.blt (100000000 * (max f d.winFrom - min f d.winFrom)) (16384 * d.winFrom)

/-- DCLK_LOCK_WINDOW: a window of 4,096 reference cycles ends; `dev` is the deviation in ppm of the divided output from the
commanded frequency. -/
def execDclkLockWindow (st : Fin 6) (dev : Nat) (s : State) : Res :=
  .next (
    let steady := s.dclkSteady st
    let s := s.updStn st fun t => { t with dot := { t.dot with winFrom := microHz t.dot.num t.dot.den } }
    match s.getF (F.EXP_DCLK_STATUS_STATE st) with
    | 1 =>
      if dev ≤ 20 ∧ steady then
        let n := (s.stnOf st).windows + 1
        let s := s.updStn st fun t => { t with windows := n }
        if 4 ≤ n then (s.putF (F.EXP_DCLK_STATUS_STATE st) 2).rateCheck st else s
      else s.updStn st fun t => { t with windows := 0 }
    | 2 =>
      let s := s.dclkSlew st (1024 * s.tsc.toNat)
      if 100 < dev then s.dclkRelock st else s
    | _ => s)

/-- DCLK_REF_LOSS (R228): no reference edge within 200 ns. -/
def execDclkRefLoss (st : Fin 6) (s : State) : Res :=
  .next (if s.getF (F.EXP_DCLK_STATUS_STATE st) = 0 then s else s.dclkRelock st)

/-- DCLK_RELOCK_TIMEOUT (R423): 1,000 ms in RELOCK restart the relock, N recomputed. -/
def execDclkRelockTimeout (st : Fin 6) (s : State) : Res :=
  .next (
    if s.getF (F.EXP_DCLK_STATUS_STATE st) = 1 ∧ (s.stnOf st).relockAt + 200000000 ≤ s.tsc.toNat then
      (s.raise Ev.EXP_DCLK_TIMEOUT st).dclkRelock st
    else s)

/-- GRID_SLEW_DONE (R219): nothing of the slew is left. -/
def execGridSlewDone (st : Fin 6) (s : State) : Res :=
  .next (if (s.stnOf st).slewLeft = 0 then (s.putF (F.EXP_STATUS_SLEWING st) 0).slewStart st else s)

/-- OVERSPEED_CLEAR (R6, R233): a thread's write of 1, while the unclamped line rate is below the ceiling. -/
def execOverspeedClear (port : Port) (st : Fin 6) (s : State) : Res :=
  .next (
    match port with
    | .thread _ => if s.flag (F.EXP_STATUS_CLAMPED st) then s else s.clearF (F.EXP_STATUS_OVERSPEED st)
    | .host => s)

end Sys2Proof.Machine
end

