-- ==== Sys2Proof/Machine/Mangle.lean ====
section
/-! DEFINITION. Machine/Mangle.lean: axis commands, limit writes, the evaluation of a tick, sensor pins, probes and jam
windows (chapters 12 and 15). -/

namespace Sys2Proof.Machine

/-- A coordinated stop that has come since the last evaluation stops the axes of CHN_STOP_MASK at DSTOP (R440). -/
def State.stopAxes (s : State) : State :=
  if s.chn.stopDue then
    let s := { s with chn := { s.chn with stopDue := false } }
    s.each (List.finRange 20) fun b a =>
      let st := b.axState a
      if b.bitF F.CHN_STOP_MASK_AXES a ∧ b.axOn a ∧ st ≠ 0 ∧ st ≠ 6 then b.axHalt a else b
  else s

/-- MANGLE_EVALUATION (R310): once in a tick, every enabled axis. -/
def execMangleEvaluation (s : State) : Res :=
  .next (
    if s.brg.mangleTick = some s.tick then s
    else
      let s := { s with brg := { s.brg with mangleTick := some s.tick } }
      let s := s.stopAxes
      s.each (List.finRange 20) State.axTick)

/-- Place a pending command; a command that waits is replaced and counted (R311). -/
def State.axCommand (s : State) (a : Fin 20) (op : Nat) : State :=
  let s := if (s.ax a).cmd.isSome then s.incR (R.MOV_AX_SUPERSEDED a) 1 else s
  s.updAx a fun x => { x with cmd := some op }

/-- An undefined OP is discarded (R311). -/
def State.axUndefined (s : State) (a : Fin 20) : State := s.raise Ev.MOV_BAD_CMD a

/-- A write of MOV_AX_CMD. -/
def State.axWrite (s : State) (a : Fin 20) (w : Word) : State :=
  let op := bits w 0 4
  if 1 ≤ op ∧ op ≤ 8 then s.axCommand a op else s.axUndefined a

/-- MOVE_ABS (Table 15-1, R311). -/
def execMoveAbs (_port : Port) (a : Fin 20) (s : State) : Res := .next (s.axCommand a 1)
/-- MOVE_REL (Table 15-1). -/
def execMoveRel (_port : Port) (a : Fin 20) (s : State) : Res := .next (s.axCommand a 2)
/-- JOG (Table 15-1). -/
def execJog (_port : Port) (a : Fin 20) (s : State) : Res := .next (s.axCommand a 3)
/-- TABLE (Table 15-1). -/
def execTable (_port : Port) (a : Fin 20) (s : State) : Res := .next (s.axCommand a 4)
/-- STOP (Table 15-1). -/
def execStop (_port : Port) (a : Fin 20) (s : State) : Res := .next (s.axCommand a 5)
/-- RESUME (Table 15-1). -/
def execResume (_port : Port) (a : Fin 20) (s : State) : Res := .next (s.axCommand a 6)
/-- HOME (Table 15-1). -/
def execHome (_port : Port) (a : Fin 20) (s : State) : Res := .next (s.axCommand a 7)
/-- SET_POS (Table 15-1). -/
def execSetPos (_port : Port) (a : Fin 20) (s : State) : Res := .next (s.axCommand a 8)

/-- UNDEFINED_AXIS_COMMAND (R311): OP 0 or above 8. -/
def execUndefinedAxisCommand (_port : Port) (a : Fin 20) (op : BitVec 4) (s : State) : Res :=
  .next (if op.toNat = 0 ∨ 8 < op.toNat then s.axUndefined a else s.axCommand a op.toNat)

/-- MOVE_TIMEOUT (R315): a move other than a jog has run for MOV_AX_TMO ticks. -/
def execMoveTimeout (a : Fin 20) (s : State) : Res :=
  .next (
    let st := s.axState a
    let t := s.getF (F.MOV_AX_TMO a)
    if (st = 1 ∨ st = 3 ∨ st = 5) ∧ t ≠ 0 ∧ (s.ax a).began + t ≤ s.tick then
      (s.axStop a false (st == 1) 7).raise Ev.MOV_TIMEOUT a
    else s)

/-- STALL_DETECT (R324). -/
def execStallDetect (a : Fin 20) (s : State) : Res :=
  .next (
    let x := s.ax a
    let st := s.axState a
    if s.isStepper a ∧ s.getF (F.MOV_STP_CFG_STALLT a) ≤ x.stall ∧ 1 ≤ x.stall ∧ st ≠ 0 ∧ st ≠ 6 then
      let r := if st = 1 ∨ (st = 4 ∧ x.keep) then x.target - x.pcmd else 0#32
      let s := (s.putF (F.MOV_AX_STATUS_HOMED a) 0).putR (R.MOV_AX_REMAIN a) r
      let s := (s.updAx a fun y => { y with stall := 0, boost := 0 }).raise Ev.MOV_STALL a
      ((s.axRest a 4).axReport a)
    else s)

/-- STANDSTILL_MODE (R325): STILL_T ticks at standstill with no command. -/
def execStandstillMode (a : Fin 20) (s : State) : Res :=
  .next (
    let x := s.ax a
    if s.axOn a ∧ s.axState a = 0 ∧ x.cmd = none ∧ x.queued = none
        ∧ x.restAt + s.getF (F.MOV_AX_CFG_STILL_T a) ≤ s.tick then s.putF (F.MOV_AX_STATUS_STILL_ON a) 1
    else s)

/-- The register of a limit: VMAX, AMAX, DMAX, JMAX, DSTOP. -/
def limReg (a : Nat) (k : Nat) : Nat :=
  match k with
  | 0 => R.MOV_AX_VMAX a
  | 1 => R.MOV_AX_AMAX a
  | 2 => R.MOV_AX_DMAX a
  | 3 => R.MOV_AX_JMAX a
  | _ => R.MOV_AX_DSTOP a

/-- May this value be written to limit `k` (R316)? -/
def limOk (k : Nat) (w : F32) : Bool :=
  if k = 3 then F32.le (F32.zero false) w else F32.lt (F32.zero false) w

/-- A write of a limit; DSTOP goes to the staging bank (R34). -/
def State.limWrite (s : State) (a k : Nat) (w : Word) : State :=
  if limOk k w then (if k = 4 then s.stWrite (limReg a k) w else s.putR (limReg a k) w)
  else s.raise Ev.MOV_BAD_LIMIT a

/-- LIMIT_WRITE (R316). -/
def execLimitWrite (_port : Port) (a : Fin 20) (k : Fin 5) (w : Word) (s : State) : Res := .next (s.limWrite a k w)

/-! ## Jam windows (R330–R332) -/

/-- A write of MOV_JW_CTRL; ARM and DISARM together are discarded. (DEDUCED: log 19) -/
def State.jamCtrl (s : State) (j : Fin 32) (w : Word) : State :=
  let arm := w.getLsbD 0
  let dis := w.getLsbD 1
  if arm && !dis then
    let o := s.getF (F.MOV_JW_TIME_OPEN j)
    let c := s.getF (F.MOV_JW_TIME_CLOSE j)
    if c ≤ o then s.raise Ev.MOV_BAD_WINDOW j
    else
      let t := s.tick * 4000
      let x : JamWin := {
        sn := s.getF (F.MOV_JW_CFG_SN j), edge := s.getF (F.MOV_JW_CFG_EDGE j),
        mask := s.getF (F.MOV_JW_CFG_MASK j),
        sheet := (s.getR (R.MOV_JW_SHEET j)), opens := t + 4000 * o, closes := t + 4000 * c }
      let s := { s with jam := s.jam.set j x }
      s.putF (F.MOV_JW_STATUS j) 1
  else if dis && !arm then (if s.getF (F.MOV_JW_STATUS j) = 1 then s.putF (F.MOV_JW_STATUS j) 0 else s)
  else s

/-- JW_ARM (R330). -/
def execJwArm (_port : Port) (j : Fin 32) (w : Word) (s : State) : Res := .next (if w.getLsbD 0 then s.jamCtrl j w else s)

/-- JW_DISARM (R330). -/
def execJwDisarm (_port : Port) (j : Fin 32) (w : Word) (s : State) : Res := .next (if w.getLsbD 1 then s.jamCtrl j w else s)

/-- A window ends EARLY (3) or EXPIRED (4) (R331). -/
def State.jamMiss (s : State) (j : Fin 32) (out : Nat) : State :=
  let x := s.jam[j]
  let s := (s.putF (F.MOV_JW_STATUS j) out).fire 0x06 x.sn
  let s := s.raise Ev.MOV_JAM_WINDOW j x.sheet (BitVec.ofNat 32 (x.sn + 256 * out))
  (s.latchBits R.MOV_JAM_GATE (BitVec.ofNat 32 x.mask)).gateFollow

/-- JAM_WINDOW_EXPIRED (R331): close + FILT has passed. -/
def execJamWindowExpired (j : Fin 32) (s : State) : Res :=
  .next (
    let x := s.jam[j]
    if s.getF (F.MOV_JW_STATUS j) = 1 ∧ x.closes + 200 * s.getF (F.SNS_CFG_FILT x.sn) < s.tsc.toNat then s.jamMiss j 4 else s)

/-- Armed windows that an edge can meet, earliest open time first: of equal open times the lower number. -/
def State.jamFirst (s : State) (n : Nat) (rising : Bool) (ts : Nat) : Option (Fin 32) :=
  let meets := fun (j : Fin 32) =>
    let x := s.jam[j]
    s.getF (F.MOV_JW_STATUS j) == 1 && x.sn == n && bit x.edge (if rising then 0 else 1) && Nat.ble ts x.closes
  (List.finRange 32).foldl (fun b j =>
    if meets j then (match b with
      | some k => if (s.jam[j]).opens < (s.jam[k]).opens then some j else b
      | none => some j) else b) none

/-- Offer an edge to the armed windows (R331). -/
def State.jamEdge (s : State) (n : Nat) (rising : Bool) (ts : Nat) : State :=
  match s.jamFirst n rising ts with
  | some j =>
    if ts < (s.jam[j]).opens then s.jamMiss j 3 else (s.putF (F.MOV_JW_STATUS j) 2).putP (R.MOV_JW_TS_LO j) ts
  | none => s

/-! ## Sensor pins and probes (R270, R271) -/

/-- SENSOR_EDGE (R271): a pin has held its new level for FILT µs. -/
def execSensorEdge (n : Fin 64) (rising : Bool) (s : State) : Res :=
  .next (
    if s.getF (F.SNS_CFG_DIR n) = 0 ∧ s.pin n ≠ rising then
      let ts := s.tsc.toNat - 200 * s.getF (F.SNS_CFG_FILT n)
      let s := ((s.putB (F.SNS_STATE_LEVEL n) rising).putB (F.SNS_STATE_RAW n) rising).putB (F.SNS_STATE_POL n) rising
      let s := s.putP (R.SNS_TS_LO n) ts
      let s := if s.bitF (F.SNS_CFG_EDGE n) (if rising then 0 else 1) then s.fire 0x03 n else s
      let s := s.jamEdge n rising ts
      let s := s.each (List.finRange 20) fun b a =>
        let b := b.limPins a
        if b.axOn a then
          let b := if b.getF (F.MOV_HOME_CFG_PIN a) = n.val then b.homeEdge a (rising == b.flag (F.MOV_HOME_CFG_LEVEL a)) ts else b
          let b := b.limTrip a
          if isSd a && b.axCause a && b.axState a != 6 then b.axFault a else b
        else b
      let s := s.each (List.finRange 6) fun b p => if rising ∧ b.getF (F.EXP_POLY_CFG_INDEX p) = n.val then b.indexMark p else b
      s.gateFollow
    else s)

/-- PROBE_LATCH (R270): a qualified edge of a probe pin. -/
def execProbeLatch (p : Fin 8) (rising : Bool) (s : State) : Res :=
  .next (
    if s.flag (F.SNS_PRB_CFG_EN p) ∧ s.bitF (F.SNS_PRB_CFG_EDGE p) (if rising then 0 else 1) then
      let src := s.getF (F.SNS_PRB_CFG_SRC p)
      let pos : Option Word :=
        if src < 12 then some (s.pos src)
        else if src < 18 then none
        else some ((s.ax (Fin.ofNat 20 (src - 6))).stepsAt s.tsc.toNat)
      if (s.probes[p]).length < 4 then
        let e : Latch := { src := src, tsc := s.tsc.toNat, pos := pos }
        let s := { s with probes := s.probes.set p ((s.probes[p]) ++ [e]) }.probeFollow p
        if pos.isSome then s.fire 0x02 p else s
      else s.latchF (F.SNS_PRB_STATUS_OVF p)
    else s)

end Sys2Proof.Machine
end

