-- ==== Sys2Proof/Machine/Sequencer.lean ====
section
/-! DEFINITION. Machine/Sequencer.lean: the sequencer's own events and the host's acts on it (chapter 3). -/

namespace Sys2Proof.Machine

/-- BUDGET_RELOAD (R51, R57, R62, R69): at cycle 200 budgets are reloaded, pre-empted threads become eligible, due
restarts take effect and TICK becomes pending. (DESIGN CHOICE: log 5) -/
def execBudgetReload (s : State) : Res :=
  .next (if s.cycle ≤ 200 then (s.setTsc (s.tsc + BitVec.ofNat 64 (200 - s.cycle))).budgetReload else s)

/-- OVERRUN (R52, R53): an eligible thread that cannot issue within its budget, or is still eligible at cycle 3,800, is
pre-empted and charged, or halted at its third consecutive overrun. -/
def execOverrun (t : Fin 16) (s : State) : Res :=
  .next (
    let h := s.thr t
    if h.st = .eligible ∧ h.ovrThisTick = false ∧ h.readyAt ≤ s.tsc.toNat
        ∧ (3800 ≤ s.cycle ∨ (200 ≤ s.cycle ∧ h.owed = 0 ∧ h.budget < s.costOf (s.nextInstr t))) then s.overrunThr t
    else s)

/-- FAULT_HANDOVER (R55): in cycles 0–199 of the tick after a fault, the sheets pass to the fault thread. (DEDUCED: log 14) -/
def execFaultHandover (t : Fin 16) (s : State) : Res :=
  .next (
    match (s.thr t).handover with
    | some k =>
      if k ≤ s.tick ∧ s.cycle < 200 then
        let ft : Fin 16 := Fin.ofNat 16 s.faultThread
        let mine := s.led.sheets.filter fun sh => sh.place.inPath && sh.owner == t && !sh.handoff
        let s := s.each mine fun a sh => a.journal (.own sh.id ft)
        let s := s.setThr t { s.thr t with handover := none }
        s.latchBits F.SEQ_FAULT_SRC_SRC.off (ones (F.SEQ_FAULT_SRC_SRC.lo + t) 1)
      else s
    | none => s)

/-- THREAD_RESTART (R57): a write of SEQ_THR_RESTART. -/
def execThreadRestart (port : Port) (w : Word) (s : State) : Res :=
  .next (
    let n : Fin 16 := Fin.ofNat 16 (bits w 0 4)
    let h := s.thr n
    let go := fun (_ : Unit) => if h.st = .halted ∧ h.fault ≠ 0 then s.setThr n { h with restart := some (s.tick + 1) } else s
    match port with
    | .host => if s.dbgOpen then go () else s.refuse R.SEQ_THR_RESTART
    | .thread t => if t.val = s.faultThread then go () else s.faultThr t 0x5)

/-- WAIT_WAKE (R62, R63): the condition of a waiting thread holds. -/
def execWaitWake (t : Fin 16) (s : State) : Res := .next (s.wake t)

/-- TIME_DEADLINE (R62, R89): TSC has reached a thread's armed deadline. (DEDUCED: log 66) -/
def execTimeDeadline (t : Fin 16) (s : State) : Res :=
  .next (if (s.pendOf t).getLsbD 50 then s.wake t else s)

/-- PMEM_HOST_WRITE (R58, R60): a write of the bytes `data` at a byte address of the program-memory window. -/
def execPmemHostWrite (addr : Nat) (data : List Byte) (s : State) : Res :=
  .next (s.pmemWrite (bytesAt (addr % 0x40000) data))

/-- DMEM_HOST_WRITE (R59, R60): a write of the bytes `data` at a byte address of the data-memory window. -/
def execDmemHostWrite (addr : Nat) (data : List Byte) (s : State) : Res :=
  .next (s.dmemHostWrite (bytesAt (addr % 0x20000) data))

/-- HOST_MEM_ACCESS (R60): in the reserved cycles the waiting host accesses are served, up to 400 dwords per tick. -/
def execHostMemAccess (s : State) : Res := .next (if s.reserved then serveMem s.seq.waiting s else s)

/-- MBI_RELEASE (R66): a write of 1 to SEQ_MBI_STATUS[m].FULL. -/
def execMbiRelease (_port : Port) (m : Fin 8) (w : Word) (s : State) : Res :=
  .next (if w.getLsbD 0 then s.clearF (F.SEQ_MBI_STATUS_FULL m) else s)

/-- SEQ_MBO_POST (R67). A dword count outside the stated 1–16 is recorded as it is written. (DEDUCED: log 67) -/
def execSeqMboPost (_port : Port) (m : Fin 8) (w : Word) (s : State) : Res := .next (s.postMbo m (bits w 0 5))

/-- MBO_RELEASE (R67): writes of 1 to FULL and OVR of SEQ_MBO_STATUS[m]. -/
def execMboRelease (_port : Port) (m : Fin 8) (w : Word) (s : State) : Res :=
  .next (
    let s := if w.getLsbD 0 then s.clearF (F.SEQ_MBO_STATUS_FULL m) else s
    if w.getLsbD 1 then s.clearF (F.SEQ_MBO_STATUS_OVR m) else s)

/-- A host write of SEQ_DBG is carried out only while the debug port is unlocked (R71). -/
def State.dbgWrite (s : State) (t : Fin 16) (f : Thread → Thread) : State :=
  if s.dbgOpen then
    let s := s.putF F.SEQ_DBG_THREAD t
    s.setThr t (f (s.thr t))
  else s.refuse R.SEQ_DBG

/-- DBG_HALT (R71). -/
def execDbgHalt (t : Fin 16) (s : State) : Res :=
  .next (s.dbgWrite t fun h =>
    if h.st = .disabled ∨ h.st = .halted ∨ h.st = .debugHalted then h
    else { h with st := .debugHalted, back := h.run, susp := h.st == .suspended, step := false })

/-- DBG_STEP (R71): one instruction in the next cycle in which the thread would be eligible. -/
def execDbgStep (t : Fin 16) (s : State) : Res :=
  .next (s.dbgWrite t fun h => if h.st = .debugHalted then { h with step := true } else h)

/-- DBG_RESUME (R71). -/
def execDbgResume (t : Fin 16) (s : State) : Res :=
  .next (s.dbgWrite t Thread.resume)

/-- UNDEFINED_ENCODING (R54, R75): the thread fetches a word of program memory with the check outcome `ecc`. An uncorrectable
error faults it with PMEM_ECC; an undefined encoding faults it with ILLEGAL; a corrected error is counted, and the thread goes
on with the corrected word, which faults it where that word is undefined. (DESIGN CHOICE: log 8; PRESUMED: log 11) -/
def execUndefinedEncoding (t : Fin 16) (ecc : Ecc) (s : State) : Res :=
  .next (
    match ecc with
    | .clean => s.performFault t 1 0x1
    | .uncorrectable => s.performFault t 1 0x8
    | .corrected =>
      if s.canIssue t 1 then
        let s := s.incR R.SEQ_ECC_CORR 1
        if (s.nextInstr t).isSome then s else s.performFault t 1 0x1
      else s)

end Sys2Proof.Machine
end

