-- ==== Sys2Proof/Machine/OpsBus.lean ====
section
/-! DEFINITION. Machine/OpsBus.lean: reads and writes of BAR0 by the host and by threads (R4–R11, R34, R61, R86–R88). A
write to a register whose act has a command of its own does what that command does. -/

namespace Sys2Proof.Machine

/-- The next state of an answer. -/
def State.take (s : State) (r : Res) : State := match r with
  | .next t => t
  | _ => s

/-- The dword that an address lies in, within BAR0 (R9, R85). -/
def dwordOf (addr : Nat) : Nat := addr % 0x1000000 / 4 * 4

def isMapped (off : Nat) : Bool := (windowAt off).isSome || (findReg off).isSome

/-- An access to an unmapped offset (R10). -/
def State.unmapped (s : State) (off : Nat) : State := s.raise Ev.DEV_UNMAPPED 0 (BitVec.ofNat 32 off)

/-! ## 64-bit pairs (R7) -/

/-- Offset of the first pair, stride and number of the pairs that follow R7, at their low words. -/
def pairs : List (Nat × Nat × Nat) :=
  [(R.DEV_TICK_LO, 8, 2), (R.VIN_APPLY_TICK_LO, 16, 2), (R.HIF_RING_BASE_LO 0, 0x20, 4), (R.RCK_CH_FAIL_LO 0, 0x40, 16),
   (R.MEM_ECC_ADDR_LO, 8, 2), (R.DEC_DOTS_LOST_LO 0, 0x400, 6), (R.EXP_SWEEP_TS_LO 0, 0x100, 6), (R.EXP_BD_TS_LO 0, 0x100, 6),
   (R.EXL_DOTS_DARK_LO 0, 0x200, 6)]
  ++ [(R.DEC_DOTS_LO 0 0, 8, 16), (R.DEC_DOTS_LO 1 0, 8, 16), (R.DEC_DOTS_LO 2 0, 8, 16), (R.DEC_DOTS_LO 3 0, 8, 16),
   (R.DEC_DOTS_LO 4 0, 8, 16), (R.DEC_DOTS_LO 5 0, 8, 16)]
  ++ [(R.FBK_CMP_TS_LO 0, 0x20, 16), (R.SNS_TS_LO 0, 0x10, 64), (R.SNS_PRB_TS_LO 0, 0x20, 8), (R.MOV_JW_TS_LO 0, 0x20, 32),
   (R.CLE_CAP_XFER_LO, 8, 1), (R.LDG_CNT_LO 0, 8, 5), (R.LDG_METER 0, 8, 388), (R.SEC_MONO_LO 0, 8, 3),
   (R.SEC_CON_SERIAL_LO 0, 0x40, 4), (R.EVT_SERIAL_LO, 8, 1), (R.EVT_DROP_LO 0, 8, 5), (R.CHN_TICK_OFS_LO, 8, 1)]

def isPairLow (off : Nat) : Bool := pairs.any fun x => (arrIdx off x.1 x.2.1 x.2.2).isSome

def isPairHigh (off : Nat) : Bool := Nat.ble 4 off && isPairLow (off - 4)

/-- The high words that wait for a reader's next read of them (R87). (DEDUCED: log 16) -/
def State.shadows (s : State) (p : Port) : List (Nat × Word) := match p with
  | .host => s.shadow
  | .thread t => (s.thr t).shadow

def State.setShadows (s : State) (p : Port) (l : List (Nat × Word)) : State := match p with
  | .host => { s with shadow := l }
  | .thread t => s.setThr t { s.thr t with shadow := l }

/-- A read of the low word at `off` copies the high word. (DEDUCED: log 16) -/
def State.copyHigh (s : State) (p : Port) (off : Nat) : State :=
  s.setShadows p ((off + 4, s.readReg (off + 4)) :: (s.shadows p).filter fun x => x.1 != off + 4)

/-- What a read of the high word at `off` returns: the copy, or the present value where none waits. (DEDUCED: log 16) -/
def State.highValue (s : State) (p : Port) (off : Nat) : Word := match (s.shadows p).find? fun x => x.1 == off with
  | some x => x.2
  | none => s.readReg off

/-- That read uses the copy up. (DEDUCED: log 16) -/
def State.takeHigh (s : State) (p : Port) (off : Nat) : State := s.setShadows p ((s.shadows p).filter fun x => x.1 != off)

/-! ## Reads (R5, R6, R7, R10, R86, R87) -/

/-- The dword of a memory window (little-endian, R2). -/
def State.windowWord (s : State) (w : Window) (o : Nat) : Word :=
  let m := match w with
    | .coef => s.mem.coef
    | .expo => s.mem.expo
    | .capture => s.mem.capture
    | .pmem => s.mem.pmem
    | .dmem => s.mem.dmem
  let held := BitVec.ofNat 32 (rdLe m o 4)
  match w, s.cle.cap.former with
  | .capture, some (t, pos, old) => if t = s.tsc.toNat ∧ o / 16 = pos then BitVec.ofNat 32 (old / 256 ^ (o % 16)) else held
  | _, _ => held

/-- The bits of a register that a read clears. -/
def rcMask (off : Nat) : Word := match findReg off with
  | some r => BitVec.ofNat 32 r.rc
  | none => 0#32

/-- What a read of the dword at `off` returns. RC bits of a Core-die register read as they stood when the cycle began (R6); a
Drive-die register reads from the upward frame (R86). -/
def State.busValue (s : State) (p : Port) (off : Nat) : Word :=
  match windowAt off with
  | some (w, o) => s.windowWord w o
  | none =>
    if (findReg off).isNone then 0#32
    else if off = R.SEC_RNG then (if s.rngFail then 0#32 else s.fresh 32)
    else if isPairHigh off then s.highValue p off
    else if rcMask off ≠ 0#32 ∧ isDrive off = false then (s.readReg off &&& ~~~rcMask off) ||| (s.startR off &&& rcMask off)
    else s.readReg off

/-- Take off a count what a read returned of it; counts made since stay (R6). (DEDUCED: log 32) -/
def lessRead (now old : Word) : Word := if old ≤ now then now - old else now

/-- Clear the RC bits `m` that a read requested. What hardware has counted in this cycle stays (R6); of a Drive-die counter
that the frame's image returned, the counts made since the image was latched stay. (DEDUCED: log 32) -/
def State.clearRc (s : State) (off : Nat) (m : Word) : State :=
  if m = 0#32 then s
  else if isDrive off then
    let old := SMap.get resetWord s.up off &&& m
    let cut := fun (x : SMap Word) => SMap.set resetWord x off (lessRead (SMap.get resetWord x off) old)
    { s with regs := cut s.regs, up := cut s.up, brg := { s.brg with latched := cut s.brg.latched } }
  else ((s.putR off (lessRead (s.getR off) (s.startR off &&& m) + s.lostR off)).putStart off (s.startR off &&& ~~~m)).putLost off 0#32

/-- The bits of the dword at `off` whose bytes an access at `addr` with byte enables `en` requests (R4). -/
def laneMask (addr : Nat) (en : BitVec 4) (off : Nat) : Word :=
  (List.range 4).foldl (fun m i => if en.getLsbD i && (addr + i) / 4 * 4 == off then m ||| ones (8 * ((addr + i) % 4)) 8 else m) 0#32

/-- What a read of the register dword at `off` does beside returning its value: side effects reach the requested bits `m`
only. (DEDUCED: log 32, 34) -/
def State.busRead (s : State) (p : Port) (off : Nat) (m : Word) : State :=
  if (windowAt off).isSome then s
  else if (findReg off).isNone then s.unmapped off
  else if off = R.SEC_RNG then (if s.rngFail then s else s.drew)
  else if isPairLow off then s.copyHigh p off
  else if isPairHigh off then s.takeHigh p off
  else s.clearRc off (rcMask off &&& m)

/-- The dwords that the enabled bytes of an access touch, in ascending order. -/
def touched (addr : Nat) (en : BitVec 4) : List Nat :=
  (((List.range 4).filter fun i => en.getLsbD i).map fun i => (addr + i) / 4 * 4).eraseDups

/-- The bytes of a dword. -/
def wordBytes (w : Word) : List Byte := (List.range 4).map (Word.byte w)

/-- One dword of a host read: the whole dword of an aligned access, the requested bytes of a misaligned one, and the
requested bytes of a memory window, go to the host; a dword of sequencer memory waits for the reserved cycles (R4, R60). -/
def State.hostRead (s : State) (addr : Nat) (en : BitVec 4) (off : Nat) : State :=
  let lanes := ((List.range 4).filter fun i => en.getLsbD i && (addr + i) / 4 * 4 == off).map fun i => addr + i
  let bytes := wordBytes (s.busValue .host off)
  match windowAt off with
  | some (.pmem, o) => s.hostMem { prog := true, read := lanes.map fun a => o + a % 4 }
  | some (.dmem, o) => s.hostMem { prog := false, read := lanes.map fun a => o + a % 4 }
  | w =>
    let out := if w = none ∧ addr % 4 = 0 then bytes else lanes.map fun a => bytes.getD (a % 4) 0#8
    { s with host := { s.host with readData := s.host.readData ++ out } }.busRead .host off (laneMask addr en off)

/-- A read of up to four bytes at an address (R4): each dword it touches is read by itself, in ascending order. -/
def State.busReads (s : State) (p : Port) (addr : Nat) (en : BitVec 4) : State :=
  let a := addr % 0x1000000
  match p with
  | .host => { s with host := { s.host with readData := [] } }.each (touched a en) fun b o => b.hostRead a en o
  | .thread _ => s.each (touched a en) fun b o => b.busRead p o (laneMask a en o)

/-! ## Writes -/

/-- The generic write of Table 0-4: ST bits go to the staging bank, RW bits are set, W1C and W1S bits act, the rest is
ignored. A WO register without an act of its own holds what is written. (DESIGN CHOICE: log 17) -/
def State.plainWrite (s : State) (off : Nat) (w : Word) : State :=
  match findReg off with
  | none => s.unmapped off
  | some r =>
    let s := if r.st = 0 then s else s.stWrite off w
    let keep := BitVec.ofNat 32 (r.rw ||| r.wo)
    let s := s.putR off ((s.getR off &&& ~~~keep) ||| (w &&& keep) ||| (w &&& BitVec.ofNat 32 r.w1s))
    let c := w &&& BitVec.ofNat 32 r.w1c
    if c = 0#32 then s else s.clearBits off c

/-- A Drive-die register: ST bits go to the staging bank; the rest travels in the downward frame (R20). -/
def State.driveBusWrite (s : State) (off : Nat) (w : Word) : State :=
  match findReg off with
  | none => s.unmapped off
  | some r =>
    let s := if r.st = 0 then s else s.stWrite off w
    if r.rw ||| r.wo ||| r.w1c = 0 then s else s.dnWrite off w

/-- SEQ_DBG (R71). -/
def State.dbgOp (s : State) (w : Word) : State :=
  let t : Fin 16 := Fin.ofNat 16 (bits w 0 4)
  match bits w 4 2 with
  | 1 => s.take (execDbgHalt t s)
  | 2 => s.take (execDbgStep t s)
  | 3 => s.take (execDbgResume t s)
  | _ => s.dbgWrite t fun h => h

/-- SEQ block. -/
def State.writeSeq (s : State) (p : Port) (off : Nat) (w : Word) : State :=
  if off = R.SEQ_THR_RESTART then s.take (execThreadRestart p w s)
  else if off = R.SEQ_DBG then s.dbgOp w
  else match elem 8 R.SEQ_MBI_STATUS off with
    | some m => s.take (execMbiRelease p (Fin.ofNat 8 m) w s)
    | none => match elem 8 R.SEQ_MBO_STATUS off with
      | some m => s.take (execMboRelease p (Fin.ofNat 8 m) w s)
      | none => match elem 8 R.SEQ_MBO_POST off with
        | some m => s.take (execSeqMboPost p (Fin.ofNat 8 m) w s)
        | none =>
          if (List.range 8).any fun m => s.flag (F.SEQ_MBO_STATUS_FULL m) && (List.range 16).any fun i => off == R.SEQ_MBO_DATA m i then s
          else s.plainWrite off w

/-- HIF block. -/
def State.writeHif (s : State) (off : Nat) (w : Word) : State :=
  if off = R.HIF_CTRL then s.hifCtrl w
  else match elem 4 R.HIF_RING_BASE_LO off with
    | some r => s.ringBase r false w
    | none => match elem 4 R.HIF_RING_BASE_HI off with
      | some r => s.ringBase r true w
      | none => match elem 4 R.HIF_RING_SIZE off with
        | some r => s.ringSize r w
        | none => match elem 4 R.HIF_RING_DB off with
          | some 2 => s.take (execCqDoorbell w s)
          | some 3 => s.take (execEvrDoorbell w s)
          | some q => s.take (execSqDoorbell (Fin.ofNat 2 q) w s)
          | none => s.plainWrite off w

/-- EXL block. -/
def State.writeExl (s : State) (p : Port) (off : Nat) (w : Word) : State :=
  match elem 6 R.EXL_CTRL off with
  | some i =>
    let i : Fin 6 := Fin.ofNat 6 i
    if w.getLsbD 1 then (if w.getLsbD 2 then s.take (execRetrainForce p i w s) else s.take (execRetrain p i w s))
    else (s.putB (F.EXL_CTRL_LEN_EN i) (w.getLsbD 0)).lenFollow i
  | none => match elem 6 R.EXL_HACC off with
    | some i => s.take (execHeadAccess p (Fin.ofNat 6 i) w s)
    | none => match elem 6 R.EXL_STATUS off with
      | some i => if w.getLsbD 10 then s.take (execLenMismatchClear p (Fin.ofNat 6 i) s) else s
      | none => s.plainWrite off w

/-- CLE block. -/
def State.writeCle (s : State) (off : Nat) (w : Word) : State :=
  if off = R.CLE_CAP_CTRL then s.capCtrl w
  else if off = R.CLE_CAP_XFER_CTRL then s.capXfer w
  else if off = R.CLE_CAP_XFER_LO then (if bits w 0 4 ≠ 0 then s.refuse off else s.pairLow off w)
  else if off = R.CLE_CAP_XFER_HI then s.pairHigh R.CLE_CAP_XFER_LO w
  else match elem 2 R.CLE_INJ_CTRL off with
    | some g => s.injCtrl (Fin.ofNat 2 g) w
    | none => match elem 256 R.CLE_SLOT_CTRL off with
      | some n => s.slotCtrl (Fin.ofNat 256 n) w
      | none => s.plainWrite off w

/-- MOV block. -/
def State.writeMov (s : State) (off : Nat) (w : Word) : State :=
  match elem 20 R.MOV_AX_CMD off with
  | some a => s.axWrite (Fin.ofNat 20 a) w
  | none => match elem 32 R.MOV_JW_CTRL off with
    | some j => s.jamCtrl (Fin.ofNat 32 j) w
    | none => match elem 100 (fun k => limReg (k / 5) (k % 5)) off with
      | some k => s.limWrite (Fin.ofNat 20 (k / 5)) (k % 5) w
      | none => s.plainWrite off w

/-- FBK and SNS blocks. -/
def State.writeFbk (s : State) (p : Port) (off : Nat) (w : Word) : State :=
  match elem 18 R.FBK_POS off with
  | some c => s.take (execPositionWrite p (Fin.ofNat 18 c) w s)
  | none => match elem 18 R.FBK_IDX_CTRL off with
    | some c => s.take (execIndexRearm p (Fin.ofNat 18 c) w s)
    | none => match elem 8 R.SNS_PRB_POP off with
      | some k => s.take (execProbePop p (Fin.ofNat 8 k) w s)
      | none => match elem 16 R.FBK_CMP_CFG off with
        | some u => s.cmpWrite u w
        | none => s.plainWrite off w

/-- SEC block. The verification of a fuse by reading it back is a free value. -/
def State.writeSec (s : State) (off : Nat) (w : Word) : State :=
  if off = R.SEC_PROV then s.drew.secProv (bits w 0 2) (Fin.ofNat 4 (bits w 4 2)) (bits w 16 16) (s.fresh 1 == 1#1)
  else if off = R.SEC_ROOT_REVOKE then s.rootRevoke w
  else if off = R.SEC_DBG_CTRL then s.dbgCtrl w
  else match elem 4 R.SEC_CON_CTRL off with
    | some k => if w.getLsbD 0 then s.conStart (Fin.ofNat 4 k) else s
    | none => s.plainWrite off w

/-- CHN block. -/
def State.writeChn (s : State) (off : Nat) (w : Word) : State :=
  if off = R.CHN_STOP then (if w.getLsbD 0 then s.stopSend else s)
  else if off = R.CHN_MSG_POST then (if w.getLsbD 8 then s.userPost (w.extractLsb' 0 4) else s)
  else match elem 2 R.CHN_MSG_RX_STAT off with
    | some k =>
      let s := if w.getLsbD 8 then s.clearF (F.CHN_MSG_RX_STAT_OVF k) else s
      if w.getLsbD 16 then s.userPop (Fin.ofNat 2 k) else s
    | none => s.plainWrite off w

/-- LDG block. -/
def State.writeLdg (s : State) (off : Nat) (w : Word) : State :=
  if off = R.LDG_RINSE then s.rinseWrite w else if off = R.LDG_SPOIL then s.spoilWrite w else s.plainWrite off w

/-- A write of a whole aligned dword of a register block. (DEDUCED: log 34) -/
def State.regWrite (s : State) (p : Port) (off : Nat) (w : Word) : State :=
  match off / 0x10000 with
  | 0x00 => if off = R.DEV_RESET then s.take (execDevReset w s) else s.plainWrite off w
  | 0x02 => s.writeSeq p off w
  | 0x03 => s.writeHif off w
  | 0x04 => (match elem 16 R.RCK_CH_CTRL off with
    | some c => s.chCtrl c w
    | none => s.plainWrite off w)
  | 0x08 => (match elem 6 R.EXP_STATUS off with
    | some i => if w.getLsbD 7 then s.take (execOverspeedClear p (Fin.ofNat 6 i) s) else s
    | none => s.plainWrite off w)
  | 0x09 => s.writeExl p off w
  | 0x0A => s.writeCle off w
  | 0x0B => (match elem 12 R.MOT_CTRL off with
    | some n => s.motCtrl (Fin.ofNat 12 n) w
    | none => s.plainWrite off w)
  | 0x0C => s.writeMov off w
  | 0x0D => s.writeFbk p off w
  | 0x0E => s.driveBusWrite off w
  | 0x0F => s.driveBusWrite off w
  | 0x10 => s.driveBusWrite off w
  | 0x11 => if isDrive off then s.driveBusWrite off w else s.plainWrite off w
  | 0x12 => s.driveBusWrite off w
  | 0x13 => s.writeLdg off w
  | 0x14 => s.writeSec off w
  | 0x16 => s.writeChn off w
  | 0x18 => s.writeFbk p off w
  | _ => s.plainWrite off w

/-- Write bytes of a memory window, each with its address inside the window, as one access. (DEDUCED: log 18) -/
def State.windowWrite (s : State) (w : Window) (l : List (Nat × Byte)) : State :=
  let put := fun (m : List Host.Cell) => putBytes m (l.map fun x => (x.1, x.2 &&& windowMask w x.1))
  match w with
  | .coef => { s with mem := { s.mem with coef := put s.mem.coef } }
  | .expo => { s with mem := { s.mem with expo := put s.mem.expo } }
  | .capture => { s with mem := { s.mem with capture := put s.mem.capture } }
  | .pmem => s.pmemWrite l
  | .dmem => s.dmemHostWrite l

/-- The enabled bytes of an access that lie in memory windows: the window, the address inside it and the byte. -/
def windowLanes (addr : Nat) (en : BitVec 4) (w : Word) : List (Window × Nat × Byte) :=
  ((List.range 4).filter fun i => en.getLsbD i).filterMap fun i => (windowAt (addr + i)).map fun x => (x.1, x.2, Word.byte w i)

/-- A write of up to four bytes at an address (R4, R10): the bytes in a memory window land as one access, a whole aligned
dword of a register block is written, another write to a register is discarded, and a dword at an unmapped offset is
recorded. (DEDUCED: log 34) -/
def State.busWrite (s : State) (p : Port) (addr : Nat) (en : BitVec 4) (w : Word) : State :=
  let a := addr % 0x1000000
  let l := windowLanes a en w
  let s := match l with
    | [] => s
    | (v, _) :: _ => s.windowWrite v (l.map Prod.snd)
  s.each (touched a en) fun b o =>
    if (windowAt o).isSome then b
    else if (findReg o).isNone then b.unmapped o
    else if a % 4 = 0 ∧ en = 0xF#4 then b.regWrite p o w
    else b

end Sys2Proof.Machine
end

