-- ==== Sys2Proof/Machine/Bus.lean ====
section
/-! DEFINITION. Machine/Bus.lean: register accesses (chapter 0): writes, reads that clear, 64-bit pairs, unmapped offsets,
and the port instructions IN and OUT (R85–R88). -/

namespace Sys2Proof.Machine

/-- REGISTER_WRITE (R4, R5, R10, R20, R34, R61, R88). -/
def execRegisterWrite (port : Port) (addr : Nat) (en : BitVec 4) (w : Word) (s : State) : Res :=
  .next (if s.portDenied port (dwordOf addr) true then s.denied port else s.busWrite port addr en w)

/-- UNMAPPED_ACCESS (R4, R10, R61, R424): each unmapped dword that the access touches is recorded; a host read returns 0. -/
def execUnmappedAccess (port : Port) (addr : Nat) (en : BitVec 4) (isWrite : Bool) (s : State) : Res :=
  .next (
    let l := (touched (addr % 0x1000000) en).filter fun o => !isMapped o
    if l.isEmpty then s
    else if s.portDenied port (dwordOf addr) isWrite then s.denied port
    else if isWrite then s.each l State.unmapped
    else s.busReads port addr en)

/-- READ_CLEAR (R4, R5, R6, R61). -/
def execReadClear (port : Port) (addr : Nat) (en : BitVec 4) (s : State) : Res :=
  .next (if s.portDenied port (dwordOf addr) false then s.denied port else s.busReads port addr en)

/-- PAIR_LOW_READ (R4, R7, R61, R87): a read that touches the low word of a pair. -/
def execPairLowRead (port : Port) (addr : Nat) (en : BitVec 4) (s : State) : Res :=
  .next (
    if s.portDenied port (dwordOf addr) false then s.denied port
    else if (touched (addr % 0x1000000) en).any isPairLow then s.busReads port addr en else s)

/-- PAIR_HIGH_WRITE (R7, R61): the pairs that software writes are HIF_RING_BASE[r] and CLE_CAP_XFER. -/
def execPairHighWrite (port : Port) (addr : Nat) (w : Word) (s : State) : Res :=
  .next (
    let off := dwordOf addr
    if s.portDenied port off true then s.denied port
    else if isPairHigh off then s.regWrite port off w else s)

/-- Port offset of IN and OUT (R85). -/
def portOffset (base : Word) (imm : BitVec 18) : Nat := dwordOf (base + sx18 imm).toNat

/-- IN (R85, R86, R87): rd ← port[offset]. -/
def execPortIn (t rd rs1 : Fin 16) (imm : BitVec 18) (s : State) : Res :=
  .next (
    let off := portOffset (s.rx t rs1) imm
    if s.portDenied (.thread t) off false then s.performFault t 4 0x5
    else s.perform t 4 fun a => (a.busRead (.thread t) off 0xFFFFFFFF#32).wx t rd (a.busValue (.thread t) off))

/-- OUT (R85, R86): port[offset] ← rs2. -/
def execPortOut (t rs1 rs2 : Fin 16) (imm : BitVec 18) (s : State) : Res :=
  .next (
    let off := portOffset (s.rx t rs1) imm
    if s.portDenied (.thread t) off true then s.performFault t 2 0x5
    else s.perform t 2 fun a => a.busWrite (.thread t) off 0xF#4 (s.rx t rs2))

end Sys2Proof.Machine
end

