-- ==== Sys2Proof/Machine/Chain.lean ====
section
/-! DEFINITION. Machine/Chain.lean: the commands of CoeneLink (chapter 22). -/

namespace Sys2Proof.Machine

/-- PORT_UP (R428, R441). -/
def execPortUp (p : Fin 2) (s : State) : Res := .next (s.portUp p)

/-- A head that receives any frame on its up port is in conflict (R431). -/
def State.conflictFollow (s : State) (p : Fin 2) : State :=
  if p = 0 ∧ s.flag F.CHN_STATUS_HEAD ∧ ¬s.flag F.CHN_STATUS_CONFLICT then
    (s.putF F.CHN_STATUS_CONFLICT 1).raise Ev.CHN_HEAD_CONFLICT
  else s

/-- CHN_FRAME (R429, R432, R433): a frame that is not correct is counted and discarded; a correct one updates delay and phase
and its messages are delivered or forwarded. A tick without a correct frame begins the 64 ticks of R433 anew. -/
def execChnFrame (p : Fin 2) (f : ChnFrame) (s : State) : Res :=
  .next (
    if !s.chnUp p then s
    else if !ChnFrame.ok f then (s.conflictFollow p).incR (R.CHN_CRC_ERR p) 1
    else
      let s := s.conflictFollow p
      let gap := p == 0 && Nat.blt ((s.cport p).lastGood + 1) s.tick
      let s := { s with chn := { s.chn with good := if gap then 0 else s.chn.good } }
      let s := (s.updPort p fun x => { x with lastGood := s.tick, above := ChnFrame.tick f }).putB (F.CHN_PORT_STATUS_NALIGNED p) (ChnFrame.aligned f)
      let s := if p = 1 then s.fromBelow f else if s.flag F.CHN_STATUS_HEAD then s else s.fromAbove f
      s.each (ChnFrame.msgs f) fun a m => a.chnMessage p m)

/-- ALIGN_DECLARED (R433): a small error for 64 ticks while the frame above carries ALIGNED. The frame gives 16 bits of the
head's tick number; `headTick` gives the others. (DESIGN CHOICE: log 60) -/
def execAlignDeclared (headTick : BitVec 64) (s : State) : Res :=
  .next (
    if Nat.ble 64 s.chn.good && s.flag (F.CHN_PORT_STATUS_NALIGNED 0) && !s.flag F.CHN_STATUS_ALIGNED && !s.flag F.CHN_STATUS_HEAD then
      let s := s.putF F.CHN_STATUS_ALIGNED 1
      let head := BitVec.ofNat 64 (headTick.toNat / 65536 * 65536 + (s.cport 0).above)
      (s.putP R.CHN_TICK_OFS_LO (head - BitVec.ofNat 64 s.tick).toNat).raise Ev.CHN_ALIGNED
    else s)

/-- PORT_DOWN_TIMEOUT (R441): 3 ticks without a correct frame. -/
def execPortDownTimeout (p : Fin 2) (s : State) : Res :=
  .next (if s.chnUp p ∧ (s.cport p).lastGood + 3 ≤ s.tick then s.portDown p else s)

/-- ENUM (R431): a neighbour offers an address. -/
def execEnum (p : Fin 2) (offered : BitVec 8) (s : State) : Res := .next (s.enumTake p offered.toNat)
/-- ENUM_END (R431): the number of units comes back. -/
def execEnumEnd (p : Fin 2) (units : BitVec 8) (s : State) : Res := .next (s.enumEndTake p units.toNat)

/-- OFFER (R434 step 2). -/
def execOffer (p : Fin 2) (_src : BitVec 4) (id : Word) (spoiled : Bool) (size colour : Fin 16) (tag1 tag2 : Word) (s : State) : Res :=
  .next (s.offerTake p id spoiled size colour tag1 tag2)

/-- ACCEPT (R434 step 3). -/
def execAccept (p : Fin 2) (_src : BitVec 4) (id : Word) (s : State) : Res := .next (s.acceptTake p id)

/-- REFUSE (R435). -/
def execRefuse (p : Fin 2) (_src : BitVec 4) (id : Word) (reason : BitVec 8) (s : State) : Res := .next (s.refuseTake p id reason.toNat)

/-- COMMIT (R434 step 4). -/
def execCommit (p : Fin 2) (_src : BitVec 4) (id : Word) (s : State) : Res := .next (s.commitTake p id)

/-- ABORT (R435). -/
def execAbort (p : Fin 2) (_src : BitVec 4) (id : Word) (s : State) : Res := .next (s.abortTake p id)

/-- RESOLVE (R437). -/
def execResolve (p : Fin 2) (_src : BitVec 4) (id : Word) (s : State) : Res := .next (s.resolveTake p id)

/-- ALARM (R439). -/
def execAlarm (p : Fin 2) (src : BitVec 4) (cause alarmPort : BitVec 8) (s : State) : Res :=
  .next (s.alarmTake p src cause.toNat alarmPort.toNat)

/-- USER (R430). -/
def execUser (p : Fin 2) (src : BitVec 4) (payload : Vector Word 3) (s : State) : Res := .next (s.userTake p src payload)

/-- HANDOVER_TIMEOUT (R435): no answer within HO_TO ticks of the OFFER. (DESIGN CHOICE: log 4) -/
def execHandoverTimeout (id : Word) (s : State) : Res :=
  .next (match s.chn.offers.find? fun o => o.id == id && !o.accepted && !o.heldAccept with
    | some o => if o.tick + s.getF F.CHN_CFG_HO_TO ≤ s.tick then s.offerAbort o else s
    | none => s)

/-- RESOLVE_TIMER (R437): a PENDING_IN record without an outcome for HO_TO ticks, while its port is up. -/
def execResolveTimer (id : Word) (s : State) : Res :=
  .next (match s.chn.pends.find? fun x => x.id == id && !x.held with
    | some x =>
      if x.tick + s.getF F.CHN_CFG_HO_TO ≤ s.tick ∧ s.chnUp x.port then
        let s := s.setPends (mapIf (fun y => y.id == id) (fun y => { y with resolving := true, tick := s.tick }) s.chn.pends)
        s.hoSend x.port 0x15#8 id
      else s
    | none => s)

/-- COORDINATED_STOP (R440). -/
def execCoordinatedStop (p : Fin 2) (src : BitVec 4) (s : State) : Res := .next (s.stopRecv p src)

/-- STOP_SEND (R440): a write of 1 to CHN_STOP.SEND. (DESIGN CHOICE: log 60) -/
def execStopSend (_port : Port) (s : State) : Res := .next s.stopSend

/-- USER_POST (R430): a write of CHN_MSG_POST with POST set. -/
def execUserPost (_port : Port) (dest : BitVec 4) (s : State) : Res := .next (s.userPost dest)

/-- USER_POP (R430): a write of CHN_MSG_RX_STAT[p] with POP set. -/
def execUserPop (_port : Port) (p : Fin 2) (s : State) : Res := .next (s.userPop p)

end Sys2Proof.Machine
end

