-- ==== Sys2Proof/Machine/Frames.lean ====
section
/-! DEFINITION. Machine/Frames.lean: the tick boundary, the frames and fault lines of the die bridge, and the interlocks
(chapter 1, R256). -/

namespace Sys2Proof.Machine

/-- TICK_BOUNDARY (R16, R18, R20, R267, R299, R352, R353): the next tick begins. `xcmd` are the half-bridges whose new
command would overlap their switches; `die` the readings of sensors 12 to 23. (DESIGN CHOICE: log 5; DEDUCED: log 29) -/
def execTickBoundary (xcmd : List (Fin 48)) (die : Vector (BitVec 16) 12) (s : State) : Res :=
  .next (if s.psq.core && s.psq.pll then ((s.nextTick).driveTick xcmd).coreTick die else s)

/-- UPWARD_FRAME (R22, R86, R263, R305, R361, R378, R434): the frame of this tick is complete and correct at cycle `cyc`, at
cycle 600 at the latest. `corrected`: a single-bit error was corrected. (DESIGN CHOICE: log 5) -/
def execUpwardFrame (cyc : Nat) (corrected : Bool) (ain : Vector Ain 64) (sc : Vector (Vector (Int × Int) 20) 6) (s : State) : Res :=
  .next (
    let t := max s.cycle cyc
    if s.psq.core && s.flag F.BRG_STATUS_UP && !s.brg.gotUp && Nat.ble t 600 then
      let s := s.issueAll.setTsc (s.tsc + BitVec.ofNat 64 (t - s.cycle))
      let s := { s with brg := { s.brg with missUp := 0, goodUp := s.brg.goodUp + 1 } }
      let s := (s.putF F.BRG_STATUS_MISS_UP 0).putB F.BRG_STATUS_LATE_UP (Nat.blt 300 t)
      let s := if corrected then s.incR R.BRG_CORR 1 else s
      let s := if 300 < t then s.incR R.BRG_LATE_UP 1 else s
      (s.frameIn ain sc).frameWake
    else s)

/-- UPWARD_FRAME_DEADLINE (R21, R24): at cycle 600 the frame has not come, or it is bad (`bad`). (DESIGN CHOICE: log 5) -/
def execUpwardFrameDeadline (bad : Bool) (s : State) : Res :=
  .next (
    if s.psq.core && s.flag F.BRG_STATUS_UP && !s.brg.gotUp && Nat.ble s.cycle 600 then
      let s := s.issueAll.setTsc (s.tsc + BitVec.ofNat 64 (600 - s.cycle))
      let n := s.brg.missUp + 1
      let s := { s with brg := { s.brg with gotUp := true, missUp := n, goodUp := 0 } }
      let s := ((s.putF F.BRG_STATUS_MISS_UP 1).putF F.BRG_STATUS_LATE_UP 0).incR R.BRG_MISS_UP 1
      let s := (s.raise Ev.BRG_FRAME_MISS 0 (if bad then 2#32 else 1#32)).frameWake
      if 2 ≤ n then s.coreBridgeLoss else s
    else s)

/-- DOWNWARD_FRAME (R16, R18, R20, R256, R376): the frame has closed at cycle 3,400 and is received by cycle 3,700. (DESIGN CHOICE: log 5) -/
def execDownwardFrame (corrected : Bool) (s : State) : Res :=
  .next (
    if s.psq.core && s.flag F.BRG_STATUS_UP && s.brg.received.isNone && Nat.ble s.cycle 3700 then
      let s := s.issueAll.setTsc (s.tsc + BitVec.ofNat 64 (3400 - s.cycle))
      let s := if corrected then s.incR R.BRG_CORR 1 else s
      s.frameOut
    else s)

/-- DOWNWARD_FRAME_MISSED (R21, R23): the Drive die has no frame for the next tick; the second in a row is bridge loss. What
the frame would have carried goes with the next one. -/
def execDownwardFrameMissed (bad : Bool) (s : State) : Res :=
  .next (
    if s.psq.core && s.flag F.BRG_STATUS_UP then
      let n := s.brg.missDn + 1
      let s := { s with brg := { s.brg with missDn := n, goodDn := 0, received := none } }
      let s := (s.incR R.BRG_MISS_DN 1).raise Ev.BRG_FRAME_MISS 1 (if bad then 2#32 else 1#32)
      if 2 ≤ n ∧ ¬s.flag F.BRG_STATUS_DRIVE_SAFE then s.driveSafe.raise Ev.BRIDGE_LOSS else s
    else s)

/-- SAFE_STATE_EXIT (R25): during an engine reset, after 8 correct frames in a row in each direction. (DEDUCED: log 30) -/
def execSafeStateExit (s : State) : Res :=
  .next (
    if s.flag F.BRG_STATUS_DRIVE_SAFE && s.devIs 5 && !s.brg.kill && Nat.ble 8 s.brg.goodUp && Nat.ble 8 s.brg.goodDn then
      ((s.putF F.BRG_STATUS_DRIVE_SAFE 0).linesFollow).lenDrive
    else s)

/-- KILL_DN_KILL (R23, Table 1-4): KILL_DN has been high for 60 ns. (DEDUCED: log 30) -/
def execKillDnKill (s : State) : Res :=
  .next (
    if s.brg.kill && !s.flag F.BRG_STATUS_DRIVE_SAFE then
      let s := s.driveSafe
      if s.flag F.BRG_STATUS_LOST then s.raise Ev.BRIDGE_LOSS else s
    else s)

/-- KILL_DN_STOP_PULSE (R28, R363, Table 1-4): heaters off and LEN low until the frame that ends the engine reset. -/
def execKillDnStopPulse (s : State) : Res :=
  .next (
    if s.devIs 5 && !s.brg.stopped then
      let s := s.each (List.finRange 4) State.heaterOff
      { s with brg := { s.brg with stopped := true } }.lenDrive
    else s)

/-- SAFE_UP (R23, R24, R305, Table 1-4): the Core die sees the Drive die in its safe state. A stranding record that a bus trip
calls for is made first. -/
def execSafeUp (s : State) : Res :=
  .next (
    if s.flag F.BRG_STATUS_DRIVE_SAFE then
      let s := if s.brg.tripDue then s.tripAnswer else s
      if s.brg.kill then (s.freezeLoss).gateFollow else s.coreBridgeLoss
    else s)

/-- ILK_OPEN (R256, R361, R367, R460): LEN goes low, ILK_UP gates exposure, masked HV channels and heaters trip. (DEDUCED: log 56) -/
def execIlkOpen (i : Fin 4) (s : State) : Res :=
  .next (
    let s := { s with brg := { s.brg with ilk := s.brg.ilk ||| BitVec.ofNat 4 (2 ^ i.val) } }
    let s := (s.putBitF F.BRG_STATUS_LINES 2 true).lenDrive
    let s := s.each (List.finRange 24) fun a c =>
      if bit (a.getF (F.HVS_CFG_ILK c)) i then a.hvTripNow c 3 else a
    s.heaterJudgeAll.gateFollow)

/-- ILK_CLOSE (R256): LEN may follow its request again once every interlock is closed. -/
def execIlkClose (i : Fin 4) (s : State) : Res :=
  .next (
    let s := { s with brg := { s.brg with ilk := s.brg.ilk &&& ~~~BitVec.ofNat 4 (2 ^ i.val) } }
    (s.putBitF F.BRG_STATUS_LINES 2 (s.brg.ilk != 0#4)).lenDrive)

end Sys2Proof.Machine
end

