-- ==== Sys2Proof/Machine/Heat.lean ====
section
/-! DEFINITION. Machine/Heat.lean: thermistor samples, mains, heaters and HV channels (chapter 17). -/

namespace Sys2Proof.Machine

/-- THERMISTOR_SAMPLE (R348–R351). (DESIGN CHOICE: log 8) -/
def execThermistorSample (n : Fin 12) (code : BitVec 14) (s : State) : Res :=
  .next (
    if s.flag (F.THM_CFG_EN n) then
      let x := s.thermOf n
      let now := s.tsc.toNat
      let k := code.toNat
      let bad := decide (100 * k < 16383) || decide (99 * 16383 < 100 * k)
      let was := s.flag (F.THM_STAT_BROKEN n)
      let nb := if bad then x.bad + 1 else 0
      let ng := if bad then 0 else x.good + 1
      let broken := if was then Nat.blt ng 1000 else Nat.ble 3 nb
      let s := (s.updTherm n fun y => { y with bad := nb, good := ng, taken := min 3 (y.taken + 1) }).putB (F.THM_STAT_BROKEN n) broken
      let s := if broken then s.putB (F.THM_STAT_OPEN n) (Nat.blt 8191 k || (was && !bad && s.flag (F.THM_STAT_OPEN n))) else s.putF (F.THM_STAT_OPEN n) 0
      let s := if broken && !was then (s.raise Ev.THM_BROKEN n).setMend 5 else s
      let s := if was && !broken then s.mendTherm else s
      -- reading and rate
      let t := thermTemp (s.getF (F.THM_CFG_RPU n)) (s.getR (R.THM_SH_A n)) (s.getR (R.THM_SH_B n)) (s.getR (R.THM_SH_C n)) k
      let s := if broken || bad then s else s.putF (F.THM_TEMP n) t.toNat
      let cur := signed 16 (s.getF (F.THM_TEMP n))
      let lvl := signed 16 (s.getF (F.THM_LIM_LEVEL n))
      let old := x.hist.find? fun h => Nat.ble (h.1 + 20000000) now
      let rise : Int := match old with
        | some h => cur - h.2
        | none => 0
      let keep := x.hist.filter fun h => Nat.blt now (h.1 + 20000000)
      let s := s.putR (R.THM_RISE n) (F32.ofRat (10 * rise) 16)
      let lim := s.getF (F.THM_LIM_RATE n)
      let no := if broken || decide (lvl ≤ cur) then x.hot + 1 else 0
      let nr := if lim ≠ 0 ∧ (broken || decide ((lim : Int) * 16 < 10 * rise)) then x.rate + 1 else 0
      let hot := decide (lvl - 160 ≤ cur)
      let s := s.updTherm n fun y => { y with
        hot := no
        rate := nr
        hist := (now, cur) :: keep ++ old.toList
        hotAt := if hot then now else y.hotAt }
      let s := if 3 ≤ no then s.latchF (F.THM_STAT_OVER n) else s
      let s := if 3 ≤ nr then s.latchF (F.THM_STAT_RATE n) else s
      let fast := broken || hot || (s.flag (F.THM_STAT_FAST n) && Nat.blt now ((s.thermOf n).hotAt + 20000000))
      (s.putB (F.THM_STAT_FAST n) fast).heaterJudgeAll
    else s)

/-- THERMISTOR_FLAG_CLEAR (R351, R20): the write travels in the downward frame. -/
def execThermistorFlagClear (_port : Port) (n : Fin 12) (w : Word) (s : State) : Res := .next (s.dnWrite (R.THM_STAT n) w)

/-! ## Mains and lamps -/

/-- The sum of the accepted periods, and their mean in µs. -/
def Mains.total (m : Mains) : Nat := m.periods.foldl (· + ·) 0

def Mains.mean (m : Mains) : Nat := m.total / (200 * m.periods.length)

/-- Is an edge `p` main-clock cycles after the accepted one in range (R357)? -/
def Mains.accepts (m : Mains) (p : Nat) : Bool :=
  let n := m.periods.length
  Nat.ble (15385 * 200) p && Nat.ble p (22222 * 200)
    && (n == 0 || (Nat.ble (9 * m.total) (10 * p * n) && Nat.ble (10 * p * n) (11 * m.total)))

def State.setMains (s : State) (x : Mains) : State := { s with heat := { s.heat with mains := x } }

/-- MAINS_SYNC_EDGE (R357). (DEDUCED: log 55) -/
def execMainsSyncEdge (s : State) : Res :=
  .next (
    let m := s.heat.mains
    let now := s.tsc.toNat
    match m.last with
    | none => s.setMains { m with last := some now, crossed := 0 }
    | some t =>
      if m.accepts (now - t) then
        let m' : Mains := { last := some now, periods := ((now - t) :: m.periods).take 8, run := m.run + 1, crossed := 0 }
        let s := (s.setMains m').putF F.IRN_MAINS_PERIOD m'.mean
        if 4 ≤ m'.run then (s.putF F.IRN_MAINS_LOCKED 1).putF F.IRN_MAINS_LOST 0 else s
      else (s.setMains { m with run := 0 }).incR R.IRN_MAINS_REJ 1)

/-- MAINS_LOST_TIMEOUT (R357): 25 ms without an accepted edge. -/
def execMainsLostTimeout (s : State) : Res :=
  .next (
    if s.heat.mains.last.getD 0 + 5000000 ≤ s.tsc.toNat ∧ s.getF F.IRN_MAINS_LOST = 0 then
      let s := s.setMains {}
      let s := (s.putF F.IRN_MAINS_LOST 1).putF F.IRN_MAINS_LOCKED 0
      let s := s.each (List.finRange 4) fun a h =>
        if a.getF (F.IRN_HTR_CFG_MODE h) = 1 ∨ a.getF (F.IRN_HTR_CFG_MODE h) = 2 then a.heaterOff h else a
      s.raise Ev.IRN_MAINS_LOST
    else s)

/-- Is a zero crossing of this polarity due: ZC_OFS after the accepted edge, or half a mean period later (R357)? -/
def State.crossingDue (s : State) (positive : Bool) : Bool :=
  let m := s.heat.mains
  let half := m.total / (2 * m.periods.length)
  match m.last with
  | some t => m.crossed == (if positive then 0 else 1)
      && Nat.ble (t + 200 * s.getF F.IRN_ZC_OFS + (if positive then 0 else half)) s.tsc.toNat
  | none => false

/-- A burst heater at a positive zero crossing (R358). -/
def State.burst (s : State) (h : Fin 4) : State :=
  let x := s.heaterOf h
  let now := s.tsc.toNat
  let kept := s.firedNow h
  if s.heaterLive h then
    let a := F32.add x.acc (s.heaterCmd h)
    let go := F32.le F32.one a
    let fired := if go then now :: kept else kept
    let s := s.updHeater h fun y => { y with acc := if go then F32.sub a F32.one else a, fired := fired }
    (s.heaterDrive h (if go then .cycle else .low)).putR (R.IRN_HTR_APPLIED h) (BitVec.ofNat 32 fired.length)
  else ((s.heaterOff h).updHeater h fun y => { y with fired := kept }).putR (R.IRN_HTR_APPLIED h) (BitVec.ofNat 32 kept.length)

/-- A phase-angle heater at a zero crossing: a pulse of PULSE × 10 µs, α ÷ π half-cycles after it (R359). -/
def State.phaseFire (s : State) (h : Fin 4) : State :=
  let c := s.heaterCmd h
  if !s.heaterLive h || F32.lt c (F32.ofRat 1 100) then s.heaterOff h
  else
    let a := if F32.le (F32.ofRat 99 100) c then 0 else phaseAngle c
    let m := s.heat.mains
    let rise := s.tsc.toNat + a * m.total / (2 * m.periods.length * 65536)
    (s.heaterDrive h (.pulse rise (rise + 2000 * s.getF (F.IRN_HTR_CFG_PULSE h)))).putR (R.IRN_HTR_APPLIED h) (BitVec.ofNat 32 a)

/-- ZERO_CROSSING (R358, R359): the positive one starts a mains cycle. -/
def execZeroCrossing (positive : Bool) (s : State) : Res :=
  .next (
    if s.flag F.IRN_MAINS_LOCKED && !s.flag F.IRN_MAINS_LOST && s.crossingDue positive then
      let s := s.setMains { s.heat.mains with crossed := s.heat.mains.crossed + 1 }
      s.each (List.finRange 4) fun a h =>
        match a.getF (F.IRN_HTR_CFG_MODE h) with
        | 1 => if positive then a.burst h else a
        | 2 => a.phaseFire h
        | _ => a
    else s)

/-- HEATER_DRIVER_FAULT (R360): HTR_h_FLT_N has been low for 1 µs, or is high again. -/
def execHeaterDriverFault (h : Fin 4) (low : Bool) (s : State) : Res :=
  .next ((s.updHeater h fun x => { x with fault := low }).heaterJudge h)

/-- HEATER_CLEAR (R362, R20): the write travels in the downward frame. -/
def execHeaterClear (_port : Port) (h : Fin 4) (w : Word) (s : State) : Res :=
  .next (if w.getLsbD 0 then s.dnWrite (R.IRN_HTR_CTRL h) w else s)

/-! ## High voltage -/

/-- 10 µs in seconds and in milliseconds. -/
def f10us : F32 := F32.ofRat 1 100000
def f10usMs : F32 := F32.ofRat 1 100

/-- HV_REGULATE (R365, R367): every 10 µs; a channel with AC = 1 is regulated once per AC cycle instead (R366). -/
def execHvRegulate (c : Fin 24) (mon aux : BitVec 14) (s : State) : Res :=
  .next (if s.flag (F.HVS_CFG_AC c) then s else s.hvRun c mon aux f10us f10usMs)

/-- HV_AC_CYCLE (R366): `amplitude` is the peak-to-peak value demodulated from the cycle's conversions. -/
def execHvAcCycle (c : Fin 24) (mean aux : BitVec 14) (amplitude : F32) (s : State) : Res :=
  .next (
    if s.flag (F.HVS_CFG_AC c) then
      let s := s.putR (R.HVS_AC_MEAS c) amplitude
      let f := s.getF (F.HVS_AC_FREQ c)
      (if s.hvRuns c then s.hvAcLoop c else s).hvRun c mean aux (F32.ofRat 1 f) (F32.ofRat 1000 f)
    else s)

/-- HV_ENABLE (R368, R20): the write travels in the downward frame. -/
def execHvEnable (_port : Port) (c : Fin 24) (w : Word) (s : State) : Res :=
  .next (if w.getLsbD 0 then s.dnWrite (R.HVS_CTRL c) w else s)

/-- HV_DISABLE (R368, R20). -/
def execHvDisable (_port : Port) (c : Fin 24) (w : Word) (s : State) : Res :=
  .next (if w.getLsbD 1 then s.dnWrite (R.HVS_CTRL c) w else s)

/-- HV_CLEAR (R367, R20). -/
def execHvClear (_port : Port) (c : Fin 24) (w : Word) (s : State) : Res :=
  .next (if w.getLsbD 2 then s.dnWrite (R.HVS_CTRL c) w else s)

/-- HV_RAMP_DOWN_DONE (R368): the set-point in use has reached 0. -/
def execHvRampDownDone (c : Fin 24) (s : State) : Res :=
  .next (
    if s.hvState c = 3 ∧ F32.isZero (s.hvOf c).setp then
      let pend := s.flag (F.HVS_STATUS_PENDING_ENABLE c)
      let s := ((s.hvLow c).putF (F.HVS_STATUS_STATE c) 0).putF (F.HVS_STATUS_PENDING_ENABLE c) 0
      s.updHv c fun _ => { startAt := if pend then some (s.tick + 1) else none }
    else s)

end Sys2Proof.Machine
end

