-- ==== Sys2Proof/Machine/OuvtaFloat.lean ====
section
/-! DEFINITION. Machine/OuvtaFloat.lean: binary32 instructions (R82, Table 4-3). -/

namespace Sys2Proof.Machine


/-- fd ← op fs1 fs2, at a cost of `c`. -/
def State.fpu (s : State) (t : Fin 16) (fd fs1 fs2 : Fin 8) (c : Nat) (op : F32 → F32 → F32) : State :=
  s.perform t c fun a => a.wf t fd (op (a.rf t fs1) (a.rf t fs2))

/-- fd ← op fs1. -/
def State.fpu1 (s : State) (t : Fin 16) (fd fs1 : Fin 8) (c : Nat) (op : F32 → F32) : State :=
  s.perform t c fun a => a.wf t fd (op (a.rf t fs1))

/-- rd ← 1 or 0 by a comparison. -/
def State.fcmp (s : State) (t rd : Fin 16) (fs1 fs2 : Fin 8) (op : F32 → F32 → Bool) : State :=
  s.perform t 1 fun a => a.wx t rd (test (op (a.rf t fs1) (a.rf t fs2)))

/-- FADD. -/
def execFadd (t : Fin 16) (fd fs1 fs2 : Fin 8) (s : State) : Res := .next (s.fpu t fd fs1 fs2 1 F32.add)

/-- FSUB. -/
def execFsub (t : Fin 16) (fd fs1 fs2 : Fin 8) (s : State) : Res := .next (s.fpu t fd fs1 fs2 1 F32.sub)

/-- FMUL. -/
def execFmul (t : Fin 16) (fd fs1 fs2 : Fin 8) (s : State) : Res := .next (s.fpu t fd fs1 fs2 1 F32.mul)

/-- FDIV. -/
def execFdiv (t : Fin 16) (fd fs1 fs2 : Fin 8) (s : State) : Res := .next (s.fpu t fd fs1 fs2 8 F32.div)

/-- FMIN. -/
def execFmin (t : Fin 16) (fd fs1 fs2 : Fin 8) (s : State) : Res := .next (s.fpu t fd fs1 fs2 1 F32.fmin)

/-- FMAX. -/
def execFmax (t : Fin 16) (fd fs1 fs2 : Fin 8) (s : State) : Res := .next (s.fpu t fd fs1 fs2 1 F32.fmax)

/-- FLIM. -/
def execFlim (t : Fin 16) (fd fs1 fs2 : Fin 8) (s : State) : Res := .next (s.fpu t fd fs1 fs2 1 F32.lim)

/-- FSQRT. -/
def execFsqrt (t : Fin 16) (fd fs1 : Fin 8) (s : State) : Res := .next (s.fpu1 t fd fs1 8 F32.sqrt)

/-- FABS. -/
def execFabs (t : Fin 16) (fd fs1 : Fin 8) (s : State) : Res := .next (s.fpu1 t fd fs1 1 F32.abs)

/-- FNEG. -/
def execFneg (t : Fin 16) (fd fs1 : Fin 8) (s : State) : Res := .next (s.fpu1 t fd fs1 1 F32.neg)

/-- FCEQ. -/
def execFceq (t rd : Fin 16) (fs1 fs2 : Fin 8) (s : State) : Res := .next (s.fcmp t rd fs1 fs2 F32.eq)

/-- FCLT. -/
def execFclt (t rd : Fin 16) (fs1 fs2 : Fin 8) (s : State) : Res := .next (s.fcmp t rd fs1 fs2 F32.lt)

/-- FCLE. -/
def execFcle (t rd : Fin 16) (fs1 fs2 : Fin 8) (s : State) : Res := .next (s.fcmp t rd fs1 fs2 F32.le)

/-- FITOF: from a signed integer. -/
def execFitof (t : Fin 16) (fd : Fin 8) (rs1 : Fin 16) (s : State) : Res :=
  .next (s.perform t 1 fun a => a.wf t fd (F32.ofInt (a.rx t rs1).toInt))

/-- FUTOF: from an unsigned integer. -/
def execFutof (t : Fin 16) (fd : Fin 8) (rs1 : Fin 16) (s : State) : Res :=
  .next (s.perform t 1 fun a => a.wf t fd (F32.ofNat (a.rx t rs1).toNat))

/-- FFTOI: to a signed integer; fn[6] selects rounding toward zero. -/
def execFftoi (t rd : Fin 16) (fs1 : Fin 8) (towardZero : Bool) (s : State) : Res :=
  .next (s.perform t 1 fun a => a.wx t rd (F32.toI32 towardZero (a.rf t fs1)))

/-- FFTOU: to an unsigned integer. -/
def execFftou (t rd : Fin 16) (fs1 : Fin 8) (towardZero : Bool) (s : State) : Res :=
  .next (s.perform t 1 fun a => a.wx t rd (F32.toU32 towardZero (a.rf t fs1)))

/-- FMOVX: bit copy to an x register. -/
def execFmovx (t rd : Fin 16) (fs1 : Fin 8) (s : State) : Res := .next (s.perform t 1 fun a => a.wx t rd (a.rf t fs1))

/-- FMOVF: bit copy to an f register. -/
def execFmovf (t : Fin 16) (fd : Fin 8) (rs1 : Fin 16) (s : State) : Res :=
  .next (s.perform t 1 fun a => a.wf t fd (a.rx t rs1))

/-- FMAC: fd ← fs1 × fs2 + fs3, rounded once. -/
def execFmac (t : Fin 16) (fd fs1 fs2 fs3 : Fin 8) (s : State) : Res :=
  .next (s.perform t 2 fun a => a.wf t fd (F32.fma (a.rf t fs1) (a.rf t fs2) (a.rf t fs3)))

end Sys2Proof.Machine
end

