-- ==== Sys2Proof/Machine/OuvtaInt.lean ====
section
/-! DEFINITION. Machine/OuvtaInt.lean: integer and control instructions (R79, R80, R81, Table 4-2). -/

namespace Sys2Proof.Machine


/-- rd ← op rs1 rs2, at a cost of `c`. -/
def State.alu (s : State) (t rd rs1 rs2 : Fin 16) (c : Nat) (op : Word → Word → Word) : State :=
  s.perform t c fun a => a.wx t rd (op (a.rx t rs1) (a.rx t rs2))

/-- rd ← op rs1 k. -/
def State.aluK (s : State) (t rd rs1 : Fin 16) (k : Word) (op : Word → Word → Word) : State :=
  s.perform t 1 fun a => a.wx t rd (op (a.rx t rs1) k)

/-- A C-format branch: 2 cycles when taken, 1 when not (R76). -/
def State.branch (s : State) (t rs1 rs2 : Fin 16) (imm : BitVec 18) (cond : Word → Word → Bool) : State :=
  if cond (s.rx t rs1) (s.rx t rs2) then s.performTo t 2 (target (s.thr t).pc (sx18 imm)) id
  else s.perform t 1 id

/-- ADD: rd ← rs1 + rs2. -/
def execAdd (t rd rs1 rs2 : Fin 16) (s : State) : Res := .next (s.alu t rd rs1 rs2 1 (fun a b => a + b))

/-- SUB: rd ← rs1 − rs2. -/
def execSub (t rd rs1 rs2 : Fin 16) (s : State) : Res := .next (s.alu t rd rs1 rs2 1 (fun a b => a - b))

/-- AND: rd ← rs1 and rs2. -/
def execAnd (t rd rs1 rs2 : Fin 16) (s : State) : Res := .next (s.alu t rd rs1 rs2 1 (fun a b => a &&& b))

/-- OR: rd ← rs1 or rs2. -/
def execOr (t rd rs1 rs2 : Fin 16) (s : State) : Res := .next (s.alu t rd rs1 rs2 1 (fun a b => a ||| b))

/-- XOR: rd ← rs1 xor rs2. -/
def execXor (t rd rs1 rs2 : Fin 16) (s : State) : Res := .next (s.alu t rd rs1 rs2 1 (fun a b => a ^^^ b))

/-- SHL: shift left by rs2[4:0]. -/
def execShl (t rd rs1 rs2 : Fin 16) (s : State) : Res := .next (s.alu t rd rs1 rs2 1 (shl))

/-- SHR: logical shift right. -/
def execShr (t rd rs1 rs2 : Fin 16) (s : State) : Res := .next (s.alu t rd rs1 rs2 1 (shr))

/-- SHRA: arithmetic shift right. -/
def execShra (t rd rs1 rs2 : Fin 16) (s : State) : Res := .next (s.alu t rd rs1 rs2 1 (shra))

/-- TLT: 1 if rs1 < rs2 signed, else 0. -/
def execTlt (t rd rs1 rs2 : Fin 16) (s : State) : Res := .next (s.alu t rd rs1 rs2 1 (fun a b => test (slt a b)))

/-- TLO: 1 if rs1 < rs2 unsigned, else 0. -/
def execTlo (t rd rs1 rs2 : Fin 16) (s : State) : Res := .next (s.alu t rd rs1 rs2 1 (fun a b => test (ult a b)))

/-- ADDS: saturating sum. -/
def execAdds (t rd rs1 rs2 : Fin 16) (s : State) : Res := .next (s.alu t rd rs1 rs2 1 (adds))

/-- SUBS: saturating difference. -/
def execSubs (t rd rs1 rs2 : Fin 16) (s : State) : Res := .next (s.alu t rd rs1 rs2 1 (subs))

/-- MIN: smaller, signed. -/
def execMin (t rd rs1 rs2 : Fin 16) (s : State) : Res := .next (s.alu t rd rs1 rs2 1 (minS))

/-- MAX: larger, signed. -/
def execMax (t rd rs1 rs2 : Fin 16) (s : State) : Res := .next (s.alu t rd rs1 rs2 1 (maxS))

/-- MUL: low word of the product. -/
def execMul (t rd rs1 rs2 : Fin 16) (s : State) : Res := .next (s.alu t rd rs1 rs2 1 (fun a b => a * b))

/-- MHS: high word of the signed product. -/
def execMhs (t rd rs1 rs2 : Fin 16) (s : State) : Res := .next (s.alu t rd rs1 rs2 1 (mhs))

/-- MHU: high word of the unsigned product. -/
def execMhu (t rd rs1 rs2 : Fin 16) (s : State) : Res := .next (s.alu t rd rs1 rs2 1 (mhu))

/-- QUO: signed quotient (R81). -/
def execQuo (t rd rs1 rs2 : Fin 16) (s : State) : Res := .next (s.alu t rd rs1 rs2 8 (quo))

/-- QUOU: unsigned quotient. -/
def execQuou (t rd rs1 rs2 : Fin 16) (s : State) : Res := .next (s.alu t rd rs1 rs2 8 (quou))

/-- MOD: signed remainder. -/
def execMod (t rd rs1 rs2 : Fin 16) (s : State) : Res := .next (s.alu t rd rs1 rs2 8 (modS))

/-- MODU: unsigned remainder. -/
def execModu (t rd rs1 rs2 : Fin 16) (s : State) : Res := .next (s.alu t rd rs1 rs2 8 (modU))

/-- ADDK: as ADD, with the sign-extended constant (R74). -/
def execAddk (t rd rs1 : Fin 16) (imm : BitVec 18) (s : State) : Res := .next (s.aluK t rd rs1 (sx18 imm) (fun a b => a + b))

/-- TLTK: as TLT, with the sign-extended constant (R74). -/
def execTltk (t rd rs1 : Fin 16) (imm : BitVec 18) (s : State) : Res := .next (s.aluK t rd rs1 (sx18 imm) (fun a b => test (slt a b)))

/-- TLOK: as TLO, with the sign-extended constant (R74). -/
def execTlok (t rd rs1 : Fin 16) (imm : BitVec 18) (s : State) : Res := .next (s.aluK t rd rs1 (sx18 imm) (fun a b => test (ult a b)))

/-- ANDK: as AND, with the zero-extended constant (R74). -/
def execAndk (t rd rs1 : Fin 16) (imm : BitVec 18) (s : State) : Res := .next (s.aluK t rd rs1 (zx18 imm) (fun a b => a &&& b))

/-- ORK: as OR, with the zero-extended constant (R74). -/
def execOrk (t rd rs1 : Fin 16) (imm : BitVec 18) (s : State) : Res := .next (s.aluK t rd rs1 (zx18 imm) (fun a b => a ||| b))

/-- XORK: as XOR, with the zero-extended constant (R74). -/
def execXork (t rd rs1 : Fin 16) (imm : BitVec 18) (s : State) : Res := .next (s.aluK t rd rs1 (zx18 imm) (fun a b => a ^^^ b))

/-- SHLK: shift by imm[4:0]. -/
def execShlk (t rd rs1 : Fin 16) (imm : BitVec 5) (s : State) : Res := .next (s.aluK t rd rs1 (imm.setWidth 32) shl)

/-- SHRK: shift by imm[4:0]. -/
def execShrk (t rd rs1 : Fin 16) (imm : BitVec 5) (s : State) : Res := .next (s.aluK t rd rs1 (imm.setWidth 32) shr)

/-- SHRAK: shift by imm[4:0]. -/
def execShrak (t rd rs1 : Fin 16) (imm : BitVec 5) (s : State) : Res := .next (s.aluK t rd rs1 (imm.setWidth 32) shra)

/-- KHI: imm in bits [31:10] of rd. -/
def execKhi (t rd : Fin 16) (imm : BitVec 22) (s : State) : Res := .next (s.perform t 1 fun a => a.wx t rd (khi22 imm))

/-- IFEQ: branch if equal. -/
def execIfeq (t rs1 rs2 : Fin 16) (imm : BitVec 18) (s : State) : Res := .next (s.branch t rs1 rs2 imm (fun a b => a == b))

/-- IFNE: branch if not equal. -/
def execIfne (t rs1 rs2 : Fin 16) (imm : BitVec 18) (s : State) : Res := .next (s.branch t rs1 rs2 imm (fun a b => a != b))

/-- IFLT: branch if less, signed. -/
def execIflt (t rs1 rs2 : Fin 16) (imm : BitVec 18) (s : State) : Res := .next (s.branch t rs1 rs2 imm (slt))

/-- IFGE: branch if greater or equal, signed. -/
def execIfge (t rs1 rs2 : Fin 16) (imm : BitVec 18) (s : State) : Res := .next (s.branch t rs1 rs2 imm (fun a b => !slt a b))

/-- IFLO: branch if lower, unsigned. -/
def execIflo (t rs1 rs2 : Fin 16) (imm : BitVec 18) (s : State) : Res := .next (s.branch t rs1 rs2 imm (ult))

/-- IFHS: branch if higher or the same, unsigned. -/
def execIfhs (t rs1 rs2 : Fin 16) (imm : BitVec 18) (s : State) : Res := .next (s.branch t rs1 rs2 imm (fun a b => !ult a b))

/-- CALL: rd ← PC + 1; PC ← PC + imm. -/
def execCall (t rd : Fin 16) (imm : BitVec 22) (s : State) : Res :=
  .next (s.performTo t 2 (target (s.thr t).pc (sx22 imm)) fun a => a.wx t rd (BitVec.ofNat 32 ((s.thr t).pc + 1)))

/-- CALLR: rd ← PC + 1; PC ← rs1 + imm, rs1 read before rd is written. -/
def execCallr (t rd rs1 : Fin 16) (imm : BitVec 18) (s : State) : Res :=
  .next (s.performTo t 2 (s.rx t rs1 + sx18 imm).toNat fun a => a.wx t rd (BitVec.ofNat 32 ((s.thr t).pc + 1)))

end Sys2Proof.Machine
end

