-- ==== Sys2Proof/Machine/OuvtaLedger.lean ====
section
/-! DEFINITION. Machine/OuvtaLedger.lean: PICK and LDGM (R93–R99). -/

namespace Sys2Proof.Machine

/-- The page a PICK selects (R93): pages are held in submission order. -/
def State.pickPage (s : State) (sel : Word) : Option Page :=
  s.cel.pages.find? fun p => (p.st == .stored || p.st == .committed) && (sel == 0#32 || p.tag == sel)

/-- Stations of a page that are not ready, as a mask. -/
def State.pickStations (s : State) (p : Page) : Nat :=
  p.planes.foldl (fun m q => if s.notReady q.station then setBit m q.station true else m) 0

/-- Is the page COMMITTED for a PICK of this cycle? A commit of the same cycle is not seen (R183). -/
def State.isCommitted (s : State) (p : Page) : Bool := p.st == .committed && p.commitAt != some s.tsc

/-- The gap of the pitch governor (R186). -/
def State.pitchGap (s : State) : Nat :=
  min (s.getF F.CEL_PITCH_MAX) (s.getF F.CEL_PITCH_BASE
    + s.getF F.CEL_PITCH_STEP * (s.getF F.CEL_PITCH_TARGET - (s.cel.pages.filter fun p => s.isCommitted p).length))

/-- May sheet `id` take a second side from thread `t`? -/
def State.bindOk (s : State) (t : Fin 16) (id : Word) : Bool :=
  match s.led.find id with
  | some sh => sh.place.inPath && sh.owner == t && !sh.handoff && sh.tag2.isNone
  | none => false

/-- The tests of Table 4-7 ahead of PITCH_HOLD: the AUX value of the first that applies. -/
def State.pickRefusal (s : State) (t : Fin 16) (page : Option Page) (sheet : Word) : Option Nat :=
  if (match s.seq.noHandlerTick with
      | some k => Nat.blt k s.tick
      | none => false) then some 0x04
  else match page with
    | none => some 0x02
    | some p =>
      if !s.isCommitted p then some 0x01
      else if sheet != 0#32 && !s.bindOk t sheet then some 0x05
      else if s.pickStations p != 0 then some (0x06 + 256 * s.pickStations p)
      else none

/-- Ticks that the governor still holds: 0 where the PICK succeeds. -/
def State.pitchLeft (s : State) : Nat :=
  match s.cel.lastPick with
  | none => 0
  | some k => s.pitchGap - (s.tick - k)

/-- A PICK that does not pick: 0 in rd, the reason in AUX (R95). -/
def State.notPicked (s : State) (t rd : Fin 16) (aux : Nat) : State := (s.wx t rd 0#32).setAux t (BitVec.ofNat 32 aux)

/-- A PICK that succeeds (R94). -/
def State.picked (s : State) (t rd : Fin 16) (p : Page) (sheet : Word) : State :=
  let id := if sheet = 0#32 then s.led.nextId else sheet
  let sh : Sheet := { id := id, place := .picked, owner := t, tag1 := some p.tag, size := p.size, colour := p.colour }
  let s := s.journal (if sheet = 0#32 then .enter sh true else .second id p.tag)
  let n := s.cel.nextPick
  let s := s.updPage p.tag fun x => { x with st := .picked, sheet := some id, second := sheet != 0#32, pickedAt := n }
  let s := { s with cel := { s.cel with nextPick := n + 1, lastPick := some s.tick } }
  ((s.wx t rd id).setAux t p.tag).rinsePick

/-- The effect of a PICK in its performed cycle. -/
def State.pick (s : State) (t rd rs1 rs2 : Fin 16) : State :=
  let page := s.pickPage (s.rx t rs1)
  let sheet := s.rx t rs2
  match s.pickRefusal t page sheet, page with
  | some aux, _ => s.notPicked t rd aux
  | none, none => s.notPicked t rd 0x02
  | none, some p =>
    let left := s.pitchLeft
    let s := s.putF F.CEL_PITCH_GAP s.pitchGap
    if left ≠ 0 then s.notPicked t rd (0x03 + 256 * left) else s.picked t rd p sheet

/-- PICK (R93–R96). -/
def execPick (t rd rs1 rs2 : Fin 16) (s : State) : Res :=
  .next (if s.frozen then s.performFault t 4 0x6 else s.perform t 4 fun a => a.pick t rd rs1 rs2)

/-! ## LDGM -/

/-- Destinations an LDGM can name (Table 4-8). -/
inductive Dest where
  | stay (p : Place)
  | leave (x : Terminal)
  deriving DecidableEq, Repr

/-- The place a code names; stranded, handed in and undefined codes name none an LDGM may use (R98). -/
def destOf (c : Nat) : Option Dest :=
  if c = 0x00 then some (.stay .picked)
  else if 0x10 ≤ c ∧ c < 0x20 then some (.stay (.zone (Fin.ofNat 16 (c - 0x10))))
  else if 0x20 ≤ c ∧ c < 0x28 then some (.leave (.delivered (Fin.ofNat 8 (c - 0x20))))
  else if c = 0x30 then some (.stay .jammed)
  else if c = 0x32 then some (.leave .purged)
  else if c = 0x38 then some (.leave .handedOut)
  else none

/-- Is the transition permitted by Table 18-1 and R99? -/
def transitionOk (sh : Sheet) (o : Bool) : Dest → Bool
  | .stay .picked => sh.place == .picked && o
  | .stay p => p != sh.place || o
  | .leave .purged => true
  | .leave _ => sh.place != .picked

/-- May a sheet be handed out now (R434)? -/
def State.handoutOk (s : State) : Bool :=
  s.flag F.CHN_CFG_EN && s.flag F.CHN_STATUS_FORMED && s.chnUp (Fin.ofNat 2 (s.getF F.CHN_CFG_HO_PORT))

/-- Is the named new owner a thread that can own a sheet (R98)? -/
def State.ownerOk (s : State) (n : Fin 16) : Bool := (s.thr n).run != .disabled && (s.thr n).run != .halted

/-- The sheet and destination of an LDGM that the ledger permits (R98). -/
def State.ldgmCheck (s : State) (t : Fin 16) (id : Word) (place : Nat) (o : Bool) (own : Fin 16) : Option (Sheet × Dest) :=
  match s.led.find id, destOf place with
  | some sh, some d =>
    if s.frozen || !sh.place.inPath || sh.owner != t || sh.handoff || !transitionOk sh o d then none
    else if d == .leave .handedOut && !s.handoutOk then none
    else if o && (match d with
      | .stay p => p.inPath
      | .leave _ => false) && !s.ownerOk own then none
    else some (sh, d)
  | _, _ => none

/-- The effect of a permitted LDGM: the transition and its journal entry, and what follows for the sheet's pages. -/
def State.ldgmDo (s : State) (sh : Sheet) (d : Dest) (o : Bool) (own : Fin 16) : State :=
  let owner := if o then own else sh.owner
  match d with
  | .stay .jammed => ((s.journal (.move sh.id .jammed 0)).rinseFollow).jamSheet sh.id
  | .stay p => if p = sh.place then s.journal (.own sh.id owner) else s.journal (.move sh.id p owner)
  | .leave (.delivered b) => (s.journal (.leave sh.id (.delivered b))).retireSheet sh.id .delivered sh.spoiled
  | .leave .purged => (s.journal (.leave sh.id .purged)).jamSheet sh.id
  | .leave .handedOut =>
    let p : Fin 2 := Fin.ofNat 2 (s.getF F.CHN_CFG_HO_PORT)
    let s := s.journal (.handoff sh.id true)
    let x : Offer := { id := sh.id, port := p, thread := sh.owner, tick := s.tick, spoiled := sh.spoiled }
    let s := s.setOffers (s.chn.offers ++ [x])
    s.chnSend p 0x10#8 0#4 (idBytes sh.id ++ [BitVec.ofNat 8 (boolNat sh.spoiled), BitVec.ofNat 8 (sh.size + 16 * sh.colour)]
      ++ idBytes (sh.tag1.getD 0#32) ++ idBytes (sh.tag2.getD 0#32))

/-- LDGM (R97–R99). (DEDUCED: log 12) -/
def execLdgm (t rd rs1 rs2 : Fin 16) (place : BitVec 6) (own : Bool) (s : State) : Res :=
  .next (
    let n : Fin 16 := Fin.ofNat 16 (s.rx t rs2).toNat
    match s.ldgmCheck t (s.rx t rs1) place.toNat own n with
    | none => s.performFault t 2 0x6
    | some (sh, d) => s.perform t 2 fun a => (a.ldgmDo sh d own n).wx t rd (BitVec.ofNat 32 sh.place.code))

end Sys2Proof.Machine
end

