-- ==== Sys2Proof/Machine/OuvtaMem.lean ====
section
/-! DEFINITION. Machine/OuvtaMem.lean: data-memory instructions (R83, R84, Table 4-4), waiting, signals, time and EVT (R89–R92, R100). -/

namespace Sys2Proof.Machine


/-- Count a corrected single-bit error (R54). -/
def State.eccCount (s : State) (e : Ecc) : State := if e = .corrected then s.incR R.SEQ_ECC_CORR 1 else s

/-- A load of `n` bytes: the checks of R83, then the SECDED outcome (R54), then the result by `put`. (DESIGN CHOICE: log 8) -/
def State.load (s : State) (t rs1 : Fin 16) (imm : BitVec 18) (n : Nat) (ecc : Ecc) (put : State → Nat → State) : State :=
  let a := dmemAddr (s.rx t rs1) imm
  match s.dmemCheck t a n with
  | some f => s.performFault t 2 f
  | none =>
    if ecc = .uncorrectable then s.performFault t 2 0x9
    else s.perform t 2 fun b => put (b.eccCount ecc) (b.dmemRead a n)

/-- A store of the low `n` bytes of `v`. -/
def State.store (s : State) (t rs1 : Fin 16) (imm : BitVec 18) (n : Nat) (v : Word) : State :=
  let a := dmemAddr (s.rx t rs1) imm
  match s.dmemCheck t a n with
  | some f => s.performFault t 1 f
  | none => s.perform t 1 fun b => b.dmemWrite a n v.toNat

/-- LDW. -/
def execLdw (t rd rs1 : Fin 16) (imm : BitVec 18) (ecc : Ecc) (s : State) : Res :=
  .next (s.load t rs1 imm 4 ecc fun a v => a.wx t rd (BitVec.ofNat 32 v))

/-- LDH. -/
def execLdh (t rd rs1 : Fin 16) (imm : BitVec 18) (ecc : Ecc) (s : State) : Res :=
  .next (s.load t rs1 imm 2 ecc fun a v => a.wx t rd ((BitVec.ofNat 16 v).signExtend 32))

/-- LDHU. -/
def execLdhu (t rd rs1 : Fin 16) (imm : BitVec 18) (ecc : Ecc) (s : State) : Res :=
  .next (s.load t rs1 imm 2 ecc fun a v => a.wx t rd (BitVec.ofNat 32 v))

/-- LDB. -/
def execLdb (t rd rs1 : Fin 16) (imm : BitVec 18) (ecc : Ecc) (s : State) : Res :=
  .next (s.load t rs1 imm 1 ecc fun a v => a.wx t rd ((BitVec.ofNat 8 v).signExtend 32))

/-- LDBU. -/
def execLdbu (t rd rs1 : Fin 16) (imm : BitVec 18) (ecc : Ecc) (s : State) : Res :=
  .next (s.load t rs1 imm 1 ecc fun a v => a.wx t rd (BitVec.ofNat 32 v))

/-- LDF. -/
def execLdf (t : Fin 16) (fd : Fin 8) (rs1 : Fin 16) (imm : BitVec 18) (ecc : Ecc) (s : State) : Res :=
  .next (s.load t rs1 imm 4 ecc fun a v => a.wf t fd (BitVec.ofNat 32 v))

/-- STW. -/
def execStw (t rs1 rs2 : Fin 16) (imm : BitVec 18) (s : State) : Res := .next (s.store t rs1 imm 4 (s.rx t rs2))

/-- STH. -/
def execSth (t rs1 rs2 : Fin 16) (imm : BitVec 18) (s : State) : Res := .next (s.store t rs1 imm 2 (s.rx t rs2))

/-- STB. -/
def execStb (t rs1 rs2 : Fin 16) (imm : BitVec 18) (s : State) : Res := .next (s.store t rs1 imm 1 (s.rx t rs2))

/-- STF. -/
def execStf (t rs1 : Fin 16) (fs2 : Fin 8) (imm : BitVec 18) (s : State) : Res := .next (s.store t rs1 imm 4 (s.rf t fs2))

/-- ADDM (R84): rd ← the word at rs1, which becomes the old value plus rs2. -/
def execAddm (t rd rs1 rs2 : Fin 16) (ecc : Ecc) (s : State) : Res :=
  .next (
    let a := (s.rx t rs1).toNat
    match s.dmemCheck t a 4 with
    | some f => s.performFault t 2 f
    | none =>
      if ecc = .uncorrectable then s.performFault t 2 0x9
      else s.perform t 2 fun b =>
        let old : Word := BitVec.ofNat 32 (b.dmemRead a 4)
        ((b.eccCount ecc).dmemWrite a 4 (old + b.rx t rs2).toNat).wx t rd old)

/-! ## Waiting, signals and time -/

/-- WAIT (R62, R89, R90): clear TICK and FRAME, disarm and arm the deadline, then end at once or wait. (DEDUCED: log 66) -/
def execWait (t rd rs1 rs2 : Fin 16) (s : State) : Res :=
  .next (s.perform t 1 fun a =>
    let mask : BitVec 64 := ((a.rx t rs2 ++ a.rx t rs1 : BitVec 64)) &&& 0x1FFFFFFFFFFFFF#64
    let h := a.thr t
    let h := { h with pend := h.pend &&& ~~~ 0x3000000000000#64, mask := mask, waitRd := rd,
                      deadline := if mask.getLsbD 50 then some h.dl else none }
    let a := a.setThr t h
    let m := a.pendOf t &&& mask
    if m ≠ 0#64 then a.endWait t m else a.setThr t (h.setRun .waiting))

/-- SIG (R65, R91): the sender's bit in the pending bits of thread (rs1 + imm) AND 0xF. -/
def execSig (t rs1 : Fin 16) (imm : BitVec 18) (s : State) : Res :=
  .next (s.perform t 1 fun a =>
    let d : Fin 16 := Fin.ofNat 16 (a.rx t rs1 + sx18 imm).toNat
    a.setThr d ((a.thr d).setPend t))

/-- TSC: rd and AUX from one sample of TSC. -/
def execTsc (t rd : Fin 16) (s : State) : Res :=
  .next (s.perform t 1 fun a => (a.wx t rd (a.tsc.setWidth 32)).setAux t ((a.tsc >>> 32).setWidth 32))

/-- TICKN: rd and AUX from the tick number. -/
def execTickn (t rd : Fin 16) (s : State) : Res :=
  .next (s.perform t 1 fun a => (a.wx t rd (BitVec.ofNat 32 a.tick)).setAux t (BitVec.ofNat 32 (a.tick / 0x100000000)))

/-- TCYC: the main-clock cycle within the tick. -/
def execTcyc (t rd : Fin 16) (s : State) : Res := .next (s.perform t 1 fun a => a.wx t rd (BitVec.ofNat 32 a.cycle))

/-- MOVA: rd ← AUX. -/
def execMova (t rd : Fin 16) (s : State) : Res := .next (s.perform t 1 fun a => a.wx t rd (a.thr t).aux)

/-- SETDL: DL ← TSC + rs1. -/
def execSetdl (t rs1 : Fin 16) (s : State) : Res :=
  .next (s.perform t 1 fun a => a.setThr t { a.thr t with dl := a.tsc + (a.rx t rs1).setWidth 64 })

/-- SETDLA: DL ← rs2 × 2^32 + rs1. -/
def execSetdla (t rs1 rs2 : Fin 16) (s : State) : Res :=
  .next (s.perform t 1 fun a => a.setThr t { a.thr t with dl := (a.rx t rs2 ++ a.rx t rs1 : BitVec 64) })

/-- BRK (R92): advances the PC and debug-halts the thread; ILLEGAL while the debug port is locked. -/
def execBrk (t : Fin 16) (s : State) : Res :=
  .next (if s.dbgOpen then
    s.perform t 1 fun a =>
      let h := a.thr t
      a.setThr t { h with st := .debugHalted, back := h.run }
  else s.performFault t 1 0x1)

/-- EVT (R100, R414): a program event with code, class and rs1 as its payload. -/
def execEvt (t rs1 : Fin 16) (cls : BitVec 2) (code : BitVec 12) (s : State) : Res :=
  .next (s.perform t 1 fun a =>
    let c : EvClass := match cls.toNat with
      | 0 => .alarm
      | 1 => .warn
      | 2 => .info
      | _ => .trace
    if c = .trace ∧ !a.flag F.EVT_CTRL_TRACE_EN then a
    else a.arise { cls := c, program := true, block := t, code := code.toNat, detA := a.rx t rs1, detB := BitVec.ofNat 32 (s.thr t).pc })

end Sys2Proof.Machine
end

