-- ==== Sys2Proof/Machine/Power.lean ====
section
/-! DEFINITION. Machine/Power.lean: the commands of the supervisor (chapter 20 and R467). Each carries the supervisor
microseconds since the supervisor's previous command, and the voltage sensed where the rule looks at one. -/

namespace Sys2Proof.Machine

/-- AC_OK_RISE (R404, R408, R411): it is recorded; it ends a lockout in which AC_OK has fallen; it powers up when the other
conditions hold. (DESIGN CHOICE: log 62) -/
def execAcOkRise (dt : Nat) (s : State) : Res :=
  .next (
    let s := (s.psqAdvance dt).putF F.PSQ_STATUS_AC_OK 1
    let s :=
      if s.psq.lockout ∧ s.psq.lockFell then
        let s := { s with psq := { s.psq with lockout := false, lockFell := false } }
        s.putF F.PSQ_STATUS_STATE (if s.devIs 7 then 3 else 0)
      else s
    s.tryPowerUp)

/-- AC_OK_FALL (R409, R411). -/
def execAcOkFall (dt : Nat) (s : State) : Res :=
  .next (
    let s := (s.psqAdvance dt).putF F.PSQ_STATUS_AC_OK 0
    let s := if s.psq.lockout then { s with psq := { s.psq with lockFell := true } } else s
    if s.psqState = 1 ∨ s.psqState = 2 then
      let s := s.acDown
      if s.psq.core then s else s.railSequence
    else s)

/-- MIN_OFF_ELAPSED (R404). -/
def execMinOffElapsed (dt : Nat) (s : State) : Res := .next (s.psqAdvance dt).tryPowerUp

/-- POWER_DOWN_RAIL_START (R409). -/
def execPowerDownRailStart (dt : Nat) (s : State) : Res :=
  .next (
    let s := s.psqAdvance dt
    if s.psqState = 3 ∧ ¬s.psq.total ∧ ¬s.psq.seq ∧ s.sequenceDue then s.railSequence else s)

/-- RAIL_GOOD (R402, R403, R404): a rail in RAMP is accepted as good. (DESIGN CHOICE: log 62) -/
def execRailGood (dt : Nat) (r : Fin 16) (vs : Nat) (pg head test : Bool) (s : State) : Res :=
  .next (
    let s := s.psqAdvance dt
    if s.railState r = 2 ∧ s.railGood r vs pg then
      let s := ((s.railSense r vs).setRail r 3).standbyFollow
      (s.railsRise).coreRelease head test
    else s)

/-- RAIL_GOOD_LOST (R407, R410): a total shut-off, or a failure during the sequence of R409. -/
def execRailGoodLost (dt : Nat) (r : Fin 16) (vs : Nat) (pg : Bool) (s : State) : Res :=
  .next (
    let s := s.psqAdvance dt
    if s.railState r = 3 ∧ ¬s.railGood r vs pg then
      let above := s.railAbove r vs
      let s := s.railSense r vs
      if s.psqState = 3 then s.railFailed r else s.shutOff 2 r above
    else s)

/-- PG_TIMEOUT (R407): PG_TO has expired for a rail in RAMP. (DESIGN CHOICE: log 4) -/
def execPgTimeout (dt : Nat) (r : Fin 16) (vs : Nat) (s : State) : Res :=
  .next (
    let s := s.psqAdvance dt
    if s.railState r = 2 ∧ (s.railOf r).onAt + 1000 * s.getF (F.PSQ_RAIL_TO_PG_TO r) ≤ s.psq.now then
      (s.railSense r vs).shutOff 3 r (s.railAbove r vs)
    else s)

/-- RAIL_BELOW_OFF (R402): VS has stayed under the off threshold for 10 µs. -/
def execRailBelowOff (dt : Nat) (r : Fin 16) (vs : Nat) (s : State) : Res :=
  .next (
    let s := s.psqAdvance dt
    if s.underOff r vs then
      let s := s.railSense r vs
      if s.railState r = 4 ∨ s.railState r = 5 then s.railIsOff r else s.standbyFollow
    else s)

/-- OFF_TIMEOUT (R409, Table 20-2): OFF_TO has expired for a rail in TURNING_OFF, which counts as off. -/
def execOffTimeout (dt : Nat) (r : Fin 16) (vs : Nat) (s : State) : Res :=
  .next (
    let s := s.psqAdvance dt
    if s.railState r = 4 ∧ (s.railOf r).offAt + 1000 * s.getF (F.PSQ_RAIL_TO_OFF_TO r) ≤ s.psq.now then
      let s := (s.railSense r vs).psqEvent Ev.PSQ_OFF_TIMEOUT r
      s.railIsOff r
    else s)

/-- RAIL_ON (R405, R406, R20): a write of ON to PSQ_RAIL_CTRL[r] travels in the downward frame. -/
def execRailOn (_port : Port) (r : Fin 16) (s : State) : Res := .next (s.dnWrite (R.PSQ_RAIL_CTRL r) 1#32)

/-- RAIL_OFF (R406, R20): a write of OFF travels in the downward frame. -/
def execRailOff (_port : Port) (r : Fin 16) (s : State) : Res := .next (s.dnWrite (R.PSQ_RAIL_CTRL r) 2#32)

/-- MARGIN_WRITE (R413, R20): a write of PSQ_RAIL_MARGIN[r] travels in the downward frame. -/
def execMarginWrite (_port : Port) (r : Fin 16) (w : Word) (s : State) : Res := .next (s.dnWrite (R.PSQ_RAIL_MARGIN r) w)

/-- MARGIN_STEP (R413). -/
def execMarginStep (dt : Nat) (r : Fin 16) (s : State) : Res := .next ((s.psqAdvance dt).marginStep r)

/-- VSTBY_33_FALL (R467, R17, R385): the Drive die is held in reset; journal entries not yet committed are unresolved. (DESIGN CHOICE: log 70) -/
def execVstby33Fall (s : State) : Res :=
  .next (
    let keep := fun (o : Nat) => isKept o && (o / 0x10000 != 0x12 || o == R.PSQ_LAST || o == R.PSQ_FAIL_DOWN)
    (s.restart keep { standby := false } [] s.uncommitted).outputsOff)

end Sys2Proof.Machine
end

