-- ==== Sys2Proof/Machine/Security.lean ====
section
/-! DEFINITION. Machine/Security.lean: the commands of the security block (chapter 19). -/

namespace Sys2Proof.Machine

/-- PROV_GENERATE (R388, R389). -/
def execProvGenerate (key : BitVec 16) (readback : Bool) (s : State) : Res := .next (s.secProv 1 0 key.toNat readback)
/-- PROV_PROGRAM (R388, R389). -/
def execProvProgram (key : BitVec 16) (slot : Fin 4) (readback : Bool) (s : State) : Res := .next (s.secProv 2 slot key.toNat readback)
/-- PROV_LOCK (R388, R389). Whether the burnt fuses read back as they were written is left free. (DESIGN CHOICE: log 61) -/
def execProvLock (key : BitVec 16) (s : State) : Res := .next ((s.drew).secProv 3 0 key.toNat ((s.fresh 1).getLsbD 0))

/-- ROOT_REVOKE (R390). -/
def execRootRevoke (w : Word) (s : State) : Res := .next (s.rootRevoke w)

/-- NEW_CHAL (R399). -/
def execNewChal (s : State) : Res := .next s.newChal

/-- DEBUG_UNLOCK (R399). -/
def execDebugUnlock (s : State) : Res := .next s.unlock

/-- DEBUG_LOCK (R400). -/
def execDebugLock (s : State) : Res := .next s.dbgLock

/-- CONSUMABLE_AUTH (R398): a write of AUTH. (DEDUCED: log 69) -/
def execConsumableAuth (p : Fin 4) (s : State) : Res := .next (s.conStart p)

/-- CONSUMABLE_PERIOD (R398): PERIOD seconds have passed. -/
def execConsumablePeriod (p : Fin 4) (s : State) : Res :=
  .next (
    let n := s.getF (F.SEC_CON_CFG_PERIOD p)
    let t := (s.conOf p).periodAt + n * 200000000
    if n ≠ 0 ∧ t ≤ s.tsc.toNat then (s.updCon p fun c => { c with periodAt := t }).conStart p else s)

/-- I2C_TRANSACTION_DONE (R397). -/
def execI2cTransactionDone (p : Fin 4) (nack : Bool) (data : List Byte) (s : State) : Res := .next (s.conDone p nack data)

/-- STATUS_POLL (R397): every 1 ms, from 1 ms after the challenge. -/
def execStatusPoll (p : Fin 4) (s : State) : Res :=
  .next (
    let c := s.conOf p
    if c.stage = .wait ∧ c.pollAt + 200000 ≤ s.tsc.toNat then
      (s.updCon p fun x => { x with pollAt := c.pollAt + 200000 }).conStage p .status
    else s)

/-- CONSUMABLE_TIMEOUT (R397): a clock stretch longer than SEC_CON_TO, or no readiness within it of the challenge. -/
def execConsumableTimeout (p : Fin 4) (stretch : Bool) (s : State) : Res :=
  .next (
    let c := s.conOf p
    let ms := s.getF (F.SEC_CON_TO p) * 200000
    let due := match c.stage with
      | .idle => false
      | .wait => Nat.ble (c.challAt + ms) s.tsc.toNat
      | .stuck => Nat.ble (c.challAt + ms) s.tsc.toNat
      | .status => (stretch && Nat.ble (c.at_ + ms) s.tsc.toNat) || Nat.ble (c.challAt + ms) s.tsc.toNat
      | _ => stretch && Nat.ble (c.at_ + ms) s.tsc.toNat
    if due then s.conEnd p 7 (s.conSerial p) else s)

/-- RNG_HEALTH_FAIL (R387). -/
def execRngHealthFail (s : State) : Res :=
  .next (if s.rngFail then s else (s.putF F.SEC_STATUS_RNG_FAIL 1).raise Ev.SEC_RNG_FAIL)

end Sys2Proof.Machine
end

