-- ==== Sys2Proof/Machine/Dispatch.lean ====
section
/-! DEFINITION. Machine/Dispatch.lean: one arm per command, each a direct call of its meaning. -/

namespace Sys2Proof.Machine

def exec (i : Instr) (s : State) : Host.Outcome State Fault Refusal :=
  match i with
  | .registerWrite port addr en w => Sys2Proof.Machine.execRegisterWrite port addr en w s
  | .unmappedAccess port addr en isWrite => Sys2Proof.Machine.execUnmappedAccess port addr en isWrite s
  | .readClear port addr en => Sys2Proof.Machine.execReadClear port addr en s
  | .pairLowRead port addr en => Sys2Proof.Machine.execPairLowRead port addr en s
  | .pairHighWrite port addr w => Sys2Proof.Machine.execPairHighWrite port addr w s
  | .powerOnReset porst => Sys2Proof.Machine.execPowerOnReset porst s
  | .systemPllLock => Sys2Proof.Machine.execSystemPllLock s
  | .pllLockTimeout dt => Sys2Proof.Machine.execPllLockTimeout dt s
  | .bridgeTrained => Sys2Proof.Machine.execBridgeTrained s
  | .diePairing => Sys2Proof.Machine.execDiePairing s
  | .pairingTimeout => Sys2Proof.Machine.execPairingTimeout s
  | .sramZeroed monoOk => Sys2Proof.Machine.execSramZeroed monoOk s
  | .dramTraining pass gib rate => Sys2Proof.Machine.execDramTraining pass gib rate s
  | .bootVintageLoad flashOk preloadOk => Sys2Proof.Machine.execBootVintageLoad flashOk preloadOk s
  | .tickBoundary xcmd die => Sys2Proof.Machine.execTickBoundary xcmd die s
  | .upwardFrame cyc corrected ain sc => Sys2Proof.Machine.execUpwardFrame cyc corrected ain sc s
  | .upwardFrameDeadline bad => Sys2Proof.Machine.execUpwardFrameDeadline bad s
  | .downwardFrame corrected => Sys2Proof.Machine.execDownwardFrame corrected s
  | .downwardFrameMissed bad => Sys2Proof.Machine.execDownwardFrameMissed bad s
  | .safeStateExit => Sys2Proof.Machine.execSafeStateExit s
  | .killDnKill => Sys2Proof.Machine.execKillDnKill s
  | .killDnStopPulse => Sys2Proof.Machine.execKillDnStopPulse s
  | .safeUp => Sys2Proof.Machine.execSafeUp s
  | .ilkOpen unit => Sys2Proof.Machine.execIlkOpen unit s
  | .ilkClose unit => Sys2Proof.Machine.execIlkClose unit s
  | .devReset w => Sys2Proof.Machine.execDevReset w s
  | .erstN => Sys2Proof.Machine.execErstN s
  | .functionLevelReset => Sys2Proof.Machine.execFunctionLevelReset s
  | .perstN => Sys2Proof.Machine.execPerstN s
  | .engineReset q e => Sys2Proof.Machine.execEngineReset q e s
  | .engineResetAccept => Sys2Proof.Machine.execEngineResetAccept s
  | .hvResetRampDone => Sys2Proof.Machine.execHvResetRampDone s
  | .engineResetStandstill => Sys2Proof.Machine.execEngineResetStandstill s
  | .axisCoastTimeout a => Sys2Proof.Machine.execAxisCoastTimeout a s
  | .engineResetEmpty => Sys2Proof.Machine.execEngineResetEmpty s
  | .bridgeRetrained => Sys2Proof.Machine.execBridgeRetrained s
  | .bridgeRetrainTimeout => Sys2Proof.Machine.execBridgeRetrainTimeout s
  | .engineResetReload flashOk preloadOk => Sys2Proof.Machine.execEngineResetReload flashOk preloadOk s
  | .vintageLoad q e => Sys2Proof.Machine.execVintageLoad q e s
  | .vintageLoadDone img => Sys2Proof.Machine.execVintageLoadDone img s
  | .vintageCheck q e => Sys2Proof.Machine.execVintageCheck q e s
  | .vintageCheckDone flashOk preloadOk => Sys2Proof.Machine.execVintageCheckDone flashOk preloadOk s
  | .vintageApply q e => Sys2Proof.Machine.execVintageApply q e s
  | .vintageRevert q e => Sys2Proof.Machine.execVintageRevert q e s
  | .stWrite port addr w => Sys2Proof.Machine.execStWrite port addr w s
  | .settingsSwitch => Sys2Proof.Machine.execSettingsSwitch s
  | .wholeApplyIdle => Sys2Proof.Machine.execWholeApplyIdle s
  | .wholeApplySwitch => Sys2Proof.Machine.execWholeApplySwitch s
  | .applyTimeout => Sys2Proof.Machine.execApplyTimeout s
  | .budgetReload => Sys2Proof.Machine.execBudgetReload s
  | .overrun t => Sys2Proof.Machine.execOverrun t s
  | .faultHandover t => Sys2Proof.Machine.execFaultHandover t s
  | .threadRestart port w => Sys2Proof.Machine.execThreadRestart port w s
  | .threadStart => Sys2Proof.Machine.execThreadStart s
  | .waitWake t => Sys2Proof.Machine.execWaitWake t s
  | .timeDeadline t => Sys2Proof.Machine.execTimeDeadline t s
  | .pmemHostWrite addr data => Sys2Proof.Machine.execPmemHostWrite addr data s
  | .dmemHostWrite addr data => Sys2Proof.Machine.execDmemHostWrite addr data s
  | .hostMemAccess => Sys2Proof.Machine.execHostMemAccess s
  | .mbiRelease port m w => Sys2Proof.Machine.execMbiRelease port m w s
  | .seqMboPost port m w => Sys2Proof.Machine.execSeqMboPost port m w s
  | .mboRelease port m w => Sys2Proof.Machine.execMboRelease port m w s
  | .dbgHalt t => Sys2Proof.Machine.execDbgHalt t s
  | .dbgStep t => Sys2Proof.Machine.execDbgStep t s
  | .dbgResume t => Sys2Proof.Machine.execDbgResume t s
  | .add t rd rs1 rs2 => Sys2Proof.Machine.execAdd t rd rs1 rs2 s
  | .sub t rd rs1 rs2 => Sys2Proof.Machine.execSub t rd rs1 rs2 s
  | .and t rd rs1 rs2 => Sys2Proof.Machine.execAnd t rd rs1 rs2 s
  | .or t rd rs1 rs2 => Sys2Proof.Machine.execOr t rd rs1 rs2 s
  | .xor t rd rs1 rs2 => Sys2Proof.Machine.execXor t rd rs1 rs2 s
  | .shl t rd rs1 rs2 => Sys2Proof.Machine.execShl t rd rs1 rs2 s
  | .shr t rd rs1 rs2 => Sys2Proof.Machine.execShr t rd rs1 rs2 s
  | .shra t rd rs1 rs2 => Sys2Proof.Machine.execShra t rd rs1 rs2 s
  | .tlt t rd rs1 rs2 => Sys2Proof.Machine.execTlt t rd rs1 rs2 s
  | .tlo t rd rs1 rs2 => Sys2Proof.Machine.execTlo t rd rs1 rs2 s
  | .adds t rd rs1 rs2 => Sys2Proof.Machine.execAdds t rd rs1 rs2 s
  | .subs t rd rs1 rs2 => Sys2Proof.Machine.execSubs t rd rs1 rs2 s
  | .min t rd rs1 rs2 => Sys2Proof.Machine.execMin t rd rs1 rs2 s
  | .max t rd rs1 rs2 => Sys2Proof.Machine.execMax t rd rs1 rs2 s
  | .mul t rd rs1 rs2 => Sys2Proof.Machine.execMul t rd rs1 rs2 s
  | .mhs t rd rs1 rs2 => Sys2Proof.Machine.execMhs t rd rs1 rs2 s
  | .mhu t rd rs1 rs2 => Sys2Proof.Machine.execMhu t rd rs1 rs2 s
  | .quo t rd rs1 rs2 => Sys2Proof.Machine.execQuo t rd rs1 rs2 s
  | .quou t rd rs1 rs2 => Sys2Proof.Machine.execQuou t rd rs1 rs2 s
  | .mod t rd rs1 rs2 => Sys2Proof.Machine.execMod t rd rs1 rs2 s
  | .modu t rd rs1 rs2 => Sys2Proof.Machine.execModu t rd rs1 rs2 s
  | .addk t rd rs1 imm => Sys2Proof.Machine.execAddk t rd rs1 imm s
  | .tltk t rd rs1 imm => Sys2Proof.Machine.execTltk t rd rs1 imm s
  | .tlok t rd rs1 imm => Sys2Proof.Machine.execTlok t rd rs1 imm s
  | .andk t rd rs1 imm => Sys2Proof.Machine.execAndk t rd rs1 imm s
  | .ork t rd rs1 imm => Sys2Proof.Machine.execOrk t rd rs1 imm s
  | .xork t rd rs1 imm => Sys2Proof.Machine.execXork t rd rs1 imm s
  | .shlk t rd rs1 imm => Sys2Proof.Machine.execShlk t rd rs1 imm s
  | .shrk t rd rs1 imm => Sys2Proof.Machine.execShrk t rd rs1 imm s
  | .shrak t rd rs1 imm => Sys2Proof.Machine.execShrak t rd rs1 imm s
  | .khi t rd imm => Sys2Proof.Machine.execKhi t rd imm s
  | .ifeq t rs1 rs2 imm => Sys2Proof.Machine.execIfeq t rs1 rs2 imm s
  | .ifne t rs1 rs2 imm => Sys2Proof.Machine.execIfne t rs1 rs2 imm s
  | .iflt t rs1 rs2 imm => Sys2Proof.Machine.execIflt t rs1 rs2 imm s
  | .ifge t rs1 rs2 imm => Sys2Proof.Machine.execIfge t rs1 rs2 imm s
  | .iflo t rs1 rs2 imm => Sys2Proof.Machine.execIflo t rs1 rs2 imm s
  | .ifhs t rs1 rs2 imm => Sys2Proof.Machine.execIfhs t rs1 rs2 imm s
  | .call t rd imm => Sys2Proof.Machine.execCall t rd imm s
  | .callr t rd rs1 imm => Sys2Proof.Machine.execCallr t rd rs1 imm s
  | .fadd t fd fs1 fs2 => Sys2Proof.Machine.execFadd t fd fs1 fs2 s
  | .fsub t fd fs1 fs2 => Sys2Proof.Machine.execFsub t fd fs1 fs2 s
  | .fmul t fd fs1 fs2 => Sys2Proof.Machine.execFmul t fd fs1 fs2 s
  | .fdiv t fd fs1 fs2 => Sys2Proof.Machine.execFdiv t fd fs1 fs2 s
  | .fsqrt t fd fs1 => Sys2Proof.Machine.execFsqrt t fd fs1 s
  | .fmin t fd fs1 fs2 => Sys2Proof.Machine.execFmin t fd fs1 fs2 s
  | .fmax t fd fs1 fs2 => Sys2Proof.Machine.execFmax t fd fs1 fs2 s
  | .fabs t fd fs1 => Sys2Proof.Machine.execFabs t fd fs1 s
  | .fneg t fd fs1 => Sys2Proof.Machine.execFneg t fd fs1 s
  | .fceq t rd fs1 fs2 => Sys2Proof.Machine.execFceq t rd fs1 fs2 s
  | .fclt t rd fs1 fs2 => Sys2Proof.Machine.execFclt t rd fs1 fs2 s
  | .fcle t rd fs1 fs2 => Sys2Proof.Machine.execFcle t rd fs1 fs2 s
  | .fitof t fd rs1 => Sys2Proof.Machine.execFitof t fd rs1 s
  | .futof t fd rs1 => Sys2Proof.Machine.execFutof t fd rs1 s
  | .fftoi t rd fs1 towardZero => Sys2Proof.Machine.execFftoi t rd fs1 towardZero s
  | .fftou t rd fs1 towardZero => Sys2Proof.Machine.execFftou t rd fs1 towardZero s
  | .fmovx t rd fs1 => Sys2Proof.Machine.execFmovx t rd fs1 s
  | .fmovf t fd rs1 => Sys2Proof.Machine.execFmovf t fd rs1 s
  | .flim t fd fs1 fs2 => Sys2Proof.Machine.execFlim t fd fs1 fs2 s
  | .fmac t fd fs1 fs2 fs3 => Sys2Proof.Machine.execFmac t fd fs1 fs2 fs3 s
  | .ldw t rd rs1 imm ecc => Sys2Proof.Machine.execLdw t rd rs1 imm ecc s
  | .ldh t rd rs1 imm ecc => Sys2Proof.Machine.execLdh t rd rs1 imm ecc s
  | .ldhu t rd rs1 imm ecc => Sys2Proof.Machine.execLdhu t rd rs1 imm ecc s
  | .ldb t rd rs1 imm ecc => Sys2Proof.Machine.execLdb t rd rs1 imm ecc s
  | .ldbu t rd rs1 imm ecc => Sys2Proof.Machine.execLdbu t rd rs1 imm ecc s
  | .ldf t fd rs1 imm ecc => Sys2Proof.Machine.execLdf t fd rs1 imm ecc s
  | .stw t rs1 rs2 imm => Sys2Proof.Machine.execStw t rs1 rs2 imm s
  | .sth t rs1 rs2 imm => Sys2Proof.Machine.execSth t rs1 rs2 imm s
  | .stb t rs1 rs2 imm => Sys2Proof.Machine.execStb t rs1 rs2 imm s
  | .stf t rs1 fs2 imm => Sys2Proof.Machine.execStf t rs1 fs2 imm s
  | .addm t rd rs1 rs2 ecc => Sys2Proof.Machine.execAddm t rd rs1 rs2 ecc s
  | .portIn t rd rs1 imm => Sys2Proof.Machine.execPortIn t rd rs1 imm s
  | .portOut t rs1 rs2 imm => Sys2Proof.Machine.execPortOut t rs1 rs2 imm s
  | .wait t rd rs1 rs2 => Sys2Proof.Machine.execWait t rd rs1 rs2 s
  | .sig t rs1 imm => Sys2Proof.Machine.execSig t rs1 imm s
  | .tsc t rd => Sys2Proof.Machine.execTsc t rd s
  | .tickn t rd => Sys2Proof.Machine.execTickn t rd s
  | .tcyc t rd => Sys2Proof.Machine.execTcyc t rd s
  | .mova t rd => Sys2Proof.Machine.execMova t rd s
  | .setdl t rs1 => Sys2Proof.Machine.execSetdl t rs1 s
  | .setdla t rs1 rs2 => Sys2Proof.Machine.execSetdla t rs1 rs2 s
  | .brk t => Sys2Proof.Machine.execBrk t s
  | .pick t rd rs1 rs2 => Sys2Proof.Machine.execPick t rd rs1 rs2 s
  | .ldgm t rd rs1 rs2 place own => Sys2Proof.Machine.execLdgm t rd rs1 rs2 place own s
  | .evt t rs1 cls code => Sys2Proof.Machine.execEvt t rs1 cls code s
  | .sqDoorbell q w => Sys2Proof.Machine.execSqDoorbell q w s
  | .cqDoorbell w => Sys2Proof.Machine.execCqDoorbell w s
  | .evrDoorbell w => Sys2Proof.Machine.execEvrDoorbell w s
  | .pageSubmit q e => Sys2Proof.Machine.execPageSubmit q e s
  | .pageDiscard q e => Sys2Proof.Machine.execPageDiscard q e s
  | .pageDiscardAction tag => Sys2Proof.Machine.execPageDiscardAction tag s
  | .meterReport q e => Sys2Proof.Machine.execMeterReport q e s
  | .meterSnapshot => Sys2Proof.Machine.execMeterSnapshot s
  | .mailbox q e payload => Sys2Proof.Machine.execMailbox q e payload s
  | .rinse q e => Sys2Proof.Machine.execRinse q e s
  | .undefinedCommand q e => Sys2Proof.Machine.execUndefinedCommand q e s
  | .msixUnmask v mask => Sys2Proof.Machine.execMsixUnmask v mask s
  | .coalTimeout evr => Sys2Proof.Machine.execCoalTimeout evr s
  | .ringBaseWrite port r high w => Sys2Proof.Machine.execRingBaseWrite port r high w s
  | .ringSizeWrite port r w => Sys2Proof.Machine.execRingSizeWrite port r w s
  | .tickAudits => Sys2Proof.Machine.execTickAudits s
  | .rackingTransactionDone c res => Sys2Proof.Machine.execRackingTransactionDone c res s
  | .completionTimeout c => Sys2Proof.Machine.execCompletionTimeout c s
  | .transferTimeout c => Sys2Proof.Machine.execTransferTimeout c s
  | .channelResume port c w => Sys2Proof.Machine.execChannelResume port c w s
  | .channelAbort port c w => Sys2Proof.Machine.execChannelAbort port c w s
  | .pressPageStart => Sys2Proof.Machine.execPressPageStart s
  | .descriptorCheck desc bands => Sys2Proof.Machine.execDescriptorCheck desc bands s
  | .indexTableCheck plane entries => Sys2Proof.Machine.execIndexTableCheck plane entries s
  | .laneBlockStart raw pre => Sys2Proof.Machine.execLaneBlockStart raw pre s
  | .blockVerify l seen => Sys2Proof.Machine.execBlockVerify l seen s
  | .blockStore l cycles => Sys2Proof.Machine.execBlockStore l cycles s
  | .spaceWaitTimeout => Sys2Proof.Machine.execSpaceWaitTimeout s
  | .admissionEvaluation => Sys2Proof.Machine.execAdmissionEvaluation s
  | .evictionDone => Sys2Proof.Machine.execEvictionDone s
  | .refill => Sys2Proof.Machine.execRefill s
  | .cellarSramError gran uncorrectable => Sys2Proof.Machine.execCellarSramError gran uncorrectable s
  | .primingStart st => Sys2Proof.Machine.execPrimingStart st s
  | .primingDone st => Sys2Proof.Machine.execPrimingDone st s
  | .lineComplete st beam => Sys2Proof.Machine.execLineComplete st beam s
  | .roundFetchStart st => Sys2Proof.Machine.execRoundFetchStart st s
  | .sweepEdge st => Sys2Proof.Machine.execSweepEdge st s
  | .pageGapBegin st => Sys2Proof.Machine.execPageGapBegin st s
  | .lineClockUpdate st => Sys2Proof.Machine.execLineClockUpdate st s
  | .bdPulse st frac => Sys2Proof.Machine.execBdPulse st frac s
  | .bdMissingTimeout st => Sys2Proof.Machine.execBdMissingTimeout st s
  | .dclkLockWindow st dev => Sys2Proof.Machine.execDclkLockWindow st dev s
  | .dclkRefLoss st => Sys2Proof.Machine.execDclkRefLoss st s
  | .dclkRelockTimeout st => Sys2Proof.Machine.execDclkRelockTimeout st s
  | .gridSlewDone st => Sys2Proof.Machine.execGridSlewDone st s
  | .overspeedClear port st => Sys2Proof.Machine.execOverspeedClear port st s
  | .trainAttemptStart st => Sys2Proof.Machine.execTrainAttemptStart st s
  | .trainTimeout st => Sys2Proof.Machine.execTrainTimeout st s
  | .failedRestart st => Sys2Proof.Machine.execFailedRestart st s
  | .trainAck st lockA lockB deskew => Sys2Proof.Machine.execTrainAck st lockA lockB deskew s
  | .status st flags temp crc => Sys2Proof.Machine.execStatus st flags temp crc s
  | .apc st emitter power => Sys2Proof.Machine.execApc st emitter power s
  | .emitter st emitter state => Sys2Proof.Machine.execEmitter st emitter state s
  | .response st tag status data => Sys2Proof.Machine.execResponse st tag status data s
  | .event st kind seq beam segment => Sys2Proof.Machine.execEvent st kind seq beam segment s
  | .returnBlockError st hdr payload block => Sys2Proof.Machine.execReturnBlockError st hdr payload block s
  | .responseTimeout st => Sys2Proof.Machine.execResponseTimeout st s
  | .statusTimeout st => Sys2Proof.Machine.execStatusTimeout st s
  | .alignMarker st => Sys2Proof.Machine.execAlignMarker st s
  | .retrain port st w => Sys2Proof.Machine.execRetrain port st w s
  | .retrainForce port st w => Sys2Proof.Machine.execRetrainForce port st w s
  | .headAccess port st w => Sys2Proof.Machine.execHeadAccess port st w s
  | .lenMismatch st => Sys2Proof.Machine.execLenMismatch st s
  | .lenMismatchClear port st => Sys2Proof.Machine.execLenMismatchClear port st s
  | .hallEdge c code => Sys2Proof.Machine.execHallEdge c code s
  | .quadratureEdge c a b => Sys2Proof.Machine.execQuadratureEdge c a b s
  | .indexEdge c => Sys2Proof.Machine.execIndexEdge c s
  | .indexRearm port c w => Sys2Proof.Machine.execIndexRearm port c w s
  | .positionWrite port c w => Sys2Proof.Machine.execPositionWrite port c w s
  | .probeLatch p rising => Sys2Proof.Machine.execProbeLatch p rising s
  | .probePop port p w => Sys2Proof.Machine.execProbePop port p w s
  | .sensorEdge n rising => Sys2Proof.Machine.execSensorEdge n rising s
  | .comparePulseEnd n => Sys2Proof.Machine.execComparePulseEnd n s
  | .currentLoop => Sys2Proof.Machine.execCurrentLoop s
  | .motEnable port n w => Sys2Proof.Machine.execMotEnable port n w s
  | .motDisable port n w => Sys2Proof.Machine.execMotDisable port n w s
  | .stopRampDone n => Sys2Proof.Machine.execStopRampDone n s
  | .catchSpinTry n => Sys2Proof.Machine.execCatchSpinTry n s
  | .chopperConversion unit code => Sys2Proof.Machine.execChopperConversion unit code s
  | .vglUvlo v mv => Sys2Proof.Machine.execVglUvlo v mv s
  | .bstUvlo h mv => Sys2Proof.Machine.execBstUvlo h mv s
  | .desaturation h high mv onNs => Sys2Proof.Machine.execDesaturation h high mv onNs s
  | .groupClear port g w => Sys2Proof.Machine.execGroupClear port g w s
  | .groupRetry g => Sys2Proof.Machine.execGroupRetry g s
  | .busMonitorConversion unit code => Sys2Proof.Machine.execBusMonitorConversion unit code s
  | .mangleEvaluation => Sys2Proof.Machine.execMangleEvaluation s
  | .moveAbs port a => Sys2Proof.Machine.execMoveAbs port a s
  | .moveRel port a => Sys2Proof.Machine.execMoveRel port a s
  | .jog port a => Sys2Proof.Machine.execJog port a s
  | .table port a => Sys2Proof.Machine.execTable port a s
  | .stop port a => Sys2Proof.Machine.execStop port a s
  | .resume port a => Sys2Proof.Machine.execResume port a s
  | .home port a => Sys2Proof.Machine.execHome port a s
  | .setPos port a => Sys2Proof.Machine.execSetPos port a s
  | .undefinedAxisCommand port a op => Sys2Proof.Machine.execUndefinedAxisCommand port a op s
  | .moveTimeout a => Sys2Proof.Machine.execMoveTimeout a s
  | .stallDetect a => Sys2Proof.Machine.execStallDetect a s
  | .standstillMode a => Sys2Proof.Machine.execStandstillMode a s
  | .limitWrite port a k w => Sys2Proof.Machine.execLimitWrite port a k w s
  | .jwArm port j w => Sys2Proof.Machine.execJwArm port j w s
  | .jwDisarm port j w => Sys2Proof.Machine.execJwDisarm port j w s
  | .jamWindowExpired j => Sys2Proof.Machine.execJamWindowExpired j s
  | .slotList => Sys2Proof.Machine.execSlotList s
  | .slotReset port n => Sys2Proof.Machine.execSlotReset port n s
  | .slotReload port n => Sys2Proof.Machine.execSlotReload port n s
  | .injectionGo port g w => Sys2Proof.Machine.execInjectionGo port g w s
  | .injectionStop port g w => Sys2Proof.Machine.execInjectionStop port g w s
  | .injectionEnd g => Sys2Proof.Machine.execInjectionEnd g s
  | .captureArm port w => Sys2Proof.Machine.execCaptureArm port w s
  | .captureStop port w => Sys2Proof.Machine.execCaptureStop port w s
  | .captureSample => Sys2Proof.Machine.execCaptureSample s
  | .captureTransfer port w => Sys2Proof.Machine.execCaptureTransfer port w s
  | .captureTransferDone => Sys2Proof.Machine.execCaptureTransferDone s
  | .thermistorSample n code => Sys2Proof.Machine.execThermistorSample n code s
  | .thermistorFlagClear port n w => Sys2Proof.Machine.execThermistorFlagClear port n w s
  | .mainsSyncEdge => Sys2Proof.Machine.execMainsSyncEdge s
  | .mainsLostTimeout => Sys2Proof.Machine.execMainsLostTimeout s
  | .zeroCrossing positive => Sys2Proof.Machine.execZeroCrossing positive s
  | .heaterDriverFault h low => Sys2Proof.Machine.execHeaterDriverFault h low s
  | .heaterClear port h w => Sys2Proof.Machine.execHeaterClear port h w s
  | .hvRegulate c mon aux => Sys2Proof.Machine.execHvRegulate c mon aux s
  | .hvAcCycle c mean aux amplitude => Sys2Proof.Machine.execHvAcCycle c mean aux amplitude s
  | .hvEnable port c w => Sys2Proof.Machine.execHvEnable port c w s
  | .hvDisable port c w => Sys2Proof.Machine.execHvDisable port c w s
  | .hvClear port c w => Sys2Proof.Machine.execHvClear port c w s
  | .hvRampDownDone c => Sys2Proof.Machine.execHvRampDownDone c s
  | .spoil port id => Sys2Proof.Machine.execSpoil port id s
  | .journalCommit => Sys2Proof.Machine.execJournalCommit s
  | .rinseClear port => Sys2Proof.Machine.execRinseClear port s
  | .rinseFail port => Sys2Proof.Machine.execRinseFail port s
  | .rinseTimeout => Sys2Proof.Machine.execRinseTimeout s
  | .provGenerate key readback => Sys2Proof.Machine.execProvGenerate key readback s
  | .provProgram key slot readback => Sys2Proof.Machine.execProvProgram key slot readback s
  | .provLock key => Sys2Proof.Machine.execProvLock key s
  | .rootRevoke w => Sys2Proof.Machine.execRootRevoke w s
  | .newChal => Sys2Proof.Machine.execNewChal s
  | .debugUnlock => Sys2Proof.Machine.execDebugUnlock s
  | .debugLock => Sys2Proof.Machine.execDebugLock s
  | .consumableAuth p => Sys2Proof.Machine.execConsumableAuth p s
  | .consumablePeriod p => Sys2Proof.Machine.execConsumablePeriod p s
  | .i2cTransactionDone p nack data => Sys2Proof.Machine.execI2cTransactionDone p nack data s
  | .statusPoll p => Sys2Proof.Machine.execStatusPoll p s
  | .consumableTimeout p stretch => Sys2Proof.Machine.execConsumableTimeout p stretch s
  | .rngHealthFail => Sys2Proof.Machine.execRngHealthFail s
  | .acOkRise dt => Sys2Proof.Machine.execAcOkRise dt s
  | .acOkFall dt => Sys2Proof.Machine.execAcOkFall dt s
  | .railGood dt r vs pg head test => Sys2Proof.Machine.execRailGood dt r vs pg head test s
  | .railGoodLost dt r vs pg => Sys2Proof.Machine.execRailGoodLost dt r vs pg s
  | .pgTimeout dt r vs => Sys2Proof.Machine.execPgTimeout dt r vs s
  | .railBelowOff dt r vs => Sys2Proof.Machine.execRailBelowOff dt r vs s
  | .offTimeout dt r vs => Sys2Proof.Machine.execOffTimeout dt r vs s
  | .minOffElapsed dt => Sys2Proof.Machine.execMinOffElapsed dt s
  | .powerDownRailStart dt => Sys2Proof.Machine.execPowerDownRailStart dt s
  | .railOn port r => Sys2Proof.Machine.execRailOn port r s
  | .railOff port r => Sys2Proof.Machine.execRailOff port r s
  | .marginWrite port r w => Sys2Proof.Machine.execMarginWrite port r w s
  | .marginStep dt r => Sys2Proof.Machine.execMarginStep dt r s
  | .evrCopy => Sys2Proof.Machine.execEvrCopy s
  | .portUp p => Sys2Proof.Machine.execPortUp p s
  | .chnFrame p f => Sys2Proof.Machine.execChnFrame p f s
  | .alignDeclared headTick => Sys2Proof.Machine.execAlignDeclared headTick s
  | .portDownTimeout p => Sys2Proof.Machine.execPortDownTimeout p s
  | .enum p offered => Sys2Proof.Machine.execEnum p offered s
  | .enumEnd p units => Sys2Proof.Machine.execEnumEnd p units s
  | .offer p src id spoiled size colour tag1 tag2 => Sys2Proof.Machine.execOffer p src id spoiled size colour tag1 tag2 s
  | .accept p src id => Sys2Proof.Machine.execAccept p src id s
  | .refuse p src id reason => Sys2Proof.Machine.execRefuse p src id reason s
  | .commit p src id => Sys2Proof.Machine.execCommit p src id s
  | .abort p src id => Sys2Proof.Machine.execAbort p src id s
  | .resolve p src id => Sys2Proof.Machine.execResolve p src id s
  | .alarm p src cause alarmPort => Sys2Proof.Machine.execAlarm p src cause alarmPort s
  | .user p src payload => Sys2Proof.Machine.execUser p src payload s
  | .handoverTimeout id => Sys2Proof.Machine.execHandoverTimeout id s
  | .resolveTimer id => Sys2Proof.Machine.execResolveTimer id s
  | .coordinatedStop p src => Sys2Proof.Machine.execCoordinatedStop p src s
  | .stopSend port => Sys2Proof.Machine.execStopSend port s
  | .userPost port dest => Sys2Proof.Machine.execUserPost port dest s
  | .userPop port p => Sys2Proof.Machine.execUserPop port p s
  | .undefinedEncoding t ecc => Sys2Proof.Machine.execUndefinedEncoding t ecc s
  | .retLock st => Sys2Proof.Machine.execRetLock st s
  | .vstby33Fall => Sys2Proof.Machine.execVstby33Fall s
  | .uvloRisingThreshold u mv => Sys2Proof.Machine.execUvloRisingThreshold u mv s

end Sys2Proof.Machine
end

