-- ==== Sys2Proof/Machine/Clock.lean ====
section
/-! DEFINITION. Machine/Clock.lean: one main-clock cycle of the block when no command waits: the issue port fetches and
performs instructions from program memory (R49–R53, R73–R79), waits end, host accesses to sequencer memory are served and
one event is issued. -/

namespace Sys2Proof.Machine

/-- What performing it answers. (DESIGN CHOICE: log 7) -/
def State.runInstr (s : State) (t : Fin 16) : Option Instr → Res
  | some i => exec i s
  | none => execUndefinedEncoding t .clean s

/-- Would the thread take a grant in this cycle (R50, R51, R71)? -/
def State.wants (s : State) (t : Fin 16) : Bool :=
  let h := s.thr t
  (h.st == .eligible || (h.st == .debugHalted && !h.susp && h.back == .eligible && h.step))
    && Nat.ble h.readyAt s.tsc.toNat && Nat.ble 200 s.cycle && Nat.blt s.cycle 3800
    && (Nat.blt 0 h.owed || Nat.ble (s.costOf (s.nextInstr t)) h.budget)

/-- The thread that the issue port grants: the first after the previous one, in ascending number (R50). (DESIGN CHOICE: log 1) -/
def State.grantee (s : State) : Option (Fin 16) :=
  ((List.range 16).map fun k => Fin.ofNat 16 (s.seq.lastGrant.val + 1 + k)).find? fun t => s.wants t

/-- One grant: an instruction of cost c is charged at its first grant and performed at its last (R51, R77, R78). -/
def State.grantTo (s : State) (t : Fin 16) : State :=
  let h := s.thr t
  let s := { s with seq := { s.seq with lastGrant := t } }
  let i := s.nextInstr t
  if 1 < h.owed then s.setThr t { h with owed := h.owed - 1 }
  else if h.owed = 1 then
    let s := s.setThr t { h with owed := 0 }
    s.take (s.runInstr t i)
  else
    let c := s.costOf i
    if c ≤ 1 then s.take (s.runInstr t i)
    else s.setThr t { h with budget := h.budget - c, used := h.used + c, prepaid := c, owed := c - 1 }

/-- The issue port in this cycle. (DESIGN CHOICE: log 1) -/
def State.issuePort (s : State) : State :=
  match s.grantee with
  | some t => s.grantTo t
  | none => s

/-- A thread that cannot issue its next instruction within its budget is pre-empted at once (R52). (DESIGN CHOICE: log 1) -/
def State.stall (s : State) (n : Nat) : State :=
  let t : Fin 16 := Fin.ofNat 16 n
  let h := s.thr t
  if h.st = .eligible ∧ h.ovrThisTick = false ∧ h.owed = 0 ∧ h.readyAt ≤ s.tsc.toNat ∧ 200 ≤ s.cycle ∧ s.cycle < 3800
      ∧ h.budget < s.costOf (s.nextInstr t) then s.overrunThr t
  else s

/-- A thread that is still eligible at cycle 3,800 overruns (R52). -/
def State.overAtEnd (s : State) (n : Nat) : State :=
  let t : Fin 16 := Fin.ofNat 16 n
  if (s.thr t).st = .eligible ∧ (s.thr t).ovrThisTick = false ∧ (s.thr t).readyAt ≤ s.tsc.toNat then s.overrunThr t else s

/-- What happens when TSC has moved to the next cycle: the reload at cycle 200, overruns at cycle 3,800, and host accesses in
the reserved cycles (R49, R51, R52, R60). (DESIGN CHOICE: log 1) -/
def State.cycleBegins (s : State) : State :=
  let s := if s.cycle = 200 then s.budgetReload else if s.cycle = 3800 then s.forEach 16 State.overAtEnd else s
  if s.reserved then serveMem s.seq.waiting s else s

/-- One main-clock cycle. TSC runs while the system PLL is locked (R15); it holds at the last cycle of a tick until the
TICK_BOUNDARY command. (DESIGN CHOICE: log 1, 6) -/
def State.clock (s : State) : State :=
  if s.psq.core && s.psq.pll && s.cycle != 3999 then
    let s := (s.issuePort).issueOne
    let s := s.forEach 16 fun a n => a.wake (Fin.ofNat 16 n)
    let s := s.forEach 16 State.stall
    (s.setTsc (s.tsc + 1#64)).cycleBegins
  else s

end Sys2Proof.Machine
end

