-- ==== Sys2Proof/Safety.lean ====
section
/-! DEFINITION. Safety.lean: the terms claims use: what a retired instruction leaves, what an event that arose is, the
canonical form of memories and registers, and what the block's safe conditions are. -/

namespace Sys2Proof.Machine

/-! ## Memories and registers in canonical form -/

/-- The five memory windows hold no byte twice and no byte that reads 0 anyway. -/
def Mem.wf (m : Mem) : Bool :=
  SMap.wf (fun _ => (0#8 : Byte)) m.pmem && SMap.wf (fun _ => (0#8 : Byte)) m.dmem && SMap.wf (fun _ => (0#8 : Byte)) m.coef
    && SMap.wf (fun _ => (0#8 : Byte)) m.expo && SMap.wf (fun _ => (0#8 : Byte)) m.capture

/-- The register bank, the staging bank and the image of the Drive die hold no word twice and no word equal to its reset word. -/
def State.regsWf (s : State) : Bool := SMap.wf resetWord s.regs && SMap.wf resetWord s.stage && SMap.wf resetWord s.up

/-! ## Instructions -/

/-- The thread after an instruction of cost `c` that continues at index `pc`: the charge of R51 and the advance of R79 beside the
instruction's own effect, which `h` already holds. -/
def Thread.retire (h : Thread) (c pc : Nat) : Thread :=
  { h with pc := pc, budget := h.budget - (c - h.prepaid), used := h.used + (c - h.prepaid), prepaid := 0, owed := 0, step := false }

/-- The state in which thread `t` alone has changed, to `h`, and is the last thread granted. -/
def State.granted (s : State) (t : Fin 16) (h : Thread) : State :=
  { s with seq := { s.seq with thr := s.seq.thr.set t h, lastGrant := t } }

/-- A thread may issue an instruction of cost `c`, and is not at the last index of program memory. -/
abbrev State.ready (s : State) (t : Fin 16) (c : Nat) : Prop := s.canIssue t c = true ∧ (s.thr t).pc + 1 < 65536

/-- The command answers the state in which its thread has retired an instruction of cost `c` that writes `v` to xrd; x0 stays 0. -/
def XResult (s : State) (i : Instr) (t : Fin 16) (c : Nat) (rd : Fin 16) (v : Word) : Prop :=
  exec i s = .next (s.granted t (((s.thr t).wx rd v).retire c ((s.thr t).pc + 1)))

/-- The same with an f register. -/
def FResult (s : State) (i : Instr) (t : Fin 16) (c : Nat) (fd : Fin 8) (v : F32) : Prop :=
  exec i s = .next (s.granted t (((s.thr t).wf fd v).retire c ((s.thr t).pc + 1)))

/-- The command answers the state in which its thread alone has changed, to `h` retired at the next index. -/
def TResult (s : State) (i : Instr) (t : Fin 16) (c : Nat) (h : Thread) : Prop :=
  exec i s = .next (s.granted t (h.retire c ((s.thr t).pc + 1)))

/-- The command answers the state in which its thread has gone to `pc`. -/
def Jumps (s : State) (i : Instr) (t : Fin 16) (c pc : Nat) : Prop :=
  exec i s = .next (s.granted t ((s.thr t).retire c pc))

/-! ## Commands -/

/-- The command answers a next state, and that state is as `p` says. -/
def Leads (s : State) (c : Instr) (p : State → Prop) : Prop := ∃ t, exec c s = .next t ∧ p t

/-- The entries of the completion queue, in the order they were made, those that still wait for channel 0 at the end: the
phase bit is the ring's. -/
def State.answers (s : State) : List CqEntry := (s.host.cq ++ s.host.cqHeld).map fun e => { e with phase := false }

/-- From `s` to `t` one completion is added, of command `cid` and with status `st`. -/
def State.Answered (s t : State) (cid : BitVec 16) (st : Status) : Prop :=
  ∃ e, t.answers = s.answers ++ [e] ∧ e.cid = cid ∧ e.status = st ∧ e.retire = false

/-! ## Which commands can change what -/

/-- The commands that can write a memory window: the bus writes, the stores of a thread, the host's accesses to sequencer memory, the
slot list (its repetitive controllers learn), the capture, the switch of a whole apply, and the loss of the Core die. -/
def writesMemory : Instr → Bool
  | .registerWrite .. => true
  | .portOut .. => true
  | .stw .. => true
  | .sth .. => true
  | .stb .. => true
  | .stf .. => true
  | .addm .. => true
  | .pmemHostWrite .. => true
  | .dmemHostWrite .. => true
  | .hostMemAccess => true
  | .slotList => true
  | .captureSample => true
  | .wholeApplySwitch => true
  | .pllLockTimeout .. => true
  | .powerOnReset .. => true
  | .acOkFall .. => true
  | .powerDownRailStart .. => true
  | .railGoodLost .. => true
  | .pgTimeout .. => true
  | .railBelowOff .. => true
  | .offTimeout .. => true
  | .vstby33Fall .. => true
  | _ => false

/-- The commands that can burn a fuse: the provisioning commands, and a write that reaches their registers. -/
def burnsFuses : Instr → Bool
  | .registerWrite .. => true
  | .portOut .. => true
  | .pairHighWrite .. => true
  | .provGenerate .. => true
  | .provProgram .. => true
  | .provLock .. => true
  | .rootRevoke .. => true
  | _ => false

/-- The commands that can move TSC: those that take time, the lock of the system PLL, and the loss of the Core die. -/
def movesTime : Instr → Bool
  | .systemPllLock => true
  | .tickBoundary .. => true
  | .upwardFrame .. => true
  | .upwardFrameDeadline .. => true
  | .downwardFrame .. => true
  | .tickAudits => true
  | .budgetReload => true
  | .lineClockUpdate .. => true
  | .pllLockTimeout .. => true
  | .powerOnReset .. => true
  | .acOkFall .. => true
  | .powerDownRailStart .. => true
  | .railGoodLost .. => true
  | .pgTimeout .. => true
  | .railBelowOff .. => true
  | .offTimeout .. => true
  | .vstby33Fall .. => true
  | _ => false

/-! ## Events -/

/-- An event of this identity waits for its issue, stamped with this cycle. -/
def State.Arisen (s : State) (id : EvId) (inst : Nat) : Prop :=
  ∃ e ∈ s.ev.arisen, e.cls = id.cls ∧ e.block = id.block ∧ e.code = id.code ∧ e.inst = inst ∧ e.tsc = s.tsc

end Sys2Proof.Machine
end

