-- ==== Sys2Proof/Certificates/Slice0/Obligations.lean ====
section
/-! DEFINITION. Certificates/Slice0/Obligations.lean: the statements for the provers. -/

open Sys2Proof Sys2Proof.Machine

/-- A step takes the command at the front of the queue and is that command's effect on the state with the queue's rest. -/
def Obligations.StepRunsTheFrontCommand : Prop :=
  ∀ (s : State) (c : Instr) (rest : List Instr),
    (s.pending = c :: rest → step s = exec c { s with pending := rest })
    ∧ step { s with pending := c :: rest } = exec c { s with pending := rest }

/-- The model's own choice (log entry 1): with no command waiting, a step is one main-clock cycle. TSC counts it while the
Core die is powered, the system PLL is locked and the cycle is not the last of its tick (R15); otherwise nothing changes. The queue
stays empty. -/
def Obligations.IdleStepsCountTheMainClock : Prop :=
  ∀ s : State, s.pending = [] →
    (s.psq.core = true → s.psq.pll = true → s.tsc.toNat % 4000 ≠ 3999 →
      ∃ t, step s = .next t ∧ t.tsc = s.tsc + 1#64 ∧ t.pending = [])
    ∧ (s.psq.core = false ∨ s.psq.pll = false ∨ s.tsc.toNat % 4000 = 3999 → step s = .next s)

/-- Right after reset no command waits, TSC is 0 (R15), every register reads its reset word, among them the boost words of MOV_STP_BOOST as
chapter 15 gives them, the memory windows hold nothing and are canonical, and no thread runs. (The words that the spec leaves to a
vintage, and what it does not state, are the model's choice: log entry 2.) -/
def Obligations.ResetLeavesTheStatedState : Prop :=
  State.reset.pending = [] ∧ State.reset.tsc = 0#64 ∧ (∀ off, State.reset.getR off = resetWord off)
    ∧ (∀ a : Fin 20, State.reset.getF (F.MOV_STP_BOOST_CAP a) = 150 ∧ State.reset.getF (F.MOV_STP_BOOST_STEP a) = 10
        ∧ State.reset.getF (F.MOV_STP_BOOST_DELTA_BOOST a) = 60 ∧ State.reset.getF (F.MOV_STP_BOOST_DELTA_STALL a) = 90)
    ∧ State.reset.mem.wf = true ∧ State.reset.regsWf = true ∧ (∀ a, rdByte State.reset.mem.dmem a = 0#8)
    ∧ ∀ t, (State.reset.thr t).st = .disabled ∧ (State.reset.thr t).pend = 0#64

/-- No command faults or is refused, and none touches the queue: what waits behind a command is what was there. -/
def Obligations.EveryCommandCompletesAndLeavesTheQueue : Prop :=
  ∀ (c : Instr) (s : State), ∃ t, exec c s = .next t ∧ t.pending = s.pending

/-- Whatever a command does, only the commands that Safety.lean names as its writers change a memory window, a fuse or TSC: every byte
of every window, every fuse and the time stay as they were under all others. -/
def Obligations.OnlyTheirWritersChangeMemoriesFusesAndTime : Prop :=
  ∀ (c : Instr) (s t : State), exec c s = .next t →
    (writesMemory c = false → t.mem = s.mem) ∧ (burnsFuses c = false → t.fuse = s.fuse) ∧ (movesTime c = false → t.tsc = s.tsc)

/-- An invariant of every step: canonical memories stay canonical, whatever command is at the front, and in an idle cycle. -/
def Obligations.EveryStepKeepsMemoriesCanonical : Prop :=
  ∀ s t : State, s.mem.wf = true → step s = .next t → t.mem.wf = true

/-- R74, R79, R80, R81, Table 4-2: every register form and every constant form of the integer instructions writes the value of its
operation to rd at its cost, x0 staying 0, and changes nothing else, in a thread that may issue it. -/
def Obligations.IntegerInstructionsWriteTheirResult : Prop :=
  ∀ (s : State) (t rd rs1 rs2 : Fin 16) (imm : BitVec 18) (k : BitVec 5) (wide : BitVec 22),
    (s.ready t 1 →
    XResult s (.add t rd rs1 rs2) t 1 rd ((s.rx t rs1) + (s.rx t rs2))
    ∧ XResult s (.sub t rd rs1 rs2) t 1 rd ((s.rx t rs1) - (s.rx t rs2))
    ∧ XResult s (.and t rd rs1 rs2) t 1 rd ((s.rx t rs1) &&& (s.rx t rs2))
    ∧ XResult s (.or t rd rs1 rs2) t 1 rd ((s.rx t rs1) ||| (s.rx t rs2))
    ∧ XResult s (.xor t rd rs1 rs2) t 1 rd ((s.rx t rs1) ^^^ (s.rx t rs2))
    ∧ XResult s (.shl t rd rs1 rs2) t 1 rd ((s.rx t rs1) <<< ((s.rx t rs2).toNat % 32))
    ∧ XResult s (.shr t rd rs1 rs2) t 1 rd ((s.rx t rs1) >>> ((s.rx t rs2).toNat % 32))
    ∧ XResult s (.shra t rd rs1 rs2) t 1 rd ((s.rx t rs1).sshiftRight ((s.rx t rs2).toNat % 32))
    ∧ XResult s (.tlt t rd rs1 rs2) t 1 rd (if (s.rx t rs1).toInt < (s.rx t rs2).toInt then 1#32 else 0#32)
    ∧ XResult s (.tlo t rd rs1 rs2) t 1 rd (if (s.rx t rs1).toNat < (s.rx t rs2).toNat then 1#32 else 0#32)
    ∧ XResult s (.adds t rd rs1 rs2) t 1 rd (BitVec.ofInt 32 (max (-2147483648) (min 2147483647 ((s.rx t rs1).toInt + (s.rx t rs2).toInt))))
    ∧ XResult s (.subs t rd rs1 rs2) t 1 rd (BitVec.ofInt 32 (max (-2147483648) (min 2147483647 ((s.rx t rs1).toInt - (s.rx t rs2).toInt))))
    ∧ XResult s (.min t rd rs1 rs2) t 1 rd (if (s.rx t rs1).toInt ≤ (s.rx t rs2).toInt then (s.rx t rs1) else (s.rx t rs2))
    ∧ XResult s (.max t rd rs1 rs2) t 1 rd (if (s.rx t rs1).toInt ≤ (s.rx t rs2).toInt then (s.rx t rs2) else (s.rx t rs1))
    ∧ XResult s (.mul t rd rs1 rs2) t 1 rd (BitVec.ofNat 32 ((s.rx t rs1).toNat * (s.rx t rs2).toNat))
    ∧ XResult s (.mhs t rd rs1 rs2) t 1 rd (BitVec.ofInt 32 ((s.rx t rs1).toInt * (s.rx t rs2).toInt / 4294967296))
    ∧ XResult s (.mhu t rd rs1 rs2) t 1 rd (BitVec.ofNat 32 ((s.rx t rs1).toNat * (s.rx t rs2).toNat / 4294967296)))
    ∧ (s.ready t 8 →
    XResult s (.quo t rd rs1 rs2) t 8 rd (if (s.rx t rs2) = 0#32 then (if (s.rx t rs1).toInt < 0 then 0x80000000#32 else 0x7FFFFFFF#32) else BitVec.ofInt 32 (min 2147483647 ((s.rx t rs1).toInt.tdiv (s.rx t rs2).toInt)))
    ∧ XResult s (.quou t rd rs1 rs2) t 8 rd (if (s.rx t rs2) = 0#32 then 0xFFFFFFFF#32 else BitVec.ofNat 32 ((s.rx t rs1).toNat / (s.rx t rs2).toNat))
    ∧ XResult s (.mod t rd rs1 rs2) t 8 rd (if (s.rx t rs2) = 0#32 then (s.rx t rs1) else BitVec.ofInt 32 ((s.rx t rs1).toInt.tmod (s.rx t rs2).toInt))
    ∧ XResult s (.modu t rd rs1 rs2) t 8 rd (if (s.rx t rs2) = 0#32 then (s.rx t rs1) else BitVec.ofNat 32 ((s.rx t rs1).toNat % (s.rx t rs2).toNat)))
    ∧ (s.ready t 1 →
    XResult s (.addk t rd rs1 imm) t 1 rd ((s.rx t rs1) + imm.signExtend 32)
    ∧ XResult s (.tltk t rd rs1 imm) t 1 rd (if (s.rx t rs1).toInt < (imm.signExtend 32).toInt then 1#32 else 0#32)
    ∧ XResult s (.tlok t rd rs1 imm) t 1 rd (if (s.rx t rs1).toNat < (imm.signExtend 32).toNat then 1#32 else 0#32)
    ∧ XResult s (.andk t rd rs1 imm) t 1 rd ((s.rx t rs1) &&& imm.zeroExtend 32)
    ∧ XResult s (.ork t rd rs1 imm) t 1 rd ((s.rx t rs1) ||| imm.zeroExtend 32)
    ∧ XResult s (.xork t rd rs1 imm) t 1 rd ((s.rx t rs1) ^^^ imm.zeroExtend 32)
    ∧ XResult s (.shlk t rd rs1 k) t 1 rd ((s.rx t rs1) <<< k.toNat)
    ∧ XResult s (.shrk t rd rs1 k) t 1 rd ((s.rx t rs1) >>> k.toNat)
    ∧ XResult s (.shrak t rd rs1 k) t 1 rd ((s.rx t rs1).sshiftRight k.toNat)
    ∧ XResult s (.khi t rd wide) t 1 rd (wide ++ 0#10))

/-- R76, R79, Table 4-2: a branch goes to PC + imm at a cost of 2 where its comparison holds, and on to the next instruction at a
cost of 1 where it does not. -/
def Obligations.BranchesGoWhereTheirComparisonSays : Prop :=
  ∀ (s : State) (t rs1 rs2 : Fin 16) (imm : BitVec 18) (i : Instr) (taken : Bool),
    ((i = .ifeq t rs1 rs2 imm ∧ taken = decide (s.rx t rs1 = s.rx t rs2))
      ∨ (i = .ifne t rs1 rs2 imm ∧ taken = decide (s.rx t rs1 ≠ s.rx t rs2))
      ∨ (i = .iflt t rs1 rs2 imm ∧ taken = decide ((s.rx t rs1).toInt < (s.rx t rs2).toInt))
      ∨ (i = .ifge t rs1 rs2 imm ∧ taken = decide ((s.rx t rs2).toInt ≤ (s.rx t rs1).toInt))
      ∨ (i = .iflo t rs1 rs2 imm ∧ taken = decide ((s.rx t rs1).toNat < (s.rx t rs2).toNat))
      ∨ (i = .ifhs t rs1 rs2 imm ∧ taken = decide ((s.rx t rs2).toNat ≤ (s.rx t rs1).toNat))) →
    (taken = true → s.canIssue t 2 = true → (BitVec.ofNat 32 (s.thr t).pc + imm.signExtend 32).toNat < 65536 →
      Jumps s i t 2 (BitVec.ofNat 32 (s.thr t).pc + imm.signExtend 32).toNat)
    ∧ (taken = false → s.ready t 1 → Jumps s i t 1 ((s.thr t).pc + 1))

/-- R79, R80: CALL and CALLR write the index of the following instruction and go to their target, rs1 being read before rd is
written. -/
def Obligations.CallsLinkAndJump : Prop :=
  ∀ (s : State) (t rd rs1 : Fin 16) (imm : BitVec 18) (wide : BitVec 22), s.canIssue t 2 = true →
    ((BitVec.ofNat 32 (s.thr t).pc + wide.signExtend 32).toNat < 65536 →
      exec (.call t rd wide) s = .next (s.granted t (((s.thr t).wx rd (BitVec.ofNat 32 ((s.thr t).pc + 1))).retire 2
        (BitVec.ofNat 32 (s.thr t).pc + wide.signExtend 32).toNat)))
    ∧ ((s.rx t rs1 + imm.signExtend 32).toNat < 65536 →
      exec (.callr t rd rs1 imm) s = .next (s.granted t (((s.thr t).wx rd (BitVec.ofNat 32 ((s.thr t).pc + 1))).retire 2
        (s.rx t rs1 + imm.signExtend 32).toNat)))

/-- R81: the corners of division, and no integer instruction faults, whatever its operands. -/
def Obligations.DivisionCornersSaturate : Prop :=
  (∀ a : Word, 0 ≤ a.toInt → quo a 0#32 = 0x7FFFFFFF#32) ∧ (∀ a : Word, a.toInt < 0 → quo a 0#32 = 0x80000000#32)
    ∧ (∀ a : Word, quou a 0#32 = 0xFFFFFFFF#32) ∧ (∀ a : Word, modS a 0#32 = a ∧ modU a 0#32 = a)
    ∧ quo 0x80000000#32 0xFFFFFFFF#32 = 0x7FFFFFFF#32 ∧ modS 0x80000000#32 0xFFFFFFFF#32 = 0#32
    ∧ (∀ a b : Word, b ≠ 0#32 → ¬ (a = 0x80000000#32 ∧ b = 0xFFFFFFFF#32) →
        (quo a b).toInt = a.toInt.tdiv b.toInt ∧ (modS a b).toInt = a.toInt.tmod b.toInt)
    ∧ ∀ (s : State) (t rd rs1 rs2 : Fin 16), s.ready t 8 →
        XResult s (.quo t rd rs1 rs2) t 8 rd (quo (s.rx t rs1) (s.rx t rs2))
        ∧ XResult s (.quou t rd rs1 rs2) t 8 rd (quou (s.rx t rs1) (s.rx t rs2))
        ∧ XResult s (.mod t rd rs1 rs2) t 8 rd (modS (s.rx t rs1) (s.rx t rs2))
        ∧ XResult s (.modu t rd rs1 rs2) t 8 rd (modU (s.rx t rs1) (s.rx t rs2))
    ∧ ∀ (s : State) (t rd rs1 rs2 : Fin 16) (imm : BitVec 18) (k : BitVec 5) (wide : BitVec 22), (s.thr t).pc + 1 < 65536 →
        ∀ i ∈ [Instr.add t rd rs1 rs2, .sub t rd rs1 rs2, .and t rd rs1 rs2, .or t rd rs1 rs2, .xor t rd rs1 rs2,
            .shl t rd rs1 rs2, .shr t rd rs1 rs2, .shra t rd rs1 rs2, .tlt t rd rs1 rs2, .tlo t rd rs1 rs2, .adds t rd rs1 rs2,
            .subs t rd rs1 rs2, .min t rd rs1 rs2, .max t rd rs1 rs2, .mul t rd rs1 rs2, .mhs t rd rs1 rs2, .mhu t rd rs1 rs2,
            .quo t rd rs1 rs2, .quou t rd rs1 rs2, .mod t rd rs1 rs2, .modu t rd rs1 rs2, .addk t rd rs1 imm, .tltk t rd rs1 imm,
            .tlok t rd rs1 imm, .andk t rd rs1 imm, .ork t rd rs1 imm, .xork t rd rs1 imm, .shlk t rd rs1 k, .shrk t rd rs1 k,
            .shrak t rd rs1 k, .khi t rd wide],
          ∃ u, exec i s = .next u ∧ (u.thr t).st = (s.thr t).st ∧ (u.thr t).fault = (s.thr t).fault

/-- R82, Table 4-3: the binary32 instructions write the value of their operation, at the cost of the table. -/
def Obligations.FloatInstructionsWriteTheirResult : Prop :=
  ∀ (s : State) (t x : Fin 16) (fd a b c : Fin 8) (z : Bool),
    (s.ready t 1 →
      FResult s (.fadd t fd a b) t 1 fd (F32.add (s.rf t a) (s.rf t b))
      ∧ FResult s (.fsub t fd a b) t 1 fd (F32.sub (s.rf t a) (s.rf t b))
      ∧ FResult s (.fmul t fd a b) t 1 fd (F32.mul (s.rf t a) (s.rf t b))
      ∧ FResult s (.fmin t fd a b) t 1 fd (F32.fmin (s.rf t a) (s.rf t b))
      ∧ FResult s (.fmax t fd a b) t 1 fd (F32.fmax (s.rf t a) (s.rf t b))
      ∧ FResult s (.flim t fd a b) t 1 fd (F32.lim (s.rf t a) (s.rf t b))
      ∧ FResult s (.fabs t fd a) t 1 fd (s.rf t a &&& 0x7FFFFFFF#32)
      ∧ FResult s (.fneg t fd a) t 1 fd (s.rf t a ^^^ 0x80000000#32)
      ∧ XResult s (.fceq t x a b) t 1 x (if F32.eq (s.rf t a) (s.rf t b) then 1#32 else 0#32)
      ∧ XResult s (.fclt t x a b) t 1 x (if F32.lt (s.rf t a) (s.rf t b) then 1#32 else 0#32)
      ∧ XResult s (.fcle t x a b) t 1 x (if F32.le (s.rf t a) (s.rf t b) then 1#32 else 0#32)
      ∧ FResult s (.fitof t fd x) t 1 fd (F32.ofInt (s.rx t x).toInt)
      ∧ FResult s (.futof t fd x) t 1 fd (F32.ofNat (s.rx t x).toNat)
      ∧ XResult s (.fftoi t x a z) t 1 x (F32.toI32 z (s.rf t a))
      ∧ XResult s (.fftou t x a z) t 1 x (F32.toU32 z (s.rf t a))
      ∧ XResult s (.fmovx t x a) t 1 x (s.rf t a)
      ∧ FResult s (.fmovf t fd x) t 1 fd (s.rx t x))
    ∧ (s.ready t 2 → FResult s (.fmac t fd a b c) t 2 fd (F32.fma (s.rf t a) (s.rf t b) (s.rf t c)))
    ∧ (s.ready t 8 → FResult s (.fdiv t fd a b) t 8 fd (F32.div (s.rf t a) (s.rf t b))
        ∧ FResult s (.fsqrt t fd a) t 8 fd (F32.sqrt (s.rf t a)))

/-- R82 (NaN results, FLIM, comparisons, conversions): a NaN operand is returned quieted, the first in the order of the operands;
comparisons with a NaN are false; FLIM keeps a NaN limit from acting; conversions take a NaN to 0. -/
def Obligations.NaNOperandsPropagate : Prop :=
  ∀ x y z : F32,
    (F32.isNaN x = true →
      F32.add x y = F32.quiet x ∧ F32.sub x y = F32.quiet x ∧ F32.mul x y = F32.quiet x ∧ F32.div x y = F32.quiet x
      ∧ F32.fmin x y = F32.quiet x ∧ F32.fmax x y = F32.quiet x ∧ F32.fma x y z = F32.quiet x ∧ F32.sqrt x = F32.quiet x
      ∧ F32.lim x y = F32.quiet x ∧ ∀ tz, F32.toI32 tz x = 0#32 ∧ F32.toU32 tz x = 0#32)
    ∧ (F32.isNaN x = false → F32.isNaN y = true →
      F32.add x y = F32.quiet y ∧ F32.sub x y = F32.quiet y ∧ F32.mul x y = F32.quiet y ∧ F32.div x y = F32.quiet y
      ∧ F32.fmin x y = F32.quiet y ∧ F32.fmax x y = F32.quiet y ∧ F32.fma x y z = F32.quiet y ∧ F32.lim x y = x)
    ∧ (F32.isNaN x = false → F32.isNaN y = false → F32.isNaN z = true → F32.fma x y z = F32.quiet z)
    ∧ ((F32.isNaN x = true ∨ F32.isNaN y = true) → F32.eq x y = false ∧ F32.lt x y = false ∧ F32.le x y = false)
    ∧ (F32.isZero x = true → F32.isInf y = true → F32.isNaN z = true → F32.fma x y z = F32.quiet z)
    ∧ (F32.isZero x = true → F32.isInf y = true → F32.mul x y = 0x7FC00000#32)

/-- R83, Table 4-4: a load whose address passes the checks and whose word has no uncorrectable error writes the value of the bytes at
rs1 + imm, signed or unsigned, and changes nothing else. -/
def Obligations.LoadsReadLittleEndian : Prop :=
  ∀ (s : State) (t rd rs1 : Fin 16) (fd : Fin 8) (imm : BitVec 18), s.ready t 2 →
    (s.dmemCheck t (dmemAddr (s.rx t rs1) imm) 4 = none →
      XResult s (.ldw t rd rs1 imm .clean) t 2 rd (BitVec.ofNat 32 (s.dmemRead (dmemAddr (s.rx t rs1) imm) 4))
      ∧ FResult s (.ldf t fd rs1 imm .clean) t 2 fd (BitVec.ofNat 32 (s.dmemRead (dmemAddr (s.rx t rs1) imm) 4)))
    ∧ (s.dmemCheck t (dmemAddr (s.rx t rs1) imm) 2 = none →
      XResult s (.ldh t rd rs1 imm .clean) t 2 rd ((BitVec.ofNat 16 (s.dmemRead (dmemAddr (s.rx t rs1) imm) 2)).signExtend 32)
      ∧ XResult s (.ldhu t rd rs1 imm .clean) t 2 rd (BitVec.ofNat 32 (s.dmemRead (dmemAddr (s.rx t rs1) imm) 2)))
    ∧ (s.dmemCheck t (dmemAddr (s.rx t rs1) imm) 1 = none →
      XResult s (.ldb t rd rs1 imm .clean) t 2 rd ((BitVec.ofNat 8 (s.dmemRead (dmemAddr (s.rx t rs1) imm) 1)).signExtend 32)
      ∧ XResult s (.ldbu t rd rs1 imm .clean) t 2 rd (BitVec.ofNat 32 (s.dmemRead (dmemAddr (s.rx t rs1) imm) 1)))

/-- R83, R84, Table 4-4: a store whose address passes the checks leaves the low bytes of its register at rs1 + imm, least significant
first, and every other byte of every memory window as it was; ADDM returns the old word and leaves the sum. -/
def Obligations.StoresWriteOnlyTheirBytes : Prop :=
  ∀ (s : State) (t rd rs1 rs2 : Fin 16) (fs2 : Fin 8) (imm : BitVec 18) (i : Instr) (c a n : Nat) (v : Word),
    ((i = .stw t rs1 rs2 imm ∧ c = 1 ∧ a = dmemAddr (s.rx t rs1) imm ∧ n = 4 ∧ v = s.rx t rs2)
      ∨ (i = .sth t rs1 rs2 imm ∧ c = 1 ∧ a = dmemAddr (s.rx t rs1) imm ∧ n = 2 ∧ v = s.rx t rs2)
      ∨ (i = .stb t rs1 rs2 imm ∧ c = 1 ∧ a = dmemAddr (s.rx t rs1) imm ∧ n = 1 ∧ v = s.rx t rs2)
      ∨ (i = .stf t rs1 fs2 imm ∧ c = 1 ∧ a = dmemAddr (s.rx t rs1) imm ∧ n = 4 ∧ v = s.rf t fs2)
      ∨ (i = .addm t rd rs1 rs2 .clean ∧ c = 2 ∧ a = (s.rx t rs1).toNat ∧ n = 4
          ∧ v = BitVec.ofNat 32 (s.dmemRead a 4) + s.rx t rs2)) →
    s.ready t c → s.dmemCheck t a n = none →
    ∃ s', exec i s = .next s'
      ∧ (∀ k, k < n → rdByte s'.mem.dmem (a + k) = v.extractLsb' (8 * k) 8)
      ∧ (∀ b, b < a ∨ a + n ≤ b → rdByte s'.mem.dmem b = rdByte s.mem.dmem b)
      ∧ s'.mem = { s.mem with dmem := s'.mem.dmem }
      ∧ s' = { s with mem := s'.mem, seq := s'.seq }
      ∧ (s'.thr t).pc = (s.thr t).pc + 1
      ∧ (∀ u, u ≠ t → s'.thr u = s.thr u)
      ∧ (i = .addm t rd rs1 rs2 .clean → rd ≠ 0 → s'.rx t rd = BitVec.ofNat 32 (s.dmemRead a 4))

/-- R54, R83, R84: a misaligned access, an access outside both windows and an uncorrectable word halt the thread with DMEM_ALIGN,
DMEM_WINDOW and DMEM_ECC, memory and registers as they were and the PC at the instruction. -/
def Obligations.BadAccessesFaultWithoutEffect : Prop :=
  ∀ (s : State) (t rd rs1 rs2 : Fin 16) (imm : BitVec 18) (i : Instr) (ecc : Ecc) (c n : Nat),
    ((i = .ldw t rd rs1 imm ecc ∧ c = 2 ∧ n = 4) ∨ (i = .ldh t rd rs1 imm ecc ∧ c = 2 ∧ n = 2)
      ∨ (i = .ldhu t rd rs1 imm ecc ∧ c = 2 ∧ n = 2) ∨ (i = .ldb t rd rs1 imm ecc ∧ c = 2 ∧ n = 1)
      ∨ (i = .ldbu t rd rs1 imm ecc ∧ c = 2 ∧ n = 1) ∨ (i = .stw t rs1 rs2 imm ∧ ecc = .clean ∧ c = 1 ∧ n = 4)
      ∨ (i = .sth t rs1 rs2 imm ∧ ecc = .clean ∧ c = 1 ∧ n = 2) ∨ (i = .stb t rs1 rs2 imm ∧ ecc = .clean ∧ c = 1 ∧ n = 1)) →
    s.canIssue t c = true →
    ∀ code, (if dmemAddr (s.rx t rs1) imm % n ≠ 0 then code = 0x4
        else if s.dmemOk t (dmemAddr (s.rx t rs1) imm) n = false then code = 0x3
        else ecc = .uncorrectable ∧ code = 0x9) →
      ∃ s', exec i s = .next s' ∧ (s'.thr t).st = .halted ∧ (s'.thr t).fault = code ∧ (s'.thr t).pc = (s.thr t).pc
        ∧ (s'.thr t).x = (s.thr t).x ∧ s'.mem = s.mem

/-- R6, R85, R87: a permitted IN writes the value of its port to rd and clears what a read clears; a permitted OUT writes its port; both go on
to the next instruction. -/
def Obligations.PermittedPortAccessesComplete : Prop :=
  ∀ (s : State) (t rd rs1 rs2 : Fin 16) (imm : BitVec 18) (off : Nat), off = portOffset (s.rx t rs1) imm →
    (s.ready t 4 → s.portDenied (.thread t) off false = false → (findReg off).isSome = true → windowAt off = none →
      isPairLow off = false → isPairHigh off = false → off ≠ R.SEC_RNG → isDrive off = false → s.startR off = s.getR off →
      ∃ s', exec (.portIn t rd rs1 imm) s = .next s' ∧ (s'.thr t).pc = (s.thr t).pc + 1
        ∧ (rd ≠ 0 → s'.rx t rd = (s.charge t 4).busValue (.thread t) off)
        ∧ s'.getR off &&& rcMask off = 0#32)
    ∧ (s.ready t 2 → ∀ m i : Nat, m < 8 → i < 16 → off = R.SEQ_MBO_DATA m i → s.flag (F.SEQ_MBO_STATUS_FULL m) = false →
      ∃ s', exec (.portOut t rs1 rs2 imm) s = .next s' ∧ (s'.thr t).pc = (s.thr t).pc + 1
        ∧ s'.getR (R.SEQ_MBO_DATA m i) = s.rx t rs2)

/-- R61, Table 3-2: a port access that a thread may not make halts it with PORT_DENIED and reaches nothing. -/
def Obligations.DeniedPortAccessesFault : Prop :=
  ∀ (s : State) (t rd rs1 rs2 : Fin 16) (imm : BitVec 18) (i : Instr) (c : Nat),
    ((i = .portIn t rd rs1 imm ∧ c = 4 ∧ s.portDenied (.thread t) (portOffset (s.rx t rs1) imm) false = true)
      ∨ (i = .portOut t rs1 rs2 imm ∧ c = 2 ∧ s.portDenied (.thread t) (portOffset (s.rx t rs1) imm) true = true)) →
    s.canIssue t c = true →
    ∃ s', exec i s = .next s' ∧ (s'.thr t).st = .halted ∧ (s'.thr t).fault = 0x5 ∧ (s'.thr t).pc = (s.thr t).pc
      ∧ (s'.thr t).x = (s.thr t).x ∧ s'.mem = s.mem ∧ s'.led = s.led
      ∧ ∀ off, off ≠ R.SEQ_STATUS → s'.getR off = s.getR off

/-- R62, R89, R90: a WAIT drops the TICK and FRAME bits and any armed deadline, arms DL where its mask names TIME, and ends at once with the
matching bits in rd and AUX where one is pending; otherwise the thread waits. -/
def Obligations.WaitEndsAtOnceOrWaits : Prop :=
  ∀ (s : State) (t rd rs1 rs2 : Fin 16) (mask : BitVec 64) (h : Thread) (m : BitVec 64), s.ready t 1 → (s.thr t).st = .eligible →
    mask = (s.rx t rs2 ++ s.rx t rs1 : BitVec 64) &&& 0x1FFFFFFFFFFFFF#64 →
    h = { (s.thr t) with pend := (s.thr t).pend &&& ~~~ 0x3000000000000#64, mask := mask, waitRd := rd,
                         deadline := if mask.getLsbD 50 then some (s.thr t).dl else none } →
    m = (s.setThr t h).pendOf t &&& mask →
    (m = 0#64 → TResult s (.wait t rd rs1 rs2) t 1 { h with st := .waiting })
    ∧ (m ≠ 0#64 → ∃ s', exec (.wait t rd rs1 rs2) s = .next s' ∧ (s'.thr t).st = .eligible ∧ (s'.thr t).pc = (s.thr t).pc + 1
        ∧ (rd ≠ 0 → s'.rx t rd = m.setWidth 32) ∧ (s'.thr t).aux = (m >>> 32).setWidth 32
        ∧ s'.pendOf t &&& m &&& 0x7FFFFFFFFFFFF#64 = 0#64)

/-- R65, R91, R92: SIG sets the sender's bit in the target, whatever its state; the clock reads, MOVA and the deadline writes change only
their own thread. -/
def Obligations.SignalsClocksAndDeadlines : Prop :=
  ∀ (s : State) (t rd rs1 rs2 : Fin 16) (imm : BitVec 18), s.ready t 1 →
    (∃ s', exec (.sig t rs1 imm) s = .next s'
      ∧ (s'.thr (Fin.ofNat 16 (s.rx t rs1 + imm.signExtend 32).toNat)).pend.getLsbD t = true
      ∧ (s'.thr t).pc = (s.thr t).pc + 1)
    ∧ TResult s (.tsc t rd) t 1 { ((s.thr t).wx rd (s.tsc.setWidth 32)) with aux := (s.tsc >>> 32).setWidth 32 }
    ∧ TResult s (.tickn t rd) t 1
        { ((s.thr t).wx rd (BitVec.ofNat 32 (s.tsc.toNat / 4000))) with aux := BitVec.ofNat 32 (s.tsc.toNat / 4000 / 4294967296) }
    ∧ XResult s (.tcyc t rd) t 1 rd (BitVec.ofNat 32 (s.tsc.toNat % 4000))
    ∧ XResult s (.mova t rd) t 1 rd (s.thr t).aux
    ∧ TResult s (.setdl t rs1) t 1 { s.thr t with dl := s.tsc + (s.rx t rs1).setWidth 64 }
    ∧ TResult s (.setdla t rs1 rs2) t 1 { s.thr t with dl := (s.rx t rs2 ++ s.rx t rs1 : BitVec 64) }

/-- R75, R92, R100: BRK advances and debug-halts its thread while the debug port is unlocked and is ILLEGAL while it is locked, as an
undefined encoding is; EVT adds its event to those that wait for issue. -/
def Obligations.BreakpointsEventsAndIllegalWords : Prop :=
  ∀ (s : State) (t rs1 : Fin 16) (cls : BitVec 2) (code : BitVec 12),
    (s.ready t 1 → s.dbgOpen = true → (s.thr t).st = .eligible →
      TResult s (.brk t) t 1 { s.thr t with st := .debugHalted, back := .eligible })
    ∧ (s.canIssue t 1 = true → s.dbgOpen = false →
      ∃ s', exec (.brk t) s = .next s' ∧ (s'.thr t).st = .halted ∧ (s'.thr t).fault = 0x1 ∧ (s'.thr t).pc = (s.thr t).pc)
    ∧ (s.canIssue t 1 = true → ∀ e : Ecc, e ≠ .corrected →
      ∃ s', exec (.undefinedEncoding t e) s = .next s' ∧ (s'.thr t).st = .halted
        ∧ (s'.thr t).fault = (if e = .uncorrectable then 0x8 else 0x1) ∧ (s'.thr t).pc = (s.thr t).pc)
    ∧ (s.ready t 1 → cls ≠ 3#2 →
      ∃ s', exec (.evt t rs1 cls code) s = .next s' ∧ (s'.thr t).pc = (s.thr t).pc + 1
        ∧ (∃ e ∈ s'.ev.arisen, e.program = true ∧ e.block = t.val ∧ e.code = code.toNat ∧ e.detA = s.rx t rs1
            ∧ e.detB = BitVec.ofNat 32 (s.thr t).pc ∧ e.cls.code = cls.toNat ∧ e.tsc = s.tsc)
        ∧ s'.mem = s.mem ∧ s'.regs = s.regs ∧ s'.led = s.led)

/-- R93, R94, R95: a PICK that nothing in Table 4-7 refuses makes a new sheet in the picked place, owned by its thread, with the page's tag in
AUX; one that is refused writes 0 and the reason and changes nothing else. -/
def Obligations.PickTakesAPageOrSaysWhyNot : Prop :=
  ∀ (s : State) (t rd rs1 rs2 : Fin 16), s.ready t 4 → s.frozen = false → s.jr.frozenAc = false →
    (∀ p, s.pickPage (s.rx t rs1) = some p → s.pickRefusal t (some p) (s.rx t rs2) = none → s.pitchLeft = 0 →
      s.rx t rs2 = 0#32 → s.host.rinse = none →
      ∃ s', exec (.pick t rd rs1 rs2) s = .next s' ∧ (rd ≠ 0 → s'.rx t rd = s.led.nextId) ∧ (s'.thr t).aux = p.tag
        ∧ (s'.thr t).pc = (s.thr t).pc + 1 ∧ s'.led.picked = s.led.picked + 1
        ∧ ∃ sh ∈ s'.led.sheets, sh.id = s.led.nextId ∧ sh.place = .picked ∧ sh.owner = t ∧ sh.tag1 = some p.tag)
    ∧ (∀ aux, s.pickRefusal t (s.pickPage (s.rx t rs1)) (s.rx t rs2) = some aux →
      TResult s (.pick t rd rs1 rs2) t 4 { ((s.thr t).wx rd 0#32) with aux := BitVec.ofNat 32 aux })

/-- R97, R98, R99: an LDGM that the ledger permits writes the former place code and moves its sheet, keeping every other sheet; one that it
refuses halts the thread with LEDGER and leaves the ledger as it was. -/
def Obligations.LdgmMovesItsSheetOrFaults : Prop :=
  ∀ (s : State) (t rd rs1 rs2 : Fin 16) (place : BitVec 6) (own : Bool),
    (∀ sh z, s.ready t 2 → s.jr.frozenAc = false →
      s.ldgmCheck t (s.rx t rs1) place.toNat own (Fin.ofNat 16 (s.rx t rs2).toNat) = some (sh, .stay (.zone z)) → sh.place ≠ .zone z →
      ∃ s', exec (.ldgm t rd rs1 rs2 place own) s = .next s' ∧ (rd ≠ 0 → s'.rx t rd = BitVec.ofNat 32 sh.place.code)
        ∧ (s'.thr t).pc = (s.thr t).pc + 1
        ∧ (∀ x ∈ s'.led.sheets, x.id = sh.id → x.place = .zone z ∧ x.owner = (if own then Fin.ofNat 16 (s.rx t rs2).toNat else sh.owner))
        ∧ (s'.led.sheets.filter fun x => x.id != sh.id) = s.led.sheets.filter fun x => x.id != sh.id)
    ∧ (s.canIssue t 2 = true → s.ldgmCheck t (s.rx t rs1) place.toNat own (Fin.ofNat 16 (s.rx t rs2).toNat) = none →
      ∃ s', exec (.ldgm t rd rs1 rs2 place own) s = .next s' ∧ (s'.thr t).st = .halted ∧ (s'.thr t).fault = 0x6
        ∧ s'.led = s.led ∧ s'.jr = s.jr)

/-- R73–R75, R101: the word of an Ouvta instruction decodes to that instruction, with every operand at every value, for its thread and the
outcome of its memory check. -/
def Obligations.OuvtaDecodeOfEncode : Prop :=
  ∀ (i : Instr) (w : Word), encodeOuvta i = some w → ∃ t e, decodeOuvta t e w = some i

/-- R73–R75, R101: a word that decodes is the word of the instruction it decodes to: no bit of an encoding is dropped, and every word with
another value in a field that must be 0 is ILLEGAL. -/
def Obligations.OuvtaEncodeOfDecode : Prop :=
  ∀ (t : Fin 16) (e : Ecc) (w : Word) (i : Instr), decodeOuvta t e w = some i → encodeOuvta i = some w

/-- R4, R5, R6, R7, R10, Table 0-4: what an access of a whole aligned dword by the host leaves. A write to a register of the VIN, PRS, CEL or
DEC block sets the RW bits to what is written; one to DEV_RESET_CAUSE, SEQ_FAULT_SRC, MOV_JAM_GATE or CHN_STATUS clears the W1C bits written as 1
that were 1 when the cycle began. A read of a Core-die register outside the pairs returns its bytes and, where nothing has changed it since the
cycle began, clears its RC bits and changes no other register. An access to an unmapped offset raises DEV_UNMAPPED. A read of the low
word of a pair keeps the high word for the host's next read of it. A write of the high word of a ring base sets both words. -/
def Obligations.RegisterAndPairAccessesAct : Prop :=
  ∀ (s : State) (off : Nat) (w : Word), off % 4 = 0 → off < 0x1000000 →
    (∀ r, findReg off = some r → windowAt off = none → off / 65536 ∈ [1, 5, 6, 7] →
      BitVec.ofNat 32 (r.w1c ||| r.w1s) &&& BitVec.ofNat 32 r.rw = 0#32 →
      Leads s (.registerWrite .host off 0xF#4 w) fun t => t.getR off &&& BitVec.ofNat 32 r.rw = w &&& BitVec.ofNat 32 r.rw)
    ∧ (∀ r, findReg off = some r → off ∈ [R.DEV_RESET_CAUSE, R.SEQ_FAULT_SRC, R.MOV_JAM_GATE, R.CHN_STATUS] →
      Leads s (.registerWrite .host off 0xF#4 w) fun t =>
        t.getR off &&& BitVec.ofNat 32 r.w1c = s.getR off &&& BitVec.ofNat 32 r.w1c &&& ~~~(w &&& s.startR off))
    ∧ ((findReg off).isSome = true → windowAt off = none → isPairLow off = false → isPairHigh off = false → off ≠ R.SEC_RNG →
      isDrive off = false → s.startR off = s.getR off →
      Leads s (.readClear .host off 0xF#4) fun t => t.host.readData = wordBytes (s.busValue .host off)
        ∧ t.getR off = s.getR off &&& ~~~ rcMask off ∧ ∀ o, o ≠ off → t.getR o = s.getR o)
    ∧ (∀ isWrite, isMapped off = false → Leads s (.unmappedAccess .host off 0xF#4 isWrite) fun t => t.Arisen Ev.DEV_UNMAPPED 0
        ∧ t.regs = s.regs ∧ t.mem = s.mem ∧ t.led = s.led ∧ t.brg = s.brg)
    ∧ (isPairLow off = true → (findReg off).isSome = true → windowAt off = none → off ≠ R.SEC_RNG →
      Leads s (.pairLowRead .host off 0xF#4) fun t => t.highValue .host (off + 4) = s.readReg (off + 4)
        ∧ t.host.readData = wordBytes (s.busValue .host off) ∧ t.regs = s.regs ∧ t.mem = s.mem)
    ∧ (∀ (r : Fin 4) lo, s.ringOn r = false → SMap.get resetWord s.low (R.HIF_RING_BASE_LO r) = lo →
      Leads s (.pairHighWrite .host (R.HIF_RING_BASE_HI r) w) fun t =>
        t.getR (R.HIF_RING_BASE_LO r) = lo ∧ t.getR (R.HIF_RING_BASE_HI r) = w
        ∧ ∀ o, o ≠ R.HIF_RING_BASE_LO r → o ≠ R.HIF_RING_BASE_HI r → t.getR o = s.getR o)

/-- R15, R27, R133, R394, R396, R423, R467, Table 1-7: what the steps of a power-on leave. PORST_N restarts the supervisor in STANDBY and keeps
the fuses and the flash slots; the PLL lock starts TSC at 0, and where it does not come the Core die is held in reset for 100 ms; the bridge is up
and a pairing attempt begins; an attempt of dies with one key pairs them, and one that has not ended in 200 µs is counted; the replay
takes up the floor that non-volatile memory holds, or, where a counter is corrupt, ends in a FAULT that only a power-on reset leaves;
DRAM training records its capacity and rate, or leaves no DRAM page store. -/
def Obligations.BootStepsAdvance : Prop :=
  ∀ s : State,
    Leads s (.powerOnReset true) (fun t => t.getR R.PSQ_LAST = 4#32 ∧ t.psqState = 0 ∧ t.psq = {} ∧ t.fuse = s.fuse
      ∧ t.vin.slots = s.vin.slots ∧ t.pending = s.pending)
    ∧ (s.devIs 2 = true → s.psq.core = true → s.psq.pll = false →
      Leads s .systemPllLock fun t => t.psq.pll = true ∧ t.tsc = 0#64 ∧ t.regs = s.regs)
    ∧ (∀ dt, (s.psqAdvance dt).psq.core = true → (s.psqAdvance dt).psq.pll = false →
      (s.psqAdvance dt).psq.coreAt + 2000 ≤ (s.psqAdvance dt).psq.now →
      Leads s (.pllLockTimeout dt) fun t => t.psq.core = false ∧ t.psq.pllRetries = (s.psqAdvance dt).psq.pllRetries + 1
        ∧ t.psq.againAt = some ((s.psqAdvance dt).psq.now + 100000))
    ∧ (s.devIs 2 = true → s.psq.pll = true → s.flag F.BRG_STATUS_UP = false → s.psq.test = false →
      Leads s .bridgeTrained fun t => t.flag F.BRG_STATUS_UP = true ∧ t.flag F.DEV_STATE_BRIDGE_UP = true
        ∧ t.sec.pairFails = 0 ∧ t.sec.pairAt = s.tsc.toNat)
    ∧ (s.pairing = true → s.tsc.toNat ≤ s.sec.pairAt + 40000 → s.fuse.pairCore = s.fuse.pairDrive →
      Leads s .diePairing fun t => t.flag F.DEV_STATE_PAIRED = true ∧ t.freeCtr = s.freeCtr + 2)
    ∧ (s.pairing = true → s.sec.pairAt + 40000 ≤ s.tsc.toNat → s.sec.pairFails < 2 →
      Leads s .pairingTimeout fun t => t = { s with sec := { s.sec with pairFails := s.sec.pairFails + 1, pairAt := s.tsc.toNat } })
    ∧ (s.devIs 2 = true → s.flag F.DEV_STATE_PAIRED = true → s.ev.held = true →
      (Leads s (.sramZeroed true) fun t => t.getR R.VIN_FLOOR = BitVec.ofNat 32 t.nvm.mono[(0 : Fin 3)] ∧ t.vin.cur = t.nvm.cur
        ∧ t.vin.prev = t.nvm.prev ∧ t.ev.held = false)
      ∧ (Leads s (.sramZeroed false) fun t => t.rst.porOnly = true ∧ t.Arisen Ev.SEC_NVM_CORRUPT 0))
    ∧ (∀ gib rate, s.devIs 2 = true → s.ev.held = false → s.flag F.MEM_STATUS_TRAINED = false → 1 ≤ gib → gib ≤ 16 → rate ≤ 8533 →
      (Leads s (.dramTraining true gib rate) fun t => t.flag F.MEM_STATUS_TRAINED = true ∧ t.getF F.MEM_CFG_CAP_GIB = gib
        ∧ t.getR R.RCK_RES_CAP = BitVec.ofNat 32 rate ∧ t.getF F.CEL_DGRAN_TOTAL = dramGrans gib)
      ∧ (Leads s (.dramTraining false gib rate) fun t => t.getF F.CEL_DGRAN_TOTAL = 0 ∧ t.flag F.CEL_STATUS_DRAM_FULL = true))

/-- R16, R18, R20–R25, R256, Table 1-4: the tick boundary starts the next tick, in which no upward frame has come yet; a frame in time
brings the values latched for it, counts as correct and makes FRAME pending in every thread, and at the deadline a frame that has not
come is counted and makes FRAME pending too; a downward frame waits for the boundary and carries the writes, and one that is missed is
counted; 8 correct frames each way end the safe state of an engine reset; KILL_DN held puts the Drive die into its safe state with LEN
low; a stop pulse makes LEN low; SAFE_UP freezes the ledger, and where the bridge was not known to be lost, declares bridge loss; an
interlock that opens makes LEN low. -/
def Obligations.BridgeCommandsAct : Prop :=
  ∀ s : State,
    (∀ x die, s.psq.core = true → s.psq.pll = true →
      Leads s (.tickBoundary x die) fun t => t.tsc = BitVec.ofNat 64 ((s.tick + 1) * 4000) ∧ t.brg.gotUp = false
        ∧ t.seq.served = 0 ∧ t.brg.received = none)
    ∧ (∀ cyc cor ain sc, s.psq.core = true → s.flag F.BRG_STATUS_UP = true → s.brg.gotUp = false → max s.cycle cyc ≤ 600 →
      Leads s (.upwardFrame cyc cor ain sc) fun t => t.tsc = s.tsc + BitVec.ofNat 64 (max s.cycle cyc - s.cycle)
        ∧ t.brg.gotUp = true ∧ t.brg.missUp = 0 ∧ t.up = s.brg.latched ∧ t.brg.samples.ain = ain
        ∧ ∀ u, (t.thr u).pend.getLsbD 49 = true)
    ∧ (∀ bad, s.psq.core = true → s.flag F.BRG_STATUS_UP = true → s.brg.gotUp = false → s.cycle ≤ 600 → s.brg.missUp = 0 →
      Leads s (.upwardFrameDeadline bad) fun t => t.brg.missUp = 1 ∧ (∀ u, (t.thr u).pend.getLsbD 49 = true)
        ∧ t.flag F.BRG_STATUS_MISS_UP = true ∧ t.Arisen Ev.BRG_FRAME_MISS 0)
    ∧ (∀ cor, s.psq.core = true → s.flag F.BRG_STATUS_UP = true → s.brg.received = none → s.cycle ≤ 3700 → s.frozen = false →
      Leads s (.downwardFrame cor) fun t => t.tsc = s.tsc + BitVec.ofNat 64 (3400 - s.cycle) ∧ t.brg.missDn = 0
        ∧ t.brg.received = some { s.brg.out with endStop := s.rst.endStop } ∧ t.brg.out.writes = [])
    ∧ (∀ bad, s.psq.core = true → s.flag F.BRG_STATUS_UP = true → s.brg.missDn = 0 →
      Leads s (.downwardFrameMissed bad) fun t => t.brg.missDn = 1 ∧ t.brg.received = none ∧ t.Arisen Ev.BRG_FRAME_MISS 1)
    ∧ (s.flag F.BRG_STATUS_DRIVE_SAFE = true → s.devIs 5 = true → s.brg.kill = false → 8 ≤ s.brg.goodUp → 8 ≤ s.brg.goodDn →
      Leads s .safeStateExit fun t => t.flag F.BRG_STATUS_DRIVE_SAFE = false)
    ∧ (s.brg.kill = true → s.flag F.BRG_STATUS_DRIVE_SAFE = false →
      Leads s .killDnKill fun t => t.flag F.BRG_STATUS_DRIVE_SAFE = true ∧ t.brg.len = 0)
    ∧ (s.devIs 5 = true → s.brg.stopped = false → Leads s .killDnStopPulse fun t => t.brg.stopped = true ∧ t.brg.len = 0)
    ∧ (s.flag F.BRG_STATUS_DRIVE_SAFE = true → s.brg.tripDue = false → s.brg.kill = true →
      Leads s .safeUp fun t => t.jr.frozenLoss = true)
    ∧ (s.flag F.BRG_STATUS_DRIVE_SAFE = true → s.brg.tripDue = false → s.brg.kill = false → s.flag F.BRG_STATUS_LOST = false →
      Leads s .safeUp fun t => t.flag F.BRG_STATUS_LOST = true ∧ t.flag F.BRG_STATUS_UP = false ∧ t.jr.frozenLoss = true)
    ∧ (∀ i, Leads s (.ilkOpen i) fun t => t.brg.ilk.getLsbD i = true ∧ t.brg.len = 0)
    ∧ (∀ i : Fin 4, Leads s (.ilkClose i) fun t => t.brg.ilk = s.brg.ilk &&& ~~~BitVec.ofNat 4 (2 ^ i.val)
        ∧ t.regs = (s.putBitF F.BRG_STATUS_LINES 2 (t.brg.ilk != 0#4)).regs)

/-- R25, R28, R29, R31, R122, R369, R457, Table 1-8: a keyed write, ERST_N, a function-level reset and PERST_N request an engine reset
in OPERATIONAL, the two of PCI Express masking every vector; the command is completed and requests one too; a request that is accepted
starts the reset, which takes the host interface away; after its ramp no high-voltage channel is ramping down; with every axis at
standstill the path is stranded; an axis that still moves after 300 ms coasts; in the tick after stranding the stores are emptied and
every credit is free; the bridge comes up again, or after 1,000 ticks the state is FAULT until a power-on reset. -/
def Obligations.EngineResetStepsAdvance : Prop :=
  ∀ s : State,
    (∀ w, bits w 16 16 = 0x7A5E → w.getLsbD 0 = true → s.devIs 4 = true → s.rst.req = none →
      Leads s (.devReset w) fun t => t = { s with rst := { s.rst with req := some 1 } })
    ∧ (s.devIs 4 = true → s.rst.req = none →
      (Leads s .erstN fun t => t = { s with rst := { s.rst with req := some 2 } })
      ∧ (Leads s .functionLevelReset fun t => t.rst.req = some 3 ∧ t.host.msixMask = BitVec.allOnes 64 ∧ t.host.msixPend = 0#64)
      ∧ (Leads s .perstN fun t => t.rst.req = some 4 ∧ t.host.msixMask = BitVec.allOnes 64 ∧ t.host.msixPend = 0#64))
    ∧ (∀ e, s.canConsume 1 1 = true → e.opcode = 0x30#8 → s.devIs 4 = true → zeroFrom e 0 = true → s.rst.req = none →
      Leads s (.engineReset 1 e) fun t => s.Answered t e.cid .ok ∧ t.rst.req = some 1 ∧ t.host.resetHeld = t.host.cqHeld.length)
    ∧ (∀ i, s.rst.req = some i → s.resettable = true → i ≠ 1 ∨ s.host.resetHeld = 0 →
      Leads s .engineResetAccept fun t => t.devIs 5 = true ∧ t.flag F.DEV_STATE_HOST_READY = false ∧ t.rst.stage = .stopping
        ∧ t.rst.req = none ∧ t.rst.at_ = s.tsc.toNat)
    ∧ (∀ n, s.devIs 5 = true → s.rst.hvDone = false → s.rst.rampAt = some n → n + 800000 ≤ s.tsc.toNat →
      Leads s .hvResetRampDone fun t => t.rst.hvDone = true ∧ ∀ c : Fin 24, t.hvState c ≠ 3)
    ∧ (s.devIs 5 = true → s.rst.stage = .stopping → s.axesStill = true → s.rst.noBridge = false → s.jr.frozenAc = false →
      Leads s .engineResetStandstill fun t => t.rst.stage = .stranded ∧ t.rst.strandTick = s.tick
        ∧ ∀ x ∈ t.led.sheets, x.place.inPath = true → x.handoff = true)
    ∧ (∀ a : Fin 20, s.devIs 5 = true → s.rst.stage = .stopping → s.rst.at_ + 60000000 ≤ s.tsc.toNat → s.flag (F.MOV_AX_CFG_EN a) = true →
      s.axState a ≠ 0 → (s.ax a).v ≠ 0 → Leads s (.axisCoastTimeout a) fun t => t.axState a = 0 ∧ t.Arisen Ev.DEV_AXIS_COAST a)
    ∧ (s.devIs 5 = true → s.rst.stage = .stranded → s.rst.strandTick < s.tick → s.rst.auditBad = false →
      s.getF F.GDR_STATUS_BUS_TRIP = 0 →
      Leads s .engineResetEmpty fun t => t.rst.stage = .emptied ∧ t.cel.pages = [] ∧ t.host.cq = [] ∧ t.getF F.HIF_PAGE_CREDITS = 256
        ∧ t.Arisen Ev.DEV_REINIT 0)
    ∧ (s.devIs 5 = true → s.rst.noBridge = true →
      Leads s .bridgeRetrained fun t => t.rst.noBridge = false ∧ t.flag F.BRG_STATUS_UP = true ∧ t.flag F.BRG_STATUS_LOST = false)
    ∧ (s.devIs 5 = true → s.rst.noBridge = true → s.rst.at_ / 4000 + 1000 ≤ s.tick →
      Leads s .bridgeRetrainTimeout fun t => t.devIs 6 = true ∧ t.rst.porOnly = true ∧ t.Arisen Ev.DEV_RETRAIN_TIMEOUT 0)

/-- R27, R28, R41, R42, R47: the current vintage, read at boot, at the reload of an engine reset and after an abandoned apply, is taken
up as a whole apply where it verifies and passes its check: its slot is pending with this tick as H, it is the image in the preload
area, and no thread runs. Where there is none, or it does not pass, the device is in NO_VINTAGE with the host interface up. -/
def Obligations.BootLoadAndReloadApplyTheCurrentVintage : Prop :=
  ∀ (s : State) (fl pre : Bool) (k : Fin 8) (img : Image) (job : ApplyJob) (rest : List VinJob),
    job = { cid := none, at_ := s.tick, whole := true, slot := k, h := some s.tick } → s.vin.slots[k] = some img →
    (s.devIs 2 = true → s.flag F.DEV_STATE_PAIRED = true → s.vin.apply = none → s.ev.held = false → s.psq.test = false →
      s.seq.startDue = false →
      (s.vin.cur = some k → (s.checkSlot k fl pre).2 = 0 → Leads s (.bootVintageLoad fl pre) fun t =>
        t.vin.apply = some job ∧ t.vin.preload = some img ∧ ∀ u, (t.thr u).st = .halted ∨ (t.thr u).st = .disabled)
      ∧ (s.vin.cur = none ∨ (s.vin.cur = some k ∧ (s.checkSlot k fl pre).2 ≠ 0) → Leads s (.bootVintageLoad fl pre) fun t =>
        t.devIs 3 = true ∧ t.flag F.DEV_STATE_HOST_READY = true))
    ∧ (s.devIs 5 = true → s.rst.stage = .emptied → s.vin.apply = none → s.seq.startDue = false →
      (s.vin.cur = some k → (s.checkSlot k fl pre).2 = 0 → Leads s (.engineResetReload fl pre) fun t =>
        t.vin.apply = some job ∧ t.vin.preload = some img ∧ ∀ u, (t.thr u).st = .halted ∨ (t.thr u).st = .disabled)
      ∧ (s.vin.cur = none ∨ (s.vin.cur = some k ∧ (s.checkSlot k fl pre).2 ≠ 0) → Leads s (.engineResetReload fl pre) fun t =>
        t.devIs 3 = true ∧ t.flag F.DEV_STATE_HOST_READY = true ∧ t.rst.stage = .none))
    ∧ (s.vin.jobs = .reload :: rest → s.vin.cur = some k → ((s.setVin { s.vin with jobs := rest }).checkSlot k fl pre).2 = 0 →
      Leads s (.vintageCheckDone fl pre) fun t => t.vin.jobs = rest ∧ t.vin.apply = some job ∧ t.vin.preload = some img)

/-- R33, R36, R37, R47, R48: what the four vintage commands do when they are consumed: a load of a slot without a mark, and a check, wait
for their image to be read; a load of a slot with a mark is answered VINTAGE_FAIL and changes no slot; an apply of a checked bank is
pending from then on, at its tick or two ticks ahead; a revert waits for the check of its slot, and without a mark PREVIOUS is answered
VINTAGE_FAIL. -/
def Obligations.VintageCommandsComplete : Prop :=
  ∀ (s : State) (e : SqEntry), s.canConsume 1 1 = true → s.devIs 4 = true →
    (∀ k : Fin 8, e.opcode = 0x10#8 → zeroFrom e 4 = true → e.dw[0].toNat = k.val → 1 ≤ e.dw[3].toNat → e.dw[3].toNat ≤ 0x100000 →
      s.vin.cur ≠ some k → s.vin.prev ≠ some k →
      Leads s (.vintageLoad 1 e) fun t => t.vin = { s.vin with jobs := s.vin.jobs ++ [.load e.cid k] } ∧ t.answers = s.answers)
    ∧ (∀ k : Fin 8, e.opcode = 0x10#8 → zeroFrom e 4 = true → e.dw[0].toNat = k.val → 1 ≤ e.dw[3].toNat → e.dw[3].toNat ≤ 0x100000 →
      (s.vin.cur = some k ∨ s.vin.prev = some k) → Leads s (.vintageLoad 1 e) fun t => s.Answered t e.cid .vintageFail ∧ t.vin = s.vin)
    ∧ (∀ k : Fin 8, e.opcode = 0x11#8 → zeroFrom e 1 = true → e.dw[0].toNat = k.val → s.vinBusy = false →
      Leads s (.vintageCheck 1 e) fun t => t.vin = { s.vin with jobs := s.vin.jobs ++ [.check e.cid k] } ∧ t.answers = s.answers)
    ∧ (∀ at_, e.opcode = 0x12#8 → zeroFrom e 2 = true → at_ = e.dw[0].toNat + 0x100000000 * e.dw[1].toNat → s.applyRefusal at_ = none →
      s.flag F.VIN_STATUS_CHECKED = true →
      Leads s (.vintageApply 1 e) fun t => t.vin = { s.vin with apply := some {
          cid := some e.cid, at_ := if at_ = 0 then s.tick + 2 else at_, whole := s.wholeApply,
          slot := Fin.ofNat 8 (s.getF F.VIN_STATUS_SLOT), revert := false, dirty := s.flag F.VIN_STATUS_DIRTY } }
        ∧ t.flag F.VIN_STATUS_PENDING = true)
    ∧ (∀ k, e.opcode = 0x13#8 → zeroFrom e 0 = true → s.vinBusy = false → s.vin.prev = some k →
      (∀ img, s.vin.slots[k] = some img → s.belowFloor img = false) →
      Leads s (.vintageRevert 1 e) fun t => t.vin = { s.vin with jobs := s.vin.jobs ++ [.revert e.cid] } ∧ t.answers = s.answers)
    ∧ (e.opcode = 0x13#8 → zeroFrom e 0 = true → s.vinBusy = false → s.vin.prev = none →
      Leads s (.vintageRevert 1 e) fun t => s.Answered t e.cid .vintageFail ∧ t.vin = s.vin)

/-- R32, R33, R36, R46, R48: the end of a load and of a check. An image that has been read, verifies and is not below the floor is in
its slot and the load is answered OK; any other is answered VINTAGE_FAIL and changes no slot. A check of an image that reads as it was
written and verifies fills the staging bank with it; it is answered OK and CHECKED is set where no rule fails, and answered VINTAGE_FAIL
with the offset of the first failing rule where one does. -/
def Obligations.VintageJobsEnd : Prop :=
  ∀ (s : State) (cid : BitVec 16) (k : Fin 8) (img : Image) (rest : List VinJob),
    (s.vin.jobs = .load cid k :: rest → (s.chan 3).issued = [] → (s.chan 3).queued = [] → s.halted 3 = false →
      (s.imageSigned img = true → s.belowFloor img = false → Leads s (.vintageLoadDone img) fun t => t.vin.jobs = rest
        ∧ t.vin.slots = s.vin.slots.set k (some img) ∧ s.Answered t cid .ok)
      ∧ (s.imageSigned img = false ∨ s.belowFloor img = true → Leads s (.vintageLoadDone img) fun t => t.vin.jobs = rest
        ∧ t.vin.slots = s.vin.slots ∧ s.Answered t cid .vintageFail))
    ∧ (∀ pre u, s.vin.jobs = .check cid k :: rest → s.vinBusy = false → s.vin.slots[k] = some img → s.imageSigned img = true →
      u = ({ s with vin := { s.vin with jobs := rest } } : State).fillBank k img →
      (u.vinCheck img pre = none → Leads s (.vintageCheckDone true pre) fun t => t.vin.jobs = rest ∧ t.stage = bankOf img.stage
        ∧ t.vin.preload = some img ∧ t.flag F.VIN_STATUS_CHECKED = true ∧ s.Answered t cid .ok)
      ∧ (∀ f, u.vinCheck img pre = some f → Leads s (.vintageCheckDone true pre) fun t => t.vin.jobs = rest
        ∧ t.flag F.VIN_STATUS_CHECKED = false ∧ t.getR R.VIN_CHECK_OFFSET = BitVec.ofNat 32 f.off ∧ s.Answered t cid .vintageFail))

/-- R34, R35, R39, R41, R42, R46: an ST write with no apply pending changes the staging bank, makes it dirty and unchecked, and no
register but VIN_STATUS; the switch of a settings apply and of a whole apply take the slot of the bank as CURRENT and answer the command
OK, a whole apply also having its program and data in place and its threads due to start; an engine at rest lets the copy of a whole
apply begin, with every thread halted; one that has not come to rest in time is answered VINTAGE_FAIL and is no longer pending. -/
def Obligations.AppliesSwitchOrTimeOut : Prop :=
  ∀ (s : State) (a : ApplyJob) (img : Image) (cid : BitVec 16), a.cid = some cid → a.dirty = false →
    (∀ p off w r, off % 4 = 0 → s.portDenied p off true = false → findReg off = some r →
      BitVec.ofNat 32 r.st &&& ~~~bootFixed off ≠ 0#32 → s.vin.apply = none →
      Leads s (.stWrite p off w) fun t =>
        t.staged off = (s.staged off &&& ~~~(BitVec.ofNat 32 r.st &&& ~~~bootFixed off)) ||| (w &&& (BitVec.ofNat 32 r.st &&& ~~~bootFixed off))
        ∧ t.flag F.VIN_STATUS_DIRTY = true ∧ t.flag F.VIN_STATUS_CHECKED = false ∧ ∀ o, o ≠ R.VIN_STATUS → t.getR o = s.getR o)
    ∧ (s.vin.apply = some a → a.whole = false → a.at_ ≤ s.tick →
      Leads s .settingsSwitch fun t => t.vin.apply = none ∧ t.vin.cur = some a.slot ∧ t.vin.applied = s.stage
        ∧ t.flag F.VIN_STATUS_PENDING = false)
    ∧ (s.vin.apply = some a → a.whole = true → a.h = none → a.at_ ≤ s.tick → s.engineIdle = true →
      Leads s .wholeApplyIdle fun t => t.vin.apply = some { a with h := some s.tick } ∧ ∀ u, (t.thr u).st = .halted ∨ (t.thr u).st = .disabled)
    ∧ (s.vin.apply = some a → s.vin.preload = some img → a.whole = true → a.h.isSome = true → s.copyDone = true →
      s.vin.jobs.contains .reload = false →
      Leads s .wholeApplySwitch fun t => t.vin.apply = none ∧ t.vin.cur = some a.slot ∧ t.mem.pmem = ofImage img.program
        ∧ t.mem.dmem = ofImage img.data ∧ t.seq.startDue = true)
    ∧ (s.vin.apply = some a → a.whole = true → a.h = none → a.at_ + (s.getR R.VIN_APPLY_TIMEOUT).toNat ≤ s.tick →
      Leads s .applyTimeout fun t => t.vin.apply = none ∧ t.flag F.VIN_STATUS_PENDING = false ∧ s.Answered t cid .vintageFail
        ∧ t.Arisen Ev.VIN_APPLY_TIMEOUT 0)

/-- R51–R53, R55, R57, R62, R63, R65, R68, R70, R89: at cycle 200 every thread has its BUDGET and TICK pending; a thread still eligible
at cycle 3,800 is pre-empted with its CONSEC counted, and halted at its third overrun in a row; the handover of a fault sets the thread's
bit in SEQ_FAULT_SRC; a restart that the host asks for while debug is unlocked is due in the next tick; at a start, in a state that lets
threads start, every enabled thread is eligible at its entry point, a thread suspended by FAULT apart; a thread whose condition holds ends its WAIT with the matching bits in
its register and AUX, and one whose deadline has passed ends a WAIT for TIME. -/
def Obligations.ThreadsAreReloadedOverrunAndWoken : Prop :=
  ∀ (s : State) (t : Fin 16),
    (s.cycle ≤ 200 → Leads s .budgetReload fun x => x.tsc = s.tsc + BitVec.ofNat 64 (200 - s.cycle)
      ∧ ∀ u : Fin 16, (x.thr u).budget = x.getF (F.SEQ_THR_CFG_BUDGET u) ∧ (x.thr u).pend.getLsbD 48 = true)
    ∧ ((s.thr t).st = .eligible → (s.thr t).ovrThisTick = false → (s.thr t).readyAt ≤ s.tsc.toNat → 3800 ≤ s.cycle →
      ((s.thr t).consec < 2 → Leads s (.overrun t) fun x => (x.thr t).st = .preempted ∧ (x.thr t).consec = (s.thr t).consec + 1
        ∧ (x.thr t).pc = (s.thr t).pc ∧ x.Arisen Ev.SEQ_OVERRUN t)
      ∧ (2 ≤ (s.thr t).consec → Leads s (.overrun t) fun x => (x.thr t).st = .halted ∧ (x.thr t).fault = 0x7))
    ∧ (∀ k, s.jr.frozenAc = false → (s.thr t).handover = some k → k ≤ s.tick → s.cycle < 200 →
      Leads s (.faultHandover t) fun x => (x.thr t).handover = none ∧ x.bitF F.SEQ_FAULT_SRC_SRC t = true
        ∧ ∀ y ∈ x.led.sheets, y.place.inPath = true → y.handoff = false → y.owner = t → s.faultThread = t.val)
    ∧ ((s.thr t).st = .halted → (s.thr t).fault ≠ 0 → s.dbgOpen = true →
      Leads s (.threadRestart .host (BitVec.ofNat 32 t)) fun x => (x.thr t).restart = some (s.tick + 1) ∧ x.regs = s.regs)
    ∧ (s.seq.startDue = true → (s.devIs 2 || s.devIs 4 || s.devIs 6 || (s.devIs 5 && s.rst.stage == .emptied)) = true →
      s.flag F.SEQ_STATUS_SUSPENDED = false → Leads s .threadStart fun x => x.seq.startDue = false
      ∧ ∀ u : Fin 16, x.flag (F.SEQ_THR_CFG_EN u) = true → (x.thr u).st = .eligible ∧ (x.thr u).pc = x.getF (F.SEQ_THR_ENTRY u))
    ∧ ((s.thr t).st = .waiting → s.pendOf t &&& (s.thr t).mask ≠ 0#64 →
      (Leads s (.waitWake t) fun x => (x.thr t).st = .eligible ∧ (x.thr t).readyAt = s.wakeFrom
        ∧ ((s.thr t).waitRd ≠ 0 → x.rx t (s.thr t).waitRd = (s.pendOf t &&& (s.thr t).mask).setWidth 32)
        ∧ (x.thr t).aux = ((s.pendOf t &&& (s.thr t).mask) >>> 32).setWidth 32)
      ∧ (∀ d, (s.thr t).deadline = some d → d.toNat ≤ s.tsc.toNat → (s.thr t).mask.getLsbD 50 = true →
        Leads s (.timeDeadline t) fun x => (x.thr t).st = .eligible ∧ (x.thr t).deadline = none
          ∧ (x.thr t).aux.getLsbD 18 = true))

/-- R58–R60, R66, R67, R71: a host write to program memory in a reserved cycle with room lands while debug is unlocked and marks the
configuration unsigned, and is refused with a WARN while it is locked; one to data memory lands within SEQ_HOST_WIN, and changes no byte
and raises a WARN outside it; a queued access that fits is served; a post sets FULL and its count, or OVR while FULL stands; writes of 1
release the mailboxes; halt, step and resume act on a thread while debug is unlocked. (Each W1C bit as it stood when the cycle began.) -/
def Obligations.SequencerAccessesAct : Prop :=
  ∀ (s : State) (t : Fin 16) (m : Fin 8) (addr : Nat) (data : List Byte),
    (s.dbgOpen = true → s.reserved = true → s.seq.waiting = [] → data ≠ [] →
      s.seq.served + dwordCount ((bytesAt (addr % 0x40000) data).map Prod.fst) ≤ 400 →
      Leads s (.pmemHostWrite addr data) fun x => x.mem = { s.mem with pmem := putBytes s.mem.pmem (bytesAt (addr % 0x40000) data) }
        ∧ x.vin.unsigned = true)
    ∧ (s.dbgOpen = false → Leads s (.pmemHostWrite addr data) fun x => x.mem = s.mem ∧ x.Arisen (Ev.writeRefused 2) 0)
    ∧ ((∀ x ∈ bytesAt (addr % 0x20000) data, inWin (s.getR R.SEQ_HOST_WIN) x.1 = true) → s.reserved = true → s.seq.waiting = [] →
      s.seq.served + dwordCount ((bytesAt (addr % 0x20000) data).map Prod.fst) ≤ 400 →
      Leads s (.dmemHostWrite addr data) fun x => x.mem = { s.mem with dmem := putBytes s.mem.dmem (bytesAt (addr % 0x20000) data) })
    ∧ (∀ y ∈ bytesAt (addr % 0x20000) data, inWin (s.getR R.SEQ_HOST_WIN) y.1 = false →
      Leads s (.dmemHostWrite addr data) fun x => x.mem = s.mem ∧ x.Arisen (Ev.writeRefused 2) 0)
    ∧ (∀ h, s.reserved = true → s.seq.waiting = [h] → h.prog = false → s.seq.served + dwordCount h.addrs ≤ 400 →
      Leads s .hostMemAccess fun x => x.seq.waiting = [] ∧ x.mem = { s.mem with dmem := putBytes s.mem.dmem h.write }
        ∧ x.host.readData = s.host.readData ++ h.read.map (rdByte s.mem.dmem) ∧ x.seq.served = s.seq.served + dwordCount h.addrs)
    ∧ (∀ p w, w.getLsbD 0 = true → s.startR (R.SEQ_MBI_STATUS m) = s.getR (R.SEQ_MBI_STATUS m) →
      Leads s (.mbiRelease p m w) fun x => x.flag (F.SEQ_MBI_STATUS_FULL m) = false)
    ∧ (∀ p w, 1 ≤ bits w 0 5 → bits w 0 5 ≤ 16 → s.flag (F.SEQ_MBO_STATUS_FULL m) = false →
      Leads s (.seqMboPost p m w) fun x => x.flag (F.SEQ_MBO_STATUS_FULL m) = true ∧ x.getF (F.SEQ_MBO_STATUS_COUNT m) = bits w 0 5
        ∧ x.Arisen Ev.SEQ_MBOX_POSTED m)
    ∧ (∀ p w, 1 ≤ bits w 0 5 → bits w 0 5 ≤ 16 → s.flag (F.SEQ_MBO_STATUS_FULL m) = true →
      Leads s (.seqMboPost p m w) fun x => x.flag (F.SEQ_MBO_STATUS_OVR m) = true ∧ ∀ o, o ≠ R.SEQ_MBO_STATUS m → x.getR o = s.getR o)
    ∧ (∀ p w, w.getLsbD 0 = true → w.getLsbD 1 = true → s.startR (R.SEQ_MBO_STATUS m) = s.getR (R.SEQ_MBO_STATUS m) →
      Leads s (.mboRelease p m w) fun x => x.flag (F.SEQ_MBO_STATUS_FULL m) = false ∧ x.flag (F.SEQ_MBO_STATUS_OVR m) = false)
    ∧ (s.dbgOpen = true →
      ((s.thr t).st = .eligible ∨ (s.thr t).st = .waiting → Leads s (.dbgHalt t) fun x => (x.thr t).st = .debugHalted ∧ (x.thr t).back = (s.thr t).st)
      ∧ ((s.thr t).st = .debugHalted → (Leads s (.dbgStep t) fun x => (x.thr t).step = true ∧ (x.thr t).st = .debugHalted)
        ∧ ((s.thr t).susp = false → Leads s (.dbgResume t) fun x => (x.thr t).st = (s.thr t).back)))

/-- R106, R107, R109, R110, R123, R124: a doorbell that passes its tests publishes the tail of its submission queue or releases the
entries of CQ or EVR up to its head, and one that fails them is dropped and counted; a vector that is masked has its mask bit set, and
one that is unmasked with its pending bit set sends one message; a coalescing timeout leaves nothing unsignalled of its ring; the base and
the size of a ring that is disabled take what the host writes, and a write to a ring that is enabled is refused with a WARN. -/
def Obligations.DoorbellsVectorsAndRings : Prop :=
  ∀ s : State,
    (∀ (q : Fin 2) w i, s.doorbell q w = some i → Leads s (.sqDoorbell q w) fun t => t.host.sqTail = s.host.sqTail.set q i)
    ∧ (∀ w i k, s.doorbell 2 w = some i → s.released 2 s.host.cq.length i = some k →
      Leads s (.cqDoorbell w) fun t => t.host.cq = s.host.cq.drop k ∧ t.host.cqFree = s.host.cqFree + k)
    ∧ (∀ w i k, s.doorbell 3 w = some i → s.released 3 s.host.evr.length i = some k →
      Leads s (.evrDoorbell w) fun t => t = { s with host := { s.host with evr := s.host.evr.drop k } })
    ∧ (∀ (q : Fin 2) w, s.doorbell q w = none → Leads s (.sqDoorbell q w) fun t => t = s.incR R.HIF_DB_DROP 1)
    ∧ (∀ v : Fin 64, s.host.msixPend.getLsbD v = true → Leads s (.msixUnmask v false) fun t =>
      t.host.msixSent[v] = s.host.msixSent[v] + 1 ∧ t.host.msixPend.getLsbD v = false ∧ t.host.msixMask.getLsbD v = false)
    ∧ (∀ v : Fin 64, Leads s (.msixUnmask v true) fun t => t.host.msixMask.getLsbD v = true ∧ t.host.msixPend = s.host.msixPend)
    ∧ (s.getF F.HIF_COAL_TICKS ≠ 0 →
      (s.host.evrUnsig ≠ 0 → s.host.evrOldest + s.getF F.HIF_COAL_TICKS ≤ s.tick →
        Leads s (.coalTimeout true) fun t => t.host.evrUnsig = 0 ∧ t.host.evr = s.host.evr)
      ∧ (s.host.cqUnsig ≠ 0 → s.host.cqOldest + s.getF F.HIF_COAL_TICKS ≤ s.tick →
        Leads s (.coalTimeout false) fun t => t.host.cqUnsig = 0 ∧ t.host.cq = s.host.cq))
    ∧ (∀ (r : Fin 4) w, s.ringOn r = false →
      (bits w 0 12 = 0 → Leads s (.ringBaseWrite .host r false w) fun t => t.regs = s.regs
        ∧ SMap.get resetWord t.low (R.HIF_RING_BASE_LO r) = w)
      ∧ (Leads s (.ringBaseWrite .host r true w) fun t => t.getR (R.HIF_RING_BASE_HI r) = w
        ∧ t.getR (R.HIF_RING_BASE_LO r) = SMap.get resetWord s.low (R.HIF_RING_BASE_LO r))
      ∧ (4 ≤ bits w 0 4 → bits w 0 4 ≤ 12 → Leads s (.ringSizeWrite .host r w) fun t => t.getF (F.HIF_RING_SIZE r) = bits w 0 4))
    ∧ (∀ (r : Fin 4) w h, s.ringOn r = true →
      (Leads s (.ringBaseWrite .host r h w) fun t => t.regs = s.regs ∧ t.low = s.low ∧ t.Arisen (Ev.writeRefused 3) 0)
      ∧ (Leads s (.ringSizeWrite .host r w) fun t => t.regs = s.regs ∧ t.Arisen (Ev.writeRefused 3) 0))

/-- R66, R109, R112, R113, R115, R118, R121, R380, R384: what the commands of the submission queues do when they are consumed. A page
takes a credit and is in the Press, or is answered NO_CREDIT; a discard of a held page waits for the tick boundary, and there a STORED
page leaves with a DISCARDED retire entry before the command is answered OK; a discard of a page that is not held is answered
UNKNOWN_TAG; a mailbox command has its payload read, whose end fills the mailbox and answers it OK; a Rinse that nothing refuses is
requested over the jammed and the stranded sheets; a meter report waits for its snapshot; an undefined opcode is answered BAD_OPCODE. -/
def Obligations.HostCommandsAreConsumed : Prop :=
  ∀ (s : State) (e : SqEntry), s.devIs 4 = true →
    (e.opcode = 0x01#8 → s.canConsume 0 2 = true → zeroFrom e 4 = true → e.dw[0] ≠ 0#32 → s.flag F.CEL_STATUS_AUDIT_FAIL = false →
      s.getF F.PRS_STATUS_IN_SERVICE ≠ 0 → s.getF F.HIF_PAGE_CREDITS ≠ 0 → s.page e.dw[0] = none →
      Leads s (.pageSubmit 0 e) fun t => t.cel.pages = s.cel.pages ++ [{
          tag := e.dw[0], cid := e.cid, seq := s.cel.nextSeq, desc := e.dw[1].toNat + 0x100000000 * e.dw[2].toNat, descLen := e.dw[3].toNat }]
        ∧ t.getF F.HIF_PAGE_CREDITS = s.getF F.HIF_PAGE_CREDITS - 1 ∧ t.answers = s.answers)
    ∧ (e.opcode = 0x01#8 → s.canConsume 0 2 = true → zeroFrom e 4 = true → e.dw[0] ≠ 0#32 → s.flag F.CEL_STATUS_AUDIT_FAIL = false →
      s.getF F.PRS_STATUS_IN_SERVICE ≠ 0 → s.getF F.HIF_PAGE_CREDITS = 0 →
      Leads s (.pageSubmit 0 e) fun t => s.Answered t e.cid .noCredit ∧ t.cel = s.cel)
    ∧ (∀ p, e.opcode = 0x02#8 → s.canConsume 0 1 = true → zeroFrom e 1 = true → s.page e.dw[0] = some p →
      Leads s (.pageDiscard 0 e) fun t => t.answers = s.answers
        ∧ t.host.discards = s.host.discards ++ [{ tag := e.dw[0], seq := p.seq, cid := e.cid, tick := s.tick }])
    ∧ (e.opcode = 0x02#8 → s.canConsume 0 1 = true → zeroFrom e 1 = true → s.page e.dw[0] = none →
      Leads s (.pageDiscard 0 e) fun t => s.Answered t e.cid .unknownTag ∧ t.cel = s.cel)
    ∧ (∀ d p, s.host.discards = [d] → d.tick < s.tick → s.cel.pages.find? (fun x => x.tag == d.tag && x.seq == d.seq) = some p →
      p.st = .stored → Leads s (.pageDiscardAction d.tag) fun t => t.host.discards = [] ∧ t.page d.tag = none
        ∧ ∃ r x, t.answers = s.answers ++ [r, x] ∧ r.retire = true ∧ r.status = .discarded ∧ r.resA = d.tag ∧ x.cid = d.cid ∧ x.status = .ok)
    ∧ (∀ m payload, e.opcode = 0x21#8 → s.canConsume 1 1 = true → zeroFrom e 3 = true → e.dw[0] &&& ~~~0x1F07#32 = 0#32 →
      1 ≤ bits e.dw[0] 8 5 → bits e.dw[0] 8 5 ≤ 16 → m = { cid := e.cid, box := bits e.dw[0] 0 3, count := bits e.dw[0] 8 5, payload := payload } →
      Leads s (.mailbox 1 e payload) fun t => t.host.mails = s.host.mails ++ [m] ∧ t.answers = s.answers)
    ∧ (∀ m r x y, s.host.mails = m :: r → m.box < 8 → 1 ≤ m.count → m.count ≤ 16 → (s.chan 5).stale = [] → (s.chan 5).issued = x :: y →
      x.gen = s.getF (F.RCK_CH_STATUS_GEN 5) → x.job ≠ 0 → x.write = false → s.flag (F.SEQ_MBI_STATUS_FULL m.box) = false →
      Leads s (.rackingTransactionDone 5 .ok) fun t => t.host.mails = r ∧ t.flag (F.SEQ_MBI_STATUS_FULL m.box) = true
        ∧ t.getF (F.SEQ_MBI_STATUS_COUNT m.box) = m.count ∧ t.getR (R.SEQ_MBI_DATA m.box 0) = m.payload[0] ∧ s.Answered t m.cid .ok)
    ∧ (e.opcode = 0x31#8 → s.canConsume 1 1 = true → zeroFrom e 0 = true → (∀ sh ∈ s.led.sheets, sh.place.inPath = false) →
      s.host.rinse = none → Leads s (.rinse 1 e) fun t => t.flag F.LDG_RINSE_REQ = true ∧ t.answers = s.answers
        ∧ t.host.rinse = some {
            cid := e.cid, since := s.tick, ids := (s.led.sheets.filter fun sh => sh.place == .jammed || sh.place == .stranded).map Sheet.id })
    ∧ (e.opcode = 0x20#8 → s.canConsume 1 1 = true → e.rsvd0 = 0 → e.rsvd1 = 0 → e.dw[3] = 0 → e.dw[4] = 0 → e.dw[5] = 0 →
      s.flag F.SEC_STATUS_RNG_FAIL = false → 3280 ≤ e.dw[2].toNat →
      Leads s (.meterReport 1 e) fun t => ∃ m, t.host.meters = s.host.meters ++ [m] ∧ m.cid = e.cid ∧ m.tick = s.tick ∧ m.body = none
        ∧ m.addr = e.dw[0].toNat + 0x100000000 * e.dw[1].toNat)
    ∧ (∀ q, opcodes.contains e.opcode = false → s.canConsume q 1 = true →
      Leads s (.undefinedCommand q e) fun t => s.Answered t e.cid .badOpcode ∧ t.cel = s.cel ∧ t.led = s.led)

/-- R373, R377, R380, R384, R417: a committed record has acted on the committed ledger, in its order; a write of LDG_SPOIL spoils its
sheet with a journal entry, or is refused with a WARN where no record holds it; a CLEAR that moves no page ends the Rinse with OK, and
waits while the ledger is frozen; FAIL and the timeout end it with RINSE_REFUSED and leave the ledger; the snapshot of a report is signed
with a fresh nonce and written by channel 5, or answered VINTAGE_FAIL where random numbers fail; the held event of
lowest serial is the next entry of EVR; an audit leaves ledger and pages alone. -/
def Obligations.LedgerCommandsAct : Prop :=
  ∀ s : State,
    (Leads s .journalCommit fun t => t.jr.inflight = [] ∧ t.jr.cur = s.jr.cur ∧ t.jr.backlog = s.jr.backlog
      ∧ t.nvm.led = s.jr.inflight.foldl (fun l x => l.apply x.2) s.nvm.led)
    ∧ (∀ p id sh, s.led.find id = some sh → sh.place.inEngine = true → sh.spoiled = false → s.jr.frozenAc = false →
      Leads s (.spoil p id) fun t => t.led = s.led.apply (.spoil id) ∧ t.jr.cur = s.jr.cur ++ [(s.recTick, .spoil id)])
    ∧ (∀ p id, s.led.find id = none → Leads s (.spoil p id) fun t => t.led = s.led ∧ t.Arisen (Ev.writeRefused 0x13) 0)
    ∧ (∀ p j, s.host.rinse = some j →
      (s.frozen = false → s.jr.frozenAc = false → (∀ x ∈ s.cel.pages, x.sheet = none) → Leads s (.rinseClear p) fun t => t.host.rinse = none
        ∧ t.led = s.led.apply (.purge j.ids) ∧ s.Answered t j.cid .ok ∧ t.flag F.LDG_RINSE_REQ = false)
      ∧ (s.frozen = true → Leads s (.rinseClear p) fun t => t.host.rinse = some { j with heldClear := true } ∧ t.led = s.led)
      ∧ (j.heldClear = false → Leads s (.rinseFail p) fun t => t.host.rinse = none ∧ s.Answered t j.cid .rinseRefused ∧ t.led = s.led
          ∧ t.getF F.LDG_RINSE_CAUSE = 3)
      ∧ (j.heldClear = false → j.since + (s.getR R.LDG_RINSE_TO).toNat ≤ s.tick → Leads s .rinseTimeout fun t =>
          t.host.rinse = none ∧ s.Answered t j.cid .rinseRefused ∧ t.led = s.led ∧ t.Arisen Ev.LDG_RINSE_TIMEOUT 0))
    ∧ (∀ m r b, s.host.meters = m :: r → m.body = some b → s.flag F.SEC_STATUS_RNG_FAIL = false →
      Leads s .meterSnapshot fun t => t.host.meters = r ∧ t.freeCtr = s.freeCtr + 1
        ∧ t.host.sending = s.host.sending ++ [(m.cid, m.addr, b
            ++ Crypto.ecdsaSign (s.fuse.idKey.getD 0) (Config.freeValue 256 s.freeCtr) (Crypto.sha256 b))])
    ∧ (∀ m r, s.host.meters = m :: r → s.flag F.SEC_STATUS_RNG_FAIL = true →
      Leads s .meterSnapshot fun t => t.host.meters = r ∧ s.Answered t m.cid .vintageFail)
    ∧ (∀ e, s.evrRoom = true → lowest (s.ev.alarms ++ s.ev.general ++ s.ev.markers) = some e → s.host.cqHeld = [] →
      (∀ c, (s.chan c).queued = []) →
      Leads s .evrCopy fun t => ∃ l, t.host.evr = s.host.evr ++ (e, s.flag (F.HIF_RING_PTR_PHASE 3)) :: l)
    ∧ Leads s .tickAudits fun t => t.led = s.led ∧ t.cel.pages = s.cel.pages
      ∧ (s.cycle < 3800 → t.tsc = BitVec.ofNat 64 (s.tick * 4000 + 3800))

/-- R375: the ledger's identity holds of the empty ledger, and these transitions of Table 18-1 keep it: a sheet enters by PICK or as a
record of a handover that no record holds yet, a held sheet moves or leaves, changes owner, is spoiled, takes its second page or enters
or leaves a handover, the path is stranded, a set is purged, and the record of a handover is deleted. -/
def Obligations.LedgerTransitionsKeepTheIdentity : Prop :=
  ({} : Ledger).auditOk = true
    ∧ ∀ (l : Ledger) (e : JEntry), l.auditOk = true →
      ((∃ sh, e = .enter sh true ∧ sh.place = .picked ∧ ∀ x ∈ l.sheets, x.id ≠ sh.id)
        ∨ (∃ id p o, e = .move id p o ∧ p.inEngine = true ∧ ∀ x ∈ l.sheets, x.id = id → x.place.inEngine = true)
        ∨ (∃ id z sh, e = .leave id z ∧ sh ∈ l.sheets ∧ sh.id = id ∧ ∀ x ∈ l.sheets, x.id = id → x = sh ∧ x.place.inEngine = true)
        ∨ (∃ id o, e = .own id o) ∨ (∃ id, e = .spoil id) ∨ (∃ id t, e = .second id t) ∨ (∃ id b, e = .handoff id b)
        ∨ (∃ k, e = .strand k) ∨ (∃ ids, e = .purge ids) ∨ (∃ sh, e = .pendIn sh ∧ sh.place = .pendingIn) ∨ (∃ id, e = .pendDel id)) →
      (l.apply e).auditOk = true

/-- R107, R125, R126, R128–R130: the oldest transaction of a channel ends and gives its token back; a fetch of submission entries moves
the index of its queue; a bus error, an address beyond DRAM, a completion timeout and a transfer timeout halt the channel with their
cause; data of an older generation is counted; RESUME ends the halt, ABORT ends the transfer that failed, and neither acts on a channel that is
not halted. -/
def Obligations.RackingChannelsEndHaltAndResume : Prop :=
  ∀ (s : State) (c : Fin 16) (x : Txn) (rest : List Txn), (s.chan c).stale = [] → (s.chan c).issued = x :: rest →
    (x.gen = s.getF (F.RCK_CH_STATUS_GEN c) → (c = 2 ∨ c = 3 ∨ c = 14) → (∀ d, (s.chan d).queued = []) → s.getF F.RCK_TOKENS_FREE < 64 →
      Leads s (.rackingTransactionDone c .ok) fun t => (t.chan c).issued = rest ∧ t.getF F.RCK_TOKENS_FREE = s.getF F.RCK_TOKENS_FREE + 1)
    ∧ (∀ q : Fin 2, x.gen = s.getF (F.RCK_CH_STATUS_GEN c) → c = 0 → x.job ≠ 0 → x.write = false → x.tag = q.val →
      Leads s (.rackingTransactionDone c .ok) fun t =>
        t.host.sqRead = s.host.sqRead.set q ((s.host.sqRead[q] + x.bytes / 64) % s.ringLen q))
    ∧ (∀ cause : BitVec 3, x.gen = s.getF (F.RCK_CH_STATUS_GEN c) → (cause = 1#3 ∨ cause = 2#3 ∨ cause = 3#3) → inDram c = false →
      s.halted c = false → Leads s (.rackingTransactionDone c (.busError cause)) fun t => t.halted c = true
        ∧ t.getF (F.RCK_CH_STATUS_CAUSE c) = cause.toNat ∧ t.getP (R.RCK_CH_FAIL_LO c) = x.addr % 2 ^ 64 ∧ t.Arisen Ev.RCK_BUS_ERROR c)
    ∧ (∀ res, s.outOfRange c x = true → x.gen = s.getF (F.RCK_CH_STATUS_GEN c) → s.halted c = false →
      Leads s (.rackingTransactionDone c res) fun t => t.halted c = true ∧ t.getF (F.RCK_CH_STATUS_CAUSE c) = 6)
    ∧ (x.gen ≠ s.getF (F.RCK_CH_STATUS_GEN c) → x.write = false →
      Leads s (.rackingTransactionDone c .ok) fun t => t.led = s.led ∧ t.cel = s.cel ∧ t.vin = s.vin ∧ t.answers = s.answers
        ∧ t.getR (R.RCK_CH_WDRAW c) = BitVec.ofNat 32 (min 0xFFFFFFFF ((s.getR (R.RCK_CH_WDRAW c)).toNat + 1)))
    ∧ (readsHost c x = true → s.halted c = false →
      Leads s (.completionTimeout c) fun t => t.halted c = true ∧ t.getF (F.RCK_CH_STATUS_CAUSE c) = 4 ∧ t.Arisen Ev.RCK_BUS_ERROR c)
    ∧ (∀ k, isStation c = false → s.halted c = false → x.job ≠ 0 → (s.chan c).issuedAt x.job = some k →
      k + (s.getR R.RCK_XFER_TIMEOUT).toNat ≤ s.tick →
      Leads s (.transferTimeout c) fun t => t.halted c = true ∧ t.getF (F.RCK_CH_STATUS_CAUSE c) = 5 ∧ t.Arisen Ev.RCK_BUS_ERROR c)
    ∧ (∀ p w, s.halted c = false →
      (Leads s (.channelResume p c w) fun t => t = s) ∧ (Leads s (.channelAbort p c w) fun t => t = s))
    ∧ (∀ p, s.halted c = true → Leads s (.channelResume p c 1#32) fun t => t.halted c = false)
    ∧ (∀ p y, s.halted c = true → c = 14 → (s.chan c).failed = some y → y.job ≠ 0 → Leads s (.channelAbort p c 2#32) fun t => t.halted c = false ∧ t.Arisen Ev.RCK_XFER_DROPPED 14)
    ∧ (∀ p m r y, s.halted c = true → c = 5 → (s.chan c).failed = some y → y.job ≠ 0 → y.write = true → s.host.sending = m :: r →
      Leads s (.channelAbort p c 2#32) fun t => t.host.sending = r ∧ s.Answered t m.1 .busError)

/-- R127, R134–R138, R143, R144, R146: the next page begins in the Press while it is idle; a descriptor whose first dword is not that of a
page ends it with BAD_FIELD; a descriptor of one plane that obeys its rules gives a pre-encoded page its plane and has the band table of a
raw one read, and a band table that obeys its rules gives a raw page its plane; an index table that obeys its rules is taken up, and one
that breaks them ends its page with BAD_BLOCK. -/
def Obligations.PagesAreReadAndChecked : Prop :=
  ∀ (s : State) (p : Page),
    (s.cel.pages.find? (fun x => x.st == .inPress && !x.started) = some p → s.flag F.PRS_STATUS_BUSY = false →
      Leads s .pressPageStart fun t => t.prs.handed = 0 ∧ t.prs.storedN = 0 ∧ t.getR R.PRS_CUR_TAG = p.tag ∧ t.flag F.PRS_STATUS_BUSY = true
        ∧ ∃ x, t.page p.tag = some x ∧ x.started = true)
    ∧ (s.pressing = some p → p.planes = [] → s.halted 2 = false → s.reading 2 p.seq 0 (2 ^ 64) = false →
      (∀ desc bands, p.descr = [] → dword desc 0 ≠ 0x00015047#32 →
        Leads s (.descriptorCheck desc bands) fun t => s.Answered t p.cid .badField ∧ t.page p.tag = none)
      ∧ (∀ desc bands l q, desc.length = 24 → l = desc.drop 8 → p.descLen = 96 → p.desc % 64 = 0 → headerOk desc 1 = true →
        readPlane l p.stamps = q → (List.range 6).filter (fun i => (dword desc 1).getLsbD i) = [q.station.val] →
        planeOk l q (s.applF (F.DEC_GEOM_EN q.station) != 0) = true →
        (q.pre = true → p.descr = [] → bits (dword l 2) 0 16 = q.gen →
          Leads s (.descriptorCheck desc bands) fun t => (∃ x, t.page p.tag = some x ∧ x.lines = (dword desc 2).toNat ∧ x.planes = [q])
            ∧ t.answers = s.answers)
        ∧ (q.pre = false → p.descr = [] →
          Leads s (.descriptorCheck desc bands) fun t => (∃ x, t.page p.tag = some x ∧ x.descr = desc ∧ x.planes = []) ∧ t.answers = s.answers)
        ∧ (∀ b, q.pre = false → p.descr = desc → b.length = q.count → bandsOk b (dword desc 2).toNat = true →
          Leads s (.descriptorCheck desc [b]) fun t => (∃ x, t.page p.tag = some x ∧ x.lines = (dword desc 2).toNat
            ∧ x.planes = [{ q with bands := readBands b }]) ∧ t.answers = s.answers)))
    ∧ (∀ (k : Fin 6) q entries, s.pressing = some p → p.planes[k.val]? = some q → q.pre = true → q.index = [] → s.halted 1 = false →
      s.reading 1 p.seq q.table (8 * q.count) = false → entries.length = q.count →
      (indexOk q.len entries = true → q.count = ((List.range q.geom.adv).map (q.streamBlocks p.lines)).foldl (· + ·) 0 →
        Leads s (.indexTableCheck k entries) fun t => ∃ x y, t.page p.tag = some x ∧ x.planes[k.val]? = some y
          ∧ y.index = entries.map fun e => (e.toNat % 2 ^ 40, e.toNat / 2 ^ 40))
      ∧ (indexOk q.len entries = false → Leads s (.indexTableCheck k entries) fun t => s.Answered t p.cid .badBlock ∧ t.page p.tag = none))

/-- R127, R143, R145–R150, R152, R153, R177: the lowest free lane takes the next block once its tables are read, a raw block as the dots of its
lines and a pre-encoded block as it is; a lane whose output decodes to its lines is verified, and so is a pre-encoded block that obeys
its rules; one that breaks them ends the page with BAD_BLOCK; a verify fault of a coded form is counted and the stored form follows; a
verified block that is next is stored where there is room, the last one completing its page, and its lane waits where there is neither
room nor anything to evict; after PRS_SPACE_WAIT ticks the page ends with NO_SPACE. -/
def Obligations.LanesEncodeVerifyAndStore : Prop :=
  ∀ (s : State) (p : Page) (q : Plane) (l : Fin 4) (b : BlockPos), s.page p.tag = some p → p.planes[b.plane]? = some q →
    (∀ raw pre, s.freeLane = some l.val → s.nextBlock = some (p.tag, b) → s.flag F.PRS_STATUS_PAUSED = false → q.tablesRead = true →
      Leads s (.laneBlockStart raw pre) fun t => (t.lane l).job = some (p.tag, b) ∧ (t.lane l).pre = q.pre ∧ (t.lane l).verified = false
        ∧ (q.pre = false → (t.lane l).raw = q.rawLines p.lines b raw
          ∧ (t.lane l).out = (Zrb.emitBlock q.depth q.tmode (q.rawLines p.lines b raw) q.width).1))
    ∧ ((s.lane l).job = some (p.tag, b) → (s.lane l).verified = false → s.flag F.PRS_STATUS_PAUSED = false → s.laneReading l = false →
      ((s.lane l).pre = false → Lane.selfOk (s.lane l) = true → Leads s (.blockVerify l none) fun t =>
        t.lane l = { s.lane l with verified := true } ∧ t.getF (F.PRS_LANE_STATE_STATE l) = 2)
      ∧ ((s.lane l).pre = true → preOk p q b (s.lane l).out = true → Leads s (.blockVerify l none) fun t =>
        t.lane l = { s.lane l with verified := true } ∧ t.regs = s.regs)
      ∧ ((s.lane l).pre = true → preOk p q b (s.lane l).out = false → Leads s (.blockVerify l none) fun t =>
        s.Answered t p.cid .badBlock ∧ t.page p.tag = none)
      ∧ (∀ seen, (s.lane l).pre = false → (s.lane l).storedForm = false → Lane.selfOk { s.lane l with out := seen } = false →
        s.getF (F.PRS_LANE_PGFAULT l) < 2 →
        Leads s (.blockVerify l (some seen)) fun t => (t.lane l).storedForm = true ∧ (t.lane l).job = some (p.tag, b)
          ∧ (t.lane l).out = Zrb.storedForm q.depth (s.lane l).raw q.width 2
          ∧ t.getF (F.PRS_LANE_PGFAULT l) = s.getF (F.PRS_LANE_PGFAULT l) + 1 ∧ t.Arisen Ev.PRS_VERIFY_FAULT l))
    ∧ (∀ c, (s.lane l).job = some (p.tag, b) → (s.lane l).verified = true → s.flag F.PRS_STATUS_PAUSED = false →
      p.tag = s.getR R.PRS_CUR_TAG → p.order[s.prs.storedN]? = some b →
      (q.needs (s.lane l) ≤ s.granAvail → s.prs.storedN + 1 < p.order.length →
        Leads s (.blockStore l c) fun t => t.prs.storedN = s.prs.storedN + 1 ∧ t.lane l = {} ∧ t.flag F.PRS_STATUS_SPACE_WAIT = false
          ∧ ∃ x y, t.page p.tag = some x ∧ x.planes[b.plane]? = some y ∧ y.blocks = q.blocks ++ [{
              stream := b.stream, round := b.round, pos := Zrb.up8 q.chainEnd, data := (s.lane l).out }])
      ∧ (q.needs (s.lane l) ≤ s.granAvail → p.order.length = s.prs.storedN + 1 → (∀ y ∈ p.planes, y.gen = s.getF (F.PRS_GEOM_GEN y.station)) →
        Leads s (.blockStore l c) fun t => s.Answered t p.cid .ok ∧ ∃ x, t.page p.tag = some x ∧ x.st = .stored)
      ∧ (s.granAvail < q.needs (s.lane l) → s.victims = [] → s.cel.evicting = [] →
        Leads s (.blockStore l c) fun t => t.prs.storedN = s.prs.storedN ∧ t.lane l = s.lane l ∧ t.flag F.PRS_STATUS_SPACE_WAIT = true))
    ∧ (∀ n, p.tag = s.getR R.PRS_CUR_TAG → s.cel.waitSince = some n → n + (s.getR R.PRS_SPACE_WAIT).toNat ≤ s.tick → s.spaceCame p = false →
      Leads s .spaceWaitTimeout fun t => s.Answered t p.cid .noSpace ∧ t.Arisen Ev.PRS_NO_SPACE 0 ∧ t.page p.tag = none)

/-- R179, R182, R183, R187, R188, R190, R191: an admission pass commits the one STORED page where the admission function passes it, and
writes the reason at it where it does not; an eviction that channel 6 has written moves its granule to DRAM unless it has been locked; a
refill takes a free granule and starts to read; a corrected Cellar error is counted, an uncorrectable one in its bank, and the third of a
bank retires it. -/
def Obligations.TheCellarAdmitsEvictsAndRefills : Prop :=
  ∀ s : State,
    (∀ p, s.cel.pages = [p] → p.st = .stored → s.flag F.CEL_STATUS_AUDIT_FAIL = false → s.flag F.LDG_STATUS_RINSE_NEEDED = false →
      (∀ need b, s.admission p false = .ok need b → Leads s .admissionEvaluation fun t => ∃ x, t.cel.pages = [x] ∧ x.tag = p.tag
        ∧ x.st = .committed ∧ x.commitAt = some s.tsc)
      ∧ ((s.admission p false).code ≠ 0 → Leads s .admissionEvaluation fun t => ∃ x, t.cel.pages = [x] ∧ x.tag = p.tag ∧ x.st = .stored
        ∧ x.reason = (s.admission p false).code ∧ t.getR R.RCK_RES_TOTAL = s.getR R.RCK_RES_TOTAL))
    ∧ (∀ tag k i d g, s.evictionWritten = some (tag, k, i, d) → s.locked tag = false → s.granAt tag k i = some (.cellar g) →
      Leads s .evictionDone fun t => t.granAt tag k i = some (.dram d))
    ∧ (∀ tag k i d g, s.getF F.CEL_REFILL_RESERVE < s.getF F.CEL_GRAN_FREE → s.granAvail ≠ 0 → s.cel.evicting = [] →
      s.flag F.PRS_STATUS_SPACE_WAIT = false → s.refillNext = some (tag, k, i, d) → s.freeGran = some g →
      Leads s .refill fun t => t.cel.refilling = s.cel.refilling ++ [(tag, k, i, g)] ∧ t.cel.used = g :: s.cel.used
        ∧ t.flag F.CEL_STATUS_REFILLING = true)
    ∧ (∀ g : Fin 8192,
      (Leads s (.cellarSramError g false) fun t => t = s.incR R.CEL_SRAM_CORR 1)
      ∧ (s.ownerOf g = none → s.getF (F.CEL_BANK_UERR_COUNT (g.val / 256)) < 2 →
        Leads s (.cellarSramError g true) fun t =>
          t.getF (F.CEL_BANK_UERR_COUNT (g.val / 256)) = s.getF (F.CEL_BANK_UERR_COUNT (g.val / 256)) + 1 ∧ t.cel = s.cel)
      ∧ (s.getF (F.CEL_BANK_UERR_COUNT (g.val / 256)) = 2 →
        Leads s (.cellarSramError g true) fun t => t.Arisen Ev.CEL_BANK_RETIRED (g.val / 256)))

/-- R195–R206, R211, R217, R218, R239: an idle station begins to prime its oldest picked page; once every beam has its first line it is
primed, and armed if its compare has fired; a decoded line raises its notice; the fetch of a round whose slot is free starts; an edge of
the sweep clock takes its time, moves the sweep count on and drains the next sweep, or slips while the page is not yet ready; after the
last sweep the page's gap begins. -/
def Obligations.StationsPrimeSweepAndEndTheirPage : Prop :=
  ∀ (s : State) (i : Fin 6) (p : Page) (q : Plane),
    (s.stnIdle i = true → s.nextAt i = some (p, q) →
      Leads s (.primingStart i) fun t => (t.stnOf i).page = some p.tag ∧ (t.stnOf i).sweep = q.geom.sFirst
        ∧ (t.stnOf i).notices = [] ∧ t.getF (F.DEC_STATUS_STATE i) = 1)
    ∧ (s.stnPage i = some (p, q) →
      (s.getF (F.DEC_STATUS_STATE i) = 1 → s.undone i p q q.geom.beams = [] →
        Leads s (.primingDone i) fun t => (t.stnOf i).primed = true
          ∧ t.getF (F.DEC_STATUS_STATE i) = if (s.stnOf i).top = true then 2 else 1)
      ∧ (∀ (b : Fin 32) l, 1 ≤ s.getF (F.DEC_STATUS_STATE i) → s.getF (F.DEC_STATUS_STATE i) ≤ 3 → b.val < q.geom.beams →
        q.geom.line p.lines (s.stnOf i).sweep b = some l → s.decodable i q b l = true → s.undone i p q b = [] →
        (∀ x ∈ (s.stnOf i).notices, x < b.val) → ((s.stnOf i).beams[b]).credit = true → (s.stnOf i).skipping = false →
        Leads s (.lineComplete i b) fun t => (t.stnOf i).notices = (s.stnOf i).notices ++ [b.val] ∧ t.regs = s.regs)
      ∧ (∀ j, s.getF (F.DEC_STATUS_STATE i) = 3 → q.geom.shingle = false → (s.stnOf i).fetching[(0 : Fin 2)] = none →
        q.nextFetch p.lines (s.stnOf i).fetched[(0 : Fin 2)] = some j → j < s.oldestRound i p q 0 + q.winSlots →
        Leads s (.roundFetchStart i) fun t => (t.stnOf i).fetching[(0 : Fin 2)] = some j)
      ∧ (∀ e, s.edgeDue i = some e →
        (s.getF (F.DEC_STATUS_STATE i) = 3 → (s.stnOf i).sweep ≤ q.geom.sLast p.lines → s.flag (F.EXP_STATUS_CLAMPED i) = false →
          Leads s (.sweepEdge i) fun t => (t.stnOf i).sweep = (s.stnOf i).sweep + 1 ∧ (t.stnOf i).cur = (s.stnOf i).sweep
            ∧ (t.stnOf i).seq = (s.stnOf i).seq + (if (s.stnOf i).skipDue = true then 2 else 1) ∧ (t.stnOf i).notices = []
            ∧ (t.stnOf i).line.edgeAt = e ∧ t.getR (R.DEC_CUR_SWEEP i) = BitVec.ofInt 32 (s.stnOf i).sweep)
        ∧ (s.getF (F.DEC_STATUS_STATE i) = 1 → (s.stnOf i).top = true →
          Leads s (.sweepEdge i) fun t => (t.stnOf i).slips = (s.stnOf i).slips + 1 ∧ (t.stnOf i).sweep = (s.stnOf i).sweep
            ∧ (t.stnOf i).line.edgeAt = e))
      ∧ (s.getF (F.DEC_STATUS_STATE i) = 5 ∨ (s.getF (F.DEC_STATUS_STATE i) = 3 ∧ q.geom.sLast p.lines < (s.stnOf i).sweep) →
        Leads s (.pageGapBegin i) fun t => (t.stnOf i).page = none ∧ t.getF (F.DEC_STATUS_STATE i) = 4 ∧ t.getR (R.DEC_CUR_TAG i) = 0#32))

/-- R214–R216, R219–R222, R228, R233: the line clock follows its sample once in a tick, at cycle 600, and is clamped at its ceiling, and coasts in a signal fault; a
beam-detect pulse is stamped and paired with its edge, an early one rejected, a missing one counted; the dot clock locks after four good
windows and relocks on a loss; a slew with nothing left ends, and so does an overspeed that is cleared. -/
def Obligations.LineAndDotClocksFollowTheirMeasurements : Prop :=
  ∀ (s : State) (i : Fin 6),
    (∀ u line, line = { (s.stnOf i).line with upAt := some s.tick } →
      u = (line.sample s.brg.fbkAt[s.scOf i].pos (s.getR (R.EXP_LPITCH i)).toNat (s.scOf i).val).update
        (s.tsc + BitVec.ofNat 64 (600 - s.cycle)).toNat (s.getF (F.EXP_LCFG_BW i)) (s.lineTop i) →
      s.cycle ≤ 600 → (s.stnOf i).line.upAt ≠ some s.tick →
      (s.flag (F.FBK_STATUS_SIG_FAULT (s.scOf i)) = false →
        Leads s (.lineClockUpdate i) fun t => (t.stnOf i).line = u.1 ∧ t.flag (F.EXP_STATUS_CLAMPED i) = u.2 ∧ 600 ≤ t.cycle
          ∧ t.getR (R.EXP_TRACK_ERR i) = BitVec.ofInt 32 (Int.fdiv u.1.lag 0x10000) ∧ t.flag (F.EXP_STATUS_LINE_FAULT i) = false)
      ∧ (s.flag (F.FBK_STATUS_SIG_FAULT (s.scOf i)) = true →
        Leads s (.lineClockUpdate i) fun t => (t.stnOf i).line = line ∧ t.getR (R.EXP_TRACK_ERR i) = s.getR (R.EXP_TRACK_ERR i)
          ∧ t.flag (F.EXP_STATUS_LINE_FAULT i) = true))
    ∧ (600 < s.cycle ∨ (s.stnOf i).line.upAt = some s.tick → Leads s (.lineClockUpdate i) fun t => t = s)
    ∧ (∀ frac, (s.stnOf i).bds = [] →
      Leads s (.bdPulse i frac) fun t => (t.stnOf i).bds = [s.tsc.toNat * 1024 + frac.toNat] ∧ (t.stnOf i).bdMissed = 0
        ∧ (t.stnOf i).bdNum = ((s.stnOf i).bdNum + 1) % 256 ∧ t.getF (F.EXP_BD_FRAC_FRAC i) = frac.toNat
        ∧ ∀ e, s.phaseErr i (s.tsc.toNat * 1024 + frac.toNat) = some e → t.getF (F.EXP_PHERR i) = unsigned 16 e)
    ∧ (∀ frac a T n, (s.stnOf i).bds.head? = some a → s.facetSum i = some (T, n) → 2 * (s.tsc.toNat * 1024 + frac.toNat - a) * n < T →
      Leads s (.bdPulse i frac) fun t => t = s.incR (R.EXL_BD_REJECT i) 1)
    ∧ (∀ a w, (s.stnOf i).bds.head? = some a → s.tSweep i = some w → (3 + 2 * (s.stnOf i).bdMissed) * w ≤ 2 * (1024 * s.tsc.toNat - a) →
      Leads s (.bdMissingTimeout i) fun t => t.Arisen Ev.EXP_BD_MISSING i ∧ (t.stnOf i).bdMissed = (s.stnOf i).bdMissed + 1
        ∧ (t.stnOf i).freqRun = 0 ∧ (t.stnOf i).lockRun = 0 ∧ (1 ≤ (s.stnOf i).bdMissed → t.getF (F.EXP_STATUS_LOCK i) = 0))
    ∧ (∀ dev, s.getF (F.EXP_DCLK_STATUS_STATE i) = 1 →
      (dev ≤ 20 → s.dclkSteady i = true → 3 ≤ (s.stnOf i).windows →
        Leads s (.dclkLockWindow i dev) fun t => t.getF (F.EXP_DCLK_STATUS_STATE i) = 2)
      ∧ (20 < dev → Leads s (.dclkLockWindow i dev) fun t => (t.stnOf i).windows = 0 ∧ t.regs = s.regs))
    ∧ (∀ dev, s.getF (F.EXP_DCLK_STATUS_STATE i) = 2 → 100 < dev →
      Leads s (.dclkLockWindow i dev) fun t => t.getF (F.EXP_DCLK_STATUS_STATE i) = 1 ∧ t.Arisen Ev.EXP_DCLK_UNLOCK i)
    ∧ (s.getF (F.EXP_DCLK_STATUS_STATE i) ≠ 0 →
      Leads s (.dclkRefLoss i) fun t => t.getF (F.EXP_DCLK_STATUS_STATE i) = 1 ∧ (t.stnOf i).relockAt = s.tsc.toNat)
    ∧ (s.getF (F.EXP_DCLK_STATUS_STATE i) = 1 → (s.stnOf i).relockAt + 200000000 ≤ s.tsc.toNat →
      Leads s (.dclkRelockTimeout i) fun t => t.Arisen Ev.EXP_DCLK_TIMEOUT i ∧ (t.stnOf i).relockAt = s.tsc.toNat ∧ (t.stnOf i).windows = 0)
    ∧ ((s.stnOf i).slewLeft = 0 → (s.stnOf i).slewDue = 0 → Leads s (.gridSlewDone i) fun t =>
        t.flag (F.EXP_STATUS_SLEWING i) = false ∧ ∀ o, o ≠ R.EXP_STATUS i → t.getR o = s.getR o)
    ∧ ((s.stnOf i).slewLeft ≠ 0 → Leads s (.gridSlewDone i) fun t => t = s)
    ∧ (∀ u, s.flag (F.EXP_STATUS_CLAMPED i) = false → s.startR (R.EXP_STATUS i) = s.getR (R.EXP_STATUS i) →
      Leads s (.overspeedClear (.thread u) i) fun t =>
        t.flag (F.EXP_STATUS_OVERSPEED i) = false ∧ ∀ o, o ≠ R.EXP_STATUS i → t.getR o = s.getR o)
    ∧ (Leads s (.overspeedClear .host i) fun t => t = s)

/-- R245, R247, R252, R253: an exposure link trains step by step on the lanes of its attempt, goes on to the next attempt, fails after the
last one and starts again; a response with status OK ends its packet, one that does not come has it sent again; a head access waits for its
response, or ends with an error where the link is not up. -/
def Obligations.ExposureLinksTrainAndAnswer : Prop :=
  ∀ (s : State) (i : Fin 6),
    (s.flag (F.DEC_GEOM_EN i) = true → s.getF (F.EXL_STATUS_STATE i) = 0 →
      Leads s (.trainAttemptStart i) fun t => t.getF (F.EXL_STATUS_STATE i) = 1
        ∧ t.getF (F.EXL_STATUS_LANES i) = (if (s.stnOf i).nextAttempt ≤ 3 then 3 else if (s.stnOf i).nextAttempt = 4 then 1 else 2)
        ∧ (t.stnOf i).attemptAt = s.tsc.toNat)
    ∧ (s.getF (F.EXL_STATUS_STATE i) = 1 → Leads s (.retLock i) fun t => t.getF (F.EXL_STATUS_STATE i) = 2 ∧ t.stn = s.stn)
    ∧ (∀ d, s.getF (F.EXL_STATUS_STATE i) = 2 → s.getF (F.EXL_STATUS_LANES i) = 3 →
      (Leads s (.trainAck i true true d) fun t => t.getF (F.EXL_STATUS_STATE i) = 3) ∧ Leads s (.trainAck i true false d) fun t => t = s)
    ∧ (∀ a b, s.getF (F.EXL_STATUS_STATE i) = 3 → Leads s (.trainAck i a b true) fun t => t.getF (F.EXL_STATUS_STATE i) = 4
        ∧ ∃ p ∈ (t.stnOf i).pkts, p.kind = .config ∧ p.tag = (s.stnOf i).nextTag)
    ∧ (s.training i = true → (s.stnOf i).attemptAt + 200 * s.getF (F.EXL_TRAIN_TO i) ≤ s.tsc.toNat →
      (s.getF (F.EXL_STATUS_ATTEMPT i) < 3 → Leads s (.trainTimeout i) fun t => t.getF (F.EXL_STATUS_STATE i) = 0
        ∧ (t.stnOf i).nextAttempt = s.getF (F.EXL_STATUS_ATTEMPT i) + 1)
      ∧ (5 ≤ s.getF (F.EXL_STATUS_ATTEMPT i) → Leads s (.trainTimeout i) fun t => t.getF (F.EXL_STATUS_STATE i) = 6
        ∧ t.Arisen Ev.EXL_LINK_FAILED i))
    ∧ (s.getF (F.EXL_STATUS_STATE i) = 6 → (s.stnOf i).failedAt + 1000 ≤ s.tick →
      Leads s (.failedRestart i) fun t => t.getF (F.EXL_STATUS_STATE i) = 0)
    ∧ (∀ p tag d, (s.stnOf i).pkts.find? (fun x => x.tag == tag) = some p →
      (p.kind = .read → Leads s (.response i tag 0#8 d) fun t => t.getR (R.EXL_HDATA i) = d ∧ t.flag (F.EXL_HACC_BUSY i) = false
        ∧ ∀ x ∈ (t.stnOf i).pkts, x.tag ≠ tag)
      ∧ (p.kind = .config → Leads s (.response i tag 0#8 d) fun t => (t.stnOf i).configOk = true ∧ ∀ x ∈ (t.stnOf i).pkts, x.tag ≠ tag))
    ∧ (∀ p r, (s.stnOf i).pkts = p :: r → p.sentAt + 200 * s.getF (F.EXL_RESP_TO i) ≤ s.tsc.toNat → p.tries < 2 →
      Leads s (.responseTimeout i) fun t => ∃ x ∈ (t.stnOf i).pkts, x.tag = p.tag ∧ x.tries = p.tries + 1 ∧ s.tsc.toNat ≤ x.sentAt)
    ∧ (∀ p w, s.flag (F.EXL_HACC_BUSY i) = false → w.getLsbD 17 = true →
      (s.getF (F.EXL_STATUS_STATE i) = 5 → Leads s (.headAccess p i w) fun t => t.flag (F.EXL_HACC_BUSY i) = true
        ∧ t.getF (F.EXL_HACC_ADDR i) = bits w 0 16 ∧ (t.stnOf i).nextTag = (s.stnOf i).nextTag + 1#8)
      ∧ (s.getF (F.EXL_STATUS_STATE i) ≠ 5 → Leads s (.headAccess p i w) fun t => t.getF (F.EXL_HACC_RESULT i) = 1 ∧ t.stn = s.stn))
    ∧ (∀ p w, s.flag (F.EXL_HACC_BUSY i) = true → Leads s (.headAccess p i w) fun t => t.stn = s.stn ∧ t.flag (F.EXL_HACC_BUSY i) = true
        ∧ t.getF (F.EXL_HACC_ADDR i) = bits w 0 16 ∧ t.flag (F.EXL_HACC_OP i) = w.getLsbD 16)

/-- R237, R243, R249–R252, R255–R257: what the exposure head reports is taken up; a STATUS that shows a lane lost, one that does not come
and too many sync errors take the link down; packet CRC failures above the limit raise EXL_CRC_RATE; a return block that is right is
taken, one whose CRC-8 is wrong counted; a retrain restarts training at once in an idle station and waits otherwise; LEN differing for
three ticks sets LEN_MISMATCH, which is cleared only while both states agree. -/
def Obligations.ExposureHeadsReport : Prop :=
  ∀ (s : State) (i : Fin 6),
    (∀ flags temp crc, (s.stnOf i).crcLast = some crc.toNat → (∀ x ∈ (s.stnOf i).crcs, x.1 + 1000 ≤ s.tick) →
      s.getF (F.EXL_STATUS_STATE i) = 4 → (s.stnOf i).configOk = true → flags.getLsbD 0 = true →
      Leads s (.status i flags temp crc) fun t => t.getF (F.EXL_STATUS_STATE i) = 5 ∧ (t.stnOf i).settled = true)
    ∧ (∀ flags temp crc, (s.stnOf i).crcLast = some crc.toNat → (∀ x ∈ (s.stnOf i).crcs, x.1 + 1000 ≤ s.tick) →
      s.getF (F.EXL_STATUS_STATE i) = 5 → s.getF (F.EXL_STATUS_LANES i) = 3 → flags.getLsbD 3 = false →
      Leads s (.status i flags temp crc) fun t => t.Arisen Ev.EXL_LINK_DOWN i ∧ t.getF (F.EXL_STATUS_STATE i) = 0)
    ∧ (∀ flags temp crc n, (s.stnOf i).crcLast = some n → s.getF (F.EXL_CRC_LIMIT i) < (crc.toNat + 256 - n) % 256 →
      Leads s (.status i flags temp crc) fun t => t.Arisen Ev.EXL_CRC_RATE i ∧ (t.stnOf i).crcLast = some crc.toNat)
    ∧ (s.getF (F.EXL_STATUS_STATE i) = 5 → (s.stnOf i).statusAt + 1600 ≤ s.tsc.toNat →
      Leads s (.statusTimeout i) fun t => t.Arisen Ev.EXL_LINK_DOWN i ∧ t.getF (F.EXL_STATUS_STATE i) = 0)
    ∧ (∀ (e : BitVec 8) pw, e.toNat < 36 → Leads s (.apc i e pw) fun t => t.getF (F.EXL_APC_POWER i e.toNat) = pw.toNat
        ∧ t.getF (F.EXL_APC_AGE i e.toNat) = 0)
    ∧ (∀ e : BitVec 8, e.toNat < 36 → Leads s (.emitter i e 2#8) fun t => t.dead i e.toNat = true ∧ (t.stnOf i).deadSeen = true)
    ∧ (∀ e : BitVec 8, e.toNat < 36 → s.getF (F.EXL_APC_STATE i e.toNat) = 0 →
      Leads s (.emitter i e 1#8) fun t => t.Arisen Ev.EXL_EMITTER_DEGRADED i ∧ t.getF (F.EXL_APC_STATE i e.toNat) = 1)
    ∧ (∀ (seq : BitVec 16) beam sg r sw, (s.stnOf i).runOf seq.toNat = some (r, sw) →
      Leads s (.event i 3#8 seq beam sg) fun t => t.getR (R.EXL_SWEEP_LATE i) = (s.incR (R.EXL_SWEEP_LATE i) 1).getR (R.EXL_SWEEP_LATE i))
    ∧ (∀ hdr pay b, returnFault hdr pay = none → Leads s (.returnBlockError i hdr pay b) fun t => t = s)
    ∧ (∀ hdr pay b, returnFault hdr pay = some false → Leads s (.returnBlockError i hdr pay b) fun t => t = s.incR (R.EXL_RX_SYNC_ERR i) 1)
    ∧ (∀ hdr pay b, returnFault hdr pay = some true → s.getF (F.EXL_STATUS_STATE i) = 5 →
      15 ≤ ((s.stnOf i).syncErrs.filter fun x => Nat.blt b (x + 64)).length →
      Leads s (.returnBlockError i hdr pay b) fun t => t.Arisen Ev.EXL_LINK_DOWN i ∧ t.getF (F.EXL_STATUS_STATE i) = 0)
    ∧ (Leads s (.alignMarker i) fun t => (t.stnOf i).markers = (s.stnOf i).markers + 1#32 ∧ t.regs = s.regs)
    ∧ (∀ p w, s.stnIdle i = true → Leads s (.retrain p i w) fun t => t.getF (F.EXL_STATUS_STATE i) = 0
        ∧ t.flag (F.EXL_STATUS_RETRAIN_PENDING i) = false ∧ (t.stnOf i).nextAttempt = 1)
    ∧ (∀ p w, s.stnIdle i = false → Leads s (.retrain p i w) fun t => t.getF (F.EXL_STATUS_STATE i) = s.getF (F.EXL_STATUS_STATE i)
        ∧ t.flag (F.EXL_STATUS_RETRAIN_PENDING i) = true ∧ t.stn = s.stn)
    ∧ (∀ p w, Leads s (.retrainForce p i w) fun t => t.getF (F.EXL_STATUS_STATE i) = 0 ∧ (t.stnOf i).nextAttempt = 1)
    ∧ (3 ≤ (s.stnOf i).lenDiff → s.flag (F.EXL_STATUS_LEN_MISMATCH i) = false →
      Leads s (.lenMismatch i) fun t => t.flag (F.EXL_STATUS_LEN_MISMATCH i) = true ∧ t.Arisen Ev.EXL_LEN_MISMATCH i
        ∧ t.flag (F.EXL_STATUS_LEN_REQ i) = false)
    ∧ (∀ p, s.getF (F.EXL_STATUS_LEN_SEEN i) = s.getF (F.EXL_STATUS_LEN_OUT i) → s.startR (R.EXL_STATUS i) = s.getR (R.EXL_STATUS i) →
      Leads s (.lenMismatchClear p i) fun t => t.flag (F.EXL_STATUS_LEN_MISMATCH i) = false)
    ∧ (∀ p, s.getF (F.EXL_STATUS_LEN_SEEN i) ≠ s.getF (F.EXL_STATUS_LEN_OUT i) → Leads s (.lenMismatchClear p i) fun t => t = s)

/-- R261, R262, R265, R268–R271, R273: in Hall mode a valid code steps the position by its distance in sectors, turned by INVERT, a jump
of two or three sectors counting an error, and a code that is none leaves it and is reported once while it lasts; in quadrature mode a
change of one of A and B steps it by one, turned by INVERT, and a change of both counts an error and leaves it; in every other mode an
edge leaves it. An index that may be taken takes its reference, steps the position back by its error where that is within the window and
no signal fault holds the position, or is counted and reported, the third in a row ending the use of the index; one that may not is
without effect, and that of a sine/cosine channel waits for its sample. A rearm, a write of the position, a latch of a probe and its pop,
a qualified edge of an input pin and the end of a compare pulse do what their rules say, and nothing where their condition does not hold. -/
def Obligations.FeedbackChannelsCount : Prop :=
  ∀ s : State,
    (∀ (c : Fin 12) (code : BitVec 3) (k : Fin 18), k = c.castLE (by decide) →
      (∀ n o, s.getF (F.FBK_CFG_MODE c) = 1 → hallSector code.toNat = some n → (s.fbkOf k).sector = some o → o < 6 →
        Leads s (.hallEdge c code) fun t => (t.fbkOf k).sector = some n ∧ t.getF (F.FBK_STATUS_HALL c) = code.toNat
          ∧ t.flag (F.FBK_STATUS_HALL_INVALID c) = false
          ∧ t.pos c = s.pos c + BitVec.ofInt 32 ((if s.flag (F.FBK_CFG_INVERT c) = true then -1 else 1)
              * ([0, 1, 2, 0, -2, -1] : List Int).getD ((n + 6 - o) % 6) 0)
          ∧ t.getR (R.FBK_ERR c) = (if 2 ≤ (n + 6 - o) % 6 ∧ (n + 6 - o) % 6 ≤ 4 then s.incR (R.FBK_ERR c) 1 else s).getR (R.FBK_ERR c))
      ∧ (∀ n, s.getF (F.FBK_CFG_MODE c) = 1 → hallSector code.toNat = some n → (s.fbkOf k).sector = none →
        Leads s (.hallEdge c code) fun t => t.pos c = s.pos c ∧ (t.fbkOf k).sector = some n)
      ∧ (s.getF (F.FBK_CFG_MODE c) = 1 → hallSector code.toNat = none →
        Leads s (.hallEdge c code) fun t => t.pos c = s.pos c ∧ (t.fbkOf k).sector = (s.fbkOf k).sector
          ∧ t.flag (F.FBK_STATUS_HALL_INVALID c) = true
          ∧ (s.flag (F.FBK_STATUS_HALL_INVALID c) = false → t.Arisen Ev.FBK_HALL_INVALID c)
          ∧ (s.flag (F.FBK_STATUS_HALL_INVALID c) = true → t.ev = s.ev))
      ∧ (s.getF (F.FBK_CFG_MODE c) ≠ 1 →
        Leads s (.hallEdge c code) fun t => t.pos c = s.pos c ∧ t.getF (F.FBK_STATUS_HALL c) = code.toNat ∧ t.ev = s.ev))
    ∧ (∀ (c : Fin 12) (a b : Bool) (k : Fin 18), k = c.castLE (by decide) →
      (∀ p, s.getF (F.FBK_CFG_MODE c) = 2 → (s.fbkOf k).ab = some p →
        Leads s (.quadratureEdge c a b) fun t => (t.fbkOf k).ab = some (boolNat a + 2 * boolNat b)
          ∧ t.pos c = s.pos c + BitVec.ofInt 32 ((if s.flag (F.FBK_CFG_INVERT c) = true then -1 else 1)
              * ([0, 1, 0, -1] : List Int).getD ((quadPhase (boolNat a + 2 * boolNat b) + 4 - quadPhase p) % 4) 0)
          ∧ t.getR (R.FBK_ERR c) = (if (quadPhase (boolNat a + 2 * boolNat b) + 4 - quadPhase p) % 4 = 2 then s.incR (R.FBK_ERR c) 1
              else s).getR (R.FBK_ERR c))
      ∧ (s.getF (F.FBK_CFG_MODE c) ≠ 2 ∨ (s.fbkOf k).ab = none →
        Leads s (.quadratureEdge c a b) fun t => t.pos c = s.pos c ∧ (t.fbkOf k).ab = some (boolNat a + 2 * boolNat b)
          ∧ t.getR (R.FBK_ERR c) = s.getR (R.FBK_ERR c)))
    ∧ (∀ (c : Fin 18) (may : Bool), may = (s.flag (F.FBK_CFG_IDX_EN c) && s.getF (F.FBK_CFG_MODE c) != 0
        && (s.getF (F.FBK_CFG_MODE c) != 2 || (s.fbkOf c).ab == some 3) && !s.flag (F.FBK_STATUS_IDX_DROPPED c)) →
      (12 ≤ c.val → s.getF (F.FBK_CFG_MODE c) = 4 ∨ s.getF (F.FBK_CFG_MODE c) = 5 →
        Leads s (.indexEdge c) fun t => t = s.updFbk c fun f => { f with idxAt := f.idxAt ++ [s.tsc.toNat] })
      ∧ (12 ≤ c.val → s.getF (F.FBK_CFG_MODE c) ≠ 4 → s.getF (F.FBK_CFG_MODE c) ≠ 5 → Leads s (.indexEdge c) fun t => t = s)
      ∧ (c.val < 12 → may = false → Leads s (.indexEdge c) fun t => t = s)
      ∧ (c.val < 12 → may = true → s.flag (F.FBK_STATUS_IDX_VALID c) = false ∨ s.flag (F.FBK_STATUS_POS_LOST c) = true →
        Leads s (.indexEdge c) fun t => t.getR (R.FBK_IDX_POS c) = s.pos c ∧ t.flag (F.FBK_STATUS_IDX_VALID c) = true
          ∧ t.flag (F.FBK_STATUS_POS_LOST c) = false ∧ t.pos c = s.pos c)
      ∧ (c.val < 12 → may = true → s.flag (F.FBK_STATUS_IDX_VALID c) = true → s.flag (F.FBK_STATUS_POS_LOST c) = false →
        ((s.indexError c).natAbs ≤ s.getF (F.FBK_IDX_WIN c) →
          Leads s (.indexEdge c) fun t => t.getR (R.FBK_IDX_ERR c) = BitVec.ofInt 32 (s.indexError c)
            ∧ t.pos c = (if s.flag (F.FBK_STATUS_SIG_FAULT c) = true then s.pos c else s.pos c + BitVec.ofInt 32 (-(s.indexError c)))
            ∧ t.getR (R.FBK_IDX_CORR c) = (s.incR (R.FBK_IDX_CORR c) 1).getR (R.FBK_IDX_CORR c)
            ∧ t.getF (F.FBK_STATUS_IDX_CONSEC c) = 0)
        ∧ (s.getF (F.FBK_IDX_WIN c) < (s.indexError c).natAbs → s.getF (F.FBK_STATUS_IDX_CONSEC c) < 3 →
          Leads s (.indexEdge c) fun t => t.pos c = s.pos c ∧ t.Arisen Ev.INDEX_MISMATCH c
            ∧ t.getR (R.FBK_IDX_MISM c) = (s.incR (R.FBK_IDX_MISM c) 1).getR (R.FBK_IDX_MISM c)
            ∧ t.getF (F.FBK_STATUS_IDX_CONSEC c) = s.getF (F.FBK_STATUS_IDX_CONSEC c) + 1
            ∧ t.flag (F.FBK_STATUS_IDX_DROPPED c) = decide (s.getF (F.FBK_STATUS_IDX_CONSEC c) = 2)
            ∧ (s.getF (F.FBK_STATUS_IDX_CONSEC c) = 2 → t.Arisen Ev.FBK_INDEX_DROPPED c)))
      ∧ (∀ p w, (w.getLsbD 0 = true → Leads s (.indexRearm p c w) fun t => t.flag (F.FBK_STATUS_IDX_DROPPED c) = false
          ∧ t.flag (F.FBK_STATUS_IDX_VALID c) = false ∧ t.getF (F.FBK_STATUS_IDX_CONSEC c) = 0
          ∧ ∀ o, o ≠ R.FBK_STATUS c → t.getR o = s.getR o)
        ∧ (w.getLsbD 0 = false → Leads s (.indexRearm p c w) fun t => t = s))
      ∧ (∀ p w, Leads s (.positionWrite p c w) fun t => t.pos c = w ∧ t.flag (F.FBK_STATUS_POS_LOST c) = false ∧ t.pulses = s.pulses
          ∧ t.cmpAt = s.cmpAt ∧ ∀ o, o ≠ R.FBK_STATUS c → o ≠ R.FBK_POS c → t.getR o = s.getR o))
    ∧ (∀ (p : Fin 8) (rising on : Bool) (x : Latch),
      on = (s.flag (F.SNS_PRB_CFG_EN p) && s.bitF (F.SNS_PRB_CFG_EDGE p) (if rising then 0 else 1)) →
      x = { src := s.getF (F.SNS_PRB_CFG_SRC p), tsc := s.tsc.toNat,
            pos := if s.getF (F.SNS_PRB_CFG_SRC p) < 12 then some (s.pos (s.getF (F.SNS_PRB_CFG_SRC p)))
              else if s.getF (F.SNS_PRB_CFG_SRC p) < 18 then none
              else some ((s.ax (Fin.ofNat 20 (s.getF (F.SNS_PRB_CFG_SRC p) - 6))).stepsAt s.tsc.toNat) } →
      (on = true → (s.probes[p]).length < 4 → Leads s (.probeLatch p rising) fun t => t.probes[p] = s.probes[p] ++ [x])
      ∧ (on = true → 4 ≤ (s.probes[p]).length →
        Leads s (.probeLatch p rising) fun t => t.probes = s.probes ∧ t.flag (F.SNS_PRB_STATUS_OVF p) = true)
      ∧ (on = false → Leads s (.probeLatch p rising) fun t => t = s))
    ∧ (∀ (p : Fin 8) port (w : Word),
      (w.getLsbD 0 = true → s.getF (F.SNS_PRB_STATUS_COUNT p) ≠ 0 →
        Leads s (.probePop port p w) fun t => t.probes[p] = (s.probes[p]).tail)
      ∧ (w.getLsbD 0 = false ∨ s.getF (F.SNS_PRB_STATUS_COUNT p) = 0 → Leads s (.probePop port p w) fun t => t = s))
    ∧ (∀ (n : Fin 64) rising,
      (s.getF (F.SNS_CFG_DIR n) = 0 → s.pin n ≠ rising → Leads s (.sensorEdge n rising) fun t => t.pin n = rising
        ∧ t.flag (F.SNS_STATE_POL n) = rising
        ∧ t.getP (R.SNS_TS_LO n) = (s.tsc.toNat - 200 * s.getF (F.SNS_CFG_FILT n)) % 2 ^ 64)
      ∧ (s.getF (F.SNS_CFG_DIR n) ≠ 0 ∨ s.pin n = rising → Leads s (.sensorEdge n rising) fun t => t = s))
    ∧ (∀ n : Fin 64, Leads s (.comparePulseEnd n) fun t =>
      t = { s with pulses := s.pulses.filter fun x => !(x.1 == n.val && Nat.ble x.2 s.tsc.toNat) })

/-- R310, R311, R315, R316, R324, R325, R330, R331: an axis command waits for its evaluation and replaces one that waits, which is counted; one
that is not defined is discarded; a move that takes too long stops; a stall ends a move; an axis at rest goes to standstill; a limit is
written only where it is a limit; a jam window arms, disarms and expires; the evaluation of a tick, once in it, takes every waiting command. -/
def Obligations.AxesAndJamWindowsObeyTheirCommands : Prop :=
  ∀ (s : State) (p : Port) (a : Fin 20),
    (∀ (i : Instr) (op : Nat), (i = .moveAbs p a ∧ op = 1) ∨ (i = .moveRel p a ∧ op = 2) ∨ (i = .jog p a ∧ op = 3) ∨ (i = .table p a ∧ op = 4)
        ∨ (i = .stop p a ∧ op = 5) ∨ (i = .resume p a ∧ op = 6) ∨ (i = .home p a ∧ op = 7) ∨ (i = .setPos p a ∧ op = 8) →
      Leads s i fun t => (t.ax a).cmd = some op ∧ (∀ b, b ≠ a → t.ax b = s.ax b)
        ∧ ((s.ax a).cmd = none → t.regs = s.regs)
        ∧ ((s.ax a).cmd ≠ none → t.getR (R.MOV_AX_SUPERSEDED a) = (s.incR (R.MOV_AX_SUPERSEDED a) 1).getR (R.MOV_AX_SUPERSEDED a)))
    ∧ (∀ op : BitVec 4, op.toNat = 0 ∨ 8 < op.toNat → Leads s (.undefinedAxisCommand p a op) fun t => t.Arisen Ev.MOV_BAD_CMD a
        ∧ t.axis = s.axis ∧ t.regs = s.regs)
    ∧ (s.axState a = 1 → s.getF (F.MOV_AX_TMO a) ≠ 0 → (s.ax a).began + s.getF (F.MOV_AX_TMO a) ≤ s.tick →
      Leads s (.moveTimeout a) fun t => t.axState a = 4 ∧ (t.ax a).stopRes = 7 ∧ t.Arisen Ev.MOV_TIMEOUT a)
    ∧ (s.isStepper a = true → s.getF (F.MOV_STP_CFG_STALLT a) ≤ (s.ax a).stall → 1 ≤ (s.ax a).stall → s.axState a = 1 →
      Leads s (.stallDetect a) fun t => t.axState a = 0 ∧ t.getF (F.MOV_AX_STATUS_RESULT a) = 4 ∧ t.Arisen Ev.MOV_STALL a
        ∧ t.flag (F.MOV_AX_STATUS_HOMED a) = false ∧ t.getR (R.MOV_AX_REMAIN a) = (s.ax a).target - (s.ax a).pcmd)
    ∧ (s.axOn a = true → s.axState a = 0 → (s.ax a).cmd = none → (s.ax a).queued = none →
      (s.ax a).restAt + s.getF (F.MOV_AX_CFG_STILL_T a) ≤ s.tick →
      Leads s (.standstillMode a) fun t => t.flag (F.MOV_AX_STATUS_STILL_ON a) = true ∧ t.axis = s.axis)
    ∧ (∀ (k : Fin 5) w, (limOk k w = true → k.val ≠ 4 → Leads s (.limitWrite p a k w) fun t => t = s.putR (limReg a k) w)
      ∧ (limOk k w = false → Leads s (.limitWrite p a k w) fun t => t.Arisen Ev.MOV_BAD_LIMIT a ∧ t.regs = s.regs ∧ t.stage = s.stage))
    ∧ (∀ (j : Fin 32) (w : Word),
      (w.getLsbD 0 = true → w.getLsbD 1 = false → s.getF (F.MOV_JW_TIME_OPEN j) < s.getF (F.MOV_JW_TIME_CLOSE j) →
        Leads s (.jwArm p j w) fun t => t.getF (F.MOV_JW_STATUS j) = 1 ∧ (t.jam[j]).opens = s.tick * 4000 + 4000 * s.getF (F.MOV_JW_TIME_OPEN j)
          ∧ (t.jam[j]).closes = s.tick * 4000 + 4000 * s.getF (F.MOV_JW_TIME_CLOSE j) ∧ (t.jam[j]).sn = s.getF (F.MOV_JW_CFG_SN j))
      ∧ (w.getLsbD 0 = true → w.getLsbD 1 = false → s.getF (F.MOV_JW_TIME_CLOSE j) ≤ s.getF (F.MOV_JW_TIME_OPEN j) →
        Leads s (.jwArm p j w) fun t => t.Arisen Ev.MOV_BAD_WINDOW j ∧ t.jam = s.jam)
      ∧ (w.getLsbD 0 = false → w.getLsbD 1 = true → s.getF (F.MOV_JW_STATUS j) = 1 →
        Leads s (.jwDisarm p j w) fun t => t.getF (F.MOV_JW_STATUS j) = 0 ∧ t.jam = s.jam)
      ∧ (s.getF (F.MOV_JW_STATUS j) = 1 → (s.jam[j]).closes + 200 * s.getF (F.SNS_CFG_FILT (s.jam[j]).sn) < s.tsc.toNat →
        Leads s (.jamWindowExpired j) fun t => t.getF (F.MOV_JW_STATUS j) = 4 ∧ t.Arisen Ev.MOV_JAM_WINDOW j))
    ∧ (s.brg.mangleTick = some s.tick → Leads s .mangleEvaluation fun t => t = s)
    ∧ (s.brg.mangleTick ≠ some s.tick → s.axOn a = true → Leads s .mangleEvaluation fun t => (t.ax a).cmd = none
      ∧ t.brg.mangleTick = some s.tick)
    ∧ (s.brg.mangleTick ≠ some s.tick → (∀ b : Fin 20, s.axOn b = false) → s.chn.stopDue = false → Leads s .mangleEvaluation fun t =>
      t = { s with brg := { s.brg with mangleTick := some s.tick } })

/-- R275, R287, R289, R290: the current loop runs once in a tick, in no tick of FAULT or of a lost bridge; ENABLE starts an OFF channel in the
next tick and is kept while the channel stops; DISABLE ramps a running channel down, and takes a faulted one out of its fault; the end of
the ramp is OFF; a catch-spin try restarts the channel where the rotor was found and waits where it was not. -/
def Obligations.MotorChannelsEnableDisableAndStop : Prop :=
  ∀ (s : State) (n : Fin 12),
    (s.loopsRun = true → s.brg.loopTick ≠ some s.tick → (∀ m : Fin 12, s.getF (F.MOT_CFG_TYPE m) = 0) →
      Leads s (.currentLoop) fun t => t = { s with brg := { s.brg with loopTick := some s.tick } })
    ∧ (s.loopsRun = true → s.brg.loopTick ≠ some s.tick → (∀ m : Fin 12, m ≠ n → s.getF (F.MOT_CFG_TYPE m) = 0) →
      s.getF (F.MOT_CFG_TYPE n) ≠ 0 → s.groupFault n = false → s.motState n = 3 → (s.motOf n).rampLeft = 1 →
      Leads s (.currentLoop) fun t => (t.motOf n).rampLeft = 0 ∧ t.motState n = 3)
    ∧ (s.loopsRun = false ∨ s.brg.loopTick = some s.tick → Leads s (.currentLoop) fun t => t = s)
    ∧ (∀ p (w : Word), w.getLsbD 0 = true → w.getLsbD 1 = false →
      (s.motState n = 0 → s.getF (F.MOT_CFG_TYPE n) ≠ 0 → (s.motOf n).startAt = none →
        Leads s (.motEnable p n w) fun t => (t.motOf n).startAt = some (s.tick + 1) ∧ t.regs = s.regs)
      ∧ (s.motState n = 3 → Leads s (.motEnable p n w) fun t => t.flag (F.MOT_STATUS_PENDING_ENABLE n) = true ∧ t.mot = s.mot))
    ∧ (∀ p (w : Word), w.getLsbD 0 = false → w.getLsbD 1 = true →
      (s.motState n = 2 → Leads s (.motDisable p n w) fun t => t.motState n = 3 ∧ (t.motOf n).rampLeft = s.getF (F.MOT_OFF_RAMP n))
      ∧ (s.motState n = 3 → Leads s (.motDisable p n w) fun t => t.flag (F.MOT_STATUS_PENDING_ENABLE n) = false ∧ t.mot = s.mot)
      ∧ (s.motState n = 5 → Leads s (.motDisable p n w) fun t => t.motState n = 0 ∧ t.flag (F.MOT_STATUS_ROTOR_LOST n) = false))
    ∧ (s.motState n = 3 → (s.motOf n).rampLeft = 0 →
      Leads s (.stopRampDone n) fun t => t.motState n = 0 ∧ (t.motOf n).startAt
        = (if s.flag (F.MOT_STATUS_PENDING_ENABLE n) = true then some (s.tick + 1) else none))
    ∧ (∀ k c, s.motState n = 4 → (s.motOf n).phase = .observe k c → s.getF (F.MOT_CATCH_T n) ≤ k →
      (s.getF (F.MOT_CATCH_T n) ≤ 2 * c → s.getR (R.MOT_VSENSE n) &&& 0x3F3F3F#32 ≠ 0x3F3F3F#32 →
        Leads s (.catchSpinTry n) fun t => t.motState n = 2 ∧ t.getF (F.MOT_STATUS_METHOD n) = 2 ∧ (t.motOf n).phase = .run)
      ∧ (2 * c < s.getF (F.MOT_CATCH_T n) → Leads s (.catchSpinTry n) fun t => (t.motOf n).phase = .coast 0 ∧ t.regs = s.regs))

/-- R291, R294–R296, R298, R300, R302–R306, R459: a gate supply or a high-side supply that falls below its threshold takes its groups, or its
half-bridge, out of service, and counts as risen from its rising threshold on; a desaturation turns its half-bridge off, the third retires
it; CLEAR travels in the downward frame; a retry returns a group to service, and the fourth is not made; a bus monitor takes its value and
trips every group at its level; a chopper that nothing blocks turns on and off at its levels. -/
def Obligations.ThePowerStageFaultsAndReturns : Prop :=
  ∀ s : State,
    (∀ (v : Fin 4) mv, s.brg.armedVgl[v] = true → s.vglLow v = false → mv < (s.vglMv v).1 →
      Leads s (.vglUvlo v mv) fun t => t.vglLow v = true ∧ t.Arisen Ev.GDR_VGL_UV v
        ∧ ∀ k : Fin 3, t.flag (F.GDR_GRP_STATUS_FAULT (3 * v.val + k.val)) = true ∧ t.hasCause (3 * v.val + k.val) 4 = true)
    ∧ (∀ (h : Fin 48) mv, s.brg.armedBst[h] = true → s.flag (F.GDR_HB_STATUS_BST_OK h) = true → mv < (s.bstMv h).1 →
      Leads s (.bstUvlo h mv) fun t => t.flag (F.GDR_HB_STATUS_BST_OK h) = false ∧ t.flag (F.GDR_HB_STATUS_UV_BST h) = true
        ∧ t.flag (F.GDR_GRP_STATUS_FAULT (h.val / 4)) = true ∧ (t.half h).duty = none)
    ∧ (∀ (v : Fin 4) mv, (s.vglMv v).2 ≤ mv → Leads s (.uvloRisingThreshold (.vgl v) mv) fun t => t.brg.armedVgl[v] = true ∧ t.vglLow v = false)
    ∧ (∀ (h : Fin 48) mv, (s.bstMv h).2 ≤ mv → Leads s (.uvloRisingThreshold (.bst h) mv) fun t => t.brg.armedBst[h] = true ∧ t.flag (F.GDR_HB_STATUS_BST_OK h) = true)
    ∧ (∀ (h : Fin 48) high mv ns, 1000 + 500 * s.getF (F.GDR_HB_CFG_DS_TH h) < mv → 250 + 50 * s.getF (F.GDR_HB_CFG_BLANK h) ≤ ns →
      s.switchOn h high = true → s.getF (F.GDR_HB_STATUS_DESAT_CNT h) < 2 → (∀ i : Fin 4, s.getF (F.MOT_BRK_CFG_HB i) ≠ h.val) →
      Leads s (.desaturation h high mv ns) fun t => t.flag (if high then F.GDR_HB_STATUS_DESAT_H h else F.GDR_HB_STATUS_DESAT_L h) = true
        ∧ t.getF (F.GDR_HB_STATUS_DESAT_CNT h) = s.getF (F.GDR_HB_STATUS_DESAT_CNT h) + 1 ∧ (t.half h).duty = none
        ∧ t.hasCause (h.val / 4) 2 = true ∧ t.Arisen Ev.GDR_GROUP_FAULT (h.val / 4))
    ∧ (∀ (h : Fin 48) high mv ns, 1000 + 500 * s.getF (F.GDR_HB_CFG_DS_TH h) < mv → 250 + 50 * s.getF (F.GDR_HB_CFG_BLANK h) ≤ ns →
      s.switchOn h high = true → s.getF (F.GDR_HB_STATUS_DESAT_CNT h) = 2 → s.flag (F.GDR_HB_STATUS_RETIRED h) = false →
      Leads s (.desaturation h high mv ns) fun t => t.flag (F.GDR_HB_STATUS_RETIRED h) = true ∧ t.Arisen Ev.GDR_HB_RETIRED h)
    ∧ (∀ p (g : Fin 12) w, w.getLsbD 0 = true →
      (s.dnLate = false → Leads s (.groupClear p g w) fun t =>
        t.brg.out.writes = s.brg.out.writes ++ [{ off := R.GDR_GRP_CTRL g, w := w, tick := s.tick }] ∧ t.regs = s.regs)
      ∧ (s.dnLate = true → Leads s (.groupClear p g w) fun t =>
        t.brg.late = s.brg.late ++ [{ off := R.GDR_GRP_CTRL g, w := w, tick := s.tick }] ∧ t.brg.out = s.brg.out ∧ t.regs = s.regs))
    ∧ (∀ (g : Fin 12) n, (s.grp g).retryAt = some n → n ≤ s.tick → s.flag (F.GDR_GRP_STATUS_RETRY_WAIT g) = true →
      ((s.retriesOf g).length < 3 → s.causePresent g = false →
        Leads s (.groupRetry g) fun t => t.flag (F.GDR_GRP_STATUS_FAULT g) = false ∧ t.Arisen Ev.GDR_RETRY g)
      ∧ (3 ≤ (s.retriesOf g).length → Leads s (.groupRetry g) fun t => t.flag (F.GDR_GRP_STATUS_EXHAUSTED g) = true
        ∧ t.flag (F.GDR_GRP_STATUS_RETRY_WAIT g) = false ∧ t.Arisen Ev.GDR_RETRY_EXHAUSTED g))
    ∧ (∀ (i : Fin 4) (code : BitVec 14), s.flag (F.GDR_BUS_CFG_EN i) = true →
      (code.toNat < s.getF (F.GDR_BUS_WARN_LEVEL i) → code.toNat < s.getF (F.GDR_BUS_TRIP_LEVEL i) →
        Leads s (.busMonitorConversion i code) fun t => t.getF (F.GDR_BUS_VAL i) = code.toNat ∧ t.brg = s.brg)
      ∧ (s.getF (F.GDR_BUS_TRIP_LEVEL i) ≤ code.toNat → s.bitF F.GDR_STATUS_BUS_TRIP i = false →
        Leads s (.busMonitorConversion i code) fun t => t.bitF F.GDR_STATUS_BUS_TRIP i = true ∧ t.brg.tripDue = true
          ∧ ∀ g : Fin 12, t.flag (F.GDR_GRP_STATUS_FAULT g) = true ∧ t.hasCause g 5 = true))
    ∧ (∀ (i : Fin 4) (code : BitVec 14), s.flag (F.MOT_BRK_CFG_EN i) = true → s.bitF F.GDR_STATUS_CHOP_FAULT i = false →
      s.chopBlocked i = false →
      ((s.chopOf i).onSince = none → s.getF (F.MOT_BRK_ON i) ≤ code.toNat →
        Leads s (.chopperConversion i code) fun t => (t.chopOf i).onSince = some s.tsc.toNat ∧ t.flag (F.MOT_BRK_STAT_ON i) = true)
      ∧ (∀ n, (s.chopOf i).onSince = some n → code.toNat < s.getF (F.MOT_BRK_OFF i) → n + 400 ≤ s.tsc.toNat →
        Leads s (.chopperConversion i code) fun t => (t.chopOf i).onSince = none ∧ t.flag (F.MOT_BRK_STAT_ON i) = false))

/-- R333, R339–R341, R344–R346: the slot list runs once in a tick and not while it is suspended; a slot is reset or reloaded at its next
evaluation; an injection starts in the next tick, stops at once, and ends after LEN ticks; a capture is armed, takes a sample in a tick, is
stopped, and is transferred once; an ARM that comes during a transfer waits for its end. -/
def Obligations.TheControlEngineAndItsCapture : Prop :=
  ∀ s : State,
    (s.cle.listTick = some s.tick → Leads s .slotList fun t => t = s)
    ∧ (s.cle.listTick ≠ some s.tick → s.cleSuspended = true →
      Leads s .slotList fun t => t.flag F.CLE_STATUS_SUSP = true ∧ t.flag F.CLE_STATUS_RUN = false ∧ t.cle.listTick = some s.tick
        ∧ t.cle.slot = s.cle.slot)
    ∧ (∀ p (n : Fin 256),
      (Leads s (.slotReset p n) fun t => (t.slotOf n).restart = true ∧ (∀ m, m ≠ n → t.slotOf m = s.slotOf m) ∧ t.regs = s.regs)
      ∧ Leads s (.slotReload p n) fun t => s.tick ∈ (t.slotOf n).reload ∧ (∀ k ∈ (s.slotOf n).reload, k ∈ (t.slotOf n).reload) ∧ (∀ m, m ≠ n → t.slotOf m = s.slotOf m) ∧ t.regs = s.regs)
    ∧ (∀ p (g : Fin 2) (w : Word),
      (w.getLsbD 0 = true → w.getLsbD 1 = false → Leads s (.injectionGo p g w) fun t => (t.cle.inj[g]).startAt = some (s.tick + 1))
      ∧ (w.getLsbD 0 = false → w.getLsbD 1 = true → Leads s (.injectionStop p g w) fun t => (t.cle.inj[g]).startAt = none
          ∧ t.flag (F.CLE_INJ_STATUS_RUN g) = false ∧ t.getR (R.CLE_INJ_VAL g) = 0#32)
      ∧ (w.getLsbD 0 = true → w.getLsbD 1 = true → (Leads s (.injectionGo p g w) fun t => t = s) ∧ Leads s (.injectionStop p g w) fun t => t = s))
    ∧ (∀ (g : Fin 2) n, (s.cle.inj[g]).startAt = some n → n + s.getF (F.CLE_INJ_LEN_LEN g) ≤ s.tick →
      Leads s (.injectionEnd g) fun t => (t.cle.inj[g]).startAt = none ∧ t.flag (F.CLE_INJ_STATUS_RUN g) = false
        ∧ t.getR (R.CLE_INJ_VAL g) = 0#32)
    ∧ (∀ p (w : Word), w.getLsbD 0 = true → w.getLsbD 1 = false →
      (s.cle.cap.xfer = none → Leads s (.captureArm p w) fun t => t.getF F.CLE_CAP_STATUS_STATE = 1 ∧ t.cle.cap.pos = 0 ∧ t.cle.cap.total = 0
        ∧ t.getF F.CLE_CAP_COUNT = 0 ∧ t.flag F.CLE_CAP_STATUS_STOPPED = false)
      ∧ (s.cle.cap.xfer.isSome = true → Leads s (.captureArm p w) fun t => t.cle.cap.armWait = true ∧ t.regs = s.regs))
    ∧ (∀ p (w : Word), w.getLsbD 0 = false → w.getLsbD 1 = true → s.getF F.CLE_CAP_STATUS_STATE = 1 →
      Leads s (.captureStop p w) fun t => t.getF F.CLE_CAP_STATUS_STATE = 3 ∧ t.flag F.CLE_CAP_STATUS_STOPPED = true
        ∧ t.getF F.CLE_CAP_COUNT = min s.cle.cap.total 65536)
    ∧ (s.cleSuspended = false → s.cle.capTick ≠ some s.tick → s.getF F.CLE_CAP_STATUS_STATE = 1 ∨ s.getF F.CLE_CAP_STATUS_STATE = 2 →
      Leads s .captureSample fun t => t.cle.capTick = some s.tick ∧ t.cle.cap.pos = (s.cle.cap.pos + 1) % 65536
        ∧ t.mem.pmem = s.mem.pmem ∧ t.mem.dmem = s.mem.dmem ∧ t.mem.coef = s.mem.coef ∧ t.mem.expo = s.mem.expo)
    ∧ (∀ p (w : Word), w.getLsbD 0 = true → s.getF F.CLE_CAP_STATUS_STATE = 3 → s.cle.cap.xfer = none →
      Leads s (.captureTransfer p w) fun t => t.cle.cap.xfer = some (s.getF F.CLE_CAP_FIRST, s.getF F.CLE_CAP_COUNT, s.getP R.CLE_CAP_XFER_LO) ∧ t.mem = s.mem)
    ∧ (s.cle.cap.xfer.isSome = true → (s.chan 14).queued = [] → s.halted 14 = false →
      Leads s .captureTransferDone fun t => t.cle.cap.xfer = none ∧ t.Arisen Ev.CLE_CAP_XFER_DONE 0
        ∧ (s.cle.cap.armWait = true → t.getF F.CLE_CAP_STATUS_STATE = 1))

/-- R20, R348–R351, R357, R358, R360–R362: a good sample of a thermistor is its reading, the third bad one breaks it; writes that clear travel
in the downward frame; an edge of the mains in range is taken, the fourth in a run locks, one out of range is rejected, and 25 ms without
one lose the mains; a burst heater fires at a positive crossing where its demand has added up to 1; a driver fault trips its heater. -/
def Obligations.ThermistorsMainsAndHeatersAct : Prop :=
  ∀ s : State,
    (∀ (n : Fin 12) code, s.flag (F.THM_CFG_EN n) = false → Leads s (.thermistorSample n code) fun t => t = s)
    ∧ (∀ (n : Fin 12) (code : BitVec 14), s.flag (F.THM_CFG_EN n) = true → s.flag (F.THM_STAT_BROKEN n) = false → 163 < code.toNat →
      code.toNat < 16220 → Leads s (.thermistorSample n code) fun t => t.flag (F.THM_STAT_BROKEN n) = false ∧ (t.thermOf n).bad = 0
        ∧ t.getF (F.THM_TEMP n) = (thermTemp (s.getF (F.THM_CFG_RPU n)) (s.getR (R.THM_SH_A n)) (s.getR (R.THM_SH_B n))
            (s.getR (R.THM_SH_C n)) code.toNat).toNat)
    ∧ (∀ (n : Fin 12) (code : BitVec 14), s.flag (F.THM_CFG_EN n) = true → s.flag (F.THM_STAT_BROKEN n) = false → code.toNat ≤ 163 →
      2 ≤ (s.thermOf n).bad → Leads s (.thermistorSample n code) fun t => t.flag (F.THM_STAT_BROKEN n) = true
        ∧ t.Arisen Ev.THM_BROKEN n ∧ t.getF (F.THM_TEMP n) = s.getF (F.THM_TEMP n))
    ∧ (∀ p w, s.dnLate = false →
      (∀ n : Fin 12, Leads s (.thermistorFlagClear p n w) fun t =>
        t.brg.out.writes = s.brg.out.writes ++ [{ off := R.THM_STAT n, w := w, tick := s.tick }] ∧ t.regs = s.regs)
      ∧ (∀ h : Fin 4, w.getLsbD 0 = true → Leads s (.heaterClear p h w) fun t =>
        t.brg.out.writes = s.brg.out.writes ++ [{ off := R.IRN_HTR_CTRL h, w := w, tick := s.tick }] ∧ t.regs = s.regs))
    ∧ (s.heat.mains.last = none → Leads s .mainsSyncEdge fun t => t.heat.mains.last = some s.tsc.toNat ∧ t.regs = s.regs)
    ∧ (∀ n, s.heat.mains.last = some n → 15385 * 200 ≤ s.tsc.toNat - n → s.tsc.toNat - n ≤ 22222 * 200 → s.heat.mains.periods = [] →
      Leads s .mainsSyncEdge fun t => t.heat.mains.last = some s.tsc.toNat ∧ t.heat.mains.run = s.heat.mains.run + 1
        ∧ t.getF F.IRN_MAINS_PERIOD = (s.tsc.toNat - n) / 200
        ∧ (3 ≤ s.heat.mains.run → t.flag F.IRN_MAINS_LOCKED = true ∧ t.flag F.IRN_MAINS_LOST = false))
    ∧ (∀ n, s.heat.mains.last = some n → s.tsc.toNat - n < 15385 * 200 →
      Leads s .mainsSyncEdge fun t => t.heat.mains.last = some n ∧ t.heat.mains.run = 0
        ∧ t.getR R.IRN_MAINS_REJ = (s.incR R.IRN_MAINS_REJ 1).getR R.IRN_MAINS_REJ)
    ∧ (s.heat.mains.last.getD 0 + 5000000 ≤ s.tsc.toNat → s.getF F.IRN_MAINS_LOST = 0 →
      Leads s .mainsLostTimeout fun t => t.flag F.IRN_MAINS_LOST = true ∧ t.flag F.IRN_MAINS_LOCKED = false ∧ t.Arisen Ev.IRN_MAINS_LOST 0)
    ∧ (∀ h : Fin 4, s.flag F.IRN_MAINS_LOCKED = true → s.flag F.IRN_MAINS_LOST = false → s.getF (F.IRN_HTR_CFG_MODE h) = 1 →
      s.heaterLive h = true → s.crossingDue true = true →
      (F32.le F32.one (F32.add (s.heaterOf h).acc (s.heaterCmd h)) = true → Leads s (.zeroCrossing true) fun t =>
        t.flag (F.IRN_HTR_STATUS_ON h) = true ∧ s.tsc.toNat ∈ (t.heaterOf h).fired)
      ∧ (F32.le F32.one (F32.add (s.heaterOf h).acc (s.heaterCmd h)) = false → Leads s (.zeroCrossing true) fun t =>
        t.flag (F.IRN_HTR_STATUS_ON h) = false ∧ (t.heaterOf h).acc = F32.add (s.heaterOf h).acc (s.heaterCmd h)))
    ∧ (∀ h : Fin 4, s.getF (F.IRN_HTR_CFG_MODE h) = 3 → s.flag (F.IRN_HTR_STATUS_DRIVER h) = false →
      Leads s (.heaterDriverFault h true) fun t => t.flag (F.IRN_HTR_STATUS_DRIVER h) = true ∧ t.flag (F.IRN_HTR_STATUS_TRIP h) = true
        ∧ t.flag (F.IRN_HTR_STATUS_ON h) = false)

/-- R20, R364–R368: in each period of its regulator, or once in an AC cycle, an HV channel takes its conversions; where it runs and no
trip comes, its set-point in use moves, and its duty is that set-point in DIRECT mode and what the regulator gives on MON in CV and CC
mode, clamped to [0, DMAX], the amplitude of an AC channel following its loop first; the third |MON| above its level trips it, and an open
interlock does at once. ENABLE, DISABLE and CLEAR travel in the downward frame, and start, ramp down or free the channel where they take
effect; the ramp down ends OFF, and a kept enable starts the channel in the next tick. -/
def Obligations.HighVoltageChannelsAct : Prop :=
  ∀ (s : State) (c : Fin 24),
    (∀ (mon aux : BitVec 14) (i : Instr) (amp per ms : F32),
      ((i = .hvRegulate c mon aux ∧ s.flag (F.HVS_CFG_AC c) = false ∧ per = f10us ∧ ms = f10usMs)
        ∨ (i = .hvAcCycle c mon aux amp ∧ s.flag (F.HVS_CFG_AC c) = true ∧ per = F32.ofRat 1 (s.getF (F.HVS_AC_FREQ c))
          ∧ ms = F32.ofRat 1000 (s.getF (F.HVS_AC_FREQ c)))) →
      (Leads s i fun t => t.getR (R.HVS_MON c) = F32.mul (F32.ofNat mon.toNat) (s.getR (R.HVS_SCALE c))
        ∧ (s.getF (F.HVS_CFG_AUX c) ≠ 63 → t.getR (R.HVS_AUX c) = F32.mul (F32.ofNat aux.toNat) (s.getR (R.HVS_ASCALE c)))
        ∧ (s.flag (F.HVS_CFG_AC c) = true → t.getR (R.HVS_AC_MEAS c) = amp)
        ∧ (s.hvRuns c = false → t.heat = s.heat ∧ t.hvState c = s.hvState c))
      ∧ (s.hvRuns c = true → s.ilkOpen (s.getF (F.HVS_CFG_ILK c)) = true →
        Leads s i fun t => t.hvState c = 4 ∧ t.getF (F.HVS_STATUS_CAUSE c) = 3 ∧ t.getF (F.HVS_STATUS_DUTY c) = 0 ∧ t.Arisen Ev.HVS_TRIP c)
      ∧ (s.hvRuns c = true → 2 ≤ (s.hvOf c).hotMon → s.ilkOpen (s.getF (F.HVS_CFG_ILK c)) = false →
        F32.lt (s.getR (R.HVS_TRIP_MON c)) (F32.abs (F32.mul (F32.ofNat mon.toNat) (s.getR (R.HVS_SCALE c)))) = true →
        Leads s i fun t => t.hvState c = 4 ∧ t.getF (F.HVS_STATUS_CAUSE c) = 1 ∧ t.getF (F.HVS_STATUS_DUTY c) = 0 ∧ t.Arisen Ev.HVS_TRIP c)
      ∧ (∀ sp e raw : F32, s.hvRuns c = true → s.ilkOpen (s.getF (F.HVS_CFG_ILK c)) = false → (s.hvOf c).hotMon < 2 → (s.hvOf c).hotAux < 2 →
        sp = s.hvRamp c ms → e = F32.sub sp (F32.mul (F32.ofNat mon.toNat) (s.getR (R.HVS_SCALE c))) →
        raw = F32.add (F32.mul (s.getR (R.HVS_KP c)) e) (s.hvOf c).int →
        Leads s i fun t => (t.hvOf c).setp = sp
          ∧ t.hvState c = (if s.hvState c = 1 ∧ F32.eq sp (s.getR (R.HVS_SET c)) = true then 2 else s.hvState c)
          ∧ (s.flag (F.HVS_CFG_AC c) = true → (t.hvOf c).dac = F32.clamp
              (F32.neg (F32.fmin (s.hvOf c).duty (F32.sub (s.hvDmax c) (s.hvOf c).duty)))
              (F32.fmin (s.hvOf c).duty (F32.sub (s.hvDmax c) (s.hvOf c).duty))
              (F32.add (s.hvOf c).dac (F32.mul (s.getR (R.HVS_AC_KI c)) (F32.sub (s.getR (R.HVS_AC_SET c)) amp))))
          ∧ (2 ≤ s.getF (F.HVS_CFG_MODE c) →
            (t.hvOf c).int = if (F32.le (s.hvDmax c) raw && F32.lt (F32.zero false) e) || (F32.le raw (F32.zero false) && F32.lt e (F32.zero false))
              then (s.hvOf c).int else F32.add (s.hvOf c).int (F32.mul (F32.mul (s.getR (R.HVS_KI c)) e) per))
          ∧ ((t.hvOf c).on = (s.vanaGood && !s.outputsHeld && s.getF (F.HVS_CFG_MODE c) != 0))
          ∧ ((t.hvOf c).on = true →
            (t.hvOf c).duty = F32.clamp (F32.zero false) (s.hvDmax c) (if s.getF (F.HVS_CFG_MODE c) = 1 then sp else raw)
            ∧ t.getF (F.HVS_STATUS_DUTY c) = (F32.clampInt 0 65535 (F32.toInt (F32.mul (t.hvOf c).duty (F32.ofNat 65536)))).toNat)
          ∧ ((t.hvOf c).on = false → t.getF (F.HVS_STATUS_DUTY c) = 0)))
    ∧ (∀ mon aux amp, (s.flag (F.HVS_CFG_AC c) = true → Leads s (.hvRegulate c mon aux) fun t => t = s)
      ∧ (s.flag (F.HVS_CFG_AC c) = false → Leads s (.hvAcCycle c mon aux amp) fun t => t = s))
    ∧ (∀ (i : Instr) p (w : Word) (k : Nat), (i = .hvEnable p c w ∧ k = 0) ∨ (i = .hvDisable p c w ∧ k = 1) ∨ (i = .hvClear p c w ∧ k = 2) →
      (w.getLsbD k = true → s.dnLate = false →
        Leads s i fun t => t.brg.out.writes = s.brg.out.writes ++ [{ off := R.HVS_CTRL c, w := w, tick := s.tick }] ∧ t.regs = s.regs
          ∧ t.heat = s.heat)
      ∧ (w.getLsbD k = true → s.dnLate = true →
        Leads s i fun t => t.brg.late = s.brg.late ++ [{ off := R.HVS_CTRL c, w := w, tick := s.tick }] ∧ t.brg.out = s.brg.out ∧ t.regs = s.regs
          ∧ t.heat = s.heat)
      ∧ (w.getLsbD k = false → Leads s i fun t => t = s))
    ∧ (∀ w : Word, w.getLsbD 2 = false →
      (w.getLsbD 0 = true → w.getLsbD 1 = false →
        (s.hvState c = 0 → (s.hvCtrl c w).hvState c = 1 ∧ (s.hvCtrl c w).hvOf c = {})
        ∧ (s.hvState c = 3 → (s.hvCtrl c w).hvState c = 3 ∧ (s.hvCtrl c w).flag (F.HVS_STATUS_PENDING_ENABLE c) = true)
        ∧ (s.hvState c = 4 → s.hvCtrl c w = s))
      ∧ (w.getLsbD 0 = false → w.getLsbD 1 = true →
        (s.hvState c = 1 ∨ s.hvState c = 2 → (s.hvCtrl c w).hvState c = 3)
        ∧ (s.hvState c = 3 → (s.hvCtrl c w).hvState c = 3 ∧ (s.hvCtrl c w).flag (F.HVS_STATUS_PENDING_ENABLE c) = false))
      ∧ (w.getLsbD 0 = true → w.getLsbD 1 = true → s.hvCtrl c w = s))
    ∧ (∀ w : Word, w.getLsbD 2 = true → s.hvState c = 4 →
      (s.hvCause c = 0 → w.getLsbD 0 = w.getLsbD 1 → (s.hvCtrl c w).hvState c = 0 ∧ (s.hvCtrl c w).getF (F.HVS_STATUS_CAUSE c) = 0)
      ∧ (s.hvCause c ≠ 0 → w.getLsbD 0 = w.getLsbD 1 → s.hvCtrl c w = s))
    ∧ (s.hvState c = 3 → F32.isZero (s.hvOf c).setp = true →
      Leads s (.hvRampDownDone c) fun t => t.hvState c = 0 ∧ t.getF (F.HVS_STATUS_DUTY c) = 0
        ∧ t.flag (F.HVS_STATUS_PENDING_ENABLE c) = false ∧ (t.hvOf c).on = false
        ∧ (t.hvOf c).startAt = (if s.flag (F.HVS_STATUS_PENDING_ENABLE c) = true then some (s.tick + 1) else none))
    ∧ (s.hvState c ≠ 3 ∨ F32.isZero (s.hvOf c).setp = false → Leads s (.hvRampDownDone c) fun t => t = s)

/-- R387–R390, R399, R400: a provisioning command without the key, or in a secured or dead device, is refused and changes no fuse; with it GENERATE
burns the identity key once, PROGRAM a root hash, and LOCK secures the device where its fuses read back, which is left free (log entry 61); a revocation burns the bits that leave a root; a challenge is
drawn while the random source is good; an unlock consumes it, opens the port or counts its failure; LOCK closes the port; a random source
that fails is reported. -/
def Obligations.FusesAndDebugPortObeyTheirKeys : Prop :=
  ∀ s : State,
    (∀ (key : BitVec 16) (k : Fin 4) rb, key ≠ 0x5EC0#16 ∨ s.fuse.secured = true ∨ s.fuse.dead = true →
      (Leads s (.provGenerate key rb) fun t => t.fuse = s.fuse ∧ t.Arisen (Ev.writeRefused 0x14) 0)
      ∧ (Leads s (.provProgram key k rb) fun t => t.fuse = s.fuse ∧ t.Arisen (Ev.writeRefused 0x14) 0)
      ∧ Leads s (.provLock key) fun t => t.fuse = s.fuse ∧ t.Arisen (Ev.writeRefused 0x14) 0)
    ∧ (s.fuse.secured = false →
      (s.fuse.idKey = none → s.fuse.dead = false → s.flag F.SEC_STATUS_RNG_FAIL = false →
        (Leads s (.provGenerate 0x5EC0#16 true) fun t => t.fuse.idKey.isSome = true ∧ t.fuse.roots = s.fuse.roots
          ∧ t.getF F.SEC_PROV_RESULT_RESULT = 1 ∧ t.getF F.SEC_STATUS_LIFECYCLE = 1)
        ∧ Leads s (.provGenerate 0x5EC0#16 false) fun t => t.fuse = { s.fuse with genFails := s.fuse.genFails + 1 }
          ∧ t.getF F.SEC_PROV_RESULT_RESULT = 2)
      ∧ (∀ k : Fin 4, s.fuse.roots[k] = none → s.fuse.dead = false →
        (Leads s (.provProgram 0x5EC0#16 k true) fun t => t.fuse = { s.fuse with roots := s.fuse.roots.set k (some s.provData) }
          ∧ t.getF F.SEC_PROV_RESULT_RESULT = 1)
        ∧ Leads s (.provProgram 0x5EC0#16 k false) fun t => t.fuse = s.fuse ∧ t.getF F.SEC_PROV_RESULT_RESULT = 2)
      ∧ (s.fuse.validMask ≠ 0 → s.fuse.dead = false → Leads s (.provLock 0x5EC0#16) fun t =>
        t.fuse = (if (s.fresh 1).getLsbD 0 = true then { s.fuse with secured := true } else s.fuse)
        ∧ t.getF F.SEC_PROV_RESULT_RESULT = (if (s.fresh 1).getLsbD 0 = true then 1 else 2)
        ∧ ((s.fresh 1).getLsbD 0 = true → t.getF F.SEC_STATUS_LIFECYCLE = 2)))
    ∧ (∀ (w : Word) (k : Fin 4), bits w 16 16 = 0x5EC0 → s.fuse.roots[k].isSome = true → (s.fuse.revoked ||| w.extractLsb' 0 4).getLsbD k = false →
      Leads s (.rootRevoke w) fun t => t.fuse = { s.fuse with revoked := s.fuse.revoked ||| w.extractLsb' 0 4 })
    ∧ (∀ w : Word, bits w 16 16 ≠ 0x5EC0 → Leads s (.rootRevoke w) fun t => t = s)
    ∧ (s.rngFail = false → Leads s .newChal fun t => t.sec.chal = true ∧ t.freeCtr = s.freeCtr + 8)
    ∧ (s.rngFail = true → Leads s .newChal fun t => t = s)
    ∧ (s.sec.chal = false → s.flag F.SEC_STATUS_LOCKOUT = false → s.fuse.permLock = false → s.getF F.SEC_STATUS_UNLOCK_FAILS < 3 →
      Leads s .debugUnlock fun t => t.getF F.SEC_DBG_RESULT = 4 ∧ t.dbgOpen = s.dbgOpen
        ∧ t.getF F.SEC_STATUS_UNLOCK_FAILS = s.getF F.SEC_STATUS_UNLOCK_FAILS + 1
        ∧ t.flag F.SEC_STATUS_LOCKOUT = decide (s.getF F.SEC_STATUS_UNLOCK_FAILS = 2))
    ∧ (Leads s .debugUnlock fun t => t.dbgOpen = (s.dbgOpen || decide (s.unlockResult.1 = 1)) ∧ t.sec.chal = false
        ∧ t.getF F.SEC_DBG_RESULT = s.unlockResult.1 ∧ (s.unlockResult.1 = 1 → t.Arisen Ev.SEC_DEBUG_UNLOCKED 0))
    ∧ (Leads s .debugLock fun t => t.dbgOpen = false ∧ (∀ u, (s.thr u).back ≠ .debugHalted → (t.thr u).st ≠ .debugHalted)
        ∧ (s.seq.patched = true → t.vin.unsigned = true))
    ∧ (s.rngFail = false → Leads s .rngHealthFail fun t => t.rngFail = true ∧ t.Arisen Ev.SEC_RNG_FAIL 0)

/-- R397, R398: an authentication starts at an idle port and reads the header of the chain; the challenge is written and polled for from 1 ms
after it; the signature that comes decides the result and the gate, and so do a transaction without an answer and a consumable that is not
ready in time. -/
def Obligations.ConsumablesAreAuthenticated : Prop :=
  ∀ (s : State) (p : Fin 4),
    (s.flag (F.SEC_CON_CFG_EN p) = true → (s.conOf p).stage = .idle →
      (Leads s (.consumableAuth p) fun t => (t.conOf p).stage = .header ∧ (t.conOf p).at_ = s.tsc.toNat ∧ t.getF (F.SEC_CON_STATUS_STATE p) = 1)
      ∧ (s.getF (F.SEC_CON_CFG_PERIOD p) ≠ 0 →
        (s.conOf p).periodAt + s.getF (F.SEC_CON_CFG_PERIOD p) * 200000000 ≤ s.tsc.toNat →
        Leads s (.consumablePeriod p) fun t => (t.conOf p).stage = .header
          ∧ (t.conOf p).periodAt = (s.conOf p).periodAt + s.getF (F.SEC_CON_CFG_PERIOD p) * 200000000))
    ∧ ((s.conOf p).stage ≠ .idle → Leads s (.consumableAuth p) fun t => t = s)
    ∧ (∀ data, (s.conOf p).stage = .header →
      (1 ≤ byteAt data 64 → byteAt data 64 ≤ 3 →
        Leads s (.i2cTransactionDone p false data) fun t => (t.conOf p).stage = .cert 0 ∧ (t.conOf p).chain = data.take 72)
      ∧ (Leads s (.i2cTransactionDone p true data) fun t => (t.conOf p).stage = .idle ∧ t.getF (F.SEC_CON_STATUS_STATE p) = 3
        ∧ t.flag (F.SEC_CON_STATUS_GATED p) = true ∧ t.Arisen Ev.SEC_CON_AUTH p))
    ∧ (∀ data, (s.conOf p).stage = .challenge →
      Leads s (.i2cTransactionDone p false data) fun t => (t.conOf p).stage = .wait ∧ (t.conOf p).challAt = s.tsc.toNat)
    ∧ (∀ data, (s.conOf p).stage = .response →
      Leads s (.i2cTransactionDone p false data) fun t => (t.conOf p).stage = .idle ∧ t.Arisen Ev.SEC_CON_AUTH p
        ∧ t.getF (F.SEC_CON_STATUS_STATE p) = (s.conLeaf p).elim 4 (fun l =>
            if Crypto.ecdsaVerify l.key (Crypto.sha256 ((s.conOf p).nonce ++ leBytes 8 l.serial)) (data.take 64) = true then 2 else 5)
        ∧ t.flag (F.SEC_CON_STATUS_GATED p) = decide (t.getF (F.SEC_CON_STATUS_STATE p) ≠ 2))
    ∧ ((s.conOf p).stage = .wait → (s.conOf p).pollAt + 200000 ≤ s.tsc.toNat →
      Leads s (.statusPoll p) fun t => (t.conOf p).stage = .status ∧ (t.conOf p).pollAt = (s.conOf p).pollAt + 200000 ∧ t.regs = s.regs)
    ∧ (∀ st, (s.conOf p).stage = .wait → (s.conOf p).challAt + s.getF (F.SEC_CON_TO p) * 200000 ≤ s.tsc.toNat →
      Leads s (.consumableTimeout p st) fun t => (t.conOf p).stage = .idle ∧ t.getF (F.SEC_CON_STATUS_STATE p) = 7
        ∧ t.Arisen Ev.SEC_CON_AUTH p)
    ∧ (∀ st, (s.conOf p).stage = .idle → Leads s (.consumableTimeout p st) fun t => t = s)

/-- R20, R402, R404, R407, R409, R411, R413, R467: the supervisor powers up when its conditions hold; the loss of AC_OK starts the power-down, and
its rails follow 300 µs later; a rail in its window is GOOD, and one that leaves it, or does not come in time, shuts every rail off; a rail
below its off threshold, or past its time, is OFF; commands of rails travel in the downward frame; a margin moves step by step; a fall of
VSTBY_33 leaves what non-volatile memory holds. -/
def Obligations.TheSupervisorFollowsItsRails : Prop :=
  ∀ (s : State) (dt : Nat) (r : Fin 16) (vs : Nat),
    (s.psqState = 0 → s.psq.standby = true → s.psq.lockout = false → (s.psqAdvance dt).minOffDone = true →
      (Leads s (.acOkRise dt) fun t => t.psqState = 1 ∧ t.devIs 1 = true ∧ t.flag F.PSQ_STATUS_AC_OK = true)
      ∧ (s.flag F.PSQ_STATUS_AC_OK = true → Leads s (.minOffElapsed dt) fun t => t.psqState = 1 ∧ t.devIs 1 = true))
    ∧ (s.psqState = 2 → s.psq.core = true → Leads s (.acOkFall dt) fun t => t.psqState = 3 ∧ t.devIs 7 = true
        ∧ t.flag F.PSQ_STATUS_AC_OK = false ∧ t.getR R.PSQ_LAST = 1#32 ∧ t.psq.fellAt = s.psq.now + dt ∧ t.psq.seq = false)
    ∧ (s.psqState = 3 → s.psq.total = false → s.psq.seq = false → s.psq.fellAt + 300 ≤ s.psq.now + dt →
      Leads s (.powerDownRailStart dt) fun t => t.psq.seq = true)
    ∧ (∀ pg head test, s.railState r = 2 → s.railGood r vs pg = true → s.psqState = 2 →
      Leads s (.railGood dt r vs pg head test) fun t => t.railState r = 3 ∧ t.bitF F.PSQ_GOOD r = true)
    ∧ (∀ pg, s.railState r = 3 → s.railGood r vs pg = false → s.psqState = 2 →
      Leads s (.railGoodLost dt r vs pg) fun t => t.devIs 7 = true ∧ t.getR R.PSQ_LAST
        = BitVec.ofNat 32 (2 + 16 * r.val + 256 * boolNat (s.railAbove r vs)))
    ∧ (s.railState r = 2 → (s.railOf r).onAt + 1000 * s.getF (F.PSQ_RAIL_TO_PG_TO r) ≤ s.psq.now + dt →
      Leads s (.pgTimeout dt r vs) fun t => t.getR R.PSQ_LAST = BitVec.ofNat 32 (3 + 16 * r.val + 256 * boolNat (s.railAbove r vs)))
    ∧ (s.railState r = 4 → s.flag (F.PSQ_RAIL_STATUS_PENDING_ENABLE r) = false → s.underOff r vs = true →
      Leads s (.railBelowOff dt r vs) fun t => t.railState r = 0 ∧ t.flag (F.PSQ_RAIL_STATUS_BELOW_OFF r) = true)
    ∧ (s.railState r = 4 → s.flag (F.PSQ_RAIL_STATUS_PENDING_ENABLE r) = false →
      (s.railOf r).offAt + 1000 * s.getF (F.PSQ_RAIL_TO_OFF_TO r) ≤ s.psq.now + dt →
      Leads s (.offTimeout dt r vs) fun t => t.railState r = 0)
    ∧ (∀ p w, s.dnLate = false →
      (Leads s (.railOn p r) fun t => t.brg.out.writes = s.brg.out.writes ++ [{ off := R.PSQ_RAIL_CTRL r, w := 1#32, tick := s.tick }]
        ∧ t.regs = s.regs)
      ∧ (Leads s (.railOff p r) fun t => t.brg.out.writes = s.brg.out.writes ++ [{ off := R.PSQ_RAIL_CTRL r, w := 2#32, tick := s.tick }]
        ∧ t.regs = s.regs)
      ∧ Leads s (.marginWrite p r w) fun t => t.brg.out.writes = s.brg.out.writes ++ [{ off := R.PSQ_RAIL_MARGIN r, w := w, tick := s.tick }]
        ∧ t.regs = s.regs)
    ∧ (s.railState r = 3 → (s.railOf r).stepAt + 100 ≤ s.psq.now + dt →
      (s.railOf r).margin < marginOf (s.getR (R.PSQ_RAIL_MARGIN r)) →
      Leads s (.marginStep dt r) fun t => (t.railOf r).margin = (s.railOf r).margin + 1
        ∧ t.flag (F.PSQ_RAIL_STATUS_MARGINED r) = decide ((s.railOf r).margin + 1 ≠ 0))
    ∧ (Leads s .vstby33Fall fun t => t.pending = s.pending ∧ t.fuse = s.fuse ∧ t.vin.slots = s.vin.slots ∧ t.psq.core = false
        ∧ t.psq.standby = false ∧ t.getR R.PSQ_LAST = s.getR R.PSQ_LAST ∧ t.brg.half = Vector.replicate 48 {})

/-- R428–R433, R439–R441: a port comes up, and goes down after three ticks without a correct frame; a frame that is not correct is counted and
discarded, one that is correct gives delay and alignment; a head that receives one from above is in conflict; an address and the count of
the units are taken; alignment is declared after 64 ticks; a stop and an alarm are reported, and a stop is sent on both ports; a message
to a unit below goes down, one received is kept for a reader and popped by it, and one too many is lost. -/
def Obligations.ChainPortsFramesAndEnumeration : Prop :=
  ∀ (s : State) (p : Fin 2),
    (s.chnUp p = false → Leads s (.portUp p) fun t => t.chnUp p = true ∧ (t.cport p).wasUp = true ∧ (t.cport p).lastGood = s.tick)
    ∧ (∀ f, s.chnUp p = false → Leads s (.chnFrame p f) fun t => t = s)
    ∧ (∀ f, s.chnUp p = true → ChnFrame.ok f = false → p = 1 ∨ s.flag F.CHN_STATUS_HEAD = false →
      Leads s (.chnFrame p f) fun t => t = s.incR (R.CHN_CRC_ERR p) 1)
    ∧ (∀ f, s.chnUp 0 = true → s.flag F.CHN_STATUS_HEAD = true → s.flag F.CHN_STATUS_CONFLICT = false → ChnFrame.ok f = false →
      Leads s (.chnFrame 0 f) fun t => t.flag F.CHN_STATUS_CONFLICT = true ∧ t.Arisen Ev.CHN_HEAD_CONFLICT 0)
    ∧ (∀ f, s.chnUp 1 = true → ChnFrame.ok f = true → ChnFrame.msgs f = [] →
      Leads s (.chnFrame 1 f) fun t => (t.cport 1).lastGood = s.tick ∧ t.flag (F.CHN_PORT_STATUS_NALIGNED 1) = ChnFrame.aligned f
        ∧ t.getF (F.CHN_LAT 1) = (((f.arrive : Int) - 10 - ChnFrame.delay f).emod 25000 / 2).toNat)
    ∧ (∀ h : BitVec 64, 64 ≤ s.chn.good → s.flag (F.CHN_PORT_STATUS_NALIGNED 0) = true → s.flag F.CHN_STATUS_ALIGNED = false →
      s.flag F.CHN_STATUS_HEAD = false →
      Leads s (.alignDeclared h) fun t => t.flag F.CHN_STATUS_ALIGNED = true ∧ t.Arisen Ev.CHN_ALIGNED 0
        ∧ t.getP R.CHN_TICK_OFS_LO 
          = (BitVec.ofNat 64 (h.toNat / 65536 * 65536 + (s.cport 0).above) - BitVec.ofNat 64 s.tick).toNat)
    ∧ (s.chnUp p = true → (s.cport p).lastGood + 3 ≤ s.tick →
      Leads s (.portDownTimeout p) fun t => t.chnUp p = false ∧ t.Arisen Ev.CHN_PORT_DOWN p)
    ∧ (∀ a : BitVec 8, s.flag F.CHN_STATUS_HEAD = false → 1 ≤ a.toNat → a.toNat ≤ 8 →
      Leads s (.enum 0 a) fun t => t.getF F.CHN_STATUS_ADDR = a.toNat)
    ∧ (∀ a, Leads s (.enum 1 a) fun t => t = s)
    ∧ (∀ n : BitVec 8, s.flag F.CHN_STATUS_CONFLICT = false → 1 ≤ n.toNat → n.toNat < 16 → Leads s (.enumEnd 1 n) fun t => t.getF F.CHN_STATUS_UNITS = n.toNat
        ∧ t.flag F.CHN_STATUS_FORMED = true)
    ∧ (s.flag F.CHN_STATUS_CONFLICT = false → Leads s (.enumEnd 1 0#8) fun t => t.flag F.CHN_STATUS_TOO_LONG = true ∧ t.flag F.CHN_STATUS_FORMED = false ∧ t.Arisen Ev.CHN_TOO_LONG 0)
    ∧ (∀ src c ap, Leads s (.alarm p src c ap) fun t => t.Arisen Ev.CHN_REMOTE_ALARM 0 ∧ t.led = s.led ∧ t.chn = s.chn)
    ∧ (∀ src, Leads s (.coordinatedStop p src) fun t => t.flag F.CHN_STATUS_STOPPED = true ∧ t.chn.stopDue = true ∧ t.Arisen Ev.CHN_STOP 0)
    ∧ (∀ port, Leads s (.stopSend port) fun t => t.regs = s.regs
        ∧ ∀ q : Fin 2, (t.cport q).stops = (s.cport q).stops + 1 ∧ (t.cport q).stopSrc = s.chnAddr ∧ (t.cport q).stopAt = s.tsc.toNat)
    ∧ (∀ src d, s.flag F.CHN_STATUS_FORMED = true → s.flag F.CHN_CFG_EN = true →
      ((s.cport p).rx.length < 8 → Leads s (.user p src d) fun t => (t.cport p).rx = (s.cport p).rx ++ [(src, d)])
      ∧ (8 ≤ (s.cport p).rx.length → Leads s (.user p src d) fun t => t.chn = s.chn ∧ t.flag (F.CHN_MSG_RX_STAT_OVF p) = true))
    ∧ (∀ port (d : BitVec 4), s.flag F.CHN_STATUS_FORMED = true → s.flag F.CHN_CFG_EN = true → s.getF F.CHN_STATUS_ADDR < d.toNat → d ≠ 0xF#4 →
      (s.cport 1).txq.length < 32 → Leads s (.userPost port d) fun t => ∃ m, (t.cport 1).txq = (s.cport 1).txq ++ [m] ∧ m.ty = 0x30#8
        ∧ m.dest = d ∧ m.src = s.chnAddr ∧ t.regs = s.regs)
    ∧ (∀ port, Leads s (.userPop port p) fun t => (t.cport p).rx = (s.cport p).rx.drop 1)

/-- R434–R437: an offered sheet is recorded or refused; an accepted one leaves the ledger, or waits where the ledger is frozen; one that is no
longer in a handover is answered with ABORT; a refusal and a timeout give it back; a committed one enters the ledger, an aborted one goes;
an outcome is asked for again, and answered from the log; while the chain is not formed no handover message is taken. -/
def Obligations.HandoversMoveOneSheetOnce : Prop :=
  ∀ (s : State) (p : Fin 2) (src : BitVec 4) (id : Word),
    (∀ sp sz co t1 t2, s.offerRefusal id = none → s.jr.frozenAc = false →
      Leads s (.offer p src id sp sz co t1 t2) fun t => t.chn.pends = s.chn.pends ++ [{ id := id, port := p, tick := s.tick }]
        ∧ ∃ sh, sh.id = id ∧ sh.place = .pendingIn ∧ sh.spoiled = sp ∧ sh.tag1 = some t1 ∧ t.led = s.led.apply (.pendIn sh))
    ∧ (∀ sp sz co t1 t2 r, s.offerRefusal id = some r → (s.cport p).txq.length < 32 →
      Leads s (.offer p src id sp sz co t1 t2) fun t => t.led = s.led ∧ t.chn.pends = s.chn.pends
        ∧ ∃ m, (t.cport p).txq = (s.cport p).txq ++ [m] ∧ m.ty = 0x12#8 ∧ msgWord m 0 = id)
    ∧ (∀ o, s.flag F.CHN_STATUS_FORMED = true → s.chn.offers.find? (fun o => o.id == id) = some o → o.accepted = false →
      o.heldAccept = false →
      (s.frozen = false → s.jr.frozenAc = false → s.inHandoff id = true → Leads s (.accept p src id) fun t => t.led = s.led.apply (.leave id .handedOut))
      ∧ (s.frozen = false → s.inHandoff id = false → Leads s (.accept p src id) fun t => t.led = s.led ∧ t.getF F.CHN_HO_LAST_OUTCOME = 3)
      ∧ (s.frozen = true → Leads s (.accept p src id) fun t => t.led = s.led ∧ ∃ x ∈ t.chn.offers, x.id = id ∧ x.heldAccept = true))
    ∧ (s.flag F.CHN_STATUS_FORMED = true → s.chn.offers.find? (fun o => o.id == id) = none → (s.cport p).txq.length < 32 →
      Leads s (.accept p src id) fun t => t.led = s.led ∧ ∃ m, (t.cport p).txq = (s.cport p).txq ++ [m] ∧ m.ty = 0x14#8 ∧ msgWord m 0 = id)
    ∧ (∀ o (reason : BitVec 8), s.jr.frozenAc = false → s.flag F.CHN_STATUS_FORMED = true → s.chn.offers.find? (fun o => o.id == id && !o.accepted) = some o → o.reset = false → reason.toNat < 16 →
      Leads s (.refuse p src id reason) fun t => t.chn.offers = s.chn.offers.filter (fun x => x.id != id)
        ∧ t.led = s.led.apply (.handoff id false) ∧ t.getF F.CHN_HO_LAST_OUTCOME = 2 ∧ t.getF F.CHN_HO_LAST_REASON = reason.toNat
        ∧ t.getR R.CHN_HO_LAST_ID = id)
    ∧ (∀ o, s.chn.offers.find? (fun o => o.id == id && !o.accepted && !o.heldAccept) = some o → o.reset = false → s.jr.frozenAc = false →
      o.tick + s.getF F.CHN_CFG_HO_TO ≤ s.tick →
      Leads s (.handoverTimeout id) fun t => t.chn.offers = s.chn.offers.filter (fun x => x.id != id)
        ∧ t.led = s.led.apply (.handoff id false) ∧ t.Arisen Ev.CHN_HO_ABORT o.port ∧ t.getF F.CHN_HO_LAST_OUTCOME = 3)
    ∧ (∀ x, s.flag F.CHN_STATUS_FORMED = true → s.chn.pends.find? (fun x => x.id == id) = some x → x.resolving = false →
      (s.frozen = false → s.jr.frozenAc = false → x.boot = false → Leads s (.commit p src id) fun t => t.chn.pends = s.chn.pends.filter (fun y => y.id != id)
        ∧ t.led = s.led.apply (.pendEnter id (Fin.ofNat 16 (s.getF F.CHN_CFG_IN_ZONE)) (Fin.ofNat 16 (s.getF F.CHN_CFG_IN_OWNER)))
        ∧ t.getF F.CHN_HO_LAST_OUTCOME = 4)
      ∧ (s.frozen = true → Leads s (.commit p src id) fun t => t.led = s.led ∧ ∃ y ∈ t.chn.pends, y.id = id ∧ y.held = true)
      ∧ (s.jr.frozenAc = false → Leads s (.abort p src id) fun t => t.chn.pends = s.chn.pends.filter (fun y => y.id != id)
        ∧ t.led = s.led.apply (.pendDel id) ∧ t.getF F.CHN_HO_LAST_OUTCOME = 3))
    ∧ (s.flag F.CHN_STATUS_FORMED = true → s.chn.pends.find? (fun x => x.id == id) = none →
      (Leads s (.commit p src id) fun t => t = s.fire 0x0C p) ∧ Leads s (.abort p src id) fun t => t = s.fire 0x0C p)
    ∧ (∀ r, s.flag F.CHN_STATUS_FORMED = false → (Leads s (.accept p src id) fun t => t = s) ∧ (Leads s (.refuse p src id r) fun t => t = s)
      ∧ (Leads s (.commit p src id) fun t => t = s) ∧ (Leads s (.abort p src id) fun t => t = s) ∧ Leads s (.resolve p src id) fun t => t = s)
    ∧ (s.flag F.CHN_STATUS_FORMED = true → (s.cport p).txq.length < 32 → Leads s (.resolve p src id) fun t => t.led = s.led
        ∧ ∃ m, (t.cport p).txq = (s.cport p).txq ++ [m] ∧ m.ty = (if s.nvm.log.contains id then 0x13#8 else 0x14#8) ∧ msgWord m 0 = id)
    ∧ (∀ x, s.chn.pends.find? (fun x => x.id == id && !x.held) = some x → x.tick + s.getF F.CHN_CFG_HO_TO ≤ s.tick → s.chnUp x.port = true →
      Leads s (.resolveTimer id) fun t => (∀ y ∈ t.chn.pends, y.id = id → y.resolving = true ∧ y.tick = s.tick) ∧ t.led = s.led)

/-- R65: a SIG sets the sender's bit in the pending bits of its target, whatever the target's state, and a bit already set stays set: no
register counts it, and nothing else of the target or of another thread changes. The bit of a halted or disabled thread
stays until that thread starts; a start at the switch leaves it clear in every thread that is enabled. -/
def Obligations.SignalsMergeAndWaitForTheStart : Prop :=
  ∀ (s : State) (t rs1 u : Fin 16) (imm : BitVec 18), u = Fin.ofNat 16 (s.rx t rs1 + imm.signExtend 32).toNat →
    (s.ready t 1 → ∃ s', exec (.sig t rs1 imm) s = .next s'
      ∧ (s'.thr u).pend = (s.thr u).pend ||| (1#64 <<< t.val)
      ∧ (u ≠ t → s'.thr u = { s.thr u with pend := (s.thr u).pend ||| (1#64 <<< t.val) })
      ∧ (∀ v, v ≠ t → v ≠ u → s'.thr v = s.thr v)
      ∧ s'.regs = s.regs ∧ s'.mem = s.mem ∧ s'.led = s.led ∧ s'.ev = s.ev)
    ∧ (∀ v : Fin 16, s.seq.startDue = true → ∃ s', exec .threadStart s = .next s' ∧ (s'.flag (F.SEQ_THR_CFG_EN v) = true → (s'.thr v).pend &&& 0xFFFF#64 = 0#64))

/-- R96: a PICK performed while the ledger is frozen halts its thread with LEDGER and has no effect: no register word but the latch of
SEQ_STATUS changes, no sheet, no page, no byte and no register of the thread, whatever page or reason there is. -/
def Obligations.FrozenLedgersFaultPick : Prop :=
  ∀ (s : State) (t rd rs1 rs2 : Fin 16), s.frozen = true → s.canIssue t 4 = true →
    ∃ s', exec (.pick t rd rs1 rs2) s = .next s' ∧ (s'.thr t).st = .halted ∧ (s'.thr t).fault = 0x6
      ∧ (s'.thr t).pc = (s.thr t).pc ∧ (s'.thr t).x = (s.thr t).x ∧ (s'.thr t).aux = (s.thr t).aux
      ∧ (∀ u, u ≠ t → s'.thr u = s.thr u)
      ∧ s'.led = s.led ∧ s'.cel = s.cel ∧ s'.jr = s.jr ∧ s'.mem = s.mem
      ∧ ∀ off, off ≠ R.SEQ_STATUS → s'.getR off = s.getR off
end

