-- ==== Sys2Proof/Laws/SMap.lean ====
section
/-! SUPPORT. Laws/SMap.lean: the laws of sparse maps and of bit fields: a read after a write to the same place, a write leaves
every other place alone, and every operation keeps the canonical form. -/

namespace Sys2Proof.Machine

namespace SMap

variable {α : Type}

theorem get_erase_ne (d : Nat → α) (m : SMap α) {k j : Nat} (h : j ≠ k) : get d (erase m k) j = get d m j := by
  induction m with
  | nil => rfl
  | cons x r ih =>
    obtain ⟨a, v⟩ := x
    by_cases ha : a = k
    · have : ¬ a = j := by omega
      simp [erase, get, ha, ih, show ¬ k = j by omega]
    · simp [erase, get, ha, ih]

theorem get_erase_same (d : Nat → α) (m : SMap α) (k : Nat) : get d (erase m k) k = d k := by
  induction m with
  | nil => rfl
  | cons x r ih =>
    obtain ⟨a, v⟩ := x
    by_cases ha : a = k <;> simp [erase, get, ha, ih]

theorem get_insert_same (d : Nat → α) (m : SMap α) (k : Nat) (v : α) : get d (insert m k v) k = v := by
  induction m with
  | nil => simp [insert, get]
  | cons x r ih =>
    obtain ⟨a, w⟩ := x
    simp only [insert]
    split
    · simp [get]
    · split
      · simp [get]
      · simp [get, *]

theorem get_insert_ne (d : Nat → α) (m : SMap α) {k j : Nat} (v : α) (h : j ≠ k) : get d (insert m k v) j = get d m j := by
  induction m with
  | nil => simp [insert, get, Ne.symm h]
  | cons x r ih =>
    obtain ⟨a, w⟩ := x
    simp only [insert]
    split
    · simp [get, Ne.symm h]
    · split
      · rename_i ha
        simp [get, Ne.symm h, ha]
      · simp [get, ih]

/-- A read after a write to the same offset gives the value written. -/
@[simp] theorem get_set_same [DecidableEq α] (d : Nat → α) (m : SMap α) (k : Nat) (v : α) : get d (set d m k v) k = v := by
  unfold set
  split
  · rename_i h
    rw [get_erase_same, h]
  · exact get_insert_same d m k v

/-- A write leaves every other offset alone. -/
theorem get_set_ne [DecidableEq α] (d : Nat → α) (m : SMap α) {k j : Nat} (v : α) (h : j ≠ k) :
    get d (set d m k v) j = get d m j := by
  unfold set
  split
  · exact get_erase_ne d m h
  · exact get_insert_ne d m v h

theorem risingFrom_mono {lo hi : Nat} (h : lo ≤ hi) {m : SMap α} (w : risingFrom hi m = true) : risingFrom lo m = true := by
  cases m with
  | nil => rfl
  | cons x r =>
    simp only [risingFrom, Bool.and_eq_true, decide_eq_true_eq] at w ⊢
    exact ⟨by omega, w.2⟩

theorem risingFrom_filter (p : Nat × α → Bool) {lo : Nat} {m : SMap α} (w : risingFrom lo m = true) :
    risingFrom lo (m.filter p) = true := by
  induction m generalizing lo with
  | nil => rfl
  | cons x r ih =>
    simp only [risingFrom, Bool.and_eq_true, decide_eq_true_eq] at w
    by_cases hp : p x
    · simp only [List.filter_cons_of_pos hp, risingFrom, Bool.and_eq_true, decide_eq_true_eq]
      exact ⟨w.1, ih w.2⟩
    · rw [List.filter_cons_of_neg hp]
      exact risingFrom_mono (by omega) (ih w.2)

theorem noDefault_filter [DecidableEq α] (d : Nat → α) (p : Nat × α → Bool) {m : SMap α} (w : noDefault d m = true) :
    noDefault d (m.filter p) = true := by
  induction m with
  | nil => rfl
  | cons x r ih =>
    simp only [noDefault, Bool.and_eq_true, decide_eq_true_eq] at w
    by_cases hp : p x
    · simp only [List.filter_cons_of_pos hp, noDefault, Bool.and_eq_true, decide_eq_true_eq]
      exact ⟨w.1, ih w.2⟩
    · rw [List.filter_cons_of_neg hp]
      exact ih w.2

/-- A part of a canonical map is canonical. -/
theorem wf_filter [DecidableEq α] (d : Nat → α) (p : Nat × α → Bool) {m : SMap α} (w : wf d m = true) : wf d (m.filter p) = true := by
  simp only [wf, Bool.and_eq_true] at w ⊢
  exact ⟨risingFrom_filter p w.1, noDefault_filter d p w.2⟩

theorem erase_eq_filter (m : SMap α) (k : Nat) : erase m k = m.filter fun x => x.1 != k := by
  induction m with
  | nil => rfl
  | cons x r ih =>
    obtain ⟨a, v⟩ := x
    by_cases ha : a = k <;> simp [erase, ha, ih]

theorem risingFrom_insert {lo : Nat} {m : SMap α} {k : Nat} (v : α) (hk : lo ≤ k) (w : risingFrom lo m = true) :
    risingFrom lo (insert m k v) = true := by
  induction m generalizing lo with
  | nil => simp [insert, risingFrom, hk]
  | cons x r ih =>
    obtain ⟨a, u⟩ := x
    simp only [risingFrom, Bool.and_eq_true, decide_eq_true_eq] at w
    simp only [insert]
    split
    · rename_i h
      simp only [risingFrom, Bool.and_eq_true, decide_eq_true_eq]
      exact ⟨hk, by omega, w.2⟩
    · split
      · rename_i h
        subst h
        simp only [risingFrom, Bool.and_eq_true, decide_eq_true_eq]
        exact ⟨hk, w.2⟩
      · simp only [risingFrom, Bool.and_eq_true, decide_eq_true_eq]
        exact ⟨w.1, ih (by omega) w.2⟩

theorem noDefault_insert [DecidableEq α] (d : Nat → α) {m : SMap α} {k : Nat} {v : α} (hv : v ≠ d k)
    (w : noDefault d m = true) : noDefault d (insert m k v) = true := by
  induction m with
  | nil => simp [insert, noDefault, hv]
  | cons x r ih =>
    obtain ⟨a, u⟩ := x
    simp only [noDefault, Bool.and_eq_true, decide_eq_true_eq] at w
    simp only [insert]
    split
    · simp [noDefault, hv, w]
    · split
      · simp [noDefault, hv, w]
      · simp [noDefault, w, ih]

/-- A write keeps the canonical form. -/
theorem wf_set [DecidableEq α] (d : Nat → α) {m : SMap α} (k : Nat) (v : α) (w : wf d m = true) : wf d (set d m k v) = true := by
  unfold set
  split
  · rw [erase_eq_filter]
    exact wf_filter d _ w
  · rename_i h
    simp only [wf, Bool.and_eq_true] at w ⊢
    exact ⟨risingFrom_insert v (Nat.zero_le k) w.1, noDefault_insert d h w.2⟩

/-- The empty map is canonical. -/
theorem wf_nil [DecidableEq α] (d : Nat → α) : wf d ([] : SMap α) = true := rfl

end SMap

/-! ## Bit fields -/

theorem toNat_setBits_testBit (w : Word) (lo n v i : Nat) (hi : i < 32) :
    (setBits w lo n v).getLsbD i = if lo ≤ i ∧ i < lo + n then v.testBit (i - lo) else w.getLsbD i := by
  have hones : ((2 ^ n - 1) * 2 ^ lo).testBit i = decide (lo ≤ i ∧ i < lo + n) := by
    rw [Nat.testBit_mul_two_pow, Nat.testBit_two_pow_sub_one]
    by_cases h : lo ≤ i <;> simp [h] <;> omega
  have hv : (v % 2 ^ n * 2 ^ lo).testBit i = (decide (lo ≤ i ∧ i < lo + n) && v.testBit (i - lo)) := by
    rw [Nat.testBit_mul_two_pow, Nat.testBit_mod_two_pow]
    by_cases h : lo ≤ i
    · have : (i - lo < n) = (lo ≤ i ∧ i < lo + n) := by simp only [eq_iff_iff]; omega
      simp [h, this]
    · simp [h]
  simp only [setBits, ones, BitVec.getLsbD_or, BitVec.getLsbD_and, BitVec.getLsbD_not, BitVec.getLsbD_ofNat, hi, hones, hv,
    decide_true, Bool.true_and]
  by_cases h : lo ≤ i ∧ i < lo + n <;> simp [h]

theorem bits_testBit (w : Word) (lo n i : Nat) : (bits w lo n).testBit i = (decide (i < n) && w.getLsbD (lo + i)) := by
  unfold bits
  rw [Nat.testBit_mod_two_pow, Nat.testBit_div_two_pow]
  simp [BitVec.getLsbD, Nat.add_comm]

/-- A field holds what was stored in it. -/
theorem bits_setBits_same (w : Word) (lo n v : Nat) (h : lo + n ≤ 32) : bits (setBits w lo n v) lo n = v % 2 ^ n := by
  apply Nat.eq_of_testBit_eq
  intro i
  rw [bits_testBit, Nat.testBit_mod_two_pow]
  by_cases hi : i < n
  · rw [toNat_setBits_testBit _ _ _ _ _ (by omega)]
    simp [hi]
  · simp [hi]

/-- A field that shares no bit with the one stored keeps its value. -/
theorem bits_setBits_disjoint (w : Word) (lo n v lo' n' : Nat) (h' : lo' + n' ≤ 32) (h : lo' + n' ≤ lo ∨ lo + n ≤ lo') :
    bits (setBits w lo n v) lo' n' = bits w lo' n' := by
  apply Nat.eq_of_testBit_eq
  intro i
  rw [bits_testBit, bits_testBit]
  by_cases hi : i < n'
  · rw [toNat_setBits_testBit _ _ _ _ _ (by omega)]
    have : ¬ (lo ≤ lo' + i ∧ lo' + i < lo + n) := by omega
    simp [this]
  · simp [hi]

theorem bits_lt (w : Word) (lo n : Nat) : bits w lo n < 2 ^ n := Nat.mod_lt _ (Nat.two_pow_pos n)

end Sys2Proof.Machine
end

