-- ==== Sys2Proof/Laws/Regs.lean ====
section
/-! SUPPORT. Laws/Regs.lean: the laws of register words and fields, threads, events and pending queue under the named
operations of Machine/Ops.lean. -/

namespace Sys2Proof.Machine

/-! ## Register words -/

@[simp] theorem getR_putR_same (s : State) (off : Nat) (w : Word) : (s.putR off w).getR off = w := SMap.get_set_same _ _ _ _

theorem getR_putR_ne (s : State) {off o : Nat} (w : Word) (h : o ≠ off) : (s.putR off w).getR o = s.getR o :=
  SMap.get_set_ne _ _ _ h

/-! ## Fields -/

theorem getF_putF_same (s : State) (f : Fld) (v : Nat) (h : f.lo + f.w ≤ 32) : (s.putF f v).getF f = v % 2 ^ f.w := by
  simp only [State.getF, State.putF, getR_putR_same]
  exact bits_setBits_same _ _ _ _ h

theorem getF_putF_off (s : State) (f g : Fld) (v : Nat) (h : g.off ≠ f.off) : (s.putF f v).getF g = s.getF g := by
  simp only [State.getF, State.putF, getR_putR_ne _ _ h]

theorem getF_putF_disjoint (s : State) (f g : Fld) (v : Nat) (hg : g.lo + g.w ≤ 32) (h : g.lo + g.w ≤ f.lo ∨ f.lo + f.w ≤ g.lo) :
    (s.putF f v).getF g = s.getF g := by
  by_cases ho : g.off = f.off
  · simp only [State.getF, State.putF, ho, getR_putR_same]
    exact bits_setBits_disjoint _ _ _ _ _ _ hg h
  · exact getF_putF_off s f g v ho

theorem getF_putR (s : State) (f : Fld) (off : Nat) (w : Word) (h : f.off ≠ off) : (s.putR off w).getF f = s.getF f := by
  simp only [State.getF, getR_putR_ne _ _ h]

theorem getR_putF_ne (s : State) (f : Fld) (v off : Nat) (h : off ≠ f.off) : (s.putF f v).getR off = s.getR off :=
  getR_putR_ne _ _ h

/-! ## Threads -/

@[simp] theorem thr_setThr_same (s : State) (t : Fin 16) (h : Thread) : (s.setThr t h).thr t = h := by
  simp [State.thr, State.setThr]

theorem thr_setThr_ne (s : State) {t u : Fin 16} (h : Thread) (n : u ≠ t) : (s.setThr t h).thr u = s.thr u := by
  have : (t : Nat) ≠ (u : Nat) := fun e => n (Fin.ext e.symm)
  simp [State.thr, State.setThr, this]

@[simp] theorem thr_putR (s : State) (off : Nat) (w : Word) (t : Fin 16) : (s.putR off w).thr t = s.thr t := rfl
@[simp] theorem thr_putF (s : State) (f : Fld) (v : Nat) (t : Fin 16) : (s.putF f v).thr t = s.thr t := rfl

/-! ## Events -/

theorem mem_insertEvent (e a : Event) (l : List Event) : a ∈ insertEvent e l ↔ a = e ∨ a ∈ l := by
  induction l with
  | nil => simp [insertEvent]
  | cons x r ih =>
    simp only [insertEvent]
    split
    · simp
    · simp only [List.mem_cons, ih]
      tauto

/-- A raised event waits for its issue, stamped with this cycle. -/
theorem arisen_raise (s : State) (id : EvId) (inst : Nat) (a b : Word) : (s.raise id inst a b).Arisen id inst :=
  ⟨_, (mem_insertEvent _ _ _).2 (Or.inl rfl), rfl, rfl, rfl, rfl, rfl⟩

/-- No event that waits is lost by a later one. -/
theorem arisen_of_raise (s : State) (id id' : EvId) (i i' : Nat) (a b : Word) (h : s.Arisen id i) : (s.raise id' i' a b).Arisen id i := by
  obtain ⟨e, he, h⟩ := h
  exact ⟨e, (mem_insertEvent _ _ _).2 (Or.inr he), h⟩

end Sys2Proof.Machine
end

