-- ==== Sys2Proof/Laws/Memory.lean ====
section
/-! SUPPORT. Laws/Memory.lean: the laws of the byte memories: a byte written is read back, other bytes stay, and every write
keeps the canonical form. -/

namespace Sys2Proof.Machine

/-- The canonical form of one memory window. -/
abbrev cellsWf (m : List Host.Cell) : Prop := SMap.wf (fun _ => (0#8 : Byte)) m = true

@[simp] theorem rdByte_wrByte_same (m : List Host.Cell) (a : Nat) (b : Byte) : rdByte (wrByte m a b) a = b := SMap.get_set_same _ _ _ _

theorem rdByte_wrByte_ne (m : List Host.Cell) {a j : Nat} (b : Byte) (h : j ≠ a) : rdByte (wrByte m a b) j = rdByte m j :=
  SMap.get_set_ne _ _ _ h

theorem wrByte_wf {m : List Host.Cell} (a : Nat) (b : Byte) (h : cellsWf m) : cellsWf (wrByte m a b) := SMap.wf_set _ _ _ h

theorem wrBytes_wf {m : List Host.Cell} (a : Nat) (bs : List Byte) (h : cellsWf m) : cellsWf (wrBytes m a bs) := by
  induction bs generalizing m a with
  | nil => exact h
  | cons b r ih => exact ih (a + 1) (wrByte_wf a b h)

theorem wrLe_wf {m : List Host.Cell} (a n v : Nat) (h : cellsWf m) : cellsWf (wrLe m a n v) := wrBytes_wf a _ h

/-- A window filled from a flash image is canonical. -/
theorem ofImage_wf (bs : List Byte) : cellsWf (ofImage bs) := wrBytes_wf 0 bs (SMap.wf_nil _)

/-- A write of bytes leaves every byte outside them alone. -/
theorem rdByte_wrBytes_outside (m : List Host.Cell) (a j : Nat) (bs : List Byte) (h : j < a ∨ a + bs.length ≤ j) :
    rdByte (wrBytes m a bs) j = rdByte m j := by
  induction bs generalizing m a with
  | nil => rfl
  | cons b r ih =>
    simp only [List.length_cons] at h
    rw [wrBytes, ih _ _ (by omega), rdByte_wrByte_ne _ _ (by omega)]

/-- A byte of a written range reads as the byte written there. -/
theorem rdByte_wrBytes_inside (m : List Host.Cell) (a i : Nat) (bs : List Byte) (h : i < bs.length) :
    rdByte (wrBytes m a bs) (a + i) = bs[i] := by
  induction bs generalizing m a i with
  | nil => simp at h
  | cons b r ih =>
    cases i with
    | zero =>
      rw [wrBytes, rdByte_wrBytes_outside _ _ _ _ (by omega)]
      simp
    | succ i =>
      have := ih (wrByte m a b) (a + 1) i (by simpa using h)
      rw [wrBytes, show a + (i + 1) = a + 1 + i by omega, this]
      simp

theorem Mem.wf_iff (m : Mem) : m.wf = true ↔
    cellsWf m.pmem ∧ cellsWf m.dmem ∧ cellsWf m.coef ∧ cellsWf m.expo ∧ cellsWf m.capture := by
  simp only [Mem.wf, Bool.and_eq_true, cellsWf, and_assoc]

/-- The memories of the machine right after reset are canonical. -/
theorem reset_mem_wf : State.reset.mem.wf = true := rfl

end Sys2Proof.Machine
end

