-- ==== Sys2Proof/Laws/FrameBase.lean ====
section
/-! SUPPORT. Laws/FrameBase.lean: the part of the state that every act but a few leaves alone, namely the queue of commands,
the memory windows, the fuses and TSC, and how that passes through loops and conditions. The files Frame….lean say it of every operation, and
FrameWriters.lean says what the few that write memory or fuses or move TSC do instead. -/

namespace Sys2Proof.Machine

/-- What every act but a few leaves alone. -/
def State.outer (s : State) : List Instr × Mem × Fuses × BitVec 64 := (s.pending, s.mem, s.fuse, s.tsc)

@[simp] theorem outer_mk (a0 a1 a2 a3 a4 a5 a6 a7 a8 a9 a10 a11 a12 a13 a14 a15 a16 a17 a18 a19 a20 a21 a22 a23 a24 a25 a26
    a27 a28 a29 a30 a31 a32 a33 a34 a35 a36 a37 a38) : (State.mk a0 a1 a2 a3 a4 a5 a6 a7 a8 a9 a10 a11 a12 a13 a14 a15 a16 a17 a18 a19 a20 a21
    a22 a23 a24 a25 a26 a27 a28 a29 a30 a31 a32 a33 a34 a35 a36 a37 a38).outer = (a0, a8, a31, a1) := rfl

@[simp] theorem outer_eta (s : State) : (s.pending, s.mem, s.fuse, s.tsc) = s.outer := rfl

theorem setRst_outer (s : State) (r : EngReset) : ({ s with rst := r } : State).outer = s.outer := rfl

theorem pending_of_outer {s t : State} (h : t.outer = s.outer) : t.pending = s.pending := congrArg (·.1) h

theorem mem_of_outer {s t : State} (h : t.outer = s.outer) : t.mem = s.mem := congrArg (·.2.1) h

theorem fuse_of_outer {s t : State} (h : t.outer = s.outer) : t.fuse = s.fuse := congrArg (·.2.2.1) h

theorem tsc_of_outer {s t : State} (h : t.outer = s.outer) : t.tsc = s.tsc := congrArg (·.2.2.2) h

@[simp] theorem take_next (s t : State) : State.take s (.next t) = t := rfl

@[simp] theorem iteS_outer (c : Prop) [Decidable c] (a b : State) :
    (if c then a else b).outer = if c then a.outer else b.outer := by
  split <;> rfl

@[simp] theorem State.foldl_outer {α : Type} (l : List α) (f : State → α → State) (s : State)
    (h : ∀ a x, (f a x).outer = a.outer) : (l.foldl f s).outer = s.outer := by
  induction l generalizing s with
  | nil => rfl
  | cons x r ih => rw [List.foldl_cons, ih, h]

@[simp] theorem State.each_outer {α : Type} (s : State) (l : List α) (f : State → α → State)
    (h : ∀ a x, (f a x).outer = a.outer) : (s.each l f).outer = s.outer :=
  State.foldl_outer l f s h

@[simp] theorem State.forEach_outer (s : State) (n : Nat) (f : State → Nat → State)
    (h : ∀ a x, (f a x).outer = a.outer) : (s.forEach n f).outer = s.outer :=
  State.foldl_outer _ f s h

@[simp] theorem State.when_outer (s : State) (c : Bool) (f : State → State) (h : ∀ a, (f a).outer = a.outer) :
    (s.when c f).outer = s.outer := by
  unfold State.when
  split <;> simp only [h]

theorem foldPair_outer {α β : Type} (l : List α) (f : State × β → α → State × β) (x : State × β)
    (h : ∀ a y, (f a y).1.outer = a.1.outer) : (l.foldl f x).1.outer = x.1.outer := by
  induction l generalizing x with
  | nil => rfl
  | cons y r ih => rw [List.foldl_cons, ih, h]

end Sys2Proof.Machine
end

