-- ==== Sys2Proof/Laws/FrameUnits.lean ====
section
/-! SUPPORT. Laws/FrameUnits.lean: what the operations of the registers, events, ledger, journal, rings, pages, granules, channels and stations leave alone: the queue of
commands, the memory windows, the fuses and TSC. -/

namespace Sys2Proof.Machine

/-! ## Machine/Ops.lean -/

@[simp] theorem State.keepRefs_outer (s : State) : (State.keepRefs s).outer = s.outer := by
  simp [State.keepRefs]

@[simp] theorem State.putR_outer (s : State) (off : Nat) (w : Word) : (State.putR s off w).outer = s.outer := by
  simp [State.putR]

@[simp] theorem State.putF_outer (s : State) (f : Fld) (v : Nat) : (State.putF s f v).outer = s.outer := by
  simp [State.putF]

@[simp] theorem State.putB_outer (s : State) (f : Fld) (b : Bool) : (State.putB s f b).outer = s.outer := by
  simp [State.putB]

@[simp] theorem State.acFreeze_outer (s : State) : (State.acFreeze s).outer = s.outer := by
  simp [State.acFreeze]

@[simp] theorem State.putBitF_outer (s : State) (f : Fld) (i : Nat) (b : Bool) : (State.putBitF s f i b).outer = s.outer := by
  simp [State.putBitF]

@[simp] theorem State.putStart_outer (s : State) (off : Nat) (w : Word) :
    (State.putStart s off w).outer = s.outer := by
  simp [State.putStart]

@[simp] theorem State.clearBits_outer (s : State) (off : Nat) (m : Word) :
    (State.clearBits s off m).outer = s.outer := by
  simp [State.clearBits]

@[simp] theorem State.clearF_outer (s : State) (f : Fld) : (State.clearF s f).outer = s.outer := by
  simp [State.clearF]

@[simp] theorem State.latchBits_outer (s : State) (off : Nat) (m : Word) :
    (State.latchBits s off m).outer = s.outer := by
  simp [State.latchBits]

@[simp] theorem State.latchF_outer (s : State) (f : Fld) : (State.latchF s f).outer = s.outer := by
  simp [State.latchF]

@[simp] theorem State.putLost_outer (s : State) (off : Nat) (w : Word) : (State.putLost s off w).outer = s.outer := by
  simp [State.putLost]

@[simp] theorem State.incR_outer (s : State) (off : Nat) (n : Nat) : (State.incR s off n).outer = s.outer := by
  simp [State.incR]

@[simp] theorem State.incF_outer (s : State) (f : Fld) (n : Nat) : (State.incF s f n).outer = s.outer := by
  simp [State.incF]

@[simp] theorem State.putP_outer (s : State) (lo : Nat) (v : Nat) : (State.putP s lo v).outer = s.outer := by
  simp [State.putP]

@[simp] theorem State.addP_outer (s : State) (lo : Nat) (n : Nat) : (State.addP s lo n).outer = s.outer := by
  simp [State.addP]

@[simp] theorem State.putStaged_outer (s : State) (off : Nat) (w : Word) : (State.putStaged s off w).outer = s.outer := by
  simp [State.putStaged]

@[simp] theorem State.dnLen_outer (s : State) : (State.dnLen s).outer = s.outer := by
  simp [State.dnLen]

@[simp] theorem State.setThr_outer (s : State) (t : Fin 16) (h : Thread) : (State.setThr s t h).outer = s.outer := by
  simp [State.setThr]

@[simp] theorem State.mapThr_outer (s : State) (f : Nat → Thread → Thread) : (State.mapThr s f).outer = s.outer := by
  simp [State.mapThr]

@[simp] theorem State.fireAt_outer (s : State) (cls inst j : Nat) (anyInst : Bool) :
    (State.fireAt s cls inst j anyInst).outer = s.outer := by
  simp [State.fireAt]

@[simp] theorem State.fire_outer (s : State) (cls inst : Nat) (anyInst : Bool) :
    (State.fire s cls inst anyInst).outer = s.outer := by
  simp [State.fire]

@[simp] theorem State.arise_outer (s : State) (e : Event) : (State.arise s e).outer = s.outer := by
  simp [State.arise]

@[simp] theorem State.ariseLast_outer (s : State) (e : Event) : (State.ariseLast s e).outer = s.outer := by
  simp [State.ariseLast]

@[simp] theorem State.raise_outer (s : State) (id : EvId) (inst : Nat) (a : Word) (b : Word) :
    (State.raise s id inst a b).outer = s.outer := by
  simp [State.raise]

@[simp] theorem State.refuse_outer (s : State) (off : Nat) : (State.refuse s off).outer = s.outer := by
  simp [State.refuse]

@[simp] theorem State.takeSerial_outer (s : State) : (State.takeSerial s).outer = s.outer := by
  simp [State.takeSerial]

@[simp] theorem State.drop_outer (s : State) (c : EvClass) (n : Nat) : (State.drop s c n).outer = s.outer := by
  simp [State.drop]

@[simp] theorem State.evCounts_outer (s : State) : (State.evCounts s).outer = s.outer := by
  simp [State.evCounts]

@[simp] theorem State.issueMarker_outer (s : State) (e : Event) : (State.issueMarker s e).outer = s.outer := by
  simp [State.issueMarker]

@[simp] theorem State.stopTrace_outer (s : State) : (State.stopTrace s).outer = s.outer := by
  simp [State.stopTrace]

@[simp] theorem State.placeGeneral_outer (s : State) (e : Event) : (State.placeGeneral s e).outer = s.outer := by
  unfold State.placeGeneral
  (repeat' split) <;> first | with_reducible rfl | simp

@[simp] theorem State.history_outer (s : State) (e : Event) : (State.history s e).outer = s.outer := by
  simp [State.history]

@[simp] theorem State.issue_outer (s : State) (e : Event) : (State.issue s e).outer = s.outer := by
  simp [State.issue]

@[simp] theorem State.summary_outer (s : State) (c : Nat) : (State.summary s c).outer = s.outer := by
  simp [State.summary]

@[simp] theorem State.issueNext_outer (s : State) : (State.issueNext s).outer = s.outer := by
  unfold State.issueNext
  (repeat' split) <;> first | with_reducible rfl | simp

@[simp] theorem State.issueOne_outer (s : State) : (State.issueOne s).outer = s.outer := by
  unfold State.issueOne
  (repeat' split) <;> first | with_reducible rfl | simp

@[simp] theorem State.issueAll_outer (s : State) : (State.issueAll s).outer = s.outer := by
  simp [State.issueAll]

@[simp] theorem State.writeHistory_outer (s : State) (e : Event) : (State.writeHistory s e).outer = s.outer := by
  simp [State.writeHistory]

@[simp] theorem State.setVin_outer (s : State) (v : Vint) : (State.setVin s v).outer = s.outer := by
  simp [State.setVin]

@[simp] theorem State.dropApply_outer (s : State) : (State.dropApply s).outer = s.outer := by
  simp [State.dropApply]

@[simp] theorem State.dropReload_outer (s : State) : (State.dropReload s).outer = s.outer := by
  simp [State.dropReload]

@[simp] theorem State.drew_outer (s : State) : (State.drew s).outer = s.outer := by
  simp [State.drew]

/-! ## Machine/OpsHost.lean -/

@[simp] theorem State.signal_outer (s : State) (v : Nat) : (State.signal s v).outer = s.outer := by
  simp [State.signal]

@[simp] theorem State.setDev_outer (s : State) (v : Nat) : (State.setDev s v).outer = s.outer := by
  simp [State.setDev]

@[simp] theorem State.stallFollow_outer (s : State) : (State.stallFollow s).outer = s.outer := by
  simp [State.stallFollow]

@[simp] theorem State.hostReady_outer (s : State) (b : Bool) : (State.hostReady s b).outer = s.outer := by
  simp [State.hostReady]

@[simp] theorem State.advTail_outer (s : State) (r : Nat) : (State.advTail s r).outer = s.outer := by
  simp [State.advTail]

@[simp] theorem State.coal_outer (s : State) (evr : Bool) : (State.coal s evr).outer = s.outer := by
  simp [State.coal]

@[simp] theorem State.cqWrite_outer (s : State) (e : CqEntry) : (State.cqWrite s e).outer = s.outer := by
  simp [State.cqWrite]

@[simp] theorem State.cqDrainOne_outer (s : State) : (State.cqDrainOne s).outer = s.outer := by
  unfold State.cqDrainOne
  (repeat' split) <;> first | with_reducible rfl | simp

@[simp] theorem State.cqDrain_outer (s : State) : (State.cqDrain s).outer = s.outer := by
  simp [State.cqDrain]

@[simp] theorem State.cqPush_outer (s : State) (e : CqEntry) : (State.cqPush s e).outer = s.outer := by
  simp [State.cqPush]

@[simp] theorem State.complete_outer (s : State) (q : Fin 2) (cid : BitVec 16) (st : Status) (detail : Nat) (a : Word)
    (b : Word) :
    (State.complete s q cid st detail a b).outer = s.outer := by
  simp [State.complete]

@[simp] theorem State.evrCopyOne_outer (s : State) : (State.evrCopyOne s).outer = s.outer := by
  unfold State.evrCopyOne
  (repeat' split) <;> first | with_reducible rfl | simp

@[simp] theorem State.ringTurn_outer (s : State) : (State.ringTurn s).outer = s.outer := by
  simp [State.ringTurn]

@[simp] theorem State.unreserve_outer (s : State) : (State.unreserve s).outer = s.outer := by
  simp [State.unreserve]

@[simp] theorem State.cqStall_outer (s : State) (q : Fin 2) (need : Nat) : (State.cqStall s q need).outer = s.outer := by
  simp [State.cqStall]

@[simp] theorem State.consume_outer (s : State) (q : Fin 2) (need : Nat) : (State.consume s q need).outer = s.outer := by
  simp [State.consume]

@[simp] theorem State.command_outer (s : State) (q home : Fin 2) (op : BitVec 8) (e : SqEntry) (states : List Nat)
    (fieldsOk : Bool) (resA : Word) (run : State → State) (h : ∀ a, (run a).outer = a.outer) :
    (s.command q home op e states fieldsOk resA run).outer = s.outer := by
  unfold State.command
  extract_lets a
  have ha : a.outer = s.outer := by simp [a]
  clear_value a
  (repeat' split) <;> simp [h, ha]

@[simp] theorem State.freezeFollow_outer (s : State) : (State.freezeFollow s).outer = s.outer := by
  simp [State.freezeFollow]

@[simp] theorem State.jfullCheck_outer (s : State) : (State.jfullCheck s).outer = s.outer := by
  unfold State.jfullCheck
  split <;> simp

@[simp] theorem State.mendJournal_outer (s : State) : (State.mendJournal s).outer = s.outer := by
  simp [State.mendJournal]

@[simp] theorem State.mendTo_outer (s : State) (r : Nat) : (State.mendTo s r).outer = s.outer := by
  simp only [State.mendTo]
  split <;> split <;> simp

@[simp] theorem State.mendFollow_outer (s : State) : (State.mendFollow s).outer = s.outer := by
  simp [State.mendFollow]

@[simp] theorem State.setMend_outer (s : State) (i : Nat) : (State.setMend s i).outer = s.outer := by
  simp [State.setMend]

@[simp] theorem State.clearMend_outer (s : State) (i : Nat) : (State.clearMend s i).outer = s.outer := by
  simp [State.clearMend]

/-! ## Machine/OpsLedger.lean -/

@[simp] theorem State.freezeLoss_outer (s : State) : (State.freezeLoss s).outer = s.outer := by
  simp [State.freezeLoss]

@[simp] theorem State.journal_outer (s : State) (e : JEntry) : (State.journal s e).outer = s.outer := by
  simp only [State.journal, State.jfullCheck]
  split <;> simp

@[simp] theorem State.rinseFollow_outer (s : State) : (State.rinseFollow s).outer = s.outer := by
  simp [State.rinseFollow]

@[simp] theorem State.spoil_outer (s : State) (id : Word) : (State.spoil s id).outer = s.outer := by
  unfold State.spoil
  (repeat' split) <;> first | with_reducible rfl | simp

@[simp] theorem State.ledgerAudit_outer (s : State) : (State.ledgerAudit s).outer = s.outer := by
  simp [State.ledgerAudit]

@[simp] theorem State.meter_outer (s : State) (byte n : Nat) : (State.meter s byte n).outer = s.outer := by
  simp [State.meter]

@[simp] theorem State.meterTotals_outer (s : State) : (State.meterTotals s).outer = s.outer := by
  simp [State.meterTotals]

@[simp] theorem State.commitEntry_outer (s : State) (e : JEntry) : (State.commitEntry s e).outer = s.outer := by
  unfold State.commitEntry
  (repeat' split) <;> first | with_reducible rfl | simp

@[simp] theorem State.monoSet_outer (s : State) (k : Fin 3) (v : Nat) : (State.monoSet s k v).outer = s.outer := by
  simp [State.monoSet]

@[simp] theorem State.markUnsigned_outer (s : State) : (State.markUnsigned s).outer = s.outer := by
  simp [State.markUnsigned]

/-! ## Machine/OpsRack.lean -/

@[simp] theorem State.setChan_outer (s : State) (c : Nat) (h : Chan) : (State.setChan s c h).outer = s.outer := by
  simp [State.setChan]

@[simp] theorem State.enqueue_outer (s : State) (c : Nat) (t : Txn) : (State.enqueue s c t).outer = s.outer := by
  simp [State.enqueue]

@[simp] theorem State.issueTxn_outer (s : State) (c : Nat) : (State.issueTxn s c).outer = s.outer := by
  unfold State.issueTxn
  dsimp only
  (repeat' split) <;> simp

@[simp] theorem State.pump_outer (n : Nat) (s : State) : (State.pump n s).outer = s.outer := by
  induction n generalizing s with
  | zero => rfl
  | succ n ih =>
    unfold State.pump
    split
    · rfl
    · rw [ih]
      split <;> simp

@[simp] theorem State.pumpAll_outer (s : State) : (State.pumpAll s).outer = s.outer := by
  simp [State.pumpAll]

@[simp] theorem State.transferParts_outer (s : State) (c : Nat) (parts : List (Nat × Nat)) (write : Bool)
    (tag : Nat) : (State.transferParts s c parts write tag).outer = s.outer := by
  simp [State.transferParts]

@[simp] theorem State.transfer_outer (s : State) (c addr bytes : Nat) (write : Bool) (tag : Nat) :
    (State.transfer s c addr bytes write tag).outer = s.outer := by
  simp [State.transfer]

@[simp] theorem State.returnOf_outer (s : State) (c : Nat) (t : Txn) : (State.returnOf s c t).outer = s.outer := by
  simp [State.returnOf]

@[simp] theorem State.returnTxn_outer (s : State) (c : Nat) : (State.returnTxn s c).outer = s.outer := by
  unfold State.returnTxn
  (repeat' split) <;> first | with_reducible rfl | simp

@[simp] theorem State.pausedFollow_outer (s : State) : (State.pausedFollow s).outer = s.outer := by
  simp [State.pausedFollow]

@[simp] theorem State.halt_outer (s : State) (c cause addr : Nat) (t : Txn) :
    (State.halt s c cause addr t).outer = s.outer := by
  simp [State.halt]

@[simp] theorem State.abortTransfer_outer (s : State) (c j : Nat) : (State.abortTransfer s c j).outer = s.outer := by
  simp [State.abortTransfer]

@[simp] theorem State.withdraw_outer (s : State) (c : Nat) : (State.withdraw s c).outer = s.outer := by
  simp [State.withdraw]

@[simp] theorem State.stopReading_outer (s : State) (seq : Nat) : (State.stopReading s seq).outer = s.outer := by
  simp [State.stopReading]

@[simp] theorem State.rackAudit_outer (s : State) : (State.rackAudit s).outer = s.outer := by
  simp [State.rackAudit]

/-! ## Machine/OpsPages.lean -/

@[simp] theorem State.setPages_outer (s : State) (l : List Page) : (State.setPages s l).outer = s.outer := by
  simp [State.setPages]

@[simp] theorem State.pagesFollow_outer (s : State) : (State.pagesFollow s).outer = s.outer := by
  simp [State.pagesFollow]

@[simp] theorem State.updPage_outer (s : State) (tag : Word) (f : Page → Page) : (State.updPage s tag f).outer = s.outer := by
  simp [State.updPage]

@[simp] theorem State.takeGran_outer (s : State) (n : Nat) : (State.takeGran s n).outer = s.outer := by
  simp [State.takeGran]

@[simp] theorem State.bankFollow_outer (s : State) (k : Nat) : (State.bankFollow s k).outer = s.outer := by
  simp [State.bankFollow]

@[simp] theorem State.winFollow_outer (s : State) : (State.winFollow s).outer = s.outer := by
  simp [State.winFollow]

@[simp] theorem State.freeOne_outer (s : State) (g : Gran) : (State.freeOne s g).outer = s.outer := by
  unfold State.freeOne
  (repeat' split) <;> first | with_reducible rfl | simp

@[simp] theorem State.freeChain_outer (s : State) (l : List Gran) : (State.freeChain s l).outer = s.outer := by
  simp [State.freeChain]

@[simp] theorem State.banksFollow_outer (s : State) : (State.banksFollow s).outer = s.outer := by
  simp [State.banksFollow]

@[simp] theorem State.recompute_outer (s : State) (i : Nat) : (State.recompute s i).outer = s.outer := by
  simp [State.recompute]

@[simp] theorem State.freeStore_outer (s : State) (p : Page) : (State.freeStore s p).outer = s.outer := by
  simp [State.freeStore]

@[simp] theorem State.dropPage_outer (s : State) (p : Page) : (State.dropPage s p).outer = s.outer := by
  simp [State.dropPage]

@[simp] theorem State.releaseStore_outer (s : State) (p : Page) : (State.releaseStore s p).outer = s.outer := by
  simp [State.releaseStore]

@[simp] theorem State.retire_outer (s : State) (p : Page) (st : Status) (spoiled : Bool) :
    (State.retire s p st spoiled).outer = s.outer := by
  simp [State.retire]

@[simp] theorem State.clearPress_outer (s : State) (p : Page) : (State.clearPress s p).outer = s.outer := by
  simp [State.clearPress]

@[simp] theorem State.failPage_outer (s : State) (p : Page) (st : Status) : (State.failPage s p st).outer = s.outer := by
  simp [State.failPage]

@[simp] theorem State.pageExposed_outer (s : State) (p : Page) : (State.pageExposed s p).outer = s.outer := by
  unfold State.pageExposed
  (repeat' split) <;> first | with_reducible rfl | simp

@[simp] theorem State.retireSheet_outer (s : State) (id : Word) (st : Status) (spoiled : Bool) :
    (State.retireSheet s id st spoiled).outer = s.outer := by
  simp [State.retireSheet]

@[simp] theorem State.jamSheet_outer (s : State) (id : Word) : (State.jamSheet s id).outer = s.outer := by
  simp [State.jamSheet]

@[simp] theorem State.raiseRes_outer (s : State) (need : List Nat) : (State.raiseRes s need).outer = s.outer := by
  simp [State.raiseRes]

@[simp] theorem State.evaluate_outer (s : State) (p : Page) (wait : Bool) : (State.evaluate s p wait).1.outer = s.outer := by
  simp [State.evaluate]
  (repeat' split) <;> simp

@[simp] theorem State.admitPass_outer (s : State) : s.admitPass.outer = s.outer :=
  foldPair_outer _ _ (s, false) fun a p => State.evaluate_outer a.1 p a.2

@[simp] theorem State.startEviction_outer (s : State) : (State.startEviction s).1.outer = s.outer := by
  unfold State.startEviction
  (repeat' split) <;> first | with_reducible rfl | simp

/-! ## Machine/OpsLine.lean -/

@[simp] theorem State.updStn_outer (s : State) (i : Fin 6) (f : Station → Station) : (State.updStn s i f).outer = s.outer := by
  simp [State.updStn]

@[simp] theorem State.dclkOut_outer (s : State) (i : Fin 6) (v : Nat) : (State.dclkOut s i v).outer = s.outer := by
  simp [State.dclkOut]

@[simp] theorem State.clampedFollow_outer (s : State) (i : Fin 6) : (State.clampedFollow s i).outer = s.outer := by
  simp [State.clampedFollow]

@[simp] theorem State.dclkSlew_outer (s : State) (i : Fin 6) (now : Nat) :
    (State.dclkSlew s i now).outer = s.outer := by
  simp [State.dclkSlew]

@[simp] theorem State.dclkJump_outer (s : State) (i : Fin 6) (now : Nat) :
    (State.dclkJump s i now).outer = s.outer := by
  simp [State.dclkJump]

@[simp] theorem State.updBeams_outer (s : State) (i : Fin 6) (f : Nat → Beam → Beam) :
    (State.updBeams s i f).outer = s.outer := by
  simp [State.updBeams]

/-! ## Machine/Operands.lean -/

@[simp] theorem State.wx_outer (s : State) (t i : Fin 16) (v : Word) : (State.wx s t i v).outer = s.outer := by
  simp [State.wx]

@[simp] theorem State.wf_outer (s : State) (t : Fin 16) (i : Fin 8) (v : F32) : (State.wf s t i v).outer = s.outer := by
  simp [State.wf]

@[simp] theorem State.setAux_outer (s : State) (t : Fin 16) (v : Word) : (State.setAux s t v).outer = s.outer := by
  simp [State.setAux]

/-! ## Machine/OpsStn.lean -/

@[simp] theorem State.loseDots_outer (s : State) (i : Fin 6) (n : Nat) : (State.loseDots s i n).outer = s.outer := by
  simp [State.loseDots]

@[simp] theorem State.spoilStn_outer (s : State) (i : Fin 6) : (State.spoilStn s i).outer = s.outer := by
  unfold State.spoilStn
  (repeat' split) <;> first | with_reducible rfl | simp

@[simp] theorem State.slewStart_outer (s : State) (i : Fin 6) : (State.slewStart s i).outer = s.outer := by
  simp [State.slewStart]

@[simp] theorem State.slewStarts_outer (s : State) : (State.slewStarts s).outer = s.outer := by
  simp [State.slewStarts]

@[simp] theorem State.inhibit_outer (s : State) (i : Fin 6) : (State.inhibit s i).outer = s.outer := by
  unfold State.inhibit
  (repeat' split) <;> first | with_reducible rfl | simp

@[simp] theorem State.gateFollow_outer (s : State) : (State.gateFollow s).outer = s.outer := by
  simp [State.gateFollow]

@[simp] theorem State.dclkClamp_outer (s : State) (i : Fin 6) : (State.dclkClamp s i).outer = s.outer := by
  simp [State.dclkClamp]

@[simp] theorem State.setLock_outer (s : State) (i : Fin 6) (v : Nat) : (State.setLock s i v).outer = s.outer := by
  simp [State.setLock]

@[simp] theorem State.freqAcqAll_outer (s : State) : (State.freqAcqAll s).outer = s.outer := by
  simp [State.freqAcqAll]

@[simp] theorem State.indexMark_outer (s : State) (p : Fin 6) : (State.indexMark s p).outer = s.outer := by
  simp [State.indexMark]

@[simp] theorem State.dclkRelock_outer (s : State) (i : Fin 6) : (State.dclkRelock s i).outer = s.outer := by
  simp [State.dclkRelock]

@[simp] theorem State.lenFollow_outer (s : State) (i : Fin 6) : (State.lenFollow s i).outer = s.outer := by
  simp [State.lenFollow]

@[simp] theorem State.setLink_outer (s : State) (i : Fin 6) (v : Nat) : (State.setLink s i v).outer = s.outer := by
  simp [State.setLink]

@[simp] theorem State.dropPkts_outer (s : State) (i : Fin 6) : (State.dropPkts s i).outer = s.outer := by
  simp [State.dropPkts]

@[simp] theorem State.retrain_outer (s : State) (i : Fin 6) : (State.retrain s i).outer = s.outer := by
  simp [State.retrain]

@[simp] theorem State.linkDown_outer (s : State) (i : Fin 6) (cause : Nat) : (State.linkDown s i cause).outer = s.outer := by
  simp [State.linkDown]

@[simp] theorem State.sendSync_outer (s : State) (i : Fin 6) : (State.sendSync s i).outer = s.outer := by
  simp [State.sendSync]

@[simp] theorem State.putPkt_outer (s : State) (i : Fin 6) (p : Packet) : (State.putPkt s i p).outer = s.outer := by
  simp [State.putPkt]

@[simp] theorem State.holdPkts_outer (s : State) (i : Fin 6) : (State.holdPkts s i).outer = s.outer := by
  simp [State.holdPkts]

@[simp] theorem State.sendPkt_outer (s : State) (i : Fin 6) (k : PktKind) : (State.sendPkt s i k).outer = s.outer := by
  simp [State.sendPkt]

@[simp] theorem State.rateCheck_outer (s : State) (i : Fin 6) : (State.rateCheck s i).outer = s.outer := by
  simp [State.rateCheck]

@[simp] theorem State.putWindow_outer (s : State) (i : Fin 6) (w : Nat) : (State.putWindow s i w).outer = s.outer := by
  simp [State.putWindow]

@[simp] theorem State.emitterMend_outer (s : State) : (State.emitterMend s).outer = s.outer := by
  simp [State.emitterMend]

@[simp] theorem State.moveWindow_outer (s : State) (i : Fin 6) : (State.moveWindow s i).outer = s.outer := by
  unfold State.moveWindow
  extract_lets
  (repeat' split) <;> simp +zetaDelta

@[simp] theorem State.slewFollow_outer (s : State) (i : Fin 6) : (State.slewFollow s i).outer = s.outer := by
  simp [State.slewFollow]

@[simp] theorem State.regrid_outer (s : State) (i : Fin 6) : (State.regrid s i).outer = s.outer := by
  simp [State.regrid]

@[simp] theorem State.moveGrid_outer (s : State) (i : Fin 6) : (State.moveGrid s i).outer = s.outer := by
  simp [State.moveGrid]

@[simp] theorem State.mergeApplied_outer (s : State) (o : Nat) (m : Word) : (State.mergeApplied s o m).outer = s.outer := by
  simp [State.mergeApplied]

@[simp] theorem State.releaseStale_outer (s : State) (i : Fin 6) : (State.releaseStale s i).outer = s.outer := by
  simp [State.releaseStale]

@[simp] theorem State.takeDeferred_outer (s : State) (i : Fin 6) (ev : Bool) : (State.takeDeferred s i ev).outer = s.outer := by
  simp [State.takeDeferred]

@[simp] theorem State.deferredGap_outer (s : State) (i : Fin 6) : (State.deferredGap s i).outer = s.outer := by
  simp [State.deferredGap]

@[simp] theorem State.conFollow_outer (s : State) (i : Fin 6) : (State.conFollow s i).outer = s.outer := by
  simp [State.conFollow]

@[simp] theorem State.armFollow_outer (s : State) (i : Fin 6) : (State.armFollow s i).outer = s.outer := by
  simp [State.armFollow]

@[simp] theorem State.topFire_outer (s : State) (i : Fin 6) (ts : Nat) : (State.topFire s i ts).outer = s.outer := by
  simp [State.topFire]

@[simp] theorem State.lineFaults_outer (s : State) : (State.lineFaults s).outer = s.outer := by
  simp [State.lineFaults]

/-! ## Machine/Press.lean -/

@[simp] theorem State.planesKnown_outer (s : State) (p : Page) (desc : List Word) (xs : List (List Word × Plane))
    (bands : List (List (Vector Word 4))) : (State.planesKnown s p desc xs bands).outer = s.outer := by
  simp [State.planesKnown]

@[simp] theorem State.setLane_outer (s : State) (l : Nat) (x : Lane) : (State.setLane s l x).outer = s.outer := by
  simp [State.setLane]

@[simp] theorem State.handBlock_outer (s : State) (t : Word) : (State.handBlock s t).outer = s.outer := by
  unfold State.handBlock
  (repeat' split) <;> first | with_reducible rfl | simp

@[simp] theorem State.evictFor_outer (n : Nat) (s : State) : (State.evictFor n s).outer = s.outer := by
  induction n generalizing s with
  | zero => rfl
  | succ n ih =>
    unfold State.evictFor
    dsimp only
    (repeat' split) <;> simp [ih]

@[simp] theorem State.laneTakes_outer (s : State) (l : Nat) (p : Page) : (State.laneTakes s l p).outer = s.outer := by
  simp [State.laneTakes]

@[simp] theorem State.verifyFault_outer (s : State) (l : Nat) (p : Page) (q : Plane) (b : BlockPos) (stored : Bool) :
    (State.verifyFault s l p q b stored).outer = s.outer := by
  simp [State.verifyFault]

@[simp] theorem State.noLane_outer (s : State) : (State.noLane s).outer = s.outer := by
  simp [State.noLane]

@[simp] theorem State.passOn_outer (s : State) (j : Word × BlockPos) (l : Nat) :
    (State.passOn s j l).outer = s.outer := by
  simp [State.passOn]

@[simp] theorem State.retireLane_outer (s : State) (l : Nat) : (State.retireLane s l).outer = s.outer := by
  unfold State.retireLane
  dsimp only
  (repeat' split) <;> simp

@[simp] theorem State.takeGrans_outer (n : Nat) (s : State) (l : List Gran) : (State.takeGrans n s l).1.outer = s.outer := by
  induction n generalizing s l with
  | zero => rfl
  | succ n ih =>
    unfold State.takeGrans
    split <;> simp [ih]

@[simp] theorem State.nextPage_outer (s : State) : (State.nextPage s).outer = s.outer := by
  simp [State.nextPage]

@[simp] theorem State.pageComplete_outer (s : State) (p : Page) : (State.pageComplete s p).outer = s.outer := by
  simp [State.pageComplete]

end Sys2Proof.Machine
end

