-- ==== Sys2Proof/Laws/FrameMotion.lean ====
section
/-! SUPPORT. Laws/FrameMotion.lean: what the operations of the sequencer, feedback, power stage, motor channels, control engine, axes, links and heaters leave alone: the queue of
commands, the memory windows, the fuses and TSC. -/

namespace Sys2Proof.Machine

/-! ## Machine/Cellar.lean -/

@[simp] theorem State.moveGran_outer (s : State) (tag : Word) (plane i : Nat) (g : Gran) :
    (State.moveGran s tag plane i g).outer = s.outer := by
  simp [State.moveGran]

@[simp] theorem State.evictRetiring_outer (s : State) : (State.evictRetiring s).outer = s.outer := by
  simp [State.evictRetiring]

@[simp] theorem State.endRefill_outer (s : State) (e : Word × Nat × Nat × Nat) : (State.endRefill s e).outer = s.outer := by
  simp [State.endRefill]

@[simp] theorem State.refillDone_outer (s : State) (e : Word × Nat × Nat × Nat) : (State.refillDone s e).outer = s.outer := by
  simp [State.refillDone]
  (repeat' split) <;> simp

@[simp] theorem State.damage_outer (s : State) (tag : Word) (plane i : Nat) : (State.damage s tag plane i).outer = s.outer := by
  unfold State.damage
  (repeat' split) <;> first | with_reducible rfl | simp

@[simp] theorem State.retireBank_outer (s : State) (k : Nat) : (State.retireBank s k).outer = s.outer := by
  simp [State.retireBank]

@[simp] theorem State.granuleAudit_outer (s : State) : (State.granuleAudit s).outer = s.outer := by
  simp [State.granuleAudit]

/-! ## Machine/Decanter.lean -/

@[simp] theorem State.winState_outer (s : State) (i : Fin 6) : (State.winState s i).outer = s.outer := by
  unfold State.winState
  (repeat' split) <;> first | with_reducible rfl | simp

@[simp] theorem State.fetchRound_outer (s : State) (i : Fin 6) (p : Page) (q : Plane) (pass : Nat) :
    (State.fetchRound s i p q pass).outer = s.outer := by
  unfold State.fetchRound
  extract_lets
  (repeat' split) <;> simp +zetaDelta

@[simp] theorem State.openBlocks_outer (s : State) (i : Fin 6) (p : Page) (q : Plane) :
    (State.openBlocks s i p q).outer = s.outer := by
  simp [State.openBlocks]

@[simp] theorem State.abandon_outer (s : State) (i : Fin 6) (q : Plane) (b l : Nat) :
    (State.abandon s i q b l).outer = s.outer := by
  simp [State.abandon]

@[simp] theorem State.skipEnd_outer (s : State) (i : Fin 6) (p : Page) (q : Plane) :
    (State.skipEnd s i p q).outer = s.outer := by
  unfold State.skipEnd
  split
  · simp only [State.openBlocks_outer, State.updStn_outer]
    refine State.forEach_outer _ _ _ fun a b => ?_
    (repeat' split) <;> simp
  · rfl

@[simp] theorem State.skipDone_outer (s : State) (i : Fin 6) (p : Page) (q : Plane) :
    (State.skipDone s i p q).outer = s.outer := by
  simp [State.skipDone]

@[simp] theorem State.chooseRegion_outer (s : State) (i : Fin 6) : (State.chooseRegion s i).outer = s.outer := by
  unfold State.chooseRegion
  extract_lets
  (repeat' split) <;> simp +zetaDelta

@[simp] theorem State.countDots_outer (s : State) (i : Fin 6) (dots : List Nat) :
    (State.countDots s i dots).outer = s.outer := by
  simp [State.countDots]

@[simp] theorem State.drainEnd_outer (s : State) (i : Fin 6) : (State.drainEnd s i).outer = s.outer := by
  simp [State.drainEnd]

@[simp] theorem State.loseLine_outer (s : State) (i : Fin 6) (p : Page) (q : Plane) (b l : Nat) :
    (State.loseLine s i p q b l).outer = s.outer := by
  simp [State.loseLine]

@[simp] theorem State.drainLine_outer (s : State) (i : Fin 6) (p : Page) (q : Plane) (b : Nat) :
    (State.drainLine s i p q b).outer = s.outer := by
  unfold State.drainLine
  (repeat' split) <;> first | with_reducible rfl | simp

@[simp] theorem State.skipSweep_outer (s : State) (i : Fin 6) (p : Page) (q : Plane) (sw : Int) :
    (State.skipSweep s i p q sw).outer = s.outer := by
  simp [State.skipSweep]

@[simp] theorem State.skipFollow_outer (s : State) (i : Fin 6) (p : Page) (q : Plane) :
    (State.skipFollow s i p q).outer = s.outer := by
  simp [State.skipFollow]

@[simp] theorem State.drainSweep_outer (s : State) (i : Fin 6) (p : Page) (q : Plane) :
    (State.drainSweep s i p q).outer = s.outer := by
  simp [State.drainSweep]

@[simp] theorem State.topOfPage_outer (s : State) (i : Fin 6) (p : Page) (q : Plane) (edge : Int) :
    (State.topOfPage s i p q edge).outer = s.outer := by
  unfold State.topOfPage
  dsimp only
  (repeat' split) <;> simp

@[simp] theorem State.apcAges_outer (s : State) (i : Fin 6) : (State.apcAges s i).outer = s.outer := by
  simp [State.apcAges]

@[simp] theorem State.clockEdge_outer (s : State) (i : Fin 6) (t : Nat) :
    (State.clockEdge s i t).outer = s.outer := by
  simp [State.clockEdge]

@[simp] theorem State.dotAudit_outer (s : State) (i : Fin 6) (p : Page) (q : Plane) :
    (State.dotAudit s i p q).outer = s.outer := by
  simp [State.dotAudit]

/-! ## Machine/OpsSeq.lean -/

@[simp] theorem State.charge_outer (s : State) (t : Fin 16) (c : Nat) : (State.charge s t c).outer = s.outer := by
  simp [State.charge]

@[simp] theorem State.faultThr_outer (s : State) (t : Fin 16) (code : Nat) : (State.faultThr s t code).outer = s.outer := by
  simp [State.faultThr]

@[simp] theorem State.denied_outer (s : State) (p : Port) : (State.denied s p).outer = s.outer := by
  unfold State.denied
  (repeat' split) <;> first | with_reducible rfl | simp

@[simp] theorem State.viaPort_outer (s : State) (p : Port) (off : Nat) (f : State → State) (hf : ∀ a,
    (f a).outer = a.outer) : (State.viaPort s p off f).outer = s.outer := by
  unfold State.viaPort State.outer
  (repeat' split) <;> simp [*]

@[simp] theorem State.setPc_outer (s : State) (t : Fin 16) (pc : Nat) : (State.setPc s t pc).outer = s.outer := by
  simp [State.setPc]

@[simp] theorem State.perform_outer (s : State) (t : Fin 16) (c : Nat) (run : State → State) (h : ∀ a, (run a).outer = a.outer) :
    (s.perform t c run).outer = s.outer := by
  unfold State.perform
  split <;> simp [h]

@[simp] theorem State.performTo_outer (s : State) (t : Fin 16) (c d : Nat) (run : State → State) (h : ∀ a, (run a).outer = a.outer) :
    (s.performTo t c d run).outer = s.outer := by
  unfold State.performTo
  split <;> simp [h]

@[simp] theorem State.performFault_outer (s : State) (t : Fin 16) (c code : Nat) :
    (State.performFault s t c code).outer = s.outer := by
  simp [State.performFault]

@[simp] theorem State.endWait_outer (s : State) (t : Fin 16) (m : BitVec 64) : (State.endWait s t m).outer = s.outer := by
  simp [State.endWait]

@[simp] theorem State.wake_outer (s : State) (t : Fin 16) : (State.wake s t).outer = s.outer := by
  simp [State.wake]

@[simp] theorem State.seqDeferred_outer (s : State) (n : Nat) : (State.seqDeferred s n).outer = s.outer := by
  simp [State.seqDeferred]

@[simp] theorem State.startThr_outer (s : State) (t : Fin 16) : (State.startThr s t).outer = s.outer := by
  simp [State.startThr]

@[simp] theorem State.takeBudgets_outer (s : State) : (State.takeBudgets s).outer = s.outer := by
  simp [State.takeBudgets]

@[simp] theorem State.budgetReload_outer (s : State) : (State.budgetReload s).outer = s.outer := by
  simp [State.budgetReload]

@[simp] theorem State.overrunThr_outer (s : State) (t : Fin 16) : (State.overrunThr s t).outer = s.outer := by
  simp [State.overrunThr]

@[simp] theorem State.clearSeqFaults_outer (s : State) : (State.clearSeqFaults s).outer = s.outer := by
  simp [State.clearSeqFaults]

@[simp] theorem State.haltAll_outer (s : State) : (State.haltAll s).outer = s.outer := by
  simp [State.haltAll]

@[simp] theorem State.suspendAll_outer (s : State) : (State.suspendAll s).outer = s.outer := by
  simp [State.suspendAll]

@[simp] theorem State.fillMbi_outer (s : State) (m n : Nat) (data : Vector Word 16) :
    (State.fillMbi s m n data).outer = s.outer := by
  simp [State.fillMbi]

@[simp] theorem State.postMbo_outer (s : State) (m n : Nat) : (State.postMbo s m n).outer = s.outer := by
  simp [State.postMbo]

/-! ## Machine/OpsFbk.lean -/

@[simp] theorem State.updFbk_outer (s : State) (c : Fin 18) (f : Fbk → Fbk) : (State.updFbk s c f).outer = s.outer := by
  simp [State.updFbk]

@[simp] theorem State.fireCmp_outer (s : State) (u ts : Nat) : (State.fireCmp s u ts).outer = s.outer := by
  simp [State.fireCmp]

@[simp] theorem State.setCmpAt_outer (s : State) (u : Nat) (p : Option Word) :
    (State.setCmpAt s u p).outer = s.outer := by
  simp [State.setCmpAt]

@[simp] theorem State.compares_outer (s : State) (c : Nat) (old new : Word) (ts : Nat) :
    (State.compares s c old new ts).outer = s.outer := by
  simp [State.compares]

@[simp] theorem State.cmpWrite_outer (s : State) (u : Nat) (w : Word) : (State.cmpWrite s u w).outer = s.outer := by
  simp [State.cmpWrite]

@[simp] theorem State.dirFollow_outer (s : State) (c : Fin 18) (p : Word) : (State.dirFollow s c p).outer = s.outer := by
  simp [State.dirFollow]

@[simp] theorem State.stepPos_outer (s : State) (c : Fin 18) (d : Int) (ts : Nat) :
    (State.stepPos s c d ts).outer = s.outer := by
  simp [State.stepPos]

@[simp] theorem State.count_outer (s : State) (c : Fin 18) (d : Int) (ts : Nat) : (State.count s c d ts).outer = s.outer := by
  simp [State.count]

@[simp] theorem State.speed_outer (s : State) (c : Fin 18) : (State.speed s c).outer = s.outer := by
  simp [State.speed]

@[simp] theorem State.speeds_outer (s : State) : (State.speeds s).outer = s.outer := by
  simp [State.speeds]

@[simp] theorem State.probeFollow_outer (s : State) (p : Fin 8) : (State.probeFollow s p).outer = s.outer := by
  simp [State.probeFollow]
  (repeat' split) <;> simp

@[simp] theorem State.probeFill_outer (s : State) (c t0 : Nat) (p0 : Word) (t1 : Nat) (p1 : Word) :
    (State.probeFill s c t0 p0 t1 p1).outer = s.outer := by
  simp [State.probeFill]

@[simp] theorem State.sigFault_outer (s : State) (c : Fin 18) : (State.sigFault s c).outer = s.outer := by
  simp [State.sigFault]

@[simp] theorem State.scValue_outer (s : State) (c : Fin 18) (t0 ts : Nat) (sin cos : Int) :
    (State.scValue s c t0 ts sin cos).outer = s.outer := by
  simp [State.scValue]

@[simp] theorem State.scSample_outer (s : State) (c : Fin 18) (ts : Nat) (sin cos : Int) :
    (State.scSample s c ts sin cos).outer = s.outer := by
  unfold State.scSample
  (repeat' split) <;> first | with_reducible rfl | simp

@[simp] theorem State.indexTake_outer (s : State) (c : Fin 18) (ts : Nat) :
    (State.indexTake s c ts).outer = s.outer := by
  simp [State.indexTake]

@[simp] theorem State.scIndex_outer (s : State) (c : Fin 18) (ts : Nat) : (State.scIndex s c ts).outer = s.outer := by
  simp [State.scIndex]

@[simp] theorem State.scFrame_outer (s : State) (c : Fin 18) (l : Vector (Int × Int) 20) :
    (State.scFrame s c l).outer = s.outer := by
  simp [State.scFrame]

@[simp] theorem State.fbkKeep_outer (s : State) (p : Fin 18 → Bool) : (State.fbkKeep s p).outer = s.outer := by
  simp [State.fbkKeep]

@[simp] theorem State.fbkTick_outer (s : State) : (State.fbkTick s).outer = s.outer := by
  simp [State.fbkTick]

@[simp] theorem State.fbkFrame_outer (s : State) : (State.fbkFrame s).outer = s.outer := by
  simp [State.fbkFrame]

@[simp] theorem State.loopView_outer (s : State) : (State.loopView s).outer = s.outer := by
  unfold State.loopView
  (repeat' split) <;> first | with_reducible rfl | simp

/-! ## Machine/OpsGate.lean -/

@[simp] theorem State.linesFollow_outer (s : State) : (State.linesFollow s).outer = s.outer := by
  simp [State.linesFollow]

@[simp] theorem State.setHalf_outer (s : State) (h : Nat) (x : Half) : (State.setHalf s h x).outer = s.outer := by
  simp [State.setHalf]

@[simp] theorem State.setGrp_outer (s : State) (g : Nat) (x : Group) : (State.setGrp s g x).outer = s.outer := by
  simp [State.setGrp]

@[simp] theorem State.bothOff_outer (s : State) (h : Nat) : (State.bothOff s h).outer = s.outer := by
  simp [State.bothOff]

@[simp] theorem State.setChop_outer (s : State) (i : Fin 4) (x : Chopper) : (State.setChop s i x).outer = s.outer := by
  simp [State.setChop]

@[simp] theorem State.chopOff_outer (s : State) (i : Fin 4) : (State.chopOff s i).outer = s.outer := by
  unfold State.chopOff
  (repeat' split) <;> first | with_reducible rfl | simp

@[simp] theorem State.chopsFollow_outer (s : State) : (State.chopsFollow s).outer = s.outer := by
  simp [State.chopsFollow]

@[simp] theorem State.groupOutputs_outer (s : State) (g : Nat) : (State.groupOutputs s g).outer = s.outer := by
  simp [State.groupOutputs]

@[simp] theorem State.latchGroup_outer (s : State) (g cause hb : Nat) (mon : Nat) :
    (State.latchGroup s g cause hb mon).outer = s.outer := by
  simp [State.latchGroup]

@[simp] theorem State.retireHb_outer (s : State) (h : Nat) : (State.retireHb s h).outer = s.outer := by
  simp [State.retireHb]

@[simp] theorem State.groupReturn_outer (s : State) (g : Nat) : (State.groupReturn s g).outer = s.outer := by
  simp [State.groupReturn]

@[simp] theorem State.retryStart_outer (s : State) (g : Nat) : (State.retryStart s g).outer = s.outer := by
  simp [State.retryStart]

@[simp] theorem State.groupClear_outer (s : State) (g madeAt : Nat) : (State.groupClear s g madeAt).outer = s.outer := by
  simp [State.groupClear]

@[simp] theorem State.groupKeep_outer (s : State) (g keep : Nat) : (State.groupKeep s g keep).outer = s.outer := by
  simp [State.groupKeep]

@[simp] theorem State.gateReset_outer (s : State) : (State.gateReset s).outer = s.outer := by
  simp [State.gateReset]

@[simp] theorem State.applyDuty_outer (s : State) (h : Nat) (cmd : Option Nat) (low : Nat) :
    (State.applyDuty s h cmd low).outer = s.outer := by
  simp [State.applyDuty]

@[simp] theorem State.allOff_outer (s : State) : (State.allOff s).outer = s.outer := by
  simp [State.allOff]

@[simp] theorem State.dnWrite_outer (s : State) (off : Nat) (w : Word) : (State.dnWrite s off w).outer = s.outer := by
  simp [State.dnWrite]

@[simp] theorem State.dnWindows_outer (s : State) (h : Nat) (d : Option Nat) (low : Nat) :
    (State.dnWindows s h d low).outer = s.outer := by
  simp [State.dnWindows]

@[simp] theorem State.dnDuty_outer (s : State) (h : Nat) (d : Option Nat) : (State.dnDuty s h d).outer = s.outer := by
  simp [State.dnDuty]

@[simp] theorem State.dnReset_outer (s : State) : (State.dnReset s).outer = s.outer := by
  simp [State.dnReset]

@[simp] theorem State.dnNext_outer (s : State) : (State.dnNext s).outer = s.outer := by
  simp [State.dnNext]

/-! ## Machine/OpsMot.lean -/

@[simp] theorem State.updMot_outer (s : State) (n : Fin 12) (f : Motor → Motor) : (State.updMot s n f).outer = s.outer := by
  simp [State.updMot]

@[simp] theorem State.noLimits_outer (s : State) (n : Fin 12) : (State.noLimits s n).outer = s.outer := by
  simp [State.noLimits]

@[simp] theorem State.motOff_outer (s : State) (n : Fin 12) : (State.motOff s n).outer = s.outer := by
  simp [State.motOff]

@[simp] theorem State.shuntShift_outer (s : State) (n : Fin 12) : (State.shuntShift s n).outer = s.outer := by
  simp [State.shuntShift]

@[simp] theorem State.hfiStep_outer (s : State) (n : Fin 12) (fresh : Bool) (i : Vector F32 3) :
    (State.hfiStep s n fresh i).outer = s.outer := by
  simp [State.hfiStep]

@[simp] theorem State.obsStep_outer (s : State) (n : Fin 12) (v i : F32 × F32) :
    (State.obsStep s n v i).outer = s.outer := by
  simp [State.obsStep]

@[simp] theorem State.estimate_outer (s : State) (n : Fin 12) (fresh : Bool) (i : Vector F32 3) :
    (State.estimate s n fresh i).outer = s.outer := by
  simp [State.estimate]

@[simp] theorem State.observeOff_outer (s : State) (n : Fin 12) : (State.observeOff s n).outer = s.outer := by
  simp [State.observeOff]

@[simp] theorem State.focVolt_outer (s : State) (n : Fin 12) (theta : Nat) (vd vq vbus : F32) :
    (State.focVolt s n theta vd vq vbus).outer = s.outer := by
  simp [State.focVolt]

@[simp] theorem State.focLoop_outer (s : State) (n : Fin 12) (theta : Nat) (w id iq idRef iqRef inj : F32) (integrate : Bool) :
    (State.focLoop s n theta w id iq idRef iqRef inj integrate).outer = s.outer := by
  simp [State.focLoop]

@[simp] theorem State.focRefs_outer (s : State) (n : Fin 12) (theta : Nat) (w id iq k inj : F32) (integrate : Bool) :
    (State.focRefs s n theta w id iq k inj integrate).outer = s.outer := by
  simp [State.focRefs]

@[simp] theorem State.sensorLost_outer (s : State) (n : Fin 12) : (State.sensorLost s n).outer = s.outer := by
  simp [State.sensorLost]

@[simp] theorem State.rotorLoss_outer (s : State) (n : Fin 12) : (State.rotorLoss s n).outer = s.outer := by
  simp [State.rotorLoss]

@[simp] theorem State.motStart_outer (s : State) (n : Fin 12) : (State.motStart s n).outer = s.outer := by
  unfold State.motStart
  dsimp only
  (repeat' split) <;> simp

@[simp] theorem State.handWait_outer (s : State) (n : Fin 12) : (State.handWait s n).outer = s.outer := by
  unfold State.handWait
  (repeat' split) <;> first | with_reducible rfl | simp

@[simp] theorem State.handover_outer (s : State) (n : Fin 12) : (State.handover s n).outer = s.outer := by
  simp [State.handover]

@[simp] theorem State.residual_outer (s : State) (n : Fin 12) : (State.residual s n).outer = s.outer := by
  simp [State.residual]

@[simp] theorem State.parkAt_outer (s : State) (n : Fin 12) (theta : Nat) (i : Vector F32 3) :
    (State.parkAt s n theta i).outer = s.outer := by
  simp [State.parkAt]

@[simp] theorem State.focRun_outer (s : State) (n : Fin 12) (fresh : Bool) (i : Vector F32 3) (k : F32) :
    (State.focRun s n fresh i k).outer = s.outer := by
  unfold State.focRun
  dsimp only
  (repeat' split) <;> simp

@[simp] theorem State.focTick_outer (s : State) (n : Fin 12) (fresh : Bool) (k : F32) :
    (State.focTick s n fresh k).outer = s.outer := by
  unfold State.focTick
  extract_lets i s1 s2 run
  have h2 : s2.outer = s.outer := by
    simp only [s2, s1, State.estimate_outer]
    split <;> simp
  have hr : ∀ a me, (run a me).outer = a.outer := fun a me => by
    simp only [run]
    split <;> simp
  clear_value s2 run
  split <;> (try dsimp only) <;> (repeat' split) <;> simp +zetaDelta [hr, h2]

@[simp] theorem State.bridgeVolt_outer (s : State) (p m : Nat) (v vbus : F32) :
    (State.bridgeVolt s p m v vbus).outer = s.outer := by
  simp [State.bridgeVolt]

@[simp] theorem State.stepperTick_outer (s : State) (n : Fin 12) (fresh : Bool) (k : F32) :
    (State.stepperTick s n fresh k).outer = s.outer := by
  simp [State.stepperTick]

@[simp] theorem State.singleTick_outer (s : State) (n : Fin 12) (fresh : Bool) (ref : F32) :
    (State.singleTick s n fresh ref).outer = s.outer := by
  unfold State.singleTick
  extract_lets
  (repeat' split) <;> simp +zetaDelta

@[simp] theorem State.solenoidTick_outer (s : State) (n : Fin 12) (fresh : Bool) (k : F32) :
    (State.solenoidTick s n fresh k).outer = s.outer := by
  simp [State.solenoidTick]

@[simp] theorem State.typeTick_outer (s : State) (n : Fin 12) (fresh : Bool) (k : F32) :
    (State.typeTick s n fresh k).outer = s.outer := by
  unfold State.typeTick
  (repeat' split) <;> first | with_reducible rfl | simp

@[simp] theorem State.motTick_outer (s : State) (n : Fin 12) : (State.motTick s n).outer = s.outer := by
  unfold State.motTick
  extract_lets
  (repeat' split) <;> simp +zetaDelta

@[simp] theorem State.motDeferred_outer (s : State) (n : Fin 12) : (State.motDeferred s n).outer = s.outer := by
  simp [State.motDeferred]

@[simp] theorem State.motStop_outer (s : State) (n : Fin 12) : (State.motStop s n).outer = s.outer := by
  simp [State.motStop]

@[simp] theorem State.motCtrl_outer (s : State) (n : Fin 12) (w : Word) : (State.motCtrl s n w).outer = s.outer := by
  simp [State.motCtrl]

@[simp] theorem State.motFault_outer (s : State) : (State.motFault s).outer = s.outer := by
  simp [State.motFault]

/-! ## Machine/OpsCle.lean -/

@[simp] theorem State.updSlot_outer (s : State) (n : Fin 256) (f : Slot → Slot) : (State.updSlot s n f).outer = s.outer := by
  simp [State.updSlot]

@[simp] theorem State.updInj_outer (s : State) (g : Fin 2) (f : Inject → Inject) : (State.updInj s g f).outer = s.outer := by
  simp [State.updInj]

@[simp] theorem State.setCap_outer (s : State) (c : Capture) : (State.setCap s c).outer = s.outer := by
  simp [State.setCap]

@[simp] theorem State.selWrite_outer (s : State) (sel : Word) (u : F32) : (State.selWrite s sel u).outer = s.outer := by
  simp [State.selWrite]

@[simp] theorem State.setStale_outer (s : State) (n : Nat) (b : Bool) (x : F32) : (State.setStale s n b x).outer = s.outer := by
  simp [State.setStale]

@[simp] theorem State.injTick_outer (s : State) (g : Fin 2) : (State.injTick s g).outer = s.outer := by
  unfold State.injTick
  extract_lets
  (repeat' split) <;> simp +zetaDelta

@[simp] theorem State.setClamp_outer (s : State) (n : Nat) (lo hi : Bool) : (State.setClamp s n lo hi).outer = s.outer := by
  simp [State.setClamp]

@[simp] theorem State.slotEval_outer (s : State) (n : Fin 256) (fresh : Bool) : (State.slotEval s n fresh).outer = s.outer := by
  simp [State.slotEval]

@[simp] theorem State.learnRate_outer (s : State) (i : Fin 6) (learns : Bool) :
    (State.learnRate s i learns).outer = s.outer := by
  simp [State.learnRate]

@[simp] theorem State.slotStart_outer (s : State) (n : Fin 256) : (State.slotStart s n).outer = s.outer := by
  simp [State.slotStart]

@[simp] theorem State.cleStart_outer (s : State) : (State.cleStart s).outer = s.outer := by
  simp [State.cleStart]

@[simp] theorem State.cleQuiet_outer (s : State) : (State.cleQuiet s).outer = s.outer := by
  simp [State.cleQuiet]

@[simp] theorem State.capStop_outer (s : State) : (State.capStop s).outer = s.outer := by
  simp [State.capStop]

@[simp] theorem State.capArm_outer (s : State) : (State.capArm s).outer = s.outer := by
  simp [State.capArm]

/-! ## Machine/Control.lean -/

@[simp] theorem State.slotReload_outer (s : State) (n : Fin 256) : (State.slotReload s n).outer = s.outer := by
  simp [State.slotReload]

@[simp] theorem State.slotCtrl_outer (s : State) (n : Fin 256) (w : Word) : (State.slotCtrl s n w).outer = s.outer := by
  simp [State.slotCtrl]

@[simp] theorem State.injCtrl_outer (s : State) (g : Fin 2) (w : Word) : (State.injCtrl s g w).outer = s.outer := by
  simp [State.injCtrl]

@[simp] theorem State.capCtrl_outer (s : State) (w : Word) : (State.capCtrl s w).outer = s.outer := by
  simp [State.capCtrl]

@[simp] theorem State.capXfer_outer (s : State) (w : Word) : (State.capXfer s w).outer = s.outer := by
  simp [State.capXfer]

@[simp] theorem State.capXferEnd_outer (s : State) : (State.capXferEnd s).outer = s.outer := by
  simp [State.capXferEnd]

/-! ## Machine/OpsAxis.lean -/

@[simp] theorem State.updAx_outer (s : State) (a : Fin 20) (f : Axis → Axis) : (State.updAx s a f).outer = s.outer := by
  simp [State.updAx]

@[simp] theorem State.setAxState_outer (s : State) (a : Fin 20) (v : Nat) : (State.setAxState s a v).outer = s.outer := by
  simp [State.setAxState]

@[simp] theorem State.axResult_outer (s : State) (a : Fin 20) (r : Nat) : (State.axResult s a r).outer = s.outer := by
  simp [State.axResult]

@[simp] theorem State.axReport_outer (s : State) (a : Fin 20) : (State.axReport s a).outer = s.outer := by
  simp [State.axReport]

@[simp] theorem State.limReport_outer (s : State) (a : Fin 20) : (State.limReport s a).outer = s.outer := by
  simp [State.limReport]

@[simp] theorem State.setPlan_outer (s : State) (a : Fin 20) (segs : List Seg) (t0 : Nat) :
    (State.setPlan s a segs t0).outer = s.outer := by
  simp [State.setPlan]

@[simp] theorem State.planMove_outer (s : State) (a : Fin 20) (t0 : Nat) : (State.planMove s a t0).outer = s.outer := by
  simp [State.planMove]

@[simp] theorem State.axStop_outer (s : State) (a : Fin 20) (hard keep : Bool) (r : Nat) :
    (State.axStop s a hard keep r).outer = s.outer := by
  simp [State.axStop]

@[simp] theorem State.axHalt_outer (s : State) (a : Fin 20) : (State.axHalt s a).outer = s.outer := by
  simp [State.axHalt]

@[simp] theorem State.limChange_outer (s : State) (a : Fin 20) (l : Lim) : (State.limChange s a l).outer = s.outer := by
  simp [State.limChange]

@[simp] theorem State.limPins_outer (s : State) (a : Fin 20) : (State.limPins s a).outer = s.outer := by
  simp [State.limPins]

@[simp] theorem State.limTrip_outer (s : State) (a : Fin 20) : (State.limTrip s a).outer = s.outer := by
  simp [State.limTrip]

@[simp] theorem State.axRest_outer (s : State) (a : Fin 20) (r : Nat) : (State.axRest s a r).outer = s.outer := by
  simp [State.axRest]

@[simp] theorem State.beginMove_outer (s : State) (a : Fin 20) (t : Word) (t0 : Nat) :
    (State.beginMove s a t t0).outer = s.outer := by
  simp [State.beginMove]

@[simp] theorem State.beginJog_outer (s : State) (a : Fin 20) (u : Int) (t0 : Nat) :
    (State.beginJog s a u t0).outer = s.outer := by
  simp [State.beginJog]

@[simp] theorem State.beginSegment_outer (s : State) (a : Fin 20) (t0 : Nat) : (State.beginSegment s a t0).outer = s.outer := by
  simp [State.beginSegment]

@[simp] theorem State.homeStage_outer (s : State) (a : Fin 20) (h : HomeStage) (t0 : Nat) :
    (State.homeStage s a h t0).outer = s.outer := by
  unfold State.homeStage
  (repeat' split) <;> first | with_reducible rfl | simp

@[simp] theorem State.axSupplant_outer (s : State) (a : Fin 20) : (State.axSupplant s a).outer = s.outer := by
  simp [State.axSupplant]

@[simp] theorem State.axMotion_outer (s : State) (a : Fin 20) (c : AxCmd) : (State.axMotion s a c).outer = s.outer := by
  unfold State.axMotion
  (repeat' split) <;> first | with_reducible rfl | simp

@[simp] theorem State.setPosition_outer (s : State) (a : Fin 20) (t : Word) : (State.setPosition s a t).outer = s.outer := by
  simp [State.setPosition]

@[simp] theorem State.axTake_outer (s : State) (a : Fin 20) (c : AxCmd) : (State.axTake s a c).outer = s.outer := by
  simp [State.axTake]

@[simp] theorem State.homeEdge_outer (s : State) (a : Fin 20) (active : Bool) (ts : Nat) :
    (State.homeEdge s a active ts).outer = s.outer := by
  unfold State.homeEdge
  extract_lets
  (repeat' split) <;> simp +zetaDelta

@[simp] theorem State.homeTick_outer (s : State) (a : Fin 20) (still : Bool) : (State.homeTick s a still).outer = s.outer := by
  simp [State.homeTick]
  (repeat' split) <;> simp

@[simp] theorem State.cutSteps_outer (s : State) (a : Fin 20) : (State.cutSteps s a).outer = s.outer := by
  simp [State.cutSteps]

@[simp] theorem State.axFault_outer (s : State) (a : Fin 20) : (State.axFault s a).outer = s.outer := by
  simp [State.axFault]

@[simp] theorem State.axLeaveFault_outer (s : State) (a : Fin 20) : (State.axLeaveFault s a).outer = s.outer := by
  simp [State.axLeaveFault]

@[simp] theorem State.faultTick_outer (s : State) (a : Fin 20) : (State.faultTick s a).outer = s.outer := by
  simp only [State.faultTick]
  (repeat' split) <;> simp

@[simp] theorem State.axReach_outer (s : State) (a : Fin 20) : (State.axReach s a).outer = s.outer := by
  simp [State.axReach]

@[simp] theorem State.advance_outer (s : State) (a : Fin 20) : (State.advance s a).outer = s.outer := by
  unfold State.advance
  extract_lets
  (repeat' split) <;> simp +zetaDelta

@[simp] theorem State.stepperRefs_outer (s : State) (a : Fin 20) (n : Fin 12) (prev : Word) :
    (State.stepperRefs s a n prev).outer = s.outer := by
  simp [State.stepperRefs]

@[simp] theorem State.emitSteps_outer (s : State) (a : Fin 20) (p0 : BitVec 64) : (State.emitSteps s a p0).outer = s.outer := by
  simp [State.emitSteps]

@[simp] theorem State.axBoundary_outer (s : State) : (State.axBoundary s).outer = s.outer := by
  simp [State.axBoundary]

@[simp] theorem State.axUnqueue_outer (s : State) (a : Fin 20) (c : AxCmd) : (State.axUnqueue s a c).outer = s.outer := by
  unfold State.axUnqueue
  (repeat' split) <;> simp

@[simp] theorem State.axTick_outer (s : State) (a : Fin 20) : (State.axTick s a).outer = s.outer := by
  unfold State.axTick
  lift_lets
  repeat
    intro x
    first
    | have hx : x.outer = s.outer := by simp [x, *]
    | have hx : x.outer = s.outer := by simp only [x]; (repeat' split) <;> first | with_reducible rfl | simp [*]
    | skip
    clear_value x
  (repeat' split) <;> simp [*]

@[simp] theorem State.mangleReset_outer (s : State) : (State.mangleReset s).outer = s.outer := by
  simp [State.mangleReset]

/-! ## Machine/ExposureLink.lean -/

@[simp] theorem State.failLink_outer (s : State) (i : Fin 6) : (State.failLink s i).outer = s.outer := by
  simp [State.failLink]

@[simp] theorem State.failAttempt_outer (s : State) (i : Fin 6) : (State.failAttempt s i).outer = s.outer := by
  simp [State.failAttempt]

@[simp] theorem State.enterConfig_outer (s : State) (i : Fin 6) : (State.enterConfig s i).outer = s.outer := by
  simp [State.enterConfig]

@[simp] theorem State.pktDead_outer (s : State) (i : Fin 6) (k : PktKind) : (State.pktDead s i k).outer = s.outer := by
  simp [State.pktDead]

@[simp] theorem State.again_outer (s : State) (i : Fin 6) (p : Packet) : (State.again s i p).outer = s.outer := by
  simp [State.again]

@[simp] theorem State.answered_outer (s : State) (i : Fin 6) (k : PktKind) (data : Word) :
    (State.answered s i k data).outer = s.outer := by
  unfold State.answered
  (repeat' split) <;> first | with_reducible rfl | simp

@[simp] theorem State.linkActive_outer (s : State) (i : Fin 6) : (State.linkActive s i).outer = s.outer := by
  simp [State.linkActive]

@[simp] theorem State.askRetrain_outer (s : State) (i : Fin 6) : (State.askRetrain s i).outer = s.outer := by
  simp [State.askRetrain]

@[simp] theorem State.crcCount_outer (s : State) (i : Fin 6) (crc : BitVec 8) : (State.crcCount s i crc).outer = s.outer := by
  simp [State.crcCount]

@[simp] theorem State.darkDots_outer (s : State) (i : Fin 6) (r : Run) (n : Nat) :
    (State.darkDots s i r n).outer = s.outer := by
  unfold State.darkDots
  (repeat' split) <;> first | with_reducible rfl | simp

@[simp] theorem State.darkLine_outer (s : State) (i : Fin 6) (seq : Int) (beam : Nat) :
    (State.darkLine s i seq beam).outer = s.outer := by
  simp [State.darkLine]

@[simp] theorem execRetrain_outer (_port : Port) (st : Fin 6) (w : Word) (s : State) : (State.take s
    (execRetrain _port st w s)).outer = s.outer := by
  unfold execRetrain
  rw [take_next]
  simp

@[simp] theorem execRetrainForce_outer (_port : Port) (st : Fin 6) (w : Word) (s : State) : (State.take s
    (execRetrainForce _port st w s)).outer = s.outer := by
  unfold execRetrainForce
  rw [take_next]
  simp

@[simp] theorem execHeadAccess_outer (_port : Port) (st : Fin 6) (w : Word) (s : State) : (State.take s
    (execHeadAccess _port st w s)).outer = s.outer := by
  unfold execHeadAccess
  rw [take_next]
  simp

@[simp] theorem execLenMismatchClear_outer (_port : Port) (st : Fin 6) (s : State) : (State.take s
    (execLenMismatchClear _port st s)).outer = s.outer := by
  unfold execLenMismatchClear
  rw [take_next]
  simp

/-! ## Machine/OpsHeat.lean -/

@[simp] theorem State.updTherm_outer (s : State) (n : Fin 12) (f : Therm → Therm) : (State.updTherm s n f).outer = s.outer := by
  simp [State.updTherm]

@[simp] theorem State.updHeater_outer (s : State) (h : Fin 4) (f : Heater → Heater) :
    (State.updHeater s h f).outer = s.outer := by
  simp [State.updHeater]

@[simp] theorem State.updHv_outer (s : State) (c : Fin 24) (f : HvCh → HvCh) : (State.updHv s c f).outer = s.outer := by
  simp [State.updHv]

@[simp] theorem State.heaterDrive_outer (s : State) (h : Fin 4) (d : HeaterDrive) :
    (State.heaterDrive s h d).outer = s.outer := by
  simp [State.heaterDrive]

@[simp] theorem State.heaterOff_outer (s : State) (h : Fin 4) : (State.heaterOff s h).outer = s.outer := by
  simp [State.heaterOff]

@[simp] theorem State.heaterTrip_outer (s : State) (h : Fin 4) (cause : Nat) (th : Option Nat) :
    (State.heaterTrip s h cause th).outer = s.outer := by
  unfold State.heaterTrip
  (repeat' split) <;> first | with_reducible rfl | simp

@[simp] theorem State.heaterJudge_outer (s : State) (h : Fin 4) : (State.heaterJudge s h).outer = s.outer := by
  unfold State.heaterJudge
  extract_lets go s1 s2 s3 s4
  have hg : ∀ a f st c, (go a f st c).outer = a.outer := fun a f st c => by
    simp only [go]
    (repeat' split) <;> simp
  have h4 : s4.outer = s.outer := by
    simp only [s4, s3, s2, s1]
    split <;> simp [hg]
  clear_value s4
  split <;> simp [h4]

@[simp] theorem State.heaterJudgeAll_outer (s : State) : (State.heaterJudgeAll s).outer = s.outer := by
  simp [State.heaterJudgeAll]

@[simp] theorem State.heaterClear_outer (s : State) (h : Fin 4) (madeAt : Nat) :
    (State.heaterClear s h madeAt).outer = s.outer := by
  simp [State.heaterClear]

@[simp] theorem State.heaterTick_outer (s : State) (h : Fin 4) : (State.heaterTick s h).outer = s.outer := by
  unfold State.heaterTick
  (repeat' split) <;> first | with_reducible rfl | simp

@[simp] theorem State.mendTherm_outer (s : State) : (State.mendTherm s).outer = s.outer := by
  simp [State.mendTherm]

@[simp] theorem State.thermClear_outer (s : State) (n : Fin 12) (w : Word) : (State.thermClear s n w).outer = s.outer := by
  simp [State.thermClear]

@[simp] theorem State.heatReset_outer (s : State) : (State.heatReset s).outer = s.outer := by
  simp [State.heatReset]

@[simp] theorem State.bandTick_outer (s : State) (j : Nat) : (State.bandTick s j).outer = s.outer := by
  simp [State.bandTick]

@[simp] theorem State.refreshTick_outer (s : State) : (State.refreshTick s).outer = s.outer := by
  unfold State.refreshTick
  (repeat' split) <;> first | with_reducible rfl | simp

@[simp] theorem State.dieTemp_outer (s : State) (k : Fin 12) (t : BitVec 16) : (State.dieTemp s k t).outer = s.outer := by
  simp [State.dieTemp]

@[simp] theorem State.hvLow_outer (s : State) (c : Fin 24) : (State.hvLow s c).outer = s.outer := by
  simp [State.hvLow]

@[simp] theorem State.hvAllLow_outer (s : State) : (State.hvAllLow s).outer = s.outer := by
  simp [State.hvAllLow]

@[simp] theorem State.hvTripNow_outer (s : State) (c : Fin 24) (cause : Nat) : (State.hvTripNow s c cause).outer = s.outer := by
  simp [State.hvTripNow]

@[simp] theorem State.hvStart_outer (s : State) (c : Fin 24) : (State.hvStart s c).outer = s.outer := by
  simp [State.hvStart]

@[simp] theorem State.hvCtrl_outer (s : State) (c : Fin 24) (w : Word) : (State.hvCtrl s c w).outer = s.outer := by
  simp [State.hvCtrl]

@[simp] theorem State.hvMeasure_outer (s : State) (c : Fin 24) (mon aux : BitVec 14) :
    (State.hvMeasure s c mon aux).outer = s.outer := by
  simp [State.hvMeasure]

@[simp] theorem State.hvJudge_outer (s : State) (c : Fin 24) : (State.hvJudge s c).outer = s.outer := by
  simp [State.hvJudge]

@[simp] theorem State.hvDuty_outer (s : State) (c : Fin 24) (d : F32) : (State.hvDuty s c d).outer = s.outer := by
  simp [State.hvDuty]

@[simp] theorem State.hvRegulate_outer (s : State) (c : Fin 24) (secs ms : F32) :
    (State.hvRegulate s c secs ms).outer = s.outer := by
  simp [State.hvRegulate]

@[simp] theorem State.hvRun_outer (s : State) (c : Fin 24) (mon aux : BitVec 14) (secs ms : F32) :
    (State.hvRun s c mon aux secs ms).outer = s.outer := by
  simp [State.hvRun]

@[simp] theorem State.hvAcLoop_outer (s : State) (c : Fin 24) : (State.hvAcLoop s c).outer = s.outer := by
  simp [State.hvAcLoop]

@[simp] theorem State.hvReset_outer (s : State) : (State.hvReset s).outer = s.outer := by
  simp [State.hvReset]

@[simp] theorem State.hvResetRamp_outer (s : State) : (State.hvResetRamp s).outer = s.outer := by
  simp [State.hvResetRamp]

@[simp] theorem State.hvAllOff_outer (s : State) : (State.hvAllOff s).outer = s.outer := by
  simp [State.hvAllOff]

end Sys2Proof.Machine
end

