-- ==== Sys2Proof/Laws/FrameLink.lean ====
section
/-! SUPPORT. Laws/FrameLink.lean: what the operations of CoeneLink, meters, security, the supervisor, vintages, the Racking and boot leave alone: the queue of
commands, the memory windows, the fuses and TSC. -/

namespace Sys2Proof.Machine

/-! ## Machine/OpsChn.lean -/

@[simp] theorem State.updPort_outer (s : State) (p : Fin 2) (f : ChnPort → ChnPort) :
    (State.updPort s p f).outer = s.outer := by
  simp [State.updPort]

@[simp] theorem State.chnQueue_outer (s : State) (p : Fin 2) (m : ChnMsg) : (State.chnQueue s p m).outer = s.outer := by
  simp [State.chnQueue]

@[simp] theorem State.chnSend_outer (s : State) (p : Fin 2) (ty : BitVec 8) (dest : BitVec 4) (content : List Byte) :
    (State.chnSend s p ty dest content).outer = s.outer := by
  simp [State.chnSend]

@[simp] theorem State.hoSend_outer (s : State) (p : Fin 2) (ty : BitVec 8) (id : Word) :
    (State.hoSend s p ty id).outer = s.outer := by
  simp [State.hoSend]

@[simp] theorem State.chnHeard_outer (s : State) (p : Fin 2) : (State.chnHeard s p).outer = s.outer := by
  simp [State.chnHeard]

@[simp] theorem State.chnTickPort_outer (s : State) (p : Fin 2) : (State.chnTickPort s p).outer = s.outer := by
  simp [State.chnTickPort]

@[simp] theorem State.chnTick_outer (s : State) : (State.chnTick s).outer = s.outer := by
  simp [State.chnTick]

@[simp] theorem State.stopOut_outer (s : State) (p : Fin 2) (src : BitVec 4) : (State.stopOut s p src).outer = s.outer := by
  simp [State.stopOut]

@[simp] theorem State.stopSend_outer (s : State) : (State.stopSend s).outer = s.outer := by
  simp [State.stopSend]

@[simp] theorem State.chnAlarm_outer (s : State) (cause port : Nat) : (State.chnAlarm s cause port).outer = s.outer := by
  simp [State.chnAlarm]

@[simp] theorem State.stopRecv_outer (s : State) (p : Fin 2) (src : BitVec 4) : (State.stopRecv s p src).outer = s.outer := by
  simp [State.stopRecv]

@[simp] theorem State.enterFault_outer (s : State) : (State.enterFault s).outer = s.outer := by
  simp [State.enterFault]

@[simp] theorem State.sendEnumEnd_outer (s : State) (units : Nat) : (State.sendEnumEnd s units).outer = s.outer := by
  simp [State.sendEnumEnd]

@[simp] theorem State.enumEnd_outer (s : State) (units : Nat) : (State.enumEnd s units).outer = s.outer := by
  simp [State.enumEnd]

@[simp] theorem State.enumDown_outer (s : State) : (State.enumDown s).outer = s.outer := by
  simp [State.enumDown]

@[simp] theorem State.enumTake_outer (s : State) (p : Fin 2) (a : Nat) : (State.enumTake s p a).outer = s.outer := by
  simp [State.enumTake]

@[simp] theorem State.enumEndTake_outer (s : State) (p : Fin 2) (units : Nat) :
    (State.enumEndTake s p units).outer = s.outer := by
  simp [State.enumEndTake]

@[simp] theorem State.portUp_outer (s : State) (p : Fin 2) : (State.portUp s p).outer = s.outer := by
  simp [State.portUp]

@[simp] theorem State.alignLost_outer (s : State) : (State.alignLost s).outer = s.outer := by
  simp [State.alignLost]

@[simp] theorem State.portDown_outer (s : State) (p : Fin 2) : (State.portDown s p).outer = s.outer := by
  simp [State.portDown]

@[simp] theorem State.trimFollow_outer (s : State) : (State.trimFollow s).outer = s.outer := by
  simp [State.trimFollow]

@[simp] theorem State.fromAbove_outer (s : State) (f : ChnFrame) : (State.fromAbove s f).outer = s.outer := by
  simp [State.fromAbove]

@[simp] theorem State.fromBelow_outer (s : State) (f : ChnFrame) : (State.fromBelow s f).outer = s.outer := by
  simp [State.fromBelow]

@[simp] theorem State.setOffers_outer (s : State) (l : List Offer) : (State.setOffers s l).outer = s.outer := by
  simp [State.setOffers]

@[simp] theorem State.setPends_outer (s : State) (l : List Pend) : (State.setPends s l).outer = s.outer := by
  simp [State.setPends]

@[simp] theorem State.hoOutcome_outer (s : State) (p : Fin 2) (out reason : Nat) (id : Word) :
    (State.hoOutcome s p out reason id).outer = s.outer := by
  simp [State.hoOutcome]

@[simp] theorem State.pendCount_outer (s : State) : (State.pendCount s).outer = s.outer := by
  simp [State.pendCount]

@[simp] theorem State.offerTake_outer (s : State) (p : Fin 2) (id : Word) (spoiled : Bool) (size colour : Nat)
    (t1 t2 : Word) : (State.offerTake s p id spoiled size colour t1 t2).outer = s.outer := by
  unfold State.offerTake
  extract_lets
  (repeat' split) <;> simp +zetaDelta

@[simp] theorem State.handOut_outer (s : State) (o : Offer) : (State.handOut s o).outer = s.outer := by
  simp [State.handOut]

@[simp] theorem State.acceptLate_outer (s : State) (o : Offer) : (State.acceptLate s o).outer = s.outer := by
  simp [State.acceptLate]

@[simp] theorem State.acceptDo_outer (s : State) (o : Offer) : (State.acceptDo s o).outer = s.outer := by
  simp [State.acceptDo]

@[simp] theorem State.acceptTake_outer (s : State) (p : Fin 2) (id : Word) : (State.acceptTake s p id).outer = s.outer := by
  unfold State.acceptTake
  (repeat' split) <;> first | with_reducible rfl | simp

@[simp] theorem State.offerBack_outer (s : State) (o : Offer) : (State.offerBack s o).outer = s.outer := by
  simp [State.offerBack]

@[simp] theorem State.refuseTake_outer (s : State) (p : Fin 2) (id : Word) (reason : Nat) :
    (State.refuseTake s p id reason).outer = s.outer := by
  unfold State.refuseTake
  (repeat' split) <;> first | with_reducible rfl | simp

@[simp] theorem State.offerAbort_outer (s : State) (o : Offer) : (State.offerAbort s o).outer = s.outer := by
  simp [State.offerAbort]

@[simp] theorem State.pendEnd_outer (s : State) (x : Pend) (out : Nat) : (State.pendEnd s x out).outer = s.outer := by
  simp [State.pendEnd]

@[simp] theorem State.pendEnter_outer (s : State) (x : Pend) : (State.pendEnter s x).outer = s.outer := by
  simp [State.pendEnter]

@[simp] theorem State.commitTake_outer (s : State) (p : Fin 2) (id : Word) :
    (State.commitTake s p id).outer = s.outer := by
  unfold State.commitTake
  (repeat' split) <;> first | with_reducible rfl | simp

@[simp] theorem State.abortTake_outer (s : State) (p : Fin 2) (id : Word) :
    (State.abortTake s p id).outer = s.outer := by
  unfold State.abortTake
  (repeat' split) <;> first | with_reducible rfl | simp

@[simp] theorem State.resolveTake_outer (s : State) (p : Fin 2) (id : Word) : (State.resolveTake s p id).outer = s.outer := by
  simp [State.resolveTake]

@[simp] theorem State.chnThaw_outer (s : State) : (State.chnThaw s).outer = s.outer := by
  simp [State.chnThaw]

@[simp] theorem State.commitKnown_outer (s : State) (e : JEntry) : (State.commitKnown s e).outer = s.outer := by
  unfold State.commitKnown
  (repeat' split) <;> first | with_reducible rfl | simp

@[simp] theorem State.commitsKnown_outer (s : State) : (State.commitsKnown s).outer = s.outer := by
  simp [State.commitsKnown]

@[simp] theorem State.rxFollow_outer (s : State) (p : Fin 2) : (State.rxFollow s p).outer = s.outer := by
  simp [State.rxFollow]

@[simp] theorem State.userTake_outer (s : State) (p : Fin 2) (src : BitVec 4) (d : Vector Word 3) :
    (State.userTake s p src d).outer = s.outer := by
  simp [State.userTake]

@[simp] theorem State.userPop_outer (s : State) (p : Fin 2) : (State.userPop s p).outer = s.outer := by
  simp [State.userPop]

@[simp] theorem State.userPost_outer (s : State) (dest : BitVec 4) : (State.userPost s dest).outer = s.outer := by
  simp [State.userPost]

@[simp] theorem State.alarmTake_outer (s : State) (p : Fin 2) (src : BitVec 4) (cause port : Nat) :
    (State.alarmTake s p src cause port).outer = s.outer := by
  simp [State.alarmTake]

@[simp] theorem State.chnDeliver_outer (s : State) (p : Fin 2) (m : ChnMsg) : (State.chnDeliver s p m).outer = s.outer := by
  unfold State.chnDeliver
  (repeat' split) <;> first | with_reducible rfl | simp

@[simp] theorem State.chnForward_outer (s : State) (p : Fin 2) (m : ChnMsg) :
    (State.chnForward s p m).outer = s.outer := by
  simp [State.chnForward]

@[simp] theorem State.chnMessage_outer (s : State) (p : Fin 2) (m : ChnMsg) : (State.chnMessage s p m).outer = s.outer := by
  simp [State.chnMessage]

/-! ## Machine/OpsMeter.lean -/

@[simp] theorem State.jfullFollow_outer (s : State) : (State.jfullFollow s).outer = s.outer := by
  simp [State.jfullFollow]

@[simp] theorem State.sendRecord_outer (s : State) : (State.sendRecord s).outer = s.outer := by
  simp [State.sendRecord]

@[simp] theorem State.commitRecord_outer (s : State) : (State.commitRecord s).outer = s.outer := by
  simp [State.commitRecord]

@[simp] theorem State.rinseEnd_outer (s : State) (j : RinseJob) (st : Status) (moved cause : Nat) :
    (State.rinseEnd s j st moved cause).outer = s.outer := by
  simp [State.rinseEnd]

@[simp] theorem State.rinsePurge_outer (s : State) (j : RinseJob) : (State.rinsePurge s j).outer = s.outer := by
  simp [State.rinsePurge]

@[simp] theorem State.rinseWrite_outer (s : State) (w : Word) : (State.rinseWrite s w).outer = s.outer := by
  unfold State.rinseWrite
  (repeat' split) <;> first | with_reducible rfl | simp

@[simp] theorem State.rinseThaw_outer (s : State) : (State.rinseThaw s).outer = s.outer := by
  unfold State.rinseThaw
  (repeat' split) <;> first | with_reducible rfl | simp

@[simp] theorem State.thawed_outer (s : State) : (State.thawed s).outer = s.outer := by
  simp [State.thawed]

@[simp] theorem State.rinsePick_outer (s : State) : (State.rinsePick s).outer = s.outer := by
  unfold State.rinsePick
  (repeat' split) <;> first | with_reducible rfl | simp

theorem State.meterTake_outer (x : State × List MeterJob) (m : MeterJob) : (State.meterTake x m).1.outer = x.1.outer := by
  unfold State.meterTake
  split <;> simp

@[simp] theorem State.meterTick_outer (s : State) : (State.meterTick s).outer = s.outer :=
  foldPair_outer _ State.meterTake _ State.meterTake_outer

/-! ## Machine/OpsSec.lean -/

@[simp] theorem State.fuseFollow_outer (s : State) : (State.fuseFollow s).outer = s.outer := by
  unfold State.fuseFollow
  extract_lets
  (repeat' split) <;> simp +zetaDelta

@[simp] theorem State.randomWords_outer (s : State) (n : Nat) : (s.randomWords n).1.outer = s.outer :=
  foldPair_outer _ _ (s, []) fun a _ => by simp

@[simp] theorem State.updCon_outer (s : State) (p : Fin 4) (f : ConPort → ConPort) : (State.updCon s p f).outer = s.outer := by
  simp [State.updCon]

@[simp] theorem State.conStage_outer (s : State) (p : Fin 4) (g : ConStage) : (State.conStage s p g).outer = s.outer := by
  simp [State.conStage]

@[simp] theorem State.conStart_outer (s : State) (p : Fin 4) : (State.conStart s p).outer = s.outer := by
  simp [State.conStart]

@[simp] theorem State.conGates_outer (s : State) : (State.conGates s).outer = s.outer := by
  simp [State.conGates]

@[simp] theorem State.conChanged_outer (s : State) (p : Fin 4) : (State.conChanged s p).outer = s.outer := by
  simp [State.conChanged]

@[simp] theorem State.conEnd_outer (s : State) (p : Fin 4) (result serial : Nat) :
    (State.conEnd s p result serial).outer = s.outer := by
  simp [State.conEnd]

@[simp] theorem State.conVerify_outer (s : State) (p : Fin 4) : (State.conVerify s p).outer = s.outer := by
  unfold State.conVerify
  dsimp only
  (repeat' split) <;> simp

@[simp] theorem State.conDone_outer (s : State) (p : Fin 4) (nack : Bool) (data : List Byte) :
    (State.conDone s p nack data).outer = s.outer := by
  unfold State.conDone
  lift_lets
  repeat
    intro x
    first
    | have hx : x.outer = s.outer := by simp [x, *]
    | skip
    clear_value x
  (repeat' split) <;> simp [*]

@[simp] theorem State.conBoot_outer (s : State) : (State.conBoot s).outer = s.outer := by
  simp [State.conBoot]

@[simp] theorem State.newChal_outer (s : State) : (State.newChal s).outer = s.outer := by
  unfold State.newChal
  split
  · rfl
  · simp

@[simp] theorem State.unlock_outer (s : State) : (State.unlock s).outer = s.outer := by
  simp [State.unlock]

@[simp] theorem State.dbgLock_outer (s : State) : (State.dbgLock s).outer = s.outer := by
  simp [State.dbgLock]

@[simp] theorem State.dbgCtrl_outer (s : State) (w : Word) : (State.dbgCtrl s w).outer = s.outer := by
  simp [State.dbgCtrl]

/-! ## Machine/OpsPsq.lean -/

@[simp] theorem State.lenDrive_outer (s : State) : (State.lenDrive s).outer = s.outer := by
  simp [State.lenDrive]

@[simp] theorem State.outputsOff_outer (s : State) : (State.outputsOff s).outer = s.outer := by
  simp [State.outputsOff]

@[simp] theorem State.updRail_outer (s : State) (r : Nat) (f : Rail → Rail) : (State.updRail s r f).outer = s.outer := by
  simp [State.updRail]

@[simp] theorem State.railSense_outer (s : State) (r vs : Nat) : (State.railSense s r vs).outer = s.outer := by
  simp [State.railSense]

@[simp] theorem State.setRail_outer (s : State) (r v : Nat) : (State.setRail s r v).outer = s.outer := by
  simp [State.setRail]

@[simp] theorem State.railsRise_outer (s : State) : (State.railsRise s).outer = s.outer := by
  simp [State.railsRise]

@[simp] theorem State.railsStart_outer (s : State) (m : Nat) : (State.railsStart s m).outer = s.outer := by
  simp [State.railsStart]

@[simp] theorem State.railsStop_outer (s : State) : (State.railsStop s).outer = s.outer := by
  simp [State.railsStop]

@[simp] theorem State.railsMark_outer (s : State) (m : Nat) : (State.railsMark s m).outer = s.outer := by
  simp [State.railsMark]

@[simp] theorem State.railOn_outer (s : State) (r : Nat) : (State.railOn s r).outer = s.outer := by
  simp [State.railOn]

@[simp] theorem State.psqEvent_outer (s : State) (id : EvId) (inst : Nat) :
    (State.psqEvent s id inst).outer = s.outer := by
  simp [State.psqEvent]

@[simp] theorem State.shutFollow_outer (s : State) : (State.shutFollow s).outer = s.outer := by
  simp [State.shutFollow]

@[simp] theorem State.coreStart_outer (s : State) (t : Nat) : (State.coreStart s t).outer = s.outer := by
  simp [State.coreStart]

@[simp] theorem State.coreAgain_outer (s : State) : (State.coreAgain s).outer = s.outer := by
  unfold State.coreAgain
  (repeat' split) <;> first | with_reducible rfl | simp

@[simp] theorem State.psqAdvance_outer (s : State) (dt : Nat) : (State.psqAdvance s dt).outer = s.outer := by
  simp [State.psqAdvance]

@[simp] theorem State.coreRelease_outer (s : State) (head test : Bool) : (State.coreRelease s head test).outer = s.outer := by
  simp [State.coreRelease]

@[simp] theorem State.tryPowerUp_outer (s : State) : (State.tryPowerUp s).outer = s.outer := by
  simp [State.tryPowerUp]

@[simp] theorem State.vinCancel_outer (s : State) (cid : Option (BitVec 16)) (slot : Nat) :
    (State.vinCancel s cid slot).outer = s.outer := by
  unfold State.vinCancel
  (repeat' split) <;> first | with_reducible rfl | simp

@[simp] theorem State.cancelApplies_outer (s : State) : (State.cancelApplies s).outer = s.outer := by
  unfold State.cancelApplies
  (repeat' split) <;> first | with_reducible rfl | simp

@[simp] theorem State.goDown_outer (s : State) (cause rail : Nat) (above : Bool) :
    (State.goDown s cause rail above).outer = s.outer := by
  simp [State.goDown]

@[simp] theorem State.standbyFollow_outer (s : State) : (State.standbyFollow s).outer = s.outer := by
  simp [State.standbyFollow]

@[simp] theorem State.dropEnables_outer (s : State) : (State.dropEnables s).outer = s.outer := by
  simp [State.dropEnables]

@[simp] theorem State.lockoutFollow_outer (s : State) : (State.lockoutFollow s).outer = s.outer := by
  simp [State.lockoutFollow]

@[simp] theorem State.acDown_outer (s : State) : (State.acDown s).outer = s.outer := by
  simp [State.acDown]

@[simp] theorem State.psqCtrl_outer (s : State) (r : Nat) (w : Word) : (State.psqCtrl s r w).outer = s.outer := by
  unfold State.psqCtrl
  (repeat' split) <;> first | with_reducible rfl | simp

@[simp] theorem State.railsAuto_outer (s : State) : (State.railsAuto s).outer = s.outer := by
  simp [State.railsAuto]

@[simp] theorem State.psqEngineReset_outer (s : State) : (State.psqEngineReset s).outer = s.outer := by
  simp [State.psqEngineReset]

@[simp] theorem State.psqMargin_outer (s : State) (r : Nat) (w : Word) : (State.psqMargin s r w).outer = s.outer := by
  simp [State.psqMargin]

@[simp] theorem State.marginStep_outer (s : State) (r : Nat) : (State.marginStep s r).outer = s.outer := by
  simp [State.marginStep]

/-! ## Machine/OpsVin.lean -/

@[simp] theorem State.vinDone_outer (s : State) (cid : Option (BitVec 16)) (res : Nat) (slot : Nat) (tick : Nat) :
    (State.vinDone s cid res slot tick).outer = s.outer := by
  unfold State.vinDone
  (repeat' split) <;> first | with_reducible rfl | simp

@[simp] theorem State.vinFollow_outer (s : State) : (State.vinFollow s).outer = s.outer := by
  simp [State.vinFollow]

@[simp] theorem State.fillBank_outer (s : State) (slot : Fin 8) (img : Image) :
    (State.fillBank s slot img).outer = s.outer := by
  simp [State.fillBank]

@[simp] theorem State.runCheck_outer (s : State) (img : Image) (preloadOk : Bool) :
    (State.runCheck s img preloadOk).1.outer = s.outer := by
  unfold State.runCheck
  (repeat' split) <;> first | with_reducible rfl | simp

@[simp] theorem State.checkSlot_outer (s : State) (slot : Fin 8) (flashOk preloadOk : Bool) :
    (State.checkSlot s slot flashOk preloadOk).1.outer = s.outer := by
  unfold State.checkSlot
  (repeat' split) <;> first | with_reducible rfl | simp

@[simp] theorem State.checkBank_outer (s : State) (preloadOk : Bool) : (State.checkBank s preloadOk).1.outer = s.outer := by
  unfold State.checkBank
  (repeat' split) <;> first | with_reducible rfl | simp

@[simp] theorem State.acceptApply_outer (s : State) (cid : BitVec 16) (at_ : Nat) (revert : Bool) :
    (State.acceptApply s cid at_ revert).outer = s.outer := by
  simp [State.acceptApply]

@[simp] theorem State.stageWrite_outer (s : State) (off : Nat) (w : Word) : (State.stageWrite s off w).outer = s.outer := by
  unfold State.stageWrite
  (repeat' split) <;> first | with_reducible rfl | simp

@[simp] theorem State.stWrite_outer (s : State) (off : Nat) (w : Word) : (State.stWrite s off w).outer = s.outer := by
  unfold State.stWrite
  (repeat' split) <;> first | with_reducible rfl | simp

@[simp] theorem State.landHeld_outer (s : State) : (State.landHeld s).outer = s.outer := by
  simp [State.landHeld]

@[simp] theorem State.takeStage_outer (s : State) (skip : Nat → Word) : (State.takeStage s skip).outer = s.outer := by
  unfold State.takeStage
  refine State.each_outer _ _ _ fun a off => ?_
  dsimp only
  (repeat' split) <;> simp

@[simp] theorem State.psqJournal_outer (s : State) (old : Word) : (State.psqJournal s old).outer = s.outer := by
  simp [State.psqJournal]

@[simp] theorem State.discardStale_outer (s : State) : (State.discardStale s).outer = s.outer := by
  simp [State.discardStale]

@[simp] theorem State.moveMarks_outer (s : State) (job : ApplyJob) : (State.moveMarks s job).outer = s.outer := by
  simp [State.moveMarks]

@[simp] theorem State.endSwitch_outer (s : State) (job : ApplyJob) : (State.endSwitch s job).outer = s.outer := by
  simp [State.endSwitch]

@[simp] theorem State.settingsSwitch_outer (s : State) (job : ApplyJob) : (State.settingsSwitch s job).outer = s.outer := by
  simp [State.settingsSwitch]

@[simp] theorem State.startCopy_outer (s : State) (job : ApplyJob) : (State.startCopy s job).outer = s.outer := by
  unfold State.startCopy
  extract_lets
  (repeat' split) <;> simp +zetaDelta

@[simp] theorem State.winSwitch_outer (s : State) : (State.winSwitch s).outer = s.outer := by
  simp [State.winSwitch]

@[simp] theorem State.abandonApply_outer (s : State) : (State.abandonApply s).outer = s.outer := by
  unfold State.abandonApply
  (repeat' split) <;> first | with_reducible rfl | simp

@[simp] theorem State.noVintage_outer (s : State) : (State.noVintage s).outer = s.outer := by
  simp [State.noVintage]

@[simp] theorem State.loadCurrent_outer (s : State) (flashOk preloadOk : Bool) :
    (State.loadCurrent s flashOk preloadOk).outer = s.outer := by
  unfold State.loadCurrent
  (repeat' split) <;> first | with_reducible rfl | simp

/-! ## Machine/Racking.lean -/

@[simp] theorem State.entriesRead_outer (s : State) (q : Fin 2) (n : Nat) : (State.entriesRead s q n).outer = s.outer := by
  simp [State.entriesRead]

@[simp] theorem State.reportSent_outer (s : State) : (State.reportSent s).outer = s.outer := by
  unfold State.reportSent
  (repeat' split) <;> first | with_reducible rfl | simp

@[simp] theorem State.mailRead_outer (s : State) : (State.mailRead s).outer = s.outer := by
  unfold State.mailRead
  (repeat' split) <;> first | with_reducible rfl | simp

@[simp] theorem State.roundData_outer (s : State) (c : Nat) (t : Txn) (poisoned : Bool) : (State.roundData s c t poisoned).outer = s.outer := by
  unfold State.roundData
  extract_lets
  split
  · rfl
  · rename_i q _
    extract_lets a h
    have ha : a.outer = s.outer := by simp only [a]; split <;> simp
    (repeat' split) <;> simp [ha]

@[simp] theorem State.deliver_outer (s : State) (c : Nat) (t : Txn) (poisoned : Bool) :
    (State.deliver s c t poisoned).outer = s.outer := by
  unfold State.deliver
  (repeat' split) <;> first | with_reducible rfl | simp

@[simp] theorem State.discardOld_outer (s : State) (c : Nat) (t : Txn) : (State.discardOld s c t).outer = s.outer := by
  simp [State.discardOld]

@[simp] theorem State.dramEcc_outer (s : State) (res : TxnResult) : (State.dramEcc s res).outer = s.outer := by
  unfold State.dramEcc
  (repeat' split) <;> first | with_reducible rfl | simp

@[simp] theorem State.txnEnd_outer (s : State) (c : Nat) (t : Txn) (res : TxnResult) :
    (State.txnEnd s c t res).outer = s.outer := by
  unfold State.txnEnd
  (repeat' split) <;> first | with_reducible rfl | simp

@[simp] theorem State.dropped_outer (s : State) (c : Nat) (t : Txn) : (State.dropped s c t).outer = s.outer := by
  unfold State.dropped
  (repeat' split) <;> first | with_reducible rfl | simp

@[simp] theorem State.aborted_outer (s : State) (c : Nat) (t : Txn) : (State.aborted s c t).outer = s.outer := by
  unfold State.aborted
  (repeat' split) <;> first | with_reducible rfl | simp

@[simp] theorem State.chCtrl_outer (s : State) (c : Nat) (w : Word) : (State.chCtrl s c w).outer = s.outer := by
  unfold State.chCtrl
  extract_lets
  (repeat' split) <;> simp +zetaDelta

@[simp] theorem State.creditAudit_outer (s : State) : (State.creditAudit s).outer = s.outer := by
  simp [State.creditAudit]

@[simp] theorem State.serialAudit_outer (s : State) : (State.serialAudit s).outer = s.outer := by
  simp [State.serialAudit]

/-! ## Machine/OpsRst.lean -/

@[simp] theorem State.extraReset_outer (s : State) : (State.extraReset s).outer = s.outer := by
  simp [State.extraReset]

@[simp] theorem State.resetRequest_outer (s : State) (i : Nat) : (State.resetRequest s i).outer = s.outer := by
  unfold State.resetRequest
  (repeat' split) <;> first | with_reducible rfl | simp

/-! ## Machine/OpsBoot.lean -/

@[simp] theorem State.serialsBack_outer (s : State) : (State.serialsBack s).outer = s.outer := by
  simp [State.serialsBack]

@[simp] theorem State.heldBack_outer (s : State) : (State.heldBack s).outer = s.outer := by
  simp [State.heldBack]

@[simp] theorem State.recoverEvents_outer (s : State) : (State.recoverEvents s).outer = s.outer := by
  simp [State.recoverEvents]

@[simp] theorem State.reportUnresolved_outer (s : State) : (State.reportUnresolved s).outer = s.outer := by
  unfold State.reportUnresolved
  (repeat' split) <;> first | with_reducible rfl | simp

@[simp] theorem State.strandPath_outer (s : State) (keepHandoff : Bool) : (State.strandPath s keepHandoff).outer = s.outer := by
  simp [State.strandPath]

@[simp] theorem State.pendsBack_outer (s : State) : (State.pendsBack s).outer = s.outer := by
  simp [State.pendsBack]

@[simp] theorem State.replay_outer (s : State) : (State.replay s).outer = s.outer := by
  simp [State.replay]

@[simp] theorem State.mendBack_outer (s : State) : (State.mendBack s).outer = s.outer := by
  simp [State.mendBack]

@[simp] theorem State.indexBack_outer (s : State) : (State.indexBack s).outer = s.outer := by
  simp [State.indexBack]

@[simp] theorem State.porFault_outer (s : State) (ev : EvId) : (State.porFault s ev).outer = s.outer := by
  simp [State.porFault]

@[simp] theorem State.pairFail_outer (s : State) : (State.pairFail s).outer = s.outer := by
  simp [State.pairFail]

@[simp] theorem State.operational_outer (s : State) : (State.operational s).outer = s.outer := by
  simp [State.operational]

@[simp] theorem State.startThreads_outer (s : State) : (State.startThreads s).outer = s.outer := by
  simp [State.startThreads]

end Sys2Proof.Machine
end

