-- ==== Sys2Proof/Laws/FrameBus.lean ====
section
/-! SUPPORT. Laws/FrameBus.lean: what the operations of the tick, engine reset, host commands, line clock, Mangle, bus and instructions leave alone: the queue of
commands, the memory windows, the fuses and TSC. -/

namespace Sys2Proof.Machine

/-! ## Machine/GateDrive.lean -/

@[simp] theorem State.chopFault_outer (s : State) (i : Fin 4) (desat : Bool) : (State.chopFault s i desat).outer = s.outer := by
  simp [State.chopFault]

@[simp] theorem State.busTrip_outer (s : State) (i : Nat) : (State.busTrip s i).outer = s.outer := by
  simp [State.busTrip]

/-! ## Machine/OpsTick.lean -/

@[simp] theorem State.rwWrite_outer (s : State) (off : Nat) (w : Word) : (State.rwWrite s off w).outer = s.outer := by
  unfold State.rwWrite
  (repeat' split) <;> first | with_reducible rfl | simp

@[simp] theorem State.psqWrite_outer (s : State) (x : DnWrite) : (State.psqWrite s x).outer = s.outer := by
  unfold State.psqWrite
  (repeat' split) <;> first | with_reducible rfl | simp

@[simp] theorem State.hvsWrite_outer (s : State) (x : DnWrite) : (State.hvsWrite s x).outer = s.outer := by
  unfold State.hvsWrite
  (repeat' split) <;> first | with_reducible rfl | simp

@[simp] theorem State.driveWrite_outer (s : State) (x : DnWrite) : (State.driveWrite s x).outer = s.outer := by
  unfold State.driveWrite
  (repeat' split) <;> first | with_reducible rfl | simp

@[simp] theorem State.refuseCmd_outer (s : State) (h : Nat) : (State.refuseCmd s h).outer = s.outer := by
  simp [State.refuseCmd]

@[simp] theorem State.takeDuty_outer (s : State) (h : Nat) (d : Option Nat) (low : Nat) :
    (State.takeDuty s h d low).outer = s.outer := by
  simp [State.takeDuty]

@[simp] theorem State.driveReset_outer (s : State) : (State.driveReset s).outer = s.outer := by
  unfold State.driveReset State.outer
  simp [*]

@[simp] theorem State.applyFrame_outer (s : State) : (State.applyFrame s).outer = s.outer := by
  unfold State.applyFrame State.outer
  (repeat' split) <;> simp [*]

@[simp] theorem State.chopTick_outer (s : State) (i : Fin 4) : (State.chopTick s i).outer = s.outer := by
  simp [State.chopTick]

@[simp] theorem State.latchUp_outer (s : State) : (State.latchUp s).outer = s.outer := by
  simp [State.latchUp]

@[simp] theorem State.driveTick_outer (s : State) (xcmd : List (Fin 48)) :
    (State.driveTick s xcmd).outer = s.outer := by
  simp [State.driveTick]

@[simp] theorem State.coreTick_outer (s : State) (die : Vector (BitVec 16) 12) : (State.coreTick s die).outer = s.outer := by
  simp [State.coreTick]

@[simp] theorem State.tripsKnown_outer (s : State) (old : SMap Word) : (State.tripsKnown s old).outer = s.outer := by
  simp [State.tripsKnown]

@[simp] theorem State.tripAnswer_outer (s : State) : (State.tripAnswer s).outer = s.outer := by
  simp [State.tripAnswer]

@[simp] theorem State.acKnown_outer (s : State) : (State.acKnown s).outer = s.outer := by
  simp [State.acKnown]

@[simp] theorem State.lenCompare_outer (s : State) : (State.lenCompare s).outer = s.outer := by
  simp [State.lenCompare]

@[simp] theorem State.frameIn_outer (s : State) (ain : Vector Ain 64) (sc : Vector (Vector (Int × Int) 20) 6) :
    (State.frameIn s ain sc).outer = s.outer := by
  simp [State.frameIn]

@[simp] theorem State.frameWake_outer (s : State) : (State.frameWake s).outer = s.outer := by
  simp [State.frameWake]

@[simp] theorem State.coreBridgeLoss_outer (s : State) : (State.coreBridgeLoss s).outer = s.outer := by
  simp [State.coreBridgeLoss]

@[simp] theorem State.driveSafe_outer (s : State) : (State.driveSafe s).outer = s.outer := by
  simp [State.driveSafe]

@[simp] theorem State.frameOut_outer (s : State) : (State.frameOut s).outer = s.outer := by
  simp [State.frameOut]

/-! ## Machine/OpsReset.lean -/

@[simp] theorem State.stopExposure_outer (s : State) : (State.stopExposure s).outer = s.outer := by
  simp [State.stopExposure]

@[simp] theorem State.cancelVintage_outer (s : State) : (State.cancelVintage s).outer = s.outer := by
  unfold State.cancelVintage
  (repeat' split) <;> first | with_reducible rfl | simp

@[simp] theorem State.motNoStart_outer (s : State) : (State.motNoStart s).outer = s.outer := by
  simp [State.motNoStart]

@[simp] theorem State.rinseDrop_outer (s : State) : (State.rinseDrop s).outer = s.outer := by
  simp [State.rinseDrop]

@[simp] theorem State.dropDemands_outer (s : State) : (State.dropDemands s).outer = s.outer := by
  simp [State.dropDemands]

@[simp] theorem State.acceptReset_outer (s : State) (i : Nat) : (State.acceptReset s i).outer = s.outer := by
  simp [State.acceptReset]

@[simp] theorem State.heldEnter_outer (s : State) : (State.heldEnter s).outer = s.outer := by
  simp [State.heldEnter]

@[simp] theorem State.strandStep_outer (s : State) : (State.strandStep s).outer = s.outer := by
  simp [State.strandStep]

@[simp] theorem State.gatesOff_outer (s : State) : (State.gatesOff s).outer = s.outer := by
  simp [State.gatesOff]

@[simp] theorem State.emptyPages_outer (s : State) : (State.emptyPages s).outer = s.outer := by
  simp [State.emptyPages]

@[simp] theorem State.emptyPress_outer (s : State) : (State.emptyPress s).outer = s.outer := by
  simp [State.emptyPress]

@[simp] theorem State.emptyStations_outer (s : State) : (State.emptyStations s).outer = s.outer := by
  simp [State.emptyStations]

@[simp] theorem State.emptyHost_outer (s : State) : (State.emptyHost s).outer = s.outer := by
  unfold State.emptyHost
  extract_lets a b h
  have ha : a.outer = s.outer := by simp [a]
  clear_value a
  have hb : b.outer = a.outer := by simp [b]
  clear_value h b
  rw [State.stallFollow_outer, State.putF_outer, outer_mk]
  exact (outer_eta b).trans (hb.trans ha)

@[simp] theorem State.emptyRack_outer (s : State) : (State.emptyRack s).outer = s.outer := by
  simp [State.emptyRack]

@[simp] theorem State.emptyBoxes_outer (s : State) : (State.emptyBoxes s).outer = s.outer := by
  simp [State.emptyBoxes]

@[simp] theorem State.resetFault_outer (s : State) : (State.resetFault s).outer = s.outer := by
  simp [State.resetFault]

@[simp] theorem State.emptyAll_outer (s : State) : (State.emptyAll s).outer = s.outer := by
  unfold State.emptyAll
  extract_lets a
  have ha : a.outer = s.outer := by simp [a]
  rw [iteS_outer, State.resetFault_outer]
  split
  · exact ha
  · exact (setRst_outer a _).trans ha

/-! ## Machine/Device.lean -/

@[simp] theorem execDevReset_outer (w : Word) (s : State) :
    (State.take s (execDevReset w s)).outer = s.outer := by
  unfold execDevReset
  rw [take_next]
  (repeat' split) <;> simp

@[simp] theorem State.pcieReset_outer (s : State) : (State.pcieReset s).outer = s.outer := by
  simp [State.pcieReset]

/-! ## Machine/Sequencer.lean -/

@[simp] theorem execThreadRestart_outer (port : Port) (w : Word) (s : State) : (State.take s
    (execThreadRestart port w s)).outer = s.outer := by
  unfold execThreadRestart
  rw [take_next]
  (repeat' split) <;> simp

@[simp] theorem execMbiRelease_outer (_port : Port) (m : Fin 8) (w : Word) (s : State) : (State.take s
    (execMbiRelease _port m w s)).outer = s.outer := by
  unfold execMbiRelease
  rw [take_next]
  simp

@[simp] theorem execSeqMboPost_outer (_port : Port) (m : Fin 8) (w : Word) (s : State) : (State.take s
    (execSeqMboPost _port m w s)).outer = s.outer := by
  unfold execSeqMboPost
  rw [take_next]
  simp

@[simp] theorem execMboRelease_outer (_port : Port) (m : Fin 8) (w : Word) (s : State) : (State.take s
    (execMboRelease _port m w s)).outer = s.outer := by
  unfold execMboRelease
  rw [take_next]
  simp

@[simp] theorem State.dbgWrite_outer (s : State) (t : Fin 16) (f : Thread → Thread) :
    (State.dbgWrite s t f).outer = s.outer := by
  simp [State.dbgWrite]

@[simp] theorem execDbgHalt_outer (t : Fin 16) (s : State) : (State.take s (execDbgHalt t s)).outer = s.outer := by
  unfold execDbgHalt
  rw [take_next]
  simp

@[simp] theorem execDbgStep_outer (t : Fin 16) (s : State) : (State.take s (execDbgStep t s)).outer = s.outer := by
  unfold execDbgStep
  rw [take_next]
  simp

@[simp] theorem execDbgResume_outer (t : Fin 16) (s : State) : (State.take s
    (execDbgResume t s)).outer = s.outer := by
  unfold execDbgResume
  rw [take_next]
  simp

/-! ## Machine/HostCmd.lean -/

@[simp] theorem State.dropDoorbell_outer (s : State) : (State.dropDoorbell s).outer = s.outer := by
  simp [State.dropDoorbell]

@[simp] theorem State.readEntries_outer (s : State) (q : Fin 2) (i n : Nat) : (State.readEntries s q i n).outer = s.outer := by
  simp [State.readEntries]

@[simp] theorem State.fetchEntries_outer (s : State) (q : Fin 2) : (State.fetchEntries s q).outer = s.outer := by
  simp [State.fetchEntries]

@[simp] theorem execSqDoorbell_outer (q : Fin 2) (w : Word) (s : State) :
    (State.take s (execSqDoorbell q w s)).outer = s.outer := by
  unfold execSqDoorbell
  rw [take_next]
  (try dsimp only)
  (repeat' split) <;> simp

@[simp] theorem execCqDoorbell_outer (w : Word) (s : State) :
    (State.take s (execCqDoorbell w s)).outer = s.outer := by
  unfold execCqDoorbell
  rw [take_next]
  (try dsimp only)
  (repeat' split) <;> simp

@[simp] theorem execEvrDoorbell_outer (w : Word) (s : State) :
    (State.take s (execEvrDoorbell w s)).outer = s.outer := by
  unfold execEvrDoorbell
  rw [take_next]
  (try dsimp only)
  (repeat' split) <;> simp

@[simp] theorem State.discardPage_outer (s : State) (p : Page) (cid : BitVec 16) :
    (State.discardPage s p cid).outer = s.outer := by
  unfold State.discardPage
  (repeat' split) <;> first | with_reducible rfl | simp

@[simp] theorem State.pairLow_outer (s : State) (lo : Nat) (w : Word) : (State.pairLow s lo w).outer = s.outer := by
  simp [State.pairLow]

@[simp] theorem State.pairHigh_outer (s : State) (lo : Nat) (w : Word) : (State.pairHigh s lo w).outer = s.outer := by
  simp [State.pairHigh]

@[simp] theorem State.ringBase_outer (s : State) (r : Nat) (high : Bool) (w : Word) :
    (State.ringBase s r high w).outer = s.outer := by
  simp [State.ringBase]

@[simp] theorem State.ringSize_outer (s : State) (r : Nat) (w : Word) : (State.ringSize s r w).outer = s.outer := by
  simp [State.ringSize]

@[simp] theorem State.hifCtrl_outer (s : State) (w : Word) : (State.hifCtrl s w).outer = s.outer := by
  simp [State.hifCtrl]

/-! ## Machine/LineClock.lean -/

@[simp] theorem State.bandc_outer (s : State) (i : Fin 6) (rate : Nat) : (State.bandc s i rate).outer = s.outer := by
  simp [State.bandc]

@[simp] theorem State.facetStep_outer (s : State) (i : Fin 6) : (State.facetStep s i).outer = s.outer := by
  simp [State.facetStep]

@[simp] theorem State.lockStep_outer (s : State) (i : Fin 6) (e : Int) (rate : Option Int) :
    (State.lockStep s i e rate).outer = s.outer := by
  unfold State.lockStep
  (repeat' split) <;> first | with_reducible rfl | simp

@[simp] theorem State.bdPhase_outer (s : State) (i : Fin 6) (now : Nat) :
    (State.bdPhase s i now).outer = s.outer := by
  unfold State.bdPhase
  dsimp only
  (repeat' split) <;> simp

@[simp] theorem State.dclkStep_outer (s : State) (i : Fin 6) (now : Nat) :
    (State.dclkStep s i now).outer = s.outer := by
  unfold State.dclkStep
  dsimp only
  (repeat' split) <;> simp

@[simp] theorem execOverspeedClear_outer (port : Port) (st : Fin 6) (s : State) : (State.take s
    (execOverspeedClear port st s)).outer = s.outer := by
  unfold execOverspeedClear
  rw [take_next]
  (repeat' split) <;> simp

/-! ## Machine/Feedback.lean -/

@[simp] theorem execIndexRearm_outer (_port : Port) (c : Fin 18) (w : Word) (s : State) : (State.take s
    (execIndexRearm _port c w s)).outer = s.outer := by
  unfold execIndexRearm
  rw [take_next]
  simp

@[simp] theorem execPositionWrite_outer (_port : Port) (c : Fin 18) (w : Word) (s : State) : (State.take s
    (execPositionWrite _port c w s)).outer = s.outer := by
  unfold execPositionWrite
  rw [take_next]
  simp

@[simp] theorem execProbePop_outer (_port : Port) (p : Fin 8) (w : Word) (s : State) : (State.take s
    (execProbePop _port p w s)).outer = s.outer := by
  unfold execProbePop
  rw [take_next]
  simp

/-! ## Machine/Mangle.lean -/

@[simp] theorem State.stopAxes_outer (s : State) : (State.stopAxes s).outer = s.outer := by
  simp [State.stopAxes]

@[simp] theorem State.axCommand_outer (s : State) (a : Fin 20) (op : Nat) : (State.axCommand s a op).outer = s.outer := by
  simp [State.axCommand]

@[simp] theorem State.axUndefined_outer (s : State) (a : Fin 20) : (State.axUndefined s a).outer = s.outer := by
  simp [State.axUndefined]

@[simp] theorem State.axWrite_outer (s : State) (a : Fin 20) (w : Word) : (State.axWrite s a w).outer = s.outer := by
  simp [State.axWrite]

@[simp] theorem State.limWrite_outer (s : State) (a k : Nat) (w : Word) : (State.limWrite s a k w).outer = s.outer := by
  simp [State.limWrite]

@[simp] theorem State.jamCtrl_outer (s : State) (j : Fin 32) (w : Word) : (State.jamCtrl s j w).outer = s.outer := by
  simp [State.jamCtrl]

@[simp] theorem State.jamMiss_outer (s : State) (j : Fin 32) (out : Nat) : (State.jamMiss s j out).outer = s.outer := by
  simp [State.jamMiss]

@[simp] theorem State.jamEdge_outer (s : State) (n : Nat) (rising : Bool) (ts : Nat) :
    (State.jamEdge s n rising ts).outer = s.outer := by
  unfold State.jamEdge
  (repeat' split) <;> first | with_reducible rfl | simp

/-! ## Machine/Ledger.lean -/

@[simp] theorem State.spoilWrite_outer (s : State) (id : Word) : (State.spoilWrite s id).outer = s.outer := by
  unfold State.spoilWrite
  (repeat' split) <;> first | with_reducible rfl | simp

/-! ## Machine/OpsBus.lean -/

@[simp] theorem State.unmapped_outer (s : State) (off : Nat) : (State.unmapped s off).outer = s.outer := by
  simp [State.unmapped]

@[simp] theorem State.setShadows_outer (s : State) (p : Port) (l : List (Nat × Word)) : (State.setShadows s p l).outer = s.outer := by
  unfold State.setShadows
  (repeat' split) <;> first | with_reducible rfl | simp

@[simp] theorem State.copyHigh_outer (s : State) (p : Port) (off : Nat) : (State.copyHigh s p off).outer = s.outer := by
  simp [State.copyHigh]

@[simp] theorem State.takeHigh_outer (s : State) (p : Port) (off : Nat) : (State.takeHigh s p off).outer = s.outer := by
  simp [State.takeHigh]

@[simp] theorem State.clearRc_outer (s : State) (off : Nat) (m : Word) : (State.clearRc s off m).outer = s.outer := by
  simp [State.clearRc]

@[simp] theorem State.busRead_outer (s : State) (p : Port) (off : Nat) (m : Word) :
    (State.busRead s p off m).outer = s.outer := by
  simp [State.busRead]

@[simp] theorem State.plainWrite_outer (s : State) (off : Nat) (w : Word) : (State.plainWrite s off w).outer = s.outer := by
  unfold State.plainWrite
  (repeat' split) <;> first | with_reducible rfl | simp

@[simp] theorem State.driveBusWrite_outer (s : State) (off : Nat) (w : Word) :
    (State.driveBusWrite s off w).outer = s.outer := by
  unfold State.driveBusWrite
  (repeat' split) <;> first | with_reducible rfl | simp

@[simp] theorem State.dbgOp_outer (s : State) (w : Word) : (State.dbgOp s w).outer = s.outer := by
  unfold State.dbgOp
  dsimp only
  split <;> simp [execDbgHalt, execDbgStep, execDbgResume]

@[simp] theorem State.writeSeq_outer (s : State) (p : Port) (off : Nat) (w : Word) : (State.writeSeq s p off w).outer = s.outer := by
  unfold State.writeSeq
  (repeat' split) <;> simp

@[simp] theorem State.writeHif_outer (s : State) (off : Nat) (w : Word) : (State.writeHif s off w).outer = s.outer := by
  unfold State.writeHif
  (repeat' split) <;> simp

@[simp] theorem State.writeExl_outer (s : State) (p : Port) (off : Nat) (w : Word) : (State.writeExl s p off w).outer = s.outer := by
  unfold State.writeExl
  (repeat' split) <;> simp

@[simp] theorem State.writeCle_outer (s : State) (off : Nat) (w : Word) : (State.writeCle s off w).outer = s.outer := by
  unfold State.writeCle
  (repeat' split) <;> first | with_reducible rfl | simp

@[simp] theorem State.writeMov_outer (s : State) (off : Nat) (w : Word) : (State.writeMov s off w).outer = s.outer := by
  unfold State.writeMov
  (repeat' split) <;> first | with_reducible rfl | simp

@[simp] theorem State.writeFbk_outer (s : State) (p : Port) (off : Nat) (w : Word) : (State.writeFbk s p off w).outer = s.outer := by
  unfold State.writeFbk
  (repeat' split) <;> simp

@[simp] theorem State.writeChn_outer (s : State) (off : Nat) (w : Word) : (State.writeChn s off w).outer = s.outer := by
  unfold State.writeChn
  (repeat' split) <;> first | with_reducible rfl | simp

@[simp] theorem State.writeLdg_outer (s : State) (off : Nat) (w : Word) : (State.writeLdg s off w).outer = s.outer := by
  simp [State.writeLdg]

/-! ## Machine/Chain.lean -/

@[simp] theorem State.conflictFollow_outer (s : State) (p : Fin 2) : (State.conflictFollow s p).outer = s.outer := by
  simp [State.conflictFollow]

/-! ## Machine/Heat.lean -/

@[simp] theorem State.setMains_outer (s : State) (x : Mains) : (State.setMains s x).outer = s.outer := by
  simp [State.setMains]

@[simp] theorem State.burst_outer (s : State) (h : Fin 4) : (State.burst s h).outer = s.outer := by
  simp [State.burst]

@[simp] theorem State.phaseFire_outer (s : State) (h : Fin 4) : (State.phaseFire s h).outer = s.outer := by
  simp [State.phaseFire]

/-! ## Machine/OuvtaFloat.lean -/

@[simp] theorem State.fpu_outer (s : State) (t : Fin 16) (fd fs1 fs2 : Fin 8) (c : Nat) (op : F32 → F32 → F32) : (State.fpu s t fd fs1 fs2 c op).outer = s.outer := by
  simp [State.fpu]

@[simp] theorem State.fpu1_outer (s : State) (t : Fin 16) (fd fs1 : Fin 8) (c : Nat) (op : F32 → F32) : (State.fpu1 s t fd fs1 c op).outer = s.outer := by
  simp [State.fpu1]

@[simp] theorem State.fcmp_outer (s : State) (t rd : Fin 16) (fs1 fs2 : Fin 8) (op : F32 → F32 → Bool) : (State.fcmp s t rd fs1 fs2 op).outer = s.outer := by
  simp [State.fcmp]

/-! ## Machine/OuvtaInt.lean -/

@[simp] theorem State.alu_outer (s : State) (t rd rs1 rs2 : Fin 16) (c : Nat) (op : Word → Word → Word) : (State.alu s t rd rs1 rs2 c op).outer = s.outer := by
  simp [State.alu]

@[simp] theorem State.aluK_outer (s : State) (t rd rs1 : Fin 16) (k : Word) (op : Word → Word → Word) : (State.aluK s t rd rs1 k op).outer = s.outer := by
  simp [State.aluK]

@[simp] theorem State.branch_outer (s : State) (t rs1 rs2 : Fin 16) (imm : BitVec 18) (cond : Word → Word → Bool) : (State.branch s t rs1 rs2 imm cond).outer = s.outer := by
  unfold State.branch
  split <;> simp

/-! ## Machine/OuvtaLedger.lean -/

@[simp] theorem State.notPicked_outer (s : State) (t rd : Fin 16) (aux : Nat) :
    (State.notPicked s t rd aux).outer = s.outer := by
  simp [State.notPicked]

@[simp] theorem State.picked_outer (s : State) (t rd : Fin 16) (p : Page) (sheet : Word) :
    (State.picked s t rd p sheet).outer = s.outer := by
  simp [State.picked]

@[simp] theorem State.pick_outer (s : State) (t rd rs1 rs2 : Fin 16) : (State.pick s t rd rs1 rs2).outer = s.outer := by
  unfold State.pick
  extract_lets
  (repeat' split) <;> simp +zetaDelta

@[simp] theorem State.ldgmDo_outer (s : State) (sh : Sheet) (d : Dest) (o : Bool) (own : Fin 16) :
    (State.ldgmDo s sh d o own).outer = s.outer := by
  unfold State.ldgmDo
  (repeat' split) <;> first | with_reducible rfl | simp

/-! ## Machine/OuvtaMem.lean -/

@[simp] theorem State.eccCount_outer (s : State) (e : Ecc) : (State.eccCount s e).outer = s.outer := by
  simp [State.eccCount]

@[simp] theorem State.load_outer (s : State) (t rs1 : Fin 16) (imm : BitVec 18) (n : Nat) (ecc : Ecc) (put : State → Nat → State)
    (h : ∀ a v, (put a v).outer = a.outer) : (State.load s t rs1 imm n ecc put).outer = s.outer := by
  unfold State.load
  dsimp only
  (repeat' split) <;> simp [h]

/-! ## Machine/Clock.lean -/

@[simp] theorem State.stall_outer (s : State) (n : Nat) : (State.stall s n).outer = s.outer := by
  simp [State.stall]

@[simp] theorem State.overAtEnd_outer (s : State) (n : Nat) : (State.overAtEnd s n).outer = s.outer := by
  simp [State.overAtEnd]

end Sys2Proof.Machine
end

