-- ==== Sys2Proof/Laws/FrameWriters.lean ====
section
/-! SUPPORT. Laws/FrameWriters.lean: the operations that write a memory window, fill all of them from an image or clear them,
burn a fuse or move TSC: each leaves the queue of commands alone and keeps the memories canonical. -/

namespace Sys2Proof.Machine

/-- From `s` to `t` the queue of commands stays, and canonical memories stay canonical. -/
def State.Keeps (s t : State) : Prop := t.pending = s.pending ∧ (s.mem.wf = true → t.mem.wf = true)

theorem State.Keeps.refl (s : State) : s.Keeps s := ⟨rfl, id⟩

theorem State.Keeps.trans {s t u : State} (h : s.Keeps t) (k : t.Keeps u) : s.Keeps u := ⟨k.1.trans h.1, fun w => k.2 (h.2 w)⟩

/-- An operation of the Frame files keeps both. -/
theorem State.Keeps.of_outer {s t : State} (h : t.outer = s.outer) : s.Keeps t :=
  ⟨pending_of_outer h, fun w => (mem_of_outer h).symm ▸ w⟩

/-- What follows a keeping operation and leaves both alone. -/
theorem State.Keeps.then {s t u : State} (h : s.Keeps t) (k : u.outer = t.outer) : s.Keeps u := h.trans (.of_outer k)

theorem State.Keeps.of_mem {s t : State} (hp : t.pending = s.pending) (hm : t.mem = s.mem) : s.Keeps t := ⟨hp, fun w => hm ▸ w⟩

theorem State.foldl_keeps {α : Type} (l : List α) (f : State → α → State) (s : State) (h : ∀ (a : State) x, a.Keeps (f a x)) :
    s.Keeps (l.foldl f s) := by
  induction l generalizing s with
  | nil => exact .refl s
  | cons x r ih => exact (h s x).trans (ih (f s x))

theorem State.each_keeps {α : Type} (s : State) (l : List α) (f : State → α → State) (h : ∀ (a : State) x, a.Keeps (f a x)) :
    s.Keeps (s.each l f) := State.foldl_keeps l f s h

theorem State.forEach_keeps (s : State) (n : Nat) (f : State → Nat → State) (h : ∀ (a : State) x, a.Keeps (f a x)) :
    s.Keeps (s.forEach n f) := State.foldl_keeps _ f s h

/-! ## Sequencer memory -/

theorem State.dmemWrite_keeps (s : State) (a n v : Nat) : s.Keeps (s.dmemWrite a n v) := by
  refine ⟨rfl, fun w => ?_⟩
  rw [Mem.wf_iff] at w ⊢
  exact ⟨w.1, wrLe_wf _ _ _ w.2.1, w.2.2⟩

theorem putBytes_wf {m : List Host.Cell} (l : List (Nat × Byte)) (w : cellsWf m) : cellsWf (putBytes m l) := by
  unfold putBytes
  induction l generalizing m with
  | nil => exact w
  | cons x r ih => exact ih (wrByte_wf _ _ w)

theorem State.serveAcc_keeps (s : State) (h : HostAcc) : s.Keeps (s.serveAcc h) := by
  unfold State.serveAcc
  extract_lets a b
  have hb : s.Keeps b := .of_mem rfl rfl
  clear_value b
  split
  · exact hb
  · split
    · refine (hb).trans (State.Keeps.then (t := { b with mem := { b.mem with pmem := putBytes b.mem.pmem h.write } })
        ⟨rfl, fun w => ?_⟩ (State.markUnsigned_outer _))
      rw [Mem.wf_iff] at w ⊢
      exact ⟨putBytes_wf _ w.1, w.2⟩
    · refine hb.trans ⟨rfl, fun w => ?_⟩
      rw [Mem.wf_iff] at w ⊢
      exact ⟨w.1, putBytes_wf _ w.2.1, w.2.2⟩

theorem serveMem_keeps (q : List HostAcc) (s : State) : s.Keeps (serveMem q s) := by
  induction q generalizing s with
  | nil => exact .of_mem rfl rfl
  | cons h r ih =>
    unfold serveMem
    dsimp only
    split
    · exact (s.serveAcc_keeps h).trans (ih _)
    · split
      · exact (s.serveAcc_keeps _).trans (.of_mem rfl rfl)
      · exact .of_mem rfl rfl

theorem State.hostMem_keeps (s : State) (h : HostAcc) : s.Keeps (s.hostMem h) := by
  unfold State.hostMem
  dsimp only
  split
  · exact serveMem_keeps _ s
  · exact .of_mem rfl rfl

theorem State.pmemWrite_keeps (s : State) (l : List (Nat × Byte)) : s.Keeps (s.pmemWrite l) := by
  unfold State.pmemWrite
  split
  · exact s.hostMem_keeps _
  · exact .of_outer (by simp)

theorem State.dmemHostWrite_keeps (s : State) (l : List (Nat × Byte)) : s.Keeps (s.dmemHostWrite l) := by
  unfold State.dmemHostWrite
  split
  · exact s.hostMem_keeps _
  · exact .of_outer (by simp)

/-- A read of sequencer memory waits in the queue of host accesses, and serving it moves on what waits before it. -/
theorem State.hostRead_keeps (s : State) (addr : Nat) (en : BitVec 4) (off : Nat) : s.Keeps (s.hostRead addr en off) := by
  unfold State.hostRead
  dsimp only
  split
  · exact s.hostMem_keeps _
  · exact s.hostMem_keeps _
  · exact .of_outer (by simp)

theorem State.busReads_keeps (s : State) (p : Port) (addr : Nat) (en : BitVec 4) : s.Keeps (s.busReads p addr en) := by
  unfold State.busReads
  dsimp only
  split
  · exact (State.Keeps.of_mem (s := s) (t := { s with host := { s.host with readData := [] } }) rfl rfl).trans
      (State.each_keeps _ _ _ fun a o => a.hostRead_keeps _ _ _)
  · exact .of_outer (by simp)

theorem State.perform_keeps (s : State) (t : Fin 16) (c : Nat) (run : State → State) (h : ∀ a : State, a.Keeps (run a)) :
    s.Keeps (s.perform t c run) := by
  unfold State.perform
  split
  · exact (State.Keeps.of_outer (State.charge_outer s t c)).trans ((h (s.charge t c)).then (State.setPc_outer _ _ _))
  · exact .refl s

theorem State.store_keeps (s : State) (t rs1 : Fin 16) (imm : BitVec 18) (n : Nat) (v : Word) :
    s.Keeps (s.store t rs1 imm n v) := by
  unfold State.store
  dsimp only
  split
  · exact .of_outer (by simp)
  · exact s.perform_keeps _ _ _ fun a => a.dmemWrite_keeps _ _ _

/-! ## The windows -/

theorem State.take_keeps (s : State) (r : Res) (h : ∀ t, r = .next t → s.Keeps t) : s.Keeps (s.take r) := by
  unfold State.take
  split
  · exact h _ rfl
  · exact .refl s

theorem State.putRcTable_keeps (s : State) (c k : Nat) (v : F32) : s.Keeps (s.putRcTable c k v) := by
  refine ⟨rfl, fun w => ?_⟩
  rw [Mem.wf_iff] at w ⊢
  exact ⟨w.1, w.2.1, wrLe_wf _ _ _ w.2.2.1, w.2.2.2⟩

theorem State.windowWrite_keeps (s : State) (x : Window) (l : List (Nat × Byte)) : s.Keeps (s.windowWrite x l) := by
  unfold State.windowWrite
  cases x with
  | pmem => exact s.pmemWrite_keeps l
  | dmem => exact s.dmemHostWrite_keeps l
  | coef =>
    refine ⟨rfl, fun w => ?_⟩
    rw [Mem.wf_iff] at w ⊢
    exact ⟨w.1, w.2.1, putBytes_wf _ w.2.2.1, w.2.2.2⟩
  | expo =>
    refine ⟨rfl, fun w => ?_⟩
    rw [Mem.wf_iff] at w ⊢
    exact ⟨w.1, w.2.1, w.2.2.1, putBytes_wf _ w.2.2.2.1, w.2.2.2.2⟩
  | capture =>
    refine ⟨rfl, fun w => ?_⟩
    rw [Mem.wf_iff] at w ⊢
    exact ⟨w.1, w.2.1, w.2.2.1, w.2.2.2.1, putBytes_wf _ w.2.2.2.2⟩

theorem State.setFuse_keeps (s : State) (f : Fuses) : s.Keeps (s.setFuse f) :=
  (State.Keeps.of_mem (t := { s with fuse := f }) rfl rfl).then (State.fuseFollow_outer _)

theorem State.rootRevoke_keeps (s : State) (w : Word) : s.Keeps (s.rootRevoke w) := by
  unfold State.rootRevoke
  dsimp only
  split
  · exact .refl s
  · split
    · exact s.setFuse_keeps _
    · exact .refl s

theorem State.secProv_keeps (s : State) (op : Nat) (slot : Fin 4) (key : Nat) (readback : Bool) :
    s.Keeps (s.secProv op slot key readback) := by
  have burnt : ∀ (a : State) f r, a.Keeps ((a.setFuse f).putF F.SEC_PROV_RESULT_RESULT r) := fun a f r =>
    (a.setFuse_keeps f).then (State.putF_outer _ _ _)
  have drawn : ∀ f r, s.Keeps ((s.drew.setFuse f).putF F.SEC_PROV_RESULT_RESULT r) := fun f r =>
    (State.Keeps.of_outer (State.drew_outer s)).trans (burnt _ f r)
  have no : s.Keeps (s.refuse R.SEC_PROV) := .of_outer (State.refuse_outer ..)
  have result : ∀ r, s.Keeps (s.putF F.SEC_PROV_RESULT_RESULT r) := fun r => .of_outer (State.putF_outer ..)
  unfold State.secProv
  dsimp only
  split
  · exact no
  · split
    · split
      · exact no
      · split
        · exact result 3
        · split
          · exact drawn _ _
          · exact drawn _ _
    · split
      · split
        · exact no
        · split
          · exact burnt _ _ _
          · exact result 2
      · split
        · split
          · exact no
          · split
            · exact burnt _ _ _
            · exact result 2
        · exact no

theorem State.regWrite_keeps (s : State) (p : Port) (off : Nat) (w : Word) : s.Keeps (s.regWrite p off w) := by
  have sec : s.Keeps (s.writeSec off w) := by
    unfold State.writeSec
    split
    · exact (State.Keeps.of_outer (State.drew_outer s)).trans (State.secProv_keeps _ _ _ _ _)
    · split
      · exact s.rootRevoke_keeps w
      · refine .of_outer ?_
        (repeat' split) <;> simp
  unfold State.regWrite
  split <;> first | exact sec | (refine .of_outer ?_; (repeat' split) <;> simp)

theorem State.busWrite_keeps (s : State) (p : Port) (addr : Nat) (en : BitVec 4) (w : Word) :
    s.Keeps (s.busWrite p addr en w) := by
  unfold State.busWrite
  extract_lets a l b
  have hb : s.Keeps b := by
    simp only [b]
    cases l with
    | nil => exact .refl s
    | cons x r => exact s.windowWrite_keeps _ _
  clear_value b
  refine hb.trans (State.each_keeps _ _ _ fun c x => ?_)
  split
  · exact .refl c
  · split
    · exact .of_outer (by simp)
    · split
      · exact c.regWrite_keeps _ _ _
      · exact .refl c

/-! ## Repetitive controllers -/

theorem State.rcEval_keeps (s : State) (c : Nat) (fresh : Bool) : s.Keeps (s.rcEval c fresh) := by
  unfold State.rcEval
  extract_lets f dropped st outOk slot learnOk k u ch s1 s2 s3 s4 lim t
  have h4 : s4.outer = s.outer := by
    simp only [s4]
    cases st <;> simp +zetaDelta
  clear_value s4 st
  split
  · exact (State.Keeps.of_outer h4).trans (State.putRcTable_keeps _ _ _ _)
  · exact .of_outer h4

/-! ## A vintage takes force -/

theorem State.loadParts_keeps (s : State) (img : Image) : s.Keeps (s.loadParts img) := by
  refine ⟨rfl, fun w => ?_⟩
  rw [Mem.wf_iff] at w ⊢
  exact ⟨ofImage_wf _, ofImage_wf _, ofImage_wf _, ofImage_wf _, w.2.2.2.2⟩

theorem State.wholeSwitch_keeps (s : State) (job : ApplyJob) (img : Image) : s.Keeps (s.wholeSwitch job img) := by
  unfold State.wholeSwitch
  extract_lets ports psq v a geom links a1 a2 a3 a4 a5 a6 a7
  have ha : s.Keeps a := (State.Keeps.of_outer (State.setVin_outer s _)).trans (State.loadParts_keeps _ img)
  have h5 : a6.outer = a.outer := by simp [a6, a5, a4, a3, a2, a1]
  have h6 : a7.outer = a6.outer := by simp [a7]
  clear_value a a6 a7
  exact ha.then ((by simp +zetaDelta [h6, h5]) : _)

/-! ## Power -/

theorem State.carry_keeps (s : State) (keep : Nat → Bool) (psq : Super) (nvm : Nvm) (inflight : List (Nat × JEntry)) :
    s.Keeps (s.carry State.reset keep psq nvm inflight) := ⟨rfl, fun _ => reset_mem_wf⟩

theorem State.restart_keeps (s : State) (keep : Nat → Bool) (psq : Super) (inflight lost : List (Nat × JEntry)) :
    s.Keeps (s.restart keep psq inflight lost) := by
  unfold State.restart
  exact (s.carry_keeps _ _ _ _).then (State.fuseFollow_outer _)

theorem State.coreLost_keeps (s : State) : s.Keeps s.coreLost := by
  unfold State.coreLost
  exact (s.restart_keeps _ _ _ _).then (State.putF_outer _ _ _)

theorem State.coreFollow_keeps (s : State) : s.Keeps s.coreFollow := by
  unfold State.coreFollow
  split
  · exact s.coreLost_keeps
  · exact .refl s

theorem State.railFailed_keeps (s : State) (r : Nat) : s.Keeps (s.railFailed r) := by
  unfold State.railFailed
  extract_lets
  refine ((State.Keeps.of_outer ?_).trans (State.coreFollow_keeps _)).then (State.standbyFollow_outer _)
  simp +zetaDelta

theorem State.railSequence_keeps (s : State) : s.Keeps s.railSequence := by
  unfold State.railSequence
  extract_lets
  refine ((State.Keeps.of_outer ?_).trans (State.coreFollow_keeps _)).then (State.standbyFollow_outer _)
  simp +zetaDelta

theorem State.railIsOff_keeps (s : State) (r : Nat) : s.Keeps (s.railIsOff r) := by
  unfold State.railIsOff
  extract_lets a b
  have hb : b.outer = s.outer := by
    simp only [b]
    split <;> simp [a]
  clear_value b
  exact ((State.Keeps.of_outer hb).trans (State.coreFollow_keeps _)).then (State.standbyFollow_outer _)

theorem State.shutOff_keeps (s : State) (cause r : Nat) (above : Bool) : s.Keeps (s.shutOff cause r above) := by
  unfold State.shutOff
  extract_lets
  refine ((State.Keeps.of_outer ?_).trans (State.coreFollow_keeps _)).then (State.standbyFollow_outer _)
  simp +zetaDelta

/-! ## The clock -/

theorem State.setTsc_keeps (s : State) (t : BitVec 64) : s.Keeps (s.setTsc t) := by
  unfold State.setTsc
  split
  · exact .refl s
  · dsimp only
    split
    · have h : s.keepRefs.acFreeze.outer = s.outer := by simp
      exact (State.Keeps.of_outer h).trans (.of_mem rfl rfl)
    · exact .of_mem rfl rfl

theorem State.nextTick_keeps (s : State) : s.Keeps s.nextTick :=
  (State.Keeps.of_outer (State.issueAll_outer s)).trans (State.setTsc_keeps _ _)

theorem State.cycleBegins_keeps (s : State) : s.Keeps s.cycleBegins := by
  unfold State.cycleBegins
  extract_lets a
  have ha : s.Keeps a := .of_outer (by
    simp only [a]
    split
    · simp
    · split <;> simp)
  clear_value a
  split
  · exact ha.trans (serveMem_keeps _ _)
  · exact ha

end Sys2Proof.Machine
end

