-- ==== Sys2Proof/Laws/Ouvta.lean ====
section
/-! SUPPORT. Laws/Ouvta.lean: the fields of an encoded Ouvta word are the fields it was made from (Table 4-1), and a word is made of
its fields. -/

namespace Sys2Proof.Machine

variable (op : BitVec 6) (a b c : BitVec 4) (fn : BitVec 14) (imm : BitVec 18) (wide : BitVec 22) (w : Word)

@[simp] theorem ouOp_fmtA : ouOp (fmtA op a b c fn) = op := by
  apply BitVec.eq_of_toNat_eq
  simp only [ouOp, fmtA, BitVec.toNat_ofNat]
  omega

@[simp] theorem ouA_fmtA : ouA (fmtA op a b c fn) = a := by
  apply BitVec.eq_of_toNat_eq
  simp only [ouA, fmtA, BitVec.toNat_ofNat]
  omega

@[simp] theorem ouB_fmtA : ouB (fmtA op a b c fn) = b := by
  apply BitVec.eq_of_toNat_eq
  simp only [ouB, fmtA, BitVec.toNat_ofNat]
  omega

@[simp] theorem ouC_fmtA : ouC (fmtA op a b c fn) = c := by
  apply BitVec.eq_of_toNat_eq
  simp only [ouC, fmtA, BitVec.toNat_ofNat]
  omega

@[simp] theorem ouFn_fmtA : ouFn (fmtA op a b c fn) = fn := by
  apply BitVec.eq_of_toNat_eq
  simp only [ouFn, fmtA, BitVec.toNat_ofNat]
  omega

@[simp] theorem ouOp_fmtK : ouOp (fmtK op a b imm) = op := by
  apply BitVec.eq_of_toNat_eq
  simp only [ouOp, fmtK, BitVec.toNat_ofNat]
  omega

@[simp] theorem ouA_fmtK : ouA (fmtK op a b imm) = a := by
  apply BitVec.eq_of_toNat_eq
  simp only [ouA, fmtK, BitVec.toNat_ofNat]
  omega

@[simp] theorem ouB_fmtK : ouB (fmtK op a b imm) = b := by
  apply BitVec.eq_of_toNat_eq
  simp only [ouB, fmtK, BitVec.toNat_ofNat]
  omega

@[simp] theorem ouImm_fmtK : ouImm (fmtK op a b imm) = imm := by
  apply BitVec.eq_of_toNat_eq
  simp only [ouImm, fmtK, BitVec.toNat_ofNat]
  omega

@[simp] theorem ouOp_fmtW : ouOp (fmtW op a wide) = op := by
  apply BitVec.eq_of_toNat_eq
  simp only [ouOp, fmtW, BitVec.toNat_ofNat]
  omega

@[simp] theorem ouA_fmtW : ouA (fmtW op a wide) = a := by
  apply BitVec.eq_of_toNat_eq
  simp only [ouA, fmtW, BitVec.toNat_ofNat]
  omega

@[simp] theorem ouWide_fmtW : ouWide (fmtW op a wide) = wide := by
  apply BitVec.eq_of_toNat_eq
  simp only [ouWide, fmtW, BitVec.toNat_ofNat]
  omega

theorem fmtA_fields : fmtA (ouOp w) (ouA w) (ouB w) (ouC w) (ouFn w) = w := by
  apply BitVec.eq_of_toNat_eq
  simp only [ouOp, ouA, ouB, ouC, ouFn, fmtA, BitVec.toNat_ofNat]
  omega

theorem fmtK_fields : fmtK (ouOp w) (ouA w) (ouB w) (ouImm w) = w := by
  apply BitVec.eq_of_toNat_eq
  simp only [ouOp, ouA, ouB, ouImm, fmtK, BitVec.toNat_ofNat]
  omega

theorem fmtW_fields : fmtW (ouOp w) (ouA w) (ouWide w) = w := by
  apply BitVec.eq_of_toNat_eq
  simp only [ouOp, ouA, ouWide, fmtW, BitVec.toNat_ofNat]
  omega

/-! ## Register fields -/

@[simp] theorem xReg_regField (i : Fin 16) : xReg (regField i) = i := by
  apply Fin.ext
  simp only [xReg, regField, BitVec.toNat_ofNat, Fin.val_ofNat]
  omega

@[simp] theorem fReg_regField (i : Fin 8) : fReg (regField i) = some i := by
  have : (regField i).toNat = i.val := by
    simp only [regField, BitVec.toNat_ofNat]
    omega
  simp only [fReg, this, i.isLt, if_true, Option.some.injEq]
  apply Fin.ext
  simp

@[simp] theorem regField_xReg (x : BitVec 4) : regField (xReg x) = x := by
  apply BitVec.eq_of_toNat_eq
  simp only [regField, xReg, BitVec.toNat_ofNat, Fin.val_ofNat]
  omega

theorem regField_fReg {x : BitVec 4} {i : Fin 8} (h : fReg x = some i) : regField i = x := by
  unfold fReg at h
  split at h
  · cases h
    apply BitVec.eq_of_toNat_eq
    simp only [regField, BitVec.toNat_ofNat, Fin.val_ofNat]
    omega
  · cases h

end Sys2Proof.Machine
end

