-- ==== Sys2Proof/Laws/Seq.lean ====
section
/-! SUPPORT. Laws/Seq.lean: what the shared operations of instruction issue do, said once each. -/

namespace Sys2Proof.Machine

theorem charge_eq (s : State) (t : Fin 16) (c : Nat) :
    s.charge t c = s.granted t ((s.thr t).retire c (s.thr t).pc) := rfl

@[simp] theorem thr_granted (s : State) (t : Fin 16) (h : Thread) : (s.granted t h).thr t = h := by
  simp [State.thr, State.granted]

theorem setThr_granted (s : State) (t : Fin 16) (h g : Thread) : (s.granted t h).setThr t g = s.granted t g := by
  simp [State.setThr, State.granted]

/-- An instruction whose effect is a change of its own thread, leaving the fields of issue alone, retires: it is charged, its
effect is there, the PC has advanced, and nothing else has changed. -/
theorem perform_retire (s : State) (t : Fin 16) (c : Nat) (f : Thread → Thread) (run : State → State) (h : s.ready t c)
    (hr : run (s.charge t c) = s.granted t (f ((s.charge t c).thr t)))
    (hf : { f ((s.charge t c).thr t) with pc := (s.thr t).pc + 1 } = (f (s.thr t)).retire c ((s.thr t).pc + 1)) :
    s.perform t c run = s.granted t ((f (s.thr t)).retire c ((s.thr t).pc + 1)) := by
  unfold State.perform
  rw [if_pos h.1, hr, State.setPc, if_pos h.2, setThr_granted, thr_granted, hf]

/-- A control transfer within program memory retires at its target. -/
theorem performTo_retire (s : State) (t : Fin 16) (c d : Nat) (f : Thread → Thread) (run : State → State)
    (h : s.canIssue t c = true) (hd : d < 65536)
    (hr : run (s.charge t c) = s.granted t (f ((s.charge t c).thr t)))
    (hf : { f ((s.charge t c).thr t) with pc := d } = (f (s.thr t)).retire c d) :
    s.performTo t c d run = s.granted t ((f (s.thr t)).retire c d) := by
  unfold State.performTo
  rw [if_pos h, hr, State.setPc, if_pos hd, setThr_granted, thr_granted, hf]

theorem wx_charge (s : State) (t : Fin 16) (c : Nat) (i : Fin 16) (v : Word) :
    (s.charge t c).wx t i v = s.granted t (((s.charge t c).thr t).wx i v) := by
  rw [State.wx, charge_eq, setThr_granted, thr_granted]

theorem wf_charge (s : State) (t : Fin 16) (c : Nat) (i : Fin 8) (v : F32) :
    (s.charge t c).wf t i v = s.granted t (((s.charge t c).thr t).wf i v) := by
  rw [State.wf, charge_eq, setThr_granted, thr_granted]

@[simp] theorem rx_charge (s : State) (t : Fin 16) (c : Nat) (u i : Fin 16) : (s.charge t c).rx u i = s.rx u i := by
  by_cases h : u = t
  · subst h
    simp [State.rx, Thread.rx, charge_eq, Thread.retire]
  · have : (t : Nat) ≠ (u : Nat) := fun e => h (Fin.ext e.symm)
    simp [State.rx, charge_eq, State.granted, State.thr, this]

@[simp] theorem rf_charge (s : State) (t : Fin 16) (c : Nat) (u : Fin 16) (i : Fin 8) : (s.charge t c).rf u i = s.rf u i := by
  by_cases h : u = t
  · subst h
    simp [State.rf, Thread.rf, charge_eq, Thread.retire]
  · have : (t : Nat) ≠ (u : Nat) := fun e => h (Fin.ext e.symm)
    simp [State.rf, charge_eq, State.granted, State.thr, this]

/-- An instruction that writes one x register (R72, R79). -/
theorem perform_wx (s : State) (t : Fin 16) (c : Nat) (rd : Fin 16) (v : State → Word) (h : s.ready t c) :
    s.perform t c (fun a => a.wx t rd (v a)) =
      s.granted t (((s.thr t).wx rd (v (s.charge t c))).retire c ((s.thr t).pc + 1)) := by
  refine perform_retire s t c (fun g => g.wx rd (v (s.charge t c))) _ h (wx_charge ..) ?_
  rw [charge_eq, thr_granted]
  by_cases hr : rd = 0 <;> simp [Thread.wx, hr, Thread.retire]

/-- An instruction that writes one f register. -/
theorem perform_wf (s : State) (t : Fin 16) (c : Nat) (fd : Fin 8) (v : State → F32) (h : s.ready t c) :
    s.perform t c (fun a => a.wf t fd (v a)) =
      s.granted t (((s.thr t).wf fd (v (s.charge t c))).retire c ((s.thr t).pc + 1)) := by
  refine perform_retire s t c (fun g => g.wf fd (v (s.charge t c))) _ h (wf_charge ..) ?_
  rw [charge_eq, thr_granted]
  simp [Thread.wf, Thread.retire]

/-- An instruction without an effect of its own. -/
theorem perform_id (s : State) (t : Fin 16) (c : Nat) (h : s.ready t c) :
    s.perform t c id = s.granted t ((s.thr t).retire c ((s.thr t).pc + 1)) := by
  refine perform_retire s t c id _ h ?_ ?_
  · rw [charge_eq]
    simp
  · rw [charge_eq]
    simp [Thread.retire]

/-- An instruction that a thread may not issue does nothing. -/
theorem perform_not (s : State) (t : Fin 16) (c : Nat) (run : State → State) (h : s.canIssue t c = false) :
    s.perform t c run = s := by
  rw [State.perform, h]
  rfl

end Sys2Proof.Machine
end

