-- ==== Sys2Proof/Laws/State.lean ====
section
/-! SUPPORT. Laws/State.lean: what each named update of State leaves as it was, one lemma for each update and field (and for the reads of
register words, fields and threads), so that no proof unfolds a record update. -/

namespace Sys2Proof.Machine

/-! ## putR -/

@[simp] theorem State.putR_pending (s : State) (off : Nat) (w : Word) : (s.putR off w).pending = s.pending := rfl
@[simp] theorem State.putR_tsc (s : State) (off : Nat) (w : Word) : (s.putR off w).tsc = s.tsc := rfl
@[simp] theorem State.putR_stage (s : State) (off : Nat) (w : Word) : (s.putR off w).stage = s.stage := rfl
@[simp] theorem State.putR_up (s : State) (off : Nat) (w : Word) : (s.putR off w).up = s.up := rfl
@[simp] theorem State.putR_low (s : State) (off : Nat) (w : Word) : (s.putR off w).low = s.low := rfl
@[simp] theorem State.putR_shadow (s : State) (off : Nat) (w : Word) : (s.putR off w).shadow = s.shadow := rfl
@[simp] theorem State.putR_freeCtr (s : State) (off : Nat) (w : Word) : (s.putR off w).freeCtr = s.freeCtr := rfl
@[simp] theorem State.putR_mem (s : State) (off : Nat) (w : Word) : (s.putR off w).mem = s.mem := rfl
@[simp] theorem State.putR_seq (s : State) (off : Nat) (w : Word) : (s.putR off w).seq = s.seq := rfl
@[simp] theorem State.putR_ev (s : State) (off : Nat) (w : Word) : (s.putR off w).ev = s.ev := rfl
@[simp] theorem State.putR_led (s : State) (off : Nat) (w : Word) : (s.putR off w).led = s.led := rfl
@[simp] theorem State.putR_jr (s : State) (off : Nat) (w : Word) : (s.putR off w).jr = s.jr := rfl
@[simp] theorem State.putR_host (s : State) (off : Nat) (w : Word) : (s.putR off w).host = s.host := rfl
@[simp] theorem State.putR_rck (s : State) (off : Nat) (w : Word) : (s.putR off w).rck = s.rck := rfl
@[simp] theorem State.putR_prs (s : State) (off : Nat) (w : Word) : (s.putR off w).prs = s.prs := rfl
@[simp] theorem State.putR_cel (s : State) (off : Nat) (w : Word) : (s.putR off w).cel = s.cel := rfl
@[simp] theorem State.putR_nvm (s : State) (off : Nat) (w : Word) : (s.putR off w).nvm = s.nvm := rfl
@[simp] theorem State.putR_vin (s : State) (off : Nat) (w : Word) : (s.putR off w).vin = s.vin := rfl
@[simp] theorem State.putR_stn (s : State) (off : Nat) (w : Word) : (s.putR off w).stn = s.stn := rfl
@[simp] theorem State.putR_poly (s : State) (off : Nat) (w : Word) : (s.putR off w).poly = s.poly := rfl
@[simp] theorem State.putR_fbk (s : State) (off : Nat) (w : Word) : (s.putR off w).fbk = s.fbk := rfl
@[simp] theorem State.putR_probes (s : State) (off : Nat) (w : Word) : (s.putR off w).probes = s.probes := rfl
@[simp] theorem State.putR_pulses (s : State) (off : Nat) (w : Word) : (s.putR off w).pulses = s.pulses := rfl
@[simp] theorem State.putR_cmpAt (s : State) (off : Nat) (w : Word) : (s.putR off w).cmpAt = s.cmpAt := rfl
@[simp] theorem State.putR_mot (s : State) (off : Nat) (w : Word) : (s.putR off w).mot = s.mot := rfl
@[simp] theorem State.putR_brg (s : State) (off : Nat) (w : Word) : (s.putR off w).brg = s.brg := rfl
@[simp] theorem State.putR_axis (s : State) (off : Nat) (w : Word) : (s.putR off w).axis = s.axis := rfl
@[simp] theorem State.putR_jam (s : State) (off : Nat) (w : Word) : (s.putR off w).jam = s.jam := rfl
@[simp] theorem State.putR_cle (s : State) (off : Nat) (w : Word) : (s.putR off w).cle = s.cle := rfl
@[simp] theorem State.putR_heat (s : State) (off : Nat) (w : Word) : (s.putR off w).heat = s.heat := rfl
@[simp] theorem State.putR_fuse (s : State) (off : Nat) (w : Word) : (s.putR off w).fuse = s.fuse := rfl
@[simp] theorem State.putR_sec (s : State) (off : Nat) (w : Word) : (s.putR off w).sec = s.sec := rfl
@[simp] theorem State.putR_psq (s : State) (off : Nat) (w : Word) : (s.putR off w).psq = s.psq := rfl
@[simp] theorem State.putR_chn (s : State) (off : Nat) (w : Word) : (s.putR off w).chn = s.chn := rfl
@[simp] theorem State.putR_rst (s : State) (off : Nat) (w : Word) : (s.putR off w).rst = s.rst := rfl
@[simp] theorem State.putR_start (s : State) (off : Nat) (w : Word) : (s.putR off w).start = s.start := rfl
@[simp] theorem State.putR_lost (s : State) (off : Nat) (w : Word) : (s.putR off w).lost = s.lost := rfl
@[simp] theorem State.putR_bootEnded (s : State) (off : Nat) (w : Word) : (s.putR off w).bootEnded = s.bootEnded := rfl

/-! ## putF -/

@[simp] theorem State.putF_pending (s : State) (f : Fld) (v : Nat) : (s.putF f v).pending = s.pending := rfl
@[simp] theorem State.putF_tsc (s : State) (f : Fld) (v : Nat) : (s.putF f v).tsc = s.tsc := rfl
@[simp] theorem State.putF_stage (s : State) (f : Fld) (v : Nat) : (s.putF f v).stage = s.stage := rfl
@[simp] theorem State.putF_up (s : State) (f : Fld) (v : Nat) : (s.putF f v).up = s.up := rfl
@[simp] theorem State.putF_low (s : State) (f : Fld) (v : Nat) : (s.putF f v).low = s.low := rfl
@[simp] theorem State.putF_shadow (s : State) (f : Fld) (v : Nat) : (s.putF f v).shadow = s.shadow := rfl
@[simp] theorem State.putF_freeCtr (s : State) (f : Fld) (v : Nat) : (s.putF f v).freeCtr = s.freeCtr := rfl
@[simp] theorem State.putF_mem (s : State) (f : Fld) (v : Nat) : (s.putF f v).mem = s.mem := rfl
@[simp] theorem State.putF_seq (s : State) (f : Fld) (v : Nat) : (s.putF f v).seq = s.seq := rfl
@[simp] theorem State.putF_ev (s : State) (f : Fld) (v : Nat) : (s.putF f v).ev = s.ev := rfl
@[simp] theorem State.putF_led (s : State) (f : Fld) (v : Nat) : (s.putF f v).led = s.led := rfl
@[simp] theorem State.putF_jr (s : State) (f : Fld) (v : Nat) : (s.putF f v).jr = s.jr := rfl
@[simp] theorem State.putF_host (s : State) (f : Fld) (v : Nat) : (s.putF f v).host = s.host := rfl
@[simp] theorem State.putF_rck (s : State) (f : Fld) (v : Nat) : (s.putF f v).rck = s.rck := rfl
@[simp] theorem State.putF_prs (s : State) (f : Fld) (v : Nat) : (s.putF f v).prs = s.prs := rfl
@[simp] theorem State.putF_cel (s : State) (f : Fld) (v : Nat) : (s.putF f v).cel = s.cel := rfl
@[simp] theorem State.putF_nvm (s : State) (f : Fld) (v : Nat) : (s.putF f v).nvm = s.nvm := rfl
@[simp] theorem State.putF_vin (s : State) (f : Fld) (v : Nat) : (s.putF f v).vin = s.vin := rfl
@[simp] theorem State.putF_stn (s : State) (f : Fld) (v : Nat) : (s.putF f v).stn = s.stn := rfl
@[simp] theorem State.putF_poly (s : State) (f : Fld) (v : Nat) : (s.putF f v).poly = s.poly := rfl
@[simp] theorem State.putF_fbk (s : State) (f : Fld) (v : Nat) : (s.putF f v).fbk = s.fbk := rfl
@[simp] theorem State.putF_probes (s : State) (f : Fld) (v : Nat) : (s.putF f v).probes = s.probes := rfl
@[simp] theorem State.putF_pulses (s : State) (f : Fld) (v : Nat) : (s.putF f v).pulses = s.pulses := rfl
@[simp] theorem State.putF_cmpAt (s : State) (f : Fld) (v : Nat) : (s.putF f v).cmpAt = s.cmpAt := rfl
@[simp] theorem State.putF_mot (s : State) (f : Fld) (v : Nat) : (s.putF f v).mot = s.mot := rfl
@[simp] theorem State.putF_brg (s : State) (f : Fld) (v : Nat) : (s.putF f v).brg = s.brg := rfl
@[simp] theorem State.putF_axis (s : State) (f : Fld) (v : Nat) : (s.putF f v).axis = s.axis := rfl
@[simp] theorem State.putF_jam (s : State) (f : Fld) (v : Nat) : (s.putF f v).jam = s.jam := rfl
@[simp] theorem State.putF_cle (s : State) (f : Fld) (v : Nat) : (s.putF f v).cle = s.cle := rfl
@[simp] theorem State.putF_heat (s : State) (f : Fld) (v : Nat) : (s.putF f v).heat = s.heat := rfl
@[simp] theorem State.putF_fuse (s : State) (f : Fld) (v : Nat) : (s.putF f v).fuse = s.fuse := rfl
@[simp] theorem State.putF_sec (s : State) (f : Fld) (v : Nat) : (s.putF f v).sec = s.sec := rfl
@[simp] theorem State.putF_psq (s : State) (f : Fld) (v : Nat) : (s.putF f v).psq = s.psq := rfl
@[simp] theorem State.putF_chn (s : State) (f : Fld) (v : Nat) : (s.putF f v).chn = s.chn := rfl
@[simp] theorem State.putF_rst (s : State) (f : Fld) (v : Nat) : (s.putF f v).rst = s.rst := rfl
@[simp] theorem State.putF_start (s : State) (f : Fld) (v : Nat) : (s.putF f v).start = s.start := rfl
@[simp] theorem State.putF_lost (s : State) (f : Fld) (v : Nat) : (s.putF f v).lost = s.lost := rfl
@[simp] theorem State.putF_bootEnded (s : State) (f : Fld) (v : Nat) : (s.putF f v).bootEnded = s.bootEnded := rfl

/-! ## putB -/

@[simp] theorem State.putB_pending (s : State) (f : Fld) (b : Bool) : (s.putB f b).pending = s.pending := rfl
@[simp] theorem State.putB_tsc (s : State) (f : Fld) (b : Bool) : (s.putB f b).tsc = s.tsc := rfl
@[simp] theorem State.putB_stage (s : State) (f : Fld) (b : Bool) : (s.putB f b).stage = s.stage := rfl
@[simp] theorem State.putB_up (s : State) (f : Fld) (b : Bool) : (s.putB f b).up = s.up := rfl
@[simp] theorem State.putB_low (s : State) (f : Fld) (b : Bool) : (s.putB f b).low = s.low := rfl
@[simp] theorem State.putB_shadow (s : State) (f : Fld) (b : Bool) : (s.putB f b).shadow = s.shadow := rfl
@[simp] theorem State.putB_freeCtr (s : State) (f : Fld) (b : Bool) : (s.putB f b).freeCtr = s.freeCtr := rfl
@[simp] theorem State.putB_mem (s : State) (f : Fld) (b : Bool) : (s.putB f b).mem = s.mem := rfl
@[simp] theorem State.putB_seq (s : State) (f : Fld) (b : Bool) : (s.putB f b).seq = s.seq := rfl
@[simp] theorem State.putB_ev (s : State) (f : Fld) (b : Bool) : (s.putB f b).ev = s.ev := rfl
@[simp] theorem State.putB_led (s : State) (f : Fld) (b : Bool) : (s.putB f b).led = s.led := rfl
@[simp] theorem State.putB_jr (s : State) (f : Fld) (b : Bool) : (s.putB f b).jr = s.jr := rfl
@[simp] theorem State.putB_host (s : State) (f : Fld) (b : Bool) : (s.putB f b).host = s.host := rfl
@[simp] theorem State.putB_rck (s : State) (f : Fld) (b : Bool) : (s.putB f b).rck = s.rck := rfl
@[simp] theorem State.putB_prs (s : State) (f : Fld) (b : Bool) : (s.putB f b).prs = s.prs := rfl
@[simp] theorem State.putB_cel (s : State) (f : Fld) (b : Bool) : (s.putB f b).cel = s.cel := rfl
@[simp] theorem State.putB_nvm (s : State) (f : Fld) (b : Bool) : (s.putB f b).nvm = s.nvm := rfl
@[simp] theorem State.putB_vin (s : State) (f : Fld) (b : Bool) : (s.putB f b).vin = s.vin := rfl
@[simp] theorem State.putB_stn (s : State) (f : Fld) (b : Bool) : (s.putB f b).stn = s.stn := rfl
@[simp] theorem State.putB_poly (s : State) (f : Fld) (b : Bool) : (s.putB f b).poly = s.poly := rfl
@[simp] theorem State.putB_fbk (s : State) (f : Fld) (b : Bool) : (s.putB f b).fbk = s.fbk := rfl
@[simp] theorem State.putB_probes (s : State) (f : Fld) (b : Bool) : (s.putB f b).probes = s.probes := rfl
@[simp] theorem State.putB_pulses (s : State) (f : Fld) (b : Bool) : (s.putB f b).pulses = s.pulses := rfl
@[simp] theorem State.putB_cmpAt (s : State) (f : Fld) (b : Bool) : (s.putB f b).cmpAt = s.cmpAt := rfl
@[simp] theorem State.putB_mot (s : State) (f : Fld) (b : Bool) : (s.putB f b).mot = s.mot := rfl
@[simp] theorem State.putB_brg (s : State) (f : Fld) (b : Bool) : (s.putB f b).brg = s.brg := rfl
@[simp] theorem State.putB_axis (s : State) (f : Fld) (b : Bool) : (s.putB f b).axis = s.axis := rfl
@[simp] theorem State.putB_jam (s : State) (f : Fld) (b : Bool) : (s.putB f b).jam = s.jam := rfl
@[simp] theorem State.putB_cle (s : State) (f : Fld) (b : Bool) : (s.putB f b).cle = s.cle := rfl
@[simp] theorem State.putB_heat (s : State) (f : Fld) (b : Bool) : (s.putB f b).heat = s.heat := rfl
@[simp] theorem State.putB_fuse (s : State) (f : Fld) (b : Bool) : (s.putB f b).fuse = s.fuse := rfl
@[simp] theorem State.putB_sec (s : State) (f : Fld) (b : Bool) : (s.putB f b).sec = s.sec := rfl
@[simp] theorem State.putB_psq (s : State) (f : Fld) (b : Bool) : (s.putB f b).psq = s.psq := rfl
@[simp] theorem State.putB_chn (s : State) (f : Fld) (b : Bool) : (s.putB f b).chn = s.chn := rfl
@[simp] theorem State.putB_rst (s : State) (f : Fld) (b : Bool) : (s.putB f b).rst = s.rst := rfl
@[simp] theorem State.putB_start (s : State) (f : Fld) (b : Bool) : (s.putB f b).start = s.start := rfl
@[simp] theorem State.putB_lost (s : State) (f : Fld) (b : Bool) : (s.putB f b).lost = s.lost := rfl
@[simp] theorem State.putB_bootEnded (s : State) (f : Fld) (b : Bool) : (s.putB f b).bootEnded = s.bootEnded := rfl
@[simp] theorem State.putB_thr (s : State) (f : Fld) (b : Bool) (u : Fin 16) : (s.putB f b).thr u = s.thr u := rfl

/-! ## putBitF -/

@[simp] theorem State.putBitF_pending (s : State) (f : Fld) (i : Nat) (b : Bool) : (s.putBitF f i b).pending = s.pending := rfl
@[simp] theorem State.putBitF_tsc (s : State) (f : Fld) (i : Nat) (b : Bool) : (s.putBitF f i b).tsc = s.tsc := rfl
@[simp] theorem State.putBitF_stage (s : State) (f : Fld) (i : Nat) (b : Bool) : (s.putBitF f i b).stage = s.stage := rfl
@[simp] theorem State.putBitF_up (s : State) (f : Fld) (i : Nat) (b : Bool) : (s.putBitF f i b).up = s.up := rfl
@[simp] theorem State.putBitF_low (s : State) (f : Fld) (i : Nat) (b : Bool) : (s.putBitF f i b).low = s.low := rfl
@[simp] theorem State.putBitF_shadow (s : State) (f : Fld) (i : Nat) (b : Bool) : (s.putBitF f i b).shadow = s.shadow := rfl
@[simp] theorem State.putBitF_freeCtr (s : State) (f : Fld) (i : Nat) (b : Bool) : (s.putBitF f i b).freeCtr = s.freeCtr := rfl
@[simp] theorem State.putBitF_mem (s : State) (f : Fld) (i : Nat) (b : Bool) : (s.putBitF f i b).mem = s.mem := rfl
@[simp] theorem State.putBitF_seq (s : State) (f : Fld) (i : Nat) (b : Bool) : (s.putBitF f i b).seq = s.seq := rfl
@[simp] theorem State.putBitF_ev (s : State) (f : Fld) (i : Nat) (b : Bool) : (s.putBitF f i b).ev = s.ev := rfl
@[simp] theorem State.putBitF_led (s : State) (f : Fld) (i : Nat) (b : Bool) : (s.putBitF f i b).led = s.led := rfl
@[simp] theorem State.putBitF_jr (s : State) (f : Fld) (i : Nat) (b : Bool) : (s.putBitF f i b).jr = s.jr := rfl
@[simp] theorem State.putBitF_host (s : State) (f : Fld) (i : Nat) (b : Bool) : (s.putBitF f i b).host = s.host := rfl
@[simp] theorem State.putBitF_rck (s : State) (f : Fld) (i : Nat) (b : Bool) : (s.putBitF f i b).rck = s.rck := rfl
@[simp] theorem State.putBitF_prs (s : State) (f : Fld) (i : Nat) (b : Bool) : (s.putBitF f i b).prs = s.prs := rfl
@[simp] theorem State.putBitF_cel (s : State) (f : Fld) (i : Nat) (b : Bool) : (s.putBitF f i b).cel = s.cel := rfl
@[simp] theorem State.putBitF_nvm (s : State) (f : Fld) (i : Nat) (b : Bool) : (s.putBitF f i b).nvm = s.nvm := rfl
@[simp] theorem State.putBitF_vin (s : State) (f : Fld) (i : Nat) (b : Bool) : (s.putBitF f i b).vin = s.vin := rfl
@[simp] theorem State.putBitF_stn (s : State) (f : Fld) (i : Nat) (b : Bool) : (s.putBitF f i b).stn = s.stn := rfl
@[simp] theorem State.putBitF_poly (s : State) (f : Fld) (i : Nat) (b : Bool) : (s.putBitF f i b).poly = s.poly := rfl
@[simp] theorem State.putBitF_fbk (s : State) (f : Fld) (i : Nat) (b : Bool) : (s.putBitF f i b).fbk = s.fbk := rfl
@[simp] theorem State.putBitF_probes (s : State) (f : Fld) (i : Nat) (b : Bool) : (s.putBitF f i b).probes = s.probes := rfl
@[simp] theorem State.putBitF_pulses (s : State) (f : Fld) (i : Nat) (b : Bool) : (s.putBitF f i b).pulses = s.pulses := rfl
@[simp] theorem State.putBitF_cmpAt (s : State) (f : Fld) (i : Nat) (b : Bool) : (s.putBitF f i b).cmpAt = s.cmpAt := rfl
@[simp] theorem State.putBitF_mot (s : State) (f : Fld) (i : Nat) (b : Bool) : (s.putBitF f i b).mot = s.mot := rfl
@[simp] theorem State.putBitF_brg (s : State) (f : Fld) (i : Nat) (b : Bool) : (s.putBitF f i b).brg = s.brg := rfl
@[simp] theorem State.putBitF_axis (s : State) (f : Fld) (i : Nat) (b : Bool) : (s.putBitF f i b).axis = s.axis := rfl
@[simp] theorem State.putBitF_jam (s : State) (f : Fld) (i : Nat) (b : Bool) : (s.putBitF f i b).jam = s.jam := rfl
@[simp] theorem State.putBitF_cle (s : State) (f : Fld) (i : Nat) (b : Bool) : (s.putBitF f i b).cle = s.cle := rfl
@[simp] theorem State.putBitF_heat (s : State) (f : Fld) (i : Nat) (b : Bool) : (s.putBitF f i b).heat = s.heat := rfl
@[simp] theorem State.putBitF_fuse (s : State) (f : Fld) (i : Nat) (b : Bool) : (s.putBitF f i b).fuse = s.fuse := rfl
@[simp] theorem State.putBitF_sec (s : State) (f : Fld) (i : Nat) (b : Bool) : (s.putBitF f i b).sec = s.sec := rfl
@[simp] theorem State.putBitF_psq (s : State) (f : Fld) (i : Nat) (b : Bool) : (s.putBitF f i b).psq = s.psq := rfl
@[simp] theorem State.putBitF_chn (s : State) (f : Fld) (i : Nat) (b : Bool) : (s.putBitF f i b).chn = s.chn := rfl
@[simp] theorem State.putBitF_rst (s : State) (f : Fld) (i : Nat) (b : Bool) : (s.putBitF f i b).rst = s.rst := rfl
@[simp] theorem State.putBitF_start (s : State) (f : Fld) (i : Nat) (b : Bool) : (s.putBitF f i b).start = s.start := rfl
@[simp] theorem State.putBitF_lost (s : State) (f : Fld) (i : Nat) (b : Bool) : (s.putBitF f i b).lost = s.lost := rfl
@[simp] theorem State.putBitF_bootEnded (s : State) (f : Fld) (i : Nat) (b : Bool) : (s.putBitF f i b).bootEnded = s.bootEnded := rfl
@[simp] theorem State.putBitF_thr (s : State) (f : Fld) (i : Nat) (b : Bool) (u : Fin 16) : (s.putBitF f i b).thr u = s.thr u := rfl

/-! ## incR -/

@[simp] theorem State.incR_pending (s : State) (off : Nat) (n : Nat) : (s.incR off n).pending = s.pending := rfl
@[simp] theorem State.incR_tsc (s : State) (off : Nat) (n : Nat) : (s.incR off n).tsc = s.tsc := rfl
@[simp] theorem State.incR_stage (s : State) (off : Nat) (n : Nat) : (s.incR off n).stage = s.stage := rfl
@[simp] theorem State.incR_up (s : State) (off : Nat) (n : Nat) : (s.incR off n).up = s.up := rfl
@[simp] theorem State.incR_low (s : State) (off : Nat) (n : Nat) : (s.incR off n).low = s.low := rfl
@[simp] theorem State.incR_shadow (s : State) (off : Nat) (n : Nat) : (s.incR off n).shadow = s.shadow := rfl
@[simp] theorem State.incR_freeCtr (s : State) (off : Nat) (n : Nat) : (s.incR off n).freeCtr = s.freeCtr := rfl
@[simp] theorem State.incR_mem (s : State) (off : Nat) (n : Nat) : (s.incR off n).mem = s.mem := rfl
@[simp] theorem State.incR_seq (s : State) (off : Nat) (n : Nat) : (s.incR off n).seq = s.seq := rfl
@[simp] theorem State.incR_ev (s : State) (off : Nat) (n : Nat) : (s.incR off n).ev = s.ev := rfl
@[simp] theorem State.incR_led (s : State) (off : Nat) (n : Nat) : (s.incR off n).led = s.led := rfl
@[simp] theorem State.incR_jr (s : State) (off : Nat) (n : Nat) : (s.incR off n).jr = s.jr := rfl
@[simp] theorem State.incR_host (s : State) (off : Nat) (n : Nat) : (s.incR off n).host = s.host := rfl
@[simp] theorem State.incR_rck (s : State) (off : Nat) (n : Nat) : (s.incR off n).rck = s.rck := rfl
@[simp] theorem State.incR_prs (s : State) (off : Nat) (n : Nat) : (s.incR off n).prs = s.prs := rfl
@[simp] theorem State.incR_cel (s : State) (off : Nat) (n : Nat) : (s.incR off n).cel = s.cel := rfl
@[simp] theorem State.incR_nvm (s : State) (off : Nat) (n : Nat) : (s.incR off n).nvm = s.nvm := rfl
@[simp] theorem State.incR_vin (s : State) (off : Nat) (n : Nat) : (s.incR off n).vin = s.vin := rfl
@[simp] theorem State.incR_stn (s : State) (off : Nat) (n : Nat) : (s.incR off n).stn = s.stn := rfl
@[simp] theorem State.incR_poly (s : State) (off : Nat) (n : Nat) : (s.incR off n).poly = s.poly := rfl
@[simp] theorem State.incR_fbk (s : State) (off : Nat) (n : Nat) : (s.incR off n).fbk = s.fbk := rfl
@[simp] theorem State.incR_probes (s : State) (off : Nat) (n : Nat) : (s.incR off n).probes = s.probes := rfl
@[simp] theorem State.incR_pulses (s : State) (off : Nat) (n : Nat) : (s.incR off n).pulses = s.pulses := rfl
@[simp] theorem State.incR_cmpAt (s : State) (off : Nat) (n : Nat) : (s.incR off n).cmpAt = s.cmpAt := rfl
@[simp] theorem State.incR_mot (s : State) (off : Nat) (n : Nat) : (s.incR off n).mot = s.mot := rfl
@[simp] theorem State.incR_brg (s : State) (off : Nat) (n : Nat) : (s.incR off n).brg = s.brg := rfl
@[simp] theorem State.incR_axis (s : State) (off : Nat) (n : Nat) : (s.incR off n).axis = s.axis := rfl
@[simp] theorem State.incR_jam (s : State) (off : Nat) (n : Nat) : (s.incR off n).jam = s.jam := rfl
@[simp] theorem State.incR_cle (s : State) (off : Nat) (n : Nat) : (s.incR off n).cle = s.cle := rfl
@[simp] theorem State.incR_heat (s : State) (off : Nat) (n : Nat) : (s.incR off n).heat = s.heat := rfl
@[simp] theorem State.incR_fuse (s : State) (off : Nat) (n : Nat) : (s.incR off n).fuse = s.fuse := rfl
@[simp] theorem State.incR_sec (s : State) (off : Nat) (n : Nat) : (s.incR off n).sec = s.sec := rfl
@[simp] theorem State.incR_psq (s : State) (off : Nat) (n : Nat) : (s.incR off n).psq = s.psq := rfl
@[simp] theorem State.incR_chn (s : State) (off : Nat) (n : Nat) : (s.incR off n).chn = s.chn := rfl
@[simp] theorem State.incR_rst (s : State) (off : Nat) (n : Nat) : (s.incR off n).rst = s.rst := rfl
@[simp] theorem State.incR_start (s : State) (off : Nat) (n : Nat) : (s.incR off n).start = s.start := rfl
@[simp] theorem State.incR_bootEnded (s : State) (off : Nat) (n : Nat) : (s.incR off n).bootEnded = s.bootEnded := rfl
@[simp] theorem State.incR_thr (s : State) (off : Nat) (n : Nat) (u : Fin 16) : (s.incR off n).thr u = s.thr u := rfl

/-! ## incF -/

@[simp] theorem State.incF_pending (s : State) (f : Fld) (n : Nat) : (s.incF f n).pending = s.pending := rfl
@[simp] theorem State.incF_tsc (s : State) (f : Fld) (n : Nat) : (s.incF f n).tsc = s.tsc := rfl
@[simp] theorem State.incF_stage (s : State) (f : Fld) (n : Nat) : (s.incF f n).stage = s.stage := rfl
@[simp] theorem State.incF_up (s : State) (f : Fld) (n : Nat) : (s.incF f n).up = s.up := rfl
@[simp] theorem State.incF_low (s : State) (f : Fld) (n : Nat) : (s.incF f n).low = s.low := rfl
@[simp] theorem State.incF_shadow (s : State) (f : Fld) (n : Nat) : (s.incF f n).shadow = s.shadow := rfl
@[simp] theorem State.incF_freeCtr (s : State) (f : Fld) (n : Nat) : (s.incF f n).freeCtr = s.freeCtr := rfl
@[simp] theorem State.incF_mem (s : State) (f : Fld) (n : Nat) : (s.incF f n).mem = s.mem := rfl
@[simp] theorem State.incF_seq (s : State) (f : Fld) (n : Nat) : (s.incF f n).seq = s.seq := rfl
@[simp] theorem State.incF_ev (s : State) (f : Fld) (n : Nat) : (s.incF f n).ev = s.ev := rfl
@[simp] theorem State.incF_led (s : State) (f : Fld) (n : Nat) : (s.incF f n).led = s.led := rfl
@[simp] theorem State.incF_jr (s : State) (f : Fld) (n : Nat) : (s.incF f n).jr = s.jr := rfl
@[simp] theorem State.incF_host (s : State) (f : Fld) (n : Nat) : (s.incF f n).host = s.host := rfl
@[simp] theorem State.incF_rck (s : State) (f : Fld) (n : Nat) : (s.incF f n).rck = s.rck := rfl
@[simp] theorem State.incF_prs (s : State) (f : Fld) (n : Nat) : (s.incF f n).prs = s.prs := rfl
@[simp] theorem State.incF_cel (s : State) (f : Fld) (n : Nat) : (s.incF f n).cel = s.cel := rfl
@[simp] theorem State.incF_nvm (s : State) (f : Fld) (n : Nat) : (s.incF f n).nvm = s.nvm := rfl
@[simp] theorem State.incF_vin (s : State) (f : Fld) (n : Nat) : (s.incF f n).vin = s.vin := rfl
@[simp] theorem State.incF_stn (s : State) (f : Fld) (n : Nat) : (s.incF f n).stn = s.stn := rfl
@[simp] theorem State.incF_poly (s : State) (f : Fld) (n : Nat) : (s.incF f n).poly = s.poly := rfl
@[simp] theorem State.incF_fbk (s : State) (f : Fld) (n : Nat) : (s.incF f n).fbk = s.fbk := rfl
@[simp] theorem State.incF_probes (s : State) (f : Fld) (n : Nat) : (s.incF f n).probes = s.probes := rfl
@[simp] theorem State.incF_pulses (s : State) (f : Fld) (n : Nat) : (s.incF f n).pulses = s.pulses := rfl
@[simp] theorem State.incF_cmpAt (s : State) (f : Fld) (n : Nat) : (s.incF f n).cmpAt = s.cmpAt := rfl
@[simp] theorem State.incF_mot (s : State) (f : Fld) (n : Nat) : (s.incF f n).mot = s.mot := rfl
@[simp] theorem State.incF_brg (s : State) (f : Fld) (n : Nat) : (s.incF f n).brg = s.brg := rfl
@[simp] theorem State.incF_axis (s : State) (f : Fld) (n : Nat) : (s.incF f n).axis = s.axis := rfl
@[simp] theorem State.incF_jam (s : State) (f : Fld) (n : Nat) : (s.incF f n).jam = s.jam := rfl
@[simp] theorem State.incF_cle (s : State) (f : Fld) (n : Nat) : (s.incF f n).cle = s.cle := rfl
@[simp] theorem State.incF_heat (s : State) (f : Fld) (n : Nat) : (s.incF f n).heat = s.heat := rfl
@[simp] theorem State.incF_fuse (s : State) (f : Fld) (n : Nat) : (s.incF f n).fuse = s.fuse := rfl
@[simp] theorem State.incF_sec (s : State) (f : Fld) (n : Nat) : (s.incF f n).sec = s.sec := rfl
@[simp] theorem State.incF_psq (s : State) (f : Fld) (n : Nat) : (s.incF f n).psq = s.psq := rfl
@[simp] theorem State.incF_chn (s : State) (f : Fld) (n : Nat) : (s.incF f n).chn = s.chn := rfl
@[simp] theorem State.incF_rst (s : State) (f : Fld) (n : Nat) : (s.incF f n).rst = s.rst := rfl
@[simp] theorem State.incF_start (s : State) (f : Fld) (n : Nat) : (s.incF f n).start = s.start := rfl
@[simp] theorem State.incF_bootEnded (s : State) (f : Fld) (n : Nat) : (s.incF f n).bootEnded = s.bootEnded := rfl
@[simp] theorem State.incF_thr (s : State) (f : Fld) (n : Nat) (u : Fin 16) : (s.incF f n).thr u = s.thr u := rfl

/-! ## putP -/

@[simp] theorem State.putP_pending (s : State) (lo : Nat) (v : Nat) : (s.putP lo v).pending = s.pending := rfl
@[simp] theorem State.putP_tsc (s : State) (lo : Nat) (v : Nat) : (s.putP lo v).tsc = s.tsc := rfl
@[simp] theorem State.putP_stage (s : State) (lo : Nat) (v : Nat) : (s.putP lo v).stage = s.stage := rfl
@[simp] theorem State.putP_up (s : State) (lo : Nat) (v : Nat) : (s.putP lo v).up = s.up := rfl
@[simp] theorem State.putP_low (s : State) (lo : Nat) (v : Nat) : (s.putP lo v).low = s.low := rfl
@[simp] theorem State.putP_shadow (s : State) (lo : Nat) (v : Nat) : (s.putP lo v).shadow = s.shadow := rfl
@[simp] theorem State.putP_freeCtr (s : State) (lo : Nat) (v : Nat) : (s.putP lo v).freeCtr = s.freeCtr := rfl
@[simp] theorem State.putP_mem (s : State) (lo : Nat) (v : Nat) : (s.putP lo v).mem = s.mem := rfl
@[simp] theorem State.putP_seq (s : State) (lo : Nat) (v : Nat) : (s.putP lo v).seq = s.seq := rfl
@[simp] theorem State.putP_ev (s : State) (lo : Nat) (v : Nat) : (s.putP lo v).ev = s.ev := rfl
@[simp] theorem State.putP_led (s : State) (lo : Nat) (v : Nat) : (s.putP lo v).led = s.led := rfl
@[simp] theorem State.putP_jr (s : State) (lo : Nat) (v : Nat) : (s.putP lo v).jr = s.jr := rfl
@[simp] theorem State.putP_host (s : State) (lo : Nat) (v : Nat) : (s.putP lo v).host = s.host := rfl
@[simp] theorem State.putP_rck (s : State) (lo : Nat) (v : Nat) : (s.putP lo v).rck = s.rck := rfl
@[simp] theorem State.putP_prs (s : State) (lo : Nat) (v : Nat) : (s.putP lo v).prs = s.prs := rfl
@[simp] theorem State.putP_cel (s : State) (lo : Nat) (v : Nat) : (s.putP lo v).cel = s.cel := rfl
@[simp] theorem State.putP_nvm (s : State) (lo : Nat) (v : Nat) : (s.putP lo v).nvm = s.nvm := rfl
@[simp] theorem State.putP_vin (s : State) (lo : Nat) (v : Nat) : (s.putP lo v).vin = s.vin := rfl
@[simp] theorem State.putP_stn (s : State) (lo : Nat) (v : Nat) : (s.putP lo v).stn = s.stn := rfl
@[simp] theorem State.putP_poly (s : State) (lo : Nat) (v : Nat) : (s.putP lo v).poly = s.poly := rfl
@[simp] theorem State.putP_fbk (s : State) (lo : Nat) (v : Nat) : (s.putP lo v).fbk = s.fbk := rfl
@[simp] theorem State.putP_probes (s : State) (lo : Nat) (v : Nat) : (s.putP lo v).probes = s.probes := rfl
@[simp] theorem State.putP_pulses (s : State) (lo : Nat) (v : Nat) : (s.putP lo v).pulses = s.pulses := rfl
@[simp] theorem State.putP_cmpAt (s : State) (lo : Nat) (v : Nat) : (s.putP lo v).cmpAt = s.cmpAt := rfl
@[simp] theorem State.putP_mot (s : State) (lo : Nat) (v : Nat) : (s.putP lo v).mot = s.mot := rfl
@[simp] theorem State.putP_brg (s : State) (lo : Nat) (v : Nat) : (s.putP lo v).brg = s.brg := rfl
@[simp] theorem State.putP_axis (s : State) (lo : Nat) (v : Nat) : (s.putP lo v).axis = s.axis := rfl
@[simp] theorem State.putP_jam (s : State) (lo : Nat) (v : Nat) : (s.putP lo v).jam = s.jam := rfl
@[simp] theorem State.putP_cle (s : State) (lo : Nat) (v : Nat) : (s.putP lo v).cle = s.cle := rfl
@[simp] theorem State.putP_heat (s : State) (lo : Nat) (v : Nat) : (s.putP lo v).heat = s.heat := rfl
@[simp] theorem State.putP_fuse (s : State) (lo : Nat) (v : Nat) : (s.putP lo v).fuse = s.fuse := rfl
@[simp] theorem State.putP_sec (s : State) (lo : Nat) (v : Nat) : (s.putP lo v).sec = s.sec := rfl
@[simp] theorem State.putP_psq (s : State) (lo : Nat) (v : Nat) : (s.putP lo v).psq = s.psq := rfl
@[simp] theorem State.putP_chn (s : State) (lo : Nat) (v : Nat) : (s.putP lo v).chn = s.chn := rfl
@[simp] theorem State.putP_rst (s : State) (lo : Nat) (v : Nat) : (s.putP lo v).rst = s.rst := rfl
@[simp] theorem State.putP_start (s : State) (lo : Nat) (v : Nat) : (s.putP lo v).start = s.start := rfl
@[simp] theorem State.putP_lost (s : State) (lo : Nat) (v : Nat) : (s.putP lo v).lost = s.lost := rfl
@[simp] theorem State.putP_bootEnded (s : State) (lo : Nat) (v : Nat) : (s.putP lo v).bootEnded = s.bootEnded := rfl
@[simp] theorem State.putP_thr (s : State) (lo : Nat) (v : Nat) (u : Fin 16) : (s.putP lo v).thr u = s.thr u := rfl

/-! ## setThr -/

@[simp] theorem State.setThr_pending (s : State) (t : Fin 16) (h : Thread) : (s.setThr t h).pending = s.pending := rfl
@[simp] theorem State.setThr_tsc (s : State) (t : Fin 16) (h : Thread) : (s.setThr t h).tsc = s.tsc := rfl
@[simp] theorem State.setThr_regs (s : State) (t : Fin 16) (h : Thread) : (s.setThr t h).regs = s.regs := rfl
@[simp] theorem State.setThr_stage (s : State) (t : Fin 16) (h : Thread) : (s.setThr t h).stage = s.stage := rfl
@[simp] theorem State.setThr_up (s : State) (t : Fin 16) (h : Thread) : (s.setThr t h).up = s.up := rfl
@[simp] theorem State.setThr_low (s : State) (t : Fin 16) (h : Thread) : (s.setThr t h).low = s.low := rfl
@[simp] theorem State.setThr_shadow (s : State) (t : Fin 16) (h : Thread) : (s.setThr t h).shadow = s.shadow := rfl
@[simp] theorem State.setThr_freeCtr (s : State) (t : Fin 16) (h : Thread) : (s.setThr t h).freeCtr = s.freeCtr := rfl
@[simp] theorem State.setThr_mem (s : State) (t : Fin 16) (h : Thread) : (s.setThr t h).mem = s.mem := rfl
@[simp] theorem State.setThr_ev (s : State) (t : Fin 16) (h : Thread) : (s.setThr t h).ev = s.ev := rfl
@[simp] theorem State.setThr_led (s : State) (t : Fin 16) (h : Thread) : (s.setThr t h).led = s.led := rfl
@[simp] theorem State.setThr_jr (s : State) (t : Fin 16) (h : Thread) : (s.setThr t h).jr = s.jr := rfl
@[simp] theorem State.setThr_host (s : State) (t : Fin 16) (h : Thread) : (s.setThr t h).host = s.host := rfl
@[simp] theorem State.setThr_rck (s : State) (t : Fin 16) (h : Thread) : (s.setThr t h).rck = s.rck := rfl
@[simp] theorem State.setThr_prs (s : State) (t : Fin 16) (h : Thread) : (s.setThr t h).prs = s.prs := rfl
@[simp] theorem State.setThr_cel (s : State) (t : Fin 16) (h : Thread) : (s.setThr t h).cel = s.cel := rfl
@[simp] theorem State.setThr_nvm (s : State) (t : Fin 16) (h : Thread) : (s.setThr t h).nvm = s.nvm := rfl
@[simp] theorem State.setThr_vin (s : State) (t : Fin 16) (h : Thread) : (s.setThr t h).vin = s.vin := rfl
@[simp] theorem State.setThr_stn (s : State) (t : Fin 16) (h : Thread) : (s.setThr t h).stn = s.stn := rfl
@[simp] theorem State.setThr_poly (s : State) (t : Fin 16) (h : Thread) : (s.setThr t h).poly = s.poly := rfl
@[simp] theorem State.setThr_fbk (s : State) (t : Fin 16) (h : Thread) : (s.setThr t h).fbk = s.fbk := rfl
@[simp] theorem State.setThr_probes (s : State) (t : Fin 16) (h : Thread) : (s.setThr t h).probes = s.probes := rfl
@[simp] theorem State.setThr_pulses (s : State) (t : Fin 16) (h : Thread) : (s.setThr t h).pulses = s.pulses := rfl
@[simp] theorem State.setThr_cmpAt (s : State) (t : Fin 16) (h : Thread) : (s.setThr t h).cmpAt = s.cmpAt := rfl
@[simp] theorem State.setThr_mot (s : State) (t : Fin 16) (h : Thread) : (s.setThr t h).mot = s.mot := rfl
@[simp] theorem State.setThr_brg (s : State) (t : Fin 16) (h : Thread) : (s.setThr t h).brg = s.brg := rfl
@[simp] theorem State.setThr_axis (s : State) (t : Fin 16) (h : Thread) : (s.setThr t h).axis = s.axis := rfl
@[simp] theorem State.setThr_jam (s : State) (t : Fin 16) (h : Thread) : (s.setThr t h).jam = s.jam := rfl
@[simp] theorem State.setThr_cle (s : State) (t : Fin 16) (h : Thread) : (s.setThr t h).cle = s.cle := rfl
@[simp] theorem State.setThr_heat (s : State) (t : Fin 16) (h : Thread) : (s.setThr t h).heat = s.heat := rfl
@[simp] theorem State.setThr_fuse (s : State) (t : Fin 16) (h : Thread) : (s.setThr t h).fuse = s.fuse := rfl
@[simp] theorem State.setThr_sec (s : State) (t : Fin 16) (h : Thread) : (s.setThr t h).sec = s.sec := rfl
@[simp] theorem State.setThr_psq (s : State) (t : Fin 16) (h : Thread) : (s.setThr t h).psq = s.psq := rfl
@[simp] theorem State.setThr_chn (s : State) (t : Fin 16) (h : Thread) : (s.setThr t h).chn = s.chn := rfl
@[simp] theorem State.setThr_rst (s : State) (t : Fin 16) (h : Thread) : (s.setThr t h).rst = s.rst := rfl
@[simp] theorem State.setThr_start (s : State) (t : Fin 16) (h : Thread) : (s.setThr t h).start = s.start := rfl
@[simp] theorem State.setThr_lost (s : State) (t : Fin 16) (h : Thread) : (s.setThr t h).lost = s.lost := rfl
@[simp] theorem State.setThr_bootEnded (s : State) (t : Fin 16) (h : Thread) : (s.setThr t h).bootEnded = s.bootEnded := rfl
@[simp] theorem State.setThr_getR (s : State) (t : Fin 16) (h : Thread) (o : Nat) : (s.setThr t h).getR o = s.getR o := rfl
@[simp] theorem State.setThr_getF (s : State) (t : Fin 16) (h : Thread) (g : Fld) : (s.setThr t h).getF g = s.getF g := rfl
@[simp] theorem State.setThr_flag (s : State) (t : Fin 16) (h : Thread) (g : Fld) : (s.setThr t h).flag g = s.flag g := rfl

/-! ## drew -/

@[simp] theorem State.drew_pending (s : State) : (s.drew).pending = s.pending := rfl
@[simp] theorem State.drew_tsc (s : State) : (s.drew).tsc = s.tsc := rfl
@[simp] theorem State.drew_regs (s : State) : (s.drew).regs = s.regs := rfl
@[simp] theorem State.drew_stage (s : State) : (s.drew).stage = s.stage := rfl
@[simp] theorem State.drew_up (s : State) : (s.drew).up = s.up := rfl
@[simp] theorem State.drew_low (s : State) : (s.drew).low = s.low := rfl
@[simp] theorem State.drew_shadow (s : State) : (s.drew).shadow = s.shadow := rfl
@[simp] theorem State.drew_mem (s : State) : (s.drew).mem = s.mem := rfl
@[simp] theorem State.drew_seq (s : State) : (s.drew).seq = s.seq := rfl
@[simp] theorem State.drew_ev (s : State) : (s.drew).ev = s.ev := rfl
@[simp] theorem State.drew_led (s : State) : (s.drew).led = s.led := rfl
@[simp] theorem State.drew_jr (s : State) : (s.drew).jr = s.jr := rfl
@[simp] theorem State.drew_host (s : State) : (s.drew).host = s.host := rfl
@[simp] theorem State.drew_rck (s : State) : (s.drew).rck = s.rck := rfl
@[simp] theorem State.drew_prs (s : State) : (s.drew).prs = s.prs := rfl
@[simp] theorem State.drew_cel (s : State) : (s.drew).cel = s.cel := rfl
@[simp] theorem State.drew_nvm (s : State) : (s.drew).nvm = s.nvm := rfl
@[simp] theorem State.drew_vin (s : State) : (s.drew).vin = s.vin := rfl
@[simp] theorem State.drew_stn (s : State) : (s.drew).stn = s.stn := rfl
@[simp] theorem State.drew_poly (s : State) : (s.drew).poly = s.poly := rfl
@[simp] theorem State.drew_fbk (s : State) : (s.drew).fbk = s.fbk := rfl
@[simp] theorem State.drew_probes (s : State) : (s.drew).probes = s.probes := rfl
@[simp] theorem State.drew_pulses (s : State) : (s.drew).pulses = s.pulses := rfl
@[simp] theorem State.drew_cmpAt (s : State) : (s.drew).cmpAt = s.cmpAt := rfl
@[simp] theorem State.drew_mot (s : State) : (s.drew).mot = s.mot := rfl
@[simp] theorem State.drew_brg (s : State) : (s.drew).brg = s.brg := rfl
@[simp] theorem State.drew_axis (s : State) : (s.drew).axis = s.axis := rfl
@[simp] theorem State.drew_jam (s : State) : (s.drew).jam = s.jam := rfl
@[simp] theorem State.drew_cle (s : State) : (s.drew).cle = s.cle := rfl
@[simp] theorem State.drew_heat (s : State) : (s.drew).heat = s.heat := rfl
@[simp] theorem State.drew_fuse (s : State) : (s.drew).fuse = s.fuse := rfl
@[simp] theorem State.drew_sec (s : State) : (s.drew).sec = s.sec := rfl
@[simp] theorem State.drew_psq (s : State) : (s.drew).psq = s.psq := rfl
@[simp] theorem State.drew_chn (s : State) : (s.drew).chn = s.chn := rfl
@[simp] theorem State.drew_rst (s : State) : (s.drew).rst = s.rst := rfl
@[simp] theorem State.drew_start (s : State) : (s.drew).start = s.start := rfl
@[simp] theorem State.drew_lost (s : State) : (s.drew).lost = s.lost := rfl
@[simp] theorem State.drew_bootEnded (s : State) : (s.drew).bootEnded = s.bootEnded := rfl
@[simp] theorem State.drew_getR (s : State) (o : Nat) : (s.drew).getR o = s.getR o := rfl
@[simp] theorem State.drew_getF (s : State) (g : Fld) : (s.drew).getF g = s.getF g := rfl
@[simp] theorem State.drew_flag (s : State) (g : Fld) : (s.drew).flag g = s.flag g := rfl
@[simp] theorem State.drew_thr (s : State) (u : Fin 16) : (s.drew).thr u = s.thr u := rfl

/-! ## setPages -/

@[simp] theorem State.setPages_pending (s : State) (l : List Page) : (s.setPages l).pending = s.pending := rfl
@[simp] theorem State.setPages_tsc (s : State) (l : List Page) : (s.setPages l).tsc = s.tsc := rfl
@[simp] theorem State.setPages_regs (s : State) (l : List Page) : (s.setPages l).regs = s.regs := rfl
@[simp] theorem State.setPages_stage (s : State) (l : List Page) : (s.setPages l).stage = s.stage := rfl
@[simp] theorem State.setPages_up (s : State) (l : List Page) : (s.setPages l).up = s.up := rfl
@[simp] theorem State.setPages_low (s : State) (l : List Page) : (s.setPages l).low = s.low := rfl
@[simp] theorem State.setPages_shadow (s : State) (l : List Page) : (s.setPages l).shadow = s.shadow := rfl
@[simp] theorem State.setPages_freeCtr (s : State) (l : List Page) : (s.setPages l).freeCtr = s.freeCtr := rfl
@[simp] theorem State.setPages_mem (s : State) (l : List Page) : (s.setPages l).mem = s.mem := rfl
@[simp] theorem State.setPages_seq (s : State) (l : List Page) : (s.setPages l).seq = s.seq := rfl
@[simp] theorem State.setPages_ev (s : State) (l : List Page) : (s.setPages l).ev = s.ev := rfl
@[simp] theorem State.setPages_led (s : State) (l : List Page) : (s.setPages l).led = s.led := rfl
@[simp] theorem State.setPages_jr (s : State) (l : List Page) : (s.setPages l).jr = s.jr := rfl
@[simp] theorem State.setPages_host (s : State) (l : List Page) : (s.setPages l).host = s.host := rfl
@[simp] theorem State.setPages_rck (s : State) (l : List Page) : (s.setPages l).rck = s.rck := rfl
@[simp] theorem State.setPages_prs (s : State) (l : List Page) : (s.setPages l).prs = s.prs := rfl
@[simp] theorem State.setPages_nvm (s : State) (l : List Page) : (s.setPages l).nvm = s.nvm := rfl
@[simp] theorem State.setPages_vin (s : State) (l : List Page) : (s.setPages l).vin = s.vin := rfl
@[simp] theorem State.setPages_stn (s : State) (l : List Page) : (s.setPages l).stn = s.stn := rfl
@[simp] theorem State.setPages_poly (s : State) (l : List Page) : (s.setPages l).poly = s.poly := rfl
@[simp] theorem State.setPages_fbk (s : State) (l : List Page) : (s.setPages l).fbk = s.fbk := rfl
@[simp] theorem State.setPages_probes (s : State) (l : List Page) : (s.setPages l).probes = s.probes := rfl
@[simp] theorem State.setPages_pulses (s : State) (l : List Page) : (s.setPages l).pulses = s.pulses := rfl
@[simp] theorem State.setPages_cmpAt (s : State) (l : List Page) : (s.setPages l).cmpAt = s.cmpAt := rfl
@[simp] theorem State.setPages_mot (s : State) (l : List Page) : (s.setPages l).mot = s.mot := rfl
@[simp] theorem State.setPages_brg (s : State) (l : List Page) : (s.setPages l).brg = s.brg := rfl
@[simp] theorem State.setPages_axis (s : State) (l : List Page) : (s.setPages l).axis = s.axis := rfl
@[simp] theorem State.setPages_jam (s : State) (l : List Page) : (s.setPages l).jam = s.jam := rfl
@[simp] theorem State.setPages_cle (s : State) (l : List Page) : (s.setPages l).cle = s.cle := rfl
@[simp] theorem State.setPages_heat (s : State) (l : List Page) : (s.setPages l).heat = s.heat := rfl
@[simp] theorem State.setPages_fuse (s : State) (l : List Page) : (s.setPages l).fuse = s.fuse := rfl
@[simp] theorem State.setPages_sec (s : State) (l : List Page) : (s.setPages l).sec = s.sec := rfl
@[simp] theorem State.setPages_psq (s : State) (l : List Page) : (s.setPages l).psq = s.psq := rfl
@[simp] theorem State.setPages_chn (s : State) (l : List Page) : (s.setPages l).chn = s.chn := rfl
@[simp] theorem State.setPages_rst (s : State) (l : List Page) : (s.setPages l).rst = s.rst := rfl
@[simp] theorem State.setPages_start (s : State) (l : List Page) : (s.setPages l).start = s.start := rfl
@[simp] theorem State.setPages_lost (s : State) (l : List Page) : (s.setPages l).lost = s.lost := rfl
@[simp] theorem State.setPages_bootEnded (s : State) (l : List Page) : (s.setPages l).bootEnded = s.bootEnded := rfl
@[simp] theorem State.setPages_getR (s : State) (l : List Page) (o : Nat) : (s.setPages l).getR o = s.getR o := rfl
@[simp] theorem State.setPages_getF (s : State) (l : List Page) (g : Fld) : (s.setPages l).getF g = s.getF g := rfl
@[simp] theorem State.setPages_flag (s : State) (l : List Page) (g : Fld) : (s.setPages l).flag g = s.flag g := rfl
@[simp] theorem State.setPages_thr (s : State) (l : List Page) (u : Fin 16) : (s.setPages l).thr u = s.thr u := rfl

/-! ## updPage -/

@[simp] theorem State.updPage_pending (s : State) (tag : Word) (f : Page → Page) : (s.updPage tag f).pending = s.pending := rfl
@[simp] theorem State.updPage_tsc (s : State) (tag : Word) (f : Page → Page) : (s.updPage tag f).tsc = s.tsc := rfl
@[simp] theorem State.updPage_stage (s : State) (tag : Word) (f : Page → Page) : (s.updPage tag f).stage = s.stage := rfl
@[simp] theorem State.updPage_up (s : State) (tag : Word) (f : Page → Page) : (s.updPage tag f).up = s.up := rfl
@[simp] theorem State.updPage_low (s : State) (tag : Word) (f : Page → Page) : (s.updPage tag f).low = s.low := rfl
@[simp] theorem State.updPage_shadow (s : State) (tag : Word) (f : Page → Page) : (s.updPage tag f).shadow = s.shadow := rfl
@[simp] theorem State.updPage_freeCtr (s : State) (tag : Word) (f : Page → Page) : (s.updPage tag f).freeCtr = s.freeCtr := rfl
@[simp] theorem State.updPage_mem (s : State) (tag : Word) (f : Page → Page) : (s.updPage tag f).mem = s.mem := rfl
@[simp] theorem State.updPage_seq (s : State) (tag : Word) (f : Page → Page) : (s.updPage tag f).seq = s.seq := rfl
@[simp] theorem State.updPage_ev (s : State) (tag : Word) (f : Page → Page) : (s.updPage tag f).ev = s.ev := rfl
@[simp] theorem State.updPage_led (s : State) (tag : Word) (f : Page → Page) : (s.updPage tag f).led = s.led := rfl
@[simp] theorem State.updPage_jr (s : State) (tag : Word) (f : Page → Page) : (s.updPage tag f).jr = s.jr := rfl
@[simp] theorem State.updPage_host (s : State) (tag : Word) (f : Page → Page) : (s.updPage tag f).host = s.host := rfl
@[simp] theorem State.updPage_rck (s : State) (tag : Word) (f : Page → Page) : (s.updPage tag f).rck = s.rck := rfl
@[simp] theorem State.updPage_prs (s : State) (tag : Word) (f : Page → Page) : (s.updPage tag f).prs = s.prs := rfl
@[simp] theorem State.updPage_nvm (s : State) (tag : Word) (f : Page → Page) : (s.updPage tag f).nvm = s.nvm := rfl
@[simp] theorem State.updPage_vin (s : State) (tag : Word) (f : Page → Page) : (s.updPage tag f).vin = s.vin := rfl
@[simp] theorem State.updPage_stn (s : State) (tag : Word) (f : Page → Page) : (s.updPage tag f).stn = s.stn := rfl
@[simp] theorem State.updPage_poly (s : State) (tag : Word) (f : Page → Page) : (s.updPage tag f).poly = s.poly := rfl
@[simp] theorem State.updPage_fbk (s : State) (tag : Word) (f : Page → Page) : (s.updPage tag f).fbk = s.fbk := rfl
@[simp] theorem State.updPage_probes (s : State) (tag : Word) (f : Page → Page) : (s.updPage tag f).probes = s.probes := rfl
@[simp] theorem State.updPage_pulses (s : State) (tag : Word) (f : Page → Page) : (s.updPage tag f).pulses = s.pulses := rfl
@[simp] theorem State.updPage_cmpAt (s : State) (tag : Word) (f : Page → Page) : (s.updPage tag f).cmpAt = s.cmpAt := rfl
@[simp] theorem State.updPage_mot (s : State) (tag : Word) (f : Page → Page) : (s.updPage tag f).mot = s.mot := rfl
@[simp] theorem State.updPage_brg (s : State) (tag : Word) (f : Page → Page) : (s.updPage tag f).brg = s.brg := rfl
@[simp] theorem State.updPage_axis (s : State) (tag : Word) (f : Page → Page) : (s.updPage tag f).axis = s.axis := rfl
@[simp] theorem State.updPage_jam (s : State) (tag : Word) (f : Page → Page) : (s.updPage tag f).jam = s.jam := rfl
@[simp] theorem State.updPage_cle (s : State) (tag : Word) (f : Page → Page) : (s.updPage tag f).cle = s.cle := rfl
@[simp] theorem State.updPage_heat (s : State) (tag : Word) (f : Page → Page) : (s.updPage tag f).heat = s.heat := rfl
@[simp] theorem State.updPage_fuse (s : State) (tag : Word) (f : Page → Page) : (s.updPage tag f).fuse = s.fuse := rfl
@[simp] theorem State.updPage_sec (s : State) (tag : Word) (f : Page → Page) : (s.updPage tag f).sec = s.sec := rfl
@[simp] theorem State.updPage_psq (s : State) (tag : Word) (f : Page → Page) : (s.updPage tag f).psq = s.psq := rfl
@[simp] theorem State.updPage_chn (s : State) (tag : Word) (f : Page → Page) : (s.updPage tag f).chn = s.chn := rfl
@[simp] theorem State.updPage_rst (s : State) (tag : Word) (f : Page → Page) : (s.updPage tag f).rst = s.rst := rfl
@[simp] theorem State.updPage_start (s : State) (tag : Word) (f : Page → Page) : (s.updPage tag f).start = s.start := rfl
@[simp] theorem State.updPage_lost (s : State) (tag : Word) (f : Page → Page) : (s.updPage tag f).lost = s.lost := rfl
@[simp] theorem State.updPage_bootEnded (s : State) (tag : Word) (f : Page → Page) : (s.updPage tag f).bootEnded = s.bootEnded := rfl
@[simp] theorem State.updPage_thr (s : State) (tag : Word) (f : Page → Page) (u : Fin 16) : (s.updPage tag f).thr u = s.thr u := rfl

/-! ## setVin -/

@[simp] theorem State.setVin_pending (s : State) (v : Vint) : (s.setVin v).pending = s.pending := rfl
@[simp] theorem State.setVin_tsc (s : State) (v : Vint) : (s.setVin v).tsc = s.tsc := rfl
@[simp] theorem State.setVin_regs (s : State) (v : Vint) : (s.setVin v).regs = s.regs := rfl
@[simp] theorem State.setVin_stage (s : State) (v : Vint) : (s.setVin v).stage = s.stage := rfl
@[simp] theorem State.setVin_up (s : State) (v : Vint) : (s.setVin v).up = s.up := rfl
@[simp] theorem State.setVin_low (s : State) (v : Vint) : (s.setVin v).low = s.low := rfl
@[simp] theorem State.setVin_shadow (s : State) (v : Vint) : (s.setVin v).shadow = s.shadow := rfl
@[simp] theorem State.setVin_freeCtr (s : State) (v : Vint) : (s.setVin v).freeCtr = s.freeCtr := rfl
@[simp] theorem State.setVin_mem (s : State) (v : Vint) : (s.setVin v).mem = s.mem := rfl
@[simp] theorem State.setVin_seq (s : State) (v : Vint) : (s.setVin v).seq = s.seq := rfl
@[simp] theorem State.setVin_ev (s : State) (v : Vint) : (s.setVin v).ev = s.ev := rfl
@[simp] theorem State.setVin_led (s : State) (v : Vint) : (s.setVin v).led = s.led := rfl
@[simp] theorem State.setVin_jr (s : State) (v : Vint) : (s.setVin v).jr = s.jr := rfl
@[simp] theorem State.setVin_host (s : State) (v : Vint) : (s.setVin v).host = s.host := rfl
@[simp] theorem State.setVin_rck (s : State) (v : Vint) : (s.setVin v).rck = s.rck := rfl
@[simp] theorem State.setVin_prs (s : State) (v : Vint) : (s.setVin v).prs = s.prs := rfl
@[simp] theorem State.setVin_cel (s : State) (v : Vint) : (s.setVin v).cel = s.cel := rfl
@[simp] theorem State.setVin_nvm (s : State) (v : Vint) : (s.setVin v).nvm = s.nvm := rfl
@[simp] theorem State.setVin_stn (s : State) (v : Vint) : (s.setVin v).stn = s.stn := rfl
@[simp] theorem State.setVin_poly (s : State) (v : Vint) : (s.setVin v).poly = s.poly := rfl
@[simp] theorem State.setVin_fbk (s : State) (v : Vint) : (s.setVin v).fbk = s.fbk := rfl
@[simp] theorem State.setVin_probes (s : State) (v : Vint) : (s.setVin v).probes = s.probes := rfl
@[simp] theorem State.setVin_pulses (s : State) (v : Vint) : (s.setVin v).pulses = s.pulses := rfl
@[simp] theorem State.setVin_cmpAt (s : State) (v : Vint) : (s.setVin v).cmpAt = s.cmpAt := rfl
@[simp] theorem State.setVin_mot (s : State) (v : Vint) : (s.setVin v).mot = s.mot := rfl
@[simp] theorem State.setVin_brg (s : State) (v : Vint) : (s.setVin v).brg = s.brg := rfl
@[simp] theorem State.setVin_axis (s : State) (v : Vint) : (s.setVin v).axis = s.axis := rfl
@[simp] theorem State.setVin_jam (s : State) (v : Vint) : (s.setVin v).jam = s.jam := rfl
@[simp] theorem State.setVin_cle (s : State) (v : Vint) : (s.setVin v).cle = s.cle := rfl
@[simp] theorem State.setVin_heat (s : State) (v : Vint) : (s.setVin v).heat = s.heat := rfl
@[simp] theorem State.setVin_fuse (s : State) (v : Vint) : (s.setVin v).fuse = s.fuse := rfl
@[simp] theorem State.setVin_sec (s : State) (v : Vint) : (s.setVin v).sec = s.sec := rfl
@[simp] theorem State.setVin_psq (s : State) (v : Vint) : (s.setVin v).psq = s.psq := rfl
@[simp] theorem State.setVin_chn (s : State) (v : Vint) : (s.setVin v).chn = s.chn := rfl
@[simp] theorem State.setVin_rst (s : State) (v : Vint) : (s.setVin v).rst = s.rst := rfl
@[simp] theorem State.setVin_start (s : State) (v : Vint) : (s.setVin v).start = s.start := rfl
@[simp] theorem State.setVin_lost (s : State) (v : Vint) : (s.setVin v).lost = s.lost := rfl
@[simp] theorem State.setVin_bootEnded (s : State) (v : Vint) : (s.setVin v).bootEnded = s.bootEnded := rfl
@[simp] theorem State.setVin_getR (s : State) (v : Vint) (o : Nat) : (s.setVin v).getR o = s.getR o := rfl
@[simp] theorem State.setVin_getF (s : State) (v : Vint) (g : Fld) : (s.setVin v).getF g = s.getF g := rfl
@[simp] theorem State.setVin_flag (s : State) (v : Vint) (g : Fld) : (s.setVin v).flag g = s.flag g := rfl
@[simp] theorem State.setVin_thr (s : State) (v : Vint) (u : Fin 16) : (s.setVin v).thr u = s.thr u := rfl

/-! ## setChan -/

@[simp] theorem State.setChan_pending (s : State) (c : Nat) (h : Chan) : (s.setChan c h).pending = s.pending := rfl
@[simp] theorem State.setChan_tsc (s : State) (c : Nat) (h : Chan) : (s.setChan c h).tsc = s.tsc := rfl
@[simp] theorem State.setChan_regs (s : State) (c : Nat) (h : Chan) : (s.setChan c h).regs = s.regs := rfl
@[simp] theorem State.setChan_stage (s : State) (c : Nat) (h : Chan) : (s.setChan c h).stage = s.stage := rfl
@[simp] theorem State.setChan_up (s : State) (c : Nat) (h : Chan) : (s.setChan c h).up = s.up := rfl
@[simp] theorem State.setChan_low (s : State) (c : Nat) (h : Chan) : (s.setChan c h).low = s.low := rfl
@[simp] theorem State.setChan_shadow (s : State) (c : Nat) (h : Chan) : (s.setChan c h).shadow = s.shadow := rfl
@[simp] theorem State.setChan_freeCtr (s : State) (c : Nat) (h : Chan) : (s.setChan c h).freeCtr = s.freeCtr := rfl
@[simp] theorem State.setChan_mem (s : State) (c : Nat) (h : Chan) : (s.setChan c h).mem = s.mem := rfl
@[simp] theorem State.setChan_seq (s : State) (c : Nat) (h : Chan) : (s.setChan c h).seq = s.seq := rfl
@[simp] theorem State.setChan_ev (s : State) (c : Nat) (h : Chan) : (s.setChan c h).ev = s.ev := rfl
@[simp] theorem State.setChan_led (s : State) (c : Nat) (h : Chan) : (s.setChan c h).led = s.led := rfl
@[simp] theorem State.setChan_jr (s : State) (c : Nat) (h : Chan) : (s.setChan c h).jr = s.jr := rfl
@[simp] theorem State.setChan_host (s : State) (c : Nat) (h : Chan) : (s.setChan c h).host = s.host := rfl
@[simp] theorem State.setChan_prs (s : State) (c : Nat) (h : Chan) : (s.setChan c h).prs = s.prs := rfl
@[simp] theorem State.setChan_cel (s : State) (c : Nat) (h : Chan) : (s.setChan c h).cel = s.cel := rfl
@[simp] theorem State.setChan_nvm (s : State) (c : Nat) (h : Chan) : (s.setChan c h).nvm = s.nvm := rfl
@[simp] theorem State.setChan_vin (s : State) (c : Nat) (h : Chan) : (s.setChan c h).vin = s.vin := rfl
@[simp] theorem State.setChan_stn (s : State) (c : Nat) (h : Chan) : (s.setChan c h).stn = s.stn := rfl
@[simp] theorem State.setChan_poly (s : State) (c : Nat) (h : Chan) : (s.setChan c h).poly = s.poly := rfl
@[simp] theorem State.setChan_fbk (s : State) (c : Nat) (h : Chan) : (s.setChan c h).fbk = s.fbk := rfl
@[simp] theorem State.setChan_probes (s : State) (c : Nat) (h : Chan) : (s.setChan c h).probes = s.probes := rfl
@[simp] theorem State.setChan_pulses (s : State) (c : Nat) (h : Chan) : (s.setChan c h).pulses = s.pulses := rfl
@[simp] theorem State.setChan_cmpAt (s : State) (c : Nat) (h : Chan) : (s.setChan c h).cmpAt = s.cmpAt := rfl
@[simp] theorem State.setChan_mot (s : State) (c : Nat) (h : Chan) : (s.setChan c h).mot = s.mot := rfl
@[simp] theorem State.setChan_brg (s : State) (c : Nat) (h : Chan) : (s.setChan c h).brg = s.brg := rfl
@[simp] theorem State.setChan_axis (s : State) (c : Nat) (h : Chan) : (s.setChan c h).axis = s.axis := rfl
@[simp] theorem State.setChan_jam (s : State) (c : Nat) (h : Chan) : (s.setChan c h).jam = s.jam := rfl
@[simp] theorem State.setChan_cle (s : State) (c : Nat) (h : Chan) : (s.setChan c h).cle = s.cle := rfl
@[simp] theorem State.setChan_heat (s : State) (c : Nat) (h : Chan) : (s.setChan c h).heat = s.heat := rfl
@[simp] theorem State.setChan_fuse (s : State) (c : Nat) (h : Chan) : (s.setChan c h).fuse = s.fuse := rfl
@[simp] theorem State.setChan_sec (s : State) (c : Nat) (h : Chan) : (s.setChan c h).sec = s.sec := rfl
@[simp] theorem State.setChan_psq (s : State) (c : Nat) (h : Chan) : (s.setChan c h).psq = s.psq := rfl
@[simp] theorem State.setChan_chn (s : State) (c : Nat) (h : Chan) : (s.setChan c h).chn = s.chn := rfl
@[simp] theorem State.setChan_rst (s : State) (c : Nat) (h : Chan) : (s.setChan c h).rst = s.rst := rfl
@[simp] theorem State.setChan_start (s : State) (c : Nat) (h : Chan) : (s.setChan c h).start = s.start := rfl
@[simp] theorem State.setChan_lost (s : State) (c : Nat) (h : Chan) : (s.setChan c h).lost = s.lost := rfl
@[simp] theorem State.setChan_bootEnded (s : State) (c : Nat) (h : Chan) : (s.setChan c h).bootEnded = s.bootEnded := rfl
@[simp] theorem State.setChan_getR (s : State) (c : Nat) (h : Chan) (o : Nat) : (s.setChan c h).getR o = s.getR o := rfl
@[simp] theorem State.setChan_getF (s : State) (c : Nat) (h : Chan) (g : Fld) : (s.setChan c h).getF g = s.getF g := rfl
@[simp] theorem State.setChan_flag (s : State) (c : Nat) (h : Chan) (g : Fld) : (s.setChan c h).flag g = s.flag g := rfl
@[simp] theorem State.setChan_thr (s : State) (c : Nat) (h : Chan) (u : Fin 16) : (s.setChan c h).thr u = s.thr u := rfl

/-! ## setLane -/

@[simp] theorem State.setLane_pending (s : State) (l : Nat) (x : Lane) : (s.setLane l x).pending = s.pending := rfl
@[simp] theorem State.setLane_tsc (s : State) (l : Nat) (x : Lane) : (s.setLane l x).tsc = s.tsc := rfl
@[simp] theorem State.setLane_regs (s : State) (l : Nat) (x : Lane) : (s.setLane l x).regs = s.regs := rfl
@[simp] theorem State.setLane_stage (s : State) (l : Nat) (x : Lane) : (s.setLane l x).stage = s.stage := rfl
@[simp] theorem State.setLane_up (s : State) (l : Nat) (x : Lane) : (s.setLane l x).up = s.up := rfl
@[simp] theorem State.setLane_low (s : State) (l : Nat) (x : Lane) : (s.setLane l x).low = s.low := rfl
@[simp] theorem State.setLane_shadow (s : State) (l : Nat) (x : Lane) : (s.setLane l x).shadow = s.shadow := rfl
@[simp] theorem State.setLane_freeCtr (s : State) (l : Nat) (x : Lane) : (s.setLane l x).freeCtr = s.freeCtr := rfl
@[simp] theorem State.setLane_mem (s : State) (l : Nat) (x : Lane) : (s.setLane l x).mem = s.mem := rfl
@[simp] theorem State.setLane_seq (s : State) (l : Nat) (x : Lane) : (s.setLane l x).seq = s.seq := rfl
@[simp] theorem State.setLane_ev (s : State) (l : Nat) (x : Lane) : (s.setLane l x).ev = s.ev := rfl
@[simp] theorem State.setLane_led (s : State) (l : Nat) (x : Lane) : (s.setLane l x).led = s.led := rfl
@[simp] theorem State.setLane_jr (s : State) (l : Nat) (x : Lane) : (s.setLane l x).jr = s.jr := rfl
@[simp] theorem State.setLane_host (s : State) (l : Nat) (x : Lane) : (s.setLane l x).host = s.host := rfl
@[simp] theorem State.setLane_rck (s : State) (l : Nat) (x : Lane) : (s.setLane l x).rck = s.rck := rfl
@[simp] theorem State.setLane_cel (s : State) (l : Nat) (x : Lane) : (s.setLane l x).cel = s.cel := rfl
@[simp] theorem State.setLane_nvm (s : State) (l : Nat) (x : Lane) : (s.setLane l x).nvm = s.nvm := rfl
@[simp] theorem State.setLane_vin (s : State) (l : Nat) (x : Lane) : (s.setLane l x).vin = s.vin := rfl
@[simp] theorem State.setLane_stn (s : State) (l : Nat) (x : Lane) : (s.setLane l x).stn = s.stn := rfl
@[simp] theorem State.setLane_poly (s : State) (l : Nat) (x : Lane) : (s.setLane l x).poly = s.poly := rfl
@[simp] theorem State.setLane_fbk (s : State) (l : Nat) (x : Lane) : (s.setLane l x).fbk = s.fbk := rfl
@[simp] theorem State.setLane_probes (s : State) (l : Nat) (x : Lane) : (s.setLane l x).probes = s.probes := rfl
@[simp] theorem State.setLane_pulses (s : State) (l : Nat) (x : Lane) : (s.setLane l x).pulses = s.pulses := rfl
@[simp] theorem State.setLane_cmpAt (s : State) (l : Nat) (x : Lane) : (s.setLane l x).cmpAt = s.cmpAt := rfl
@[simp] theorem State.setLane_mot (s : State) (l : Nat) (x : Lane) : (s.setLane l x).mot = s.mot := rfl
@[simp] theorem State.setLane_brg (s : State) (l : Nat) (x : Lane) : (s.setLane l x).brg = s.brg := rfl
@[simp] theorem State.setLane_axis (s : State) (l : Nat) (x : Lane) : (s.setLane l x).axis = s.axis := rfl
@[simp] theorem State.setLane_jam (s : State) (l : Nat) (x : Lane) : (s.setLane l x).jam = s.jam := rfl
@[simp] theorem State.setLane_cle (s : State) (l : Nat) (x : Lane) : (s.setLane l x).cle = s.cle := rfl
@[simp] theorem State.setLane_heat (s : State) (l : Nat) (x : Lane) : (s.setLane l x).heat = s.heat := rfl
@[simp] theorem State.setLane_fuse (s : State) (l : Nat) (x : Lane) : (s.setLane l x).fuse = s.fuse := rfl
@[simp] theorem State.setLane_sec (s : State) (l : Nat) (x : Lane) : (s.setLane l x).sec = s.sec := rfl
@[simp] theorem State.setLane_psq (s : State) (l : Nat) (x : Lane) : (s.setLane l x).psq = s.psq := rfl
@[simp] theorem State.setLane_chn (s : State) (l : Nat) (x : Lane) : (s.setLane l x).chn = s.chn := rfl
@[simp] theorem State.setLane_rst (s : State) (l : Nat) (x : Lane) : (s.setLane l x).rst = s.rst := rfl
@[simp] theorem State.setLane_start (s : State) (l : Nat) (x : Lane) : (s.setLane l x).start = s.start := rfl
@[simp] theorem State.setLane_lost (s : State) (l : Nat) (x : Lane) : (s.setLane l x).lost = s.lost := rfl
@[simp] theorem State.setLane_bootEnded (s : State) (l : Nat) (x : Lane) : (s.setLane l x).bootEnded = s.bootEnded := rfl
@[simp] theorem State.setLane_getR (s : State) (l : Nat) (x : Lane) (o : Nat) : (s.setLane l x).getR o = s.getR o := rfl
@[simp] theorem State.setLane_getF (s : State) (l : Nat) (x : Lane) (g : Fld) : (s.setLane l x).getF g = s.getF g := rfl
@[simp] theorem State.setLane_flag (s : State) (l : Nat) (x : Lane) (g : Fld) : (s.setLane l x).flag g = s.flag g := rfl
@[simp] theorem State.setLane_thr (s : State) (l : Nat) (x : Lane) (u : Fin 16) : (s.setLane l x).thr u = s.thr u := rfl

/-! ## updStn -/

@[simp] theorem State.updStn_pending (s : State) (i : Fin 6) (f : Station → Station) : (s.updStn i f).pending = s.pending := rfl
@[simp] theorem State.updStn_tsc (s : State) (i : Fin 6) (f : Station → Station) : (s.updStn i f).tsc = s.tsc := rfl
@[simp] theorem State.updStn_regs (s : State) (i : Fin 6) (f : Station → Station) : (s.updStn i f).regs = s.regs := rfl
@[simp] theorem State.updStn_stage (s : State) (i : Fin 6) (f : Station → Station) : (s.updStn i f).stage = s.stage := rfl
@[simp] theorem State.updStn_up (s : State) (i : Fin 6) (f : Station → Station) : (s.updStn i f).up = s.up := rfl
@[simp] theorem State.updStn_low (s : State) (i : Fin 6) (f : Station → Station) : (s.updStn i f).low = s.low := rfl
@[simp] theorem State.updStn_shadow (s : State) (i : Fin 6) (f : Station → Station) : (s.updStn i f).shadow = s.shadow := rfl
@[simp] theorem State.updStn_freeCtr (s : State) (i : Fin 6) (f : Station → Station) : (s.updStn i f).freeCtr = s.freeCtr := rfl
@[simp] theorem State.updStn_mem (s : State) (i : Fin 6) (f : Station → Station) : (s.updStn i f).mem = s.mem := rfl
@[simp] theorem State.updStn_seq (s : State) (i : Fin 6) (f : Station → Station) : (s.updStn i f).seq = s.seq := rfl
@[simp] theorem State.updStn_ev (s : State) (i : Fin 6) (f : Station → Station) : (s.updStn i f).ev = s.ev := rfl
@[simp] theorem State.updStn_led (s : State) (i : Fin 6) (f : Station → Station) : (s.updStn i f).led = s.led := rfl
@[simp] theorem State.updStn_jr (s : State) (i : Fin 6) (f : Station → Station) : (s.updStn i f).jr = s.jr := rfl
@[simp] theorem State.updStn_host (s : State) (i : Fin 6) (f : Station → Station) : (s.updStn i f).host = s.host := rfl
@[simp] theorem State.updStn_rck (s : State) (i : Fin 6) (f : Station → Station) : (s.updStn i f).rck = s.rck := rfl
@[simp] theorem State.updStn_prs (s : State) (i : Fin 6) (f : Station → Station) : (s.updStn i f).prs = s.prs := rfl
@[simp] theorem State.updStn_cel (s : State) (i : Fin 6) (f : Station → Station) : (s.updStn i f).cel = s.cel := rfl
@[simp] theorem State.updStn_nvm (s : State) (i : Fin 6) (f : Station → Station) : (s.updStn i f).nvm = s.nvm := rfl
@[simp] theorem State.updStn_vin (s : State) (i : Fin 6) (f : Station → Station) : (s.updStn i f).vin = s.vin := rfl
@[simp] theorem State.updStn_poly (s : State) (i : Fin 6) (f : Station → Station) : (s.updStn i f).poly = s.poly := rfl
@[simp] theorem State.updStn_fbk (s : State) (i : Fin 6) (f : Station → Station) : (s.updStn i f).fbk = s.fbk := rfl
@[simp] theorem State.updStn_probes (s : State) (i : Fin 6) (f : Station → Station) : (s.updStn i f).probes = s.probes := rfl
@[simp] theorem State.updStn_pulses (s : State) (i : Fin 6) (f : Station → Station) : (s.updStn i f).pulses = s.pulses := rfl
@[simp] theorem State.updStn_cmpAt (s : State) (i : Fin 6) (f : Station → Station) : (s.updStn i f).cmpAt = s.cmpAt := rfl
@[simp] theorem State.updStn_mot (s : State) (i : Fin 6) (f : Station → Station) : (s.updStn i f).mot = s.mot := rfl
@[simp] theorem State.updStn_brg (s : State) (i : Fin 6) (f : Station → Station) : (s.updStn i f).brg = s.brg := rfl
@[simp] theorem State.updStn_axis (s : State) (i : Fin 6) (f : Station → Station) : (s.updStn i f).axis = s.axis := rfl
@[simp] theorem State.updStn_jam (s : State) (i : Fin 6) (f : Station → Station) : (s.updStn i f).jam = s.jam := rfl
@[simp] theorem State.updStn_cle (s : State) (i : Fin 6) (f : Station → Station) : (s.updStn i f).cle = s.cle := rfl
@[simp] theorem State.updStn_heat (s : State) (i : Fin 6) (f : Station → Station) : (s.updStn i f).heat = s.heat := rfl
@[simp] theorem State.updStn_fuse (s : State) (i : Fin 6) (f : Station → Station) : (s.updStn i f).fuse = s.fuse := rfl
@[simp] theorem State.updStn_sec (s : State) (i : Fin 6) (f : Station → Station) : (s.updStn i f).sec = s.sec := rfl
@[simp] theorem State.updStn_psq (s : State) (i : Fin 6) (f : Station → Station) : (s.updStn i f).psq = s.psq := rfl
@[simp] theorem State.updStn_chn (s : State) (i : Fin 6) (f : Station → Station) : (s.updStn i f).chn = s.chn := rfl
@[simp] theorem State.updStn_rst (s : State) (i : Fin 6) (f : Station → Station) : (s.updStn i f).rst = s.rst := rfl
@[simp] theorem State.updStn_start (s : State) (i : Fin 6) (f : Station → Station) : (s.updStn i f).start = s.start := rfl
@[simp] theorem State.updStn_lost (s : State) (i : Fin 6) (f : Station → Station) : (s.updStn i f).lost = s.lost := rfl
@[simp] theorem State.updStn_bootEnded (s : State) (i : Fin 6) (f : Station → Station) : (s.updStn i f).bootEnded = s.bootEnded := rfl
@[simp] theorem State.updStn_getR (s : State) (i : Fin 6) (f : Station → Station) (o : Nat) : (s.updStn i f).getR o = s.getR o := rfl
@[simp] theorem State.updStn_getF (s : State) (i : Fin 6) (f : Station → Station) (g : Fld) : (s.updStn i f).getF g = s.getF g := rfl
@[simp] theorem State.updStn_flag (s : State) (i : Fin 6) (f : Station → Station) (g : Fld) : (s.updStn i f).flag g = s.flag g := rfl
@[simp] theorem State.updStn_thr (s : State) (i : Fin 6) (f : Station → Station) (u : Fin 16) : (s.updStn i f).thr u = s.thr u := rfl

/-! ## updCon -/

@[simp] theorem State.updCon_pending (s : State) (p : Fin 4) (f : ConPort → ConPort) : (s.updCon p f).pending = s.pending := rfl
@[simp] theorem State.updCon_tsc (s : State) (p : Fin 4) (f : ConPort → ConPort) : (s.updCon p f).tsc = s.tsc := rfl
@[simp] theorem State.updCon_regs (s : State) (p : Fin 4) (f : ConPort → ConPort) : (s.updCon p f).regs = s.regs := rfl
@[simp] theorem State.updCon_stage (s : State) (p : Fin 4) (f : ConPort → ConPort) : (s.updCon p f).stage = s.stage := rfl
@[simp] theorem State.updCon_up (s : State) (p : Fin 4) (f : ConPort → ConPort) : (s.updCon p f).up = s.up := rfl
@[simp] theorem State.updCon_low (s : State) (p : Fin 4) (f : ConPort → ConPort) : (s.updCon p f).low = s.low := rfl
@[simp] theorem State.updCon_shadow (s : State) (p : Fin 4) (f : ConPort → ConPort) : (s.updCon p f).shadow = s.shadow := rfl
@[simp] theorem State.updCon_freeCtr (s : State) (p : Fin 4) (f : ConPort → ConPort) : (s.updCon p f).freeCtr = s.freeCtr := rfl
@[simp] theorem State.updCon_mem (s : State) (p : Fin 4) (f : ConPort → ConPort) : (s.updCon p f).mem = s.mem := rfl
@[simp] theorem State.updCon_seq (s : State) (p : Fin 4) (f : ConPort → ConPort) : (s.updCon p f).seq = s.seq := rfl
@[simp] theorem State.updCon_ev (s : State) (p : Fin 4) (f : ConPort → ConPort) : (s.updCon p f).ev = s.ev := rfl
@[simp] theorem State.updCon_led (s : State) (p : Fin 4) (f : ConPort → ConPort) : (s.updCon p f).led = s.led := rfl
@[simp] theorem State.updCon_jr (s : State) (p : Fin 4) (f : ConPort → ConPort) : (s.updCon p f).jr = s.jr := rfl
@[simp] theorem State.updCon_host (s : State) (p : Fin 4) (f : ConPort → ConPort) : (s.updCon p f).host = s.host := rfl
@[simp] theorem State.updCon_rck (s : State) (p : Fin 4) (f : ConPort → ConPort) : (s.updCon p f).rck = s.rck := rfl
@[simp] theorem State.updCon_prs (s : State) (p : Fin 4) (f : ConPort → ConPort) : (s.updCon p f).prs = s.prs := rfl
@[simp] theorem State.updCon_cel (s : State) (p : Fin 4) (f : ConPort → ConPort) : (s.updCon p f).cel = s.cel := rfl
@[simp] theorem State.updCon_nvm (s : State) (p : Fin 4) (f : ConPort → ConPort) : (s.updCon p f).nvm = s.nvm := rfl
@[simp] theorem State.updCon_vin (s : State) (p : Fin 4) (f : ConPort → ConPort) : (s.updCon p f).vin = s.vin := rfl
@[simp] theorem State.updCon_stn (s : State) (p : Fin 4) (f : ConPort → ConPort) : (s.updCon p f).stn = s.stn := rfl
@[simp] theorem State.updCon_poly (s : State) (p : Fin 4) (f : ConPort → ConPort) : (s.updCon p f).poly = s.poly := rfl
@[simp] theorem State.updCon_fbk (s : State) (p : Fin 4) (f : ConPort → ConPort) : (s.updCon p f).fbk = s.fbk := rfl
@[simp] theorem State.updCon_probes (s : State) (p : Fin 4) (f : ConPort → ConPort) : (s.updCon p f).probes = s.probes := rfl
@[simp] theorem State.updCon_pulses (s : State) (p : Fin 4) (f : ConPort → ConPort) : (s.updCon p f).pulses = s.pulses := rfl
@[simp] theorem State.updCon_cmpAt (s : State) (p : Fin 4) (f : ConPort → ConPort) : (s.updCon p f).cmpAt = s.cmpAt := rfl
@[simp] theorem State.updCon_mot (s : State) (p : Fin 4) (f : ConPort → ConPort) : (s.updCon p f).mot = s.mot := rfl
@[simp] theorem State.updCon_brg (s : State) (p : Fin 4) (f : ConPort → ConPort) : (s.updCon p f).brg = s.brg := rfl
@[simp] theorem State.updCon_axis (s : State) (p : Fin 4) (f : ConPort → ConPort) : (s.updCon p f).axis = s.axis := rfl
@[simp] theorem State.updCon_jam (s : State) (p : Fin 4) (f : ConPort → ConPort) : (s.updCon p f).jam = s.jam := rfl
@[simp] theorem State.updCon_cle (s : State) (p : Fin 4) (f : ConPort → ConPort) : (s.updCon p f).cle = s.cle := rfl
@[simp] theorem State.updCon_heat (s : State) (p : Fin 4) (f : ConPort → ConPort) : (s.updCon p f).heat = s.heat := rfl
@[simp] theorem State.updCon_fuse (s : State) (p : Fin 4) (f : ConPort → ConPort) : (s.updCon p f).fuse = s.fuse := rfl
@[simp] theorem State.updCon_psq (s : State) (p : Fin 4) (f : ConPort → ConPort) : (s.updCon p f).psq = s.psq := rfl
@[simp] theorem State.updCon_chn (s : State) (p : Fin 4) (f : ConPort → ConPort) : (s.updCon p f).chn = s.chn := rfl
@[simp] theorem State.updCon_rst (s : State) (p : Fin 4) (f : ConPort → ConPort) : (s.updCon p f).rst = s.rst := rfl
@[simp] theorem State.updCon_start (s : State) (p : Fin 4) (f : ConPort → ConPort) : (s.updCon p f).start = s.start := rfl
@[simp] theorem State.updCon_lost (s : State) (p : Fin 4) (f : ConPort → ConPort) : (s.updCon p f).lost = s.lost := rfl
@[simp] theorem State.updCon_bootEnded (s : State) (p : Fin 4) (f : ConPort → ConPort) : (s.updCon p f).bootEnded = s.bootEnded := rfl
@[simp] theorem State.updCon_getR (s : State) (p : Fin 4) (f : ConPort → ConPort) (o : Nat) : (s.updCon p f).getR o = s.getR o := rfl
@[simp] theorem State.updCon_getF (s : State) (p : Fin 4) (f : ConPort → ConPort) (g : Fld) : (s.updCon p f).getF g = s.getF g := rfl
@[simp] theorem State.updCon_flag (s : State) (p : Fin 4) (f : ConPort → ConPort) (g : Fld) : (s.updCon p f).flag g = s.flag g := rfl
@[simp] theorem State.updCon_thr (s : State) (p : Fin 4) (f : ConPort → ConPort) (u : Fin 16) : (s.updCon p f).thr u = s.thr u := rfl

/-! ## updFbk -/

@[simp] theorem State.updFbk_pending (s : State) (c : Fin 18) (f : Fbk → Fbk) : (s.updFbk c f).pending = s.pending := rfl
@[simp] theorem State.updFbk_tsc (s : State) (c : Fin 18) (f : Fbk → Fbk) : (s.updFbk c f).tsc = s.tsc := rfl
@[simp] theorem State.updFbk_regs (s : State) (c : Fin 18) (f : Fbk → Fbk) : (s.updFbk c f).regs = s.regs := rfl
@[simp] theorem State.updFbk_stage (s : State) (c : Fin 18) (f : Fbk → Fbk) : (s.updFbk c f).stage = s.stage := rfl
@[simp] theorem State.updFbk_up (s : State) (c : Fin 18) (f : Fbk → Fbk) : (s.updFbk c f).up = s.up := rfl
@[simp] theorem State.updFbk_low (s : State) (c : Fin 18) (f : Fbk → Fbk) : (s.updFbk c f).low = s.low := rfl
@[simp] theorem State.updFbk_shadow (s : State) (c : Fin 18) (f : Fbk → Fbk) : (s.updFbk c f).shadow = s.shadow := rfl
@[simp] theorem State.updFbk_freeCtr (s : State) (c : Fin 18) (f : Fbk → Fbk) : (s.updFbk c f).freeCtr = s.freeCtr := rfl
@[simp] theorem State.updFbk_mem (s : State) (c : Fin 18) (f : Fbk → Fbk) : (s.updFbk c f).mem = s.mem := rfl
@[simp] theorem State.updFbk_seq (s : State) (c : Fin 18) (f : Fbk → Fbk) : (s.updFbk c f).seq = s.seq := rfl
@[simp] theorem State.updFbk_ev (s : State) (c : Fin 18) (f : Fbk → Fbk) : (s.updFbk c f).ev = s.ev := rfl
@[simp] theorem State.updFbk_led (s : State) (c : Fin 18) (f : Fbk → Fbk) : (s.updFbk c f).led = s.led := rfl
@[simp] theorem State.updFbk_jr (s : State) (c : Fin 18) (f : Fbk → Fbk) : (s.updFbk c f).jr = s.jr := rfl
@[simp] theorem State.updFbk_host (s : State) (c : Fin 18) (f : Fbk → Fbk) : (s.updFbk c f).host = s.host := rfl
@[simp] theorem State.updFbk_rck (s : State) (c : Fin 18) (f : Fbk → Fbk) : (s.updFbk c f).rck = s.rck := rfl
@[simp] theorem State.updFbk_prs (s : State) (c : Fin 18) (f : Fbk → Fbk) : (s.updFbk c f).prs = s.prs := rfl
@[simp] theorem State.updFbk_cel (s : State) (c : Fin 18) (f : Fbk → Fbk) : (s.updFbk c f).cel = s.cel := rfl
@[simp] theorem State.updFbk_nvm (s : State) (c : Fin 18) (f : Fbk → Fbk) : (s.updFbk c f).nvm = s.nvm := rfl
@[simp] theorem State.updFbk_vin (s : State) (c : Fin 18) (f : Fbk → Fbk) : (s.updFbk c f).vin = s.vin := rfl
@[simp] theorem State.updFbk_stn (s : State) (c : Fin 18) (f : Fbk → Fbk) : (s.updFbk c f).stn = s.stn := rfl
@[simp] theorem State.updFbk_poly (s : State) (c : Fin 18) (f : Fbk → Fbk) : (s.updFbk c f).poly = s.poly := rfl
@[simp] theorem State.updFbk_probes (s : State) (c : Fin 18) (f : Fbk → Fbk) : (s.updFbk c f).probes = s.probes := rfl
@[simp] theorem State.updFbk_pulses (s : State) (c : Fin 18) (f : Fbk → Fbk) : (s.updFbk c f).pulses = s.pulses := rfl
@[simp] theorem State.updFbk_cmpAt (s : State) (c : Fin 18) (f : Fbk → Fbk) : (s.updFbk c f).cmpAt = s.cmpAt := rfl
@[simp] theorem State.updFbk_mot (s : State) (c : Fin 18) (f : Fbk → Fbk) : (s.updFbk c f).mot = s.mot := rfl
@[simp] theorem State.updFbk_brg (s : State) (c : Fin 18) (f : Fbk → Fbk) : (s.updFbk c f).brg = s.brg := rfl
@[simp] theorem State.updFbk_axis (s : State) (c : Fin 18) (f : Fbk → Fbk) : (s.updFbk c f).axis = s.axis := rfl
@[simp] theorem State.updFbk_jam (s : State) (c : Fin 18) (f : Fbk → Fbk) : (s.updFbk c f).jam = s.jam := rfl
@[simp] theorem State.updFbk_cle (s : State) (c : Fin 18) (f : Fbk → Fbk) : (s.updFbk c f).cle = s.cle := rfl
@[simp] theorem State.updFbk_heat (s : State) (c : Fin 18) (f : Fbk → Fbk) : (s.updFbk c f).heat = s.heat := rfl
@[simp] theorem State.updFbk_fuse (s : State) (c : Fin 18) (f : Fbk → Fbk) : (s.updFbk c f).fuse = s.fuse := rfl
@[simp] theorem State.updFbk_sec (s : State) (c : Fin 18) (f : Fbk → Fbk) : (s.updFbk c f).sec = s.sec := rfl
@[simp] theorem State.updFbk_psq (s : State) (c : Fin 18) (f : Fbk → Fbk) : (s.updFbk c f).psq = s.psq := rfl
@[simp] theorem State.updFbk_chn (s : State) (c : Fin 18) (f : Fbk → Fbk) : (s.updFbk c f).chn = s.chn := rfl
@[simp] theorem State.updFbk_rst (s : State) (c : Fin 18) (f : Fbk → Fbk) : (s.updFbk c f).rst = s.rst := rfl
@[simp] theorem State.updFbk_start (s : State) (c : Fin 18) (f : Fbk → Fbk) : (s.updFbk c f).start = s.start := rfl
@[simp] theorem State.updFbk_lost (s : State) (c : Fin 18) (f : Fbk → Fbk) : (s.updFbk c f).lost = s.lost := rfl
@[simp] theorem State.updFbk_bootEnded (s : State) (c : Fin 18) (f : Fbk → Fbk) : (s.updFbk c f).bootEnded = s.bootEnded := rfl
@[simp] theorem State.updFbk_getR (s : State) (c : Fin 18) (f : Fbk → Fbk) (o : Nat) : (s.updFbk c f).getR o = s.getR o := rfl
@[simp] theorem State.updFbk_getF (s : State) (c : Fin 18) (f : Fbk → Fbk) (g : Fld) : (s.updFbk c f).getF g = s.getF g := rfl
@[simp] theorem State.updFbk_flag (s : State) (c : Fin 18) (f : Fbk → Fbk) (g : Fld) : (s.updFbk c f).flag g = s.flag g := rfl
@[simp] theorem State.updFbk_thr (s : State) (c : Fin 18) (f : Fbk → Fbk) (u : Fin 16) : (s.updFbk c f).thr u = s.thr u := rfl

/-! ## updMot -/

@[simp] theorem State.updMot_pending (s : State) (n : Fin 12) (f : Motor → Motor) : (s.updMot n f).pending = s.pending := rfl
@[simp] theorem State.updMot_tsc (s : State) (n : Fin 12) (f : Motor → Motor) : (s.updMot n f).tsc = s.tsc := rfl
@[simp] theorem State.updMot_regs (s : State) (n : Fin 12) (f : Motor → Motor) : (s.updMot n f).regs = s.regs := rfl
@[simp] theorem State.updMot_stage (s : State) (n : Fin 12) (f : Motor → Motor) : (s.updMot n f).stage = s.stage := rfl
@[simp] theorem State.updMot_up (s : State) (n : Fin 12) (f : Motor → Motor) : (s.updMot n f).up = s.up := rfl
@[simp] theorem State.updMot_low (s : State) (n : Fin 12) (f : Motor → Motor) : (s.updMot n f).low = s.low := rfl
@[simp] theorem State.updMot_shadow (s : State) (n : Fin 12) (f : Motor → Motor) : (s.updMot n f).shadow = s.shadow := rfl
@[simp] theorem State.updMot_freeCtr (s : State) (n : Fin 12) (f : Motor → Motor) : (s.updMot n f).freeCtr = s.freeCtr := rfl
@[simp] theorem State.updMot_mem (s : State) (n : Fin 12) (f : Motor → Motor) : (s.updMot n f).mem = s.mem := rfl
@[simp] theorem State.updMot_seq (s : State) (n : Fin 12) (f : Motor → Motor) : (s.updMot n f).seq = s.seq := rfl
@[simp] theorem State.updMot_ev (s : State) (n : Fin 12) (f : Motor → Motor) : (s.updMot n f).ev = s.ev := rfl
@[simp] theorem State.updMot_led (s : State) (n : Fin 12) (f : Motor → Motor) : (s.updMot n f).led = s.led := rfl
@[simp] theorem State.updMot_jr (s : State) (n : Fin 12) (f : Motor → Motor) : (s.updMot n f).jr = s.jr := rfl
@[simp] theorem State.updMot_host (s : State) (n : Fin 12) (f : Motor → Motor) : (s.updMot n f).host = s.host := rfl
@[simp] theorem State.updMot_rck (s : State) (n : Fin 12) (f : Motor → Motor) : (s.updMot n f).rck = s.rck := rfl
@[simp] theorem State.updMot_prs (s : State) (n : Fin 12) (f : Motor → Motor) : (s.updMot n f).prs = s.prs := rfl
@[simp] theorem State.updMot_cel (s : State) (n : Fin 12) (f : Motor → Motor) : (s.updMot n f).cel = s.cel := rfl
@[simp] theorem State.updMot_nvm (s : State) (n : Fin 12) (f : Motor → Motor) : (s.updMot n f).nvm = s.nvm := rfl
@[simp] theorem State.updMot_vin (s : State) (n : Fin 12) (f : Motor → Motor) : (s.updMot n f).vin = s.vin := rfl
@[simp] theorem State.updMot_stn (s : State) (n : Fin 12) (f : Motor → Motor) : (s.updMot n f).stn = s.stn := rfl
@[simp] theorem State.updMot_poly (s : State) (n : Fin 12) (f : Motor → Motor) : (s.updMot n f).poly = s.poly := rfl
@[simp] theorem State.updMot_fbk (s : State) (n : Fin 12) (f : Motor → Motor) : (s.updMot n f).fbk = s.fbk := rfl
@[simp] theorem State.updMot_probes (s : State) (n : Fin 12) (f : Motor → Motor) : (s.updMot n f).probes = s.probes := rfl
@[simp] theorem State.updMot_pulses (s : State) (n : Fin 12) (f : Motor → Motor) : (s.updMot n f).pulses = s.pulses := rfl
@[simp] theorem State.updMot_cmpAt (s : State) (n : Fin 12) (f : Motor → Motor) : (s.updMot n f).cmpAt = s.cmpAt := rfl
@[simp] theorem State.updMot_brg (s : State) (n : Fin 12) (f : Motor → Motor) : (s.updMot n f).brg = s.brg := rfl
@[simp] theorem State.updMot_axis (s : State) (n : Fin 12) (f : Motor → Motor) : (s.updMot n f).axis = s.axis := rfl
@[simp] theorem State.updMot_jam (s : State) (n : Fin 12) (f : Motor → Motor) : (s.updMot n f).jam = s.jam := rfl
@[simp] theorem State.updMot_cle (s : State) (n : Fin 12) (f : Motor → Motor) : (s.updMot n f).cle = s.cle := rfl
@[simp] theorem State.updMot_heat (s : State) (n : Fin 12) (f : Motor → Motor) : (s.updMot n f).heat = s.heat := rfl
@[simp] theorem State.updMot_fuse (s : State) (n : Fin 12) (f : Motor → Motor) : (s.updMot n f).fuse = s.fuse := rfl
@[simp] theorem State.updMot_sec (s : State) (n : Fin 12) (f : Motor → Motor) : (s.updMot n f).sec = s.sec := rfl
@[simp] theorem State.updMot_psq (s : State) (n : Fin 12) (f : Motor → Motor) : (s.updMot n f).psq = s.psq := rfl
@[simp] theorem State.updMot_chn (s : State) (n : Fin 12) (f : Motor → Motor) : (s.updMot n f).chn = s.chn := rfl
@[simp] theorem State.updMot_rst (s : State) (n : Fin 12) (f : Motor → Motor) : (s.updMot n f).rst = s.rst := rfl
@[simp] theorem State.updMot_start (s : State) (n : Fin 12) (f : Motor → Motor) : (s.updMot n f).start = s.start := rfl
@[simp] theorem State.updMot_lost (s : State) (n : Fin 12) (f : Motor → Motor) : (s.updMot n f).lost = s.lost := rfl
@[simp] theorem State.updMot_bootEnded (s : State) (n : Fin 12) (f : Motor → Motor) : (s.updMot n f).bootEnded = s.bootEnded := rfl
@[simp] theorem State.updMot_getR (s : State) (n : Fin 12) (f : Motor → Motor) (o : Nat) : (s.updMot n f).getR o = s.getR o := rfl
@[simp] theorem State.updMot_getF (s : State) (n : Fin 12) (f : Motor → Motor) (g : Fld) : (s.updMot n f).getF g = s.getF g := rfl
@[simp] theorem State.updMot_flag (s : State) (n : Fin 12) (f : Motor → Motor) (g : Fld) : (s.updMot n f).flag g = s.flag g := rfl
@[simp] theorem State.updMot_thr (s : State) (n : Fin 12) (f : Motor → Motor) (u : Fin 16) : (s.updMot n f).thr u = s.thr u := rfl

/-! ## setHalf -/

@[simp] theorem State.setHalf_pending (s : State) (h : Nat) (x : Half) : (s.setHalf h x).pending = s.pending := rfl
@[simp] theorem State.setHalf_tsc (s : State) (h : Nat) (x : Half) : (s.setHalf h x).tsc = s.tsc := rfl
@[simp] theorem State.setHalf_regs (s : State) (h : Nat) (x : Half) : (s.setHalf h x).regs = s.regs := rfl
@[simp] theorem State.setHalf_stage (s : State) (h : Nat) (x : Half) : (s.setHalf h x).stage = s.stage := rfl
@[simp] theorem State.setHalf_up (s : State) (h : Nat) (x : Half) : (s.setHalf h x).up = s.up := rfl
@[simp] theorem State.setHalf_low (s : State) (h : Nat) (x : Half) : (s.setHalf h x).low = s.low := rfl
@[simp] theorem State.setHalf_shadow (s : State) (h : Nat) (x : Half) : (s.setHalf h x).shadow = s.shadow := rfl
@[simp] theorem State.setHalf_freeCtr (s : State) (h : Nat) (x : Half) : (s.setHalf h x).freeCtr = s.freeCtr := rfl
@[simp] theorem State.setHalf_mem (s : State) (h : Nat) (x : Half) : (s.setHalf h x).mem = s.mem := rfl
@[simp] theorem State.setHalf_seq (s : State) (h : Nat) (x : Half) : (s.setHalf h x).seq = s.seq := rfl
@[simp] theorem State.setHalf_ev (s : State) (h : Nat) (x : Half) : (s.setHalf h x).ev = s.ev := rfl
@[simp] theorem State.setHalf_led (s : State) (h : Nat) (x : Half) : (s.setHalf h x).led = s.led := rfl
@[simp] theorem State.setHalf_jr (s : State) (h : Nat) (x : Half) : (s.setHalf h x).jr = s.jr := rfl
@[simp] theorem State.setHalf_host (s : State) (h : Nat) (x : Half) : (s.setHalf h x).host = s.host := rfl
@[simp] theorem State.setHalf_rck (s : State) (h : Nat) (x : Half) : (s.setHalf h x).rck = s.rck := rfl
@[simp] theorem State.setHalf_prs (s : State) (h : Nat) (x : Half) : (s.setHalf h x).prs = s.prs := rfl
@[simp] theorem State.setHalf_cel (s : State) (h : Nat) (x : Half) : (s.setHalf h x).cel = s.cel := rfl
@[simp] theorem State.setHalf_nvm (s : State) (h : Nat) (x : Half) : (s.setHalf h x).nvm = s.nvm := rfl
@[simp] theorem State.setHalf_vin (s : State) (h : Nat) (x : Half) : (s.setHalf h x).vin = s.vin := rfl
@[simp] theorem State.setHalf_stn (s : State) (h : Nat) (x : Half) : (s.setHalf h x).stn = s.stn := rfl
@[simp] theorem State.setHalf_poly (s : State) (h : Nat) (x : Half) : (s.setHalf h x).poly = s.poly := rfl
@[simp] theorem State.setHalf_fbk (s : State) (h : Nat) (x : Half) : (s.setHalf h x).fbk = s.fbk := rfl
@[simp] theorem State.setHalf_probes (s : State) (h : Nat) (x : Half) : (s.setHalf h x).probes = s.probes := rfl
@[simp] theorem State.setHalf_pulses (s : State) (h : Nat) (x : Half) : (s.setHalf h x).pulses = s.pulses := rfl
@[simp] theorem State.setHalf_cmpAt (s : State) (h : Nat) (x : Half) : (s.setHalf h x).cmpAt = s.cmpAt := rfl
@[simp] theorem State.setHalf_mot (s : State) (h : Nat) (x : Half) : (s.setHalf h x).mot = s.mot := rfl
@[simp] theorem State.setHalf_axis (s : State) (h : Nat) (x : Half) : (s.setHalf h x).axis = s.axis := rfl
@[simp] theorem State.setHalf_jam (s : State) (h : Nat) (x : Half) : (s.setHalf h x).jam = s.jam := rfl
@[simp] theorem State.setHalf_cle (s : State) (h : Nat) (x : Half) : (s.setHalf h x).cle = s.cle := rfl
@[simp] theorem State.setHalf_heat (s : State) (h : Nat) (x : Half) : (s.setHalf h x).heat = s.heat := rfl
@[simp] theorem State.setHalf_fuse (s : State) (h : Nat) (x : Half) : (s.setHalf h x).fuse = s.fuse := rfl
@[simp] theorem State.setHalf_sec (s : State) (h : Nat) (x : Half) : (s.setHalf h x).sec = s.sec := rfl
@[simp] theorem State.setHalf_psq (s : State) (h : Nat) (x : Half) : (s.setHalf h x).psq = s.psq := rfl
@[simp] theorem State.setHalf_chn (s : State) (h : Nat) (x : Half) : (s.setHalf h x).chn = s.chn := rfl
@[simp] theorem State.setHalf_rst (s : State) (h : Nat) (x : Half) : (s.setHalf h x).rst = s.rst := rfl
@[simp] theorem State.setHalf_start (s : State) (h : Nat) (x : Half) : (s.setHalf h x).start = s.start := rfl
@[simp] theorem State.setHalf_lost (s : State) (h : Nat) (x : Half) : (s.setHalf h x).lost = s.lost := rfl
@[simp] theorem State.setHalf_bootEnded (s : State) (h : Nat) (x : Half) : (s.setHalf h x).bootEnded = s.bootEnded := rfl
@[simp] theorem State.setHalf_getR (s : State) (h : Nat) (x : Half) (o : Nat) : (s.setHalf h x).getR o = s.getR o := rfl
@[simp] theorem State.setHalf_getF (s : State) (h : Nat) (x : Half) (g : Fld) : (s.setHalf h x).getF g = s.getF g := rfl
@[simp] theorem State.setHalf_flag (s : State) (h : Nat) (x : Half) (g : Fld) : (s.setHalf h x).flag g = s.flag g := rfl
@[simp] theorem State.setHalf_thr (s : State) (h : Nat) (x : Half) (u : Fin 16) : (s.setHalf h x).thr u = s.thr u := rfl

/-! ## setGrp -/

@[simp] theorem State.setGrp_pending (s : State) (g : Nat) (x : Group) : (s.setGrp g x).pending = s.pending := rfl
@[simp] theorem State.setGrp_tsc (s : State) (g : Nat) (x : Group) : (s.setGrp g x).tsc = s.tsc := rfl
@[simp] theorem State.setGrp_regs (s : State) (g : Nat) (x : Group) : (s.setGrp g x).regs = s.regs := rfl
@[simp] theorem State.setGrp_stage (s : State) (g : Nat) (x : Group) : (s.setGrp g x).stage = s.stage := rfl
@[simp] theorem State.setGrp_up (s : State) (g : Nat) (x : Group) : (s.setGrp g x).up = s.up := rfl
@[simp] theorem State.setGrp_low (s : State) (g : Nat) (x : Group) : (s.setGrp g x).low = s.low := rfl
@[simp] theorem State.setGrp_shadow (s : State) (g : Nat) (x : Group) : (s.setGrp g x).shadow = s.shadow := rfl
@[simp] theorem State.setGrp_freeCtr (s : State) (g : Nat) (x : Group) : (s.setGrp g x).freeCtr = s.freeCtr := rfl
@[simp] theorem State.setGrp_mem (s : State) (g : Nat) (x : Group) : (s.setGrp g x).mem = s.mem := rfl
@[simp] theorem State.setGrp_seq (s : State) (g : Nat) (x : Group) : (s.setGrp g x).seq = s.seq := rfl
@[simp] theorem State.setGrp_ev (s : State) (g : Nat) (x : Group) : (s.setGrp g x).ev = s.ev := rfl
@[simp] theorem State.setGrp_led (s : State) (g : Nat) (x : Group) : (s.setGrp g x).led = s.led := rfl
@[simp] theorem State.setGrp_jr (s : State) (g : Nat) (x : Group) : (s.setGrp g x).jr = s.jr := rfl
@[simp] theorem State.setGrp_host (s : State) (g : Nat) (x : Group) : (s.setGrp g x).host = s.host := rfl
@[simp] theorem State.setGrp_rck (s : State) (g : Nat) (x : Group) : (s.setGrp g x).rck = s.rck := rfl
@[simp] theorem State.setGrp_prs (s : State) (g : Nat) (x : Group) : (s.setGrp g x).prs = s.prs := rfl
@[simp] theorem State.setGrp_cel (s : State) (g : Nat) (x : Group) : (s.setGrp g x).cel = s.cel := rfl
@[simp] theorem State.setGrp_nvm (s : State) (g : Nat) (x : Group) : (s.setGrp g x).nvm = s.nvm := rfl
@[simp] theorem State.setGrp_vin (s : State) (g : Nat) (x : Group) : (s.setGrp g x).vin = s.vin := rfl
@[simp] theorem State.setGrp_stn (s : State) (g : Nat) (x : Group) : (s.setGrp g x).stn = s.stn := rfl
@[simp] theorem State.setGrp_poly (s : State) (g : Nat) (x : Group) : (s.setGrp g x).poly = s.poly := rfl
@[simp] theorem State.setGrp_fbk (s : State) (g : Nat) (x : Group) : (s.setGrp g x).fbk = s.fbk := rfl
@[simp] theorem State.setGrp_probes (s : State) (g : Nat) (x : Group) : (s.setGrp g x).probes = s.probes := rfl
@[simp] theorem State.setGrp_pulses (s : State) (g : Nat) (x : Group) : (s.setGrp g x).pulses = s.pulses := rfl
@[simp] theorem State.setGrp_cmpAt (s : State) (g : Nat) (x : Group) : (s.setGrp g x).cmpAt = s.cmpAt := rfl
@[simp] theorem State.setGrp_mot (s : State) (g : Nat) (x : Group) : (s.setGrp g x).mot = s.mot := rfl
@[simp] theorem State.setGrp_axis (s : State) (g : Nat) (x : Group) : (s.setGrp g x).axis = s.axis := rfl
@[simp] theorem State.setGrp_jam (s : State) (g : Nat) (x : Group) : (s.setGrp g x).jam = s.jam := rfl
@[simp] theorem State.setGrp_cle (s : State) (g : Nat) (x : Group) : (s.setGrp g x).cle = s.cle := rfl
@[simp] theorem State.setGrp_heat (s : State) (g : Nat) (x : Group) : (s.setGrp g x).heat = s.heat := rfl
@[simp] theorem State.setGrp_fuse (s : State) (g : Nat) (x : Group) : (s.setGrp g x).fuse = s.fuse := rfl
@[simp] theorem State.setGrp_sec (s : State) (g : Nat) (x : Group) : (s.setGrp g x).sec = s.sec := rfl
@[simp] theorem State.setGrp_psq (s : State) (g : Nat) (x : Group) : (s.setGrp g x).psq = s.psq := rfl
@[simp] theorem State.setGrp_chn (s : State) (g : Nat) (x : Group) : (s.setGrp g x).chn = s.chn := rfl
@[simp] theorem State.setGrp_rst (s : State) (g : Nat) (x : Group) : (s.setGrp g x).rst = s.rst := rfl
@[simp] theorem State.setGrp_start (s : State) (g : Nat) (x : Group) : (s.setGrp g x).start = s.start := rfl
@[simp] theorem State.setGrp_lost (s : State) (g : Nat) (x : Group) : (s.setGrp g x).lost = s.lost := rfl
@[simp] theorem State.setGrp_bootEnded (s : State) (g : Nat) (x : Group) : (s.setGrp g x).bootEnded = s.bootEnded := rfl
@[simp] theorem State.setGrp_getR (s : State) (g : Nat) (x : Group) (o : Nat) : (s.setGrp g x).getR o = s.getR o := rfl
@[simp] theorem State.setGrp_thr (s : State) (g : Nat) (x : Group) (u : Fin 16) : (s.setGrp g x).thr u = s.thr u := rfl

/-! ## updAx -/

@[simp] theorem State.updAx_pending (s : State) (a : Fin 20) (f : Axis → Axis) : (s.updAx a f).pending = s.pending := rfl
@[simp] theorem State.updAx_tsc (s : State) (a : Fin 20) (f : Axis → Axis) : (s.updAx a f).tsc = s.tsc := rfl
@[simp] theorem State.updAx_regs (s : State) (a : Fin 20) (f : Axis → Axis) : (s.updAx a f).regs = s.regs := rfl
@[simp] theorem State.updAx_stage (s : State) (a : Fin 20) (f : Axis → Axis) : (s.updAx a f).stage = s.stage := rfl
@[simp] theorem State.updAx_up (s : State) (a : Fin 20) (f : Axis → Axis) : (s.updAx a f).up = s.up := rfl
@[simp] theorem State.updAx_low (s : State) (a : Fin 20) (f : Axis → Axis) : (s.updAx a f).low = s.low := rfl
@[simp] theorem State.updAx_shadow (s : State) (a : Fin 20) (f : Axis → Axis) : (s.updAx a f).shadow = s.shadow := rfl
@[simp] theorem State.updAx_freeCtr (s : State) (a : Fin 20) (f : Axis → Axis) : (s.updAx a f).freeCtr = s.freeCtr := rfl
@[simp] theorem State.updAx_mem (s : State) (a : Fin 20) (f : Axis → Axis) : (s.updAx a f).mem = s.mem := rfl
@[simp] theorem State.updAx_seq (s : State) (a : Fin 20) (f : Axis → Axis) : (s.updAx a f).seq = s.seq := rfl
@[simp] theorem State.updAx_ev (s : State) (a : Fin 20) (f : Axis → Axis) : (s.updAx a f).ev = s.ev := rfl
@[simp] theorem State.updAx_led (s : State) (a : Fin 20) (f : Axis → Axis) : (s.updAx a f).led = s.led := rfl
@[simp] theorem State.updAx_jr (s : State) (a : Fin 20) (f : Axis → Axis) : (s.updAx a f).jr = s.jr := rfl
@[simp] theorem State.updAx_host (s : State) (a : Fin 20) (f : Axis → Axis) : (s.updAx a f).host = s.host := rfl
@[simp] theorem State.updAx_rck (s : State) (a : Fin 20) (f : Axis → Axis) : (s.updAx a f).rck = s.rck := rfl
@[simp] theorem State.updAx_prs (s : State) (a : Fin 20) (f : Axis → Axis) : (s.updAx a f).prs = s.prs := rfl
@[simp] theorem State.updAx_cel (s : State) (a : Fin 20) (f : Axis → Axis) : (s.updAx a f).cel = s.cel := rfl
@[simp] theorem State.updAx_nvm (s : State) (a : Fin 20) (f : Axis → Axis) : (s.updAx a f).nvm = s.nvm := rfl
@[simp] theorem State.updAx_vin (s : State) (a : Fin 20) (f : Axis → Axis) : (s.updAx a f).vin = s.vin := rfl
@[simp] theorem State.updAx_stn (s : State) (a : Fin 20) (f : Axis → Axis) : (s.updAx a f).stn = s.stn := rfl
@[simp] theorem State.updAx_poly (s : State) (a : Fin 20) (f : Axis → Axis) : (s.updAx a f).poly = s.poly := rfl
@[simp] theorem State.updAx_fbk (s : State) (a : Fin 20) (f : Axis → Axis) : (s.updAx a f).fbk = s.fbk := rfl
@[simp] theorem State.updAx_probes (s : State) (a : Fin 20) (f : Axis → Axis) : (s.updAx a f).probes = s.probes := rfl
@[simp] theorem State.updAx_pulses (s : State) (a : Fin 20) (f : Axis → Axis) : (s.updAx a f).pulses = s.pulses := rfl
@[simp] theorem State.updAx_cmpAt (s : State) (a : Fin 20) (f : Axis → Axis) : (s.updAx a f).cmpAt = s.cmpAt := rfl
@[simp] theorem State.updAx_mot (s : State) (a : Fin 20) (f : Axis → Axis) : (s.updAx a f).mot = s.mot := rfl
@[simp] theorem State.updAx_brg (s : State) (a : Fin 20) (f : Axis → Axis) : (s.updAx a f).brg = s.brg := rfl
@[simp] theorem State.updAx_jam (s : State) (a : Fin 20) (f : Axis → Axis) : (s.updAx a f).jam = s.jam := rfl
@[simp] theorem State.updAx_cle (s : State) (a : Fin 20) (f : Axis → Axis) : (s.updAx a f).cle = s.cle := rfl
@[simp] theorem State.updAx_heat (s : State) (a : Fin 20) (f : Axis → Axis) : (s.updAx a f).heat = s.heat := rfl
@[simp] theorem State.updAx_fuse (s : State) (a : Fin 20) (f : Axis → Axis) : (s.updAx a f).fuse = s.fuse := rfl
@[simp] theorem State.updAx_sec (s : State) (a : Fin 20) (f : Axis → Axis) : (s.updAx a f).sec = s.sec := rfl
@[simp] theorem State.updAx_psq (s : State) (a : Fin 20) (f : Axis → Axis) : (s.updAx a f).psq = s.psq := rfl
@[simp] theorem State.updAx_chn (s : State) (a : Fin 20) (f : Axis → Axis) : (s.updAx a f).chn = s.chn := rfl
@[simp] theorem State.updAx_rst (s : State) (a : Fin 20) (f : Axis → Axis) : (s.updAx a f).rst = s.rst := rfl
@[simp] theorem State.updAx_start (s : State) (a : Fin 20) (f : Axis → Axis) : (s.updAx a f).start = s.start := rfl
@[simp] theorem State.updAx_lost (s : State) (a : Fin 20) (f : Axis → Axis) : (s.updAx a f).lost = s.lost := rfl
@[simp] theorem State.updAx_bootEnded (s : State) (a : Fin 20) (f : Axis → Axis) : (s.updAx a f).bootEnded = s.bootEnded := rfl
@[simp] theorem State.updAx_getR (s : State) (a : Fin 20) (f : Axis → Axis) (o : Nat) : (s.updAx a f).getR o = s.getR o := rfl
@[simp] theorem State.updAx_getF (s : State) (a : Fin 20) (f : Axis → Axis) (g : Fld) : (s.updAx a f).getF g = s.getF g := rfl
@[simp] theorem State.updAx_flag (s : State) (a : Fin 20) (f : Axis → Axis) (g : Fld) : (s.updAx a f).flag g = s.flag g := rfl
@[simp] theorem State.updAx_thr (s : State) (a : Fin 20) (f : Axis → Axis) (u : Fin 16) : (s.updAx a f).thr u = s.thr u := rfl

/-! ## updSlot -/

@[simp] theorem State.updSlot_pending (s : State) (n : Fin 256) (f : Slot → Slot) : (s.updSlot n f).pending = s.pending := rfl
@[simp] theorem State.updSlot_tsc (s : State) (n : Fin 256) (f : Slot → Slot) : (s.updSlot n f).tsc = s.tsc := rfl
@[simp] theorem State.updSlot_regs (s : State) (n : Fin 256) (f : Slot → Slot) : (s.updSlot n f).regs = s.regs := rfl
@[simp] theorem State.updSlot_stage (s : State) (n : Fin 256) (f : Slot → Slot) : (s.updSlot n f).stage = s.stage := rfl
@[simp] theorem State.updSlot_up (s : State) (n : Fin 256) (f : Slot → Slot) : (s.updSlot n f).up = s.up := rfl
@[simp] theorem State.updSlot_low (s : State) (n : Fin 256) (f : Slot → Slot) : (s.updSlot n f).low = s.low := rfl
@[simp] theorem State.updSlot_shadow (s : State) (n : Fin 256) (f : Slot → Slot) : (s.updSlot n f).shadow = s.shadow := rfl
@[simp] theorem State.updSlot_freeCtr (s : State) (n : Fin 256) (f : Slot → Slot) : (s.updSlot n f).freeCtr = s.freeCtr := rfl
@[simp] theorem State.updSlot_mem (s : State) (n : Fin 256) (f : Slot → Slot) : (s.updSlot n f).mem = s.mem := rfl
@[simp] theorem State.updSlot_seq (s : State) (n : Fin 256) (f : Slot → Slot) : (s.updSlot n f).seq = s.seq := rfl
@[simp] theorem State.updSlot_ev (s : State) (n : Fin 256) (f : Slot → Slot) : (s.updSlot n f).ev = s.ev := rfl
@[simp] theorem State.updSlot_led (s : State) (n : Fin 256) (f : Slot → Slot) : (s.updSlot n f).led = s.led := rfl
@[simp] theorem State.updSlot_jr (s : State) (n : Fin 256) (f : Slot → Slot) : (s.updSlot n f).jr = s.jr := rfl
@[simp] theorem State.updSlot_host (s : State) (n : Fin 256) (f : Slot → Slot) : (s.updSlot n f).host = s.host := rfl
@[simp] theorem State.updSlot_rck (s : State) (n : Fin 256) (f : Slot → Slot) : (s.updSlot n f).rck = s.rck := rfl
@[simp] theorem State.updSlot_prs (s : State) (n : Fin 256) (f : Slot → Slot) : (s.updSlot n f).prs = s.prs := rfl
@[simp] theorem State.updSlot_cel (s : State) (n : Fin 256) (f : Slot → Slot) : (s.updSlot n f).cel = s.cel := rfl
@[simp] theorem State.updSlot_nvm (s : State) (n : Fin 256) (f : Slot → Slot) : (s.updSlot n f).nvm = s.nvm := rfl
@[simp] theorem State.updSlot_vin (s : State) (n : Fin 256) (f : Slot → Slot) : (s.updSlot n f).vin = s.vin := rfl
@[simp] theorem State.updSlot_stn (s : State) (n : Fin 256) (f : Slot → Slot) : (s.updSlot n f).stn = s.stn := rfl
@[simp] theorem State.updSlot_poly (s : State) (n : Fin 256) (f : Slot → Slot) : (s.updSlot n f).poly = s.poly := rfl
@[simp] theorem State.updSlot_fbk (s : State) (n : Fin 256) (f : Slot → Slot) : (s.updSlot n f).fbk = s.fbk := rfl
@[simp] theorem State.updSlot_probes (s : State) (n : Fin 256) (f : Slot → Slot) : (s.updSlot n f).probes = s.probes := rfl
@[simp] theorem State.updSlot_pulses (s : State) (n : Fin 256) (f : Slot → Slot) : (s.updSlot n f).pulses = s.pulses := rfl
@[simp] theorem State.updSlot_cmpAt (s : State) (n : Fin 256) (f : Slot → Slot) : (s.updSlot n f).cmpAt = s.cmpAt := rfl
@[simp] theorem State.updSlot_mot (s : State) (n : Fin 256) (f : Slot → Slot) : (s.updSlot n f).mot = s.mot := rfl
@[simp] theorem State.updSlot_brg (s : State) (n : Fin 256) (f : Slot → Slot) : (s.updSlot n f).brg = s.brg := rfl
@[simp] theorem State.updSlot_axis (s : State) (n : Fin 256) (f : Slot → Slot) : (s.updSlot n f).axis = s.axis := rfl
@[simp] theorem State.updSlot_jam (s : State) (n : Fin 256) (f : Slot → Slot) : (s.updSlot n f).jam = s.jam := rfl
@[simp] theorem State.updSlot_heat (s : State) (n : Fin 256) (f : Slot → Slot) : (s.updSlot n f).heat = s.heat := rfl
@[simp] theorem State.updSlot_fuse (s : State) (n : Fin 256) (f : Slot → Slot) : (s.updSlot n f).fuse = s.fuse := rfl
@[simp] theorem State.updSlot_sec (s : State) (n : Fin 256) (f : Slot → Slot) : (s.updSlot n f).sec = s.sec := rfl
@[simp] theorem State.updSlot_psq (s : State) (n : Fin 256) (f : Slot → Slot) : (s.updSlot n f).psq = s.psq := rfl
@[simp] theorem State.updSlot_chn (s : State) (n : Fin 256) (f : Slot → Slot) : (s.updSlot n f).chn = s.chn := rfl
@[simp] theorem State.updSlot_rst (s : State) (n : Fin 256) (f : Slot → Slot) : (s.updSlot n f).rst = s.rst := rfl
@[simp] theorem State.updSlot_start (s : State) (n : Fin 256) (f : Slot → Slot) : (s.updSlot n f).start = s.start := rfl
@[simp] theorem State.updSlot_lost (s : State) (n : Fin 256) (f : Slot → Slot) : (s.updSlot n f).lost = s.lost := rfl
@[simp] theorem State.updSlot_bootEnded (s : State) (n : Fin 256) (f : Slot → Slot) : (s.updSlot n f).bootEnded = s.bootEnded := rfl
@[simp] theorem State.updSlot_getR (s : State) (n : Fin 256) (f : Slot → Slot) (o : Nat) : (s.updSlot n f).getR o = s.getR o := rfl
@[simp] theorem State.updSlot_getF (s : State) (n : Fin 256) (f : Slot → Slot) (g : Fld) : (s.updSlot n f).getF g = s.getF g := rfl
@[simp] theorem State.updSlot_flag (s : State) (n : Fin 256) (f : Slot → Slot) (g : Fld) : (s.updSlot n f).flag g = s.flag g := rfl
@[simp] theorem State.updSlot_thr (s : State) (n : Fin 256) (f : Slot → Slot) (u : Fin 16) : (s.updSlot n f).thr u = s.thr u := rfl

/-! ## setCap -/

@[simp] theorem State.setCap_pending (s : State) (c : Capture) : (s.setCap c).pending = s.pending := rfl
@[simp] theorem State.setCap_tsc (s : State) (c : Capture) : (s.setCap c).tsc = s.tsc := rfl
@[simp] theorem State.setCap_regs (s : State) (c : Capture) : (s.setCap c).regs = s.regs := rfl
@[simp] theorem State.setCap_stage (s : State) (c : Capture) : (s.setCap c).stage = s.stage := rfl
@[simp] theorem State.setCap_up (s : State) (c : Capture) : (s.setCap c).up = s.up := rfl
@[simp] theorem State.setCap_low (s : State) (c : Capture) : (s.setCap c).low = s.low := rfl
@[simp] theorem State.setCap_shadow (s : State) (c : Capture) : (s.setCap c).shadow = s.shadow := rfl
@[simp] theorem State.setCap_freeCtr (s : State) (c : Capture) : (s.setCap c).freeCtr = s.freeCtr := rfl
@[simp] theorem State.setCap_mem (s : State) (c : Capture) : (s.setCap c).mem = s.mem := rfl
@[simp] theorem State.setCap_seq (s : State) (c : Capture) : (s.setCap c).seq = s.seq := rfl
@[simp] theorem State.setCap_ev (s : State) (c : Capture) : (s.setCap c).ev = s.ev := rfl
@[simp] theorem State.setCap_led (s : State) (c : Capture) : (s.setCap c).led = s.led := rfl
@[simp] theorem State.setCap_jr (s : State) (c : Capture) : (s.setCap c).jr = s.jr := rfl
@[simp] theorem State.setCap_host (s : State) (c : Capture) : (s.setCap c).host = s.host := rfl
@[simp] theorem State.setCap_rck (s : State) (c : Capture) : (s.setCap c).rck = s.rck := rfl
@[simp] theorem State.setCap_prs (s : State) (c : Capture) : (s.setCap c).prs = s.prs := rfl
@[simp] theorem State.setCap_cel (s : State) (c : Capture) : (s.setCap c).cel = s.cel := rfl
@[simp] theorem State.setCap_nvm (s : State) (c : Capture) : (s.setCap c).nvm = s.nvm := rfl
@[simp] theorem State.setCap_vin (s : State) (c : Capture) : (s.setCap c).vin = s.vin := rfl
@[simp] theorem State.setCap_stn (s : State) (c : Capture) : (s.setCap c).stn = s.stn := rfl
@[simp] theorem State.setCap_poly (s : State) (c : Capture) : (s.setCap c).poly = s.poly := rfl
@[simp] theorem State.setCap_fbk (s : State) (c : Capture) : (s.setCap c).fbk = s.fbk := rfl
@[simp] theorem State.setCap_probes (s : State) (c : Capture) : (s.setCap c).probes = s.probes := rfl
@[simp] theorem State.setCap_pulses (s : State) (c : Capture) : (s.setCap c).pulses = s.pulses := rfl
@[simp] theorem State.setCap_cmpAt (s : State) (c : Capture) : (s.setCap c).cmpAt = s.cmpAt := rfl
@[simp] theorem State.setCap_mot (s : State) (c : Capture) : (s.setCap c).mot = s.mot := rfl
@[simp] theorem State.setCap_brg (s : State) (c : Capture) : (s.setCap c).brg = s.brg := rfl
@[simp] theorem State.setCap_axis (s : State) (c : Capture) : (s.setCap c).axis = s.axis := rfl
@[simp] theorem State.setCap_jam (s : State) (c : Capture) : (s.setCap c).jam = s.jam := rfl
@[simp] theorem State.setCap_heat (s : State) (c : Capture) : (s.setCap c).heat = s.heat := rfl
@[simp] theorem State.setCap_fuse (s : State) (c : Capture) : (s.setCap c).fuse = s.fuse := rfl
@[simp] theorem State.setCap_sec (s : State) (c : Capture) : (s.setCap c).sec = s.sec := rfl
@[simp] theorem State.setCap_psq (s : State) (c : Capture) : (s.setCap c).psq = s.psq := rfl
@[simp] theorem State.setCap_chn (s : State) (c : Capture) : (s.setCap c).chn = s.chn := rfl
@[simp] theorem State.setCap_rst (s : State) (c : Capture) : (s.setCap c).rst = s.rst := rfl
@[simp] theorem State.setCap_start (s : State) (c : Capture) : (s.setCap c).start = s.start := rfl
@[simp] theorem State.setCap_lost (s : State) (c : Capture) : (s.setCap c).lost = s.lost := rfl
@[simp] theorem State.setCap_bootEnded (s : State) (c : Capture) : (s.setCap c).bootEnded = s.bootEnded := rfl
@[simp] theorem State.setCap_getR (s : State) (c : Capture) (o : Nat) : (s.setCap c).getR o = s.getR o := rfl
@[simp] theorem State.setCap_getF (s : State) (c : Capture) (g : Fld) : (s.setCap c).getF g = s.getF g := rfl
@[simp] theorem State.setCap_flag (s : State) (c : Capture) (g : Fld) : (s.setCap c).flag g = s.flag g := rfl
@[simp] theorem State.setCap_thr (s : State) (c : Capture) (u : Fin 16) : (s.setCap c).thr u = s.thr u := rfl

/-! ## updTherm -/

@[simp] theorem State.updTherm_pending (s : State) (n : Fin 12) (f : Therm → Therm) : (s.updTherm n f).pending = s.pending := rfl
@[simp] theorem State.updTherm_tsc (s : State) (n : Fin 12) (f : Therm → Therm) : (s.updTherm n f).tsc = s.tsc := rfl
@[simp] theorem State.updTherm_regs (s : State) (n : Fin 12) (f : Therm → Therm) : (s.updTherm n f).regs = s.regs := rfl
@[simp] theorem State.updTherm_stage (s : State) (n : Fin 12) (f : Therm → Therm) : (s.updTherm n f).stage = s.stage := rfl
@[simp] theorem State.updTherm_up (s : State) (n : Fin 12) (f : Therm → Therm) : (s.updTherm n f).up = s.up := rfl
@[simp] theorem State.updTherm_low (s : State) (n : Fin 12) (f : Therm → Therm) : (s.updTherm n f).low = s.low := rfl
@[simp] theorem State.updTherm_shadow (s : State) (n : Fin 12) (f : Therm → Therm) : (s.updTherm n f).shadow = s.shadow := rfl
@[simp] theorem State.updTherm_freeCtr (s : State) (n : Fin 12) (f : Therm → Therm) : (s.updTherm n f).freeCtr = s.freeCtr := rfl
@[simp] theorem State.updTherm_mem (s : State) (n : Fin 12) (f : Therm → Therm) : (s.updTherm n f).mem = s.mem := rfl
@[simp] theorem State.updTherm_seq (s : State) (n : Fin 12) (f : Therm → Therm) : (s.updTherm n f).seq = s.seq := rfl
@[simp] theorem State.updTherm_ev (s : State) (n : Fin 12) (f : Therm → Therm) : (s.updTherm n f).ev = s.ev := rfl
@[simp] theorem State.updTherm_led (s : State) (n : Fin 12) (f : Therm → Therm) : (s.updTherm n f).led = s.led := rfl
@[simp] theorem State.updTherm_jr (s : State) (n : Fin 12) (f : Therm → Therm) : (s.updTherm n f).jr = s.jr := rfl
@[simp] theorem State.updTherm_host (s : State) (n : Fin 12) (f : Therm → Therm) : (s.updTherm n f).host = s.host := rfl
@[simp] theorem State.updTherm_rck (s : State) (n : Fin 12) (f : Therm → Therm) : (s.updTherm n f).rck = s.rck := rfl
@[simp] theorem State.updTherm_prs (s : State) (n : Fin 12) (f : Therm → Therm) : (s.updTherm n f).prs = s.prs := rfl
@[simp] theorem State.updTherm_cel (s : State) (n : Fin 12) (f : Therm → Therm) : (s.updTherm n f).cel = s.cel := rfl
@[simp] theorem State.updTherm_nvm (s : State) (n : Fin 12) (f : Therm → Therm) : (s.updTherm n f).nvm = s.nvm := rfl
@[simp] theorem State.updTherm_vin (s : State) (n : Fin 12) (f : Therm → Therm) : (s.updTherm n f).vin = s.vin := rfl
@[simp] theorem State.updTherm_stn (s : State) (n : Fin 12) (f : Therm → Therm) : (s.updTherm n f).stn = s.stn := rfl
@[simp] theorem State.updTherm_poly (s : State) (n : Fin 12) (f : Therm → Therm) : (s.updTherm n f).poly = s.poly := rfl
@[simp] theorem State.updTherm_fbk (s : State) (n : Fin 12) (f : Therm → Therm) : (s.updTherm n f).fbk = s.fbk := rfl
@[simp] theorem State.updTherm_probes (s : State) (n : Fin 12) (f : Therm → Therm) : (s.updTherm n f).probes = s.probes := rfl
@[simp] theorem State.updTherm_pulses (s : State) (n : Fin 12) (f : Therm → Therm) : (s.updTherm n f).pulses = s.pulses := rfl
@[simp] theorem State.updTherm_cmpAt (s : State) (n : Fin 12) (f : Therm → Therm) : (s.updTherm n f).cmpAt = s.cmpAt := rfl
@[simp] theorem State.updTherm_mot (s : State) (n : Fin 12) (f : Therm → Therm) : (s.updTherm n f).mot = s.mot := rfl
@[simp] theorem State.updTherm_brg (s : State) (n : Fin 12) (f : Therm → Therm) : (s.updTherm n f).brg = s.brg := rfl
@[simp] theorem State.updTherm_axis (s : State) (n : Fin 12) (f : Therm → Therm) : (s.updTherm n f).axis = s.axis := rfl
@[simp] theorem State.updTherm_jam (s : State) (n : Fin 12) (f : Therm → Therm) : (s.updTherm n f).jam = s.jam := rfl
@[simp] theorem State.updTherm_cle (s : State) (n : Fin 12) (f : Therm → Therm) : (s.updTherm n f).cle = s.cle := rfl
@[simp] theorem State.updTherm_fuse (s : State) (n : Fin 12) (f : Therm → Therm) : (s.updTherm n f).fuse = s.fuse := rfl
@[simp] theorem State.updTherm_sec (s : State) (n : Fin 12) (f : Therm → Therm) : (s.updTherm n f).sec = s.sec := rfl
@[simp] theorem State.updTherm_psq (s : State) (n : Fin 12) (f : Therm → Therm) : (s.updTherm n f).psq = s.psq := rfl
@[simp] theorem State.updTherm_chn (s : State) (n : Fin 12) (f : Therm → Therm) : (s.updTherm n f).chn = s.chn := rfl
@[simp] theorem State.updTherm_rst (s : State) (n : Fin 12) (f : Therm → Therm) : (s.updTherm n f).rst = s.rst := rfl
@[simp] theorem State.updTherm_start (s : State) (n : Fin 12) (f : Therm → Therm) : (s.updTherm n f).start = s.start := rfl
@[simp] theorem State.updTherm_lost (s : State) (n : Fin 12) (f : Therm → Therm) : (s.updTherm n f).lost = s.lost := rfl
@[simp] theorem State.updTherm_bootEnded (s : State) (n : Fin 12) (f : Therm → Therm) : (s.updTherm n f).bootEnded = s.bootEnded := rfl
@[simp] theorem State.updTherm_getR (s : State) (n : Fin 12) (f : Therm → Therm) (o : Nat) : (s.updTherm n f).getR o = s.getR o := rfl
@[simp] theorem State.updTherm_getF (s : State) (n : Fin 12) (f : Therm → Therm) (g : Fld) : (s.updTherm n f).getF g = s.getF g := rfl
@[simp] theorem State.updTherm_flag (s : State) (n : Fin 12) (f : Therm → Therm) (g : Fld) : (s.updTherm n f).flag g = s.flag g := rfl
@[simp] theorem State.updTherm_thr (s : State) (n : Fin 12) (f : Therm → Therm) (u : Fin 16) : (s.updTherm n f).thr u = s.thr u := rfl

/-! ## updHeater -/

@[simp] theorem State.updHeater_pending (s : State) (h : Fin 4) (f : Heater → Heater) : (s.updHeater h f).pending = s.pending := rfl
@[simp] theorem State.updHeater_tsc (s : State) (h : Fin 4) (f : Heater → Heater) : (s.updHeater h f).tsc = s.tsc := rfl
@[simp] theorem State.updHeater_regs (s : State) (h : Fin 4) (f : Heater → Heater) : (s.updHeater h f).regs = s.regs := rfl
@[simp] theorem State.updHeater_stage (s : State) (h : Fin 4) (f : Heater → Heater) : (s.updHeater h f).stage = s.stage := rfl
@[simp] theorem State.updHeater_up (s : State) (h : Fin 4) (f : Heater → Heater) : (s.updHeater h f).up = s.up := rfl
@[simp] theorem State.updHeater_low (s : State) (h : Fin 4) (f : Heater → Heater) : (s.updHeater h f).low = s.low := rfl
@[simp] theorem State.updHeater_shadow (s : State) (h : Fin 4) (f : Heater → Heater) : (s.updHeater h f).shadow = s.shadow := rfl
@[simp] theorem State.updHeater_freeCtr (s : State) (h : Fin 4) (f : Heater → Heater) : (s.updHeater h f).freeCtr = s.freeCtr := rfl
@[simp] theorem State.updHeater_mem (s : State) (h : Fin 4) (f : Heater → Heater) : (s.updHeater h f).mem = s.mem := rfl
@[simp] theorem State.updHeater_seq (s : State) (h : Fin 4) (f : Heater → Heater) : (s.updHeater h f).seq = s.seq := rfl
@[simp] theorem State.updHeater_ev (s : State) (h : Fin 4) (f : Heater → Heater) : (s.updHeater h f).ev = s.ev := rfl
@[simp] theorem State.updHeater_led (s : State) (h : Fin 4) (f : Heater → Heater) : (s.updHeater h f).led = s.led := rfl
@[simp] theorem State.updHeater_jr (s : State) (h : Fin 4) (f : Heater → Heater) : (s.updHeater h f).jr = s.jr := rfl
@[simp] theorem State.updHeater_host (s : State) (h : Fin 4) (f : Heater → Heater) : (s.updHeater h f).host = s.host := rfl
@[simp] theorem State.updHeater_rck (s : State) (h : Fin 4) (f : Heater → Heater) : (s.updHeater h f).rck = s.rck := rfl
@[simp] theorem State.updHeater_prs (s : State) (h : Fin 4) (f : Heater → Heater) : (s.updHeater h f).prs = s.prs := rfl
@[simp] theorem State.updHeater_cel (s : State) (h : Fin 4) (f : Heater → Heater) : (s.updHeater h f).cel = s.cel := rfl
@[simp] theorem State.updHeater_nvm (s : State) (h : Fin 4) (f : Heater → Heater) : (s.updHeater h f).nvm = s.nvm := rfl
@[simp] theorem State.updHeater_vin (s : State) (h : Fin 4) (f : Heater → Heater) : (s.updHeater h f).vin = s.vin := rfl
@[simp] theorem State.updHeater_stn (s : State) (h : Fin 4) (f : Heater → Heater) : (s.updHeater h f).stn = s.stn := rfl
@[simp] theorem State.updHeater_poly (s : State) (h : Fin 4) (f : Heater → Heater) : (s.updHeater h f).poly = s.poly := rfl
@[simp] theorem State.updHeater_fbk (s : State) (h : Fin 4) (f : Heater → Heater) : (s.updHeater h f).fbk = s.fbk := rfl
@[simp] theorem State.updHeater_probes (s : State) (h : Fin 4) (f : Heater → Heater) : (s.updHeater h f).probes = s.probes := rfl
@[simp] theorem State.updHeater_pulses (s : State) (h : Fin 4) (f : Heater → Heater) : (s.updHeater h f).pulses = s.pulses := rfl
@[simp] theorem State.updHeater_cmpAt (s : State) (h : Fin 4) (f : Heater → Heater) : (s.updHeater h f).cmpAt = s.cmpAt := rfl
@[simp] theorem State.updHeater_mot (s : State) (h : Fin 4) (f : Heater → Heater) : (s.updHeater h f).mot = s.mot := rfl
@[simp] theorem State.updHeater_brg (s : State) (h : Fin 4) (f : Heater → Heater) : (s.updHeater h f).brg = s.brg := rfl
@[simp] theorem State.updHeater_axis (s : State) (h : Fin 4) (f : Heater → Heater) : (s.updHeater h f).axis = s.axis := rfl
@[simp] theorem State.updHeater_jam (s : State) (h : Fin 4) (f : Heater → Heater) : (s.updHeater h f).jam = s.jam := rfl
@[simp] theorem State.updHeater_cle (s : State) (h : Fin 4) (f : Heater → Heater) : (s.updHeater h f).cle = s.cle := rfl
@[simp] theorem State.updHeater_fuse (s : State) (h : Fin 4) (f : Heater → Heater) : (s.updHeater h f).fuse = s.fuse := rfl
@[simp] theorem State.updHeater_sec (s : State) (h : Fin 4) (f : Heater → Heater) : (s.updHeater h f).sec = s.sec := rfl
@[simp] theorem State.updHeater_psq (s : State) (h : Fin 4) (f : Heater → Heater) : (s.updHeater h f).psq = s.psq := rfl
@[simp] theorem State.updHeater_chn (s : State) (h : Fin 4) (f : Heater → Heater) : (s.updHeater h f).chn = s.chn := rfl
@[simp] theorem State.updHeater_rst (s : State) (h : Fin 4) (f : Heater → Heater) : (s.updHeater h f).rst = s.rst := rfl
@[simp] theorem State.updHeater_start (s : State) (h : Fin 4) (f : Heater → Heater) : (s.updHeater h f).start = s.start := rfl
@[simp] theorem State.updHeater_lost (s : State) (h : Fin 4) (f : Heater → Heater) : (s.updHeater h f).lost = s.lost := rfl
@[simp] theorem State.updHeater_bootEnded (s : State) (h : Fin 4) (f : Heater → Heater) : (s.updHeater h f).bootEnded = s.bootEnded := rfl
@[simp] theorem State.updHeater_getR (s : State) (h : Fin 4) (f : Heater → Heater) (o : Nat) : (s.updHeater h f).getR o = s.getR o := rfl
@[simp] theorem State.updHeater_getF (s : State) (h : Fin 4) (f : Heater → Heater) (g : Fld) : (s.updHeater h f).getF g = s.getF g := rfl
@[simp] theorem State.updHeater_flag (s : State) (h : Fin 4) (f : Heater → Heater) (g : Fld) : (s.updHeater h f).flag g = s.flag g := rfl
@[simp] theorem State.updHeater_thr (s : State) (h : Fin 4) (f : Heater → Heater) (u : Fin 16) : (s.updHeater h f).thr u = s.thr u := rfl

/-! ## updHv -/

@[simp] theorem State.updHv_pending (s : State) (c : Fin 24) (f : HvCh → HvCh) : (s.updHv c f).pending = s.pending := rfl
@[simp] theorem State.updHv_tsc (s : State) (c : Fin 24) (f : HvCh → HvCh) : (s.updHv c f).tsc = s.tsc := rfl
@[simp] theorem State.updHv_regs (s : State) (c : Fin 24) (f : HvCh → HvCh) : (s.updHv c f).regs = s.regs := rfl
@[simp] theorem State.updHv_stage (s : State) (c : Fin 24) (f : HvCh → HvCh) : (s.updHv c f).stage = s.stage := rfl
@[simp] theorem State.updHv_up (s : State) (c : Fin 24) (f : HvCh → HvCh) : (s.updHv c f).up = s.up := rfl
@[simp] theorem State.updHv_low (s : State) (c : Fin 24) (f : HvCh → HvCh) : (s.updHv c f).low = s.low := rfl
@[simp] theorem State.updHv_shadow (s : State) (c : Fin 24) (f : HvCh → HvCh) : (s.updHv c f).shadow = s.shadow := rfl
@[simp] theorem State.updHv_freeCtr (s : State) (c : Fin 24) (f : HvCh → HvCh) : (s.updHv c f).freeCtr = s.freeCtr := rfl
@[simp] theorem State.updHv_mem (s : State) (c : Fin 24) (f : HvCh → HvCh) : (s.updHv c f).mem = s.mem := rfl
@[simp] theorem State.updHv_seq (s : State) (c : Fin 24) (f : HvCh → HvCh) : (s.updHv c f).seq = s.seq := rfl
@[simp] theorem State.updHv_ev (s : State) (c : Fin 24) (f : HvCh → HvCh) : (s.updHv c f).ev = s.ev := rfl
@[simp] theorem State.updHv_led (s : State) (c : Fin 24) (f : HvCh → HvCh) : (s.updHv c f).led = s.led := rfl
@[simp] theorem State.updHv_jr (s : State) (c : Fin 24) (f : HvCh → HvCh) : (s.updHv c f).jr = s.jr := rfl
@[simp] theorem State.updHv_host (s : State) (c : Fin 24) (f : HvCh → HvCh) : (s.updHv c f).host = s.host := rfl
@[simp] theorem State.updHv_rck (s : State) (c : Fin 24) (f : HvCh → HvCh) : (s.updHv c f).rck = s.rck := rfl
@[simp] theorem State.updHv_prs (s : State) (c : Fin 24) (f : HvCh → HvCh) : (s.updHv c f).prs = s.prs := rfl
@[simp] theorem State.updHv_cel (s : State) (c : Fin 24) (f : HvCh → HvCh) : (s.updHv c f).cel = s.cel := rfl
@[simp] theorem State.updHv_nvm (s : State) (c : Fin 24) (f : HvCh → HvCh) : (s.updHv c f).nvm = s.nvm := rfl
@[simp] theorem State.updHv_vin (s : State) (c : Fin 24) (f : HvCh → HvCh) : (s.updHv c f).vin = s.vin := rfl
@[simp] theorem State.updHv_stn (s : State) (c : Fin 24) (f : HvCh → HvCh) : (s.updHv c f).stn = s.stn := rfl
@[simp] theorem State.updHv_poly (s : State) (c : Fin 24) (f : HvCh → HvCh) : (s.updHv c f).poly = s.poly := rfl
@[simp] theorem State.updHv_fbk (s : State) (c : Fin 24) (f : HvCh → HvCh) : (s.updHv c f).fbk = s.fbk := rfl
@[simp] theorem State.updHv_probes (s : State) (c : Fin 24) (f : HvCh → HvCh) : (s.updHv c f).probes = s.probes := rfl
@[simp] theorem State.updHv_pulses (s : State) (c : Fin 24) (f : HvCh → HvCh) : (s.updHv c f).pulses = s.pulses := rfl
@[simp] theorem State.updHv_cmpAt (s : State) (c : Fin 24) (f : HvCh → HvCh) : (s.updHv c f).cmpAt = s.cmpAt := rfl
@[simp] theorem State.updHv_mot (s : State) (c : Fin 24) (f : HvCh → HvCh) : (s.updHv c f).mot = s.mot := rfl
@[simp] theorem State.updHv_brg (s : State) (c : Fin 24) (f : HvCh → HvCh) : (s.updHv c f).brg = s.brg := rfl
@[simp] theorem State.updHv_axis (s : State) (c : Fin 24) (f : HvCh → HvCh) : (s.updHv c f).axis = s.axis := rfl
@[simp] theorem State.updHv_jam (s : State) (c : Fin 24) (f : HvCh → HvCh) : (s.updHv c f).jam = s.jam := rfl
@[simp] theorem State.updHv_cle (s : State) (c : Fin 24) (f : HvCh → HvCh) : (s.updHv c f).cle = s.cle := rfl
@[simp] theorem State.updHv_fuse (s : State) (c : Fin 24) (f : HvCh → HvCh) : (s.updHv c f).fuse = s.fuse := rfl
@[simp] theorem State.updHv_sec (s : State) (c : Fin 24) (f : HvCh → HvCh) : (s.updHv c f).sec = s.sec := rfl
@[simp] theorem State.updHv_psq (s : State) (c : Fin 24) (f : HvCh → HvCh) : (s.updHv c f).psq = s.psq := rfl
@[simp] theorem State.updHv_chn (s : State) (c : Fin 24) (f : HvCh → HvCh) : (s.updHv c f).chn = s.chn := rfl
@[simp] theorem State.updHv_rst (s : State) (c : Fin 24) (f : HvCh → HvCh) : (s.updHv c f).rst = s.rst := rfl
@[simp] theorem State.updHv_start (s : State) (c : Fin 24) (f : HvCh → HvCh) : (s.updHv c f).start = s.start := rfl
@[simp] theorem State.updHv_lost (s : State) (c : Fin 24) (f : HvCh → HvCh) : (s.updHv c f).lost = s.lost := rfl
@[simp] theorem State.updHv_bootEnded (s : State) (c : Fin 24) (f : HvCh → HvCh) : (s.updHv c f).bootEnded = s.bootEnded := rfl
@[simp] theorem State.updHv_getR (s : State) (c : Fin 24) (f : HvCh → HvCh) (o : Nat) : (s.updHv c f).getR o = s.getR o := rfl
@[simp] theorem State.updHv_getF (s : State) (c : Fin 24) (f : HvCh → HvCh) (g : Fld) : (s.updHv c f).getF g = s.getF g := rfl
@[simp] theorem State.updHv_flag (s : State) (c : Fin 24) (f : HvCh → HvCh) (g : Fld) : (s.updHv c f).flag g = s.flag g := rfl
@[simp] theorem State.updHv_thr (s : State) (c : Fin 24) (f : HvCh → HvCh) (u : Fin 16) : (s.updHv c f).thr u = s.thr u := rfl

/-! ## updRail -/

@[simp] theorem State.updRail_pending (s : State) (r : Nat) (f : Rail → Rail) : (s.updRail r f).pending = s.pending := rfl
@[simp] theorem State.updRail_tsc (s : State) (r : Nat) (f : Rail → Rail) : (s.updRail r f).tsc = s.tsc := rfl
@[simp] theorem State.updRail_regs (s : State) (r : Nat) (f : Rail → Rail) : (s.updRail r f).regs = s.regs := rfl
@[simp] theorem State.updRail_stage (s : State) (r : Nat) (f : Rail → Rail) : (s.updRail r f).stage = s.stage := rfl
@[simp] theorem State.updRail_up (s : State) (r : Nat) (f : Rail → Rail) : (s.updRail r f).up = s.up := rfl
@[simp] theorem State.updRail_low (s : State) (r : Nat) (f : Rail → Rail) : (s.updRail r f).low = s.low := rfl
@[simp] theorem State.updRail_shadow (s : State) (r : Nat) (f : Rail → Rail) : (s.updRail r f).shadow = s.shadow := rfl
@[simp] theorem State.updRail_freeCtr (s : State) (r : Nat) (f : Rail → Rail) : (s.updRail r f).freeCtr = s.freeCtr := rfl
@[simp] theorem State.updRail_mem (s : State) (r : Nat) (f : Rail → Rail) : (s.updRail r f).mem = s.mem := rfl
@[simp] theorem State.updRail_seq (s : State) (r : Nat) (f : Rail → Rail) : (s.updRail r f).seq = s.seq := rfl
@[simp] theorem State.updRail_ev (s : State) (r : Nat) (f : Rail → Rail) : (s.updRail r f).ev = s.ev := rfl
@[simp] theorem State.updRail_led (s : State) (r : Nat) (f : Rail → Rail) : (s.updRail r f).led = s.led := rfl
@[simp] theorem State.updRail_jr (s : State) (r : Nat) (f : Rail → Rail) : (s.updRail r f).jr = s.jr := rfl
@[simp] theorem State.updRail_host (s : State) (r : Nat) (f : Rail → Rail) : (s.updRail r f).host = s.host := rfl
@[simp] theorem State.updRail_rck (s : State) (r : Nat) (f : Rail → Rail) : (s.updRail r f).rck = s.rck := rfl
@[simp] theorem State.updRail_prs (s : State) (r : Nat) (f : Rail → Rail) : (s.updRail r f).prs = s.prs := rfl
@[simp] theorem State.updRail_cel (s : State) (r : Nat) (f : Rail → Rail) : (s.updRail r f).cel = s.cel := rfl
@[simp] theorem State.updRail_nvm (s : State) (r : Nat) (f : Rail → Rail) : (s.updRail r f).nvm = s.nvm := rfl
@[simp] theorem State.updRail_vin (s : State) (r : Nat) (f : Rail → Rail) : (s.updRail r f).vin = s.vin := rfl
@[simp] theorem State.updRail_stn (s : State) (r : Nat) (f : Rail → Rail) : (s.updRail r f).stn = s.stn := rfl
@[simp] theorem State.updRail_poly (s : State) (r : Nat) (f : Rail → Rail) : (s.updRail r f).poly = s.poly := rfl
@[simp] theorem State.updRail_fbk (s : State) (r : Nat) (f : Rail → Rail) : (s.updRail r f).fbk = s.fbk := rfl
@[simp] theorem State.updRail_probes (s : State) (r : Nat) (f : Rail → Rail) : (s.updRail r f).probes = s.probes := rfl
@[simp] theorem State.updRail_pulses (s : State) (r : Nat) (f : Rail → Rail) : (s.updRail r f).pulses = s.pulses := rfl
@[simp] theorem State.updRail_cmpAt (s : State) (r : Nat) (f : Rail → Rail) : (s.updRail r f).cmpAt = s.cmpAt := rfl
@[simp] theorem State.updRail_mot (s : State) (r : Nat) (f : Rail → Rail) : (s.updRail r f).mot = s.mot := rfl
@[simp] theorem State.updRail_brg (s : State) (r : Nat) (f : Rail → Rail) : (s.updRail r f).brg = s.brg := rfl
@[simp] theorem State.updRail_axis (s : State) (r : Nat) (f : Rail → Rail) : (s.updRail r f).axis = s.axis := rfl
@[simp] theorem State.updRail_jam (s : State) (r : Nat) (f : Rail → Rail) : (s.updRail r f).jam = s.jam := rfl
@[simp] theorem State.updRail_cle (s : State) (r : Nat) (f : Rail → Rail) : (s.updRail r f).cle = s.cle := rfl
@[simp] theorem State.updRail_heat (s : State) (r : Nat) (f : Rail → Rail) : (s.updRail r f).heat = s.heat := rfl
@[simp] theorem State.updRail_fuse (s : State) (r : Nat) (f : Rail → Rail) : (s.updRail r f).fuse = s.fuse := rfl
@[simp] theorem State.updRail_sec (s : State) (r : Nat) (f : Rail → Rail) : (s.updRail r f).sec = s.sec := rfl
@[simp] theorem State.updRail_chn (s : State) (r : Nat) (f : Rail → Rail) : (s.updRail r f).chn = s.chn := rfl
@[simp] theorem State.updRail_rst (s : State) (r : Nat) (f : Rail → Rail) : (s.updRail r f).rst = s.rst := rfl
@[simp] theorem State.updRail_start (s : State) (r : Nat) (f : Rail → Rail) : (s.updRail r f).start = s.start := rfl
@[simp] theorem State.updRail_lost (s : State) (r : Nat) (f : Rail → Rail) : (s.updRail r f).lost = s.lost := rfl
@[simp] theorem State.updRail_bootEnded (s : State) (r : Nat) (f : Rail → Rail) : (s.updRail r f).bootEnded = s.bootEnded := rfl
@[simp] theorem State.updRail_getR (s : State) (r : Nat) (f : Rail → Rail) (o : Nat) : (s.updRail r f).getR o = s.getR o := rfl
@[simp] theorem State.updRail_getF (s : State) (r : Nat) (f : Rail → Rail) (g : Fld) : (s.updRail r f).getF g = s.getF g := rfl
@[simp] theorem State.updRail_flag (s : State) (r : Nat) (f : Rail → Rail) (g : Fld) : (s.updRail r f).flag g = s.flag g := rfl
@[simp] theorem State.updRail_thr (s : State) (r : Nat) (f : Rail → Rail) (u : Fin 16) : (s.updRail r f).thr u = s.thr u := rfl

/-! ## updPort -/

@[simp] theorem State.updPort_pending (s : State) (p : Fin 2) (f : ChnPort → ChnPort) : (s.updPort p f).pending = s.pending := rfl
@[simp] theorem State.updPort_tsc (s : State) (p : Fin 2) (f : ChnPort → ChnPort) : (s.updPort p f).tsc = s.tsc := rfl
@[simp] theorem State.updPort_regs (s : State) (p : Fin 2) (f : ChnPort → ChnPort) : (s.updPort p f).regs = s.regs := rfl
@[simp] theorem State.updPort_stage (s : State) (p : Fin 2) (f : ChnPort → ChnPort) : (s.updPort p f).stage = s.stage := rfl
@[simp] theorem State.updPort_up (s : State) (p : Fin 2) (f : ChnPort → ChnPort) : (s.updPort p f).up = s.up := rfl
@[simp] theorem State.updPort_low (s : State) (p : Fin 2) (f : ChnPort → ChnPort) : (s.updPort p f).low = s.low := rfl
@[simp] theorem State.updPort_shadow (s : State) (p : Fin 2) (f : ChnPort → ChnPort) : (s.updPort p f).shadow = s.shadow := rfl
@[simp] theorem State.updPort_freeCtr (s : State) (p : Fin 2) (f : ChnPort → ChnPort) : (s.updPort p f).freeCtr = s.freeCtr := rfl
@[simp] theorem State.updPort_mem (s : State) (p : Fin 2) (f : ChnPort → ChnPort) : (s.updPort p f).mem = s.mem := rfl
@[simp] theorem State.updPort_seq (s : State) (p : Fin 2) (f : ChnPort → ChnPort) : (s.updPort p f).seq = s.seq := rfl
@[simp] theorem State.updPort_ev (s : State) (p : Fin 2) (f : ChnPort → ChnPort) : (s.updPort p f).ev = s.ev := rfl
@[simp] theorem State.updPort_led (s : State) (p : Fin 2) (f : ChnPort → ChnPort) : (s.updPort p f).led = s.led := rfl
@[simp] theorem State.updPort_jr (s : State) (p : Fin 2) (f : ChnPort → ChnPort) : (s.updPort p f).jr = s.jr := rfl
@[simp] theorem State.updPort_host (s : State) (p : Fin 2) (f : ChnPort → ChnPort) : (s.updPort p f).host = s.host := rfl
@[simp] theorem State.updPort_rck (s : State) (p : Fin 2) (f : ChnPort → ChnPort) : (s.updPort p f).rck = s.rck := rfl
@[simp] theorem State.updPort_prs (s : State) (p : Fin 2) (f : ChnPort → ChnPort) : (s.updPort p f).prs = s.prs := rfl
@[simp] theorem State.updPort_cel (s : State) (p : Fin 2) (f : ChnPort → ChnPort) : (s.updPort p f).cel = s.cel := rfl
@[simp] theorem State.updPort_nvm (s : State) (p : Fin 2) (f : ChnPort → ChnPort) : (s.updPort p f).nvm = s.nvm := rfl
@[simp] theorem State.updPort_vin (s : State) (p : Fin 2) (f : ChnPort → ChnPort) : (s.updPort p f).vin = s.vin := rfl
@[simp] theorem State.updPort_stn (s : State) (p : Fin 2) (f : ChnPort → ChnPort) : (s.updPort p f).stn = s.stn := rfl
@[simp] theorem State.updPort_poly (s : State) (p : Fin 2) (f : ChnPort → ChnPort) : (s.updPort p f).poly = s.poly := rfl
@[simp] theorem State.updPort_fbk (s : State) (p : Fin 2) (f : ChnPort → ChnPort) : (s.updPort p f).fbk = s.fbk := rfl
@[simp] theorem State.updPort_probes (s : State) (p : Fin 2) (f : ChnPort → ChnPort) : (s.updPort p f).probes = s.probes := rfl
@[simp] theorem State.updPort_pulses (s : State) (p : Fin 2) (f : ChnPort → ChnPort) : (s.updPort p f).pulses = s.pulses := rfl
@[simp] theorem State.updPort_cmpAt (s : State) (p : Fin 2) (f : ChnPort → ChnPort) : (s.updPort p f).cmpAt = s.cmpAt := rfl
@[simp] theorem State.updPort_mot (s : State) (p : Fin 2) (f : ChnPort → ChnPort) : (s.updPort p f).mot = s.mot := rfl
@[simp] theorem State.updPort_brg (s : State) (p : Fin 2) (f : ChnPort → ChnPort) : (s.updPort p f).brg = s.brg := rfl
@[simp] theorem State.updPort_axis (s : State) (p : Fin 2) (f : ChnPort → ChnPort) : (s.updPort p f).axis = s.axis := rfl
@[simp] theorem State.updPort_jam (s : State) (p : Fin 2) (f : ChnPort → ChnPort) : (s.updPort p f).jam = s.jam := rfl
@[simp] theorem State.updPort_cle (s : State) (p : Fin 2) (f : ChnPort → ChnPort) : (s.updPort p f).cle = s.cle := rfl
@[simp] theorem State.updPort_heat (s : State) (p : Fin 2) (f : ChnPort → ChnPort) : (s.updPort p f).heat = s.heat := rfl
@[simp] theorem State.updPort_fuse (s : State) (p : Fin 2) (f : ChnPort → ChnPort) : (s.updPort p f).fuse = s.fuse := rfl
@[simp] theorem State.updPort_sec (s : State) (p : Fin 2) (f : ChnPort → ChnPort) : (s.updPort p f).sec = s.sec := rfl
@[simp] theorem State.updPort_psq (s : State) (p : Fin 2) (f : ChnPort → ChnPort) : (s.updPort p f).psq = s.psq := rfl
@[simp] theorem State.updPort_rst (s : State) (p : Fin 2) (f : ChnPort → ChnPort) : (s.updPort p f).rst = s.rst := rfl
@[simp] theorem State.updPort_start (s : State) (p : Fin 2) (f : ChnPort → ChnPort) : (s.updPort p f).start = s.start := rfl
@[simp] theorem State.updPort_lost (s : State) (p : Fin 2) (f : ChnPort → ChnPort) : (s.updPort p f).lost = s.lost := rfl
@[simp] theorem State.updPort_bootEnded (s : State) (p : Fin 2) (f : ChnPort → ChnPort) : (s.updPort p f).bootEnded = s.bootEnded := rfl
@[simp] theorem State.updPort_getR (s : State) (p : Fin 2) (f : ChnPort → ChnPort) (o : Nat) : (s.updPort p f).getR o = s.getR o := rfl
@[simp] theorem State.updPort_getF (s : State) (p : Fin 2) (f : ChnPort → ChnPort) (g : Fld) : (s.updPort p f).getF g = s.getF g := rfl
@[simp] theorem State.updPort_flag (s : State) (p : Fin 2) (f : ChnPort → ChnPort) (g : Fld) : (s.updPort p f).flag g = s.flag g := rfl
@[simp] theorem State.updPort_thr (s : State) (p : Fin 2) (f : ChnPort → ChnPort) (u : Fin 16) : (s.updPort p f).thr u = s.thr u := rfl

end Sys2Proof.Machine
end

