-- ==== Sys2Proof/Machine/BallMap.lean ====
section
/-! DEFINITION. Machine/BallMap.lean: the package (ch 23): the net of every ball by the assignment rules R442 to R453, and each
signal's die, direction and state in reset (Table 23-6, R455). -/

namespace Sys2Proof.Machine

/-- The two balls of a differential pair. -/
inductive Leg | p | n
  deriving DecidableEq, Repr

/-- The signals of a DRAM subchannel (Table 23-2); the Boolean of a strobe or clock is its complement. -/
inductive DdrSig
  | ck (c : Bool) | ca (i : Fin 7) | cs (i : Fin 2) | wck (i : Fin 2) (c : Bool) | dq (i : Fin 16) | dmi (i : Fin 2)
  | rdqs (i : Fin 2) (c : Bool)
  deriving DecidableEq, Repr

/-- The pairs of an exposure link (R445). -/
inductive LinkPair | txa | txb | rx | dck | bd
  deriving DecidableEq, Repr

/-- The balls of a half-bridge (Table 23-3). -/
inductive BridgeSig | lo | dsl | dsh | bst | ho | sw
  deriving DecidableEq, Repr

/-- The balls of a managed rail (R450). -/
inductive RailSig | en | pg | vs | trim
  deriving DecidableEq, Repr

/-- The signals of Table 23-6. -/
inductive Signal
  | refclk25 | pcieTx (l : Fin 4) (g : Leg) | pcieRx (l : Fin 4) (g : Leg) | pcieRefclk (g : Leg) | perstN | erstN
  | ddr (c : Fin 4) (x : DdrSig) | ddrResetN | ddrZq | xl (s : Fin 6) (x : LinkPair) (g : Leg)
  | clTx (down : Bool) (g : Leg) | clRx (down : Bool) (g : Leg) | clHead | testEn | flSck | flCsN | flIo (i : Fin 4)
  | jtagTck | jtagTms | jtagTdi | jtagTdo | jtagTrstN | conScl (p : Fin 4) | conSda (p : Fin 4) | prb (i : Fin 8)
  | hall (n : Fin 12) (phase : Fin 3) | sn (i : Fin 64)
  | porstN | acOk | ilk (i : Fin 4) | len (s : Fin 6) | htrA (h : Fin 4) | htrB (h : Fin 4) | htrFltN (h : Fin 4) | mainsSync
  | rail (r : Fin 16) (x : RailSig) | scSin (n : Fin 6) (g : Leg) | scCos (n : Fin 6) (g : Leg) | scIdx (n : Fin 6)
  | scExc (n : Fin 6) | th (i : Fin 12) | ain (i : Fin 64) | adcVref | hvPwm (c : Fin 24) | hb (n : Fin 48) (x : BridgeSig)
  deriving DecidableEq, Repr

/-- What a ball carries: a signal, or a supply or ground net of Table 23-5. -/
inductive Net
  | sig (x : Signal)
  | vddCore | vddSram | vddSerdes | vddqLp | vddio18 | vddio33 | vstby33 | vana5 | vgl (v : Fin 4) | pgnd (g : Fin 12) | agnd | vss
  deriving DecidableEq, Repr

/-- The regions of Table 23-1. -/
inductive Region
  | memory | coreIo | corePower | serial | supervisor | analogue | highVoltage | gateDrive | safetyCorner
  deriving DecidableEq, Repr

/-- The region of the ball at row index `i` and column `j`, both from 1 (R443). -/
def region (i j : Nat) : Region :=
  if i ≤ 19 then
    (if j ≤ 12 then .memory else if 31 ≤ j then .serial else if i ≤ 8 then .coreIo else .corePower)
  else if i ≤ 28 then (if j ≤ 9 then .supervisor else if j ≤ 33 then .analogue else .highVoltage)
  else if j ≤ 36 then .gateDrive else .safetyCorner

/-- Two signals and a third net, by column. -/
def triple (k : Nat) (a b c : Net) : Net := if k = 0 then a else if k = 1 then b else c

/-- A differential pair and ground (R445). -/
def pairOf (k : Nat) (f : Leg → Signal) (gnd : Net) : Net := triple k (.sig (f .p)) (.sig (f .n)) gnd

/-- The memory region (R444, Table 23-2): row index `i`, column `k` of subchannel `c`. -/
def memoryBall (c : Fin 4) (i k : Nat) : Net :=
  let d := fun x => Net.sig (.ddr c x)
  let two := fun a b g => triple k (d a) (d b) g
  match i with
  | 1 => two (.ck false) (.ck true) .vss
  | 2 => two (.ca 0) (.ca 1) .vddqLp
  | 3 => two (.ca 2) (.ca 3) .vss
  | 4 => two (.ca 4) (.ca 5) .vddqLp
  | 5 => two (.ca 6) (.cs 0) (d (.cs 1))
  | 6 => two (.wck 0 false) (.wck 0 true) .vss
  | 7 => two (.dq 0) (.dq 1) .vddqLp
  | 8 => two (.dq 2) (.dq 3) (d (.dmi 0))
  | 9 => two (.rdqs 0 false) (.rdqs 0 true) .vss
  | 10 => two (.dq 4) (.dq 5) .vddqLp
  | 11 => two (.dq 6) (.dq 7) .vss
  | 12 => two (.wck 1 false) (.wck 1 true) .vddqLp
  | 13 => two (.dq 8) (.dq 9) .vss
  | 14 => two (.dq 10) (.dq 11) (d (.dmi 1))
  | 15 => two (.rdqs 1 false) (.rdqs 1 true) .vddqLp
  | 16 => two (.dq 12) (.dq 13) .vss
  | 17 => two (.dq 14) (.dq 15) .vddqLp
  | 18 => triple k .vss (if c.val = 0 then .sig .ddrResetN else if c.val = 1 then .sig .ddrZq else .vss) .vddqLp
  | _ => triple k .vss .vss .vddqLp

/-- The serial region (R445): column `k` of triple `t`. -/
def serialBall (t k : Nat) : Net :=
  let pr := fun f => pairOf k f .vss
  if t < 30 then
    pr (.xl (Fin.ofNat 6 (t / 5)) (match t % 5 with | 0 => .txa | 1 => .txb | 2 => .rx | 3 => .dck | _ => .bd))
  else if t < 34 then pr (.pcieTx (Fin.ofNat 4 (t - 30)))
  else if t < 38 then pr (.pcieRx (Fin.ofNat 4 (t - 34)))
  else match t with
    | 38 => pr .pcieRefclk
    | 39 => pr (.clTx false)
    | 40 => pr (.clRx false)
    | 41 => pr (.clTx true)
    | 42 => pr (.clRx true)
    | _ => if t ≤ 50 then .vddSerdes else .vss

/-- Signal `q` of the Core I/O region (R446). -/
def coreIoSignal (q : Nat) : Signal :=
  match q with
  | 0 => .flSck
  | 1 => .flCsN
  | 6 => .jtagTck
  | 7 => .jtagTms
  | 8 => .jtagTdi
  | 9 => .jtagTdo
  | 10 => .jtagTrstN
  | 11 => .refclk25
  | 12 => .testEn
  | 13 => .perstN
  | 14 => .erstN
  | 15 => .clHead
  | _ =>
    if q < 6 then .flIo (Fin.ofNat 4 (q - 2))
    else if q < 24 then (if q % 2 = 0 then .conScl (Fin.ofNat 4 ((q - 16) / 2)) else .conSda (Fin.ofNat 4 ((q - 16) / 2)))
    else if q < 32 then .prb (Fin.ofNat 8 (q - 24))
    else if q < 68 then .hall (Fin.ofNat 12 ((q - 32) / 3)) (Fin.ofNat 3 ((q - 32) % 3))
    else .sn (Fin.ofNat 64 (q - 68))

/-- The Core I/O region (R446): position `p`, counted row by row. -/
def coreIoBall (p : Nat) : Net :=
  if p % 12 = 11 then (if p / 12 % 2 = 0 then .vddio33 else .vddio18) else .sig (coreIoSignal (p - p / 12))

/-- The Core power region (R447). -/
def corePowerBall (i j : Nat) : Net := if (i + j) % 2 = 0 then .vss else if i ≤ 11 then .vddSram else .vddCore

/-- The gate-drive region (R448, Table 23-3): row index `i`, column `k` of group `g`. -/
def gateBall (g : Fin 12) (i k : Nat) : Net :=
  let v := Net.vgl (Fin.ofNat 4 (g.val / 3))
  let h := fun n x => Net.sig (.hb (Fin.ofNat 48 (4 * g.val + n)) x)
  let r := triple k
  match i with
  | 29 => r v (.pgnd g) v
  | 30 => r (h 0 .lo) (h 0 .dsl) (.pgnd g)
  | 31 => r (h 1 .lo) (h 1 .dsl) (.pgnd g)
  | 32 => r (h 2 .lo) (h 2 .dsl) (.pgnd g)
  | 33 => r (h 3 .lo) (h 3 .dsl) (.pgnd g)
  | 34 => r (h 0 .dsh) (h 0 .bst) (.pgnd g)
  | 35 => r (h 0 .ho) (h 0 .sw) (h 1 .dsh)
  | 36 => r (h 1 .bst) (h 1 .ho) (h 1 .sw)
  | 37 => r (h 2 .dsh) (h 2 .bst) (h 2 .ho)
  | 38 => r (h 2 .sw) (h 3 .dsh) (h 3 .bst)
  | _ => r (h 3 .ho) (h 3 .sw) (.pgnd g)

/-- The safety corner (R449, Table 23-4): row index `i`, column `k` of the three. -/
def safetyBall (i k : Nat) : Net :=
  let r := triple k
  let s := Net.sig
  match i with
  | 29 => r .vstby33 (s .acOk) (s .porstN)
  | 30 => r .vstby33 (s (.ilk 0)) (s (.ilk 1))
  | 31 => r .vss (s (.ilk 2)) (s (.ilk 3))
  | 32 => r (s (.len 0)) (s (.len 1)) (s (.len 2))
  | 33 => r (s (.len 3)) (s (.len 4)) (s (.len 5))
  | 34 => r .vss (s .mainsSync) .vstby33
  | 39 => r .vstby33 .vss .vss
  | _ => let h := Fin.ofNat 4 (i - 35); r (s (.htrA h)) (s (.htrB h)) (s (.htrFltN h))

/-- The supervisor region (R450). -/
def supervisorBall (i j : Nat) : Net :=
  if i = 28 then (if j % 2 = 1 then .vss else .vstby33)
  else if j = 9 then (if i % 2 = 0 then .vstby33 else .vss)
  else
    .sig (.rail (Fin.ofNat 16 (2 * (i - 20) + (if j ≤ 4 then 0 else 1)))
      (match (j - 1) % 4 with | 0 => .en | 1 => .pg | 2 => .vs | _ => .trim))

/-- The analogue region (R451): column `k` of triple `t`. -/
def analogueBall (t k : Nat) : Net :=
  if t < 18 then
    let n := Fin.ofNat 6 (t / 3)
    match t % 3 with
    | 0 => pairOf k (.scSin n) .agnd
    | 1 => pairOf k (.scCos n) .agnd
    | _ => triple k (.sig (.scIdx n)) (.sig (.scExc n)) .agnd
  else if t < 24 then triple k (.sig (.th (Fin.ofNat 12 (2 * (t - 18))))) (.sig (.th (Fin.ofNat 12 (2 * (t - 18) + 1)))) .agnd
  else if t < 56 then triple k (.sig (.ain (Fin.ofNat 64 (2 * (t - 24))))) (.sig (.ain (Fin.ofNat 64 (2 * (t - 24) + 1)))) .agnd
  else if t = 56 then triple k (.sig .adcVref) .agnd .agnd
  else if t < 63 then triple k .vana5 .vana5 .agnd
  else .agnd

/-- The high-voltage region (R452): column `k` of triple `u`. -/
def highVoltageBall (u k : Nat) : Net :=
  if u < 12 then triple k (.sig (.hvPwm (Fin.ofNat 24 (2 * u)))) (.sig (.hvPwm (Fin.ofNat 24 (2 * u + 1)))) .vss else .vss

/-- The net of the ball at row index `i` and column `j`, 1 to 39 each (R442, R443). -/
def ballNet (i j : Nat) : Net :=
  match region i j with
  | .memory => memoryBall (Fin.ofNat 4 ((j - 1) / 3)) i ((j - 1) % 3)
  | .serial => serialBall (3 * (i - 1) + (j - 31) / 3) ((j - 31) % 3)
  | .coreIo => coreIoBall (18 * (i - 1) + (j - 13))
  | .corePower => corePowerBall i j
  | .supervisor => supervisorBall i j
  | .analogue => analogueBall (8 * (i - 20) + (j - 10) / 3) ((j - 10) % 3)
  | .highVoltage => highVoltageBall (2 * (i - 20) + (j - 34) / 3) ((j - 34) % 3)
  | .gateDrive => gateBall (Fin.ofNat 12 ((j - 1) / 3)) i ((j - 1) % 3)
  | .safetyCorner => safetyBall i (j - 37)

/-- The row letters in the order of their indices (R442). -/
def rowNames : List String :=
  ["A", "B", "C", "D", "E", "F", "G", "H", "J", "K", "L", "M", "N", "P", "T", "U", "V", "W", "Y", "AA", "AB", "AC", "AD", "AE", "AF",
    "AG", "AH", "AJ", "AK", "AL", "AM", "AN", "AP", "AT", "AU", "AV", "AW", "AY", "BA"]

/-- A ball by its name, row letters and column (R442). -/
def ballAt (row : String) (j : Nat) : Net := ballNet (rowNames.idxOf row + 1) j

/-- Every ball position: row index and column. -/
def ballPositions : List (Nat × Nat) := (List.range 39).flatMap fun i => (List.range 39).map fun j => (i + 1, j + 1)

/-- The balls that carry net `x`. -/
def ballCount (x : Net) : Nat := (ballPositions.filter fun b => ballNet b.1 b.2 = x).length

/-- The two dies. -/
inductive Die | core | drive
  deriving DecidableEq, Repr

/-- The die a ball's half of the package is bonded to: rows A–Y the Core die, rows AA–BA the Drive die. -/
def dieOf (i : Nat) : Die := if i ≤ 19 then .core else .drive

/-- The direction of a ball (Table 23-6); JEDEC LP5X gives that of a DRAM ball, and the calibration reference has none. -/
inductive Direction
  | input | output | both | jedec | none
  deriving DecidableEq, Repr

/-- The direction of a signal (R455, Tables 11-1, 22-1 and 23-6). -/
def Signal.direction : Signal → Direction
  | .pcieTx _ _ => .output
  | .ddr _ _ => .jedec
  | .ddrResetN => .jedec
  | .ddrZq => .none
  | .xl _ .rx _ => .input
  | .xl _ .bd _ => .input
  | .xl _ _ _ => .output
  | .clTx _ _ => .output
  | .flSck => .output
  | .flCsN => .output
  | .flIo _ => .both
  | .jtagTdo => .output
  | .conScl _ => .both
  | .conSda _ => .both
  | .sn _ => .both
  | .len _ => .output
  | .htrA _ => .output
  | .htrB _ => .output
  | .rail _ .en => .output
  | .rail _ .trim => .output
  | .scExc _ => .output
  | .adcVref => .output
  | .hvPwm _ => .output
  | .hb _ .ho => .output
  | .hb _ .lo => .output
  | _ => .input

/-- The supply domain of a signal, where Table 23-6 names one; a high-side driver runs between its BST and SW balls. -/
def Signal.domain : Signal → Option Net
  | .pcieTx _ _ => some .vddSerdes
  | .pcieRx _ _ => some .vddSerdes
  | .pcieRefclk _ => none
  | .refclk25 => some .vddio18
  | .ddr _ _ => some .vddqLp
  | .ddrResetN => some .vddqLp
  | .ddrZq => none
  | .xl _ .dck _ => some .vddio18
  | .xl _ .bd _ => some .vddio18
  | .xl _ _ _ => some .vddSerdes
  | .clTx _ _ => some .vddio18
  | .clRx _ _ => some .vddio18
  | .clHead => some .vddio33
  | .testEn => none
  | .flSck => some .vddio18
  | .flCsN => some .vddio18
  | .flIo _ => some .vddio18
  | .jtagTck => some .vddio18
  | .jtagTms => some .vddio18
  | .jtagTdi => some .vddio18
  | .jtagTdo => some .vddio18
  | .jtagTrstN => some .vddio18
  | .perstN => some .vddio33
  | .erstN => some .vddio33
  | .conScl _ => some .vddio33
  | .conSda _ => some .vddio33
  | .prb _ => some .vddio33
  | .hall _ _ => some .vddio33
  | .sn _ => some .vddio33
  | .scSin _ _ => some .vana5
  | .scCos _ _ => some .vana5
  | .scIdx _ => some .vana5
  | .scExc _ => some .vana5
  | .th _ => none
  | .ain _ => some .vana5
  | .adcVref => none
  | .hvPwm _ => some .vana5
  | .hb n .lo => some (.vgl (Fin.ofNat 4 (n.val / 12)))
  | .hb _ _ => none
  | _ => some .vstby33

/-- What a ball does in reset (Table 23-6). -/
inductive ResetState
  | input | pullUp | pullDown | pullUp10k | pullDown10k | low | high | highZ | idle | sensing | receiverOff | k285 | driven | none
  deriving DecidableEq, Repr

/-- The reset state of a signal (R455, Table 23-6): on a Core-die ball from the rise of its supply until its function is
configured, on a Drive-die ball while R17 holds the outputs and until its function is enabled. -/
def Signal.resetState : Signal → ResetState
  | .refclk25 => .input
  | .pcieTx _ _ => .idle
  | .pcieRx _ _ => .receiverOff
  | .pcieRefclk _ => .input
  | .perstN => .input
  | .erstN => .pullUp
  | .ddr _ (.ck true) => .high
  | .ddr _ (.ck false) => .low
  | .ddr _ (.ca _) => .low
  | .ddr _ (.cs _) => .low
  | .ddr _ (.wck _ _) => .low
  | .ddr _ _ => .highZ
  | .ddrResetN => .low
  | .ddrZq => .none
  | .xl _ .txa _ => .idle
  | .xl _ .txb _ => .idle
  | .xl _ .dck _ => .low
  | .xl _ _ _ => .input
  | .clTx _ _ => .k285
  | .clRx _ _ => .input
  | .clHead => .input
  | .testEn => .input
  | .flSck => .low
  | .flCsN => .high
  | .flIo _ => .pullUp
  | .jtagTck => .pullDown
  | .jtagTms => .pullUp
  | .jtagTdi => .pullUp
  | .jtagTrstN => .pullDown
  | .jtagTdo => .highZ
  | .conScl _ => .highZ
  | .conSda _ => .highZ
  | .prb _ => .pullDown
  | .hall _ _ => .pullUp10k
  | .sn _ => .pullDown
  | .porstN => .pullUp
  | .acOk => .pullDown
  | .ilk _ => .pullDown10k
  | .len _ => .low
  | .htrA _ => .low
  | .htrB _ => .low
  | .htrFltN _ => .pullUp
  | .mainsSync => .pullDown
  | .rail _ .en => .low
  | .rail _ .pg => .pullUp10k
  | .rail _ .vs => .sensing
  | .rail _ .trim => .highZ
  | .scSin _ _ => .sensing
  | .scCos _ _ => .sensing
  | .scIdx _ => .pullDown
  | .scExc _ => .highZ
  | .th _ => .pullUp10k
  | .ain _ => .sensing
  | .adcVref => .driven
  | .hvPwm _ => .low
  | .hb _ .ho => .low
  | .hb _ .lo => .low
  | .hb _ _ => .sensing

/-- The rails that feed the Core die's nets, by supply net (Table 20-1, R453): the rail's number. -/
def bootRail : Net → Option Nat
  | .vddio33 => some 0
  | .vddio18 => some 1
  | .vddCore => some 2
  | .vddSram => some 3
  | .vddSerdes => some 4
  | .vddqLp => some 5
  | _ => none

end Sys2Proof.Machine
end

