-- ==== Sys2Proof/Machine/Ratings.lean ====
section
/-! DEFINITION. Machine/Ratings.lean: what ch 24 lets a board apply and what the part draws: supply ratings (R461, R462), supply
power (R463), the gate drivers' internal share (R464), junction temperatures (R465) and the bootstrap condition (R471). No command
reads them: they are conditions on the board and bounds on the part. -/

namespace Sys2Proof.Machine

/-- A range in microvolts, least and greatest. -/
structure Range where
  lo : Int
  hi : Int
  deriving DecidableEq, Repr

/-- `x` lies in the range. -/
def Range.has (r : Range) (x : Int) : Prop := r.lo ≤ x ∧ x ≤ r.hi

/-- The absolute maximum rating of a supply net, in microvolts (R461, Table 24-1); the grounds are rated to VSS. -/
def absMax : Net → Option Range
  | .vddCore => some ⟨-300000, 900000⟩
  | .vddSram => some ⟨-300000, 950000⟩
  | .vddSerdes => some ⟨-300000, 1050000⟩
  | .vddqLp => some ⟨-300000, 700000⟩
  | .vddio18 => some ⟨-300000, 2100000⟩
  | .vddio33 => some ⟨-300000, 3900000⟩
  | .vstby33 => some ⟨-300000, 3900000⟩
  | .vana5 => some ⟨-300000, 6000000⟩
  | .vgl _ => some ⟨-300000, 18000000⟩
  | .pgnd _ => some ⟨-500000, 500000⟩
  | .agnd => some ⟨-500000, 500000⟩
  | _ => none

/-- The recommended range of a supply net, in microvolts (R462, Table 24-2); `vglMv` is the nominal voltage GDR_VGL_CFG gives the
gate supply, in millivolts. -/
def recommended (vglMv : Nat) : Net → Option Range
  | .vddCore => some ⟨727500, 772500⟩
  | .vddSram => some ⟨776000, 824000⟩
  | .vddSerdes => some ⟨873000, 927000⟩
  | .vddqLp => some ⟨485000, 515000⟩
  | .vddio18 => some ⟨1710000, 1890000⟩
  | .vddio33 => some ⟨3135000, 3465000⟩
  | .vstby33 => some ⟨3135000, 3465000⟩
  | .vana5 => some ⟨4750000, 5250000⟩
  | .vgl _ => some ⟨950 * vglMv, 1050 * vglMv⟩
  | _ => none

/-- The ±6.0% window of a boot rail's supply about its nominal voltage, in microvolts (Table 20-1, R462). -/
def bootWindow : Net → Option Range
  | .vddio33 => some ⟨3102000, 3498000⟩
  | .vddio18 => some ⟨1692000, 1908000⟩
  | .vddCore => some ⟨705000, 795000⟩
  | .vddSram => some ⟨752000, 848000⟩
  | .vddSerdes => some ⟨846000, 954000⟩
  | .vddqLp => some ⟨470000, 530000⟩
  | _ => none

/-- A junction's recommended range and its absolute maximum, in °C (Tables 24-1 and 24-2). -/
def junction : Die → Range × Int
  | .core => (⟨-40, 105⟩, 125)
  | .drive => (⟨-40, 125⟩, 150)

/-- A supply's greatest power at the full load of R1, in milliwatts; the four VGL supplies together (R463, Table 24-3). -/
def powerMax : List (List Net × Nat) :=
  [([.vddCore], 4400), ([.vddSram], 700), ([.vddSerdes], 1050), ([.vddqLp], 600), ([.vddio18], 400), ([.vddio33], 250),
   ([.vstby33], 250), ([.vana5], 750), ([.vgl 0, .vgl 1, .vgl 2, .vgl 3], 600)]

/-- A supply's typical power at that load, in milliwatts (R463, Table 24-3). -/
def powerTyp : List (List Net × Nat) :=
  [([.vddCore], 3600), ([.vddSram], 600), ([.vddSerdes], 900), ([.vddqLp], 500), ([.vddio18], 350), ([.vddio33], 250),
   ([.vstby33], 200), ([.vana5], 600), ([.vgl 0, .vgl 1, .vgl 2, .vgl 3], 500)]

/-- The sum of a power column. -/
def powerTotal (l : List (List Net × Nat)) : Nat := (l.map (·.2)).sum

/-- A power switch as the board builds it: gate charge in nanocoulombs, gate supply in volts, switching frequency in hertz with the
refresh pulses of R297 counted in, and the external resistors in ohms. -/
structure Switch where
  charge : Nat
  volts : Nat
  freq : Nat
  ron : Nat
  roff : Nat
  deriving DecidableEq, Repr

/-- A switch's power from its gate supply, in watts: Q_g × V × f (R463). -/
def Switch.total (x : Switch) : Rat := (x.charge * x.volts * x.freq : Nat) / 1000000000

/-- The share of it dissipated in the driver: the source resistance is V ÷ 2 A and the sink resistance V ÷ 4 A (R464). -/
def Switch.share (x : Switch) : Rat :=
  let src : Rat := x.volts / 2
  let snk : Rat := x.volts / 4
  (src / (src + x.ron) + snk / (snk + x.roff)) / 2

/-- P_int of R464, in watts. -/
def pInt (l : List Switch) : Rat := (l.map fun x => x.total * x.share).sum

/-- The board's condition of R464. -/
def pIntOk (l : List Switch) : Prop := pInt l < 2 / 5

/-- A junction's temperature from the lid's: its die's power in watts times θJC (R465, Table 24-4). -/
def junctionTemp (d : Die) (lid power : Rat) : Rat :=
  lid + power * (match d with | .core => 9 / 100 | .drive => 35 / 100)

/-- The condition on a bootstrap capacitor of `c` nF: from `vbst` it stays above the falling UVLO threshold `vuv` (millivolts) for eight
periods of `period` ns under 200 µA and one gate charge of `qg` nC (R471). -/
def bootstrapOk (c vbst vuv qg period : Nat) : Prop := qg * 1000000 + 200 * 8 * period ≤ c * (vbst - vuv) * 1000

end Sys2Proof.Machine
end

