-- ==== Sys2Proof/WellFormed.lean ====
section
/-! DEFINITION. WellFormed.lean: which commands can reach the block at all: the ranges of the operands that Lean's types leave
wider than the hardware does. A meaning is defined for every command, the ill-formed ones included. -/

namespace Sys2Proof

/-- A BAR0 address: 16 MiB (Table 0-2). -/
def barOk (addr : Nat) : Bool := Nat.blt addr 0x1000000

/-- A write of at least one byte that lies within a window of `size` bytes. -/
def windowOk (size addr : Nat) (data : List Byte) : Bool := !data.isEmpty && Nat.ble (addr + data.length) size

/-- Offsets of register words that strictly rise, each aligned and inside BAR0. -/
def stageOk : Nat → List (Nat × Word) → Bool
  | _, [] => true
  | lo, (a, _) :: r => Nat.ble lo a && a % 4 == 0 && barOk a && stageOk (a + 1) r

/-- An image: its staged words in order, its parts no longer than the memories they fill, and at most one worst case for each
thread (Table 2-1). -/
def imageOk (img : Image) : Bool :=
  stageOk 0 img.stage && Nat.ble img.program.length 0x40000 && Nat.ble img.data.length 0x20000
    && img.worst.all fun x => Nat.blt x.1 16

/-- A converter code of 14 bits, signed or unsigned (R263). -/
def codeOk (c : Int) : Bool := decide (-16384 < c) && decide (c < 16384)

/-- The operand ranges of each command; the commands whose operand types are exact are always well formed. -/
def wellFormed : Instr → Bool
  | .registerWrite _ addr _ _ => barOk addr
  | .unmappedAccess _ addr _ _ => barOk addr
  | .readClear _ addr _ => barOk addr
  | .pairLowRead _ addr _ => barOk addr
  | .pairHighWrite _ addr _ => barOk addr
  | .stWrite _ addr _ => barOk addr
  | .pmemHostWrite addr data => windowOk 0x40000 addr data
  | .dmemHostWrite addr data => windowOk 0x20000 addr data
  | .upwardFrame cyc _ ain _ => Nat.blt cyc 4000 && ain.toList.all fun x => codeOk x.shunt1 && codeOk x.shunt2
  | .vintageLoadDone img => imageOk img
  | .descriptorCheck desc bands => Nat.ble desc.length 104 && Nat.ble bands.length 6
  | .i2cTransactionDone _ _ data => Nat.ble data.length 255
  | _ => true

end Sys2Proof
end

