-- ==== Sys2Proof/Tests/Slice0.lean ====
section
/-! SUPPORT. Tests/Slice0.lean: the refusals of the well-formedness check, small checks of single steps, and, for every statement with
hypotheses, a concrete state and operands that meet the hypotheses of each of its clauses. Expected values are worked from the spec's
rules. -/

namespace Sys2Proof.Tests

open Sys2Proof Sys2Proof.Machine

set_option maxRecDepth 8192

/-! ## States to start from -/

/-- A powered device in state `dev` with the bridge up, at cycle 1,000 of tick 5. -/
def up (dev : Nat) : State :=
  ({ State.reset with tsc := 21000#64, psq := { core := true, pll := true, standby := false } }.putF F.DEV_STATE_STATE dev).putF
    F.BRG_STATUS_UP 1

/-- Thread 3 may issue; x4 = 7, x5 = −2, x6 = 0x100. -/
def thr3 : Thread :=
  { st := .eligible, pc := 5, budget := 20,
    x := (((Vector.replicate 16 (0#32 : Word)).set 4 7#32).set 5 0xFFFFFFFE#32).set 6 0x100#32 }

def run : State := (up 4).setThr 3 thr3

/-- The same at another cycle of its tick. -/
def at_ (cyc : Nat) (s : State) : State := { s with tsc := BitVec.ofNat 64 (20000 + cyc) }

/-! ## Well-formedness -/

theorem illFormed_registerWrite : wellFormed (.registerWrite .host 0x1000000 0xF#4 0#32) = false := by decide
theorem illFormed_unmappedAccess : wellFormed (.unmappedAccess .host 0x1000000 0xF#4 true) = false := by decide
theorem illFormed_readClear : wellFormed (.readClear .host 0x1000000 0xF#4) = false := by decide
theorem illFormed_pairLowRead : wellFormed (.pairLowRead .host 0x1000000 0xF#4) = false := by decide
theorem illFormed_pairHighWrite : wellFormed (.pairHighWrite .host 0x1000000 0#32) = false := by decide
theorem illFormed_stWrite : wellFormed (.stWrite .host 0x1000000 0#32) = false := by decide
theorem illFormed_pmemHostWrite : wellFormed (.pmemHostWrite 0x3FFFF [0#8, 0#8]) = false := by decide
theorem illFormed_dmemHostWrite : wellFormed (.dmemHostWrite 0 []) = false := by decide
theorem illFormed_upwardFrame :
    wellFormed (.upwardFrame 4000 false (Vector.replicate 64 {}) (Vector.replicate 6 (Vector.replicate 20 (0, 0)))) = false := by decide
theorem illFormed_descriptorCheck : wellFormed (.descriptorCheck (List.replicate 105 0#32) []) = false := by decide
theorem illFormed_i2cTransactionDone : wellFormed (.i2cTransactionDone 0 false (List.replicate 256 0#8)) = false := by decide
theorem wellFormed_registerWrite : wellFormed (.registerWrite .host 0xFFFFFC 0xF#4 0#32) = true := by decide

/-! ## Single steps -/

/-- ADD wraps modulo 2^32 (R80): 7 + (−2) = 5; the PC advances (R79) and the cost of 1 is charged (R51). -/
theorem test_add : ∃ u, exec (.add 3 7 4 5) run = .next u ∧ u.rx 3 7 = 5#32 ∧ (u.thr 3).pc = 6 ∧ (u.thr 3).budget = 19 :=
  ⟨_, rfl, by decide, by decide, by decide⟩

/-- A write of x0 changes nothing (R72). -/
theorem test_add_x0 : ∃ u, exec (.add 3 0 4 5) run = .next u ∧ u.rx 3 0 = 0#32 ∧ (u.thr 3).pc = 6 := ⟨_, rfl, by decide, by decide⟩

/-- QUO of −2 by 0 gives 0x8000_0000 (R81). -/
theorem test_quo_by_zero : ∃ u, exec (.quo 3 7 5 0) run = .next u ∧ u.rx 3 7 = 0x80000000#32 := ⟨_, rfl, by decide⟩

/-- IFLT is signed and IFLO unsigned (Table 4-2). -/
theorem test_iflt_taken : ∃ u, exec (.iflt 3 5 4 10#18) run = .next u ∧ (u.thr 3).pc = 15 := ⟨_, rfl, by decide⟩
theorem test_iflo_not_taken : ∃ u, exec (.iflo 3 5 4 10#18) run = .next u ∧ (u.thr 3).pc = 6 := ⟨_, rfl, by decide⟩

/-- FADD of 1.0 and 2.0 is 3.0; 0 × ∞ is the default NaN (R82). -/
theorem test_fadd : F32.add 0x3F800000#32 0x40000000#32 = 0x40400000#32 := by decide
theorem test_fmul_invalid : F32.mul 0#32 0x7F800000#32 = 0x7FC00000#32 := by decide
/-- One third is rounded to nearest, ties to even (R82). -/
theorem test_fdiv_third : F32.div 0x3F800000#32 0x40400000#32 = 0x3EAAAAAB#32 := by decide

/-- A step takes the front command; the rest of the queue stays. -/
theorem test_step_front : ∃ u, step { run with pending := [.add 3 7 4 5, .mova 3 8] } = .next u ∧ u.pending = [.mova 3 8] :=
  ⟨_, rfl, by decide⟩

/-- Words written out from Tables 4-1, 4-2, 4-4, 4-5 and 4-9. -/
theorem test_decode_add : decodeOuvta 3 .clean 0x05D14000#32 = some (.add 3 7 4 5) := by decide
theorem test_decode_khi : decodeOuvta 3 .clean 0x35C00001#32 = some (.khi 3 7 1#22) := by decide
theorem test_decode_ifeq : decodeOuvta 3 .clean 0x80480004#32 = some (.ifeq 3 1 2 4#18) := by decide
theorem test_decode_in : decodeOuvta 3 .clean 0xC1D80008#32 = some (.portIn 3 7 6 8#18) := by decide
theorem test_decode_zero_word : decodeOuvta 3 .clean 0#32 = none := by decide
theorem test_decode_add_bad_fn : decodeOuvta 3 .clean 0x05D1400E#32 = none := by decide

/-- At reset no page credit is taken: 256 are free (R112). -/
theorem test_reset_credits : State.reset.getF F.HIF_PAGE_CREDITS = 256 := by decide

/-- The lookups of Table 23-8, and a power ball between two grounds (R447). -/
theorem test_balls :
    [ballAt "P" 7, ballAt "F" 37, ballAt "F" 15, ballAt "AB" 26, ballAt "AF" 8, ballAt "AD" 35, ballAt "AU" 24]
      = [Signal.ddr 2 (.dq 10), .xl 3 .rx .p, .sn 17, .scCos 4 .n, .rail 11 .trim, .hvPwm 13, .hb 29 .dsh].map Net.sig := by decide
theorem test_power_balls : [ballAt "J" 13, ballAt "K" 13, ballAt "M" 13] = [.vss, .vddSram, .vddCore] := by decide

/-- The two dies' maxima of Table 24-3 add up to 9.0 W; 54 switches of the example below R464 dissipate 0.294 W inside. -/
theorem test_power_total : powerTotal powerMax = 9000 ∧ powerTotal powerTyp = 7500 := by decide
theorem test_internal_share : 54 * (Switch.total ⟨30, 12, 50000, 10, 10⟩ * Switch.share ⟨30, 12, 50000, 10, 10⟩) < 2945 / 10000 := by
  norm_num [Switch.total, Switch.share]


/-! ## Witnesses: instructions -/

theorem witness_StepRunsTheFrontCommand : { run with pending := [Instr.mova 3 8] }.pending = .mova 3 8 :: [] := rfl

theorem witness_IdleStepsCountTheMainClock :
    (run.pending = [] ∧ run.psq.core = true ∧ run.psq.pll = true ∧ run.tsc.toNat % 4000 ≠ 3999)
    ∧ State.reset.psq.core = false ∧ (at_ 3999 run).tsc.toNat % 4000 = 3999 := by decide

theorem witness_EveryStepKeepsMemoriesCanonical : ∃ t, step run = .next t ∧ run.mem.wf = true := ⟨_, rfl, by decide⟩

theorem witness_OnlyTheirWritersChangeMemoriesFusesAndTime :
    ∃ t, exec (.add 3 7 4 5) run = .next t ∧ writesMemory (.add 3 7 4 5) = false ∧ burnsFuses (.add 3 7 4 5) = false
      ∧ movesTime (.add 3 7 4 5) = false := ⟨_, rfl, by decide⟩

theorem witness_IntegerInstructionsWriteTheirResult : run.ready 3 1 ∧ run.ready 3 8 := by decide

theorem witness_BranchesGoWhereTheirComparisonSays :
    (decide (run.rx 3 5 ≠ run.rx 3 4) = true ∧ run.canIssue 3 2 = true
      ∧ (BitVec.ofNat 32 (run.thr 3).pc + (10#18).signExtend 32).toNat < 65536)
    ∧ decide (run.rx 3 5 = run.rx 3 4) = false ∧ run.ready 3 1
    ∧ decide ((run.rx 3 5).toInt < (run.rx 3 4).toInt) = true ∧ decide ((run.rx 3 4).toInt ≤ (run.rx 3 5).toInt) = false
    ∧ decide ((run.rx 3 5).toNat < (run.rx 3 4).toNat) = false ∧ decide ((run.rx 3 4).toNat ≤ (run.rx 3 5).toNat) = true := by decide

theorem witness_CallsLinkAndJump :
    run.canIssue 3 2 = true ∧ (BitVec.ofNat 32 (run.thr 3).pc + (0x3FFFFF#22).signExtend 32).toNat < 65536
      ∧ (run.rx 3 4 + (10#18).signExtend 32).toNat < 65536 := by decide

theorem witness_DivisionCornersSaturate :
    0 ≤ (0#32 : Word).toInt ∧ (0xFFFFFFFF#32 : Word).toInt < 0 ∧ ((2#32 : Word) ≠ 0#32 ∧ ¬ ((7#32 : Word) = 0x80000000#32 ∧ (2#32 : Word) = 0xFFFFFFFF#32))
      ∧ run.ready 3 8 ∧ (run.thr 3).pc + 1 < 65536 := by decide

theorem witness_FloatInstructionsWriteTheirResult : run.ready 3 1 ∧ run.ready 3 2 ∧ run.ready 3 8 := by decide

theorem witness_NaNOperandsPropagate :
    F32.isNaN 0x7F800001#32 = true ∧ (F32.isNaN 0#32 = false ∧ F32.isNaN 0xFFC00000#32 = true)
      ∧ F32.isZero 0x80000000#32 = true ∧ F32.isInf 0xFF800000#32 = true := by decide

/-- Thread 3 has the private window [0, 0x400) (R58); x6 = 0x100. -/
def mem3 : State := run.putR (R.SEQ_THR_WIN 3) 0x00040000#32

theorem witness_LoadsReadLittleEndian :
    mem3.ready 3 2 ∧ mem3.dmemCheck 3 (dmemAddr (mem3.rx 3 6) 4#18) 4 = none ∧ mem3.dmemCheck 3 (dmemAddr (mem3.rx 3 6) 6#18) 2 = none
      ∧ mem3.dmemCheck 3 (dmemAddr (mem3.rx 3 6) 7#18) 1 = none := by decide

theorem witness_StoresWriteOnlyTheirBytes :
    mem3.ready 3 1 ∧ mem3.ready 3 2 ∧ mem3.dmemCheck 3 (dmemAddr (mem3.rx 3 6) 4#18) 4 = none
      ∧ mem3.dmemCheck 3 (dmemAddr (mem3.rx 3 6) 6#18) 2 = none ∧ mem3.dmemCheck 3 (dmemAddr (mem3.rx 3 6) 7#18) 1 = none
      ∧ mem3.dmemCheck 3 (mem3.rx 3 6).toNat 4 = none := by decide

theorem witness_BadAccessesFaultWithoutEffect :
    mem3.canIssue 3 1 = true ∧ mem3.canIssue 3 2 = true ∧ dmemAddr (mem3.rx 3 6) 6#18 % 4 ≠ 0
      ∧ (dmemAddr (mem3.rx 3 6) 0x300#18 % 4 = 0 ∧ mem3.dmemOk 3 (dmemAddr (mem3.rx 3 6) 0x300#18) 4 = false)
      ∧ mem3.dmemOk 3 (dmemAddr (mem3.rx 3 6) 4#18) 4 = true := by decide

theorem witness_PermittedPortAccessesComplete :
    (run.ready 3 4 ∧ run.portDenied (.thread 3) R.DEV_ID false = false ∧ (findReg R.DEV_ID).isSome = true
      ∧ windowAt R.DEV_ID = none ∧ isPairLow R.DEV_ID = false ∧ isPairHigh R.DEV_ID = false ∧ R.DEV_ID ≠ R.SEC_RNG
      ∧ isDrive R.DEV_ID = false ∧ run.startR R.DEV_ID = run.getR R.DEV_ID)
    ∧ (run.ready 3 2 ∧ run.flag (F.SEQ_MBO_STATUS_FULL 7) = false ∧ R.SEQ_MBO_DATA 7 15 = portOffset (BitVec.ofNat 32 (R.SEQ_MBO_DATA 7 15)) 0#18) := by
  decide

theorem witness_DeniedPortAccessesFault :
    run.canIssue 3 4 = true ∧ run.canIssue 3 2 = true ∧ run.portDenied (.thread 3) R.SEC_STATUS false = true
      ∧ run.portDenied (.thread 3) R.DEV_RESET true = true := by decide

/-- x8 = 1: a mask of SIG 0 alone; the bit is pending in `sig0`. -/
def wait0 : State := run.setThr 3 { thr3 with x := thr3.x.set 8 1#32 }
def sig0 : State := wait0.setThr 3 { wait0.thr 3 with pend := 1#64 }

theorem witness_WaitEndsAtOnceOrWaits :
    wait0.ready 3 1 ∧ (wait0.thr 3).st = .eligible ∧ wait0.pendOf 3 &&& 1#64 = 0#64 ∧ sig0.ready 3 1 ∧ sig0.pendOf 3 &&& 1#64 ≠ 0#64 := by
  decide

theorem witness_SignalsClocksAndDeadlines : run.ready 3 1 := by decide

def unlocked : State := run.putF F.SEC_STATUS_DEBUG_UNLOCKED 1

theorem witness_BreakpointsEventsAndIllegalWords :
    (unlocked.ready 3 1 ∧ unlocked.dbgOpen = true ∧ (unlocked.thr 3).st = .eligible) ∧ run.canIssue 3 1 = true
    ∧ Ecc.clean ≠ .corrected ∧ run.dbgOpen = false := by
  decide

/-- A committed page, tag 9, with no planes; and a sheet of thread 3 in zone 4. -/
def page9 : Page := { tag := 9#32, st := .committed, cid := 1, seq := 0, lines := 100 }
def held : State := { run with cel := { run.cel with pages := [page9] } }
def sheet1 : Sheet := { id := 1#32, place := .zone 4, owner := 3 }
def led1 : State := { run with led := { run.led with sheets := [sheet1], picked := 1 } }

theorem witness_PickTakesAPageOrSaysWhyNot :
    (held.ready 3 4 ∧ held.frozen = false ∧ held.jr.frozenAc = false ∧ held.pickPage (held.rx 3 0) = some page9 ∧ held.pickRefusal 3 (some page9) (held.rx 3 0) = none
      ∧ held.pitchLeft = 0 ∧ held.rx 3 0 = 0#32 ∧ held.host.rinse = none)
    ∧ run.pickRefusal 3 (run.pickPage (run.rx 3 0)) (run.rx 3 0) = some 2 := by decide

/-- The same, with the sheet's identifier in x2 of thread 3. -/
def led2 : State := led1.setThr 3 { thr3 with x := thr3.x.set 2 1#32 }

theorem witness_LdgmMovesItsSheetOrFaults :
    (led2.ready 3 2 ∧ led2.jr.frozenAc = false
      ∧ led2.ldgmCheck 3 (led2.rx 3 2) (0x15#6).toNat false (Fin.ofNat 16 (led2.rx 3 0).toNat) = some (sheet1, .stay (.zone 5)) ∧ sheet1.place ≠ .zone 5)
    ∧ run.canIssue 3 2 = true ∧ run.ldgmCheck 3 (run.rx 3 2) (0x15#6).toNat false (Fin.ofNat 16 (run.rx 3 0).toNat) = none := by decide

theorem witness_OuvtaDecodeOfEncode : encodeOuvta (.add 3 7 4 5) = some 0x05D14000#32 := by decide

theorem witness_OuvtaEncodeOfDecode : decodeOuvta 3 .clean 0x05D14000#32 = some (.add 3 7 4 5) := by decide

/-- The threads are to start, and a whole apply has enabled thread 3. -/
def starting : State :=
  { run with seq := { run.seq with startDue := true }, vin := { run.vin with applied := [(R.SEQ_THR_CFG 3, 1#32)] } }

theorem witness_SignalsMergeAndWaitForTheStart :
    (run.ready 3 1 ∧ (7 : Fin 16) = Fin.ofNat 16 (run.rx 3 0 + (7#18).signExtend 32).toNat)
    ∧ starting.seq.startDue = true ∧ (match exec .threadStart starting with | .next t => t.flag (F.SEQ_THR_CFG_EN 3) | _ => false) = true := by decide

theorem witness_FrozenLedgersFaultPick :
    (run.putF F.LDG_STATUS_FROZEN 1).frozen = true ∧ (run.putF F.LDG_STATUS_FROZEN 1).canIssue 3 4 = true := by decide


/-! ## Witnesses: registers, boot, bridge, engine reset -/

theorem witness_RegisterAndPairAccessesAct :
    (∃ r, findReg R.VIN_APPLY_TIMEOUT = some r ∧ windowAt R.VIN_APPLY_TIMEOUT = none ∧ R.VIN_APPLY_TIMEOUT % 4 = 0
      ∧ R.VIN_APPLY_TIMEOUT < 0x1000000 ∧ R.VIN_APPLY_TIMEOUT / 65536 ∈ [1, 5, 6, 7]
      ∧ BitVec.ofNat 32 (r.w1c ||| r.w1s) &&& BitVec.ofNat 32 r.rw = 0#32)
    ∧ (R.MOV_JAM_GATE % 4 = 0 ∧ R.MOV_JAM_GATE < 0x1000000 ∧ (findReg R.MOV_JAM_GATE).isSome = true
      ∧ R.MOV_JAM_GATE ∈ [R.DEV_RESET_CAUSE, R.SEQ_FAULT_SRC, R.MOV_JAM_GATE, R.CHN_STATUS])
    ∧ ((findReg R.SEQ_ECC_CORR).isSome = true ∧ windowAt R.SEQ_ECC_CORR = none ∧ isPairLow R.SEQ_ECC_CORR = false
      ∧ isPairHigh R.SEQ_ECC_CORR = false ∧ R.SEQ_ECC_CORR ≠ R.SEC_RNG ∧ isDrive R.SEQ_ECC_CORR = false
      ∧ run.startR R.SEQ_ECC_CORR = run.getR R.SEQ_ECC_CORR)
    ∧ isMapped 0xFFFFFC = false ∧ 0xFFFFFC % 4 = 0
    ∧ (isPairLow (R.HIF_RING_BASE_LO 3) = true ∧ (findReg (R.HIF_RING_BASE_LO 3)).isSome = true ∧ windowAt (R.HIF_RING_BASE_LO 3) = none
      ∧ R.HIF_RING_BASE_LO 3 ≠ R.SEC_RNG ∧ R.HIF_RING_BASE_LO 3 % 4 = 0 ∧ R.HIF_RING_BASE_LO 3 < 0x1000000)
    ∧ (R.HIF_RING_BASE_HI 3 % 4 = 0 ∧ R.HIF_RING_BASE_HI 3 < 0x1000000)
    ∧ run.ringOn 3 = false ∧ SMap.get resetWord run.low (R.HIF_RING_BASE_LO 3) = 0#32 :=
  ⟨⟨_, rfl, by decide⟩, by decide⟩

/-- Booting: the Core die is out of reset and its PLL is not locked yet; locked, with the bridge down; then the dies pair. -/
def booting : State := { (up 2).putF F.BRG_STATUS_UP 0 with psq := { core := true, pll := false, standby := false } }
def locked : State := (up 2).putF F.BRG_STATUS_UP 0
def paired : State := (up 2).putF F.DEV_STATE_PAIRED 1
/-- The events have been released (R422). -/
def recovered : State := { paired with ev := { paired.ev with held := false } }

theorem witness_BootStepsAdvance :
    (booting.devIs 2 = true ∧ booting.psq.core = true ∧ booting.psq.pll = false)
    ∧ ((booting.psqAdvance 2000).psq.core = true ∧ (booting.psqAdvance 2000).psq.pll = false
      ∧ (booting.psqAdvance 2000).psq.coreAt + 2000 ≤ (booting.psqAdvance 2000).psq.now)
    ∧ (locked.devIs 2 = true ∧ locked.psq.pll = true ∧ locked.flag F.BRG_STATUS_UP = false ∧ locked.psq.test = false)
    ∧ ((up 2).pairing = true ∧ (up 2).tsc.toNat ≤ (up 2).sec.pairAt + 40000 ∧ (up 2).fuse.pairCore = (up 2).fuse.pairDrive)
    ∧ ({ up 2 with tsc := 40000#64 }.pairing = true ∧ { up 2 with tsc := 40000#64 }.sec.pairAt + 40000 ≤ { up 2 with tsc := 40000#64 }.tsc.toNat
      ∧ { up 2 with tsc := 40000#64 }.sec.pairFails < 2)
    ∧ (paired.devIs 2 = true ∧ paired.flag F.DEV_STATE_PAIRED = true ∧ paired.ev.held = true)
    ∧ (recovered.devIs 2 = true ∧ recovered.ev.held = false ∧ recovered.flag F.MEM_STATUS_TRAINED = false) := by decide

/-- In the safe state while an engine reset is in progress, with eight good frames each way. -/
def safe5 : State := { (up 5).putF F.BRG_STATUS_DRIVE_SAFE 1 with brg := { goodUp := 8, goodDn := 8 } }
def killed : State := { run with brg := { kill := true } }
def killedSafe : State := killed.putF F.BRG_STATUS_DRIVE_SAFE 1

theorem witness_BridgeCommandsAct :
    (run.psq.core = true ∧ run.psq.pll = true)
    ∧ ((at_ 400 run).psq.core = true ∧ (at_ 400 run).flag F.BRG_STATUS_UP = true ∧ (at_ 400 run).brg.gotUp = false
      ∧ max (at_ 400 run).cycle 600 ≤ 600 ∧ (at_ 400 run).brg.missUp = 0)
    ∧ (run.psq.core = true ∧ run.flag F.BRG_STATUS_UP = true ∧ run.brg.received = none ∧ run.cycle ≤ 3700 ∧ run.frozen = false
      ∧ run.brg.missDn = 0)
    ∧ (safe5.flag F.BRG_STATUS_DRIVE_SAFE = true ∧ safe5.devIs 5 = true ∧ safe5.brg.kill = false ∧ 8 ≤ safe5.brg.goodUp ∧ 8 ≤ safe5.brg.goodDn)
    ∧ (killed.brg.kill = true ∧ killed.flag F.BRG_STATUS_DRIVE_SAFE = false)
    ∧ ((up 5).devIs 5 = true ∧ (up 5).brg.stopped = false)
    ∧ (killedSafe.flag F.BRG_STATUS_DRIVE_SAFE = true ∧ killedSafe.brg.tripDue = false ∧ killedSafe.brg.kill = true)
    ∧ (safe5.brg.tripDue = false ∧ safe5.brg.kill = false ∧ safe5.flag F.BRG_STATUS_LOST = false) := by decide

/-- Rings enabled, and one entry of each submission queue read and not yet consumed. -/
def rings : State :=
  let s := ((run.putR R.HIF_CTRL 0xF#32).putF F.DEV_STATE_HOST_READY 1).putF F.HIF_STATUS_READY 1
  { s with host := { s.host with sqTail := #v[1, 1], sqRead := #v[1, 1] } }

/-- An entry of the opcode `op` whose dwords 2 to 15 are 0. -/
def blank (op : BitVec 8) : SqEntry := { opcode := op, cid := 7#16 }

def asked : State := { run with rst := { req := some 1 } }
def resetting (r : EngReset) : State := { up 5 with tsc := 80000000#64, rst := r }
/-- Axis 2 is enabled and still moves. -/
def moving : State :=
  let s := ((resetting { stage := .stopping }).putF (F.MOV_AX_CFG_EN 2) 1).putF (F.MOV_AX_STATUS_STATE 2) 2
  { s with axis := s.axis.set 2 { v := 5 } }

theorem witness_EngineResetStepsAdvance :
    (bits 0x7A5E0001#32 16 16 = 0x7A5E ∧ (0x7A5E0001#32 : Word).getLsbD 0 = true ∧ run.devIs 4 = true ∧ run.rst.req = none)
    ∧ (rings.canConsume 1 1 = true ∧ rings.devIs 4 = true ∧ (blank 0x30#8).opcode = 0x30#8 ∧ zeroFrom (blank 0x30#8) 0 = true
      ∧ rings.rst.req = none)
    ∧ (asked.rst.req = some 1 ∧ asked.resettable = true ∧ asked.host.resetHeld = 0)
    ∧ ((resetting { rampAt := some 0 }).devIs 5 = true ∧ (resetting { rampAt := some 0 }).rst.hvDone = false
      ∧ (resetting { rampAt := some 0 }).rst.rampAt = some 0 ∧ 0 + 800000 ≤ (resetting { rampAt := some 0 }).tsc.toNat)
    ∧ ((resetting { stage := .stopping }).rst.stage = .stopping ∧ (resetting { stage := .stopping }).axesStill = true
      ∧ (resetting { stage := .stopping }).rst.noBridge = false ∧ (resetting { stage := .stopping }).jr.frozenAc = false)
    ∧ (moving.devIs 5 = true ∧ moving.rst.stage = .stopping ∧ moving.rst.at_ + 60000000 ≤ moving.tsc.toNat
      ∧ moving.flag (F.MOV_AX_CFG_EN 2) = true ∧ moving.axState 2 ≠ 0 ∧ (moving.ax 2).v ≠ 0)
    ∧ ((resetting { stage := .stranded }).rst.stage = .stranded
      ∧ (resetting { stage := .stranded }).rst.strandTick < (resetting { stage := .stranded }).tick
      ∧ (resetting { stage := .stranded }).rst.auditBad = false ∧ (resetting { stage := .stranded }).getF F.GDR_STATUS_BUS_TRIP = 0)
    ∧ ((resetting { noBridge := true }).devIs 5 = true ∧ (resetting { noBridge := true }).rst.noBridge = true
      ∧ (resetting { noBridge := true }).rst.at_ / 4000 + 1000 ≤ (resetting { noBridge := true }).tick) := by decide

/-! ## Witnesses: vintages -/

/-- An image of empty parts whose Header is right; its chain and signature are open. -/
def image (chain sig : List Byte) : Image :=
  { version := 1#32, floor := 0#32, sizes := [0, 0, 0, 0, 0, 0], hashes := List.replicate 6 (Crypto.sha256 []),
    certHash := Crypto.sha256 [], chain := chain, sig := sig }
def image0 : Image := image [] []
def plain : Image := { version := 1#32, floor := 0#32 }

theorem vinCheck_open (s : State) (v : Vint) (chain sig : List Byte) :
    { s with vin := v }.vinCheck (image chain sig) true = s.vinCheck image0 true := rfl

/-- A blank bank passes every rule of the classes that read the bank alone. -/
theorem blank_passes (s : State) (h : s.stage = []) :
    runClass 1 (s.vinGeometry image0) = none ∧ runClass 2 s.vinLink = none ∧ runClass 4 s.vinOwnership = none
      ∧ runClass 5 (s.vinBudgets image0) = none ∧ runClass 7 s.vinRails = none := by
  have e : s.vinGeometry image0 = State.reset.vinGeometry image0 ∧ s.vinLink = State.reset.vinLink ∧ s.vinOwnership = State.reset.vinOwnership
      ∧ s.vinBudgets image0 = State.reset.vinBudgets image0 ∧ s.vinRails = State.reset.vinRails := by
    cases s; subst h; exact ⟨rfl, rfl, rfl, rfl, rfl⟩
  rw [e.1, e.2.1, e.2.2.1, e.2.2.2.1, e.2.2.2.2]
  exact ⟨by decide, by decide, by decide, by decide, by decide⟩

/-- The check of the image passes where the bank is blank and the registers that it reads are. -/
theorem image_passes (s : State) (h : s.stage = []) (n : runClass 3 s.vinBinding = none) (m : runClass 6 (s.vinMemory image0) = none)
    (v : runClass 8 s.vinLimits = none) (f : s.monoLive 0 = 0) : s.vinCheck image0 true = none := by
  obtain ⟨a, b, c, d, e⟩ := blank_passes s h
  have k : runClass 9 (s.vinImage image0 true) = none := by simp [runClass, State.vinImage, image0, image, f]
  simp [State.vinCheck, a, b, c, d, e, n, m, v, k]

/-- Device state `dev` with slot 3 holding the image and marked CURRENT. -/
def withSlot (s : State) (img : Image) (jobs : List VinJob) : State :=
  { s with vin := { s.vin with slots := s.vin.slots.set 3 (some img), cur := some 3, jobs := jobs } }

def bootLoad : State := recovered
def emptied : State := resetting { stage := .emptied }

theorem bootLoad_passes : (bootLoad.fillBank 3 image0).vinCheck image0 true = none := image_passes _ rfl (by decide) (by decide) (by decide) (by decide)
theorem emptied_passes : (emptied.fillBank 3 image0).vinCheck image0 true = none := image_passes _ rfl (by decide) (by decide) (by decide) (by decide)
theorem rings_passes : (rings.fillBank 3 image0).vinCheck image0 true = none := image_passes _ rfl (by decide) (by decide) (by decide) (by decide)

theorem fillBank_open (s : State) (chain sig : List Byte) (jobs : List VinJob) :
    (withSlot s (image chain sig) jobs).fillBank 3 (image chain sig)
      = { s.fillBank 3 image0 with vin := { (withSlot s (image chain sig) jobs).vin with preload := some (image chain sig) } } := rfl

theorem check_filled (s : State) (chain sig : List Byte) (jobs : List VinJob) (p : (s.fillBank 3 image0).vinCheck image0 true = none) :
    ((withSlot s (image chain sig) jobs).fillBank 3 (image chain sig)).vinCheck (image chain sig) true = none := by
  rw [fillBank_open, vinCheck_open]; exact p

/-- Where the image verifies (the verification is opaque), a slot that holds it passes. -/
theorem slot_passes (s : State) (chain sig : List Byte) (jobs : List VinJob) (p : (s.fillBank 3 image0).vinCheck image0 true = none)
    (h : (withSlot s (image chain sig) jobs).imageSigned (image chain sig) = true) :
    ((withSlot s (image chain sig) jobs).checkSlot 3 true true).2 = 0 := by
  have e : (withSlot s (image chain sig) jobs).vin.slots[(3 : Fin 8)] = some (image chain sig) := by simp [withSlot]
  have q := check_filled s chain sig jobs p
  unfold State.checkSlot
  rw [e]
  simp [h, State.runCheck, q]

theorem witness_BootLoadAndReloadApplyTheCurrentVintage (chain sig : List Byte) :
    (bootLoad.devIs 2 = true ∧ bootLoad.flag F.DEV_STATE_PAIRED = true ∧ bootLoad.vin.apply = none ∧ bootLoad.ev.held = false
      ∧ bootLoad.psq.test = false ∧ bootLoad.seq.startDue = false ∧ bootLoad.vin.cur = none)
    ∧ (emptied.devIs 5 = true ∧ emptied.rst.stage = .emptied ∧ emptied.vin.apply = none ∧ emptied.seq.startDue = false)
    ∧ (withSlot bootLoad (image chain sig) []).vin.cur = some 3
    ∧ (withSlot bootLoad (image chain sig) []).vin.slots[(3 : Fin 8)] = some (image chain sig)
    ∧ ((withSlot bootLoad (image chain sig) []).imageSigned (image chain sig) = true →
      ((withSlot bootLoad (image chain sig) []).checkSlot 3 true true).2 = 0)
    ∧ ((withSlot emptied (image chain sig) []).imageSigned (image chain sig) = true →
      ((withSlot emptied (image chain sig) []).checkSlot 3 true true).2 = 0)
    ∧ ((withSlot bootLoad (image chain sig) []).checkSlot 3 false true).2 ≠ 0
    ∧ (withSlot rings (image chain sig) [.reload]).vin.jobs = .reload :: []
    ∧ ((withSlot rings (image chain sig) []).imageSigned (image chain sig) = true →
      (((withSlot rings (image chain sig) [.reload]).setVin { (withSlot rings (image chain sig) [.reload]).vin with jobs := [] }).checkSlot
        3 true true).2 = 0) := by
  refine ⟨by decide, by decide, rfl, by simp [withSlot], slot_passes _ _ _ _ bootLoad_passes, slot_passes _ _ _ _ emptied_passes, ?_, rfl,
    slot_passes _ _ _ [] rings_passes⟩
  simp [State.checkSlot, withSlot]

/-- Slot 2, with an image length of 1. -/
def loadEntry : SqEntry := { blank 0x10#8 with dw := ((Vector.replicate 14 (0#32 : Word)).set 0 2#32).set 3 1#32 }
def slotEntry : SqEntry := { blank 0x11#8 with dw := (Vector.replicate 14 (0#32 : Word)).set 0 2#32 }
def withVin (v : Vint) : State := { rings with vin := v }
def checked : State := ({ rings with vin := { rings.vin with preload := some plain, inForce := some plain } }).putF F.VIN_STATUS_CHECKED 1

theorem witness_VintageCommandsComplete :
    (rings.canConsume 1 1 = true ∧ rings.devIs 4 = true)
    ∧ (loadEntry.opcode = 0x10#8 ∧ zeroFrom loadEntry 4 = true ∧ loadEntry.dw[0].toNat = (2 : Fin 8).val ∧ 1 ≤ loadEntry.dw[3].toNat
      ∧ loadEntry.dw[3].toNat ≤ 0x100000 ∧ rings.vin.cur ≠ some 2 ∧ rings.vin.prev ≠ some 2)
    ∧ ((withVin { cur := some 2 }).canConsume 1 1 = true ∧ (withVin { cur := some 2 }).devIs 4 = true ∧ (withVin { cur := some 2 }).vin.cur = some 2)
    ∧ (slotEntry.opcode = 0x11#8 ∧ zeroFrom slotEntry 1 = true ∧ slotEntry.dw[0].toNat = (2 : Fin 8).val ∧ rings.vinBusy = false)
    ∧ (checked.canConsume 1 1 = true ∧ checked.devIs 4 = true ∧ (blank 0x12#8).opcode = 0x12#8 ∧ zeroFrom (blank 0x12#8) 2 = true
      ∧ checked.applyRefusal ((blank 0x12#8).dw[0].toNat + 0x100000000 * (blank 0x12#8).dw[1].toNat) = none
      ∧ checked.flag F.VIN_STATUS_CHECKED = true)
    ∧ ((withVin { prev := some 2 }).canConsume 1 1 = true ∧ (withVin { prev := some 2 }).devIs 4 = true ∧ (blank 0x13#8).opcode = 0x13#8
      ∧ zeroFrom (blank 0x13#8) 0 = true ∧ (withVin { prev := some 2 }).vinBusy = false
      ∧ (withVin { prev := some 2 }).vin.prev = some 2 ∧ (withVin { prev := some 2 }).vin.slots[(2 : Fin 8)] = none)
    ∧ (rings.vinBusy = false ∧ rings.vin.prev = none) := by decide

def loading : State := withVin { jobs := [.load 7#16 2] }

/-- With a preload copy that reads back wrong, rule 1 of class 9 fails. -/
theorem first_fails (s : State) (img : Image) : ∃ f, s.vinCheck img false = some f := by
  have k : (runClass 9 (s.vinImage img false)).isSome = true := rfl
  apply Option.isSome_iff_exists.mp
  simp [State.vinCheck, k]

theorem witness_VintageJobsEnd (chain sig : List Byte) :
    (loading.vin.jobs = .load 7#16 2 :: [] ∧ (loading.chan 3).issued = [] ∧ (loading.chan 3).queued = [] ∧ loading.halted 3 = false
      ∧ loading.belowFloor image0 = false)
    ∧ loading.imageSigned { image0 with magic := 0 } = false
    ∧ (withSlot rings (image chain sig) [.check 7#16 3]).vin.jobs = .check 7#16 3 :: []
    ∧ (withSlot rings (image chain sig) [.check 7#16 3]).vinBusy = false
    ∧ (withSlot rings (image chain sig) [.check 7#16 3]).vin.slots[(3 : Fin 8)] = some (image chain sig)
    ∧ ((withSlot rings (image chain sig) []).fillBank 3 (image chain sig)).vinCheck (image chain sig) true = none
    ∧ (∃ f, ((withSlot rings (image chain sig) []).fillBank 3 (image chain sig)).vinCheck (image chain sig) false = some f) := by
  refine ⟨by decide, rfl, rfl, by show rings.vinBusy = false; decide, by simp [withSlot], check_filled _ _ _ _ rings_passes, ?_⟩
  exact first_fails _ _

def setJob : ApplyJob := { cid := some 7#16, at_ := 5, whole := false, slot := 2 }
def wholeJob : ApplyJob := { cid := some 7#16, at_ := 5, whole := true, slot := 2 }
def toldJob : ApplyJob := { wholeJob with h := some 4 }
def lateJob : ApplyJob := { wholeJob with at_ := 0 }
/-- Tick 600,000. -/
def late : State := { withVin { apply := some lateJob } with tsc := 2400000000#64 }

theorem witness_AppliesSwitchOrTimeOut :
    (∃ r, R.SEQ_CTRL % 4 = 0 ∧ findReg R.SEQ_CTRL = some r ∧ BitVec.ofNat 32 r.st &&& ~~~bootFixed R.SEQ_CTRL ≠ 0#32 ∧ rings.vin.apply = none)
    ∧ ((withVin { apply := some setJob }).vin.apply = some setJob ∧ setJob.whole = false ∧ setJob.at_ ≤ (withVin { apply := some setJob }).tick
      ∧ setJob.dirty = false)
    ∧ ((withVin { apply := some wholeJob }).vin.apply = some wholeJob ∧ wholeJob.whole = true ∧ wholeJob.h = none
      ∧ wholeJob.at_ ≤ (withVin { apply := some wholeJob }).tick ∧ (withVin { apply := some wholeJob }).engineIdle = true)
    ∧ ((withVin { apply := some toldJob, preload := some plain }).vin.apply = some toldJob
      ∧ (withVin { apply := some toldJob, preload := some plain }).vin.preload = some plain ∧ toldJob.whole = true ∧ toldJob.h.isSome = true
      ∧ (withVin { apply := some toldJob, preload := some plain }).copyDone = true
      ∧ (withVin { apply := some toldJob, preload := some plain }).vin.jobs.contains .reload = false ∧ toldJob.dirty = false)
    ∧ (late.vin.apply = some lateJob ∧ lateJob.whole = true ∧ lateJob.h = none ∧ lateJob.cid = some 7#16
      ∧ lateJob.at_ + (late.getR R.VIN_APPLY_TIMEOUT).toNat ≤ late.tick) := ⟨⟨_, by decide, rfl, by decide⟩, by decide⟩

/-! ## Witnesses: threads and sequencer memory -/

def with3 (h : Thread) : State := run.setThr 3 h
def waiting3 : Thread := { st := .waiting, mask := 1#64, pend := 1#64, waitRd := 7, deadline := some 0#64 }
def timed3 : Thread := { waiting3 with mask := 0x4000000000000#64 }

theorem witness_ThreadsAreReloadedOverrunAndWoken :
    (at_ 0 run).cycle ≤ 200
    ∧ (((at_ 3800 run).thr 3).st = .eligible ∧ ((at_ 3800 run).thr 3).ovrThisTick = false ∧ ((at_ 3800 run).thr 3).readyAt ≤ (at_ 3800 run).tsc.toNat ∧ 3800 ≤ (at_ 3800 run).cycle
      ∧ ((at_ 3800 run).thr 3).consec < 2)
    ∧ 2 ≤ ((at_ 3800 (with3 { thr3 with consec := 2 })).thr 3).consec
    ∧ (((at_ 0 (with3 { thr3 with handover := some 5 })).thr 3).handover = some 5 ∧ 5 ≤ (at_ 0 run).tick ∧ (at_ 0 run).cycle < 200
      ∧ (at_ 0 (with3 { thr3 with handover := some 5 })).jr.frozenAc = false)
    ∧ ((unlocked.setThr 3 { st := .halted, fault := 1 }).thr 3).st = .halted ∧ ((unlocked.setThr 3 { st := .halted, fault := 1 }).thr 3).fault ≠ 0
      ∧ (unlocked.setThr 3 { st := .halted, fault := 1 }).dbgOpen = true
    ∧ { run with seq := { run.seq with startDue := true } }.seq.startDue = true ∧ run.devIs 4 = true ∧ run.flag F.SEQ_STATUS_SUSPENDED = false
    ∧ (((with3 waiting3).thr 3).st = .waiting ∧ (with3 waiting3).pendOf 3 &&& ((with3 waiting3).thr 3).mask ≠ 0#64)
    ∧ (((with3 timed3).thr 3).st = .waiting ∧ (with3 timed3).pendOf 3 &&& ((with3 timed3).thr 3).mask ≠ 0#64
      ∧ ((with3 timed3).thr 3).mask.getLsbD 50 = true ∧ ((with3 timed3).thr 3).deadline = some 0#64 ∧ (0#64 : BitVec 64).toNat ≤ (with3 timed3).tsc.toNat) := by decide

/-- The host window covers the first 0x400 bytes of data memory (R59); the cycle is reserved. -/
def hostWin : State := at_ 0 (run.putR R.SEQ_HOST_WIN 0x00040000#32)
def queued : State :=
  { at_ 0 run with seq := { (at_ 0 run).seq with waiting := [{ prog := false, write := [(0, 1#8)], read := [] }] } }

theorem witness_SequencerAccessesAct :
    ((at_ 0 unlocked).dbgOpen = true ∧ (at_ 0 unlocked).reserved = true ∧ (at_ 0 unlocked).seq.waiting = [] ∧ [1#8] ≠ ([] : List Byte)
      ∧ (at_ 0 unlocked).seq.served + dwordCount ((bytesAt (0x3FFFF % 0x40000) [1#8]).map Prod.fst) ≤ 400)
    ∧ run.dbgOpen = false
    ∧ ((∀ x ∈ bytesAt (0x3FF % 0x20000) [1#8], inWin (hostWin.getR R.SEQ_HOST_WIN) x.1 = true) ∧ hostWin.reserved = true
      ∧ hostWin.seq.waiting = [] ∧ hostWin.seq.served + dwordCount ((bytesAt (0x3FF % 0x20000) [1#8]).map Prod.fst) ≤ 400)
    ∧ ((0x400, 1#8) ∈ bytesAt (0x3FF % 0x20000) [1#8, 1#8] ∧ inWin (hostWin.getR R.SEQ_HOST_WIN) 0x400 = false)
    ∧ (queued.reserved = true ∧ queued.seq.waiting = [{ prog := false, write := [(0, 1#8)], read := [] }]
      ∧ queued.seq.served + dwordCount (HostAcc.addrs { prog := false, write := [(0, 1#8)], read := [] }) ≤ 400)
    ∧ ((3#32 : Word).getLsbD 0 = true ∧ (3#32 : Word).getLsbD 1 = true ∧ run.startR (R.SEQ_MBI_STATUS 7) = run.getR (R.SEQ_MBI_STATUS 7)
      ∧ run.startR (R.SEQ_MBO_STATUS 7) = run.getR (R.SEQ_MBO_STATUS 7))
    ∧ (1 ≤ bits 16#32 0 5 ∧ bits 16#32 0 5 ≤ 16 ∧ run.flag (F.SEQ_MBO_STATUS_FULL 7) = false
      ∧ (run.putF (F.SEQ_MBO_STATUS_FULL 7) 1).flag (F.SEQ_MBO_STATUS_FULL 7) = true)
    ∧ (unlocked.dbgOpen = true ∧ (unlocked.thr 3).st = .eligible
      ∧ ((unlocked.setThr 3 { thr3 with st := .debugHalted, back := .eligible }).thr 3).st = .debugHalted
      ∧ ((unlocked.setThr 3 { thr3 with st := .debugHalted, back := .eligible }).thr 3).susp = false) := by decide


/-! ## Witnesses: the host interface, the ledger and the Racking engine -/

/-- Rings 2 and 3 with one entry each that the host has not released; vector 5 is pending; coalescing after 2 ticks. -/
def anEvent : Event := { cls := .warn, block := 1, code := 1 }
def posted : State :=
  let s := (((rings.putF (F.HIF_RING_PTR_PTR 2) 1).putF (F.HIF_RING_PTR_PTR 3) 1).putF F.HIF_COAL_TICKS 2)
  { s with host := { s.host with
    cq := [{ sq := 0, cid := 7#16, status := .ok }], evr := [(anEvent, true)], msixPend := 32#64, evrUnsig := 1, evrOldest := 3, cqUnsig := 1, cqOldest := 3 } }

theorem witness_DoorbellsVectorsAndRings :
    posted.doorbell 0 2#32 = some 2
    ∧ (posted.doorbell 2 1#32 = some 1 ∧ posted.released 2 posted.host.cq.length 1 = some 1)
    ∧ (posted.doorbell 3 1#32 = some 1 ∧ posted.released 3 posted.host.evr.length 1 = some 1)
    ∧ run.doorbell 0 2#32 = none
    ∧ posted.host.msixPend.getLsbD (5 : Fin 64) = true
    ∧ (posted.getF F.HIF_COAL_TICKS ≠ 0 ∧ posted.host.evrUnsig ≠ 0 ∧ posted.host.evrOldest + posted.getF F.HIF_COAL_TICKS ≤ posted.tick
      ∧ posted.host.cqUnsig ≠ 0 ∧ posted.host.cqOldest + posted.getF F.HIF_COAL_TICKS ≤ posted.tick)
    ∧ (run.ringOn 3 = false ∧ bits 0x1000#32 0 12 = 0 ∧ 4 ≤ bits 12#32 0 4 ∧ bits 12#32 0 4 ≤ 12)
    ∧ posted.ringOn 3 = true := by decide

def pageEntry (op : BitVec 8) : SqEntry := { blank op with dw := (Vector.replicate 14 (0#32 : Word)).set 0 9#32 }
def boxEntry : SqEntry := { blank 0x21#8 with dw := (Vector.replicate 14 (0#32 : Word)).set 0 0x1007#32 }
def meterEntry : SqEntry := { blank 0x20#8 with dw := (Vector.replicate 14 (0#32 : Word)).set 2 4096#32 }
def holding : State := { rings with cel := { rings.cel with pages := [page9] } }
def discard9 : Discard := { tag := 9#32, seq := 0, cid := 7#16, tick := 4 }
def discarding : State :=
  { rings with cel := { rings.cel with pages := [{ page9 with st := .stored }] }, host := { rings.host with discards := [discard9] } }
/-- The payload read of a MAILBOX command is issued on channel 5. -/
def mail7 : Mail := { cid := 7#16, box := 7, count := 16, payload := Vector.replicate 16 5#32 }
def mailTxn : Txn := { gen := 0, addr := 64, bytes := 64, job := 1 }
def mailing : State :=
  { rings with host := { rings.host with mails := [mail7] }, rck := { rings.rck with ch := rings.rck.ch.set 5 { issued := [mailTxn] } } }

theorem witness_HostCommandsAreConsumed :
    (rings.devIs 4 = true ∧ (pageEntry 1#8).opcode = 0x01#8 ∧ rings.canConsume 0 2 = true ∧ zeroFrom (pageEntry 1#8) 4 = true
      ∧ (pageEntry 1#8).dw[0] ≠ 0#32 ∧ rings.flag F.CEL_STATUS_AUDIT_FAIL = false ∧ rings.getF F.PRS_STATUS_IN_SERVICE ≠ 0
      ∧ rings.getF F.HIF_PAGE_CREDITS ≠ 0 ∧ rings.page (pageEntry 1#8).dw[0] = none)
    ∧ ((rings.putF F.HIF_PAGE_CREDITS 0).canConsume 0 2 = true ∧ (rings.putF F.HIF_PAGE_CREDITS 0).getF F.HIF_PAGE_CREDITS = 0
      ∧ (rings.putF F.HIF_PAGE_CREDITS 0).devIs 4 = true ∧ (rings.putF F.HIF_PAGE_CREDITS 0).flag F.CEL_STATUS_AUDIT_FAIL = false
      ∧ (rings.putF F.HIF_PAGE_CREDITS 0).getF F.PRS_STATUS_IN_SERVICE ≠ 0)
    ∧ (holding.devIs 4 = true ∧ holding.canConsume 0 1 = true ∧ (pageEntry 2#8).opcode = 0x02#8 ∧ zeroFrom (pageEntry 2#8) 1 = true
      ∧ holding.page (pageEntry 2#8).dw[0] = some page9 ∧ rings.page (pageEntry 2#8).dw[0] = none ∧ rings.canConsume 0 1 = true)
    ∧ (discarding.devIs 4 = true ∧ discarding.host.discards = [discard9] ∧ discard9.tick < discarding.tick
      ∧ discarding.cel.pages.find? (fun x => x.tag == discard9.tag && x.seq == discard9.seq) = some { page9 with st := .stored })
    ∧ (rings.canConsume 1 1 = true ∧ boxEntry.opcode = 0x21#8 ∧ zeroFrom boxEntry 3 = true ∧ boxEntry.dw[0] &&& ~~~0x1F07#32 = 0#32
      ∧ 1 ≤ bits boxEntry.dw[0] 8 5 ∧ bits boxEntry.dw[0] 8 5 ≤ 16)
    ∧ (mailing.devIs 4 = true ∧ mailing.host.mails = mail7 :: [] ∧ mail7.box < 8 ∧ 1 ≤ mail7.count ∧ mail7.count ≤ 16
      ∧ (mailing.chan 5).stale = [] ∧ (mailing.chan 5).issued = mailTxn :: [] ∧ mailTxn.gen = mailing.getF (F.RCK_CH_STATUS_GEN 5)
      ∧ mailTxn.job ≠ 0 ∧ mailTxn.write = false ∧ mailing.flag (F.SEQ_MBI_STATUS_FULL mail7.box) = false)
    ∧ ((blank 0x31#8).opcode = 0x31#8 ∧ zeroFrom (blank 0x31#8) 0 = true ∧ (∀ sh ∈ rings.led.sheets, sh.place.inPath = false)
      ∧ rings.host.rinse = none)
    ∧ (meterEntry.opcode = 0x20#8 ∧ meterEntry.rsvd0 = 0 ∧ meterEntry.rsvd1 = 0 ∧ meterEntry.dw[3] = 0 ∧ meterEntry.dw[4] = 0
      ∧ meterEntry.dw[5] = 0 ∧ rings.flag F.SEC_STATUS_RNG_FAIL = false ∧ 3280 ≤ meterEntry.dw[2].toNat)
    ∧ opcodes.contains (blank 0x99#8).opcode = false := by decide

def rinsing (j : RinseJob) : State := { rings with host := { rings.host with rinse := some j } }
def rinse0 : RinseJob := { cid := 7#16, ids := [1#32], since := 0 }
/-- Tick 600,000. -/
def rinseLate : State := { rinsing rinse0 with tsc := 2400000000#64 }
def meter0 : MeterJob := { cid := 7#16, addr := 0, nonce := [], tick := 4, waits := 0 }
def metering (b : Option (List Byte)) : State := { rings with host := { rings.host with meters := [{ meter0 with body := b }] } }
def alarmed : State := { rings with ev := { rings.ev with general := [anEvent] } }

theorem witness_LedgerCommandsAct :
    (led1.led.find 1#32 = some sheet1 ∧ sheet1.place.inEngine = true ∧ sheet1.spoiled = false ∧ led1.jr.frozenAc = false)
    ∧ run.led.find 1#32 = none
    ∧ ((rinsing rinse0).host.rinse = some rinse0 ∧ (rinsing rinse0).frozen = false ∧ (rinsing rinse0).jr.frozenAc = false ∧ rinse0.heldClear = false)
    ∧ (((rinsing rinse0).putF F.LDG_STATUS_FROZEN 1).host.rinse = some rinse0 ∧ ((rinsing rinse0).putF F.LDG_STATUS_FROZEN 1).frozen = true)
    ∧ (rinseLate.host.rinse = some rinse0 ∧ rinse0.since + (rinseLate.getR R.LDG_RINSE_TO).toNat ≤ rinseLate.tick)
    ∧ ((∀ x ∈ (rinsing rinse0).cel.pages, x.sheet = none)
      ∧ (metering (some [1#8])).host.meters = { meter0 with body := some [1#8] } :: [] ∧ ({ meter0 with body := some [1#8] } : MeterJob).body = some [1#8]
      ∧ (metering (some [1#8])).flag F.SEC_STATUS_RNG_FAIL = false)
    ∧ ((((metering none).putF F.SEC_STATUS_RNG_FAIL 1)).host.meters = meter0 :: [] ∧ meter0.body = none
      ∧ ((metering none).putF F.SEC_STATUS_RNG_FAIL 1).flag F.SEC_STATUS_RNG_FAIL = true)
    ∧ run.cycle < 3800
    ∧ (alarmed.evrRoom = true ∧ lowest (alarmed.ev.alarms ++ alarmed.ev.general ++ alarmed.ev.markers) = some anEvent
      ∧ alarmed.host.cqHeld = [] ∧ ∀ c : Fin 16, (alarmed.chan c).queued = []) := by decide

theorem witness_LedgerTransitionsKeepTheIdentity :
    led1.led.auditOk = true ∧ (sheet1.place.inEngine = true ∧ ∀ x ∈ ({} : Ledger).sheets, x.id ≠ sheet1.id)
      ∧ (sheet1 ∈ led1.led.sheets ∧ ∀ x ∈ led1.led.sheets, x.id = 1#32 → x = sheet1 ∧ x.place.inEngine = true) := by decide

/-- Channel `c` with the transaction `x` issued; halted at it where `h` is 2. -/
def issuedOn (c : Fin 16) (x : Txn) (h : Nat) : State :=
  let s := { rings with rck := { rings.rck with ch := rings.rck.ch.set c { issued := [x], first := [(1, 4)], failed := if h = 2 then some x else none } }, tsc := 80000000#64 }
  (s.putF F.RCK_TOKENS_FREE 63).putF (F.RCK_CH_STATUS_STATE c) h

def txn0 : Txn := { gen := 0, job := 1 }
def onThree : State := issuedOn 3 txn0 1
def aborting : State :=
  let s := issuedOn 5 txn0 2
  { s with host := { s.host with sending := [(7#16, 0, [])] },
           rck := { s.rck with ch := s.rck.ch.set 5 { issued := [txn0], failed := some { gen := 0, job := 1, write := true } } } }

theorem witness_RackingChannelsEndHaltAndResume :
    ((onThree.chan 3).stale = [] ∧ (onThree.chan 3).issued = txn0 :: [] ∧ txn0.gen = onThree.getF (F.RCK_CH_STATUS_GEN 3)
      ∧ (∀ d : Fin 16, (onThree.chan d).queued = []) ∧ onThree.getF F.RCK_TOKENS_FREE < 64)
    ∧ (((issuedOn 0 txn0 1).chan 0).issued = txn0 :: [] ∧ txn0.gen = (issuedOn 0 txn0 1).getF (F.RCK_CH_STATUS_GEN 0) ∧ txn0.job ≠ 0
      ∧ txn0.write = false ∧ txn0.tag = (0 : Fin 2).val)
    ∧ (inDram 3 = false ∧ onThree.halted 3 = false)
    ∧ ((issuedOn 4 { txn0 with addr := 2 ^ 40, bytes := 64 } 1).outOfRange 4 { txn0 with addr := 2 ^ 40, bytes := 64 } = true
      ∧ (issuedOn 4 { txn0 with addr := 2 ^ 40, bytes := 64 } 1).halted 4 = false
      ∧ txn0.gen = (issuedOn 4 { txn0 with addr := 2 ^ 40, bytes := 64 } 1).getF (F.RCK_CH_STATUS_GEN 4))
    ∧ (({ txn0 with gen := 1 } : Txn).gen ≠ (issuedOn 3 { txn0 with gen := 1 } 1).getF (F.RCK_CH_STATUS_GEN 3))
    ∧ readsHost 3 txn0 = true
    ∧ (isStation 3 = false ∧ (onThree.chan 3).issuedAt txn0.job = some 4 ∧ 4 + (onThree.getR R.RCK_XFER_TIMEOUT).toNat ≤ onThree.tick)
    ∧ ((issuedOn 14 txn0 2).halted 14 = true ∧ ((issuedOn 14 txn0 2).chan 14).failed = some txn0 ∧ txn0.job ≠ 0)
    ∧ (aborting.halted 5 = true ∧ (aborting.chan 5).failed = some { gen := 0, job := 1, write := true }
      ∧ aborting.host.sending = (7#16, 0, []) :: []) := by
  decide


/-! ## Witnesses: the Press and the Cellar -/

/-- One beam, 8 dots wide, depth 0. -/
def geo : Geom := { beams := 1, spacing := 1, offset := 0, depth := 0, width := 8, shingle := false }
def rawPlane : Plane := { station := 0, pre := false, depth := 0, gLines := 8, tmode := 0, width := 8, gen := 0, geom := geo }
def prePlane : Plane := { rawPlane with pre := true, len := 40, count := 2 }
def pageOf (q : List Plane) (n : Nat) : Page :=
  { tag := 9#32, st := .inPress, cid := 1, seq := 0, lines := n, planes := q, descLen := 96, stamps := [(0, geo)] }
/-- The pages are `l`; page 9 is the page in the Press; station 0 is enabled. -/
def pressed (l : List Page) : State :=
  let s := ((run.putF F.PRS_STATUS_BUSY 1).putR R.PRS_CUR_TAG 9#32).putF F.CEL_GRAN_FREE 2
  { s with cel := { s.cel with pages := l }, vin := { s.vin with applied := [(R.DEC_GEOM 0, 0x80000000#32)] } }

/-- A descriptor of one raw plane of station 0: 16 lines in one band at address 64. -/
def desc1 : List Word :=
  [0x15047#32, 1#32, 16#32, 0#32, 0#32, 0#32, 0#32, 0#32] ++
  [0#32, 8#32, 0#32, 0#32, 64#32, 0#32, 1#32, 8#32] ++ List.replicate 8 0#32
/-- The same of a pre-encoded plane of one block. -/
def descP : List Word :=
  [0x15047#32, 1#32, 16#32, 0#32, 0#32, 0#32, 0#32, 0#32] ++
  [0x10#32, 8#32, 0#32, 0#32, 64#32, 0#32, 2#32, 0#32, 0#32, 0#32, 80#32, 0#32] ++ List.replicate 4 0#32
def band1 : List (Vector Word 4) := [#v[128#32, 0#32, 16#32, 0#32]]

theorem witness_PagesAreReadAndChecked :
    ((({ run with cel := { run.cel with pages := [pageOf [] 0] } } : State).cel.pages.find? fun x => x.st == .inPress && !x.started)
        = some (pageOf [] 0) ∧ run.flag F.PRS_STATUS_BUSY = false)
    ∧ ((pressed [pageOf [] 0]).pressing = some (pageOf [] 0) ∧ (pressed [pageOf [] 0]).halted 2 = false
      ∧ (pressed [pageOf [] 0]).reading 2 0 0 (2 ^ 64) = false ∧ (pageOf [] 0).descr = [] ∧ dword [0#32] 0 ≠ 0x00015047#32)
    ∧ (desc1.length = 24 ∧ (pageOf [] 0).descLen = 96 ∧ (pageOf [] 0).desc % 64 = 0 ∧ headerOk desc1 1 = true
      ∧ (List.range 6).filter (fun i => (dword desc1 1).getLsbD i) = [(readPlane (desc1.drop 8) [(0, geo)]).station.val]
      ∧ planeOk (desc1.drop 8) (readPlane (desc1.drop 8) [(0, geo)])
          ((pressed [pageOf [] 0]).applF (F.DEC_GEOM_EN (readPlane (desc1.drop 8) [(0, geo)]).station) != 0) = true
      ∧ (readPlane (desc1.drop 8) [(0, geo)]).pre = false)
    ∧ (planeOk (descP.drop 8) (readPlane (descP.drop 8) [(0, geo)]) true = true ∧ descP.length = 24 ∧ headerOk descP 1 = true
      ∧ (List.range 6).filter (fun i => (dword descP 1).getLsbD i) = [(readPlane (descP.drop 8) [(0, geo)]).station.val]
      ∧ (readPlane (descP.drop 8) [(0, geo)]).pre = true
      ∧ bits (dword (descP.drop 8) 2) 0 16 = (readPlane (descP.drop 8) [(0, geo)]).gen)
    ∧ ((pressed [{ pageOf [] 0 with descr := desc1 }]).pressing = some { pageOf [] 0 with descr := desc1 }
      ∧ (pressed [{ pageOf [] 0 with descr := desc1 }]).reading 2 0 0 (2 ^ 64) = false
      ∧ band1.length = (readPlane (desc1.drop 8) [(0, geo)]).count ∧ bandsOk band1 (dword desc1 2).toNat = true)
    ∧ ((pressed [pageOf [prePlane] 16]).pressing = some (pageOf [prePlane] 16) ∧ (pageOf [prePlane] 16).planes[(0 : Fin 6).val]? = some prePlane
      ∧ prePlane.pre = true ∧ prePlane.index = [] ∧ (pressed [pageOf [prePlane] 16]).halted 1 = false
      ∧ (pressed [pageOf [prePlane] 16]).reading 1 0 prePlane.table (8 * prePlane.count) = false
      ∧ [0x80000000000#64, 0x80000000008#64].length = prePlane.count ∧ indexOk prePlane.len [0x80000000000#64, 0x80000000008#64] = true
      ∧ prePlane.count = ((List.range prePlane.geom.adv).map (prePlane.streamBlocks 16)).foldl (· + ·) 0
      ∧ indexOk prePlane.len [0#64, 0#64] = false ∧ [0#64, 0#64].length = prePlane.count) := by decide

def block0 : BlockPos := { plane := 0, stream := 0, round := 0 }
def withLane (x : Lane) (l : List Page) : State :=
  let s := pressed l
  { s with prs := { s.prs with lanes := s.prs.lanes.set 1 x } }
/-- The stored form of one white line of 8 dots. -/
def white : List Byte := Zrb.storedForm 0 [[0, 0, 0, 0, 0, 0, 0, 0]] 8 0
def rawLane : Lane := { job := some (9#32, block0), raw := [[0, 0, 0, 0, 0, 0, 0, 0]], out := white }
def preLane : Lane := { rawLane with raw := [], pre := true }
def doneLane : Lane := { rawLane with verified := true }
/-- Lane 1 is `x` and the page in the Press has the plane `q` and `n` lines. -/
def onLane (x : Lane) (q : Plane) (n : Nat) : State := withLane x [pageOf [q] n]
def prePlane1 : Plane := { prePlane with index := [(0, 40)] }
def waitingSpace : State :=
  let s := pressed [pageOf [rawPlane] 16]
  { s with cel := { s.cel with waitSince := some 0 }, tsc := 80000000#64 }

theorem witness_LanesEncodeVerifyAndStore :
    ((pressed [pageOf [rawPlane] 16]).freeLane = some 0 ∧ (pressed [pageOf [rawPlane] 16]).nextBlock = some (9#32, block0)
      ∧ (pressed [pageOf [rawPlane] 16]).flag F.PRS_STATUS_PAUSED = false ∧ rawPlane.tablesRead = true
      ∧ (pressed [pageOf [rawPlane] 16]).page 9#32 = some (pageOf [rawPlane] 16) ∧ (pageOf [rawPlane] 16).planes[block0.plane]? = some rawPlane)
    ∧ ((onLane rawLane rawPlane 16).page 9#32 = some (pageOf [rawPlane] 16) ∧ (onLane rawLane rawPlane 16).lane 1 = rawLane
      ∧ rawLane.job = some (9#32, block0) ∧ rawLane.verified = false ∧ (onLane rawLane rawPlane 16).flag F.PRS_STATUS_PAUSED = false
      ∧ (onLane rawLane rawPlane 16).laneReading 1 = false ∧ rawLane.pre = false ∧ Lane.selfOk rawLane = true
      ∧ Lane.selfOk { rawLane with out := [] } = false ∧ rawLane.storedForm = false ∧ (onLane rawLane rawPlane 16).getF (F.PRS_LANE_PGFAULT 1) < 2)
    ∧ ((onLane preLane prePlane1 1).lane 1 = preLane ∧ preLane.pre = true ∧ preOk (pageOf [prePlane1] 1) prePlane1 block0 white = true
      ∧ (onLane preLane prePlane1 1).laneReading 1 = false ∧ preOk (pageOf [prePlane1] 1) prePlane1 block0 [] = false)
    ∧ ((onLane doneLane rawPlane 16).lane 1 = doneLane ∧ doneLane.verified = true ∧ (onLane doneLane rawPlane 16).prs.storedN = 0
      ∧ (pageOf [rawPlane] 16).order[0]? = some block0 ∧ 0 + 1 < (pageOf [rawPlane] 16).order.length
      ∧ 9#32 = (onLane doneLane rawPlane 16).getR R.PRS_CUR_TAG ∧ rawPlane.needs doneLane ≤ (onLane doneLane rawPlane 16).granAvail)
    ∧ ((pageOf [rawPlane] 8).order.length = 0 + 1 ∧ rawPlane.gen = (onLane doneLane rawPlane 8).getF (F.PRS_GEOM_GEN rawPlane.station)
      ∧ rawPlane.needs doneLane ≤ (onLane doneLane rawPlane 8).granAvail)
    ∧ (((onLane doneLane rawPlane 16).putF F.CEL_GRAN_FREE 0).granAvail < rawPlane.needs doneLane
      ∧ ((onLane doneLane rawPlane 16).putF F.CEL_GRAN_FREE 0).victims = []
      ∧ ((onLane doneLane rawPlane 16).putF F.CEL_GRAN_FREE 0).cel.evicting = [])
    ∧ (waitingSpace.cel.waitSince = some 0 ∧ 0 + (waitingSpace.getR R.PRS_SPACE_WAIT).toNat ≤ waitingSpace.tick
      ∧ 9#32 = waitingSpace.getR R.PRS_CUR_TAG ∧ waitingSpace.spaceCame (pageOf [rawPlane] 16) = false) := by decide

def storedPage (q : Plane) : Page := { pageOf [q] 8 with st := .stored }
def cellar (l : List Page) : State := { run with cel := { run.cel with pages := l } }
def inDramP : Plane :=
  { rawPlane with chain := [.dram 3], chainEnd := 40, blocks := [{ stream := 0, round := 0, pos := 0, data := white }] }
def inCellar : Plane := { inDramP with chain := [.cellar 5] }

theorem witness_TheCellarAdmitsEvictsAndRefills :
    ((cellar [storedPage inCellar]).cel.pages = [storedPage inCellar] ∧ (storedPage inCellar).st = .stored
      ∧ (cellar [storedPage inCellar]).flag F.CEL_STATUS_AUDIT_FAIL = false
      ∧ (cellar [storedPage inCellar]).flag F.LDG_STATUS_RINSE_NEEDED = false
      ∧ ((cellar [storedPage inCellar]).admission (storedPage inCellar) false).code = 0)
    ∧ ((cellar [{ storedPage inCellar with damaged := true }]).admission { storedPage inCellar with damaged := true } false).code ≠ 0
    ∧ (let s := { cellar [storedPage inCellar] with cel := { (cellar [storedPage inCellar]).cel with evicting := [(9#32, 0, 0, 3)] } }
      s.evictionWritten = some (9#32, 0, 0, 3) ∧ s.locked 9#32 = false ∧ s.granAt 9#32 0 0 = some (.cellar 5))
    ∧ (let s := cellar [storedPage inDramP]
      s.getF F.CEL_REFILL_RESERVE < s.getF F.CEL_GRAN_FREE ∧ s.granAvail ≠ 0 ∧ s.cel.evicting = [] ∧ s.flag F.PRS_STATUS_SPACE_WAIT = false
        ∧ s.refillNext = some (9#32, 0, 0, 3) ∧ s.freeGran = some 0)
    ∧ (run.ownerOf 8191 = none ∧ run.getF (F.CEL_BANK_UERR_COUNT (8191 / 256)) < 2)
    ∧ (run.putF (F.CEL_BANK_UERR_COUNT 31) 2).getF (F.CEL_BANK_UERR_COUNT (8191 / 256)) = 2 := by decide

/-- The page whose needs are met is admitted. -/
theorem witness_TheCellarAdmitsEvictsAndRefills_ok :
    ∃ need b, (cellar [storedPage inCellar]).admission (storedPage inCellar) false = .ok need b := ⟨_, _, rfl⟩


/-! ## Witnesses: stations, clocks and exposure links -/

def picked (q : Plane) : Page := { pageOf [q] 16 with st := .picked }
/-- Station 0 is `t`, in state `st`, with page 9 of plane `q`. -/
def atStn (st : Nat) (q : Plane) (t : Station) : State :=
  let s := (cellar [picked q]).putF (F.DEC_STATUS_STATE 0) st
  { s with stn := s.stn.set 0 { t with page := some 9#32 } }

/-- The line clock runs at a line a cycle; its next edge is due. -/
def ticking : LineClk := { freq := 2 ^ 56 }

/-- The blocks of the sweep are open. -/
def opened : State := (atStn 3 inCellar {}).openBlocks 0 (picked inCellar) inCellar

theorem witness_StationsPrimeSweepAndEndTheirPage :
    ((cellar [picked rawPlane]).stnIdle 0 = true ∧ (cellar [picked rawPlane]).nextAt 0 = some (picked rawPlane, rawPlane))
    ∧ ((atStn 1 rawPlane {}).stnPage 0 = some (picked rawPlane, rawPlane) ∧ (atStn 1 rawPlane {}).getF (F.DEC_STATUS_STATE 0) = 1
      ∧ (atStn 1 rawPlane {}).undone 0 (picked rawPlane) rawPlane rawPlane.geom.beams = [])
    ∧ (opened.stnPage 0 = some (picked inCellar, inCellar) ∧ opened.getF (F.DEC_STATUS_STATE 0) = 3
      ∧ (0 : Fin 32).val < inCellar.geom.beams ∧ inCellar.geom.line 16 (opened.stnOf 0).sweep 0 = some 0
      ∧ opened.decodable 0 inCellar 0 0 = true ∧ opened.undone 0 (picked inCellar) inCellar 0 = []
      ∧ (∀ x ∈ (opened.stnOf 0).notices, x < 0) ∧ ((opened.stnOf 0).beams[(0 : Fin 32)]).credit = true ∧ (opened.stnOf 0).skipping = false)
    ∧ ((atStn 3 inCellar { line := ticking }).edgeDue 0 = some 0 ∧ (atStn 3 inCellar { line := ticking }).getF (F.DEC_STATUS_STATE 0) = 3
      ∧ (atStn 3 inCellar { line := ticking }).stnPage 0 = some (picked inCellar, inCellar)
      ∧ ((atStn 3 inCellar { line := ticking }).stnOf 0).sweep ≤ inCellar.geom.sLast 16
      ∧ (atStn 3 inCellar { line := ticking }).flag (F.EXP_STATUS_CLAMPED 0) = false)
    ∧ ((atStn 3 inDramP {}).stnPage 0 = some (picked inDramP, inDramP) ∧ inDramP.geom.shingle = false
      ∧ ((atStn 3 inDramP {}).stnOf 0).fetching[(0 : Fin 2)] = none
      ∧ inDramP.nextFetch 16 ((atStn 3 inDramP {}).stnOf 0).fetched[(0 : Fin 2)] = some 0
      ∧ 0 < (atStn 3 inDramP {}).oldestRound 0 (picked inDramP) inDramP 0 + inDramP.winSlots)
    ∧ ((atStn 1 inCellar { top := true, line := ticking }).stnPage 0 = some (picked inCellar, inCellar) ∧ ((atStn 1 inCellar { top := true, line := ticking }).stnOf 0).top = true
      ∧ (atStn 1 inCellar { top := true, line := ticking }).edgeDue 0 = some 0
      ∧ (atStn 1 inCellar { top := true, line := ticking }).getF (F.DEC_STATUS_STATE 0) = 1)
    ∧ (atStn 5 inCellar {}).getF (F.DEC_STATUS_STATE 0) = 5
    ∧ inCellar.geom.sLast 16 < ((atStn 3 inCellar { sweep := 16 }).stnOf 0).sweep := by decide

/-- Station 0 is `t` at tick 60,000. -/
def later (t : Station) : State :=
  let s := { run with tsc := 240000000#64 }
  { s with stn := s.stn.set 0 t }

/-- Three good windows and a steady target. -/
def relocking : State := (later { windows := 3, dot := { num := 100000000, den := 1, winFrom := 100000000000000 } }).putF (F.EXP_DCLK_STATUS_STATE 0) 1
def early : State := later { bds := [245760000000, 245759999900] }
def missing : State := later { bds := [0], bdMissed := 1, line := ticking }

theorem witness_LineAndDotClocksFollowTheirMeasurements :
    run.flag (F.FBK_STATUS_SIG_FAULT (run.scOf 0)) = false
    ∧ (run.putF (F.FBK_STATUS_SIG_FAULT 12) 1).flag (F.FBK_STATUS_SIG_FAULT ((run.putF (F.FBK_STATUS_SIG_FAULT 12) 1).scOf 0)) = true
    ∧ (run.stnOf 0).bds = []
    ∧ ((early.stnOf 0).bds.head? = some 245760000000 ∧ early.facetSum 0 = some (100, 1)
      ∧ 2 * (early.tsc.toNat * 1024 + (49#10).toNat - 245760000000) * 1 < 100)
    ∧ ((missing.stnOf 0).bds.head? = some 0 ∧ missing.tSweep 0 = some 1024
      ∧ (3 + 2 * (missing.stnOf 0).bdMissed) * 1024 ≤ 2 * (1024 * missing.tsc.toNat - 0))
    ∧ (relocking.getF (F.EXP_DCLK_STATUS_STATE 0) = 1 ∧ relocking.dclkSteady 0 = true ∧ 3 ≤ (relocking.stnOf 0).windows
      ∧ (relocking.stnOf 0).relockAt + 200000000 ≤ relocking.tsc.toNat)
    ∧ (run.putF (F.EXP_DCLK_STATUS_STATE 0) 2).getF (F.EXP_DCLK_STATUS_STATE 0) = 2
    ∧ ((run.stnOf 0).slewLeft = 0 ∧ (run.stnOf 0).slewDue = 0 ∧ ((later { slewLeft := 1 }).stnOf 0).slewLeft ≠ 0)
    ∧ (run.flag (F.EXP_STATUS_CLAMPED 0) = false ∧ run.startR (R.EXP_STATUS 0) = run.getR (R.EXP_STATUS 0)) := by decide

/-- Station 0 is `t` at tick 60,000 and its exposure link is in state `st` with the lanes `lanes`. -/
def link (st lanes : Nat) (t : Station) : State :=
  ((later t).putF (F.EXL_STATUS_STATE 0) st).putF (F.EXL_STATUS_LANES 0) lanes

theorem witness_ExposureLinksTrainAndAnswer :
    (((link 0 0 {}).putF (F.DEC_GEOM_EN 0) 1).flag (F.DEC_GEOM_EN 0) = true
      ∧ ((link 0 0 {}).putF (F.DEC_GEOM_EN 0) 1).getF (F.EXL_STATUS_STATE 0) = 0)
    ∧ (link 1 3 {}).getF (F.EXL_STATUS_STATE 0) = 1
    ∧ ((link 2 3 {}).getF (F.EXL_STATUS_STATE 0) = 2 ∧ (link 2 3 {}).getF (F.EXL_STATUS_LANES 0) = 3)
    ∧ (link 3 3 {}).getF (F.EXL_STATUS_STATE 0) = 3
    ∧ ((link 2 3 {}).training 0 = true
      ∧ ((link 2 3 {}).stnOf 0).attemptAt + 200 * (link 2 3 {}).getF (F.EXL_TRAIN_TO 0) ≤ (link 2 3 {}).tsc.toNat
      ∧ (link 2 3 {}).getF (F.EXL_STATUS_ATTEMPT 0) < 3)
    ∧ (((link 2 2 {}).putF (F.EXL_STATUS_ATTEMPT 0) 5).training 0 = true
      ∧ 5 ≤ ((link 2 2 {}).putF (F.EXL_STATUS_ATTEMPT 0) 5).getF (F.EXL_STATUS_ATTEMPT 0)
      ∧ (((link 2 2 {}).putF (F.EXL_STATUS_ATTEMPT 0) 5).stnOf 0).attemptAt + 200 * ((link 2 2 {}).putF (F.EXL_STATUS_ATTEMPT 0) 5).getF (F.EXL_TRAIN_TO 0)
        ≤ ((link 2 2 {}).putF (F.EXL_STATUS_ATTEMPT 0) 5).tsc.toNat)
    ∧ ((link 6 0 {}).getF (F.EXL_STATUS_STATE 0) = 6 ∧ ((link 6 0 {}).stnOf 0).failedAt + 1000 ≤ (link 6 0 {}).tick)
    ∧ (((link 5 3 { pkts := [{ kind := .read, tag := 7#8 }] }).stnOf 0).pkts.find? (fun x => x.tag == 7#8) = some { kind := .read, tag := 7#8 }
      ∧ ((link 5 3 { pkts := [{ kind := .read, tag := 7#8 }] }).stnOf 0).pkts = { kind := .read, tag := 7#8 } :: []
      ∧ 0 + 200 * (link 5 3 { pkts := [{ kind := .read, tag := 7#8 }] }).getF (F.EXL_RESP_TO 0)
        ≤ (link 5 3 { pkts := [{ kind := .read, tag := 7#8 }] }).tsc.toNat)
    ∧ ((link 4 3 { pkts := [{ kind := .config, tag := 7#8 }] }).stnOf 0).pkts.find? (fun x => x.tag == 7#8) = some { kind := .config, tag := 7#8 }
    ∧ ((link 5 3 {}).flag (F.EXL_HACC_BUSY 0) = false ∧ (0x20000#32 : Word).getLsbD 17 = true ∧ (link 5 3 {}).getF (F.EXL_STATUS_STATE 0) = 5
      ∧ (link 4 3 {}).flag (F.EXL_HACC_BUSY 0) = false ∧ (link 4 3 {}).getF (F.EXL_STATUS_STATE 0) ≠ 5)
    ∧ ((link 5 3 {}).putF (F.EXL_HACC_BUSY 0) 1).flag (F.EXL_HACC_BUSY 0) = true := by decide

def aRun : Run := { seq0 := 5, sFirst := 0, sLast := 15, sheet := none, geom := geo, lines := 16, width := 8 }

theorem witness_ExposureHeadsReport :
    ((link 4 3 { configOk := true, crcLast := some 7 }).getF (F.EXL_STATUS_STATE 0) = 4
      ∧ ((link 4 3 { configOk := true, crcLast := some 7 }).stnOf 0).configOk = true
      ∧ ((link 4 3 { configOk := true, crcLast := some 7 }).stnOf 0).crcLast = some (7#8).toNat
      ∧ (∀ x ∈ ((link 4 3 { configOk := true, crcLast := some 7 }).stnOf 0).crcs,
        x.1 + 1000 ≤ (link 4 3 { configOk := true, crcLast := some 7 }).tick) ∧ (1#7).getLsbD 0 = true)
    ∧ ((link 5 3 { crcLast := some 7 }).getF (F.EXL_STATUS_STATE 0) = 5 ∧ (link 5 3 { crcLast := some 7 }).getF (F.EXL_STATUS_LANES 0) = 3
      ∧ ((link 5 3 { crcLast := some 7 }).stnOf 0).crcLast = some (7#8).toNat
      ∧ (∀ x ∈ ((link 5 3 { crcLast := some 7 }).stnOf 0).crcs, x.1 + 1000 ≤ (link 5 3 { crcLast := some 7 }).tick))
    ∧ (link 5 3 { crcLast := some 8 }).getF (F.EXL_CRC_LIMIT 0) < ((7#8).toNat + 256 - 8) % 256
    ∧ ((link 5 3 {}).getF (F.EXL_STATUS_STATE 0) = 5 ∧ (link 5 3 {}).getF (F.EXL_STATUS_LANES 0) = 3 ∧ (1#7).getLsbD 3 = false
      ∧ ((link 5 3 {}).stnOf 0).statusAt + 1600 ≤ (link 5 3 {}).tsc.toNat)
    ∧ ((35#8).toNat < 36 ∧ (link 5 3 {}).getF (F.EXL_APC_STATE 0 (35#8).toNat) = 0)
    ∧ ((link 5 3 { runs := [aRun] }).stnOf 0).runOf (20#16).toNat = some (aRun, 15)
    ∧ ((link 5 3 { syncErrs := List.replicate 15 63 }).getF (F.EXL_STATUS_STATE 0) = 5
      ∧ 15 ≤ (((link 5 3 { syncErrs := List.replicate 15 63 }).stnOf 0).syncErrs.filter fun x => Nat.blt 126 (x + 64)).length)
    ∧ (returnFault 1#2 0#64 = none ∧ returnFault 2#2 0xA5#64 = some false ∧ returnFault 3#2 0#64 = some true)
    ∧ ((link 5 3 {}).stnIdle 0 = true ∧ (atStn 3 rawPlane {}).stnIdle 0 = false)
    ∧ ((link 5 3 { lenDiff := 3 }).getF (F.EXL_STATUS_STATE 0) = 5 ∧ 3 ≤ ((link 5 3 { lenDiff := 3 }).stnOf 0).lenDiff
      ∧ (link 5 3 { lenDiff := 3 }).flag (F.EXL_STATUS_LEN_MISMATCH 0) = false)
    ∧ (run.getF (F.EXL_STATUS_LEN_SEEN 0) = run.getF (F.EXL_STATUS_LEN_OUT 0) ∧ run.startR (R.EXL_STATUS 0) = run.getR (R.EXL_STATUS 0)
      ∧ (run.putF (F.EXL_STATUS_LEN_SEEN 0) 1).getF (F.EXL_STATUS_LEN_SEEN 0) ≠ (run.putF (F.EXL_STATUS_LEN_SEEN 0) 1).getF (F.EXL_STATUS_LEN_OUT 0)) := by
  decide


/-! ## Witnesses: feedback channels, axes, motors and the power stage -/

/-- Channel 11 counts in mode `m` and is `f`. -/
def fb (m : Nat) (f : Fbk) : State :=
  let s := run.putF (F.FBK_CFG_MODE 11) m
  { s with fbk := s.fbk.set 11 f }
/-- Channel 11 has an index: word `st` in its status, one revolution of 4096 counts, position `pos`. -/
def indexed (pos : Word) : State :=
  let s := (((fb 1 {}).putF (F.FBK_CFG_IDX_EN 11) 1).putR (R.FBK_REV 11) 4096#32).putF (F.FBK_IDX_WIN 11) 8
  ((s.putR (R.FBK_POS 11) pos).putF (F.FBK_STATUS_IDX_VALID 11) 1).putF (F.FBK_STATUS_POS_LOST 11) 0
/-- Probe 7 watches channel 11 on both edges and holds `n` latches. -/
def probe (n : Nat) : State :=
  let s := ((run.putF (F.SNS_PRB_CFG_EN 7) 1).putF (F.SNS_PRB_CFG_EDGE 7) 3).putF (F.SNS_PRB_CFG_SRC 7) 11
  { s with probes := s.probes.set 7 (List.replicate n { src := 11, tsc := 0, pos := none }) }

/-- The same with `n` mismatches in a row. -/
def missed (pos : Word) (n : Nat) : State := (indexed pos).putF (F.FBK_STATUS_IDX_CONSEC 11) n

theorem witness_FeedbackChannelsCount_edges :
    ((fb 1 { sector := some 5 }).getF (F.FBK_CFG_MODE 11) = 1 ∧ ((fb 1 { sector := some 5 }).fbkOf 11).sector = some 5
      ∧ hallSector (1#3).toNat = some 0 ∧ (0 + 6 - 5) % 6 = 1 ∧ hallSector (6#3).toNat = some 3 ∧ (3 + 6 - 5) % 6 = 4
      ∧ hallSector (2#3).toNat = some 2 ∧ (2 + 6 - 5) % 6 = 3)
    ∧ ((fb 1 {}).getF (F.FBK_CFG_MODE 11) = 1 ∧ ((fb 1 {}).fbkOf 11).sector = none)
    ∧ (hallSector (7#3).toNat = none ∧ hallSector (0#3).toNat = none ∧ (fb 1 {}).flag (F.FBK_STATUS_HALL_INVALID 11) = false
      ∧ ((fb 1 {}).putF (F.FBK_STATUS_HALL_INVALID 11) 1).flag (F.FBK_STATUS_HALL_INVALID 11) = true)
    ∧ (fb 2 {}).getF (F.FBK_CFG_MODE 11) ≠ 1
    ∧ ((fb 2 { ab := some 0 }).getF (F.FBK_CFG_MODE 11) = 2 ∧ ((fb 2 { ab := some 0 }).fbkOf 11).ab = some 0
      ∧ (quadPhase (boolNat true + 2 * boolNat false) + 4 - quadPhase 0) % 4 = 1
      ∧ (quadPhase (boolNat true + 2 * boolNat true) + 4 - quadPhase 0) % 4 = 2
      ∧ (quadPhase (boolNat false + 2 * boolNat true) + 4 - quadPhase 0) % 4 = 3)
    ∧ ((fb 1 {}).getF (F.FBK_CFG_MODE 11) ≠ 2 ∧ ((fb 2 {}).fbkOf 11).ab = none) := by decide

theorem witness_FeedbackChannelsCount_index :
    (12 ≤ (17 : Fin 18).val ∧ (run.putF (F.FBK_CFG_MODE 17) 5).getF (F.FBK_CFG_MODE 17) = 5 ∧ run.getF (F.FBK_CFG_MODE 17) ≠ 4
      ∧ run.getF (F.FBK_CFG_MODE 17) ≠ 5)
    ∧ ((11 : Fin 18).val < 12 ∧ run.flag (F.FBK_CFG_IDX_EN 11) = false)
    ∧ (((indexed 0#32).putF (F.FBK_STATUS_IDX_VALID 11) 0).flag (F.FBK_CFG_IDX_EN 11) = true
      ∧ ((indexed 0#32).putF (F.FBK_STATUS_IDX_VALID 11) 0).getF (F.FBK_CFG_MODE 11) = 1
      ∧ ((indexed 0#32).putF (F.FBK_STATUS_IDX_VALID 11) 0).flag (F.FBK_STATUS_IDX_DROPPED 11) = false
      ∧ ((indexed 0#32).putF (F.FBK_STATUS_IDX_VALID 11) 0).flag (F.FBK_STATUS_IDX_VALID 11) = false)
    ∧ ((indexed 8#32).flag (F.FBK_STATUS_IDX_VALID 11) = true ∧ (indexed 8#32).flag (F.FBK_STATUS_POS_LOST 11) = false
      ∧ (indexed 8#32).flag (F.FBK_STATUS_IDX_DROPPED 11) = false ∧ (indexed 8#32).flag (F.FBK_CFG_IDX_EN 11) = true
      ∧ (indexed 8#32).getF (F.FBK_CFG_MODE 11) = 1
      ∧ ((indexed 8#32).indexError 11).natAbs ≤ (indexed 8#32).getF (F.FBK_IDX_WIN 11))
    ∧ ((missed 9#32 2).flag (F.FBK_STATUS_IDX_VALID 11) = true ∧ (missed 9#32 2).flag (F.FBK_STATUS_POS_LOST 11) = false
      ∧ (missed 9#32 2).flag (F.FBK_STATUS_IDX_DROPPED 11) = false ∧ (missed 9#32 2).flag (F.FBK_CFG_IDX_EN 11) = true
      ∧ (missed 9#32 2).getF (F.FBK_CFG_MODE 11) = 1 ∧ (missed 9#32 2).getF (F.FBK_STATUS_IDX_CONSEC 11) = 2
      ∧ (missed 9#32 2).getF (F.FBK_IDX_WIN 11) < ((missed 9#32 2).indexError 11).natAbs)
    ∧ ((1#32 : Word).getLsbD 0 = true ∧ (2#32 : Word).getLsbD 0 = false) := by decide

theorem witness_FeedbackChannelsCount_pins :
    (((probe 3).flag (F.SNS_PRB_CFG_EN 7) && (probe 3).bitF (F.SNS_PRB_CFG_EDGE 7) 0) = true
      ∧ ((probe 3).flag (F.SNS_PRB_CFG_EN 7) && (probe 3).bitF (F.SNS_PRB_CFG_EDGE 7) 1) = true ∧ ((probe 3).probes[(7 : Fin 8)]).length < 4)
    ∧ (4 ≤ ((probe 4).probes[(7 : Fin 8)]).length ∧ (run.flag (F.SNS_PRB_CFG_EN 7) && run.bitF (F.SNS_PRB_CFG_EDGE 7) 0) = false)
    ∧ (((probe 4).putF (F.SNS_PRB_STATUS_COUNT 7) 4).getF (F.SNS_PRB_STATUS_COUNT 7) ≠ 0 ∧ run.getF (F.SNS_PRB_STATUS_COUNT 7) = 0)
    ∧ (run.getF (F.SNS_CFG_DIR 63) = 0 ∧ run.pin 63 ≠ true ∧ run.pin 63 = false
      ∧ (run.putF (F.SNS_CFG_DIR 63) 2).getF (F.SNS_CFG_DIR 63) ≠ 0) := by decide

/-- Axis 2 is `x`, enabled, in state `st`, at tick 60,000. -/
def axis2 (st : Nat) (x : Axis) : State :=
  let s := ((({ run with tsc := 240000000#64 } : State).putF (F.MOV_AX_CFG_EN 2) 1).putF (F.MOT_CFG_TYPE 2) 2).putF (F.MOV_AX_STATUS_STATE 2) st
  { s with axis := s.axis.set 2 x }
def stepper2 : State := axis2 1 { stall := 0x10000 }
/-- Jam window 31 opens after `o` ticks and closes after `c`, in state `st`. -/
def window (st o c : Nat) : State :=
  ((axis2 0 {}).putF (F.MOV_JW_TIME_OPEN 31) o |>.putF (F.MOV_JW_TIME_CLOSE 31) c).putF (F.MOV_JW_STATUS 31) st

theorem witness_AxesAndJamWindowsObeyTheirCommands :
    ((run.ax 2).cmd = none ∧ ((axis2 0 { cmd := some 1 }).ax 2).cmd ≠ none)
    ∧ ((0#4).toNat = 0 ∧ 8 < (9#4).toNat)
    ∧ (((axis2 1 {}).putF (F.MOV_AX_TMO 2) 1).axState 2 = 1 ∧ ((axis2 1 {}).putF (F.MOV_AX_TMO 2) 1).getF (F.MOV_AX_TMO 2) ≠ 0
      ∧ (((axis2 1 {}).putF (F.MOV_AX_TMO 2) 1).ax 2).began + ((axis2 1 {}).putF (F.MOV_AX_TMO 2) 1).getF (F.MOV_AX_TMO 2)
        ≤ ((axis2 1 {}).putF (F.MOV_AX_TMO 2) 1).tick)
    ∧ (stepper2.isStepper 2 = true ∧ stepper2.getF (F.MOV_STP_CFG_STALLT 2) ≤ (stepper2.ax 2).stall ∧ 1 ≤ (stepper2.ax 2).stall
      ∧ stepper2.axState 2 = 1)
    ∧ ((axis2 0 {}).axOn 2 = true ∧ (axis2 0 {}).axState 2 = 0 ∧ ((axis2 0 {}).ax 2).cmd = none
      ∧ ((axis2 0 {}).ax 2).queued = none ∧ ((axis2 0 {}).ax 2).restAt + (axis2 0 {}).getF (F.MOV_AX_CFG_STILL_T 2) ≤ (axis2 0 {}).tick)
    ∧ (limOk 3 0#32 = true ∧ limOk 0 0x3F800000#32 = true ∧ limOk 0 0#32 = false)
    ∧ ((1#32 : Word).getLsbD 1 = false ∧ (window 0 4 5).getF (F.MOV_JW_TIME_OPEN 31) < (window 0 4 5).getF (F.MOV_JW_TIME_CLOSE 31)
      ∧ (window 0 5 5).getF (F.MOV_JW_TIME_CLOSE 31) ≤ (window 0 5 5).getF (F.MOV_JW_TIME_OPEN 31))
    ∧ ((2#32 : Word).getLsbD 0 = false ∧ (2#32 : Word).getLsbD 1 = true ∧ (window 1 4 5).getF (F.MOV_JW_STATUS 31) = 1)
    ∧ ((window 1 4 5).jam[(31 : Fin 32)]).closes + 200 * (window 1 4 5).getF (F.SNS_CFG_FILT ((window 1 4 5).jam[(31 : Fin 32)]).sn)
        < (window 1 4 5).tsc.toNat
    ∧ ({ run with brg := { mangleTick := some 5 } } : State).brg.mangleTick = some run.tick
    ∧ ((axis2 0 {}).brg.mangleTick ≠ some (axis2 0 {}).tick)
    ∧ ((∀ b : Fin 20, run.axOn b = false) ∧ run.chn.stopDue = false ∧ run.brg.mangleTick ≠ some run.tick) := by decide

/-- Motor channel 11 is `m`, of type `ty`, in state `st`. -/
def motor (ty st : Nat) (m : Motor) : State :=
  let s := (run.putF (F.MOT_CFG_TYPE 11) ty).putF (F.MOT_STATUS_STATE 11) st
  { s with mot := s.mot.set 11 m }

/-- Channel 11 observes a turning rotor: three loop runs made, the residual last large at the first; the window is `n` runs. -/
def spinning (n : Nat) : State := ((motor 1 4 { phase := .observe 3 1 }).putF (F.MOT_CATCH_T 11) n).putR (R.MOT_VSENSE 11) 0#32

theorem witness_MotorChannelsEnableDisableAndStop :
    (run.loopsRun = true ∧ run.brg.loopTick ≠ some run.tick ∧ ∀ m : Fin 12, run.getF (F.MOT_CFG_TYPE m) = 0)
    ∧ ((motor 1 3 { rampLeft := 1 }).loopsRun = true ∧ (motor 1 3 { rampLeft := 1 }).brg.loopTick ≠ some (motor 1 3 { rampLeft := 1 }).tick
      ∧ (∀ m : Fin 12, m ≠ 11 → (motor 1 3 { rampLeft := 1 }).getF (F.MOT_CFG_TYPE m) = 0)
      ∧ (motor 1 3 { rampLeft := 1 }).getF (F.MOT_CFG_TYPE 11) ≠ 0 ∧ (motor 1 3 { rampLeft := 1 }).groupFault 11 = false
      ∧ (motor 1 3 { rampLeft := 1 }).motState 11 = 3 ∧ ((motor 1 3 { rampLeft := 1 }).motOf 11).rampLeft = 1)
    ∧ (up 6).loopsRun = false
    ∧ ((motor 1 0 {}).motState 11 = 0 ∧ (motor 1 0 {}).getF (F.MOT_CFG_TYPE 11) ≠ 0 ∧ ((motor 1 0 {}).motOf 11).startAt = none)
    ∧ ((motor 1 2 {}).motState 11 = 2 ∧ (motor 1 3 {}).motState 11 = 3 ∧ (motor 1 5 {}).motState 11 = 5)
    ∧ ((motor 1 3 {}).motOf 11).rampLeft = 0
    ∧ ((spinning 2).motState 11 = 4 ∧ ((spinning 2).motOf 11).phase = .observe 3 1 ∧ (spinning 2).getF (F.MOT_CATCH_T 11) ≤ 3
      ∧ (spinning 2).getF (F.MOT_CATCH_T 11) ≤ 2 * 1 ∧ (spinning 2).getR (R.MOT_VSENSE 11) &&& 0x3F3F3F#32 ≠ 0x3F3F3F#32)
    ∧ ((spinning 3).getF (F.MOT_CATCH_T 11) ≤ 3 ∧ 2 * 1 < (spinning 3).getF (F.MOT_CATCH_T 11)) := by decide

/-- Half-bridge 47 switches, with `n` desaturations. -/
def switching (n : Nat) : State :=
  let s := run.putF (F.GDR_HB_STATUS_DESAT_CNT 47) n
  let s := s.forEach 4 fun a i => a.putF (F.MOT_BRK_CFG_HB i) i
  { s with brg := { s.brg with half := s.brg.half.set 47 { duty := some 500 }, armedVgl := Vector.replicate 4 true, armedBst := Vector.replicate 48 true } }
/-- Group 11 waits for a retry that is due, with the retries `l` behind it. -/
def retrying (l : List Nat) : State :=
  let s := (run.putF (F.GDR_GRP_STATUS_RETRY_WAIT 11) 1).putF (F.GDR_GRP_STATUS_FAULT 11) 1
  let s := s.forEach 48 fun a i => a.putF (F.GDR_HB_STATUS_BST_OK i) 1
  let g : Group := { retryAt := some 5, retries := l }
  { s with
    brg := { s.brg with grp := s.brg.grp.set 11 g, armedVgl := Vector.replicate 4 true, armedBst := Vector.replicate 48 true } }
/-- Every rail is GOOD and every gate supply has risen. -/
def powered : State :=
  let s := (List.range 16).foldl (fun s r => s.putF (F.PSQ_RAIL_STATUS_STATE r) 3) run
  { s with brg := { s.brg with armedVgl := Vector.replicate 4 true } }
def monitored (w t : Nat) : State := ((run.putF (F.GDR_BUS_CFG_EN 3) 1).putF (F.GDR_BUS_WARN_LEVEL 3) w).putF (F.GDR_BUS_TRIP_LEVEL 3) t
def chopping (o : Option Nat) : State :=
  let s := ((powered.putF (F.MOT_BRK_CFG_EN 3) 1).putF (F.MOT_BRK_ON 3) 9).putF (F.MOT_BRK_OFF 3) 5
  { s with brg := { s.brg with chop := s.brg.chop.set 3 { onSince := o } } }

theorem witness_ThePowerStageFaultsAndReturns :
    ((switching 0).brg.armedVgl[(3 : Fin 4)] = true ∧ (switching 0).vglLow 3 = false)
    ∧ ((switching 0).brg.armedBst[(47 : Fin 48)] = true ∧ (retrying []).flag (F.GDR_HB_STATUS_BST_OK 47) = true)
    ∧ (0 < ((switching 0).vglMv 3).1 ∧ 0 < ((switching 0).bstMv 47).1 ∧ ((switching 0).vglMv 3).2 ≤ 60000 ∧ ((switching 0).bstMv 47).2 ≤ 60000)
    ∧ (1000 + 500 * (switching 1).getF (F.GDR_HB_CFG_DS_TH 47) < 60000 ∧ 250 + 50 * (switching 1).getF (F.GDR_HB_CFG_BLANK 47) ≤ 60000
      ∧ (switching 1).switchOn 47 true = true ∧ (switching 1).getF (F.GDR_HB_STATUS_DESAT_CNT 47) < 2
      ∧ ∀ i : Fin 4, (switching 1).getF (F.MOT_BRK_CFG_HB i) ≠ 47)
    ∧ ((switching 2).switchOn 47 true = true ∧ (switching 2).getF (F.GDR_HB_STATUS_DESAT_CNT 47) = 2
      ∧ (switching 2).flag (F.GDR_HB_STATUS_RETIRED 47) = false)
    ∧ ((1#32 : Word).getLsbD 0 = true ∧ (at_ 3399 run).dnLate = false ∧ (at_ 3400 run).dnLate = true)
    ∧ (((retrying []).grp 11).retryAt = some 5 ∧ 5 ≤ (retrying []).tick ∧ (retrying []).flag (F.GDR_GRP_STATUS_RETRY_WAIT 11) = true
      ∧ ((retrying []).retriesOf 11).length < 3 ∧ (retrying []).causePresent 11 = false)
    ∧ 3 ≤ ((retrying [1, 2, 3]).retriesOf 11).length
    ∧ ((monitored 8 9).flag (F.GDR_BUS_CFG_EN 3) = true ∧ (7#14).toNat < (monitored 8 9).getF (F.GDR_BUS_WARN_LEVEL 3)
      ∧ (7#14).toNat < (monitored 8 9).getF (F.GDR_BUS_TRIP_LEVEL 3) ∧ (monitored 8 9).getF (F.GDR_BUS_TRIP_LEVEL 3) ≤ (9#14).toNat
      ∧ (monitored 8 9).bitF F.GDR_STATUS_BUS_TRIP 3 = false)
    ∧ ((chopping none).flag (F.MOT_BRK_CFG_EN 3) = true ∧ (chopping none).bitF F.GDR_STATUS_CHOP_FAULT 3 = false
      ∧ ((chopping none).chopOf 3).onSince = none ∧ (chopping none).getF (F.MOT_BRK_ON 3) ≤ (9#14).toNat)
    ∧ (((chopping (some 20600)).chopOf 3).onSince = some 20600 ∧ (4#14).toNat < (chopping (some 20600)).getF (F.MOT_BRK_OFF 3)
      ∧ 20600 + 400 ≤ (chopping (some 20600)).tsc.toNat) := by decide

theorem witness_ThePowerStageFaultsAndReturns_chopper (o : Option Nat) : o = none ∨ o = some 20600 → (chopping o).chopBlocked 3 = false := by
  rintro (rfl | rfl)
  · have h : ∀ r : Fin 16, (chopping none).getF (F.PSQ_RAIL_STATUS_STATE r) = 3 := by decide
    unfold State.chopBlocked State.vanaGood
    rw [h Config.vanaRail]
    decide
  · have h : ∀ r : Fin 16, (chopping (some 20600)).getF (F.PSQ_RAIL_STATUS_STATE r) = 3 := by decide
    unfold State.chopBlocked State.vanaGood
    rw [h Config.vanaRail]
    decide


/-! ## Witnesses: control engine, heat and high voltage -/

def capturing (st : Nat) (c : Capture) : State :=
  let s := run.putF F.CLE_CAP_STATUS_STATE st
  { s with cle := { s.cle with cap := c } }
/-- Generator 1 was started in tick 3 for two ticks. -/
def injecting : State :=
  let s := run.putF (F.CLE_INJ_LEN_LEN 1) 2
  { s with cle := { s.cle with inj := s.cle.inj.set 1 { startAt := some 3 } } }

theorem witness_TheControlEngineAndItsCapture :
    ({ run with cle := { run.cle with listTick := some 5 } } : State).cle.listTick = some run.tick
    ∧ ((up 5).cle.listTick ≠ some (up 5).tick ∧ (up 5).cleSuspended = true)
    ∧ ((1#32 : Word).getLsbD 0 = true ∧ (1#32 : Word).getLsbD 1 = false ∧ (2#32 : Word).getLsbD 0 = false ∧ (2#32 : Word).getLsbD 1 = true
      ∧ (3#32 : Word).getLsbD 0 = true ∧ (3#32 : Word).getLsbD 1 = true)
    ∧ ((injecting.cle.inj[(1 : Fin 2)]).startAt = some 3 ∧ 3 + injecting.getF (F.CLE_INJ_LEN_LEN 1) ≤ injecting.tick)
    ∧ ((capturing 0 {}).cle.cap.xfer = none ∧ (capturing 3 { xfer := some (0, 4) }).cle.cap.xfer.isSome = true)
    ∧ ((capturing 1 {}).getF F.CLE_CAP_STATUS_STATE = 1 ∧ (capturing 1 {}).cleSuspended = false
      ∧ (capturing 1 {}).cle.capTick ≠ some (capturing 1 {}).tick)
    ∧ ((capturing 3 {}).getF F.CLE_CAP_STATUS_STATE = 3 ∧ (capturing 3 {}).cle.cap.xfer = none)
    ∧ ((capturing 3 { xfer := some (0, 4), armWait := true }).cle.cap.xfer.isSome = true
      ∧ ((capturing 3 { xfer := some (0, 4), armWait := true }).chan 14).queued = []
      ∧ (capturing 3 { xfer := some (0, 4), armWait := true }).halted 14 = false) := by decide

/-- Thermistor 11 is enabled and is `x`. -/
def therm (x : Therm) : State :=
  let s := run.putF (F.THM_CFG_EN 11) 1
  { s with heat := { s.heat with therm := s.heat.therm.set 11 x } }
/-- The mains are `m`, at tick 60,000. -/
def mains (m : Mains) : State := { run with heat := { run.heat with mains := m }, tsc := 240000000#64 }
/-- Heater 3 is in burst mode with the accumulator at 0.5 and the command `w`. -/
def burst (w : Word) : State :=
  let s := ((run.putF F.IRN_MAINS_LOCKED 1).putF F.IRN_MAINS_LOST 0).putF (F.IRN_HTR_CFG_MODE 3) 1
  let s := (s.putF (F.IRN_HTR_STATUS_TRIP 3) 0).putR (R.IRN_HTR_CMD 3) w
  { s with heat := { s.heat with heater := s.heat.heater.set 3 { acc := 0x3F000000#32 }, mains := { last := some 1 } } }

theorem witness_ThermistorsMainsAndHeatersAct :
    run.flag (F.THM_CFG_EN 11) = false
    ∧ ((therm { bad := 2 }).flag (F.THM_CFG_EN 11) = true ∧ (therm { bad := 2 }).flag (F.THM_STAT_BROKEN 11) = false ∧ 163 < (164#14).toNat
      ∧ (16219#14).toNat < 16220 ∧ (163#14).toNat ≤ 163 ∧ 2 ≤ ((therm { bad := 2 }).thermOf 11).bad)
    ∧ ((at_ 3399 run).dnLate = false ∧ (1#32 : Word).getLsbD 0 = true)
    ∧ run.heat.mains.last = none
    ∧ ((mains { last := some 236923000 }).heat.mains.last = some 236923000
      ∧ 15385 * 200 ≤ (mains { last := some 236923000 }).tsc.toNat - 236923000
      ∧ (mains { last := some 236923000 }).tsc.toNat - 236923000 ≤ 22222 * 200 ∧ (mains { last := some 236923000 }).heat.mains.periods = []
      ∧ 3 ≤ (mains { last := some 236923000, run := 3 }).heat.mains.run)
    ∧ ((mains { last := some 236923001 }).heat.mains.last = some 236923001
      ∧ (mains { last := some 236923001 }).tsc.toNat - 236923001 < 15385 * 200)
    ∧ ((mains { last := some 235000000 }).heat.mains.last.getD 0 + 5000000 ≤ (mains { last := some 235000000 }).tsc.toNat
      ∧ (mains { last := some 235000000 }).getF F.IRN_MAINS_LOST = 0)
    ∧ ((burst 0x3F000000#32).flag F.IRN_MAINS_LOCKED = true ∧ (burst 0x3F000000#32).flag F.IRN_MAINS_LOST = false
      ∧ (burst 0x3F000000#32).getF (F.IRN_HTR_CFG_MODE 3) = 1 ∧ (burst 0x3F000000#32).heaterLive 3 = true ∧ (burst 0x3F000000#32).crossingDue true = true
      ∧ F32.le F32.one (F32.add ((burst 0x3F000000#32).heaterOf 3).acc ((burst 0x3F000000#32).heaterCmd 3)) = true
      ∧ F32.le F32.one (F32.add ((burst 0x3E800000#32).heaterOf 3).acc ((burst 0x3E800000#32).heaterCmd 3)) = false)
    ∧ ((run.putF (F.IRN_HTR_CFG_MODE 3) 3).getF (F.IRN_HTR_CFG_MODE 3) = 3
      ∧ (run.putF (F.IRN_HTR_CFG_MODE 3) 3).flag (F.IRN_HTR_STATUS_DRIVER 3) = false) := by decide

/-- High-voltage channel 23 is `x`, in state `st`, with the scale 1 and the trip level 16,000. -/
def hv (ac st : Nat) (x : HvCh) : State :=
  let s := (((run.putF (F.HVS_CFG_AUX 23) 0).putF (F.HVS_CFG_AC 23) ac).putF (F.HVS_STATUS_STATE 23) st).putR (R.HVS_SCALE 23) 0x3F800000#32
  let s := s.putR (R.HVS_TRIP_MON 23) 0x467A0000#32
  { s with heat := { s.heat with hv := s.heat.hv.set 23 x } }

/-- The same with its interlock open. -/
def openHv : State := { (hv 1 1 {}).putF (F.HVS_CFG_ILK 23) 2 with brg := { (hv 1 1 {}).brg with ilk := 2#4 } }
/-- Channel 23 in RUN of a regulated mode, AC or not. -/
def hvGoes (ac : Nat) : State :=
  (hv ac 2 { hotMon := 1, hotAux := 1 }).putF (F.HVS_CFG_MODE 23) 2

theorem witness_HighVoltageChannelsAct_runs :
    ((hv 0 0 {}).flag (F.HVS_CFG_AC 23) = false ∧ (hv 0 0 {}).hvRuns 23 = false ∧ (hv 0 0 {}).getF (F.HVS_CFG_AUX 23) ≠ 63)
    ∧ ((hv 1 0 {}).flag (F.HVS_CFG_AC 23) = true ∧ (hv 1 0 {}).hvRuns 23 = false)
    ∧ (openHv.hvRuns 23 = true ∧ openHv.flag (F.HVS_CFG_AC 23) = true ∧ openHv.ilkOpen (openHv.getF (F.HVS_CFG_ILK 23)) = true)
    ∧ ((hv 0 2 { hotMon := 2 }).hvRuns 23 = true ∧ (hv 0 2 { hotMon := 2 }).flag (F.HVS_CFG_AC 23) = false ∧ 2 ≤ ((hv 0 2 { hotMon := 2 }).hvOf 23).hotMon
      ∧ (hv 0 2 { hotMon := 2 }).ilkOpen ((hv 0 2 { hotMon := 2 }).getF (F.HVS_CFG_ILK 23)) = false
      ∧ F32.lt ((hv 0 2 { hotMon := 2 }).getR (R.HVS_TRIP_MON 23))
          (F32.abs (F32.mul (F32.ofNat (16383#14).toNat) ((hv 0 2 { hotMon := 2 }).getR (R.HVS_SCALE 23)))) = true)
    ∧ (((hvGoes 0).hvRuns 23 = true ∧ (hvGoes 0).ilkOpen ((hvGoes 0).getF (F.HVS_CFG_ILK 23)) = false ∧ ((hvGoes 0).hvOf 23).hotMon < 2
        ∧ ((hvGoes 0).hvOf 23).hotAux < 2 ∧ (hvGoes 0).flag (F.HVS_CFG_AC 23) = false ∧ 2 ≤ (hvGoes 0).getF (F.HVS_CFG_MODE 23)
        ∧ (hvGoes 0).outputsHeld = false)
      ∧ ((hvGoes 1).hvRuns 23 = true ∧ (hvGoes 1).flag (F.HVS_CFG_AC 23) = true)) := by decide

theorem witness_HighVoltageChannelsAct_commands :
    ((1#32 : Word).getLsbD 0 = true ∧ (2#32 : Word).getLsbD 1 = true ∧ (4#32 : Word).getLsbD 2 = true ∧ (0#32 : Word).getLsbD 0 = false
      ∧ (at_ 3399 run).dnLate = false ∧ (at_ 3400 run).dnLate = true)
    ∧ ((1#32 : Word).getLsbD 1 = false ∧ (1#32 : Word).getLsbD 2 = false ∧ (3#32 : Word).getLsbD 0 = true ∧ (3#32 : Word).getLsbD 1 = true
      ∧ (hv 0 0 {}).hvState 23 = 0 ∧ (hv 0 1 {}).hvState 23 = 1 ∧ (hv 0 4 {}).hvState 23 = 4)
    ∧ ((hv 0 4 {}).hvCause 23 = 0 ∧ (openHv.putF (F.HVS_STATUS_STATE 23) 4).hvState 23 = 4
      ∧ (openHv.putF (F.HVS_STATUS_STATE 23) 4).hvCause 23 ≠ 0 ∧ (7#32 : Word).getLsbD 0 = (7#32 : Word).getLsbD 1 ∧ (7#32 : Word).getLsbD 2 = true)
    ∧ ((hv 0 3 {}).hvState 23 = 3 ∧ F32.isZero ((hv 0 3 {}).hvOf 23).setp = true ∧ (hv 0 2 {}).hvState 23 ≠ 3
      ∧ F32.isZero ((hv 0 3 { setp := F32.one }).hvOf 23).setp = false) := by decide

/-! ## Witnesses: security, power and the chain -/

def fused (f : Fuses) : State := { run with fuse := f }
def rooted : Fuses := { roots := (Vector.replicate 4 none).set 3 (some 5) }

theorem witness_FusesAndDebugPortObeyTheirKeys :
    ((0x5EC1#16 ≠ 0x5EC0#16) ∧ (fused { secured := true }).fuse.secured = true
      ∧ (fused { genFails := 3 }).fuse.dead = true)
    ∧ (run.fuse.secured = false ∧ run.fuse.idKey = none ∧ run.fuse.dead = false
      ∧ run.flag F.SEC_STATUS_RNG_FAIL = false
      ∧ run.fuse.roots[(3 : Fin 4)] = none)
    ∧ ((fused rooted).fuse.secured = false ∧ (fused rooted).fuse.validMask ≠ 0 ∧ (fused rooted).fuse.dead = false)
    ∧ (bits 0x5EC00004#32 16 16 = 0x5EC0 ∧ (fused rooted).fuse.roots[(3 : Fin 4)].isSome = true
      ∧ ((fused rooted).fuse.revoked ||| (0x5EC00004#32 : Word).extractLsb' 0 4).getLsbD (3 : Fin 4) = false)
    ∧ bits 0x5EC10001#32 16 16 ≠ 0x5EC0
    ∧ (run.rngFail = false ∧ (run.putF F.SEC_STATUS_RNG_FAIL 1).rngFail = true)
    ∧ (run.sec.chal = false ∧ run.flag F.SEC_STATUS_LOCKOUT = false ∧ run.fuse.permLock = false ∧ run.getF F.SEC_STATUS_UNLOCK_FAILS < 3)
    ∧ ((run.thr 3).back ≠ .debugHalted ∧ ({ run with seq := { run.seq with patched := true } } : State).seq.patched = true) := by decide

/-- Consumable port 3 is `c` at tick 60,000; its period is one second. -/
def port3 (c : ConPort) : State :=
  let s := (run.putF (F.SEC_CON_CFG_EN 3) 1).putF (F.SEC_CON_CFG_PERIOD 3) 1
  { s with tsc := 240000000#64, sec := { s.sec with con := s.sec.con.set 3 c } }

theorem witness_ConsumablesAreAuthenticated :
    ((port3 {}).flag (F.SEC_CON_CFG_EN 3) = true ∧ ((port3 {}).conOf 3).stage = .idle 
      ∧ (port3 {}).getF (F.SEC_CON_CFG_PERIOD 3) ≠ 0
      ∧ ((port3 {}).conOf 3).periodAt + (port3 {}).getF (F.SEC_CON_CFG_PERIOD 3) * 200000000 ≤ (port3 {}).tsc.toNat)
    ∧ (((port3 { stage := .header }).conOf 3).stage = .header ∧ ((port3 { stage := .header }).conOf 3).stage ≠ .idle)
    ∧ (1 ≤ byteAt (List.replicate 64 0#8 ++ [3#8]) 64 ∧ byteAt (List.replicate 64 0#8 ++ [3#8]) 64 ≤ 3)
    ∧ ((port3 { stage := .challenge }).conOf 3).stage = .challenge
    ∧ ((port3 { stage := .response }).conOf 3).stage = .response
    ∧ (((port3 { stage := .wait }).conOf 3).stage = .wait ∧ ((port3 { stage := .wait }).conOf 3).pollAt + 200000 ≤ (port3 { stage := .wait }).tsc.toNat
      ∧ ((port3 { stage := .wait }).conOf 3).challAt + (port3 { stage := .wait }).getF (F.SEC_CON_TO 3) * 200000
        ≤ (port3 { stage := .wait }).tsc.toNat) := by decide

/-- Supervisor time is 10 s; rail 15 is `x` in state `st`, and the supervisor is in state `ps`. -/
def rail15 (ps st : Nat) (x : Rail) : State :=
  let s := (run.putF F.PSQ_STATUS_STATE ps).putF (F.PSQ_RAIL_STATUS_STATE 15) st
  let s := (s.putF (F.PSQ_RAIL_NOM 15) 1000).putF (F.PSQ_RAIL_CFG_PGUSE 15) 0
  { s with psq := { s.psq with now := 10000000, standby := true, rail := s.psq.rail.set 15 x } }

theorem witness_TheSupervisorFollowsItsRails :
    ((rail15 0 0 {}).psqState = 0 ∧ (rail15 0 0 {}).psq.standby = true ∧ (rail15 0 0 {}).psq.lockout = false
      ∧ ((rail15 0 0 {}).psqAdvance 1).minOffDone = true ∧ ((rail15 0 0 {}).putF F.PSQ_STATUS_AC_OK 1).flag F.PSQ_STATUS_AC_OK = true)
    ∧ ((rail15 2 3 {}).psqState = 2 ∧ (rail15 2 3 {}).psq.core = true)
    ∧ ((rail15 3 3 {}).psqState = 3 ∧ (rail15 3 3 {}).psq.total = false ∧ (rail15 3 3 {}).psq.seq = false
      ∧ (rail15 3 3 {}).psq.fellAt + 300 ≤ (rail15 3 3 {}).psq.now + 1)
    ∧ ((rail15 2 2 {}).railState 15 = 2 ∧ (rail15 2 2 {}).railGood 15 1000 true = true
      ∧ (rail15 2 2 {}).psqState = 2)
    ∧ ((rail15 2 3 {}).railState 15 = 3 ∧ (rail15 2 3 {}).railGood 15 0 true = false)
    ∧ ((rail15 2 2 {}).railOf 15).onAt + 1000 * (rail15 2 2 {}).getF (F.PSQ_RAIL_TO_PG_TO 15) ≤ (rail15 2 2 {}).psq.now + 1
    ∧ ((rail15 2 4 {}).railState 15 = 4 ∧ (rail15 2 4 {}).flag (F.PSQ_RAIL_STATUS_PENDING_ENABLE 15) = false
      ∧ (rail15 2 4 {}).underOff 15 0 = true
      ∧ ((rail15 2 4 {}).railOf 15).offAt + 1000 * (rail15 2 4 {}).getF (F.PSQ_RAIL_TO_OFF_TO 15) ≤ (rail15 2 4 {}).psq.now + 1)
    ∧ (at_ 3399 run).dnLate = false
    ∧ (((rail15 2 3 {}).railOf 15).stepAt + 100 ≤ (rail15 2 3 {}).psq.now + 1
      ∧ (((rail15 2 3 {}).putR (R.PSQ_RAIL_MARGIN 15) 5#32).railOf 15).margin
        < marginOf (((rail15 2 3 {}).putR (R.PSQ_RAIL_MARGIN 15) 5#32).getR (R.PSQ_RAIL_MARGIN 15))) := by decide

/-- Both ports of the chain are up and the chain is formed; the chain is `c`. -/
def chained (c : Chain) : State :=
  let s := ((run.putF (F.CHN_PORT_STATUS_STATE 0) 2).putF (F.CHN_PORT_STATUS_STATE 1) 2).putF F.CHN_STATUS_FORMED 1
  { (((s.putF F.CHN_CFG_EN 1).putF F.CHN_STATUS_ADDR 2).putF (F.CHN_PORT_STATUS_NALIGNED 0) 1) with chn := c, tsc := 240000000#64 }
/-- A frame without messages, with the CRC-32C of its six bytes or with none. -/
def frame (ok : Bool) : ChnFrame :=
  let b : List Byte := [5#8, 0#8, 0x10#8, 7#8, 0#8, 0#8]
  { bytes := b ++ (if ok then leBytes 4 (crc32c b).toNat else []) }
def full8 : Chain := { port := Vector.replicate 2 { rx := List.replicate 8 (0#4, Vector.replicate 3 0#32) } }

theorem witness_ChainPortsFramesAndEnumeration :
    (run.chnUp 0 = false ∧ (chained {}).chnUp 0 = true ∧ (chained {}).chnUp 1 = true
      ∧ ChnFrame.ok (frame true) = true ∧ ChnFrame.ok (frame false) = false ∧ ChnFrame.msgs (frame true) = [])
    ∧ (((chained {}).putF F.CHN_STATUS_HEAD 1).chnUp 0 = true ∧ ((chained {}).putF F.CHN_STATUS_HEAD 1).flag F.CHN_STATUS_HEAD = true
      ∧ ((chained {}).putF F.CHN_STATUS_HEAD 1).flag F.CHN_STATUS_CONFLICT = false)
    ∧ (64 ≤ (chained { good := 64 }).chn.good ∧ (chained { good := 64 }).flag (F.CHN_PORT_STATUS_NALIGNED 0) = true
      ∧ (chained { good := 64 }).flag F.CHN_STATUS_ALIGNED = false ∧ (chained { good := 64 }).flag F.CHN_STATUS_HEAD = false)
    ∧ ((chained {}).cport 0).lastGood + 3 ≤ (chained {}).tick
    ∧ (1 ≤ (8#8).toNat ∧ (8#8).toNat ≤ 8 ∧ (15#8).toNat < 16 ∧ (chained {}).flag F.CHN_STATUS_HEAD = false
      ∧ (chained {}).flag F.CHN_STATUS_CONFLICT = false)
    ∧ ((chained {}).flag F.CHN_STATUS_FORMED = true ∧ (chained {}).flag F.CHN_CFG_EN = true ∧ ((chained {}).cport 1).rx.length < 8
      ∧ 8 ≤ ((chained full8).cport 1).rx.length)
    ∧ ((chained {}).getF F.CHN_STATUS_ADDR < (3#4).toNat ∧ 3#4 ≠ 0xF#4 ∧ ((chained {}).cport 1).txq.length < 32) := by decide

def offer1 : Offer := { id := 1#32, port := 1, thread := 3, tick := 0, spoiled := false }
/-- The same with the sheet in HANDOFF in the ledger. -/
def handing (l : List Offer) : State :=
  let sh : Sheet := { sheet1 with handoff := true }
  { chained { offers := l } with led := { sheets := [sh] } }
def pend1 : Pend := { id := 1#32, port := 0, tick := 0 }

theorem witness_HandoversMoveOneSheetOnce :
    ((chained {}).offerRefusal 7#32 = none ∧ (run.putF F.LDG_STATUS_FROZEN 1).offerRefusal 7#32 ≠ none
      ∧ ((run.putF F.LDG_STATUS_FROZEN 1).cport 0).txq.length < 32)
    ∧ ((chained { offers := [offer1] }).chn.offers.find? (fun o => o.id == 1#32) = some offer1 ∧ offer1.accepted = false
      ∧ offer1.heldAccept = false ∧ (chained { offers := [offer1] }).frozen = false
      ∧ ((chained { offers := [offer1] }).putF F.LDG_STATUS_FROZEN 1).frozen = true
      ∧ (chained { offers := [offer1] }).inHandoff 1#32 = false ∧ (handing [offer1]).inHandoff 1#32 = true ∧ (handing [offer1]).frozen = false)
    ∧ ((chained {}).flag F.CHN_STATUS_FORMED = true ∧ run.flag F.CHN_STATUS_FORMED = false
      ∧ (chained { offers := [offer1] }).flag F.CHN_STATUS_FORMED = true ∧ (handing [offer1]).flag F.CHN_STATUS_FORMED = true
      ∧ (chained { pends := [pend1] }).flag F.CHN_STATUS_FORMED = true)
    ∧ ((chained {}).jr.frozenAc = false ∧ (chained { offers := [offer1] }).jr.frozenAc = false ∧ (handing [offer1]).jr.frozenAc = false
      ∧ (chained { pends := [pend1] }).jr.frozenAc = false)
    ∧ ((chained {}).chn.offers.find? (fun o => o.id == 1#32) = none ∧ ((chained {}).cport 1).txq.length < 32)
    ∧ ((chained { offers := [offer1] }).chn.offers.find? (fun o => o.id == 1#32 && !o.accepted) = some offer1 ∧ offer1.reset = false
      ∧ (15#8).toNat < 16)
    ∧ ((chained { offers := [offer1] }).chn.offers.find? (fun o => o.id == 1#32 && !o.accepted && !o.heldAccept) = some offer1
      ∧ offer1.reset = false ∧ offer1.tick + (chained { offers := [offer1] }).getF F.CHN_CFG_HO_TO ≤ (chained { offers := [offer1] }).tick)
    ∧ ((chained { pends := [pend1] }).chn.pends.find? (fun x => x.id == 1#32) = some pend1 ∧ pend1.resolving = false ∧ pend1.boot = false
      ∧ (chained { pends := [pend1] }).frozen = false)
    ∧ (chained {}).chn.pends.find? (fun x => x.id == 1#32) = none
    ∧ ((chained { pends := [pend1] }).chn.pends.find? (fun x => x.id == 1#32 && !x.held) = some pend1
      ∧ pend1.tick + (chained { pends := [pend1] }).getF F.CHN_CFG_HO_TO ≤ (chained { pends := [pend1] }).tick
      ∧ (chained { pends := [pend1] }).chnUp pend1.port = true) := by decide

end Sys2Proof.Tests
end

/-! ## Chapter 4: division (R81) and PICK under a frozen ledger (R96) -/

section

namespace Sys2Proof.Machine

/-! ### Values of the division instructions (R81) -/

theorem quo_zero_of_nonneg {a : Word} (h : 0 ≤ a.toInt) : quo a 0#32 = 0x7FFFFFFF#32 := by
  have hs : ¬ a.toInt < 0 := by omega
  simp [quo, slt, BitVec.slt_iff_toInt_lt, hs]

theorem quo_zero_of_neg {a : Word} (h : a.toInt < 0) : quo a 0#32 = 0x80000000#32 := by
  simp [quo, slt, BitVec.slt_iff_toInt_lt, h]

@[simp] theorem quou_zero (a : Word) : quou a 0#32 = 0xFFFFFFFF#32 := rfl

@[simp] theorem modS_zero (a : Word) : modS a 0#32 = a := rfl

@[simp] theorem modU_zero (a : Word) : modU a 0#32 = a := rfl

/-- Saturation leaves a value that a word can hold. -/
theorem sat32_toInt (a : Word) : sat32 a.toInt = a := by
  have hlo : ¬ a.toInt < -2147483648 := Int.not_lt.2 (BitVec.le_toInt a)
  have hhi : ¬ 2147483647 < a.toInt := by
    have := BitVec.toInt_lt (x := a)
    omega
  simp only [sat32, F32.clampInt, if_neg hlo, if_neg hhi, BitVec.ofInt_toInt]

/-- Away from the corners the quotient is representable, as the library's signed division, so QUO does not saturate. -/
theorem quo_eq_sdiv {a b : Word} (hb : b ≠ 0#32) (h : ¬ (a = 0x80000000#32 ∧ b = 0xFFFFFFFF#32)) : quo a b = a.sdiv b := by
  have hd : (a.sdiv b).toInt = a.toInt.tdiv b.toInt := BitVec.toInt_sdiv_of_ne_or_ne a b (not_and_or.1 h)
  rw [quo, if_neg hb, ← hd, sat32_toInt]

theorem modS_eq_srem {a b : Word} (hb : b ≠ 0#32) : modS a b = a.srem b := by
  rw [modS, if_neg hb, ← BitVec.toInt_srem, BitVec.ofInt_toInt]

/-! ### Instructions that write one x register -/

/-- An instruction on two registers writes the value of its operation. -/
theorem xResult_of_alu {s : State} {i : Instr} {t rd rs1 rs2 : Fin 16} {c : Nat} {op : Word → Word → Word} (h : s.ready t c)
    (hi : exec i s = .next (s.alu t rd rs1 rs2 c op)) : XResult s i t c rd (op (s.rx t rs1) (s.rx t rs2)) := by
  rw [XResult, hi, State.alu, perform_wx _ _ _ _ _ h, rx_charge, rx_charge]

/-- An instruction that writes one x register does not fault, whether its thread may issue it or not: its only fault
would be PC_RANGE (R79). -/
theorem unfaulted_of_perform_wx {s : State} {i : Instr} {t rd : Fin 16} {c : Nat} {v : State → Word} (hpc : (s.thr t).pc + 1 < 65536)
    (hi : exec i s = .next (s.perform t c fun a => a.wx t rd (v a))) :
    ∃ u, exec i s = .next u ∧ (u.thr t).st = (s.thr t).st ∧ (u.thr t).fault = (s.thr t).fault := by
  refine ⟨_, hi, ?_⟩
  cases hc : s.canIssue t c with
  | false => rw [perform_not _ _ _ _ hc]; exact ⟨rfl, rfl⟩
  | true =>
    rw [perform_wx _ _ _ _ _ ⟨hc, hpc⟩, thr_granted]
    by_cases hr : rd = 0 <;> simp [Thread.retire, Thread.wx, hr]

/-- Settles O10: the corners by R81's cases, the rest through the library's signed division, and every integer instruction as
one that writes one x register. -/
theorem divisionCornersSaturate : Obligations.DivisionCornersSaturate := by
  refine ⟨fun _ => quo_zero_of_nonneg, fun _ => quo_zero_of_neg, quou_zero, fun a => ⟨modS_zero a, modU_zero a⟩,
    by decide, by decide, fun a b hb h => ⟨?quotient, ?remainder⟩, fun s t rd rs1 rs2 h => ⟨xResult_of_alu h rfl,
    xResult_of_alu h rfl, xResult_of_alu h rfl, xResult_of_alu h rfl, ?noFault⟩⟩
  case quotient => rw [quo_eq_sdiv hb h, BitVec.toInt_sdiv_of_ne_or_ne a b (not_and_or.1 h)]
  case remainder => rw [modS_eq_srem hb, BitVec.toInt_srem]
  case noFault =>
    intro s t rd rs1 rs2 imm k wide hpc i hi
    fin_cases hi <;> exact unfaulted_of_perform_wx hpc rfl

/-! ### Faults (R54, R55) -/

theorem thr_granted_ne (s : State) {t u : Fin 16} (h : Thread) (n : u ≠ t) : (s.granted t h).thr u = s.thr u :=
  thr_setThr_ne s h n

/-- A fault halts its thread with the fault's code and leaves its PC and its registers. -/
theorem thr_faultThr_same (s : State) (t : Fin 16) (code : Nat) :
    ∃ o, (s.faultThr t code).thr t =
      { s.thr t with st := .halted, fault := code, owed := 0, prepaid := 0, step := false, handover := o } := by
  refine ⟨if s.faultThread != t.val then some (s.tick + 1) else (s.thr t).handover, ?_⟩
  unfold State.faultThr
  dsimp only
  split <;> exact thr_setThr_same s t _

theorem thr_faultThr_ne (s : State) {t u : Fin 16} (code : Nat) (n : u ≠ t) : (s.faultThr t code).thr u = s.thr u := by
  unfold State.faultThr
  dsimp only
  split <;> exact thr_setThr_ne s _ n

/-- A fault leaves the ledger, the pages, the journal and the memory windows. -/
theorem faultThr_frame (s : State) (t : Fin 16) (code : Nat) :
    (s.faultThr t code).led = s.led ∧ (s.faultThr t code).cel = s.cel ∧ (s.faultThr t code).jr = s.jr
      ∧ (s.faultThr t code).mem = s.mem := by
  unfold State.faultThr
  dsimp only
  split <;> exact ⟨rfl, rfl, rfl, rfl⟩

/-- The only register word that a fault can change is SEQ_STATUS, which latches NO_HANDLER (R56). -/
theorem getR_faultThr_ne (s : State) (t : Fin 16) (code : Nat) {off : Nat} (h : off ≠ R.SEQ_STATUS) :
    (s.faultThr t code).getR off = s.getR off := by
  unfold State.faultThr
  dsimp only
  split
  · rfl
  · exact getR_putF_ne _ F.SEQ_STATUS_NO_HANDLER 1 off h

/-- A PICK while the ledger is frozen is its charge and a LEDGER fault (R96). -/
theorem exec_pick_of_frozen {s : State} {t : Fin 16} (rd rs1 rs2 : Fin 16) (hf : s.frozen = true) (hc : s.canIssue t 4 = true) :
    exec (.pick t rd rs1 rs2) s = .next ((s.charge t 4).faultThr t 0x6) := by
  change execPick t rd rs1 rs2 s = _
  rw [execPick, if_pos hf, State.performFault, if_pos hc]

/-- Settles O60: a frozen PICK is a charge followed by a fault, and each leaves what the statement names. -/
theorem frozenLedgersFaultPick : Obligations.FrozenLedgersFaultPick := by
  intro s t rd rs1 rs2 hf hc
  obtain ⟨o, hthr⟩ := thr_faultThr_same (s.charge t 4) t 0x6
  obtain ⟨hled, hcel, hjr, hmem⟩ := faultThr_frame (s.charge t 4) t 0x6
  rw [charge_eq, thr_granted] at hthr
  exact ⟨_, exec_pick_of_frozen rd rs1 rs2 hf hc, congrArg Thread.st hthr, congrArg Thread.fault hthr, (congrArg Thread.pc hthr :),
    (congrArg Thread.x hthr :), (congrArg Thread.aux hthr :), fun u hu => (thr_faultThr_ne _ _ hu).trans (thr_granted_ne _ _ hu),
    hled, hcel, hjr, hmem, fun _ hoff => getR_faultThr_ne _ t 0x6 hoff⟩

end Sys2Proof.Machine

end

/-! ## What every command keeps: the queue, and canonical memories -/

section

namespace Sys2Proof.Machine

/-! ### Commands that write a memory window or move TSC -/

/-- An access to unmapped offsets may be a read that also touches sequencer memory. -/
theorem execUnmappedAccess_keeps (port : Port) (addr : Nat) (en : BitVec 4) (isWrite : Bool) (s : State) :
    ∃ t, execUnmappedAccess port addr en isWrite s = .next t ∧ s.Keeps t := by
  refine ⟨_, rfl, ?_⟩
  dsimp only
  split
  · exact .refl s
  · split
    · exact .of_outer (by simp)
    · split
      · exact .of_outer (by simp)
      · exact s.busReads_keeps _ _ _

theorem execReadClear_keeps (port : Port) (addr : Nat) (en : BitVec 4) (s : State) :
    ∃ t, execReadClear port addr en s = .next t ∧ s.Keeps t := by
  refine ⟨_, rfl, ?_⟩
  split
  · exact .of_outer (by simp)
  · exact s.busReads_keeps _ _ _

theorem execPairLowRead_keeps (port : Port) (addr : Nat) (en : BitVec 4) (s : State) :
    ∃ t, execPairLowRead port addr en s = .next t ∧ s.Keeps t := by
  refine ⟨_, rfl, ?_⟩
  split
  · exact .of_outer (by simp)
  · split
    · exact s.busReads_keeps _ _ _
    · exact .refl s

theorem execRegisterWrite_keeps (port : Port) (addr : Nat) (en : BitVec 4) (w : Word) (s : State) :
    ∃ t, execRegisterWrite port addr en w s = .next t ∧ s.Keeps t := by
  refine ⟨_, rfl, ?_⟩
  split
  · exact .of_outer (by simp)
  · exact s.busWrite_keeps _ _ _ _

theorem execPairHighWrite_keeps (port : Port) (addr : Nat) (w : Word) (s : State) :
    ∃ t, execPairHighWrite port addr w s = .next t ∧ s.Keeps t := by
  refine ⟨_, rfl, ?_⟩
  dsimp only
  split
  · exact .of_outer (by simp)
  · split
    · exact s.regWrite_keeps _ _ _
    · exact .refl s

theorem execPortOut_keeps (t rs1 rs2 : Fin 16) (imm : BitVec 18) (s : State) :
    ∃ u, execPortOut t rs1 rs2 imm s = .next u ∧ s.Keeps u := by
  refine ⟨_, rfl, ?_⟩
  dsimp only
  split
  · exact .of_outer (by simp)
  · exact s.perform_keeps _ _ _ fun a => a.busWrite_keeps _ _ _ _

theorem execAddm_keeps (t rd rs1 rs2 : Fin 16) (ecc : Ecc) (s : State) :
    ∃ u, execAddm t rd rs1 rs2 ecc s = .next u ∧ s.Keeps u := by
  refine ⟨_, rfl, ?_⟩
  dsimp only
  split
  · exact .of_outer (by simp)
  · split
    · exact .of_outer (by simp)
    · refine s.perform_keeps _ _ _ fun b => State.Keeps.then ?_ (State.wx_outer ..)
      exact (State.Keeps.of_outer (State.eccCount_outer b ecc)).trans (State.dmemWrite_keeps _ _ _ _)

theorem execHostMemAccess_keeps (s : State) : ∃ t, execHostMemAccess s = .next t ∧ s.Keeps t := by
  refine ⟨_, rfl, ?_⟩
  split
  · exact serveMem_keeps _ s
  · exact .refl s

theorem execSlotList_keeps (s : State) : ∃ t, execSlotList s = .next t ∧ s.Keeps t := by
  refine ⟨_, rfl, ?_⟩
  split
  · exact .refl s
  · extract_lets a cle b susp c fresh d e g f
    have hc : c.outer = s.outer := by simp [c, b, a]
    clear_value c
    have hf : f.outer = s.outer := by
      simp only [f, g, e, d]
      rw [State.forEach_outer _ _ _ fun _ _ => State.putR_outer _ _ _, State.each_outer, State.each_outer] <;> simp [hc]
    clear_value f
    split
    · exact .of_outer (by simp [hc])
    · refine (State.Keeps.of_outer hf).trans (State.forEach_keeps _ _ _ fun x n => ?_)
      split
      · exact x.rcEval_keeps _ _
      · exact .refl x

theorem wrLe_foldl_wf (l : List Nat) (m : List Host.Cell) (at_ v : Nat → Nat) (n : Nat) (h : cellsWf m) :
    cellsWf (l.foldl (fun m j => wrLe m (at_ j) n (v j)) m) := by
  induction l generalizing m with
  | nil => exact h
  | cons j r ih => exact ih _ (wrLe_wf _ _ _ h)

theorem execCaptureSample_keeps (s : State) : ∃ t, execCaptureSample s = .next t ∧ s.Keeps t := by
  refine ⟨_, rfl, ?_⟩
  dsimp only
  split
  · exact .of_outer (by simp)
  · split
    · refine State.Keeps.trans (t := { s with mem := { s.mem with capture := (List.range 4).foldl (fun m j => wrLe m
          (16 * s.cle.cap.pos + 4 * j) 4 (if (s.getR (R.CLE_CAP_SIG j)).getLsbD 31 then
            s.readReg (bits (s.getR (R.CLE_CAP_SIG j)) 0 24) else 0#32).toNat) s.mem.capture } }) ⟨rfl, fun w => ?_⟩ (.of_outer ?_)
      · rw [Mem.wf_iff] at w ⊢
        obtain ⟨hp, hd, hc, he, hcap⟩ := w
        exact ⟨hp, hd, hc, he, wrLe_foldl_wf _ _ _ _ _ hcap⟩
      · (repeat' split) <;> simp
    · exact .refl s

theorem execWholeApplySwitch_keeps (s : State) : ∃ t, execWholeApplySwitch s = .next t ∧ s.Keeps t := by
  refine ⟨_, rfl, ?_⟩
  split
  · split
    · exact s.wholeSwitch_keeps _ _
    · exact .refl s
  · exact .refl s

/-! ### Commands that take time -/

theorem issueAll_setTsc_keeps (s : State) (n : BitVec 64) : s.Keeps (s.issueAll.setTsc n) :=
  (State.Keeps.of_outer (State.issueAll_outer s)).trans (State.setTsc_keeps _ _)

theorem execSystemPllLock_keeps (s : State) : ∃ t, execSystemPllLock s = .next t ∧ s.Keeps t := by
  refine ⟨_, rfl, ?_⟩
  split
  · refine (s.setTsc_keeps 0).trans ?_
    dsimp only
    split
    · exact .of_mem rfl rfl
    · exact (State.Keeps.of_mem rfl rfl).then (State.raise_outer ..)
  · exact .refl s

theorem execTickBoundary_keeps (xcmd : List (Fin 48)) (die : Vector (BitVec 16) 12) (s : State) :
    ∃ t, execTickBoundary xcmd die s = .next t ∧ s.Keeps t := by
  refine ⟨_, rfl, ?_⟩
  split
  · exact s.nextTick_keeps.then (by simp)
  · exact .refl s

theorem execUpwardFrame_keeps (cyc : Nat) (corrected : Bool) (ain : Vector Ain 64) (sc : Vector (Vector (Int × Int) 20) 6) (s : State) :
    ∃ t, execUpwardFrame cyc corrected ain sc s = .next t ∧ s.Keeps t := by
  refine ⟨_, rfl, ?_⟩
  dsimp only
  split
  · refine (issueAll_setTsc_keeps s (s.tsc + BitVec.ofNat 64 (max s.cycle cyc - s.cycle))).then ?_
    (repeat' split) <;> simp
  · exact .refl s

theorem execUpwardFrameDeadline_keeps (bad : Bool) (s : State) :
    ∃ t, execUpwardFrameDeadline bad s = .next t ∧ s.Keeps t := by
  refine ⟨_, rfl, ?_⟩
  split
  · refine (issueAll_setTsc_keeps s (s.tsc + BitVec.ofNat 64 (600 - s.cycle))).then ?_
    dsimp only
    (repeat' split) <;> simp
  · exact .refl s

theorem execDownwardFrame_keeps (corrected : Bool) (s : State) : ∃ t, execDownwardFrame corrected s = .next t ∧ s.Keeps t := by
  refine ⟨_, rfl, ?_⟩
  split
  · refine (issueAll_setTsc_keeps s (s.tsc + BitVec.ofNat 64 (3400 - s.cycle))).then ?_
    dsimp only
    split <;> simp
  · exact .refl s

theorem execBudgetReload_keeps (s : State) : ∃ t, execBudgetReload s = .next t ∧ s.Keeps t := by
  refine ⟨_, rfl, ?_⟩
  split
  · exact (s.setTsc_keeps (s.tsc + BitVec.ofNat 64 (200 - s.cycle))).then (by simp)
  · exact .refl s

theorem execTickAudits_keeps (s : State) : ∃ t, execTickAudits s = .next t ∧ s.Keeps t := by
  refine ⟨_, rfl, ?_⟩
  dsimp only
  split
  · exact (s.setTsc_keeps (BitVec.ofNat 64 (s.tick * 4000 + 3800))).then (by simp)
  · exact .of_outer (by simp)

theorem execLineClockUpdate_keeps (st : Fin 6) (s : State) : ∃ t, execLineClockUpdate st s = .next t ∧ s.Keeps t := by
  refine ⟨_, rfl, ?_⟩
  split
  · exact .refl s
  · refine (issueAll_setTsc_keeps s (s.tsc + BitVec.ofNat 64 (600 - s.cycle))).then ?_
    dsimp only
    split <;> simp

/-! ### Commands of the supervisor -/

theorem psqAdvance_keeps (s : State) (dt : Nat) : s.Keeps (s.psqAdvance dt) := .of_outer (State.psqAdvance_outer s dt)

theorem execPowerOnReset_keeps (porst : Bool) (s : State) : ∃ t, execPowerOnReset porst s = .next t ∧ s.Keeps t := by
  refine ⟨_, rfl, ?_⟩
  split
  · exact .refl s
  · extract_lets keep ac t
    have ht : s.Keeps t := (s.restart_keeps keep {} [] s.uncommitted).then (by simp [t])
    split
    · exact ht.then (by simp)
    · exact ht

theorem execPllLockTimeout_keeps (dt : Nat) (s : State) : ∃ t, execPllLockTimeout dt s = .next t ∧ s.Keeps t := by
  refine ⟨_, rfl, (psqAdvance_keeps s dt).trans ?_⟩
  dsimp only
  split
  · exact (State.coreLost_keeps _).trans (.of_mem rfl rfl)
  · exact .refl _

theorem execAcOkFall_keeps (dt : Nat) (s : State) : ∃ t, execAcOkFall dt s = .next t ∧ s.Keeps t := by
  refine ⟨_, rfl, ?_⟩
  extract_lets a psq b c
  have hb : b.outer = s.outer := by
    simp only [b, a]
    split <;> simp
  clear_value b
  refine (State.Keeps.of_outer hb).trans ?_
  split
  · split
    · exact .of_outer (by simp [c])
    · exact (State.Keeps.of_outer (by simp [c])).trans (State.railSequence_keeps _)
  · exact .refl b

theorem execPowerDownRailStart_keeps (dt : Nat) (s : State) : ∃ t, execPowerDownRailStart dt s = .next t ∧ s.Keeps t := by
  refine ⟨_, rfl, (psqAdvance_keeps s dt).trans ?_⟩
  dsimp only
  split
  · exact State.railSequence_keeps _
  · exact .refl _

theorem execRailGoodLost_keeps (dt : Nat) (r : Fin 16) (vs : Nat) (pg : Bool) (s : State) :
    ∃ t, execRailGoodLost dt r vs pg s = .next t ∧ s.Keeps t := by
  refine ⟨_, rfl, (psqAdvance_keeps s dt).trans ?_⟩
  dsimp only
  split
  · refine (State.Keeps.of_outer (State.railSense_outer _ r vs)).trans ?_
    split
    · exact State.railFailed_keeps _ _
    · exact State.shutOff_keeps _ _ _ _
  · exact .refl _

theorem execPgTimeout_keeps (dt : Nat) (r : Fin 16) (vs : Nat) (s : State) :
    ∃ t, execPgTimeout dt r vs s = .next t ∧ s.Keeps t := by
  refine ⟨_, rfl, (psqAdvance_keeps s dt).trans ?_⟩
  dsimp only
  split
  · exact (State.Keeps.of_outer (State.railSense_outer _ r vs)).trans (State.shutOff_keeps _ _ _ _)
  · exact .refl _

theorem execRailBelowOff_keeps (dt : Nat) (r : Fin 16) (vs : Nat) (s : State) :
    ∃ t, execRailBelowOff dt r vs s = .next t ∧ s.Keeps t := by
  refine ⟨_, rfl, (psqAdvance_keeps s dt).trans ?_⟩
  dsimp only
  split
  · refine (State.Keeps.of_outer (State.railSense_outer _ r vs)).trans ?_
    split
    · exact State.railIsOff_keeps _ _
    · exact .of_outer (by simp)
  · exact .refl _

theorem execOffTimeout_keeps (dt : Nat) (r : Fin 16) (vs : Nat) (s : State) :
    ∃ t, execOffTimeout dt r vs s = .next t ∧ s.Keeps t := by
  refine ⟨_, rfl, (psqAdvance_keeps s dt).trans ?_⟩
  dsimp only
  split
  · exact (State.Keeps.of_outer (by simp)).trans (State.railIsOff_keeps _ _)
  · exact .refl _

theorem execVstby33Fall_keeps (s : State) : ∃ t, execVstby33Fall s = .next t ∧ s.Keeps t :=
  ⟨_, rfl, (s.restart_keeps _ _ _ _).then (State.outputsOff_outer _)⟩

/-! ### Commands with a longer course that leave memories, fuses and TSC alone -/

theorem execVintageCheckDone_outer (flashOk preloadOk : Bool) (s : State) :
    ∃ t, execVintageCheckDone flashOk preloadOk s = .next t ∧ t.outer = s.outer := by
  refine ⟨_, rfl, ?_⟩
  dsimp only
  (repeat' split) <;> simp

theorem execVintageApply_outer (q : Fin 2) (e : SqEntry) (s : State) :
    ∃ t, execVintageApply q e s = .next t ∧ t.outer = s.outer := by
  refine ⟨_, rfl, State.command_outer _ _ _ _ _ _ _ _ _ fun a => ?_⟩
  dsimp only
  (repeat' split) <;> simp

theorem execVintageRevert_outer (q : Fin 2) (e : SqEntry) (s : State) :
    ∃ t, execVintageRevert q e s = .next t ∧ t.outer = s.outer := by
  refine ⟨_, rfl, State.command_outer _ _ _ _ _ _ _ _ _ fun a => ?_⟩
  (repeat' split) <;> simp

theorem execPageDiscard_outer (q : Fin 2) (e : SqEntry) (s : State) :
    ∃ t, execPageDiscard q e s = .next t ∧ t.outer = s.outer := by
  refine ⟨_, rfl, State.command_outer _ _ _ _ _ _ _ _ _ fun a => ?_⟩
  dsimp only
  (repeat' split) <;> simp

theorem setCel_outer (s : State) (c : Cellar) : ({ s with cel := c } : State).outer = s.outer := rfl

theorem execPageSubmit_outer (q : Fin 2) (e : SqEntry) (s : State) :
    ∃ t, execPageSubmit q e s = .next t ∧ t.outer = s.outer := by
  refine ⟨_, rfl, ?_⟩
  split
  · rfl
  · split
    · exact State.cqStall_outer ..
    · extract_lets a tag no p b
      have ha : a.outer = s.outer := State.consume_outer ..
      have hno : ∀ st, (no st).outer = a.outer := fun st => by simp [no]
      have hb : b.outer = a.outer := State.putF_outer ..
      clear_value a no b p tag
      have no_ : ∀ st, (no st).outer = s.outer := fun st => (hno st).trans ha
      split
      · exact no_ _
      · split
        · exact no_ _
        · split
          · exact no_ _
          · split
            · exact no_ _
            · exact (State.pagesFollow_outer _).trans ((setCel_outer b _).trans (hb.trans ha))

theorem execBlockVerify_outer (l : Fin 4) (seen : Option (List Byte)) (s : State) :
    ∃ t, execBlockVerify l seen s = .next t ∧ t.outer = s.outer := by
  refine ⟨_, rfl, ?_⟩
  dsimp only
  (repeat' split) <;> simp

theorem execBlockStore_outer (l : Fin 4) (cycles : BitVec 24) (s : State) :
    ∃ t, execBlockStore l cycles s = .next t ∧ t.outer = s.outer := by
  refine ⟨_, rfl, ?_⟩
  dsimp only
  (repeat' split) <;> simp

theorem execEvictionDone_outer (s : State) : ∃ t, execEvictionDone s = .next t ∧ t.outer = s.outer := by
  refine ⟨_, rfl, ?_⟩
  dsimp only
  (repeat' split) <;> simp

theorem execLineComplete_outer (st : Fin 6) (beam : Fin 32) (s : State) :
    ∃ t, execLineComplete st beam s = .next t ∧ t.outer = s.outer := by
  refine ⟨_, rfl, ?_⟩
  extract_lets a
  have ha : a.outer = s.outer := by
    simp only [a]
    split <;> simp
  clear_value a
  (repeat' split) <;> simp [ha]

theorem execSweepEdge_outer (st : Fin 6) (s : State) : ∃ t, execSweepEdge st s = .next t ∧ t.outer = s.outer := by
  refine ⟨_, rfl, ?_⟩
  dsimp only
  (repeat' split) <;> simp

theorem execPageGapBegin_outer (st : Fin 6) (s : State) : ∃ t, execPageGapBegin st s = .next t ∧ t.outer = s.outer := by
  refine ⟨_, rfl, ?_⟩
  dsimp only
  (repeat' split) <;> simp

theorem execEvent_outer (st : Fin 6) (kind : BitVec 8) (seq : BitVec 16) (beam segment : BitVec 8) (s : State) :
    ∃ t, execEvent st kind seq beam segment s = .next t ∧ t.outer = s.outer := by
  refine ⟨_, rfl, ?_⟩
  dsimp only
  (repeat' split) <;> simp

theorem execHallEdge_outer (c : Fin 12) (code : BitVec 3) (s : State) :
    ∃ t, execHallEdge c code s = .next t ∧ t.outer = s.outer := by
  refine ⟨_, rfl, ?_⟩
  dsimp only
  (repeat' split) <;> simp

theorem execChopperConversion_outer (i : Fin 4) (code : BitVec 14) (s : State) :
    ∃ t, execChopperConversion i code s = .next t ∧ t.outer = s.outer := by
  refine ⟨_, rfl, ?_⟩
  dsimp only
  (repeat' split) <;> simp

theorem execZeroCrossing_outer (positive : Bool) (s : State) :
    ∃ t, execZeroCrossing positive s = .next t ∧ t.outer = s.outer := by
  refine ⟨_, rfl, ?_⟩
  dsimp only
  split
  · rw [State.each_outer _ _ _ fun a h => by (repeat' split) <;> simp, State.setMains_outer]
  · rfl

end Sys2Proof.Machine

end

/-! ## Every command completes, leaves the queue and keeps memories canonical -/

section

namespace Sys2Proof.Machine

/-- What an answer that leaves queue, memories, fuses and TSC alone keeps. -/
theorem keeps_of_outer {s : State} {r : Res} (h : ∃ t, r = .next t ∧ t.outer = s.outer) : ∃ t, r = .next t ∧ s.Keeps t :=
  h.imp fun _ k => ⟨k.1, .of_outer k.2⟩

/-- Every command answers a next state that has the same queue, and canonical memories where they were. The commands that
write a memory window or take time, and those with a longer course, have a lemma of their own above; of the others some act only under
a condition. -/
theorem exec_keeps (c : Instr) (s : State) : ∃ t, exec c s = .next t ∧ s.Keeps t := by
  cases c
  case registerWrite => exact execRegisterWrite_keeps ..
  case unmappedAccess => exact execUnmappedAccess_keeps ..
  case readClear => exact execReadClear_keeps ..
  case pairLowRead => exact execPairLowRead_keeps ..
  case pairHighWrite => exact execPairHighWrite_keeps ..
  case powerOnReset => exact execPowerOnReset_keeps ..
  case systemPllLock => exact execSystemPllLock_keeps ..
  case pllLockTimeout => exact execPllLockTimeout_keeps ..
  case tickBoundary => exact execTickBoundary_keeps ..
  case upwardFrame => exact execUpwardFrame_keeps ..
  case upwardFrameDeadline => exact execUpwardFrameDeadline_keeps ..
  case downwardFrame => exact execDownwardFrame_keeps ..
  case wholeApplySwitch => exact execWholeApplySwitch_keeps ..
  case budgetReload => exact execBudgetReload_keeps ..
  case hostMemAccess => exact execHostMemAccess_keeps ..
  case addm => exact execAddm_keeps ..
  case portOut => exact execPortOut_keeps ..
  case tickAudits => exact execTickAudits_keeps ..
  case lineClockUpdate => exact execLineClockUpdate_keeps ..
  case slotList => exact execSlotList_keeps ..
  case captureSample => exact execCaptureSample_keeps ..
  case acOkFall => exact execAcOkFall_keeps ..
  case railGoodLost => exact execRailGoodLost_keeps ..
  case pgTimeout => exact execPgTimeout_keeps ..
  case railBelowOff => exact execRailBelowOff_keeps ..
  case offTimeout => exact execOffTimeout_keeps ..
  case powerDownRailStart => exact execPowerDownRailStart_keeps ..
  case vstby33Fall => exact execVstby33Fall_keeps ..
  case pmemHostWrite => exact ⟨_, rfl, s.pmemWrite_keeps _⟩
  case dmemHostWrite => exact ⟨_, rfl, s.dmemHostWrite_keeps _⟩
  case stw | sth | stb | stf => exact ⟨_, rfl, s.store_keeps _ _ _ _ _⟩
  case provGenerate | provProgram => exact ⟨_, rfl, s.secProv_keeps _ _ _ _⟩
  case provLock => exact ⟨_, rfl, (State.Keeps.of_outer (State.drew_outer s)).trans (State.secProv_keeps _ _ _ _ _)⟩
  case rootRevoke => exact ⟨_, rfl, s.rootRevoke_keeps _⟩
  case vintageCheckDone => exact keeps_of_outer (execVintageCheckDone_outer ..)
  case vintageApply => exact keeps_of_outer (execVintageApply_outer ..)
  case vintageRevert => exact keeps_of_outer (execVintageRevert_outer ..)
  case pageSubmit => exact keeps_of_outer (execPageSubmit_outer ..)
  case pageDiscard => exact keeps_of_outer (execPageDiscard_outer ..)
  case blockVerify => exact keeps_of_outer (execBlockVerify_outer ..)
  case blockStore => exact keeps_of_outer (execBlockStore_outer ..)
  case evictionDone => exact keeps_of_outer (execEvictionDone_outer ..)
  case lineComplete => exact keeps_of_outer (execLineComplete_outer ..)
  case sweepEdge => exact keeps_of_outer (execSweepEdge_outer ..)
  case pageGapBegin => exact keeps_of_outer (execPageGapBegin_outer ..)
  case event => exact keeps_of_outer (execEvent_outer ..)
  case hallEdge => exact keeps_of_outer (execHallEdge_outer ..)
  case zeroCrossing => exact keeps_of_outer (execZeroCrossing_outer ..)
  case chopperConversion => exact keeps_of_outer (execChopperConversion_outer ..)
  all_goals refine ⟨_, rfl, .of_outer ?_⟩
  case diePairing | ldgm | pageDiscardAction | transferTimeout | cellarSramError | dclkLockWindow | status | emitter
      | quadratureEdge | mainsSyncEdge | acOkRise =>
    dsimp only
    (repeat' split) <;> simp
  case engineResetAccept | axisCoastTimeout | vintageLoadDone | settingsSwitch | wholeApplyIdle | applyTimeout | faultHandover
      | threadRestart | sqDoorbell | cqDoorbell | evrDoorbell | meterSnapshot | rackingTransactionDone | completionTimeout
      | pressPageStart | descriptorCheck | indexTableCheck | laneBlockStart | spaceWaitTimeout | refill | primingStart
      | primingDone | roundFetchStart | bdMissingTimeout | overspeedClear | trainAck | response | returnBlockError
      | responseTimeout | catchSpinTry | groupRetry | injectionEnd | captureTransferDone | rinseTimeout | handoverTimeout
      | resolveTimer | undefinedEncoding | uvloRisingThreshold =>
    (repeat' split) <;> simp
  all_goals simp

/-- Settles O4: no command has another outcome than a next state, and none touches the queue. -/
theorem everyCommandCompletesAndLeavesTheQueue : Obligations.EveryCommandCompletesAndLeavesTheQueue :=
  fun c s => (exec_keeps c s).imp fun _ h => ⟨h.1, h.2.1⟩

/-! ### A main-clock cycle -/

theorem take_exec_keeps (s : State) (c : Instr) : s.Keeps (s.take (exec c s)) := by
  obtain ⟨t, ht, k⟩ := exec_keeps c s
  rw [ht]
  exact k

theorem runInstr_keeps (s : State) (t : Fin 16) (i : Option Instr) : s.Keeps (s.take (s.runInstr t i)) := by
  cases i with
  | none => exact take_exec_keeps s (.undefinedEncoding t .clean)
  | some i => exact take_exec_keeps s i

theorem grantTo_keeps (s : State) (t : Fin 16) : s.Keeps (s.grantTo t) := by
  unfold State.grantTo
  extract_lets h q a i b c
  have ha : s.Keeps a := .of_mem rfl rfl
  have hb : a.Keeps b := .of_outer (State.setThr_outer ..)
  clear_value b
  split
  · exact ha.then (State.setThr_outer ..)
  · split
    · exact ha.trans (hb.trans (runInstr_keeps _ _ _))
    · split
      · exact ha.trans (runInstr_keeps _ _ _)
      · exact ha.then (State.setThr_outer ..)

theorem issuePort_keeps (s : State) : s.Keeps s.issuePort := by
  unfold State.issuePort
  split
  · exact grantTo_keeps _ _
  · exact .refl s

theorem clock_keeps (s : State) : s.Keeps s.clock := by
  unfold State.clock
  split
  · extract_lets a b c
    have hc : s.Keeps c := (issuePort_keeps s).then (by simp [c, b, a])
    clear_value c
    exact (hc.trans (State.setTsc_keeps _ _)).trans (State.cycleBegins_keeps _)
  · exact .refl s

/-- Settles O6: the front command keeps canonical memories, and so does an idle cycle. -/
theorem everyStepKeepsMemoriesCanonical : Obligations.EveryStepKeepsMemoriesCanonical := by
  intro s t hs ht
  unfold step at ht
  split at ht
  case h_1 c rest _ =>
    obtain ⟨u, hu, k⟩ := exec_keeps c { s with pending := rest }
    cases hu.symm.trans ht
    exact k.2 hs
  case h_2 =>
    cases ht
    exact (clock_keeps s).2 hs

/-! ### A read can carry out a write that waits (R60) -/

/-- After reset, in the first cycle of a tick: a host write of one byte of data memory waits for a reserved cycle. -/
def writeWaits : State :=
  { State.reset with seq := { State.reset.seq with waiting := [{ prog := false, write := [(0, 1#8)] }] } }

/-- Refutes O5: a host read of data memory joins the queue of host accesses, and in a reserved cycle the write that waits there
is carried out first (R60); no statement names a read among the writers of a memory window. -/
theorem not_onlyTheirWritersChangeMemoriesFusesAndTime : ¬ Obligations.OnlyTheirWritersChangeMemoriesFusesAndTime := by
  intro h
  obtain ⟨hm, -, -⟩ := h (.readClear .host 0xC00000 0xF#4) writeWaits _ rfl
  exact absurd (congrArg (fun m : Mem => rdByte m.dmem 0) (hm rfl)) (by decide)

/-! ### Steps and reset -/

/-- Settles O1. -/
theorem stepRunsTheFrontCommand : Obligations.StepRunsTheFrontCommand := by
  intro s c rest
  refine ⟨fun h => ?_, rfl⟩
  rw [step, h]

end Sys2Proof.Machine

end

/-! ## Ouvta words: decode of encode and encode of decode (R73 to R75, R101) -/

section

namespace Sys2Proof.Machine

/-! ### Fields that hold a number -/

theorem shiftField (k : BitVec 5) : k.toNat % 262144 = k.toNat := by omega

theorem fmacField (c : Fin 8) : c.val * 1024 % 16384 = c.val * 1024 := by omega

theorem fmacField_reg (c : Fin 8) : BitVec.ofNat 4 (c.val * 1024 / 1024) = regField c := by
  rw [Nat.mul_div_cancel _ (by decide), regField]

theorem ofNat_eq_regField {n : Nat} (c : Fin n) : BitVec.ofNat 4 c.val = regField c := rfl

theorem ldgmField (p : BitVec 6) : p.toNat % 16384 = p.toNat ∧ (p.toNat + 64) % 16384 = p.toNat + 64 := by omega

theorem ofNat_toNat_add_sixtyFour (p : BitVec 6) : BitVec.ofNat 6 (p.toNat + 64) = p := by
  apply BitVec.eq_of_toNat_eq
  rw [BitVec.toNat_ofNat]
  omega

theorem evtField (c : BitVec 2) (k : BitVec 12) : (c.toNat * 4096 + k.toNat) % 16384 = c.toNat * 4096 + k.toNat := by omega

theorem evtField_class (c : BitVec 2) (k : BitVec 12) : BitVec.ofNat 2 ((c.toNat * 4096 + k.toNat) / 4096) = c := by
  apply BitVec.eq_of_toNat_eq
  rw [BitVec.toNat_ofNat]
  omega

theorem evtField_code (c : BitVec 2) (k : BitVec 12) : BitVec.ofNat 12 (c.toNat * 4096 + k.toNat) = k := by
  apply BitVec.eq_of_toNat_eq
  rw [BitVec.toNat_ofNat]
  omega

/-! ### The fields of a word that is given by its fields -/

theorem fields_of_fmtA {op : BitVec 6} {a b c : BitVec 4} {fn : BitVec 14} {w : Word} (h : fmtA op a b c fn = w) :
    (ouOp w).toNat = op.toNat ∧ ouA w = a ∧ ouB w = b ∧ ouC w = c ∧ ouFn w = fn := by
  subst h
  simp

theorem fields_of_fmtK {op : BitVec 6} {a b : BitVec 4} {k : BitVec 18} {w : Word} (h : fmtK op a b k = w) :
    (ouOp w).toNat = op.toNat ∧ ouA w = a ∧ ouB w = b ∧ ouImm w = k := by
  subst h
  simp

theorem fields_of_fmtW {op : BitVec 6} {a : BitVec 4} {k : BitVec 22} {w : Word} (h : fmtW op a k = w) :
    (ouOp w).toNat = op.toNat ∧ ouA w = a ∧ ouWide w = k := by
  subst h
  simp

/-! ### Decode of encode -/

/-- Settles O23: by cases of the instruction, each word decoded field by field; a command that is no instruction has no word. -/
theorem ouvtaDecodeOfEncode : Obligations.OuvtaDecodeOfEncode := by
  intro i w h
  cases i
  case add t d a b | sub t d a b | and t d a b | or t d a b | xor t d a b | shl t d a b | shr t d a b | shra t d a b | tlt t d a b
      | tlo t d a b | adds t d a b | subs t d a b | min t d a b | max t d a b =>
    obtain ⟨hop, hA, hB, hC, hF⟩ := fields_of_fmtA (Option.some.inj h)
    exact ⟨t, .clean, by simp [decodeOuvta, hop, hA, hB, hC, hF, decInt, withXxx]⟩
  case mul t d a b | mhs t d a b | mhu t d a b | quo t d a b | quou t d a b | mod t d a b | modu t d a b =>
    obtain ⟨hop, hA, hB, hC, hF⟩ := fields_of_fmtA (Option.some.inj h)
    exact ⟨t, .clean, by simp [decodeOuvta, hop, hA, hB, hC, hF, decMul, withXxx]⟩
  case addk t d a k | andk t d a k | ork t d a k | xork t d a k | tltk t d a k | tlok t d a k | callr t d a k | portIn t d a k
      | ifeq t d a k | ifne t d a k | iflt t d a k | ifge t d a k | iflo t d a k | ifhs t d a k | stw t d a k | sth t d a k
      | stb t d a k | portOut t d a k =>
    obtain ⟨hop, hA, hB, hI⟩ := fields_of_fmtK (Option.some.inj h)
    exact ⟨t, .clean, by simp [decodeOuvta, hop, hA, hB, hI, withXxk]⟩
  case shlk t d a k | shrk t d a k | shrak t d a k =>
    obtain ⟨hop, hA, hB, hI⟩ := fields_of_fmtK (Option.some.inj h)
    exact ⟨t, .clean, by simp [decodeOuvta, hop, hA, hB, hI, withShift, ifZero, shiftField, k.isLt]⟩
  case khi t d k | call t d k =>
    obtain ⟨hop, hA, hI⟩ := fields_of_fmtW (Option.some.inj h)
    exact ⟨t, .clean, by simp [decodeOuvta, hop, hA, hI]⟩
  case ldw t d a k e | ldh t d a k e | ldhu t d a k e | ldb t d a k e | ldbu t d a k e =>
    obtain ⟨hop, hA, hB, hI⟩ := fields_of_fmtK (Option.some.inj h)
    exact ⟨t, e, by simp [decodeOuvta, hop, hA, hB, hI, withXxk]⟩
  case ldf t d a k e =>
    obtain ⟨hop, hA, hB, hI⟩ := fields_of_fmtK (Option.some.inj h)
    exact ⟨t, e, by simp [decodeOuvta, hop, hA, hB, hI, decLdf]⟩
  case stf t a b k =>
    obtain ⟨hop, hA, hB, hI⟩ := fields_of_fmtK (Option.some.inj h)
    exact ⟨t, .clean, by simp [decodeOuvta, hop, hA, hB, hI, decStf]⟩
  case addm t d a b e =>
    obtain ⟨hop, hA, hB, hC, hF⟩ := fields_of_fmtA (Option.some.inj h)
    exact ⟨t, e, by simp [decodeOuvta, hop, hA, hB, hC, hF, withXxx, ifZero]⟩
  case wait t d a b | pick t d a b =>
    obtain ⟨hop, hA, hB, hC, hF⟩ := fields_of_fmtA (Option.some.inj h)
    exact ⟨t, .clean, by simp [decodeOuvta, hop, hA, hB, hC, hF, withXxx, ifZero]⟩
  case fadd t d a b | fsub t d a b | fmul t d a b | fdiv t d a b | fmin t d a b | fmax t d a b | flim t d a b =>
    obtain ⟨hop, hA, hB, hC, hF⟩ := fields_of_fmtA (Option.some.inj h)
    exact ⟨t, .clean, by simp [decodeOuvta, hop, hA, hB, hC, hF, decFloat, withFff]⟩
  case fceq t d a b | fclt t d a b | fcle t d a b =>
    obtain ⟨hop, hA, hB, hC, hF⟩ := fields_of_fmtA (Option.some.inj h)
    exact ⟨t, .clean, by simp [decodeOuvta, hop, hA, hB, hC, hF, decFloat, withXff]⟩
  case fsqrt t d a | fabs t d a | fneg t d a =>
    obtain ⟨hop, hA, hB, hC, hF⟩ := fields_of_fmtA (Option.some.inj h)
    exact ⟨t, .clean, by simp [decodeOuvta, hop, hA, hB, hC, hF, decFloat, withFf, ifZero]⟩
  case fitof t d a | futof t d a | fmovf t d a =>
    obtain ⟨hop, hA, hB, hC, hF⟩ := fields_of_fmtA (Option.some.inj h)
    exact ⟨t, .clean, by simp [decodeOuvta, hop, hA, hB, hC, hF, decFloat, withFx, ifZero]⟩
  case fmovx t d a =>
    obtain ⟨hop, hA, hB, hC, hF⟩ := fields_of_fmtA (Option.some.inj h)
    exact ⟨t, .clean, by simp [decodeOuvta, hop, hA, hB, hC, hF, decFloat, withXf, ifZero]⟩
  case fftoi t d a z | fftou t d a z =>
    obtain ⟨hop, hA, hB, hC, hF⟩ := fields_of_fmtA (Option.some.inj h)
    refine ⟨t, .clean, ?_⟩
    cases z <;> simp [decodeOuvta, hop, hA, hB, hC, hF, decFloat, withXf, ifZero]
  case fmac t d a b c =>
    obtain ⟨hop, hA, hB, hC, hF⟩ := fields_of_fmtA (Option.some.inj h)
    exact ⟨t, .clean, by simp [decodeOuvta, hop, hA, hB, hC, hF, decFmac, withFff, fmacField, fmacField_reg, ofNat_eq_regField]⟩
  case ldgm t d a b p o =>
    obtain ⟨hop, hA, hB, hC, hF⟩ := fields_of_fmtA (Option.some.inj h)
    refine ⟨t, .clean, ?_⟩
    have hp : p.toNat < 64 := p.isLt
    cases o with
    | false =>
      have hz : p.toNat < 128 := by omega
      simp [decodeOuvta, hop, hA, hB, hC, hF, withXxx, ifZero, ldgmField, hp, hz]
    | true =>
      have hz : p.toNat + 64 < 128 := by omega
      simp [decodeOuvta, hop, hA, hB, hC, hF, withXxx, ifZero, ldgmField, hz, ofNat_toNat_add_sixtyFour]
  case evt t a c k =>
    obtain ⟨hop, hA, hB, hC, hF⟩ := fields_of_fmtA (Option.some.inj h)
    exact ⟨t, .clean, by simp [decodeOuvta, hop, hA, hB, hC, hF, ifZero, evtField, evtField_class, evtField_code]⟩
  case sig t a k =>
    obtain ⟨hop, hA, hB, hI⟩ := fields_of_fmtK (Option.some.inj h)
    exact ⟨t, .clean, by simp [decodeOuvta, hop, hA, hB, hI, ifZero]⟩
  case tsc t d | tickn t d | tcyc t d | mova t d | setdl t d =>
    obtain ⟨hop, hA, hB, hC, hF⟩ := fields_of_fmtA (Option.some.inj h)
    exact ⟨t, .clean, by simp [decodeOuvta, hop, hA, hB, hC, hF, decAux, ifZero]⟩
  case setdla t a b =>
    obtain ⟨hop, hA, hB, hC, hF⟩ := fields_of_fmtA (Option.some.inj h)
    exact ⟨t, .clean, by simp [decodeOuvta, hop, hA, hB, hC, hF, decAux, ifZero]⟩
  case brk t =>
    obtain ⟨hop, hA, hB, hC, hF⟩ := fields_of_fmtA (Option.some.inj h)
    exact ⟨t, .clean, by simp [decodeOuvta, hop, hA, hB, hC, hF, decAux, ifZero]⟩
  all_goals nomatch h

end Sys2Proof.Machine

end

/-! ## Ouvta words: encode of decode (R75, R101) -/

section

namespace Sys2Proof.Machine

variable {w : Word}

/-! ### A word is the word of its fields -/

theorem encRrr_of_fields {a b c : Nat} {op : BitVec 6} {fn : BitVec 14} {rd : Fin a} {rs1 : Fin b} {rs2 : Fin c}
    (hop : (ouOp w).toNat = op.toNat) (hfn : (ouFn w).toNat = fn.toNat) (hA : regField rd = ouA w) (hB : regField rs1 = ouB w)
    (hC : regField rs2 = ouC w) : encRrr op fn rd rs1 rs2 = some w := by
  rw [encRrr, hA, hB, hC, ← BitVec.eq_of_toNat_eq hop, ← BitVec.eq_of_toNat_eq hfn, fmtA_fields]

theorem encRr_of_fields {a b : Nat} {op : BitVec 6} {fn : BitVec 14} {rd : Fin a} {rs1 : Fin b}
    (hop : (ouOp w).toNat = op.toNat) (hfn : (ouFn w).toNat = fn.toNat) (hA : regField rd = ouA w) (hB : regField rs1 = ouB w)
    (hC : ouC w = 0#4) : encRr op fn rd rs1 = some w := by
  rw [encRr, hA, hB, ← hC, ← BitVec.eq_of_toNat_eq hop, ← BitVec.eq_of_toNat_eq hfn, fmtA_fields]

theorem encRrk_of_fields {a b : Nat} {op : BitVec 6} {r1 : Fin a} {r2 : Fin b} {k : BitVec 18}
    (hop : (ouOp w).toNat = op.toNat) (hA : regField r1 = ouA w) (hB : regField r2 = ouB w) (hK : k = ouImm w) :
    encRrk op r1 r2 k = some w := by
  rw [encRrk, hA, hB, hK, ← BitVec.eq_of_toNat_eq hop, fmtK_fields]

theorem fmtA_of_fields {op : BitVec 6} {a b c : BitVec 4} {fn : BitVec 14} (hop : (ouOp w).toNat = op.toNat)
    (hfn : (ouFn w).toNat = fn.toNat) (hA : a = ouA w) (hB : b = ouB w) (hC : c = ouC w) : some (fmtA op a b c fn) = some w := by
  rw [hA, hB, hC, ← BitVec.eq_of_toNat_eq hop, ← BitVec.eq_of_toNat_eq hfn, fmtA_fields]

theorem fmtK_of_fields {op : BitVec 6} {a b : BitVec 4} {k : BitVec 18} (hop : (ouOp w).toNat = op.toNat) (hA : a = ouA w)
    (hB : b = ouB w) (hK : k = ouImm w) : some (fmtK op a b k) = some w := by
  rw [hA, hB, hK, ← BitVec.eq_of_toNat_eq hop, fmtK_fields]

theorem fmtW_of_fields {op : BitVec 6} {a : BitVec 4} {k : BitVec 22} (hop : (ouOp w).toNat = op.toNat) (hA : a = ouA w)
    (hK : k = ouWide w) : some (fmtW op a k) = some w := by
  rw [hA, hK, ← BitVec.eq_of_toNat_eq hop, fmtW_fields]

/-! ### The shapes of operands -/

theorem ifZero_eq_some {z : Bool} {i j : Instr} : ifZero z i = some j ↔ z = true ∧ i = j := by
  unfold ifZero
  split <;> simp_all

theorem withFff_eq_some {k : Fin 8 → Fin 8 → Fin 8 → Instr} {i : Instr} (h : withFff w k = some i) :
    ∃ d a b, i = k d a b ∧ regField d = ouA w ∧ regField a = ouB w ∧ regField b = ouC w := by
  unfold withFff at h
  split at h
  case h_1 d a b hd ha hb => exact ⟨d, a, b, (Option.some.inj h).symm, regField_fReg hd, regField_fReg ha, regField_fReg hb⟩
  case h_2 => cases h

theorem withFf_eq_some {k : Fin 8 → Fin 8 → Instr} {i : Instr} (h : withFf w k = some i) :
    ∃ d a, i = k d a ∧ regField d = ouA w ∧ regField a = ouB w ∧ ouC w = 0#4 := by
  unfold withFf at h
  split at h
  case h_1 d a hd ha =>
    obtain ⟨hz, rfl⟩ := ifZero_eq_some.1 h
    exact ⟨d, a, rfl, regField_fReg hd, regField_fReg ha, eq_of_beq hz⟩
  case h_2 => cases h

theorem withXff_eq_some {k : Fin 16 → Fin 8 → Fin 8 → Instr} {i : Instr} (h : withXff w k = some i) :
    ∃ a b, i = k (xReg (ouA w)) a b ∧ regField a = ouB w ∧ regField b = ouC w := by
  unfold withXff at h
  split at h
  case h_1 a b ha hb => exact ⟨a, b, (Option.some.inj h).symm, regField_fReg ha, regField_fReg hb⟩
  case h_2 => cases h

theorem withFx_eq_some {k : Fin 8 → Fin 16 → Instr} {i : Instr} (h : withFx w k = some i) :
    ∃ d, i = k d (xReg (ouB w)) ∧ regField d = ouA w ∧ ouC w = 0#4 := by
  unfold withFx at h
  split at h
  case h_1 d hd =>
    obtain ⟨hz, rfl⟩ := ifZero_eq_some.1 h
    exact ⟨d, rfl, regField_fReg hd, eq_of_beq hz⟩
  case h_2 => cases h

theorem withXf_eq_some {k : Fin 16 → Fin 8 → Instr} {i : Instr} (h : withXf w k = some i) :
    ∃ a, i = k (xReg (ouA w)) a ∧ regField a = ouB w ∧ ouC w = 0#4 := by
  unfold withXf at h
  split at h
  case h_1 a ha =>
    obtain ⟨hz, rfl⟩ := ifZero_eq_some.1 h
    exact ⟨a, rfl, regField_fReg ha, eq_of_beq hz⟩
  case h_2 => cases h

theorem shift_of_lt (h : (ouImm w).toNat < 32) : BitVec.ofNat 18 (BitVec.ofNat 5 (ouImm w).toNat).toNat = ouImm w := by
  apply BitVec.eq_of_toNat_eq
  simp only [BitVec.toNat_ofNat]
  omega

theorem withShift_eq_some {k : Fin 16 → Fin 16 → BitVec 5 → Instr} {i : Instr} (h : withShift w k = some i) :
    ∃ n : BitVec 5, i = k (xReg (ouA w)) (xReg (ouB w)) n ∧ BitVec.ofNat 18 n.toNat = ouImm w := by
  obtain ⟨hz, rfl⟩ := ifZero_eq_some.1 h
  exact ⟨_, rfl, shift_of_lt (of_decide_eq_true hz)⟩

/-! ### The opcodes that share a function field -/

theorem encode_decInt {t : Fin 16} {i : Instr} (hop : (ouOp w).toNat = 0x01) (h : decInt t w = some i) : encodeOuvta i = some w := by
  unfold decInt at h
  split at h
  case h_15 => cases h
  all_goals
    rename_i hfn
    obtain rfl := Option.some.inj h
    exact encRrr_of_fields hop hfn (regField_xReg _) (regField_xReg _) (regField_xReg _)

theorem encode_decMul {t : Fin 16} {i : Instr} (hop : (ouOp w).toNat = 0x02) (h : decMul t w = some i) : encodeOuvta i = some w := by
  unfold decMul at h
  split at h
  case h_8 => cases h
  all_goals
    rename_i hfn
    obtain rfl := Option.some.inj h
    exact encRrr_of_fields hop hfn (regField_xReg _) (regField_xReg _) (regField_xReg _)

theorem encode_decFloat {t : Fin 16} {i : Instr} (hop : (ouOp w).toNat = 0x28) (h : decFloat t w = some i) :
    encodeOuvta i = some w := by
  unfold decFloat at h
  split at h <;> rename_i hfn
  case h_1 | h_2 | h_3 | h_4 | h_6 | h_7 | h_19 =>
    obtain ⟨d, a, b, rfl, hd, ha, hb⟩ := withFff_eq_some h
    exact encRrr_of_fields hop hfn hd ha hb
  case h_5 | h_8 | h_9 =>
    obtain ⟨d, a, rfl, hd, ha, hc⟩ := withFf_eq_some h
    exact encRr_of_fields hop hfn hd ha hc
  case h_10 | h_11 | h_12 =>
    obtain ⟨a, b, rfl, ha, hb⟩ := withXff_eq_some h
    exact encRrr_of_fields hop hfn (regField_xReg _) ha hb
  case h_13 | h_14 | h_18 =>
    obtain ⟨d, rfl, hd, hc⟩ := withFx_eq_some h
    exact encRr_of_fields hop hfn hd (regField_xReg _) hc
  case h_15 | h_16 | h_17 | h_20 | h_21 =>
    obtain ⟨a, rfl, ha, hc⟩ := withXf_eq_some h
    exact encRr_of_fields hop hfn (regField_xReg _) ha hc
  case h_22 => cases h

theorem fmac_field {c : Fin 8} (hz : (ouFn w).toNat % 1024 = 0)
    (hc : fReg (BitVec.ofNat 4 ((ouFn w).toNat / 1024)) = some c) : (ouFn w).toNat = (BitVec.ofNat 14 (c.val * 1024)).toNat := by
  have h := congrArg BitVec.toNat (regField_fReg hc)
  have := (ouFn w).isLt
  simp only [regField, BitVec.toNat_ofNat] at h ⊢
  omega

theorem encode_decFmac {t : Fin 16} {i : Instr} (hop : (ouOp w).toNat = 0x29) (h : decFmac t w = some i) :
    encodeOuvta i = some w := by
  unfold decFmac at h
  split at h
  case h_1 c hc =>
    split at h
    case isTrue hz =>
      obtain ⟨d, a, b, rfl, hd, ha, hb⟩ := withFff_eq_some h
      exact encRrr_of_fields hop (fmac_field hz hc) hd ha hb
    case isFalse => cases h
  case h_2 => cases h

theorem encode_decAux {t : Fin 16} {i : Instr} (hop : (ouOp w).toNat = 0x3D) (h : decAux t w = some i) : encodeOuvta i = some w := by
  unfold decAux at h
  split at h <;> rename_i hfn
  case h_8 => cases h
  all_goals
    obtain ⟨hz, rfl⟩ := ifZero_eq_some.1 h
    simp only [Bool.and_eq_true, beq_iff_eq] at hz
  case h_1 | h_2 | h_3 | h_4 =>
    exact fmtA_of_fields hop hfn (regField_xReg _) hz.1.symm hz.2.symm
  case h_5 => exact fmtA_of_fields hop hfn hz.1.symm (regField_xReg _) hz.2.symm
  case h_6 => exact fmtA_of_fields hop hfn hz.symm (regField_xReg _) (regField_xReg _)
  case h_7 => exact fmtA_of_fields hop hfn hz.1.1.symm hz.1.2.symm hz.2.symm

theorem encode_decLdf {t : Fin 16} {e : Ecc} {i : Instr} (hop : (ouOp w).toNat = 0x15) (h : decLdf t e w = some i) :
    encodeOuvta i = some w := by
  unfold decLdf at h
  split at h
  case h_1 d hd =>
    obtain rfl := Option.some.inj h
    exact encRrk_of_fields hop (regField_fReg hd) (regField_xReg _) rfl
  case h_2 => cases h

theorem encode_decStf {t : Fin 16} {i : Instr} (hop : (ouOp w).toNat = 0x1B) (h : decStf t w = some i) : encodeOuvta i = some w := by
  unfold decStf at h
  split at h
  case h_1 b hb =>
    obtain rfl := Option.some.inj h
    exact encRrk_of_fields hop (regField_xReg _) (regField_fReg hb) rfl
  case h_2 => cases h

/-! ### LDGM and EVT -/

theorem ldgm_field (h : (ouFn w).toNat < 128) : (ouFn w).toNat
    = (BitVec.ofNat 14 ((BitVec.ofNat 6 (ouFn w).toNat).toNat + if decide (64 ≤ (ouFn w).toNat) = true then 64 else 0)).toNat := by
  simp only [BitVec.toNat_ofNat, decide_eq_true_eq]
  split <;> omega

theorem evt_field : (ouFn w).toNat = (BitVec.ofNat 14 ((BitVec.ofNat 2 ((ouFn w).toNat / 4096)).toNat * 4096
    + (BitVec.ofNat 12 (ouFn w).toNat).toNat)).toNat := by
  have := (ouFn w).isLt
  simp only [BitVec.toNat_ofNat]
  omega

/-- Settles O24: by cases of the opcode, each word put together again from the fields its decoding read. -/
theorem ouvtaEncodeOfDecode : Obligations.OuvtaEncodeOfDecode := by
  intro t e w i h
  unfold decodeOuvta at h
  split at h <;> rename_i hop
  case h_1 => exact encode_decInt hop h
  case h_2 => exact encode_decMul hop h
  case h_9 | h_10 | h_11 =>
    obtain ⟨n, rfl, hn⟩ := withShift_eq_some h
    exact encRrk_of_fields hop (regField_xReg _) (regField_xReg _) hn
  case h_12 | h_30 =>
    obtain rfl := Option.some.inj h
    exact fmtW_of_fields hop (regField_xReg _) rfl
  case h_18 => exact encode_decLdf hop h
  case h_22 => exact encode_decStf hop h
  case h_23 | h_36 | h_37 =>
    obtain ⟨hz, rfl⟩ := ifZero_eq_some.1 h
    exact encRrr_of_fields hop (congrArg BitVec.toNat (eq_of_beq hz)) (regField_xReg _) (regField_xReg _) (regField_xReg _)
  case h_32 => exact encode_decFloat hop h
  case h_33 => exact encode_decFmac hop h
  case h_38 =>
    obtain ⟨hz, rfl⟩ := ifZero_eq_some.1 h
    exact encRrr_of_fields hop (ldgm_field (of_decide_eq_true hz)) (regField_xReg _) (regField_xReg _) (regField_xReg _)
  case h_39 =>
    obtain ⟨hz, rfl⟩ := ifZero_eq_some.1 h
    simp only [Bool.and_eq_true, beq_iff_eq] at hz
    exact fmtA_of_fields hop evt_field hz.1.symm (regField_xReg _) hz.2.symm
  case h_40 =>
    obtain ⟨hz, rfl⟩ := ifZero_eq_some.1 h
    exact fmtK_of_fields hop (eq_of_beq hz).symm (regField_xReg _) rfl
  case h_41 => exact encode_decAux hop h
  case h_42 => cases h
  all_goals
    obtain rfl := Option.some.inj h
    exact encRrk_of_fields hop (regField_xReg _) (regField_xReg _) rfl

end Sys2Proof.Machine

end

/-! ## An idle cycle counts the main clock (R15) -/

section

namespace Sys2Proof.Machine

/-! ### What keeps TSC -/

theorem foldl_tsc {α : Type} (l : List α) (f : State → α → State) (s : State) (h : ∀ a x, (f a x).tsc = a.tsc) :
    (l.foldl f s).tsc = s.tsc := by
  induction l generalizing s with
  | nil => rfl
  | cons x r ih => exact (ih _).trans (h s x)

@[simp] theorem markUnsigned_tsc (s : State) : s.markUnsigned.tsc = s.tsc := tsc_of_outer (State.markUnsigned_outer s)

@[simp] theorem serveAcc_tsc (s : State) (h : HostAcc) : (s.serveAcc h).tsc = s.tsc := by
  unfold State.serveAcc
  dsimp only
  split
  · rfl
  · split
    · exact markUnsigned_tsc _
    · rfl

@[simp] theorem serveMem_tsc (q : List HostAcc) (s : State) : (serveMem q s).tsc = s.tsc := by
  induction q generalizing s with
  | nil => rfl
  | cons h r ih =>
    unfold serveMem
    dsimp only
    split
    · rw [ih, serveAcc_tsc]
    · split
      · exact serveAcc_tsc _ _
      · rfl

@[simp] theorem hostMem_tsc (s : State) (h : HostAcc) : (s.hostMem h).tsc = s.tsc := by
  unfold State.hostMem
  dsimp only
  split
  · exact serveMem_tsc _ _
  · rfl

@[simp] theorem windowWrite_tsc (s : State) (x : Window) (l : List (Nat × Byte)) : (s.windowWrite x l).tsc = s.tsc := by
  cases x with
  | pmem =>
    change (s.pmemWrite l).tsc = s.tsc
    unfold State.pmemWrite
    split
    · exact hostMem_tsc _ _
    · exact tsc_of_outer (by simp)
  | dmem =>
    change (s.dmemHostWrite l).tsc = s.tsc
    unfold State.dmemHostWrite
    split
    · exact hostMem_tsc _ _
    · exact tsc_of_outer (by simp)
  | coef => rfl
  | expo => rfl
  | capture => rfl

@[simp] theorem setFuse_tsc (s : State) (f : Fuses) : (s.setFuse f).tsc = s.tsc :=
  (tsc_of_outer (State.fuseFollow_outer _)).trans rfl

@[simp] theorem refuse_tsc (s : State) (off : Nat) : (s.refuse off).tsc = s.tsc := tsc_of_outer (State.refuse_outer ..)

theorem rootRevoke_tsc (s : State) (w : Word) : (s.rootRevoke w).tsc = s.tsc := by
  unfold State.rootRevoke
  dsimp only
  (repeat' split) <;> simp

theorem secProv_tsc (s : State) (op : Nat) (slot : Fin 4) (key : Nat) (readback : Bool) :
    (s.secProv op slot key readback).tsc = s.tsc := by
  have burnt : ∀ (a : State) f r, ((a.setFuse f).putF F.SEC_PROV_RESULT_RESULT r).tsc = a.tsc := fun a f r => setFuse_tsc a f
  have drawn : ∀ f r, ((s.drew.setFuse f).putF F.SEC_PROV_RESULT_RESULT r).tsc = s.tsc := fun f r => burnt s.drew f r
  have no : (s.refuse R.SEC_PROV).tsc = s.tsc := refuse_tsc ..
  have result : ∀ r, (s.putF F.SEC_PROV_RESULT_RESULT r).tsc = s.tsc := fun _ => rfl
  unfold State.secProv
  dsimp only
  split
  · exact no
  · split
    · split
      · exact no
      · split
        · exact result 3
        · split
          · exact drawn _ _
          · exact drawn _ _
    · split
      · split
        · exact no
        · split
          · exact burnt _ _ _
          · exact result 2
      · split
        · split
          · exact no
          · split
            · exact burnt _ _ _
            · exact result 2
        · exact no

theorem regWrite_tsc (s : State) (p : Port) (off : Nat) (w : Word) : (s.regWrite p off w).tsc = s.tsc := by
  have sec : (s.writeSec off w).tsc = s.tsc := by
    unfold State.writeSec
    split
    · exact (secProv_tsc _ _ _ _ _).trans rfl
    · split
      · exact rootRevoke_tsc _ _
      · refine tsc_of_outer ?_
        (repeat' split) <;> simp
  unfold State.regWrite
  split
  case h_17 => exact sec
  all_goals
    refine tsc_of_outer ?_
    (repeat' split) <;> simp

theorem busWrite_tsc (s : State) (p : Port) (addr : Nat) (en : BitVec 4) (w : Word) : (s.busWrite p addr en w).tsc = s.tsc := by
  unfold State.busWrite
  extract_lets a l b
  have hb : b.tsc = s.tsc := by
    simp only [b]
    cases l with
    | nil => rfl
    | cons x r => exact windowWrite_tsc _ _ _
  clear_value b
  refine (foldl_tsc _ _ _ fun c x => ?_).trans hb
  split
  · rfl
  · split
    · exact tsc_of_outer (by simp)
    · split
      · exact regWrite_tsc _ _ _ _
      · rfl

/-! ### Instructions take no time of their own -/

theorem perform_tsc (s : State) (t : Fin 16) (c : Nat) (run : State → State) (h : ∀ a : State, (run a).tsc = a.tsc) :
    (s.perform t c run).tsc = s.tsc := by
  unfold State.perform
  split
  · exact (tsc_of_outer (State.setPc_outer ..)).trans ((h _).trans (tsc_of_outer (State.charge_outer ..)))
  · rfl

theorem store_tsc (s : State) (t rs1 : Fin 16) (imm : BitVec 18) (n : Nat) (v : Word) : (s.store t rs1 imm n v).tsc = s.tsc := by
  unfold State.store
  dsimp only
  split
  · exact tsc_of_outer (by simp)
  · exact perform_tsc _ _ _ _ fun a => rfl

theorem execAddm_tsc (t rd rs1 rs2 : Fin 16) (ecc : Ecc) (s : State) :
    ∃ u, execAddm t rd rs1 rs2 ecc s = .next u ∧ u.tsc = s.tsc := by
  refine ⟨_, rfl, ?_⟩
  dsimp only
  split
  · exact tsc_of_outer (by simp)
  · split
    · exact tsc_of_outer (by simp)
    · exact perform_tsc _ _ _ _ fun a =>
        (tsc_of_outer (State.wx_outer ..)).trans (tsc_of_outer (State.eccCount_outer a ecc) :)

theorem execPortOut_tsc (t rs1 rs2 : Fin 16) (imm : BitVec 18) (s : State) :
    ∃ u, execPortOut t rs1 rs2 imm s = .next u ∧ u.tsc = s.tsc := by
  refine ⟨_, rfl, ?_⟩
  dsimp only
  split
  · exact tsc_of_outer (by simp)
  · exact perform_tsc _ _ _ _ fun a => busWrite_tsc _ _ _ _ _

/-- No Ouvta instruction moves TSC: the stores, ADDM and OUT write memory, all others leave the outer state. -/
theorem exec_tsc_of_encode {i : Instr} {w : Word} (s : State) (h : encodeOuvta i = some w) :
    ∃ u, exec i s = .next u ∧ u.tsc = s.tsc := by
  cases i
  case stw | sth | stb | stf => exact ⟨_, rfl, store_tsc _ _ _ _ _ _⟩
  case addm => exact execAddm_tsc ..
  case portOut => exact execPortOut_tsc ..
  case add | sub | and | or | xor | shl | shr | shra | tlt | tlo | adds | subs | min | max | mul | mhs | mhu | quo | quou | mod
      | modu | addk | andk | ork | xork | tltk | tlok | shlk | shrk | shrak | khi | ifeq | ifne | iflt | ifge | iflo | ifhs
      | call | callr | ldw | ldh | ldhu | ldb | ldbu | ldf | fadd | fsub | fmul | fdiv | fmin | fmax | flim | fceq | fclt
      | fcle | fsqrt | fabs | fneg | fitof | futof | fftoi | fftou | fmovx | fmovf | fmac | portIn | wait | pick | evt | sig
      | tsc | tickn | tcyc | mova | setdl | setdla | brk =>
    exact ⟨_, rfl, tsc_of_outer (by simp)⟩
  case ldgm =>
    refine ⟨_, rfl, tsc_of_outer ?_⟩
    dsimp only
    split <;> simp
  all_goals nomatch h

theorem runInstr_tsc (s : State) (t : Fin 16) {i : Option Instr} (h : ∀ j, i = some j → ∃ w, encodeOuvta j = some w) :
    (s.take (s.runInstr t i)).tsc = s.tsc := by
  cases i with
  | none =>
    refine tsc_of_outer ?_
    change (s.take (execUndefinedEncoding t .clean s)).outer = s.outer
    unfold execUndefinedEncoding
    (repeat' split) <;> simp
  | some j =>
    obtain ⟨w, hw⟩ := h j rfl
    obtain ⟨u, hu, ht⟩ := exec_tsc_of_encode s hw
    change (s.take (exec j s)).tsc = s.tsc
    rw [hu]
    exact ht

theorem nextInstr_encodes {s : State} {t : Fin 16} (j : Instr) (h : s.nextInstr t = some j) : ∃ w, encodeOuvta j = some w :=
  ⟨_, ouvtaEncodeOfDecode _ _ _ _ h⟩

theorem grantTo_tsc (s : State) (t : Fin 16) : (s.grantTo t).tsc = s.tsc := by
  unfold State.grantTo
  extract_lets h q a i b c
  split
  · rfl
  · split
    · exact runInstr_tsc b t nextInstr_encodes
    · split
      · exact runInstr_tsc a t nextInstr_encodes
      · rfl

theorem issuePort_tsc (s : State) : s.issuePort.tsc = s.tsc := by
  unfold State.issuePort
  split
  · exact grantTo_tsc _ _
  · rfl

/-! ### The cycle -/

@[simp] theorem setTsc_tsc (s : State) (n : BitVec 64) : (s.setTsc n).tsc = n := by
  unfold State.setTsc
  split
  next h => exact h.symm
  next => rfl

theorem cycleBegins_tsc (s : State) : s.cycleBegins.tsc = s.tsc := by
  unfold State.cycleBegins
  extract_lets a
  have ha : a.tsc = s.tsc := tsc_of_outer (by
    simp only [a]
    split
    · simp
    · split <;> simp)
  clear_value a
  split
  · rw [serveMem_tsc, ha]
  · exact ha

theorem clock_tsc {s : State} (hc : s.psq.core = true) (hp : s.psq.pll = true) (h : s.tsc.toNat % 4000 ≠ 3999) :
    s.clock.tsc = s.tsc + 1#64 := by
  have hrun : (s.psq.core && s.psq.pll && s.cycle != 3999) = true := by
    rw [hc, hp]
    simpa [State.cycle] using h
  unfold State.clock
  rw [if_pos hrun]
  extract_lets a b c
  have hc : c.tsc = s.tsc := by
    rw [show c.tsc = s.issuePort.tsc from tsc_of_outer (by simp [c, b, a]), issuePort_tsc]
  rw [cycleBegins_tsc, setTsc_tsc, hc]

theorem clock_stands {s : State} (h : s.psq.core = false ∨ s.psq.pll = false ∨ s.tsc.toNat % 4000 = 3999) : s.clock = s := by
  have hstop : ¬ (s.psq.core && s.psq.pll && s.cycle != 3999) = true := by
    rcases h with h | h | h <;> simp [State.cycle, h]
  unfold State.clock
  rw [if_neg hstop]

/-- Settles O2: the cycle keeps the queue and counts TSC by one where it runs at all. -/
theorem idleStepsCountTheMainClock : Obligations.IdleStepsCountTheMainClock := by
  intro s hs
  have hstep : step s = .next s.clock := by rw [step, hs]
  refine ⟨fun hc hp h => ⟨_, hstep, clock_tsc hc hp h, ?_⟩, fun h => ?_⟩
  · rw [(clock_keeps s).1, hs]
  · rw [hstep, clock_stands h]

/-! ### Reset -/

/-- Settles O3: no register word is held at reset, so each reads its reset word; the boost words are four fields of one of them. -/
theorem resetLeavesTheStatedState : Obligations.ResetLeavesTheStatedState := by
  refine ⟨rfl, rfl, fun _ => rfl, by decide, reset_mem_wf, rfl, fun _ => rfl, by decide⟩

end Sys2Proof.Machine

end

/-! ## The ledger's identity (R375) -/

section

namespace Sys2Proof.Machine

/-! ### The identifiers of the engine's sheets -/

/-- The identifiers of the sheets that the identity counts, in the ledger's order. -/
def engineIds (shs : List Sheet) : List Word := (shs.filter fun sh => sh.place.inEngine).map Sheet.id

/-- The identity and the uniqueness of identifiers, by the identifiers alone. -/
theorem auditOk_iff (l : Ledger) : l.auditOk = true ↔
    l.picked + l.handedIn = l.delivered + l.purged + l.handedOut + (engineIds l.sheets).length ∧ (engineIds l.sheets).Nodup := by
  simp [Ledger.auditOk, Ledger.pop, engineIds]

@[simp] theorem engineIds_append (a b : List Sheet) : engineIds (a ++ b) = engineIds a ++ engineIds b := by
  simp [engineIds]

theorem mem_engineIds {shs : List Sheet} {id : Word} :
    id ∈ engineIds shs ↔ ∃ x ∈ shs, x.place.inEngine = true ∧ x.id = id := by
  simp [engineIds, and_assoc]

/-- A change of records that keeps identifiers and keeps each record in the engine, or out of it, keeps the identifiers. -/
theorem engineIds_mapIf (p : Sheet → Bool) (f : Sheet → Sheet) (shs : List Sheet)
    (h : ∀ x ∈ shs, p x = true → (f x).id = x.id ∧ (f x).place.inEngine = x.place.inEngine) :
    engineIds (mapIf p f shs) = engineIds shs := by
  unfold engineIds mapIf
  induction shs with
  | nil => rfl
  | cons x r ih =>
    have hr := ih fun y hy => h y (List.mem_cons_of_mem x hy)
    have hx := h x List.mem_cons_self
    by_cases hp : p x = true
    · obtain ⟨hid, hin⟩ := hx hp
      cases hx : x.place.inEngine <;> simp_all
    · cases hx : x.place.inEngine <;> simp_all

/-- Passing over held identifiers changes neither the records nor the counts. -/
theorem auditOk_skipHeld (l : Ledger) : l.skipHeld.auditOk = l.auditOk := by
  unfold Ledger.skipHeld
  split <;> rfl

/-! ### The transitions -/

variable {l : Ledger}

/-- A transition that changes records only, and as `engineIds_mapIf` asks, keeps the identity. -/
theorem auditOk_mapIf (p : Sheet → Bool) (f : Sheet → Sheet) (hl : l.auditOk = true)
    (h : ∀ x ∈ l.sheets, p x = true → (f x).id = x.id ∧ (f x).place.inEngine = x.place.inEngine) :
    ({ l with sheets := mapIf p f l.sheets } : Ledger).auditOk = true := by
  rw [auditOk_iff] at hl ⊢
  rwa [engineIds_mapIf p f l.sheets h]

theorem auditOk_update (id : Word) (f : Sheet → Sheet) (hl : l.auditOk = true)
    (h : ∀ x ∈ l.sheets, x.id = id → (f x).id = x.id ∧ (f x).place.inEngine = x.place.inEngine) :
    (l.update id f).auditOk = true :=
  auditOk_mapIf _ _ hl fun x hx hp => h x hx (eq_of_beq hp)

theorem auditOk_enter {sh : Sheet} (hl : l.auditOk = true) (hp : sh.place = .picked) (hn : ∀ x ∈ l.sheets, x.id ≠ sh.id) :
    (l.apply (.enter sh true)).auditOk = true := by
  have hsh : engineIds [sh] = [sh.id] := by simp [engineIds, hp, Place.inEngine]
  have hnew : sh.id ∉ engineIds l.sheets := fun hm => by
    obtain ⟨x, hx, -, hid⟩ := mem_engineIds.1 hm
    exact hn x hx hid
  rw [auditOk_iff] at hl ⊢
  obtain ⟨hsum, hnd⟩ := hl
  simp only [Ledger.apply, if_true, engineIds_append, hsh, List.length_append, List.length_singleton]
  refine ⟨by omega, List.nodup_append.2 ⟨hnd, List.nodup_singleton _, ?_⟩⟩
  rintro a ha b hb rfl
  exact hnew (List.mem_singleton.1 hb ▸ ha)

theorem engineIds_filter_id {id : Word} (shs : List Sheet) :
    engineIds (shs.filter fun x => x.id != id) = (engineIds shs).filter fun i => i != id := by
  simp only [engineIds, List.filter_map, List.filter_filter, Function.comp_def, Bool.and_comm]

/-- A held sheet of the engine is one identifier of it: taking its records out takes one identifier. -/
theorem auditOk_leave {id : Word} {z : Terminal} {sh : Sheet} (hl : l.auditOk = true) (hm : sh ∈ l.sheets) (hid : sh.id = id)
    (hin : sh.place.inEngine = true) : (l.apply (.leave id z)).auditOk = true := by
  have hmem : id ∈ engineIds l.sheets := mem_engineIds.2 ⟨sh, hm, hin, hid⟩
  rw [auditOk_iff] at hl
  obtain ⟨hsum, hnd⟩ := hl
  have hf : engineIds (l.sheets.filter fun x => x.id != id) = (engineIds l.sheets).erase id := by
    rw [engineIds_filter_id, hnd.erase_eq_filter]
  have hlen := List.length_erase_of_mem hmem
  have hpos := List.length_pos_of_mem hmem
  have hcount : l.picked + l.handedIn = l.delivered + l.purged + l.handedOut + ((engineIds l.sheets).erase id).length + 1 := by
    omega
  cases z <;> rw [auditOk_iff] <;> simp only [Ledger.apply, hf] <;> exact ⟨by omega, hnd.erase id⟩

/-- The path is stranded: a sheet in the path is in the engine, and so is a stranded one. -/
theorem auditOk_strand (keep : Bool) (hl : l.auditOk = true) : (l.apply (.strand keep)).auditOk = true := by
  refine auditOk_mapIf _ _ hl fun x _ hp => ⟨rfl, ?_⟩
  simp only [Bool.and_eq_true] at hp
  obtain ⟨hpath, -⟩ := hp
  cases hx : x.place <;> simp_all [Place.inPath, Place.inEngine]

theorem auditOk_purge (ids : List Word) (hl : l.auditOk = true) : (l.apply (.purge ids)).auditOk = true := by
  have hsplit : engineIds (l.sheets.filter fun sh => !(ids.contains sh.id && sh.place.inEngine))
      = (engineIds l.sheets).filter fun i => !ids.contains i := by
    simp only [engineIds, List.filter_map, List.filter_filter, Function.comp_def]
    congr 1
    refine List.filter_congr fun x _ => ?_
    cases x.place.inEngine <;> simp
  have hn : (l.sheets.filter fun sh => ids.contains sh.id && sh.place.inEngine).length
      = ((engineIds l.sheets).filter fun i => ids.contains i).length := by
    simp only [engineIds, List.filter_map, List.filter_filter, Function.comp_def, List.length_map]
  have hlen := (engineIds l.sheets).length_eq_length_filter_add fun i => ids.contains i
  rw [auditOk_iff] at hl ⊢
  obtain ⟨hsum, hnd⟩ := hl
  simp only [Ledger.apply, hsplit, hn]
  exact ⟨by omega, hnd.filter _⟩

theorem auditOk_pendIn {sh : Sheet} (hl : l.auditOk = true) (hp : sh.place = .pendingIn) : (l.apply (.pendIn sh)).auditOk = true := by
  have hsh : engineIds [sh] = [] := by simp [engineIds, hp, Place.inEngine]
  rw [show l.apply (.pendIn sh) = ({ l with sheets := l.sheets ++ [sh] } : Ledger).skipHeld from rfl, auditOk_skipHeld, auditOk_iff,
    engineIds_append, hsh, List.append_nil]
  exact (auditOk_iff l).1 hl

theorem auditOk_pendDel (id : Word) (hl : l.auditOk = true) : (l.apply (.pendDel id)).auditOk = true := by
  have hkeep : engineIds (l.sheets.filter fun sh => !(sh.place == .pendingIn && sh.id == id)) = engineIds l.sheets := by
    simp only [engineIds, List.filter_filter]
    congr 1
    refine List.filter_congr fun x _ => ?_
    cases hx : x.place <;> simp [Place.inEngine]
  rw [auditOk_iff] at hl ⊢
  simpa only [Ledger.apply, hkeep] using hl

/-- Settles O38: by the kinds of entry, each by what it does to the identifiers of the engine's sheets. -/
theorem ledgerTransitionsKeepTheIdentity : Obligations.LedgerTransitionsKeepTheIdentity := by
  refine ⟨by decide, fun l e hl h => ?_⟩
  rcases h with ⟨sh, rfl, hp, hn⟩ | ⟨id, p, o, rfl, hp, hin⟩ | ⟨id, z, sh, rfl, hm, hid, hone⟩ | ⟨id, o, rfl⟩ | ⟨id, rfl⟩ | ⟨id, t, rfl⟩
    | ⟨id, b, rfl⟩ | ⟨k, rfl⟩ | ⟨ids, rfl⟩ | ⟨sh, rfl, hp⟩ | ⟨id, rfl⟩
  · exact auditOk_enter hl hp hn
  · exact auditOk_update id _ hl fun x hx hxid => ⟨rfl, hp.trans (hin x hx hxid).symm⟩
  · exact auditOk_leave hl hm hid (hone sh hm hid).2
  · exact auditOk_update id _ hl fun _ _ _ => ⟨rfl, rfl⟩
  · exact auditOk_update id _ hl fun _ _ _ => ⟨rfl, rfl⟩
  · exact auditOk_update id _ hl fun _ _ _ => ⟨rfl, rfl⟩
  · exact auditOk_update id _ hl fun _ _ _ => ⟨rfl, rfl⟩
  · exact auditOk_strand k hl
  · exact auditOk_purge ids hl
  · exact auditOk_pendIn hl hp
  · exact auditOk_pendDel id hl

end Sys2Proof.Machine

end

/-! ## Integer, control and binary32 instructions (R74, R76, R79 to R82) -/

section

namespace Sys2Proof.Machine

/-! ### The values of Table 4-2 -/

theorem test_slt (a b : Word) : test (slt a b) = if a.toInt < b.toInt then 1#32 else 0#32 := by
  simp [test, slt, BitVec.slt_iff_toInt_lt]

theorem test_ult (a b : Word) : test (ult a b) = if a.toNat < b.toNat then 1#32 else 0#32 := by
  simp [test, ult, BitVec.ult_iff_toNat_lt]

theorem sat32_eq_max_min (v : Int) : sat32 v = BitVec.ofInt 32 (max (-2147483648) (min 2147483647 v)) := by
  have h : F32.clampInt (-2147483648) 2147483647 v = max (-2147483648) (min 2147483647 v) := by
    unfold F32.clampInt
    split
    · omega
    · split <;> omega
  rw [sat32, h]

theorem minS_eq (a b : Word) : minS a b = if a.toInt ≤ b.toInt then a else b := by
  simp only [minS, slt, BitVec.slt_iff_toInt_lt]
  rcases lt_or_ge b.toInt a.toInt with h | h
  · rw [if_pos h, if_neg h.not_ge]
  · rw [if_neg h.not_gt, if_pos h]

theorem maxS_eq (a b : Word) : maxS a b = if a.toInt ≤ b.toInt then b else a := by
  simp only [maxS, slt, BitVec.slt_iff_toInt_lt]
  rcases lt_trichotomy a.toInt b.toInt with h | h | h
  · rw [if_pos h, if_pos h.le]
  · rw [if_neg h.not_lt, if_pos h.le, BitVec.toInt_inj.1 h]
  · rw [if_neg h.not_gt, if_neg h.not_ge]

theorem mul_eq_ofNat (a b : Word) : a * b = BitVec.ofNat 32 (a.toNat * b.toNat) := by
  apply BitVec.eq_of_toNat_eq
  simp

theorem mhs_eq (a b : Word) : mhs a b = BitVec.ofInt 32 (a.toInt * b.toInt / 4294967296) := by
  rw [mhs, Int.fdiv_eq_ediv_of_nonneg _ (by decide)]

/-- A quotient is at least the least word, so only its upper end is ever limited. -/
theorem neg_le_tdiv (a b : Word) : -2147483648 ≤ a.toInt.tdiv b.toInt := by
  have hlo := BitVec.le_toInt a
  have hhi := BitVec.toInt_lt (x := a)
  have ha : a.toInt.natAbs ≤ 2147483648 := by omega
  have hq : (a.toInt.tdiv b.toInt).natAbs ≤ 2147483648 := by
    rw [Int.natAbs_tdiv]
    exact (Nat.div_le_self _ _).trans ha
  omega

theorem quo_eq (a b : Word) : quo a b = if b = 0#32 then (if a.toInt < 0 then 0x80000000#32 else 0x7FFFFFFF#32)
    else BitVec.ofInt 32 (min 2147483647 (a.toInt.tdiv b.toInt)) := by
  have hlo := neg_le_tdiv a b
  rw [quo, sat32_eq_max_min, max_eq_right (le_min (by decide) hlo)]
  simp [slt, BitVec.slt_iff_toInt_lt]

theorem shiftAmount (k : BitVec 5) : (k.setWidth 32).toNat % 32 = k.toNat := by
  rw [BitVec.toNat_setWidth]
  omega

theorem khi22_eq (k : BitVec 22) : khi22 k = (k ++ 0#10 : BitVec 32) := by
  apply BitVec.eq_of_toNat_eq
  simp only [khi22, BitVec.toNat_shiftLeft, BitVec.toNat_setWidth, BitVec.toNat_append, BitVec.truncate_eq_setWidth,
    BitVec.zeroExtend, Nat.shiftLeft_eq]
  simp
  omega

/-! ### Instructions that write one register -/

variable {s : State} {t : Fin 16} {i : Instr}

/-- An instruction on a register and a constant writes the value of its operation. -/
theorem xResult_of_aluK {rd rs1 : Fin 16} {k : Word} {op : Word → Word → Word} (h : s.ready t 1)
    (hi : exec i s = .next (s.aluK t rd rs1 k op)) : XResult s i t 1 rd (op (s.rx t rs1) k) := by
  rw [XResult, hi, State.aluK, perform_wx _ _ _ _ _ h, rx_charge]

/-- An instruction that writes an x register with a value of the charged state. -/
theorem xResult_of_perform {rd : Fin 16} {c : Nat} {v : State → Word} {x : Word} (h : s.ready t c)
    (hi : exec i s = .next (s.perform t c fun a => a.wx t rd (v a))) (hv : v (s.charge t c) = x) : XResult s i t c rd x := by
  rw [XResult, hi, perform_wx _ _ _ _ _ h, hv]

/-- The same with an f register. -/
theorem fResult_of_perform {fd : Fin 8} {c : Nat} {v : State → F32} {x : F32} (h : s.ready t c)
    (hi : exec i s = .next (s.perform t c fun a => a.wf t fd (v a))) (hv : v (s.charge t c) = x) : FResult s i t c fd x := by
  rw [FResult, hi, perform_wf _ _ _ _ _ h, hv]

theorem XResult.of_eq {c : Nat} {rd : Fin 16} {v w : Word} (h : XResult s i t c rd v) (hv : v = w) : XResult s i t c rd w := hv ▸ h

/-- Settles O7: each instruction is one operation on two registers, or on a register and a constant, and each operation is the
one the statement writes out. -/
theorem integerInstructionsWriteTheirResult : Obligations.IntegerInstructionsWriteTheirResult := by
  intro s t rd rs1 rs2 imm k wide
  refine ⟨fun h => ⟨?_, ?_, ?_, ?_, ?_, ?_, ?_, ?_, ?_, ?_, ?_, ?_, ?_, ?_, ?_, ?_, ?_⟩, fun h => ⟨?_, ?_, ?_, ?_⟩,
    fun h => ⟨?_, ?_, ?_, ?_, ?_, ?_, ?_, ?_, ?_, ?_⟩⟩
  · exact xResult_of_alu h rfl
  · exact xResult_of_alu h rfl
  · exact xResult_of_alu h rfl
  · exact xResult_of_alu h rfl
  · exact xResult_of_alu h rfl
  · exact xResult_of_alu (op := shl) h rfl
  · exact xResult_of_alu (op := shr) h rfl
  · exact xResult_of_alu (op := shra) h rfl
  · exact (xResult_of_alu h rfl).of_eq (test_slt _ _)
  · exact (xResult_of_alu h rfl).of_eq (test_ult _ _)
  · exact (xResult_of_alu h rfl).of_eq (sat32_eq_max_min _)
  · exact (xResult_of_alu h rfl).of_eq (sat32_eq_max_min _)
  · exact (xResult_of_alu h rfl).of_eq (minS_eq _ _)
  · exact (xResult_of_alu h rfl).of_eq (maxS_eq _ _)
  · exact (xResult_of_alu h rfl).of_eq (mul_eq_ofNat _ _)
  · exact (xResult_of_alu h rfl).of_eq (mhs_eq _ _)
  · exact xResult_of_alu (op := mhu) h rfl
  · exact (xResult_of_alu h rfl).of_eq (quo_eq _ _)
  · exact xResult_of_alu (op := quou) h rfl
  · exact xResult_of_alu (op := modS) h rfl
  · exact xResult_of_alu (op := modU) h rfl
  · exact xResult_of_aluK h rfl
  · exact (xResult_of_aluK h rfl).of_eq (test_slt _ _)
  · exact (xResult_of_aluK h rfl).of_eq (test_ult _ _)
  · exact xResult_of_aluK h rfl
  · exact xResult_of_aluK h rfl
  · exact xResult_of_aluK h rfl
  · exact (xResult_of_aluK (op := shl) h rfl).of_eq (by rw [shl, shiftAmount])
  · exact (xResult_of_aluK (op := shr) h rfl).of_eq (by rw [shr, shiftAmount])
  · exact (xResult_of_aluK (op := shra) h rfl).of_eq (by rw [shra, shiftAmount])
  · exact xResult_of_perform h rfl (khi22_eq wide)

/-! ### Branches and calls -/

/-- A control transfer without another effect. -/
theorem performTo_id (c d : Nat) (h : s.canIssue t c = true) (hd : d < 65536) :
    s.performTo t c d id = s.granted t ((s.thr t).retire c d) := by
  refine performTo_retire s t c d id _ h hd ?_ ?_
  · rw [charge_eq]
    simp
  · rw [charge_eq]
    simp [Thread.retire]

/-- A control transfer that writes an x register. -/
theorem performTo_wx (c d : Nat) (rd : Fin 16) (v : Word) (h : s.canIssue t c = true) (hd : d < 65536) :
    s.performTo t c d (fun a => a.wx t rd v) = s.granted t (((s.thr t).wx rd v).retire c d) := by
  refine performTo_retire s t c d (fun g => g.wx rd v) _ h hd (wx_charge ..) ?_
  rw [charge_eq, thr_granted]
  by_cases hr : rd = 0 <;> simp [Thread.wx, hr, Thread.retire]

/-- A branch by the outcome of its comparison. -/
theorem jumps_of_branch {rs1 rs2 : Fin 16} {imm : BitVec 18} {cond : Word → Word → Bool} {taken : Bool}
    (hi : exec i s = .next (s.branch t rs1 rs2 imm cond)) (hc : cond (s.rx t rs1) (s.rx t rs2) = taken) :
    (taken = true → s.canIssue t 2 = true → (BitVec.ofNat 32 (s.thr t).pc + imm.signExtend 32).toNat < 65536 →
      Jumps s i t 2 (BitVec.ofNat 32 (s.thr t).pc + imm.signExtend 32).toNat)
    ∧ (taken = false → s.ready t 1 → Jumps s i t 1 ((s.thr t).pc + 1)) := by
  constructor
  · rintro rfl h hd
    rw [Jumps, hi, State.branch, if_pos hc]
    exact congrArg _ (performTo_id 2 _ h hd)
  · rintro rfl h
    rw [Jumps, hi, State.branch, if_neg (by simp [hc]), perform_id s t 1 h]

theorem not_slt_eq_decide (a b : Word) : (!slt a b) = decide (b.toInt ≤ a.toInt) := by
  rw [slt, BitVec.slt_eq_decide, ← decide_not, decide_eq_decide, Int.not_lt]

theorem not_ult_eq_decide (a b : Word) : (!ult a b) = decide (b.toNat ≤ a.toNat) := by
  rw [ult, BitVec.ult_eq_decide, ← decide_not, decide_eq_decide, Nat.not_lt]

/-- Settles O8: the six comparisons, each as the model's own. -/
theorem branchesGoWhereTheirComparisonSays : Obligations.BranchesGoWhereTheirComparisonSays := by
  intro s t rs1 rs2 imm i taken h
  rcases h with ⟨rfl, ht⟩ | ⟨rfl, ht⟩ | ⟨rfl, ht⟩ | ⟨rfl, ht⟩ | ⟨rfl, ht⟩ | ⟨rfl, ht⟩
  · exact jumps_of_branch rfl (ht ▸ beq_eq_decide ..)
  · exact jumps_of_branch rfl (ht ▸ by simp [bne, beq_eq_decide])
  · exact jumps_of_branch rfl (ht ▸ BitVec.slt_eq_decide ..)
  · exact jumps_of_branch rfl (ht ▸ not_slt_eq_decide ..)
  · exact jumps_of_branch rfl (ht ▸ BitVec.ult_eq_decide ..)
  · exact jumps_of_branch rfl (ht ▸ not_ult_eq_decide ..)

/-- Settles O9. -/
theorem callsLinkAndJump : Obligations.CallsLinkAndJump := fun _ _ rd _ _ _ h =>
  ⟨fun hd => congrArg _ (performTo_wx 2 _ rd _ h hd), fun hd => congrArg _ (performTo_wx 2 _ rd _ h hd)⟩

/-! ### Binary32 (R82) -/

/-- Settles O11: each instruction writes one register with the value of its operation on the charged state's registers, which
are those of the state. -/
theorem floatInstructionsWriteTheirResult : Obligations.FloatInstructionsWriteTheirResult := by
  intro s t x fd a b c z
  refine ⟨fun h => ⟨?_, ?_, ?_, ?_, ?_, ?_, ?_, ?_, ?_, ?_, ?_, ?_, ?_, ?_, ?_, ?_, ?_⟩, fun h => ?_, fun h => ⟨?_, ?_⟩⟩
  · exact fResult_of_perform h rfl (by simp only [rf_charge])
  · exact fResult_of_perform h rfl (by simp only [rf_charge])
  · exact fResult_of_perform h rfl (by simp only [rf_charge])
  · exact fResult_of_perform h rfl (by simp only [rf_charge])
  · exact fResult_of_perform h rfl (by simp only [rf_charge])
  · exact fResult_of_perform h rfl (by simp only [rf_charge])
  · exact fResult_of_perform h rfl (by simp only [rf_charge, F32.abs])
  · exact fResult_of_perform h rfl (by simp only [rf_charge, F32.neg])
  · exact xResult_of_perform h rfl (by simp only [rf_charge, test])
  · exact xResult_of_perform h rfl (by simp only [rf_charge, test])
  · exact xResult_of_perform h rfl (by simp only [rf_charge, test])
  · exact fResult_of_perform h rfl (by simp only [rx_charge])
  · exact fResult_of_perform h rfl (by simp only [rx_charge])
  · exact xResult_of_perform h rfl (by simp only [rf_charge])
  · exact xResult_of_perform h rfl (by simp only [rf_charge])
  · exact xResult_of_perform h rfl (by simp only [rf_charge])
  · exact fResult_of_perform h rfl (by simp only [rx_charge])
  · exact fResult_of_perform h rfl (by simp only [rf_charge])
  · exact fResult_of_perform h rfl (by simp only [rf_charge])
  · exact fResult_of_perform h rfl (by simp only [rf_charge])

end Sys2Proof.Machine

end

/-! ## NaN operands (R82) -/

section

namespace Sys2Proof.Machine.F32

@[simp] theorem firstNaN_cons_of_isNaN {x : F32} (l : List F32) (h : isNaN x = true) : firstNaN (x :: l) = some (quiet x) := if_pos h

@[simp] theorem firstNaN_cons_of_not_isNaN {x : F32} (l : List F32) (h : isNaN x = false) : firstNaN (x :: l) = firstNaN l := by
  simp [firstNaN, h]

@[simp] theorem firstNaN_nil : firstNaN [] = none := rfl

theorem not_isNaN_of_isZero {x : F32} (h : isZero x = true) : isNaN x = false := by
  simp only [isZero, Bool.and_eq_true, beq_iff_eq] at h
  simp [isNaN, h.1]

theorem not_isNaN_of_isInf {x : F32} (h : isInf x = true) : isNaN x = false := by
  simp only [isInf, Bool.and_eq_true, beq_iff_eq] at h
  simp [isNaN, h.2]

/-- An operation on two operands that looks for a NaN first returns the first one. -/
theorem ops2_of_firstNaN {x y n : F32} (h : firstNaN [x, y] = some n) :
    add x y = n ∧ sub x y = n ∧ mul x y = n ∧ div x y = n ∧ fmin x y = n ∧ fmax x y = n := by
  simp [add, sub, mul, div, fmin, fmax, h]

theorem fma_of_firstNaN {x y z n : F32} (h : firstNaN [x, y, z] = some n) : fma x y z = n := by
  simp [fma, h]

end Sys2Proof.Machine.F32

namespace Sys2Proof.Machine

open F32

/-- Settles O12: every operation looks for the first NaN among its operands; zeros and infinities are none. -/
theorem naNOperandsPropagate : Obligations.NaNOperandsPropagate := by
  intro x y z
  refine ⟨fun hx => ?first, fun hx hy => ?second, fun hx hy hz => ?third, fun h => ?compare, fun hx hy hz => ?zeroInf,
    fun hx hy => ?invalid⟩
  case first =>
    obtain ⟨hadd, hsub, hmul, hdiv, hmin, hmax⟩ := ops2_of_firstNaN (firstNaN_cons_of_isNaN [y] hx)
    exact ⟨hadd, hsub, hmul, hdiv, hmin, hmax, fma_of_firstNaN (firstNaN_cons_of_isNaN _ hx), if_pos hx, if_pos hx,
      fun _ => ⟨if_pos hx, if_pos hx⟩⟩
  case second =>
    have h2 : firstNaN [x, y] = some (quiet y) := by simp [hx, hy]
    obtain ⟨hadd, hsub, hmul, hdiv, hmin, hmax⟩ := ops2_of_firstNaN h2
    exact ⟨hadd, hsub, hmul, hdiv, hmin, hmax, fma_of_firstNaN (by simp [hx, hy]), by simp [lim, hx, hy]⟩
  case third => exact fma_of_firstNaN (by simp [hx, hy, hz])
  case compare => rcases h with h | h <;> simp [F32.eq, F32.lt, F32.le, h]
  case zeroInf => exact fma_of_firstNaN (by simp [not_isNaN_of_isZero hx, not_isNaN_of_isInf hy, hz])
  case invalid => simp [F32.mul, F32.invalid, not_isNaN_of_isZero hx, not_isNaN_of_isInf hy, hx, hy]

end Sys2Proof.Machine

end

/-! ## Loads, stores and refused accesses (R54, R61, R83, R84) -/

section

namespace Sys2Proof.Machine

variable {s : State} {t : Fin 16} {i : Instr}

/-! ### Loads -/

@[simp] theorem charge_mem (s : State) (t : Fin 16) (c : Nat) : (s.charge t c).mem = s.mem := rfl

@[simp] theorem dmemRead_charge (s : State) (t : Fin 16) (c a n : Nat) : (s.charge t c).dmemRead a n = s.dmemRead a n := rfl

/-- A clean load into an x register. -/
theorem xResult_of_load {rd rs1 : Fin 16} {imm : BitVec 18} {n : Nat} {v : Nat → Word} (h : s.ready t 2)
    (hi : exec i s = .next (s.load t rs1 imm n .clean fun a x => a.wx t rd (v x)))
    (hc : s.dmemCheck t (dmemAddr (s.rx t rs1) imm) n = none) :
    XResult s i t 2 rd (v (s.dmemRead (dmemAddr (s.rx t rs1) imm) n)) := by
  refine xResult_of_perform (v := fun b => v (b.dmemRead (dmemAddr (s.rx t rs1) imm) n)) h ?_ rfl
  rw [hi, State.load]
  simp only [hc]
  rfl

/-- A clean load into an f register. -/
theorem fResult_of_load {fd : Fin 8} {rs1 : Fin 16} {imm : BitVec 18} {n : Nat} {v : Nat → F32} (h : s.ready t 2)
    (hi : exec i s = .next (s.load t rs1 imm n .clean fun a x => a.wf t fd (v x)))
    (hc : s.dmemCheck t (dmemAddr (s.rx t rs1) imm) n = none) :
    FResult s i t 2 fd (v (s.dmemRead (dmemAddr (s.rx t rs1) imm) n)) := by
  refine fResult_of_perform (v := fun b => v (b.dmemRead (dmemAddr (s.rx t rs1) imm) n)) h ?_ rfl
  rw [hi, State.load]
  simp only [hc]
  rfl

/-- Settles O13. -/
theorem loadsReadLittleEndian : Obligations.LoadsReadLittleEndian := by
  intro s t rd rs1 fd imm h
  refine ⟨fun hc => ⟨?_, ?_⟩, fun hc => ⟨?_, ?_⟩, fun hc => ⟨?_, ?_⟩⟩
  · exact xResult_of_load h rfl hc
  · exact fResult_of_load h rfl hc
  · exact xResult_of_load (v := fun x => (BitVec.ofNat 16 x).signExtend 32) h rfl hc
  · exact xResult_of_load h rfl hc
  · exact xResult_of_load (v := fun x => (BitVec.ofNat 8 x).signExtend 32) h rfl hc
  · exact xResult_of_load h rfl hc

/-! ### Stores -/

@[simp] theorem length_leBytes (n v : Nat) : (leBytes n v).length = n := by
  induction n generalizing v with
  | zero => rfl
  | succ n ih => simp [leBytes, ih]

/-- Byte `k` of a little-endian number. -/
theorem getElem_leBytes (n v k : Nat) (h : k < (leBytes n v).length) : (leBytes n v)[k] = BitVec.ofNat 8 (v / 2 ^ (8 * k)) := by
  induction n generalizing v k with
  | zero => simp [leBytes] at h
  | succ n ih =>
    cases k with
    | zero => simp [leBytes]
    | succ k =>
      rw [length_leBytes] at h
      simp only [leBytes, List.getElem_cons_succ]
      rw [ih _ _ (by rw [length_leBytes]; omega), Nat.div_div_eq_div_mul, show 8 * (k + 1) = 8 * k + 8 by ring, pow_add]
      congr 2
      ring

/-- A written number reads back byte by byte. -/
theorem rdByte_wrLe_inside (m : List Host.Cell) (a n k : Nat) (v : Word) (h : k < n) :
    rdByte (wrLe m a n v.toNat) (a + k) = v.extractLsb' (8 * k) 8 := by
  rw [wrLe, rdByte_wrBytes_inside _ _ _ _ (by simpa using h), getElem_leBytes, ← Nat.shiftRight_eq_div_pow]
  rfl

theorem rdByte_wrLe_outside (m : List Host.Cell) (a n v b : Nat) (h : b < a ∨ a + n ≤ b) :
    rdByte (wrLe m a n v) b = rdByte m b :=
  rdByte_wrBytes_outside _ _ _ _ (by simpa using h)

/-- An instruction that changes data memory and its own thread, leaving the fields of issue alone, retires. -/
theorem perform_dmem (c : Nat) (m : Mem) (f : Thread → Thread) (run : State → State) (h : s.ready t c)
    (hr : run (s.charge t c) = State.granted { s with mem := m } t (f ((s.charge t c).thr t))) :
    s.perform t c run = State.granted { s with mem := m } t { f ((s.charge t c).thr t) with pc := (s.thr t).pc + 1 } := by
  rw [State.perform, if_pos h.1, hr, State.setPc, if_pos h.2, setThr_granted, thr_granted]

/-- A state that has retired a write of the low `n` bytes of `v` at `a`: only its thread, the grant and those bytes have changed. -/
theorem stored_frame {s' : State} {a n : Nat} {v : Word} {h : Thread}
    (hs : s' = State.granted { s with mem := { s.mem with dmem := wrLe s.mem.dmem a n v.toNat } } t h) :
    (∀ k, k < n → rdByte s'.mem.dmem (a + k) = v.extractLsb' (8 * k) 8)
      ∧ (∀ b, b < a ∨ a + n ≤ b → rdByte s'.mem.dmem b = rdByte s.mem.dmem b)
      ∧ s'.mem = { s.mem with dmem := s'.mem.dmem } ∧ s' = { s with mem := s'.mem, seq := s'.seq } ∧ s'.thr t = h
      ∧ ∀ u, u ≠ t → s'.thr u = s.thr u := by
  subst hs
  exact ⟨fun k => rdByte_wrLe_inside _ _ _ _ _, fun b => rdByte_wrLe_outside _ _ _ _ _, rfl, rfl, thr_granted .., fun u hu =>
    thr_granted_ne _ _ hu⟩

/-- A store that passes its checks. -/
theorem store_eq {rs1 : Fin 16} {imm : BitVec 18} {n : Nat} (v : Word) (h : s.ready t 1)
    (hc : s.dmemCheck t (dmemAddr (s.rx t rs1) imm) n = none) :
    s.store t rs1 imm n v = State.granted
      { s with mem := { s.mem with dmem := wrLe s.mem.dmem (dmemAddr (s.rx t rs1) imm) n v.toNat } } t
      { (s.charge t 1).thr t with pc := (s.thr t).pc + 1 } := by
  rw [State.store]
  simp only [hc]
  refine perform_dmem 1 _ id _ h ?_
  rw [charge_eq, thr_granted]
  rfl

/-- A write of data memory and of an x register, in the charged state. -/
theorem wx_dmemWrite_charge (s : State) (t rd : Fin 16) (c a n v : Nat) (w : Word) :
    ((s.charge t c).dmemWrite a n v).wx t rd w =
      State.granted { s with mem := { s.mem with dmem := wrLe s.mem.dmem a n v } } t (((s.charge t c).thr t).wx rd w) :=
  wx_charge { s with mem := { s.mem with dmem := wrLe s.mem.dmem a n v } } t c rd w

/-- ADDM on a clean word that passes its checks. -/
theorem exec_addm_clean (rd rs2 : Fin 16) {rs1 : Fin 16} {a : Nat} {old : Word} (h : s.ready t 2) (ha : a = (s.rx t rs1).toNat)
    (ho : old = BitVec.ofNat 32 (s.dmemRead a 4)) (hc : s.dmemCheck t a 4 = none) :
    exec (.addm t rd rs1 rs2 .clean) s = .next (State.granted
      { s with mem := { s.mem with dmem := wrLe s.mem.dmem a 4 (old + s.rx t rs2).toNat } } t
      { ((s.charge t 2).thr t).wx rd old with pc := (s.thr t).pc + 1 }) := by
  subst ha
  change execAddm t rd rs1 rs2 .clean s = _
  rw [execAddm]
  simp only [hc, reduceCtorEq, if_false]
  refine congrArg Host.Outcome.next (perform_dmem 2 _ (fun g => g.wx rd old) _ h ?_)
  rw [rx_charge, dmemRead_charge, ← ho]
  exact wx_dmemWrite_charge ..

/-- What a store of an x or f register leaves; `other` is ADDM, of which the statement says more. -/
theorem store_leaves {rs1 : Fin 16} {other : Instr} {p : State → Prop} {imm : BitVec 18} {n : Nat} {v : Word} (h : s.ready t 1)
    (hi : exec i s = .next (s.store t rs1 imm n v)) (hc : s.dmemCheck t (dmemAddr (s.rx t rs1) imm) n = none) (hne : i ≠ other) :
    ∃ s', exec i s = .next s'
      ∧ (∀ k, k < n → rdByte s'.mem.dmem (dmemAddr (s.rx t rs1) imm + k) = v.extractLsb' (8 * k) 8)
      ∧ (∀ b, b < dmemAddr (s.rx t rs1) imm ∨ dmemAddr (s.rx t rs1) imm + n ≤ b → rdByte s'.mem.dmem b = rdByte s.mem.dmem b)
      ∧ s'.mem = { s.mem with dmem := s'.mem.dmem } ∧ s' = { s with mem := s'.mem, seq := s'.seq }
      ∧ (s'.thr t).pc = (s.thr t).pc + 1 ∧ (∀ u, u ≠ t → s'.thr u = s.thr u) ∧ (i = other → p s') := by
  obtain ⟨hin, hout, hmem, hrest, hthr, hothers⟩ := stored_frame (store_eq v h hc)
  exact ⟨_, hi, hin, hout, hmem, hrest, congrArg Thread.pc hthr, hothers, fun e => absurd e hne⟩

/-- Settles O14: the four stores by one lemma, ADDM by its own equation. -/
theorem storesWriteOnlyTheirBytes : Obligations.StoresWriteOnlyTheirBytes := by
  intro s t rd rs1 rs2 fs2 imm i c a n v hi h hc
  rcases hi with ⟨rfl, rfl, rfl, rfl, rfl⟩ | ⟨rfl, rfl, rfl, rfl, rfl⟩ | ⟨rfl, rfl, rfl, rfl, rfl⟩ | ⟨rfl, rfl, rfl, rfl, rfl⟩
    | ⟨rfl, rfl, rfl, rfl, rfl⟩
  · exact store_leaves h rfl hc nofun
  · exact store_leaves h rfl hc nofun
  · exact store_leaves h rfl hc nofun
  · exact store_leaves h rfl hc nofun
  · obtain ⟨hin, hout, hmem, hrest, hthr, hothers⟩ := stored_frame (s := s) (t := t) (a := (s.rx t rs1).toNat) (n := 4)
      (v := BitVec.ofNat 32 (s.dmemRead (s.rx t rs1).toNat 4) + s.rx t rs2) rfl
    refine ⟨_, exec_addm_clean rd rs2 h rfl rfl hc, hin, hout, hmem, hrest, congrArg Thread.pc hthr, hothers, fun _ hrd => ?_⟩
    rw [State.rx, hthr]
    simp [Thread.rx, Thread.wx, hrd]

/-! ### Refused accesses -/

/-- An instruction that faults is charged and halts its thread with the fault's code, its PC and registers as they were, and
reaches nothing else. -/
theorem performFault_halts (c code : Nat) (h : s.canIssue t c = true) :
    ((s.performFault t c code).thr t).st = .halted ∧ ((s.performFault t c code).thr t).fault = code
      ∧ ((s.performFault t c code).thr t).pc = (s.thr t).pc ∧ ((s.performFault t c code).thr t).x = (s.thr t).x
      ∧ (s.performFault t c code).mem = s.mem ∧ (s.performFault t c code).led = s.led
      ∧ ∀ off, off ≠ R.SEQ_STATUS → (s.performFault t c code).getR off = s.getR off := by
  rw [State.performFault, if_pos h]
  obtain ⟨o, hthr⟩ := thr_faultThr_same (s.charge t c) t code
  obtain ⟨hled, -, -, hmem⟩ := faultThr_frame (s.charge t c) t code
  rw [charge_eq, thr_granted] at hthr
  exact ⟨congrArg Thread.st hthr, congrArg Thread.fault hthr, (congrArg Thread.pc hthr :), (congrArg Thread.x hthr :), hmem, hled,
    fun _ hoff => getR_faultThr_ne _ t code hoff⟩

/-- The fault code of an access that Table 4-4's checks refuse. -/
theorem dmemCheck_eq (s : State) (t : Fin 16) (a n : Nat) :
    s.dmemCheck t a n = if a % n ≠ 0 then some 0x4 else if s.dmemOk t a n = false then some 0x3 else none := by
  rw [State.dmemCheck]
  cases s.dmemOk t a n <;> rfl

/-- The code with which an access faults, as R83 and R54 order the tests. -/
def FaultsWith (s : State) (t : Fin 16) (a n : Nat) (ecc : Ecc) (code : Nat) : Prop :=
  if a % n ≠ 0 then code = 0x4 else if s.dmemOk t a n = false then code = 0x3 else ecc = .uncorrectable ∧ code = 0x9

theorem load_of_faultsWith {rs1 : Fin 16} {imm : BitVec 18} {n code : Nat} {ecc : Ecc} (put : State → Nat → State)
    (h : FaultsWith s t (dmemAddr (s.rx t rs1) imm) n ecc code) : s.load t rs1 imm n ecc put = s.performFault t 2 code := by
  rw [State.load, dmemCheck_eq]
  unfold FaultsWith at h
  split at h
  · rw [if_pos ‹_›, h]
  · rw [if_neg ‹_›]
    split at h
    · rw [if_pos ‹_›, h]
    · rw [if_neg ‹_›, h.1, h.2]
      exact if_pos rfl

theorem store_of_faultsWith {rs1 : Fin 16} {imm : BitVec 18} {n code : Nat} (v : Word)
    (h : FaultsWith s t (dmemAddr (s.rx t rs1) imm) n .clean code) : s.store t rs1 imm n v = s.performFault t 1 code := by
  rw [State.store, dmemCheck_eq]
  unfold FaultsWith at h
  split at h
  · rw [if_pos ‹_›, h]
  · rw [if_neg ‹_›]
    split at h
    · rw [if_pos ‹_›, h]
    · exact absurd h.1 (by decide)

/-- Settles O15. -/
theorem badAccessesFaultWithoutEffect : Obligations.BadAccessesFaultWithoutEffect := by
  intro s t rd rs1 rs2 imm i ecc c n hi h code hcode
  have halts {s' : State} (he : exec i s = .next s') (hs : s' = s.performFault t c code) : ∃ s', exec i s = .next s'
      ∧ (s'.thr t).st = .halted ∧ (s'.thr t).fault = code ∧ (s'.thr t).pc = (s.thr t).pc ∧ (s'.thr t).x = (s.thr t).x
      ∧ s'.mem = s.mem := by
    subst hs
    obtain ⟨hst, hfault, hpc, hx, hmem, -⟩ := performFault_halts c code h
    exact ⟨_, he, hst, hfault, hpc, hx, hmem⟩
  rcases hi with ⟨rfl, rfl, rfl⟩ | ⟨rfl, rfl, rfl⟩ | ⟨rfl, rfl, rfl⟩ | ⟨rfl, rfl, rfl⟩ | ⟨rfl, rfl, rfl⟩ | ⟨rfl, rfl, rfl, rfl⟩
    | ⟨rfl, rfl, rfl, rfl⟩ | ⟨rfl, rfl, rfl, rfl⟩
  · exact halts rfl (load_of_faultsWith _ hcode)
  · exact halts rfl (load_of_faultsWith _ hcode)
  · exact halts rfl (load_of_faultsWith _ hcode)
  · exact halts rfl (load_of_faultsWith _ hcode)
  · exact halts rfl (load_of_faultsWith _ hcode)
  · exact halts rfl (store_of_faultsWith _ hcode)
  · exact halts rfl (store_of_faultsWith _ hcode)
  · exact halts rfl (store_of_faultsWith _ hcode)

/-- Settles O17. -/
theorem deniedPortAccessesFault : Obligations.DeniedPortAccessesFault := by
  intro s t rd rs1 rs2 imm i c hi h
  have he : exec i s = .next (s.performFault t c 0x5) := by
    rcases hi with ⟨rfl, rfl, hden⟩ | ⟨rfl, rfl, hden⟩
    · exact congrArg Host.Outcome.next (if_pos hden)
    · exact congrArg Host.Outcome.next (if_pos hden)
  obtain ⟨hst, hfault, hpc, hx, hmem, hled, hreg⟩ := performFault_halts c 0x5 h
  exact ⟨_, he, hst, hfault, hpc, hx, hmem, hled, hreg⟩

end Sys2Proof.Machine

end

/-! ## WAIT (R62, R89, R90) -/

section

namespace Sys2Proof.Machine

variable {s : State} {t : Fin 16} {i : Instr}

/-! ### WAIT -/

/-- The thread at the start of a WAIT: TICK and FRAME dropped, any deadline disarmed and DL armed where the mask names TIME. -/
def Thread.waitFor (h : Thread) (mask : BitVec 64) (rd : Fin 16) : Thread :=
  { h with pend := h.pend &&& ~~~ 0x3000000000000#64, mask := mask, waitRd := rd,
           deadline := if mask.getLsbD 50 then some h.dl else none }

/-- The thread at the end of a WAIT with the bits `m`. -/
def Thread.waited (h : Thread) (m : BitVec 64) : Thread :=
  { h.wx h.waitRd (m.setWidth 32) with
      aux := (m >>> 32).setWidth 32, pend := h.pend &&& ~~~ (m &&& 0xFFFFFFFFFFFF#64),
      deadline := if m.getLsbD 50 then none else h.deadline }

/-- The bits of a WAIT's mask that exist. -/
def State.waitMask (s : State) (t rs1 rs2 : Fin 16) : BitVec 64 := (s.rx t rs2 ++ s.rx t rs1 : BitVec 64) &&& 0x1FFFFFFFFFFFFF#64

@[simp] theorem waited_st (h : Thread) (m : BitVec 64) : (h.waited m).st = h.st := by
  unfold Thread.waited Thread.wx
  split <;> rfl

@[simp] theorem waited_deadline (h : Thread) (m : BitVec 64) :
    (h.waited m).deadline = if m.getLsbD 50 then none else h.deadline := rfl

theorem waited_x (h : Thread) (m : BitVec 64) (hr : h.waitRd ≠ 0) : (h.waited m).rx h.waitRd = m.setWidth 32 := by
  simp [Thread.waited, Thread.wx, Thread.rx, hr]

theorem endWait_granted (s : State) (t : Fin 16) (h : Thread) (m : BitVec 64) :
    (s.granted t h).endWait t m = s.granted t (h.waited m) := by
  unfold State.endWait
  rw [thr_granted]
  refine (setThr_granted ..).trans (congrArg (s.granted t) ?_)
  unfold Thread.waited Thread.wx
  dsimp only
  split <;> split <;> rfl

/-- The time bit of a thread. -/
def timeBit (h : Thread) (tsc : BitVec 64) : Bool :=
  match h.deadline with
  | some d => Nat.ble d.toNat tsc.toNat
  | none => false

/-- The wake-source bits of a thread are its own bits below TIME, and levels above. -/
theorem pendOf_granted (s : State) (t : Fin 16) (h : Thread) : ∃ mbox flt : Bool, ∀ g : Thread, (s.granted t g).pendOf t =
    (g.pend &&& 0x3FFFFFFFFFFFF#64) ||| (if timeBit g s.tsc then 0x4000000000000#64 else 0#64)
      ||| (if mbox then 0x8000000000000#64 else 0#64) ||| (if flt then 0x10000000000000#64 else 0#64) := by
  refine ⟨(List.range 8).any fun m => s.flag (F.SEQ_MBI_STATUS_FULL m) && s.getF (F.SEQ_MBI_CFG_THREAD m) == t.val,
    s.flag F.SEQ_FAULT_SRC_SRC && s.faultThread == t.val, fun g => ?_⟩
  unfold State.pendOf
  rw [thr_granted]
  rfl

/-- Other fields of a thread do not bear on its wake-source bits. -/
theorem pendOf_granted_congr (s : State) (t : Fin 16) {h g : Thread} (hp : h.pend = g.pend) (hd : h.deadline = g.deadline) :
    (s.granted t h).pendOf t = (s.granted t g).pendOf t := by
  obtain ⟨mbox, flt, e⟩ := pendOf_granted s t h
  rw [e, e, hp, timeBit, timeBit, hd]

theorem pendOf_setThr (s : State) (t : Fin 16) (h : Thread) : (s.setThr t h).pendOf t = (s.granted t h).pendOf t := by
  unfold State.pendOf
  rw [thr_granted, thr_setThr_same]
  rfl

/-- What WAIT does beside its charge and its advance. -/
def State.waitEffect (a : State) (t rd rs1 rs2 : Fin 16) : State :=
  let b := a.setThr t ((a.thr t).waitFor (a.waitMask t rs1 rs2) rd)
  if b.pendOf t &&& a.waitMask t rs1 rs2 ≠ 0#64 then b.endWait t (b.pendOf t &&& a.waitMask t rs1 rs2)
  else b.setThr t (((a.thr t).waitFor (a.waitMask t rs1 rs2) rd).setRun .waiting)

theorem execWait_eq (s : State) (t rd rs1 rs2 : Fin 16) :
    execWait t rd rs1 rs2 s = .next (s.perform t 1 fun a => a.waitEffect t rd rs1 rs2) := rfl

/-- WAIT ends at once where a bit of its mask is pending, and waits otherwise. -/
theorem waitEffect_charge {mask m : BitVec 64} {rd rs1 rs2 : Fin 16} {h : Thread} (hmask : s.waitMask t rs1 rs2 = mask)
    (hh : h = ((s.charge t 1).thr t).waitFor mask rd) (hm : (s.granted t h).pendOf t &&& mask = m) :
    (s.charge t 1).waitEffect t rd rs1 rs2 = s.granted t (if m ≠ 0#64 then h.waited m else h.setRun .waiting) := by
  have hcharged : (s.charge t 1).waitMask t rs1 rs2 = mask := by rw [State.waitMask, rx_charge, rx_charge, ← hmask, State.waitMask]
  have hset : ∀ g, (s.charge t 1).setThr t g = s.granted t g := fun g => by rw [charge_eq, setThr_granted]
  unfold State.waitEffect
  simp only [hcharged, ← hh, hset, hm]
  split
  · exact endWait_granted ..
  · exact setThr_granted ..

/-- The bits up to TIME: those that are held, TICK and FRAME, and TIME itself; none of the levels above. -/
theorem waitBits (b : Fin 64) : (0x7FFFFFFFFFFFF#64)[b] = true →
    ((0x3FFFFFFFFFFFF#64)[b] = true → (0x3000000000000#64)[b] = true ∨ (0xFFFFFFFFFFFF#64)[b] = true)
      ∧ ((0x4000000000000#64)[b] = true → b = 50) ∧ (0x8000000000000#64)[b] = false ∧ (0x10000000000000#64)[b] = false := by
  revert b
  decide

/-- A WAIT that ends takes its bits with it. -/
theorem waited_pendOf (s : State) (t : Fin 16) {g h : Thread} {m : BitVec 64}
    (hp : g.pend = (h.pend &&& ~~~ 0x3000000000000#64) &&& ~~~ (m &&& 0xFFFFFFFFFFFF#64))
    (hd : m.getLsbD 50 = true → g.deadline = none) : (s.granted t g).pendOf t &&& m &&& 0x7FFFFFFFFFFFF#64 = 0#64 := by
  have htime : timeBit g s.tsc = true → m.getLsbD 50 = false := by
    cases hm : m.getLsbD 50 with
    | true => simp [timeBit, hd hm]
    | false => simp
  obtain ⟨mbox, flt, e⟩ := pendOf_granted s t g
  rw [e, hp]
  generalize timeBit g s.tsc = time at htime
  ext b hb
  cases hk : (0x7FFFFFFFFFFFF#64)[b] with
  | false => simp only [BitVec.getElem_and, hk, Bool.and_false, BitVec.getElem_zero]
  | true =>
    obtain ⟨hheld, hdl, hmb, hf⟩ := waitBits ⟨b, hb⟩ hk
    simp only [Fin.getElem_fin] at hheld hdl hmb hf
    cases hm : m[b] with
    | false => simp only [BitVec.getElem_and, hm, Bool.and_false, Bool.false_and, BitVec.getElem_zero]
    | true =>
      have ht : time = true → (0x4000000000000#64)[b] = false := fun h1 => by
        by_contra h2
        have hb50 : b = 50 := congrArg Fin.val (hdl (by simpa using h2))
        subst hb50
        exact absurd ((BitVec.getLsbD_eq_getElem hb).trans hm) (Bool.eq_false_iff.1 (htime h1))
      have hlow : (0x3FFFFFFFFFFFF#64)[b] = true → (0x3000000000000#64)[b] = false → (0xFFFFFFFFFFFF#64)[b] = true := fun h1 h2 =>
        (hheld h1).resolve_left (by simp [h2])
      simp only [BitVec.getElem_and, BitVec.getElem_or, BitVec.getElem_not, hk, hm, Bool.and_true, Bool.true_and, BitVec.getElem_zero,
        Bool.or_eq_false_iff]
      generalize (0x3FFFFFFFFFFFF#64)[b] = k50 at hlow ⊢
      generalize (0x3000000000000#64)[b] = k2 at hlow ⊢
      generalize (0xFFFFFFFFFFFF#64)[b] = k48 at hlow ⊢
      refine ⟨⟨⟨?_, ?_⟩, ?_⟩, ?_⟩
      · cases k50 <;> cases k2 <;> simp_all
      · cases time <;> simp [ht]
      · cases mbox <;> simp [hmb]
      · cases flt <;> simp [hf]

/-- Settles O18: the two ends of `execWait_eq`. -/
theorem waitEndsAtOnceOrWaits : Obligations.WaitEndsAtOnceOrWaits := by
  intro s t rd rs1 rs2 mask h m hr hst hmask hh hm
  have hp : (s.granted t (((s.charge t 1).thr t).waitFor mask rd)).pendOf t &&& mask = m := by
    rw [hm, pendOf_setThr, charge_eq, thr_granted, hh]
    exact congrArg (· &&& mask) (pendOf_granted_congr _ _ rfl rfl)
  have heff := waitEffect_charge (rs1 := rs1) (rs2 := rs2) hmask.symm rfl hp
  have he : exec (.wait t rd rs1 rs2) s = .next _ := execWait_eq s t rd rs1 rs2
  refine ⟨fun h0 => ?_, fun h0 => ⟨_, he, ?_⟩⟩
  · rw [TResult, he, hh]
    rw [if_neg (not_not.2 h0)] at heff
    refine congrArg Host.Outcome.next (perform_retire s t 1 (fun g => (g.waitFor mask rd).setRun .waiting) _ hr heff ?_ |>.trans ?_)
    · simp [charge_eq, Thread.waitFor, Thread.retire, Thread.setRun, hst]
    · simp [Thread.waitFor, Thread.setRun, hst]
  · rw [if_pos h0] at heff
    rw [State.perform, if_pos hr.1, heff, State.setPc, if_pos hr.2, setThr_granted, State.rx, thr_granted, thr_granted]
    refine ⟨?_, rfl, fun hrd => ?_, rfl, ?_⟩
    · exact (waited_st ..).trans (by simpa [charge_eq, Thread.waitFor, Thread.retire] using hst)
    · exact waited_x (((s.charge t 1).thr t).waitFor mask rd) m hrd
    · exact waited_pendOf s t (h := (s.charge t 1).thr t) rfl fun h50 => if_pos h50

end Sys2Proof.Machine

end

/-! ## Signals, time, events, port accesses and PICK (R65, R85, R91 to R95, R100) -/

section

namespace Sys2Proof.Machine

variable {s : State} {t : Fin 16} {i : Instr}

/-! ### Signals and clocks (R65, R91, R92) -/

/-- A change of the thread of an instruction in its charged state. -/
@[simp] theorem setThr_charge (s : State) (t : Fin 16) (c : Nat) (g : Thread) : (s.charge t c).setThr t g = s.granted t g := by
  rw [charge_eq, setThr_granted]

/-- An instruction that leaves its thread as `f` makes it and changes nothing else. -/
theorem tResult_of_perform {c : Nat} (f : Thread → Thread) {run : State → State} (h : s.ready t c)
    (hi : exec i s = .next (s.perform t c run))
    (hr : run (s.charge t c) = s.granted t (f ((s.charge t c).thr t)))
    (hf : { f ((s.charge t c).thr t) with pc := (s.thr t).pc + 1 } = (f (s.thr t)).retire c ((s.thr t).pc + 1)) :
    TResult s i t c (f (s.thr t)) := by
  rw [TResult, hi, perform_retire s t c f run h hr hf]

/-- An instruction that writes an x register and AUX. -/
theorem tResult_of_wx_aux {c : Nat} {rd : Fin 16} {v : Word} {aux : Word} {run : State → State} (h : s.ready t c)
    (hi : exec i s = .next (s.perform t c run)) (hr : run (s.charge t c) = ((s.charge t c).wx t rd v).setAux t aux) :
    TResult s i t c { (s.thr t).wx rd v with aux := aux } := by
  refine tResult_of_perform (fun g => { g.wx rd v with aux := aux }) h hi ?_ ?_
  · rw [hr, wx_charge, State.setAux, setThr_granted, thr_granted]
  · rw [charge_eq, thr_granted]
    by_cases hrd : rd = 0 <;> simp [Thread.wx, hrd, Thread.retire]

/-- An instruction that writes DL. -/
theorem tResult_of_dl {c : Nat} {v : BitVec 64} {run : State → State} (h : s.ready t c)
    (hi : exec i s = .next (s.perform t c run))
    (hr : run (s.charge t c) = (s.charge t c).setThr t { (s.charge t c).thr t with dl := v }) :
    TResult s i t c { s.thr t with dl := v } := by
  refine tResult_of_perform (fun g => { g with dl := v }) h hi (hr.trans (setThr_charge ..)) ?_
  rw [charge_eq, thr_granted]
  simp [Thread.retire]

/-- A pending bit that has been set is set. -/
theorem getLsbD_pend_setPend (h : Thread) (t : Fin 16) : (h.setPend t).pend.getLsbD t = true := by
  have ht : (t : Nat) < 64 := by omega
  simp only [Thread.setPend, BitVec.getLsbD_or, BitVec.getLsbD_ofNat, ht, decide_true, Nat.testBit_two_pow_self, Bool.and_self, Bool.or_true]

/-- The advance of the PC. -/
theorem setPc_of_lt (a : State) (t : Fin 16) {pc : Nat} (h : pc < 65536) : a.setPc t pc = a.setThr t { a.thr t with pc := pc } :=
  if_pos h

/-- The thread itself at the end of an instruction. -/
theorem thr_perform_same {c : Nat} (run : State → State) (h : s.ready t c) :
    (s.perform t c run).thr t = { (run (s.charge t c)).thr t with pc := (s.thr t).pc + 1 } := by
  rw [State.perform, if_pos h.1, setPc_of_lt _ _ h.2, thr_setThr_same]

theorem thr_perform_ne {c : Nat} (run : State → State) (h : s.ready t c) {u : Fin 16} (hu : u ≠ t) :
    (s.perform t c run).thr u = (run (s.charge t c)).thr u := by
  rw [State.perform, if_pos h.1, setPc_of_lt _ _ h.2, thr_setThr_ne _ _ hu]

/-- What an instruction leaves beside the threads is what its effect leaves. -/
theorem perform_frame {c : Nat} (run : State → State) (h : s.ready t c) :
    s.perform t c run = { run (s.charge t c) with seq := (s.perform t c run).seq } := by
  rw [State.perform, if_pos h.1, setPc_of_lt _ _ h.2]
  rfl

/-- Settles O19. -/
theorem signalsClocksAndDeadlines : Obligations.SignalsClocksAndDeadlines := by
  intro s t rd rs1 rs2 imm h
  refine ⟨⟨_, rfl, ?bit, ?pc⟩, ?_, ?_, ?_, ?_, ?_, ?_⟩
  case bit =>
    set d : Fin 16 := Fin.ofNat 16 (s.rx t rs1 + imm.signExtend 32).toNat with hd
    by_cases hdt : d = t
    · rw [hdt, thr_perform_same _ h]
      simp only [rx_charge]
      change (((s.charge t 1).setThr d (((s.charge t 1).thr d).setPend t)).thr t).pend.getLsbD t = true
      rw [hdt, thr_setThr_same]
      exact getLsbD_pend_setPend _ t
    · rw [thr_perform_ne _ h hdt]
      simp only [rx_charge]
      change (((s.charge t 1).setThr d (((s.charge t 1).thr d).setPend t)).thr d).pend.getLsbD t = true
      rw [thr_setThr_same]
      exact getLsbD_pend_setPend _ t
  case pc => rw [thr_perform_same _ h]
  · exact tResult_of_wx_aux h rfl rfl
  · exact tResult_of_wx_aux h rfl rfl
  · exact xResult_of_perform h rfl rfl
  · exact xResult_of_perform h rfl (by rw [charge_eq, thr_granted]; rfl)
  · exact tResult_of_dl h rfl (by rw [rx_charge]; rfl)
  · exact tResult_of_dl h rfl (by rw [rx_charge, rx_charge])

/-! ### Breakpoints, illegal words and events (R75, R92, R100) -/

/-- The event of an EVT (R100). -/
def State.programEvent (a : State) (t rs1 : Fin 16) (k : EvClass) (code : BitVec 12) (pc : Nat) : Event :=
  { cls := k, program := true, block := t, code := code.toNat, detA := a.rx t rs1, detB := BitVec.ofNat 32 pc }

/-- An EVT of a class other than TRACE makes its event arise. -/
theorem exec_evt {rs1 : Fin 16} {cls : BitVec 2} (code : BitVec 12) (hcls : cls ≠ 3#2) :
    ∃ k : EvClass, k.code = cls.toNat
      ∧ exec (.evt t rs1 cls code) s = .next (s.perform t 1 fun a => a.arise (a.programEvent t rs1 k code (s.thr t).pc)) := by
  obtain rfl | rfl | rfl : cls = 0#2 ∨ cls = 1#2 ∨ cls = 2#2 := by
    revert cls
    decide
  · exact ⟨.alarm, rfl, rfl⟩
  · exact ⟨.warn, rfl, rfl⟩
  · exact ⟨.info, rfl, rfl⟩

/-- Settles O20. -/
theorem breakpointsEventsAndIllegalWords : Obligations.BreakpointsEventsAndIllegalWords := by
  intro s t rs1 cls code
  refine ⟨fun h hopen hst => ?brk, fun h hlocked => ?locked, fun h e he => ?illegal, fun h hcls => ?event⟩
  case brk =>
    refine tResult_of_perform (fun g => { g with st := .debugHalted, back := .eligible }) h (congrArg Host.Outcome.next (if_pos hopen)) ?_ ?_
    · rw [charge_eq, setThr_granted, thr_granted]
      simp [Thread.run, Thread.retire, hst]
    · simp [charge_eq, Thread.retire]
  case locked =>
    obtain ⟨hst, hfault, hpc, -⟩ := performFault_halts 1 0x1 h
    have he : exec (.brk t) s = .next (s.performFault t 1 0x1) := congrArg Host.Outcome.next (if_neg (by simp [hlocked]))
    exact ⟨_, he, hst, hfault, hpc⟩
  case illegal =>
    cases e with
    | corrected => exact absurd rfl he
    | clean =>
      obtain ⟨hst, hfault, hpc, -⟩ := performFault_halts 1 0x1 h
      exact ⟨_, rfl, hst, hfault, hpc⟩
    | uncorrectable =>
      obtain ⟨hst, hfault, hpc, -⟩ := performFault_halts 1 0x8 h
      exact ⟨_, rfl, hst, hfault, hpc⟩
  case event =>
    obtain ⟨k, hk, he⟩ := exec_evt (s := s) (t := t) (rs1 := rs1) code hcls
    refine ⟨_, he, by rw [thr_perform_same _ h], ?_⟩
    rw [perform_frame _ h]
    refine ⟨⟨_, (mem_insertEvent ..).2 (Or.inl rfl), rfl, rfl, rfl, rx_charge .., rfl, hk, rfl⟩, rfl, rfl, rfl⟩




/-! ### Port accesses (R6, R85, R87) -/

/-- At cycle 1,000 of tick 5, in a cycle that began with SEQ_ECC_CORR saturated, one more corrected word has been counted; thread 3
may issue, and x1 holds the register's offset. -/
def countLost : State :=
  State.incR
    { State.reset with
        tsc := 21000#64
        regs := SMap.set resetWord State.reset.regs R.SEQ_ECC_CORR 0xFFFFFFFF#32
        start := SMap.set resetWord State.reset.start R.SEQ_ECC_CORR 0xFFFFFFFF#32
        seq := { State.reset.seq with
          thr := State.reset.seq.thr.set 3 { st := .eligible, pc := 5, budget := 20, x := (Vector.replicate 16 0#32).set 1 0x20028#32 } } }
    R.SEQ_ECC_CORR 1

/-- Refutes O16: a read of a saturated counter leaves the counts that it could not take in the present cycle (R6), so its bits
are not all clear afterwards. -/
theorem not_permittedPortAccessesComplete : ¬ Obligations.PermittedPortAccessesComplete := by
  intro h
  obtain ⟨s', he, -, -, hrc⟩ := (h countLost 3 7 1 0 0#18 _ rfl).1 (by decide) (by decide) (by decide) (by decide) (by decide) (by decide)
    (by decide) (by decide) (by decide)
  cases he
  exact absurd hrc (by decide)

/-! ### PICK (R93 to R95) -/

theorem pickPage_charge (s : State) (t : Fin 16) (c : Nat) (sel : Word) : (s.charge t c).pickPage sel = s.pickPage sel := rfl

theorem pickRefusal_charge (s : State) (t : Fin 16) (c : Nat) (page : Option Page) (sheet : Word) :
    (s.charge t c).pickRefusal t page sheet = s.pickRefusal t page sheet := rfl

theorem pitchLeft_charge (s : State) (t : Fin 16) (c : Nat) : (s.charge t c).pitchLeft = s.pitchLeft := rfl

/-- A full journal freezes the ledger; it changes no thread, no ledger and no Rinse. -/
theorem jfullCheck_frame (s : State) :
    s.jfullCheck.led = s.led ∧ s.jfullCheck.seq = s.seq ∧ s.jfullCheck.host = s.host ∧ s.jfullCheck.cel = s.cel := by
  unfold State.jfullCheck
  split <;> exact ⟨rfl, rfl, rfl, rfl⟩

/-- An entry of the journal acts on the live ledger (R376). -/
theorem journal_frame {s : State} (e : JEntry) (h : s.jr.frozenAc = false) : (s.journal e).led = s.led.apply e
    ∧ (s.journal e).seq = s.seq ∧ (s.journal e).host = s.host := by
  obtain ⟨hled, hseq, hhost, -⟩ :=
    jfullCheck_frame { s with led := s.led.apply e, jr := { s.jr with cur := s.jr.cur ++ [(s.recTick, e)] } }
  rw [State.journal, if_neg (by simp [h])]
  exact ⟨hled, hseq, hhost⟩

/-- The sheet of a PICK for a first side. -/
def pickedSheet (id : Word) (t : Fin 16) (p : Page) : Sheet :=
  { id := id, place := .picked, owner := t, tag1 := some p.tag, size := p.size, colour := p.colour }

/-- A PICK of a first side: its sheet enters the ledger, and its thread has the identifier and the page's tag. -/
theorem picked_first {a : State} (t rd : Fin 16) (p : Page) (hf : a.jr.frozenAc = false) (hr : a.host.rinse = none) :
    (a.picked t rd p 0#32).led = a.led.apply (.enter (pickedSheet a.led.nextId t p) true)
      ∧ (a.picked t rd p 0#32).thr t = { (a.thr t).wx rd a.led.nextId with aux := p.tag } := by
  obtain ⟨hled, hseq, hhost⟩ := journal_frame (.enter (pickedSheet a.led.nextId t p) true) hf
  have hthr : ∀ u, (a.journal (.enter (pickedSheet a.led.nextId t p) true)).thr u = a.thr u := fun u => by rw [State.thr, hseq, State.thr]
  unfold State.picked State.rinsePick
  extract_lets id sh b n c d e
  have hj : b = a.journal (.enter (pickedSheet a.led.nextId t p) true) := rfl
  have he : ((e.wx t rd id).setAux t p.tag).host.rinse = none := by
    change b.host.rinse = none
    rw [hj, hhost, hr]
  rw [he]
  refine ⟨?_, ?_⟩
  · change b.led = _
    rw [hj, hled]
  · have hdthr : e.thr t = a.thr t := by
      change b.thr t = _
      rw [hj, hthr]
    change (((e.wx t rd id).setAux t p.tag).thr t) = _
    rw [State.setAux, thr_setThr_same, State.wx, thr_setThr_same, hdthr]
    rfl

/-- Settles O21. -/
theorem pickTakesAPageOrSaysWhyNot : Obligations.PickTakesAPageOrSaysWhyNot := by
  intro s t rd rs1 rs2 h hfrozen hac
  have he : exec (.pick t rd rs1 rs2) s = .next (s.perform t 4 fun a => a.pick t rd rs1 rs2) :=
    congrArg Host.Outcome.next (if_neg (by simp [hfrozen]))
  refine ⟨fun p hp hno hgap hsheet hrinse => ⟨_, he, ?_⟩, fun aux hwhy => ?_⟩
  · rw [hsheet] at hno
    have hpick : (s.charge t 4).pick t rd rs1 rs2 =
        ((s.charge t 4).putF F.CEL_PITCH_GAP (s.charge t 4).pitchGap).picked t rd p 0#32 := by
      unfold State.pick
      simp only [rx_charge, pickPage_charge, pickRefusal_charge, pitchLeft_charge, hp, hno, hgap, hsheet, ne_eq, not_true, if_false]
    obtain ⟨hled, hthr⟩ := picked_first (a := (s.charge t 4).putF F.CEL_PITCH_GAP (s.charge t 4).pitchGap) t rd p hac hrinse
    rw [perform_frame _ h, State.rx, State.thr]
    change (_ → ((s.perform t 4 _).thr t).rx rd = _) ∧ ((s.perform t 4 _).thr t).aux = _ ∧ ((s.perform t 4 _).thr t).pc = _ ∧ _
    rw [thr_perform_same _ h, hpick, hthr, hled]
    refine ⟨fun hrd => ?_, rfl, rfl, rfl, _, List.mem_append_right _ (List.mem_singleton_self _), rfl, rfl, rfl, rfl⟩
    simp [Thread.rx, Thread.wx, hrd]
    rfl
  · refine tResult_of_wx_aux h he ?_
    unfold State.pick
    simp only [rx_charge, pickPage_charge, pickRefusal_charge, hwhy]
    rfl

end Sys2Proof.Machine

end

/-! ## What follow-ups leave unchanged

Many commands end with a follow-up: an event line fires (R64), a gated station stops (R202), the journal fills up (R376). Its
frame is said here once: the register blocks that it can reach, and the parts of the state that it leaves. -/

section

namespace Sys2Proof.Machine

/-- Refutes O25: a host read of a saturated counter leaves the counts that it could not take in the present cycle (R6), as IN does. -/
theorem not_registerAndPairAccessesAct : ¬ Obligations.RegisterAndPairAccessesAct := by
  intro h
  obtain ⟨-, -, hread, -, -, -⟩ := h countLost R.SEQ_ECC_CORR 0#32 (by decide) (by decide)
  obtain ⟨t, he, -, hrc, -⟩ := hread (by decide) (by decide) (by decide) (by decide) (by decide) (by decide) (by decide)
  cases he
  exact absurd hrc (by decide)

/-! ### Register blocks -/

/-- From `s` to `t` only registers of the blocks `bs` (Table 0-5) have changed. -/
def State.Within (bs : List Nat) (s t : State) : Prop := ∀ off, off / 65536 ∉ bs → t.getR off = s.getR off

section within

variable {bs : List Nat} {s a : State}

theorem State.Within.refl (bs : List Nat) (s : State) : State.Within bs s s := fun _ _ => rfl

theorem State.Within.trans {b : State} (h : State.Within bs s a) (k : State.Within bs a b) : State.Within bs s b := fun off hoff =>
  (k off hoff).trans (h off hoff)

theorem State.Within.mono {cs : List Nat} (h : State.Within bs s a) (hc : ∀ b ∈ bs, b ∈ cs) : State.Within cs s a := fun off hoff =>
  h off fun hb => hoff (hc _ hb)

theorem State.Within.putR (h : State.Within bs s a) {off : Nat} (w : Word) (hb : off / 65536 ∈ bs) : State.Within bs s (a.putR off w) :=
  h.trans fun _ ho => getR_putR_ne a w fun e => ho (e ▸ hb)

theorem State.Within.putF (h : State.Within bs s a) {f : Fld} (v : Nat) (hb : f.off / 65536 ∈ bs) : State.Within bs s (a.putF f v) :=
  h.putR _ hb

theorem State.Within.putP (h : State.Within bs s a) {off : Nat} (v : Nat) (hb : off / 65536 ∈ bs) (hb' : (off + 4) / 65536 ∈ bs) :
    State.Within bs s (a.putP off v) := (h.putR _ hb).putR _ hb'

theorem getR_putLost (s : State) (off o : Nat) (w : Word) : (s.putLost off w).getR o = s.getR o := rfl

theorem State.Within.incR (h : State.Within bs s a) {off : Nat} (n : Nat) (hb : off / 65536 ∈ bs) : State.Within bs s (a.incR off n) := by
  unfold State.incR
  exact (h.putR _ hb).trans fun _ _ => getR_putLost ..

theorem State.Within.getF (h : State.Within bs s a) (f : Fld) (hb : f.off / 65536 ∉ bs) : a.getF f = s.getF f := by
  rw [State.getF, State.getF, h _ hb]

theorem State.Within.flag (h : State.Within bs s a) (f : Fld) (hb : f.off / 65536 ∉ bs) : a.flag f = s.flag f := by
  rw [State.flag, State.flag, h.getF f hb]

theorem State.Within.foldl {α : Type} (l : List α) {f : State → α → State} (h : State.Within bs s a)
    (hf : ∀ b, ∀ x ∈ l, State.Within bs b (f b x)) : State.Within bs s (l.foldl f a) := by
  induction l generalizing a with
  | nil => exact h
  | cons x r ih => exact ih (h.trans (hf a x (List.mem_cons_self ..))) fun b y hy => hf b y (List.mem_cons_of_mem x hy)

end within

/-! ### Event lines -/

theorem fireAt_frame (s : State) (cls inst j : Nat) (anyInst : Bool) : ∃ r q l,
    s.fireAt cls inst j anyInst = { s with regs := r, seq := q, lost := l } := by
  have hcount : ∀ (l : List Nat) (p : Nat → Bool) (a : State), ∃ r x,
      l.foldl (fun a n => if p n then a.incR (R.SEQ_THR_EVOVF n) 1 else a) a = { a with regs := r, lost := x } := by
    intro l p
    induction l with
    | nil => exact fun a => ⟨_, _, rfl⟩
    | cons n l ih =>
      intro a
      simp only [List.foldl_cons]
      split
      · obtain ⟨r, x, h⟩ := ih (a.incR (R.SEQ_THR_EVOVF n) 1)
        exact ⟨r, x, h⟩
      · exact ih a
  unfold State.fireAt
  split
  · obtain ⟨r, x, h⟩ := hcount (List.range 16) _ s
    dsimp only
    rw [h]
    exact ⟨r, _, x, rfl⟩
  · exact ⟨_, _, _, rfl⟩

/-- A hardware source that fires changes the pending bits of threads and the counts of merged firings. -/
theorem fire_frame (s : State) (cls inst : Nat) (anyInst : Bool) : ∃ r q l,
    s.fire cls inst anyInst = { s with regs := r, seq := q, lost := l } := by
  have hfold : ∀ (l : List Nat) (a : State), ∃ r q x,
      l.foldl (fun a j => a.fireAt cls inst j anyInst) a = { a with regs := r, seq := q, lost := x } := by
    intro l
    induction l with
    | nil => exact fun a => ⟨_, _, _, rfl⟩
    | cons j l ih =>
      intro a
      obtain ⟨r, q, x, h⟩ := fireAt_frame a cls inst j anyInst
      obtain ⟨r', q', x', h'⟩ := ih (a.fireAt cls inst j anyInst)
      rw [List.foldl_cons, h', h]
      exact ⟨r', q', x', rfl⟩
  unfold State.fire
  split
  · exact ⟨_, _, _, rfl⟩
  · exact hfold _ s

theorem fireAt_within (s : State) (cls inst j : Nat) (anyInst : Bool) : State.Within [2] s (s.fireAt cls inst j anyInst) := by
  unfold State.fireAt
  split
  · refine State.Within.trans (.foldl _ (.refl _ s) fun b n hn => ?_) (fun _ _ => rfl)
    split
    · refine (State.Within.refl _ b).incR 1 ?_
      have := List.mem_range.1 hn
      simp only [R.SEQ_THR_EVOVF, List.mem_singleton]
      omega
    · exact .refl _ b
  · exact .refl _ s

theorem fire_within (s : State) (cls inst : Nat) (anyInst : Bool) : State.Within [2] s (s.fire cls inst anyInst) := by
  unfold State.fire
  split
  · exact .refl _ s
  · exact .foldl _ (.refl _ s) fun b j _ => fireAt_within b cls inst j anyInst

/-! ### Stations that stop -/

/-- From `s` to `t` stations have stopped: beside register words only the Racking engine, the stations, the ledger and its journal
have changed. -/
def State.Stops (s t : State) : Prop :=
  ∃ r k n l j, t = { s with regs := r, rck := k, stn := n, led := l, jr := j }

theorem State.Stops.refl (s : State) : s.Stops s := ⟨_, _, _, _, _, rfl⟩

theorem State.Stops.trans {s a t : State} (h : s.Stops a) (h' : a.Stops t) : s.Stops t := by
  obtain ⟨r, k, n, l, j, rfl⟩ := h
  obtain ⟨r', k', n', l', j', rfl⟩ := h'
  exact ⟨r', k', n', l', j', rfl⟩

theorem State.Stops.foldl {α : Type} (l : List α) {f : State → α → State} (hf : ∀ b x, State.Stops b (f b x)) (s : State) :
    s.Stops (l.foldl f s) := by
  induction l generalizing s with
  | nil => exact .refl s
  | cons x r ih => exact (hf s x).trans (ih (f s x))

theorem withdraw_stops (s : State) (c : Nat) : s.Stops (s.withdraw c) := by
  unfold State.withdraw
  dsimp only
  split <;> exact ⟨_, _, _, _, _, rfl⟩

theorem jfullCheck_stops (s : State) : s.Stops s.jfullCheck := by
  unfold State.jfullCheck
  split <;> exact ⟨_, _, _, _, _, rfl⟩

theorem journal_stops (s : State) (e : JEntry) : s.Stops (s.journal e) := by
  unfold State.journal
  split
  · exact .refl s
  · exact State.Stops.trans ⟨_, _, _, _, _, rfl⟩ (jfullCheck_stops _)

theorem spoil_stops (s : State) (id : Word) : s.Stops (s.spoil id) := by
  unfold State.spoil
  split
  · split
    · exact .refl s
    · exact journal_stops s _
  · exact .refl s

theorem spoilStn_stops (s : State) (i : Fin 6) : s.Stops (s.spoilStn i) := by
  unfold State.spoilStn
  split
  · exact spoil_stops s _
  · exact .refl s

theorem putF_stops (s : State) (f : Fld) (v : Nat) : s.Stops (s.putF f v) := ⟨_, _, _, _, _, rfl⟩

theorem updStn_stops (s : State) (i : Fin 6) (f : Station → Station) : s.Stops (s.updStn i f) := ⟨_, _, _, _, _, rfl⟩

theorem loseDots_stops (s : State) (i : Fin 6) (n : Nat) : s.Stops (s.loseDots i n) := ⟨_, _, _, _, _, rfl⟩

theorem slewStart_stops (s : State) (i : Fin 6) : s.Stops (s.slewStart i) := by
  unfold State.slewStart
  extract_lets busy
  split
  · exact (putF_stops s _ _).trans (updStn_stops _ i _)
  · exact .refl s

theorem inhibit_stops (s : State) (i : Fin 6) : s.Stops (s.inhibit i) := by
  unfold State.inhibit
  split
  · split
    · exact .refl s
    · refine State.Stops.trans ?_ (.foldl _ slewStart_stops _)
      refine State.Stops.trans ?_ (putF_stops _ _ _)
      refine State.Stops.trans ?_ (spoilStn_stops _ i)
      exact ((withdraw_stops s _).trans (loseDots_stops _ i _)).trans (updStn_stops _ i _)
  · exact .refl s

theorem gateFollow_stops (s : State) : s.Stops s.gateFollow := by
  refine .foldl _ (fun b i => ?_) s
  split
  · exact inhibit_stops b i
  · exact .refl b

/-- The register blocks of the Racking engine, the stations' Decanters and the ledger. -/
def haltBlocks : List Nat := [4, 7, 0x13]

/-- Those blocks and that of the exposure clocks. -/
def stopBlocks : List Nat := [4, 7, 8, 0x13]

theorem State.Within.stop {s t : State} (h : State.Within haltBlocks s t) : State.Within stopBlocks s t := h.mono (by decide)

theorem withdraw_within (s : State) {c : Nat} (hc : c < 16) : State.Within haltBlocks s (s.withdraw c) := by
  have hgen : (F.RCK_CH_STATUS_GEN c).off / 65536 ∈ haltBlocks := by
    simp only [F.RCK_CH_STATUS_GEN, R.RCK_CH_STATUS, haltBlocks, List.mem_cons]
    omega
  unfold State.withdraw
  extract_lets a h b
  have hb : State.Within haltBlocks s b := ((State.Within.refl _ s).putF _ hgen).trans fun _ _ => rfl
  clear_value b
  split
  · exact hb.putF _ hgen
  · exact hb

theorem jfullCheck_within (s : State) : State.Within haltBlocks s s.jfullCheck := by
  unfold State.jfullCheck
  split
  · exact ((State.Within.refl _ s).putF _ (by decide)).putF _ (by decide)
  · exact .refl _ s

theorem journal_within (s : State) (e : JEntry) : State.Within haltBlocks s (s.journal e) := by
  unfold State.journal
  split
  · exact .refl _ s
  · exact State.Within.trans (fun _ _ => rfl) (jfullCheck_within _)

theorem spoil_within (s : State) (id : Word) : State.Within haltBlocks s (s.spoil id) := by
  unfold State.spoil
  split
  · split
    · exact .refl _ s
    · exact journal_within s _
  · exact .refl _ s

theorem spoilStn_within (s : State) (i : Fin 6) : State.Within haltBlocks s (s.spoilStn i) := by
  unfold State.spoilStn
  split
  · exact spoil_within s _
  · exact .refl _ s

theorem updStn_within {bs : List Nat} (s : State) (i : Fin 6) (f : Station → Station) : State.Within bs s (s.updStn i f) := fun _ _ => rfl

theorem loseDots_within (s : State) (i : Fin 6) (n : Nat) : State.Within haltBlocks s (s.loseDots i n) := by
  have hlo : R.DEC_DOTS_LOST_LO i / 65536 ∈ haltBlocks := by
    simp only [R.DEC_DOTS_LOST_LO, haltBlocks, List.mem_cons]
    omega
  have hhi : (R.DEC_DOTS_LOST_LO i + 4) / 65536 ∈ haltBlocks := by
    simp only [R.DEC_DOTS_LOST_LO, haltBlocks, List.mem_cons]
    omega
  exact ((State.Within.refl _ s).putP _ hlo hhi).trans (updStn_within _ i _)

/-- The stop of a page changes registers of the Racking engine, the Decanters and the ledger; a slew that waited for it then begins. -/
theorem inhibit_eq (s : State) (i : Fin 6) : s.inhibit i = s ∨ ∃ a, State.Within haltBlocks s a ∧ s.inhibit i = a.slewStarts := by
  have hstate : (F.DEC_STATUS_STATE i).off / 65536 ∈ haltBlocks := by
    simp only [F.DEC_STATUS_STATE, R.DEC_STATUS, haltBlocks, List.mem_cons]
    omega
  unfold State.inhibit
  split
  · split
    · exact Or.inl rfl
    · refine Or.inr ⟨_, State.Within.putF ?_ _ hstate, rfl⟩
      refine State.Within.trans ?_ (spoilStn_within _ i)
      exact ((withdraw_within s (by omega)).trans (loseDots_within _ i _)).trans (updStn_within _ i _)
  · exact Or.inl rfl

theorem slewStart_within (s : State) (i : Fin 6) : State.Within stopBlocks s (s.slewStart i) := by
  have hslew : (F.EXP_STATUS_SLEWING i).off / 65536 ∈ stopBlocks := by
    simp only [F.EXP_STATUS_SLEWING, R.EXP_STATUS, stopBlocks, List.mem_cons]
    omega
  unfold State.slewStart
  extract_lets busy
  split
  · exact ((State.Within.refl _ s).putF _ hslew).trans (updStn_within _ i _)
  · exact .refl _ s

theorem inhibit_within (s : State) (i : Fin 6) : State.Within stopBlocks s (s.inhibit i) := by
  obtain h | ⟨a, ha, h⟩ := inhibit_eq s i
  · rw [h]
    exact .refl _ s
  · rw [h]
    exact .foldl _ ha.stop fun b j _ => slewStart_within b j

theorem gateFollow_within (s : State) : State.Within stopBlocks s s.gateFollow := by
  refine .foldl _ (.refl _ s) fun b i _ => ?_
  split
  · exact inhibit_within b i
  · exact .refl _ b

end Sys2Proof.Machine

end

/-! ## Fields after writes

What a field reads after a write to it, after a write to another field of its register, after hardware has set it and after a write of 1
has cleared it (R6). -/

section

namespace Sys2Proof.Machine

/-! ### Bits of numbers -/

theorem bit_eq_testBit (v i : Nat) : bit v i = v.testBit i := by
  rw [bit, Nat.testBit_eq_decide_div_mod_eq]
  exact beq_eq_decide ..

/-- Two numbers that agree above bit `i` have the same bits there. -/
theorem testBit_congr_of_div {v w i j : Nat} (h : v / 2 ^ (i + 1) = w / 2 ^ (i + 1)) (hj : i < j) : v.testBit j = w.testBit j := by
  obtain ⟨k, rfl⟩ := Nat.exists_eq_add_of_lt hj
  have e : ∀ x : Nat, x.testBit (i + k + 1) = (x / 2 ^ (i + 1)).testBit k := fun x => by
    rw [Nat.testBit_div_two_pow]
    congr 1
    omega
  rw [e, e, h]

/-- A number to which a bit has been added that it did not have. -/
theorem testBit_add_two_pow {v i : Nat} (j : Nat) (h : v.testBit i = false) :
    (v + 2 ^ i).testBit j = if j = i then true else v.testBit j := by
  rcases lt_trichotomy j i with hj | rfl | hj
  · rw [if_neg hj.ne, Nat.add_comm, Nat.testBit_two_pow_add_gt hj]
  · rw [if_pos rfl, Nat.add_comm, Nat.testBit_two_pow_add_eq, h]
    rfl
  · rw [if_neg hj.ne']
    refine testBit_congr_of_div ?_ hj
    rw [Nat.testBit_eq_decide_div_mod_eq, decide_eq_false_iff_not] at h
    rw [pow_succ, ← Nat.div_div_eq_div_mul, ← Nat.div_div_eq_div_mul, Nat.add_div_right _ (Nat.two_pow_pos i)]
    omega

theorem testBit_setBit (v i j : Nat) (b : Bool) : (setBit v i b).testBit j = if j = i then b else v.testBit j := by
  unfold setBit
  rw [bit_eq_testBit]
  cases h : v.testBit i <;> cases b
  · by_cases hj : j = i <;> simp [hj, h]
  · simpa using testBit_add_two_pow j h
  · have hle : 2 ^ i ≤ v := Nat.ge_two_pow_of_testBit h
    have hlow : (v - 2 ^ i).testBit i = false := by
      have := Nat.testBit_two_pow_add_eq (v - 2 ^ i) i
      rw [Nat.add_sub_cancel' hle, h] at this
      simpa using this.symm
    have := testBit_add_two_pow j hlow
    rw [Nat.sub_add_cancel hle] at this
    by_cases hj : j = i
    · subst hj
      simpa using hlow
    · simpa [hj] using this.symm
  · by_cases hj : j = i <;> simp [hj, h]

/-! ### Writes of fields -/

theorem getF_congr {s t : State} {f : Fld} (h : t.getR f.off = s.getR f.off) : t.getF f = s.getF f := by
  rw [State.getF, h, State.getF]

theorem flag_congr {s t : State} {f : Fld} (h : t.getR f.off = s.getR f.off) : t.flag f = s.flag f := by
  rw [State.flag, getF_congr h, State.flag]

section

variable (s : State) (f g : Fld)

theorem flag_putF_same (v : Nat) (h : f.lo + f.w ≤ 32) : (s.putF f v).flag f = (v % 2 ^ f.w != 0) := by
  rw [State.flag, getF_putF_same s f v h]

theorem flag_putF_off (v : Nat) (h : g.off ≠ f.off) : (s.putF f v).flag g = s.flag g := by
  rw [State.flag, getF_putF_off s f g v h, State.flag]

theorem flag_putF_disjoint (v : Nat) (hg : g.lo + g.w ≤ 32) (h : g.lo + g.w ≤ f.lo ∨ f.lo + f.w ≤ g.lo) :
    (s.putF f v).flag g = s.flag g := by
  rw [State.flag, getF_putF_disjoint s f g v hg h, State.flag]

theorem flag_putB_same (b : Bool) (h : f.lo + f.w ≤ 32) (hw : f.w ≠ 0) : (s.putB f b).flag f = b := by
  rw [State.putB, flag_putF_same s f _ h]
  have h1 : 1 % 2 ^ f.w = 1 := Nat.mod_eq_of_lt (Nat.one_lt_two_pow hw)
  cases b <;> simp [boolNat, h1]

theorem bitF_putBitF_same (i : Nat) (b : Bool) (h : f.lo + f.w ≤ 32) (hi : i < f.w) : (s.putBitF f i b).bitF f i = b := by
  rw [State.bitF, State.putBitF, getF_putF_same s f _ h, bit_eq_testBit, Nat.testBit_mod_two_pow, testBit_setBit]
  simp [hi]

theorem getR_incR_ne {off o : Nat} (n : Nat) (h : o ≠ off) : (s.incR off n).getR o = s.getR o := by
  unfold State.incR
  rw [getR_putLost, getR_putR_ne s _ h]

theorem getF_incR {off : Nat} (n : Nat) (h : f.off ≠ off) : (s.incR off n).getF f = s.getF f := by
  rw [State.getF, getR_incR_ne s n h, State.getF]

/-! ### Bits that hardware sets -/

theorem getLsbD_ones (lo n i : Nat) (hi : i < 32) : (ones lo n).getLsbD i = decide (lo ≤ i ∧ i < lo + n) := by
  rw [ones, BitVec.getLsbD_ofNat, Nat.testBit_mul_two_pow, Nat.testBit_two_pow_sub_one]
  by_cases h : lo ≤ i <;> simp [h, hi] <;> omega

theorem getF_latchF_same (h : f.lo + f.w ≤ 32) : (s.latchF f).getF f = 2 ^ f.w - 1 := by
  have hr : (s.latchF f).getR f.off = s.getR f.off ||| ones f.lo f.w := getR_putR_same ..
  rw [State.getF, hr]
  apply Nat.eq_of_testBit_eq
  intro i
  rw [bits_testBit, Nat.testBit_two_pow_sub_one]
  by_cases hi : i < f.w
  · rw [BitVec.getLsbD_or, getLsbD_ones _ _ _ (by omega)]
    simp [hi]
  · simp [hi]

theorem flag_latchF_same (h : f.lo + f.w ≤ 32) (hw : f.w ≠ 0) : (s.latchF f).flag f = true := by
  have : 1 < 2 ^ f.w := Nat.one_lt_two_pow hw
  rw [State.flag, getF_latchF_same s f h]
  simp
  omega

theorem getR_latchF_ne {o : Nat} (h : o ≠ f.off) : (s.latchF f).getR o = s.getR o := getR_putR_ne s _ h

theorem getF_latchF_disjoint (hg : g.lo + g.w ≤ 32) (h : g.lo + g.w ≤ f.lo ∨ f.lo + f.w ≤ g.lo) : (s.latchF f).getF g = s.getF g := by
  by_cases ho : g.off = f.off
  · have hr : (s.latchF f).getR f.off = s.getR f.off ||| ones f.lo f.w := getR_putR_same ..
    rw [State.getF, State.getF, ho, hr]
    apply Nat.eq_of_testBit_eq
    intro i
    rw [bits_testBit, bits_testBit]
    by_cases hi : i < g.w
    · rw [BitVec.getLsbD_or, getLsbD_ones _ _ _ (by omega)]
      have : ¬ (f.lo ≤ g.lo + i ∧ g.lo + i < f.lo + f.w) := by omega
      simp [this]
    · simp [hi]
  · rw [State.getF, State.getF, getR_latchF_ne s f ho]

/-! ### Bits that a write of 1 clears -/

theorem getR_clearF_ne {o : Nat} (h : o ≠ f.off) : (s.clearF f).getR o = s.getR o := getR_putR_ne s _ h

/-- A flag that was there when the cycle began is cleared by a write of 1. -/
theorem getF_clearF_same (h : f.lo + f.w ≤ 32) (hs : s.startR f.off = s.getR f.off) : (s.clearF f).getF f = 0 := by
  have hr : (s.clearF f).getR f.off = s.getR f.off &&& ~~~(ones f.lo f.w &&& s.startR f.off) := getR_putR_same ..
  rw [State.getF, hr, hs]
  apply Nat.eq_of_testBit_eq
  intro i
  rw [bits_testBit, Nat.zero_testBit]
  by_cases hi : i < f.w
  · have h32 : f.lo + i < 32 := by omega
    rw [BitVec.getLsbD_and, BitVec.getLsbD_not, BitVec.getLsbD_and, getLsbD_ones _ _ _ h32]
    cases (s.getR f.off).getLsbD (f.lo + i) <;> simp [hi]
  · simp [hi]

theorem flag_clearF_same (h : f.lo + f.w ≤ 32) (hs : s.startR f.off = s.getR f.off) : (s.clearF f).flag f = false := by
  rw [State.flag, getF_clearF_same s f h hs]
  rfl

end

end Sys2Proof.Machine

end

/-! ## CoeneLink: ports, frames and enumeration (R428 to R433, R439 to R441) -/

section

namespace Sys2Proof.Machine

variable {s : State} {p : Fin 2}

/-! ### Events -/

@[simp] theorem State.raise_getR (s : State) (id : EvId) (i : Nat) (a b : Word) (o : Nat) : (s.raise id i a b).getR o = s.getR o := rfl
@[simp] theorem State.raise_getF (s : State) (id : EvId) (i : Nat) (a b : Word) (f : Fld) : (s.raise id i a b).getF f = s.getF f := rfl
@[simp] theorem State.raise_flag (s : State) (id : EvId) (i : Nat) (a b : Word) (f : Fld) : (s.raise id i a b).flag f = s.flag f := rfl

/-- An event that waits is still there where events and time have stayed. -/
theorem State.Arisen.of_eq {t : State} {id : EvId} {i : Nat} (h : s.Arisen id i) (hev : t.ev = s.ev) (ht : t.tsc = s.tsc) : t.Arisen id i := by
  rw [State.Arisen, hev, ht]
  exact h

/-! ### Ports and their queues -/

@[simp] theorem cport_updPort_same (s : State) (p : Fin 2) (f : ChnPort → ChnPort) : (s.updPort p f).cport p = f (s.cport p) := by
  simp [State.cport, State.updPort]

theorem cport_updPort_ne (s : State) {p q : Fin 2} (f : ChnPort → ChnPort) (h : q ≠ p) : (s.updPort p f).cport q = s.cport q := by
  have : (p : Nat) ≠ (q : Nat) := fun e => h (Fin.ext e.symm)
  simp [State.cport, State.updPort, this]

/-- A message with room in its queue is queued, and nothing else changes. -/
theorem chnQueue_of_room (m : ChnMsg) (h : (s.cport p).txq.length < 32) :
    s.chnQueue p m = s.updPort p fun x => { x with txq := x.txq ++ [m] } := if_pos h

/-- A message to be sent changes its queue, or is counted in CHN_DROP. -/
theorem chnQueue_frame (s : State) (p : Fin 2) (m : ChnMsg) : (s.chnQueue p m).ev = s.ev ∧ (s.chnQueue p m).tsc = s.tsc
    ∧ (∀ o, o ≠ R.CHN_DROP → (s.chnQueue p m).getR o = s.getR o)
    ∧ ∀ q, ∃ x, (s.chnQueue p m).cport q = { s.cport q with txq := x } := by
  unfold State.chnQueue
  split
  · refine ⟨rfl, rfl, fun _ _ => rfl, fun q => ?_⟩
    by_cases hq : q = p
    · subst hq
      exact ⟨_, cport_updPort_same ..⟩
    · exact ⟨_, cport_updPort_ne s _ hq⟩
  · exact ⟨rfl, rfl, fun o ho => getR_incR_ne s 1 ho, fun q => ⟨_, rfl⟩⟩

theorem getR_chnQueue_ne (m : ChnMsg) {o : Nat} (h : o ≠ R.CHN_DROP) : (s.chnQueue p m).getR o = s.getR o :=
  (chnQueue_frame s p m).2.2.1 o h

theorem getR_chnSend_ne {ty : BitVec 8} {dest : BitVec 4} {content : List Byte} {o : Nat} (h : o ≠ R.CHN_DROP) :
    (s.chnSend p ty dest content).getR o = s.getR o := getR_chnQueue_ne _ h

theorem getF_chnSend {ty : BitVec 8} {dest : BitVec 4} {content : List Byte} (f : Fld) (h : f.off ≠ R.CHN_DROP) :
    (s.chnSend p ty dest content).getF f = s.getF f := by
  rw [State.getF, getR_chnSend_ne h, State.getF]

theorem flag_chnSend {ty : BitVec 8} {dest : BitVec 4} {content : List Byte} (f : Fld) (h : f.off ≠ R.CHN_DROP) :
    (s.chnSend p ty dest content).flag f = s.flag f := by
  rw [State.flag, getF_chnSend f h, State.flag]

/-! ### Enumeration (R431) -/

/-- A device of a chain that is not too long takes the count of the units, and the chain is formed. -/
theorem enumEnd_formed {n : Nat} (h : 1 ≤ n) (h16 : n < 16) :
    (s.enumEnd n).getF F.CHN_STATUS_UNITS = n ∧ (s.enumEnd n).flag F.CHN_STATUS_FORMED = true := by
  have hn : n ≠ 0 := by omega
  rw [State.enumEnd, if_neg hn]
  constructor
  · rw [getF_putF_disjoint _ _ _ _ (by decide) (by decide), getF_putF_disjoint _ _ _ _ (by decide) (by decide),
      getF_putF_same _ _ _ (by decide)]
    exact Nat.mod_eq_of_lt h16
  · rw [flag_putF_same _ _ _ (by decide)]
    rfl

theorem enumEnd_tooLong (s : State) : (s.enumEnd 0).flag F.CHN_STATUS_TOO_LONG = true ∧ (s.enumEnd 0).flag F.CHN_STATUS_FORMED = false
    ∧ (s.enumEnd 0).Arisen Ev.CHN_TOO_LONG 0 := by
  rw [State.enumEnd, if_pos rfl]
  refine ⟨?_, ?_, arisen_raise ..⟩
  · rw [State.raise_flag, flag_putF_disjoint _ _ _ _ (by decide) (by decide), flag_putF_same _ _ _ (by decide)]
    rfl
  · rw [State.raise_flag, flag_putF_same _ _ _ (by decide)]
    rfl

theorem getF_enumEnd_addr (s : State) (n : Nat) : (s.enumEnd n).getF F.CHN_STATUS_ADDR = s.getF F.CHN_STATUS_ADDR := by
  unfold State.enumEnd
  split
  · rw [State.raise_getF, getF_putF_disjoint _ _ _ _ (by decide) (by decide), getF_putF_disjoint _ _ _ _ (by decide) (by decide)]
  · rw [getF_putF_disjoint _ _ _ _ (by decide) (by decide), getF_putF_disjoint _ _ _ _ (by decide) (by decide),
      getF_putF_disjoint _ _ _ _ (by decide) (by decide)]

/-- The end of the enumeration changes CHN_STATUS alone among the registers, and no port. -/
theorem enumEnd_frame (s : State) (n : Nat) : (s.enumEnd n).chn = s.chn ∧ ∀ o, o ≠ R.CHN_STATUS → (s.enumEnd n).getR o = s.getR o := by
  unfold State.enumEnd
  split
  · exact ⟨rfl, fun o ho => (getR_putF_ne _ _ _ _ ho).trans (getR_putF_ne _ _ _ _ ho)⟩
  · exact ⟨rfl, fun o ho => ((getR_putF_ne _ _ _ _ ho).trans (getR_putF_ne _ _ _ _ ho)).trans (getR_putF_ne _ _ _ _ ho)⟩

/-- The next step of the enumeration queues a message, or forms the chain. -/
theorem enumDown_frame (s : State) : s.enumDown.getF F.CHN_STATUS_ADDR = s.getF F.CHN_STATUS_ADDR
    ∧ (∀ o, o ≠ R.CHN_STATUS → o ≠ R.CHN_DROP → s.enumDown.getR o = s.getR o)
    ∧ ∀ q, ∃ x, s.enumDown.cport q = { s.cport q with txq := x } := by
  unfold State.enumDown
  extract_lets a
  split
  · exact ⟨getF_chnSend _ (by decide), fun o _ ho => getR_chnSend_ne ho, (chnQueue_frame ..).2.2.2⟩
  · obtain ⟨hchn, hreg⟩ := enumEnd_frame s a
    have hport : ∀ q, (s.enumEnd a).cport q = s.cport q := fun q => by rw [State.cport, hchn, State.cport]
    unfold State.when
    split
    · refine ⟨(getF_chnSend _ (by decide)).trans (getF_enumEnd_addr s a), fun o ho ho' => (getR_chnSend_ne ho').trans (hreg o ho), fun q => ?_⟩
      rw [← hport]
      exact (chnQueue_frame ..).2.2.2 q
    · exact ⟨getF_enumEnd_addr s a, fun o ho _ => hreg o ho, fun q => ⟨_, hport q⟩⟩

/-! ### Stops and alarms (R439 to R441) -/

theorem stopOut_frame (s : State) (p : Fin 2) (src : BitVec 4) : (s.stopOut p src).regs = s.regs ∧ (s.stopOut p src).ev = s.ev
    ∧ (s.stopOut p src).tsc = s.tsc := ⟨rfl, rfl, rfl⟩

/-- A stop is sent on both ports. -/
theorem cport_stopSend (s : State) (q : Fin 2) : s.stopSend.cport q =
    { s.cport q with stops := (s.cport q).stops + 1, stopAt := s.tsc.toNat, stopSrc := s.chnAddr } := by
  unfold State.stopSend State.stopOut
  fin_cases q
  · exact (cport_updPort_ne _ _ (by decide)).trans (cport_updPort_same ..)
  · refine (cport_updPort_same ..).trans ?_
    rw [cport_updPort_ne _ _ (by decide)]
    rfl

theorem chnAlarm_frame (s : State) (cause port : Nat) : (s.chnAlarm cause port).ev = s.ev ∧ (s.chnAlarm cause port).tsc = s.tsc
    ∧ ∀ o, o ≠ R.CHN_DROP → (s.chnAlarm cause port).getR o = s.getR o := by
  unfold State.chnAlarm
  extract_lets c a
  have ha : a.ev = s.ev ∧ a.tsc = s.tsc ∧ ∀ o, o ≠ R.CHN_DROP → a.getR o = s.getR o := by
    obtain ⟨e0, t0, r0, -⟩ := chnQueue_frame s 0 { ty := 0x20#8, dest := 0xF#4, src := s.chnAddr, body := bodyOf c }
    obtain ⟨e1, t1, r1, -⟩ := chnQueue_frame (s.chnSend 0 0x20#8 0xF#4 c) 1
      { ty := 0x20#8, dest := 0xF#4, src := (s.chnSend 0 0x20#8 0xF#4 c).chnAddr, body := bodyOf c }
    exact ⟨e1.trans e0, t1.trans t0, fun o ho => (r1 o ho).trans (r0 o ho)⟩
  clear_value a
  split
  · exact ha
  · exact ha

/-- The loss of the alignment is reported, and changes CHN_STATUS alone among the registers. -/
theorem alignLost_frame (s : State) : (∀ o, o ≠ R.CHN_STATUS → s.alignLost.getR o = s.getR o)
    ∧ ∀ id i, s.Arisen id i → s.alignLost.Arisen id i := by
  unfold State.alignLost
  extract_lets ch a
  have hr : ∀ o, a.getR o = s.getR o := fun _ => rfl
  have he : ∀ id i, s.Arisen id i → a.Arisen id i := fun _ _ h => h.of_eq rfl rfl
  clear_value a
  split
  · exact ⟨fun o ho => (getR_putF_ne _ F.CHN_STATUS_ALIGNED _ _ ho).trans (hr o),
      fun id i h => arisen_of_raise _ _ _ _ _ _ _ ((he id i h).of_eq rfl rfl)⟩
  · exact ⟨fun o _ => hr o, he⟩

theorem chnPortStatus_ne (p : Fin 2) {o : Nat} (h : o ∈ [R.CHN_STATUS, R.CHN_DROP]) : R.CHN_PORT_STATUS p ≠ o := by
  have : R.CHN_PORT_STATUS 0 ≠ R.CHN_STATUS ∧ R.CHN_PORT_STATUS 1 ≠ R.CHN_STATUS ∧ R.CHN_PORT_STATUS 0 ≠ R.CHN_DROP
      ∧ R.CHN_PORT_STATUS 1 ≠ R.CHN_DROP := by decide
  fin_cases p <;> simp at h <;> rcases h with rfl | rfl <;> tauto

/-- The first half of a port's going down: its own status and the report. -/
theorem portDown_status (s : State) (p : Fin 2) :
    (((s.putF (F.CHN_PORT_STATUS_STATE p) 0).putF (F.CHN_PORT_STATUS_NALIGNED p) 0).raise Ev.CHN_PORT_DOWN p).getF
      (F.CHN_PORT_STATUS_STATE p) = 0 := by
  rw [State.raise_getF, getF_putF_disjoint _ _ _ _ (by simp [F.CHN_PORT_STATUS_STATE])
    (by simp [F.CHN_PORT_STATUS_STATE, F.CHN_PORT_STATUS_NALIGNED]), getF_putF_same _ _ _ (by simp [F.CHN_PORT_STATUS_STATE]), Nat.zero_mod]

/-- The second half: the chain is no longer aligned or formed. -/
theorem portDown_chain (a : State) (p : Fin 2) (b : State)
    (hb : b = if p = 0 then (a.alignLost).putF F.CHN_STATUS_FORMED 0 else if a.flag F.CHN_STATUS_HEAD then a.putF F.CHN_STATUS_FORMED 0 else a) :
    b.getF (F.CHN_PORT_STATUS_STATE p) = a.getF (F.CHN_PORT_STATUS_STATE p) ∧ ∀ id i, a.Arisen id i → b.Arisen id i := by
  have hst : R.CHN_PORT_STATUS p ≠ R.CHN_STATUS := chnPortStatus_ne p (by simp)
  obtain ⟨hlost, hev⟩ := alignLost_frame a
  subst hb
  split
  · exact ⟨(getF_putF_off _ _ _ _ hst).trans (getF_congr (hlost _ hst)), fun id i h => (hev _ _ h).of_eq rfl rfl⟩
  · split
    · exact ⟨getF_putF_off _ _ _ _ hst, fun id i h => h.of_eq rfl rfl⟩
    · exact ⟨rfl, fun id i h => h⟩

/-- A port that goes down is down, and is reported. -/
theorem portDown_down (s : State) (p : Fin 2) : (s.portDown p).chnUp p = false ∧ (s.portDown p).Arisen Ev.CHN_PORT_DOWN p := by
  unfold State.portDown
  extract_lets a b
  have ha : a.getF (F.CHN_PORT_STATUS_STATE p) = 0 := portDown_status s p
  have hev : a.Arisen Ev.CHN_PORT_DOWN p := arisen_raise ..
  obtain ⟨hb, hevb⟩ := portDown_chain a p b rfl
  clear_value b a
  obtain ⟨hevc, htsc, hreg⟩ := chnAlarm_frame b 4 p
  refine ⟨?_, (hevb _ _ hev).of_eq hevc htsc⟩
  have hup : (b.chnAlarm 4 p).getF (F.CHN_PORT_STATUS_STATE p) = b.getF (F.CHN_PORT_STATUS_STATE p) :=
    getF_congr (hreg _ (chnPortStatus_ne p (by simp)))
  rw [State.chnUp, hup, hb, ha]
  rfl

/-- A stop that is received is latched, due at the next tick, and reported. -/
theorem stopRecv_stops (s : State) (p : Fin 2) (src : BitVec 4) : (s.stopRecv p src).flag F.CHN_STATUS_STOPPED = true
    ∧ (s.stopRecv p src).chn.stopDue = true ∧ (s.stopRecv p src).Arisen Ev.CHN_STOP 0 := by
  unfold State.stopRecv
  extract_lets again a ch b c
  have hb : b.chn.stopDue = true := rfl
  have hc : c.flag F.CHN_STATUS_STOPPED = true ∧ c.chn.stopDue = true ∧ c.Arisen Ev.CHN_STOP 0 :=
    ⟨flag_latchF_same b _ (by decide) (by decide), hb, arisen_raise ..⟩
  clear_value c
  obtain ⟨r, q, l, hfire⟩ := fire_frame c 0x0C p false
  obtain ⟨r', k, n, l', j, hgate⟩ := gateFollow_stops (c.fire 0x0C p)
  refine ⟨?_, ?_, ?_⟩
  · rw [(gateFollow_within _).flag _ (by decide), (fire_within c _ _ _).flag _ (by decide), hc.1]
  · rw [hgate, hfire]
    exact hc.2.1
  · exact hc.2.2.of_eq (by rw [hgate, hfire]) (by rw [hgate, hfire])

/-! ### Frames and messages (R429, R430, R432, R433) -/

theorem conflictFollow_of_not (h : p = 1 ∨ s.flag F.CHN_STATUS_HEAD = false) : s.conflictFollow p = s := by
  refine if_neg ?_
  rintro ⟨h0, hhead, -⟩
  rcases h with rfl | h
  · exact absurd h0 (by decide)
  · exact absurd hhead (by simp [h])

/-- A frame that is not correct is counted, after a head has seen whether it is in conflict. -/
theorem exec_chnFrame_bad {f : ChnFrame} (hup : s.chnUp p = true) (hok : ChnFrame.ok f = false) :
    exec (.chnFrame p f) s = .next ((s.conflictFollow p).incR (R.CHN_CRC_ERR p) 1) := by
  change execChnFrame p f s = _
  rw [execChnFrame, if_neg (by simp [hup]), if_pos (by simp [hok])]

/-- A frame from below without messages. -/
theorem exec_chnFrame_below {f : ChnFrame} (hup : s.chnUp 1 = true) (hok : ChnFrame.ok f = true) (hm : ChnFrame.msgs f = []) :
    exec (.chnFrame 1 f) s = .next (((({ s with chn := { s.chn with good := s.chn.good } } : State).updPort 1 fun x =>
      { x with lastGood := s.tick, above := ChnFrame.tick f }).putB (F.CHN_PORT_STATUS_NALIGNED 1) (ChnFrame.aligned f)).fromBelow f) := by
  change execChnFrame 1 f s = _
  rw [execChnFrame, if_neg (by simp [hup]), if_neg (by simp [hok])]
  simp only [conflictFollow_of_not (p := 1) (Or.inl rfl), hm]
  rfl

/-- A USER message that is received shows at the port's registers; its queue is what it was made. -/
theorem cport_rxFollow (s : State) (p q : Fin 2) : (s.rxFollow p).cport q = s.cport q := rfl

theorem cport_fire (s : State) (cls inst : Nat) (any : Bool) (q : Fin 2) : (s.fire cls inst any).cport q = s.cport q := by
  obtain ⟨r, h, l, e⟩ := fire_frame s cls inst any
  rw [e]
  rfl

theorem chnPortFlags_wf (p : Fin 2) : (F.CHN_PORT_STATUS_STATE p).lo + (F.CHN_PORT_STATUS_STATE p).w ≤ 32
    ∧ (F.CHN_PORT_STATUS_NALIGNED p).lo + (F.CHN_PORT_STATUS_NALIGNED p).w ≤ 32 := by
  simp [F.CHN_PORT_STATUS_STATE, F.CHN_PORT_STATUS_NALIGNED]

/-- A port that comes up is up, whatever the enumeration then does. -/
theorem portUp_up (s : State) (p : Fin 2) (h : s.chnUp p = false) : (s.portUp p).chnUp p = true ∧ ((s.portUp p).cport p).wasUp = true
    ∧ ((s.portUp p).cport p).lastGood = s.tick := by
  unfold State.portUp
  rw [if_neg (by simp [h])]
  extract_lets again a b
  have ha : a.getF (F.CHN_PORT_STATUS_STATE p) = 2 := getF_putF_same s _ _ (chnPortFlags_wf p).1
  have hc : a.cport p = { s.cport p with wasUp := true, lastGood := s.tick } := cport_updPort_same ..
  have hb : b.getF (F.CHN_PORT_STATUS_STATE p) = 2 ∧ b.cport p = { s.cport p with wasUp := true, lastGood := s.tick } := by
    clear_value a
    simp only [b]
    split
    · exact ⟨ha, hc⟩
    · exact ⟨ha, hc⟩
  clear_value b
  split
  · obtain ⟨-, hreg, hport⟩ := enumDown_frame b
    obtain ⟨x, hx⟩ := hport p
    have hup : b.enumDown.getF (F.CHN_PORT_STATUS_STATE p) = b.getF (F.CHN_PORT_STATUS_STATE p) :=
      getF_congr (hreg _ (chnPortStatus_ne p (by simp)) (chnPortStatus_ne p (by simp)))
    rw [State.chnUp, hup, hx, hb.1, hb.2]
    exact ⟨rfl, rfl, rfl⟩
  · rw [State.chnUp, hb.1, hb.2]
    exact ⟨rfl, rfl, rfl⟩

/-- An address from above is taken. -/
theorem enumTake_addr {a : Nat} (hh : s.flag F.CHN_STATUS_HEAD = false) (h1 : 1 ≤ a) (h8 : a ≤ 8) :
    (s.enumTake 0 a).getF F.CHN_STATUS_ADDR = a := by
  have hno : (a == 0 || Nat.blt 8 a) = false := by
    have : Nat.blt 8 a = false := by
      rw [Bool.eq_false_iff, ne_eq, Nat.blt_eq]
      omega
    rw [this, Bool.or_false, beq_eq_false_iff_ne]
    omega
  unfold State.enumTake
  rw [if_neg (by simp [hh])]
  extract_lets no new old b c
  have hb : b.getF F.CHN_STATUS_ADDR = a := by
    simp only [b, new, no, hno]
    refine ((fire_within _ _ _ _).getF _ (by decide)).trans ?_
    rw [getF_putF_same _ _ _ (by decide)]
    exact Nat.mod_eq_of_lt (by simp [F.CHN_STATUS_ADDR]; omega)
  have hc : c.getF F.CHN_STATUS_ADDR = a := by
    clear_value b
    simp only [c]
    split
    · exact hb
    · exact hb
  clear_value c
  simp only [no, hno]
  exact (enumDown_frame c).1.trans hc

/-- What a device that is not in conflict makes of the count that comes back. -/
theorem flag_enumEndTake (n : Nat) (hc : s.flag F.CHN_STATUS_CONFLICT = false) (f : Fld) (hf : f.off = R.CHN_STATUS) :
    (s.enumEndTake 1 n).getF f = ((s.chnHeard 1).enumEnd n).getF f := by
  unfold State.enumEndTake
  rw [if_neg (by simp [hc])]
  unfold State.when
  split
  · exact getF_chnSend f (by rw [hf]; decide)
  · rfl

theorem arisen_enumEndTake (hc : s.flag F.CHN_STATUS_CONFLICT = false) : (s.enumEndTake 1 0).Arisen Ev.CHN_TOO_LONG 0 := by
  unfold State.enumEndTake
  rw [if_neg (by simp [hc])]
  have h := (enumEnd_tooLong (s.chnHeard 1)).2.2
  unfold State.when
  split
  · obtain ⟨hev, htsc, -⟩ := chnQueue_frame ((s.chnHeard 1).enumEnd 0) 0
      { ty := 0x02#8, dest := 0#4, src := ((s.chnHeard 1).enumEnd 0).chnAddr, body := bodyOf [BitVec.ofNat 8 0] }
    exact h.of_eq hev htsc
  · exact h

/-- An alarm of another unit is reported; the chain and the ledger stay. -/
theorem alarmTake_frame (s : State) (p : Fin 2) (src : BitVec 4) (cause port : Nat) :
    (s.alarmTake p src cause port).Arisen Ev.CHN_REMOTE_ALARM 0 ∧ (s.alarmTake p src cause port).led = s.led
      ∧ (s.alarmTake p src cause port).chn = s.chn := by
  unfold State.alarmTake
  extract_lets lost a
  have ha : a.led = s.led ∧ a.chn = s.chn := by
    simp only [a]
    split <;> exact ⟨rfl, rfl⟩
  clear_value a
  obtain ⟨r, q, l, e⟩ := fire_frame (a.raise Ev.CHN_REMOTE_ALARM 0 (BitVec.ofNat 32 src.toNat) (BitVec.ofNat 32 cause)) 0x0C p false
  rw [e]
  exact ⟨(arisen_raise a _ _ _ _).of_eq rfl rfl, ha⟩

/-- A USER message to a unit below is queued downwards. -/
theorem userPost_below {d : BitVec 4} (hf : s.flag F.CHN_STATUS_FORMED = true) (he : s.flag F.CHN_CFG_EN = true)
    (ha : s.getF F.CHN_STATUS_ADDR < d.toNat) (hd : d ≠ 0xF#4) :
    s.userPost d = s.chnSend 1 0x30#8 d ((List.range 3).flatMap fun i => leBytes 4 (s.getR (R.CHN_MSG_TX i)).toNat) := by
  have h0 : d ≠ 0#4 := by
    rintro rfl
    exact absurd ha (by simp)
  unfold State.userPost
  rw [if_neg (by simp [hf, he]), if_neg hd, if_neg h0, if_neg (by omega), if_pos ha]

/-- The offset of the chain tick is held by its pair. -/
theorem getP_putP (s : State) {lo v : Nat} (h : v < 2 ^ 64) : (s.putP lo v).getP lo = v := by
  have hlo : (s.putP lo v).getR lo = BitVec.ofNat 32 v :=
    (getR_putR_ne _ _ (by omega)).trans (getR_putR_same ..)
  have hhi : (s.putP lo v).getR (lo + 4) = BitVec.ofNat 32 (v / 0x100000000) := getR_putR_same ..
  rw [State.getP, hlo, hhi, BitVec.toNat_ofNat, BitVec.toNat_ofNat]
  omega

/-- Settles O57. -/
theorem chainPortsFramesAndEnumeration : Obligations.ChainPortsFramesAndEnumeration := by
  intro s p
  refine ⟨fun h => ⟨_, rfl, portUp_up s p h⟩, fun f h => ⟨_, rfl, ?down⟩, fun f hup hok hp => ⟨_, exec_chnFrame_bad hup hok, ?bad⟩,
    fun f hup hhead hconf hok => ⟨_, exec_chnFrame_bad hup hok, ?conflict⟩, fun f hup hok hm => ⟨_, exec_chnFrame_below hup hok hm, ?below⟩,
    fun h hgood hal hno hhead => ⟨_, rfl, ?aligned⟩, fun hup hto => ⟨_, rfl, ?portDown⟩,
    fun a hhead h1 h8 => ⟨_, rfl, enumTake_addr hhead h1 h8⟩, fun a => ⟨_, rfl, ?enumBelow⟩, fun n hconf h1 h16 => ⟨_, rfl, ?formed⟩,
    fun hconf => ⟨_, rfl, ?tooLong⟩, fun src c ap => ⟨_, rfl, alarmTake_frame s p src _ _⟩, fun src => ⟨_, rfl, stopRecv_stops s p src⟩,
    fun port => ⟨_, rfl, rfl, fun q => ?stops⟩, fun src d hf he => ⟨fun hroom => ⟨_, rfl, ?kept⟩, fun hfull => ⟨_, rfl, ?lost⟩⟩,
    fun port d hf he ha hd hroom => ⟨_, rfl, ?posted⟩, fun port => ⟨_, rfl, ?popped⟩⟩
  case down => exact if_pos (by simp [h])
  case bad => rw [conflictFollow_of_not hp]
  case conflict =>
    have hc : s.conflictFollow 0 = (s.putF F.CHN_STATUS_CONFLICT 1).raise Ev.CHN_HEAD_CONFLICT := if_pos ⟨rfl, hhead, by simp [hconf]⟩
    rw [hc]
    refine ⟨?_, (arisen_raise (s.putF F.CHN_STATUS_CONFLICT 1) _ _ _ _).of_eq rfl rfl⟩
    rw [State.flag, getF_incR _ _ _ (by decide), ← State.flag, State.raise_flag, flag_putF_same _ _ _ (by decide)]
    rfl
  case below =>
    refine ⟨?_, ?_, ?_⟩
    · exact congrArg ChnPort.lastGood (cport_updPort_same { s with chn := { s.chn with good := s.chn.good } } 1 fun x =>
        { x with lastGood := s.tick, above := ChnFrame.tick f })
    · refine (flag_putF_off _ _ _ _ (by decide)).trans ?_
      exact flag_putB_same _ _ _ (by decide) (by decide)
    · refine (getF_putF_same _ _ _ (by decide)).trans (Nat.mod_eq_of_lt ?_)
      have hlt := Int.emod_lt_of_pos ((f.arrive : Int) - 10 - ChnFrame.delay f) (show (0 : Int) < 25000 by decide)
      change (((f.arrive : Int) - 10 - ChnFrame.delay f) % 25000 / 2).toNat < 65536
      omega
  case aligned =>
    rw [if_pos (by simp [hgood, hal, hno, hhead])]
    refine ⟨?_, arisen_raise .., ?_⟩
    · rw [State.raise_flag]
      refine (flag_congr ((getR_putR_ne _ _ (by decide)).trans (getR_putR_ne _ _ (by decide)))).trans ?_
      exact flag_putF_same _ _ _ (by decide)
    · exact getP_putP _ (BitVec.isLt _)
  case portDown =>
    rw [if_pos ⟨hup, hto⟩]
    exact portDown_down s p
  case enumBelow => exact if_pos (Or.inl (by decide))
  case formed =>
    obtain ⟨hunits, hformed⟩ := enumEnd_formed (s := s.chnHeard 1) h1 h16
    rw [State.flag, flag_enumEndTake _ hconf _ rfl, flag_enumEndTake _ hconf _ rfl]
    exact ⟨hunits, hformed⟩
  case tooLong =>
    obtain ⟨hlong, hnot, -⟩ := enumEnd_tooLong (s.chnHeard 1)
    change (s.enumEndTake 1 0).flag F.CHN_STATUS_TOO_LONG = true ∧ (s.enumEndTake 1 0).flag F.CHN_STATUS_FORMED = false
      ∧ (s.enumEndTake 1 0).Arisen Ev.CHN_TOO_LONG 0
    rw [State.flag, State.flag, flag_enumEndTake 0 hconf _ rfl, flag_enumEndTake 0 hconf _ rfl]
    exact ⟨hlong, hnot, arisen_enumEndTake hconf⟩
  case stops =>
    rw [cport_stopSend]
    exact ⟨rfl, rfl, rfl⟩
  case kept =>
    unfold State.userTake
    rw [if_neg (by simp [hf, he]), if_pos hroom, State.chnHeard]
    beta_reduce
    rw [cport_fire, cport_rxFollow, cport_updPort_same]
  case lost =>
    unfold State.userTake
    rw [if_neg (by simp [hf, he]), if_neg (by omega)]
    refine ⟨?_, ?_⟩
    · obtain ⟨r, q, l, e⟩ := fire_frame (s.latchF (F.CHN_MSG_RX_STAT_OVF p)) 0x0C p false
      rw [State.chnHeard, e]
      rfl
    · refine ((fire_within _ _ _ _).flag _ ?_).trans (flag_latchF_same _ _ (by simp [F.CHN_MSG_RX_STAT_OVF]) (by simp [F.CHN_MSG_RX_STAT_OVF]))
      simp only [F.CHN_MSG_RX_STAT_OVF, R.CHN_MSG_RX_STAT, List.mem_singleton]
      omega
  case posted =>
    rw [userPost_below hf he ha hd, State.chnSend, chnQueue_of_room _ hroom]
    beta_reduce
    rw [cport_updPort_same]
    exact ⟨_, rfl, rfl, rfl, rfl, rfl⟩
  case popped =>
    unfold State.userPop
    beta_reduce
    rw [cport_rxFollow, cport_updPort_same]

end Sys2Proof.Machine

end

/-! ## Exposure links (R245, R247, R252, R253) -/

section

namespace Sys2Proof.Machine

variable {s : State} {i : Fin 6}

/-! ### Stations -/

@[simp] theorem stnOf_updStn_same (s : State) (i : Fin 6) (f : Station → Station) : (s.updStn i f).stnOf i = f (s.stnOf i) := by
  simp [State.stnOf, State.updStn]

theorem stnOf_updStn_ne (s : State) {i j : Fin 6} (f : Station → Station) (h : j ≠ i) : (s.updStn i f).stnOf j = s.stnOf j := by
  have : (i : Nat) ≠ (j : Nat) := fun e => h (Fin.ext e.symm)
  simp [State.stnOf, State.updStn, this]

theorem stnOf_congr {t : State} (h : t.stn = s.stn) : t.stnOf i = s.stnOf i := by
  rw [State.stnOf, h, State.stnOf]

/-! ### The state of a link -/

/-- Fields of EXL_STATUS that a change of the link's state leaves: all but STATE and LEN_REQ. -/
def linkField (i : Fin 6) (f : Fld) : Bool :=
  decide (f.off = R.EXL_STATUS i ∧ 3 ≤ f.lo ∧ f.lo + f.w ≤ 32 ∧ (f.lo + f.w ≤ 7 ∨ 8 ≤ f.lo))

theorem linkField_iff (i : Fin 6) (f : Fld) : linkField i f = true ↔
    f.off = R.EXL_STATUS i ∧ 3 ≤ f.lo ∧ f.lo + f.w ≤ 32 ∧ (f.lo + f.w ≤ 7 ∨ 8 ≤ f.lo) := decide_eq_true_iff

/-- The request for LEN follows, and the next downward frame carries it: EXL_STATUS.LEN_REQ alone changes among the registers. -/
theorem lenFollow_frame (s : State) (i : Fin 6) : (∃ r b, s.lenFollow i = { s with regs := r, brg := b })
    ∧ ∀ o, o ≠ R.EXL_STATUS i → (s.lenFollow i).getR o = s.getR o := by
  unfold State.lenFollow
  extract_lets a
  have hr : ∀ o, o ≠ R.EXL_STATUS i → a.getR o = s.getR o := fun o ho => getR_putF_ne s _ _ o ho
  split
  · exact ⟨⟨_, _, rfl⟩, fun o ho => (hr o ho)⟩
  · exact ⟨⟨_, _, rfl⟩, hr⟩

theorem getF_lenFollow (s : State) (i : Fin 6) (f : Fld) (hf : f.lo + f.w ≤ 32) (h : f.lo + f.w ≤ 7 ∨ 8 ≤ f.lo) :
    (s.lenFollow i).getF f = s.getF f := by
  have hput : ∀ b, (s.putB (F.EXL_STATUS_LEN_REQ i) b).getF f = s.getF f := fun b =>
    getF_putF_disjoint s _ f _ hf h
  unfold State.lenFollow
  extract_lets a
  have ha : a.getF f = s.getF f := hput _
  clear_value a
  split
  · exact ha
  · exact ha

/-- The state of a link, what a change leaves of EXL_STATUS, and its frame. -/
theorem setLink_state (s : State) (i : Fin 6) {v : Nat} (hv : v < 8) : (s.setLink i v).getF (F.EXL_STATUS_STATE i) = v := by
  unfold State.setLink
  split
  · assumption
  · rw [getF_lenFollow _ _ _ (by simp [F.EXL_STATUS_STATE]) (by simp [F.EXL_STATUS_STATE])]
    have hb : (F.EXL_STATUS_STATE i).off / 65536 ∉ [2] := by
      simp only [F.EXL_STATUS_STATE, R.EXL_STATUS, List.mem_singleton]
      omega
    rw [(fire_within _ _ _ _).getF _ hb, getF_putF_same _ _ _ (by simp [F.EXL_STATUS_STATE])]
    exact Nat.mod_eq_of_lt hv

theorem getF_setLink (s : State) (i : Fin 6) (v : Nat) (f : Fld) (hf : linkField i f = true) : (s.setLink i v).getF f = s.getF f := by
  obtain ⟨hoff, hlo, h32, hreq⟩ := (linkField_iff i f).1 hf
  unfold State.setLink
  split
  · rfl
  · rw [getF_lenFollow _ _ _ h32 hreq]
    have hb : f.off / 65536 ∉ [2] := by
      simp only [hoff, R.EXL_STATUS, List.mem_singleton]
      omega
    rw [(fire_within _ _ _ _).getF _ hb]
    exact getF_putF_disjoint _ _ _ _ h32 (Or.inr hlo)

/-- A change of a link's state changes EXL_STATUS and, through an event line, threads and counts of the sequencer. -/
theorem setLink_frame (s : State) (i : Fin 6) (v : Nat) : (∃ r q l b, s.setLink i v = { s with regs := r, seq := q, lost := l, brg := b })
    ∧ ∀ o, o ≠ R.EXL_STATUS i → o / 65536 ≠ 2 → (s.setLink i v).getR o = s.getR o := by
  unfold State.setLink
  split
  · exact ⟨⟨_, _, _, _, rfl⟩, fun _ _ _ => rfl⟩
  · obtain ⟨⟨r, b, hl⟩, hlr⟩ := lenFollow_frame ((s.putF (F.EXL_STATUS_STATE i) v).fire 0x0A i) i
    obtain ⟨r', q, l, hf⟩ := fire_frame (s.putF (F.EXL_STATUS_STATE i) v) 0x0A i false
    refine ⟨⟨r, q, l, b, by rw [hl, hf]; rfl⟩, fun o ho h2 => ?_⟩
    rw [hlr o ho, fire_within _ _ _ _ o (by simpa using h2)]
    exact getR_putF_ne _ _ _ _ ho

theorem setLink_stn (s : State) (i : Fin 6) (v : Nat) : (s.setLink i v).stn = s.stn := by
  obtain ⟨⟨r, q, l, b, h⟩, -⟩ := setLink_frame s i v
  rw [h]

theorem setLink_tsc (s : State) (i : Fin 6) (v : Nat) : (s.setLink i v).tsc = s.tsc := by
  obtain ⟨⟨r, q, l, b, h⟩, -⟩ := setLink_frame s i v
  rw [h]

theorem setLink_ev (s : State) (i : Fin 6) (v : Nat) : (s.setLink i v).ev = s.ev := by
  obtain ⟨⟨r, q, l, b, h⟩, -⟩ := setLink_frame s i v
  rw [h]

/-! ### Control packets (R245, R247) -/

/-- A control packet changes its station alone: the packet waits under the next tag. -/
theorem sendPkt_frame (s : State) (i : Fin 6) (k : PktKind) : (∃ n, s.sendPkt i k = { s with stn := n })
    ∧ ((s.sendPkt i k).stnOf i).nextTag = (s.stnOf i).nextTag + 1#8
    ∧ ∃ p, ((s.sendPkt i k).stnOf i).pkts = (s.stnOf i).pkts ++ [p] ∧ p.kind = k ∧ p.tag = (s.stnOf i).nextTag := by
  unfold State.sendPkt
  extract_lets tag b a
  have ha : (∃ n, a = { s with stn := n }) ∧ (a.stnOf i).pkts = (s.stnOf i).pkts := by
    simp only [a]
    split
    · refine ⟨⟨_, rfl⟩, ?_⟩
      unfold State.sendSync
      rw [stnOf_updStn_same]
    · exact ⟨⟨_, rfl⟩, rfl⟩
  clear_value a
  obtain ⟨⟨n, rfl⟩, hpk⟩ := ha
  refine ⟨⟨_, rfl⟩, congrArg Station.nextTag (stnOf_updStn_same ..), ?_⟩
  rw [stnOf_updStn_same]
  unfold State.putPkt
  extract_lets at_
  rw [stnOf_updStn_same]
  exact ⟨_, congrArg (· ++ _) hpk, rfl, rfl⟩

theorem getR_sendPkt (s : State) (i : Fin 6) (k : PktKind) (o : Nat) : (s.sendPkt i k).getR o = s.getR o := by
  obtain ⟨⟨n, h⟩, -⟩ := sendPkt_frame s i k
  rw [h]
  rfl

/-- The link enters CONFIG: its packet waits. -/
theorem enterConfig_config (s : State) (i : Fin 6) : (s.enterConfig i).getF (F.EXL_STATUS_STATE i) = 4
    ∧ ∃ p ∈ ((s.enterConfig i).stnOf i).pkts, p.kind = .config ∧ p.tag = (s.stnOf i).nextTag := by
  unfold State.enterConfig
  extract_lets a n code b
  have ha : a.getF (F.EXL_STATUS_STATE i) = 4 ∧ ∃ p ∈ (a.stnOf i).pkts, p.kind = .config ∧ p.tag = (s.stnOf i).nextTag := by
    obtain ⟨-, -, p, hp, hk, ht⟩ := sendPkt_frame (s.setLink i 4) i .config
    refine ⟨(getF_congr (getR_sendPkt ..)).trans (setLink_state s i (by decide)), p, ?_, hk, ?_⟩
    · rw [hp]
      exact List.mem_append_right _ (List.mem_singleton_self p)
    · rw [ht, stnOf_congr (setLink_stn ..)]
  have hb : b.getF (F.EXL_STATUS_STATE i) = 4 ∧ ∃ p ∈ (b.stnOf i).pkts, p.kind = .config ∧ p.tag = (s.stnOf i).nextTag := by
    clear_value a
    simp only [b, stnOf_updStn_same]
    exact ha
  clear_value a b
  split
  · split
    · exact hb
    · obtain ⟨hst, p, hp, hk⟩ := hb
      obtain ⟨-, -, x, hx, -⟩ := sendPkt_frame b i .table
      refine ⟨(getF_congr (getR_sendPkt ..)).trans hst, p, ?_, hk⟩
      rw [hx]
      exact List.mem_append_left _ hp
  · exact ha

/-- The packets of a link are dropped, and an access of the head that waits ends with an error. -/
theorem dropPkts_frame (s : State) (i : Fin 6) : (∃ r n, s.dropPkts i = { s with regs := r, stn := n })
    ∧ ∀ o, o ≠ R.EXL_HACC i → (s.dropPkts i).getR o = s.getR o := by
  unfold State.dropPkts
  extract_lets a
  have ha : (∃ r, a = { s with regs := r }) ∧ ∀ o, o ≠ R.EXL_HACC i → a.getR o = s.getR o := by
    simp only [a]
    split
    · exact ⟨⟨_, rfl⟩, fun o ho => (getR_putF_ne _ _ _ _ ho).trans (getR_putF_ne _ _ _ _ ho)⟩
    · exact ⟨⟨_, rfl⟩, fun _ _ => rfl⟩
  clear_value a
  obtain ⟨⟨r, rfl⟩, hr⟩ := ha
  exact ⟨⟨_, _, rfl⟩, hr⟩

/-! ### Mend status (R425, R475) -/

/-- From `s` to `t` Mend status has followed: beside register words of the DEV, LDG and EVT blocks only the journal, the vectors and
the events have changed, and no event has been lost. -/
def State.Mends (s t : State) : Prop :=
  (∃ r j h e, t = { s with regs := r, jr := j, host := h, ev := e }) ∧ State.Within [0, 0x13, 0x15] s t ∧ ∀ id n, s.Arisen id n → t.Arisen id n

theorem State.Mends.refl (s : State) : s.Mends s := ⟨⟨_, _, _, _, rfl⟩, .refl _ s, fun _ _ h => h⟩

theorem State.Mends.trans {a t : State} (h : s.Mends a) (h' : a.Mends t) : s.Mends t := by
  obtain ⟨⟨r, j, x, e, rfl⟩, hr, he⟩ := h
  obtain ⟨⟨r', j', x', e', rfl⟩, hr', he'⟩ := h'
  exact ⟨⟨r', j', x', e', rfl⟩, hr.trans hr', fun id n h => he' id n (he id n h)⟩

/-- A change that keeps events and time. -/
theorem State.Mends.of_within {t : State} (h : ∃ r j x, t = { s with regs := r, jr := j, host := x })
    (hr : State.Within [0, 0x13, 0x15] s t) : s.Mends t := by
  obtain ⟨r, j, x, rfl⟩ := h
  exact ⟨⟨r, j, x, _, rfl⟩, hr, fun _ _ h => h.of_eq rfl rfl⟩

theorem signal_frame (s : State) (v : Nat) : ∃ h, s.signal v = { s with host := h } := by
  unfold State.signal
  split <;> exact ⟨_, rfl⟩

theorem jfullCheck_mends (s : State) : s.Mends s.jfullCheck := by
  unfold State.jfullCheck
  split
  · exact .of_within ⟨_, _, _, rfl⟩ (((State.Within.refl _ s).putF _ (by decide)).putF _ (by decide))
  · exact .refl s

theorem mendJournal_mends (s : State) : s.Mends s.mendJournal := by
  unfold State.mendJournal
  split
  · exact .refl s
  · exact State.Mends.trans (.of_within ⟨_, _, _, rfl⟩ fun _ _ => rfl) (jfullCheck_mends _)

theorem mendTo_mends (s : State) (r : Nat) : s.Mends (s.mendTo r) := by
  unfold State.mendTo
  extract_lets w a
  have ha : s.Mends a := by
    simp only [a]
    split
    · exact .refl s
    · exact State.Mends.trans (.of_within ⟨_, _, _, rfl⟩ ((State.Within.refl _ s).putR _ (by decide))) (mendJournal_mends _)
  clear_value a
  split
  · exact ha
  · refine ha.trans ?_
    obtain ⟨h, e⟩ := signal_frame (a.putB F.DEV_STATE_MEND (r != 0)) 4
    rw [e]
    exact .of_within ⟨_, _, _, rfl⟩ (((State.Within.refl _ a).putF (f := F.DEV_STATE_MEND) _ (by decide)).trans fun _ _ => rfl)

theorem mendFollow_mends (s : State) : s.Mends s.mendFollow := mendTo_mends s _

theorem raise_mends (s : State) (id : EvId) (n : Nat) (a b : Word) : s.Mends (s.raise id n a b) :=
  ⟨⟨_, _, _, _, rfl⟩, fun _ _ => rfl, fun _ _ h => arisen_of_raise _ _ _ _ _ _ _ h⟩

theorem setMend_mends (s : State) (k : Nat) : s.Mends (s.setMend k) := by
  unfold State.setMend
  split
  · exact mendFollow_mends s
  · exact (mendTo_mends s _).trans (raise_mends ..)

theorem clearMend_mends (s : State) (k : Nat) : s.Mends (s.clearMend k) := by
  unfold State.clearMend
  split
  · exact (mendTo_mends s _).trans (raise_mends ..)
  · exact mendFollow_mends s

theorem emitterMend_mends (s : State) : s.Mends s.emitterMend := by
  unfold State.emitterMend
  split
  · extract_lets a
    have ha : s.Mends a := by
      simp only [a]
      split
      · exact mendFollow_mends s
      · exact clearMend_mends s 4
    clear_value a
    split
    · exact ha
    · exact ha.trans (clearMend_mends a 3)
  · exact mendFollow_mends s

theorem State.Mends.stn_eq {t : State} (h : s.Mends t) : t.stn = s.stn := by
  obtain ⟨⟨r, j, x, e, rfl⟩, -⟩ := h
  rfl

/-- A follow-up of Mend status leaves the registers of the exposure links. -/
theorem State.Mends.getF {t : State} (h : s.Mends t) (f : Fld) (hf : f.off / 65536 ∉ [0, 0x13, 0x15]) : t.getF f = s.getF f :=
  State.Within.getF h.2.1 f hf

/-! ### Attempts (R252, R253) -/

theorem exlStatus_block (i : Fin 6) : R.EXL_STATUS i / 65536 = 9 := by
  simp only [R.EXL_STATUS]
  omega

/-- An attempt that fails with another to come. -/
theorem failAttempt_next (h : s.getF (F.EXL_STATUS_ATTEMPT i) < 3) : (s.failAttempt i).getF (F.EXL_STATUS_STATE i) = 0
    ∧ ((s.failAttempt i).stnOf i).nextAttempt = s.getF (F.EXL_STATUS_ATTEMPT i) + 1 := by
  unfold State.failAttempt
  extract_lets a last b
  have hl : a < last := by
    simp only [last]
    split <;> omega
  rw [if_pos hl]
  refine ⟨setLink_state _ i (by decide), ?_⟩
  rw [stnOf_congr (setLink_stn ..)]
  change (b.stnOf i).nextAttempt = _
  simp only [b]
  rw [stnOf_updStn_same]

/-- The last attempt that fails. -/
theorem failAttempt_last (h : 5 ≤ s.getF (F.EXL_STATUS_ATTEMPT i)) : (s.failAttempt i).getF (F.EXL_STATUS_STATE i) = 6
    ∧ (s.failAttempt i).Arisen Ev.EXL_LINK_FAILED i := by
  unfold State.failAttempt
  extract_lets a last b
  have hl : ¬ a < last := by
    simp only [last]
    split <;> omega
  rw [if_neg hl]
  refine ⟨?_, arisen_raise ..⟩
  rw [State.raise_getF]
  unfold State.failLink
  extract_lets c
  rw [(emitterMend_mends _).getF _ (by simp [F.EXL_STATUS_STATE, exlStatus_block])]
  exact setLink_state _ i (by decide)

end Sys2Proof.Machine

end

/-! ## Exposure links: training, responses and head accesses (R246, R247, R250 to R253) -/

section

namespace Sys2Proof.Machine

variable {s : State} {i : Fin 6}

/-- Two fields with no bit in common. -/
def Fld.Apart (f g : Fld) : Prop := g.off ≠ f.off ∨ g.lo + g.w ≤ 32 ∧ (g.lo + g.w ≤ f.lo ∨ f.lo + f.w ≤ g.lo)

theorem getF_putF_apart {f g : Fld} (v : Nat) (h : f.Apart g) : (s.putF f v).getF g = s.getF g := by
  obtain h | ⟨hg, h⟩ := h
  · exact getF_putF_off _ _ _ _ h
  · exact getF_putF_disjoint _ _ _ _ hg h

theorem flag_putF_apart {f g : Fld} (v : Nat) (h : f.Apart g) : (s.putF f v).flag g = s.flag g :=
  congrArg (· != 0) (getF_putF_apart v h)

theorem flag_eq_of_getF {t : State} {f : Fld} (h : t.getF f = s.getF f) : t.flag f = s.flag f := congrArg (· != 0) h

/-! ### Training (R250, R252, R253) -/

theorem trainAttemptStart_starts (hen : s.flag (F.DEC_GEOM_EN i) = true) (h0 : s.getF (F.EXL_STATUS_STATE i) = 0) :
    Leads s (.trainAttemptStart i) fun t => t.getF (F.EXL_STATUS_STATE i) = 1
      ∧ t.getF (F.EXL_STATUS_LANES i) = lanesOf (s.stnOf i).nextAttempt ∧ (t.stnOf i).attemptAt = s.tsc.toNat := by
  refine ⟨_, congrArg Host.Outcome.next (if_pos ⟨hen, h0⟩), ?_⟩
  extract_lets a b c
  refine ⟨setLink_state _ i (by decide), ?_, ?_⟩
  · rw [getF_setLink _ _ _ _ (by simp [linkField, F.EXL_STATUS_LANES]), getF_putF_same _ _ _ (by simp [F.EXL_STATUS_LANES])]
    refine Nat.mod_eq_of_lt ?_
    unfold lanesOf
    simp only [F.EXL_STATUS_LANES]
    split <;> (try split) <;> decide
  · rw [stnOf_congr (setLink_stn ..)]
    change (c.stnOf i).attemptAt = _
    have hb : b.tsc = s.tsc := by
      simp only [b]
      split <;> rfl
    simp only [c, stnOf_updStn_same, hb]

theorem retLock_locks (h : s.getF (F.EXL_STATUS_STATE i) = 1) :
    Leads s (.retLock i) fun t => t.getF (F.EXL_STATUS_STATE i) = 2 ∧ t.stn = s.stn :=
  ⟨_, congrArg Host.Outcome.next (if_pos h), setLink_state s i (by decide), setLink_stn ..⟩

theorem trainAck_lock {d : Bool} (h : s.getF (F.EXL_STATUS_STATE i) = 2) (hl : s.getF (F.EXL_STATUS_LANES i) = 3) :
    (Leads s (.trainAck i true true d) fun t => t.getF (F.EXL_STATUS_STATE i) = 3) ∧ Leads s (.trainAck i true false d) fun t => t = s := by
  constructor
  · refine ⟨s.setLink i 3, ?_, setLink_state s i (by decide)⟩
    change execTrainAck .. = _
    simp [execTrainAck, h, hl]
  · refine ⟨s, ?_, rfl⟩
    change execTrainAck .. = _
    simp [execTrainAck, h, hl, bit]

theorem trainAck_deskew {a b : Bool} (h : s.getF (F.EXL_STATUS_STATE i) = 3) :
    Leads s (.trainAck i a b true) fun t => t.getF (F.EXL_STATUS_STATE i) = 4
      ∧ ∃ p ∈ (t.stnOf i).pkts, p.kind = .config ∧ p.tag = (s.stnOf i).nextTag := by
  refine ⟨s.enterConfig i, ?_, enterConfig_config s i⟩
  change execTrainAck .. = _
  simp [execTrainAck, h]

theorem trainTimeout_fails (ht : s.training i = true)
    (hto : (s.stnOf i).attemptAt + 200 * s.getF (F.EXL_TRAIN_TO i) ≤ s.tsc.toNat) :
    exec (.trainTimeout i) s = .next (s.failAttempt i) := congrArg Host.Outcome.next (if_pos ⟨ht, hto⟩)

theorem failedRestart_restarts (h : s.getF (F.EXL_STATUS_STATE i) = 6) (hat : (s.stnOf i).failedAt + 1000 ≤ s.tick) :
    Leads s (.failedRestart i) fun t => t.getF (F.EXL_STATUS_STATE i) = 0 :=
  ⟨_, congrArg Host.Outcome.next (if_pos ⟨h, hat⟩), setLink_state s i (by decide)⟩

/-! ### Responses (R246, R247) -/

/-- A station without the packet of a tag. -/
def State.dropTag (s : State) (i : Fin 6) (tag : BitVec 8) : State :=
  s.updStn i fun t => { t with pkts := t.pkts.filter fun x => x.tag != tag }

theorem dropTag_pkts (s : State) (i : Fin 6) (tag : BitVec 8) : ∀ x ∈ ((s.dropTag i tag).stnOf i).pkts, x.tag ≠ tag := by
  intro x hx
  rw [State.dropTag, stnOf_updStn_same] at hx
  simpa using (List.mem_filter.1 hx).2

/-- A response with status OK ends its packet. -/
theorem response_ok {p : Packet} {tag : BitVec 8} {d : Word} (h : (s.stnOf i).pkts.find? (fun x => x.tag == tag) = some p) :
    exec (.response i tag 0#8 d) s = .next ((s.dropTag i tag).answered i p.kind d) := by
  change execResponse .. = _
  simp only [execResponse, h]
  rfl

theorem answered_read (s : State) (i : Fin 6) (d : Word) : (s.answered i .read d).getR (R.EXL_HDATA i) = d
    ∧ (s.answered i .read d).flag (F.EXL_HACC_BUSY i) = false ∧ (s.answered i .read d).stn = s.stn := by
  have hne : R.EXL_HDATA i ≠ R.EXL_HACC i := by simp [R.EXL_HDATA, R.EXL_HACC]
  refine ⟨?_, ?_, rfl⟩
  · exact ((getR_putF_ne _ _ _ _ hne).trans (getR_putF_ne _ _ _ _ hne)).trans (getR_putR_same ..)
  · refine (flag_putF_apart _ (by simp [Fld.Apart, F.EXL_HACC_RESULT, F.EXL_HACC_BUSY])).trans ?_
    rw [flag_putF_same _ _ _ (by simp [F.EXL_HACC_BUSY])]
    rfl

theorem answered_config (s : State) (i : Fin 6) (d : Word) : ((s.answered i .config d).stnOf i).configOk = true
    ∧ ((s.answered i .config d).stnOf i).pkts = (s.stnOf i).pkts := by
  change ((s.updStn i fun t => { t with configOk := true }).stnOf i).configOk = true
    ∧ ((s.updStn i fun t => { t with configOk := true }).stnOf i).pkts = _
  rw [stnOf_updStn_same]
  exact ⟨rfl, rfl⟩

/-- A packet whose response has not come is sent again, with its tag. -/
theorem again_resends {p : Packet} (h : p.tries < 2) :
    ∃ x ∈ ((s.again i p).stnOf i).pkts, x.tag = p.tag ∧ x.tries = p.tries + 1 ∧ s.tsc.toNat ≤ x.sentAt := by
  unfold State.again
  extract_lets a
  rw [if_neg (by omega)]
  unfold State.putPkt
  extract_lets at_
  rw [stnOf_updStn_same]
  refine ⟨_, List.mem_append_right _ (List.mem_singleton_self _), rfl, rfl, ?_⟩
  exact (le_max_left s.tsc.toNat _).trans (Nat.le_add_right ..)

theorem responseTimeout_resends {p : Packet} {r : List Packet} (h : (s.stnOf i).pkts = p :: r)
    (hto : p.sentAt + 200 * s.getF (F.EXL_RESP_TO i) ≤ s.tsc.toNat) (ht : p.tries < 2) :
    Leads s (.responseTimeout i) fun t =>
      ∃ x ∈ (t.stnOf i).pkts, x.tag = p.tag ∧ x.tries = p.tries + 1 ∧ s.tsc.toNat ≤ x.sentAt := by
  refine ⟨(s.incR (R.EXL_RESP_TIMEOUTS i) 1).again i p, ?_, again_resends ht⟩
  change execResponseTimeout .. = _
  simp only [execResponseTimeout, h, if_pos hto]

/-! ### Head accesses (R246) -/

/-- EXL_HACC as a write of it leaves ADDR and OP. -/
def State.hacc (s : State) (i : Fin 6) (w : Word) : State :=
  (s.putF (F.EXL_HACC_ADDR i) (bits w 0 16)).putB (F.EXL_HACC_OP i) (w.getLsbD 16)

theorem hacc_addr (s : State) (i : Fin 6) (w : Word) : (s.hacc i w).getF (F.EXL_HACC_ADDR i) = bits w 0 16 := by
  refine (getF_putF_apart _ (by simp [Fld.Apart, F.EXL_HACC_ADDR, F.EXL_HACC_OP])).trans ?_
  rw [getF_putF_same _ _ _ (by simp [F.EXL_HACC_ADDR])]
  exact Nat.mod_eq_of_lt (bits_lt ..)

theorem hacc_op (s : State) (i : Fin 6) (w : Word) : (s.hacc i w).flag (F.EXL_HACC_OP i) = w.getLsbD 16 :=
  flag_putB_same _ _ _ (by simp [F.EXL_HACC_OP]) (by simp [F.EXL_HACC_OP])

theorem hacc_busy (s : State) (i : Fin 6) (w : Word) : (s.hacc i w).flag (F.EXL_HACC_BUSY i) = s.flag (F.EXL_HACC_BUSY i) :=
  (flag_putF_apart _ (by simp [Fld.Apart, F.EXL_HACC_BUSY, F.EXL_HACC_OP])).trans
    (flag_putF_apart _ (by simp [Fld.Apart, F.EXL_HACC_BUSY, F.EXL_HACC_ADDR]))

theorem hacc_state (s : State) (i : Fin 6) (w : Word) : (s.hacc i w).getF (F.EXL_STATUS_STATE i) = s.getF (F.EXL_STATUS_STATE i) :=
  (getF_putF_off _ _ _ _ (by simp [F.EXL_STATUS_STATE, F.EXL_HACC_OP, R.EXL_STATUS, R.EXL_HACC])).trans
    (getF_putF_off _ _ _ _ (by simp [F.EXL_STATUS_STATE, F.EXL_HACC_ADDR, R.EXL_STATUS, R.EXL_HACC]))

theorem exec_headAccess (s : State) (p : Port) (i : Fin 6) (w : Word) : exec (.headAccess p i w) s = .next (
    if w.getLsbD 17 && !s.flag (F.EXL_HACC_BUSY i) then
      if (s.hacc i w).getF (F.EXL_STATUS_STATE i) = 5 then
        ((s.hacc i w).putF (F.EXL_HACC_BUSY i) 1).sendPkt i (if w.getLsbD 16 then .write else .read)
      else (s.hacc i w).putF (F.EXL_HACC_RESULT i) 1
    else s.hacc i w) := rfl

theorem headAccess_sends {p : Port} {w : Word} (hb : s.flag (F.EXL_HACC_BUSY i) = false) (hgo : w.getLsbD 17 = true)
    (h5 : s.getF (F.EXL_STATUS_STATE i) = 5) : Leads s (.headAccess p i w) fun t => t.flag (F.EXL_HACC_BUSY i) = true
      ∧ t.getF (F.EXL_HACC_ADDR i) = bits w 0 16 ∧ (t.stnOf i).nextTag = (s.stnOf i).nextTag + 1#8 := by
  refine ⟨((s.hacc i w).putF (F.EXL_HACC_BUSY i) 1).sendPkt i (if w.getLsbD 16 then .write else .read), ?_, ?_, ?_, ?_⟩
  · rw [exec_headAccess, hb, hgo, Bool.not_false, Bool.and_true, if_pos rfl, if_pos ((hacc_state s i w).trans h5)]
  · rw [flag_congr (getR_sendPkt ..), flag_putF_same _ _ _ (by simp [F.EXL_HACC_BUSY])]
    rfl
  · rw [getF_congr (getR_sendPkt ..), getF_putF_apart _ (by simp [Fld.Apart, F.EXL_HACC_ADDR, F.EXL_HACC_BUSY])]
    exact hacc_addr s i w
  · exact (sendPkt_frame ..).2.1

theorem headAccess_refused {p : Port} {w : Word} (hb : s.flag (F.EXL_HACC_BUSY i) = false) (hgo : w.getLsbD 17 = true)
    (h5 : s.getF (F.EXL_STATUS_STATE i) ≠ 5) :
    Leads s (.headAccess p i w) fun t => t.getF (F.EXL_HACC_RESULT i) = 1 ∧ t.stn = s.stn := by
  refine ⟨(s.hacc i w).putF (F.EXL_HACC_RESULT i) 1, ?_, ?_, rfl⟩
  · rw [exec_headAccess, hb, hgo, Bool.not_false, Bool.and_true, if_pos rfl, if_neg (by rwa [hacc_state])]
  · exact getF_putF_same _ _ _ (by simp [F.EXL_HACC_RESULT])

theorem headAccess_busy {p : Port} {w : Word} (hb : s.flag (F.EXL_HACC_BUSY i) = true) :
    Leads s (.headAccess p i w) fun t => t.stn = s.stn ∧ t.flag (F.EXL_HACC_BUSY i) = true
      ∧ t.getF (F.EXL_HACC_ADDR i) = bits w 0 16 ∧ t.flag (F.EXL_HACC_OP i) = w.getLsbD 16 := by
  refine ⟨s.hacc i w, ?_, rfl, (hacc_busy s i w).trans hb, hacc_addr s i w, hacc_op s i w⟩
  rw [exec_headAccess, hb, Bool.not_true, Bool.and_false, if_neg Bool.false_ne_true]

/-- Settles O45: each command is one case of its definition; what the link's state, its packets and EXL_HACC are then is said once
above. -/
theorem exposureLinksTrainAndAnswer : Obligations.ExposureLinksTrainAndAnswer := by
  intro s i
  refine ⟨trainAttemptStart_starts, retLock_locks, fun d h hl => trainAck_lock h hl, fun a b h => trainAck_deskew h, fun ht hto => ⟨fun h => ?_, fun h => ?_⟩,
    failedRestart_restarts, fun p tag d hp => ⟨fun hk => ?_, fun hk => ?_⟩, fun p r hp hto ht => responseTimeout_resends hp hto ht,
    fun p w hb hgo => ⟨headAccess_sends hb hgo, headAccess_refused hb hgo⟩, fun p w hb => headAccess_busy hb⟩
  · exact ⟨_, trainTimeout_fails ht hto, failAttempt_next h⟩
  · exact ⟨_, trainTimeout_fails ht hto, failAttempt_last h⟩
  · refine ⟨_, response_ok hp, ?_⟩
    rw [hk]
    obtain ⟨hd, hb, hstn⟩ := answered_read (s.dropTag i tag) i d
    exact ⟨hd, hb, by rw [stnOf_congr hstn]; exact dropTag_pkts s i tag⟩
  · refine ⟨_, response_ok hp, ?_⟩
    rw [hk]
    obtain ⟨hok, hpk⟩ := answered_config (s.dropTag i tag) i d
    exact ⟨hok, by rw [hpk]; exact dropTag_pkts s i tag⟩

end Sys2Proof.Machine

end

/-! ## Exposure heads: STATUS, emitters, return blocks and retraining (R237, R243, R249 to R257) -/

section

namespace Sys2Proof.Machine

variable {s : State} {i : Fin 6}

@[simp] theorem updStn_getR (s : State) (i : Fin 6) (f : Station → Station) (o : Nat) : (s.updStn i f).getR o = s.getR o := rfl

@[simp] theorem updStn_getF (s : State) (i : Fin 6) (f : Station → Station) (g : Fld) : (s.updStn i f).getF g = s.getF g := rfl

@[simp] theorem putR_stnOf (s : State) (o : Nat) (w : Word) (i : Fin 6) : (s.putR o w).stnOf i = s.stnOf i := rfl

@[simp] theorem putF_stnOf (s : State) (f : Fld) (v : Nat) (i : Fin 6) : (s.putF f v).stnOf i = s.stnOf i := rfl

/-! ### What a station's stop leaves of its link -/

/-- What a station keeps of its exposure link: the next attempt, the last count of CRC failures, and whether the link settled and a dead
emitter was seen. -/
def Station.linkOf (t : Station) : Nat × Option Nat × Bool × Bool := (t.nextAttempt, t.crcLast, t.settled, t.deadSeen)

section
variable {α : Type} {g : Station → α}

/-- From `s` to `t` every station keeps its part `g`. -/
def State.KeepsStn (g : Station → α) (s t : State) : Prop := ∀ j, g (t.stnOf j) = g (s.stnOf j)

theorem State.KeepsStn.refl (g : Station → α) (s : State) : State.KeepsStn g s s := fun _ => rfl

theorem State.KeepsStn.trans {a t : State} (h : State.KeepsStn g s a) (h' : State.KeepsStn g a t) : State.KeepsStn g s t :=
  fun j => (h' j).trans (h j)

theorem State.KeepsStn.of_stn {t : State} (h : t.stn = s.stn) : State.KeepsStn g s t := fun _ => congrArg g (stnOf_congr h)

theorem State.KeepsStn.updStn (s : State) (i : Fin 6) (f : Station → Station) (hf : ∀ t, g (f t) = g t) : State.KeepsStn g s (s.updStn i f) := by
  intro j
  by_cases h : j = i
  · subst h
    rw [stnOf_updStn_same, hf]
  · rw [stnOf_updStn_ne s f h]

theorem State.KeepsStn.foldl {β : Type} (l : List β) {f : State → β → State} (hf : ∀ b x, State.KeepsStn g b (f b x)) (s : State) :
    State.KeepsStn g s (l.foldl f s) := by
  induction l generalizing s with
  | nil => exact .refl g s
  | cons x r ih => exact (hf s x).trans (ih (f s x))

/-- A part of a station that no stop of its page changes. -/
def StopFree (g : Station → α) : Prop := ∀ (t : Station) (lost : Nat) (notices dots : List Nat) (skip : Bool)
  (abort : Option LinkBlk) (line : Nat) (beams : Vector Beam 32) (due left : Int), g { t with
    lost := lost, notices := notices, drainDots := dots, skipping := skip, abort := abort, lineEnd := line, beams := beams,
    slewDue := due, slewLeft := left } = g t

end

theorem journal_stn (s : State) (e : JEntry) : (s.journal e).stn = s.stn := by
  unfold State.journal State.jfullCheck
  split
  · rfl
  · split <;> rfl

theorem spoil_stn (s : State) (id : Word) : (s.spoil id).stn = s.stn := by
  unfold State.spoil
  split
  · split
    · rfl
    · exact journal_stn s _
  · rfl

theorem spoilStn_stn (s : State) (i : Fin 6) : (s.spoilStn i).stn = s.stn := by
  unfold State.spoilStn
  split
  · exact spoil_stn s _
  · rfl

theorem withdraw_stn (s : State) (c : Nat) : (s.withdraw c).stn = s.stn := by
  unfold State.withdraw
  dsimp only
  split <;> rfl

section
variable {α : Type} {g : Station → α}

theorem slewStart_keepsStn (hg : StopFree g) (s : State) (i : Fin 6) : State.KeepsStn g s (s.slewStart i) := by
  unfold State.slewStart
  extract_lets busy
  split
  · exact State.KeepsStn.trans (.of_stn rfl) (.updStn _ i _ fun t => hg t _ _ _ _ _ _ _ _ _)
  · exact .refl g s

theorem inhibit_keepsStn (hg : StopFree g) (s : State) (i : Fin 6) : State.KeepsStn g s (s.inhibit i) := by
  unfold State.inhibit
  split
  · split
    · exact .refl g s
    · refine State.KeepsStn.trans ?_ (.foldl _ (slewStart_keepsStn hg) _)
      refine State.KeepsStn.trans ?_ (.of_stn rfl)
      refine State.KeepsStn.trans ?_ (.of_stn (spoilStn_stn _ i))
      refine State.KeepsStn.trans ?_ (.updStn _ i _ fun t => hg t _ _ _ _ _ _ _ _ _)
      exact (State.KeepsStn.of_stn (withdraw_stn s _)).trans
        (State.KeepsStn.trans (.of_stn rfl) (.updStn _ i _ fun t => hg t _ _ _ _ _ _ _ _ _))
  · exact .refl g s

theorem gateFollow_keepsStn (hg : StopFree g) (s : State) : State.KeepsStn g s s.gateFollow := by
  refine .foldl _ (fun b i => ?_) s
  split
  · exact inhibit_keepsStn hg b i
  · exact .refl g b

end

theorem linkOf_stopFree : StopFree Station.linkOf := fun _ _ _ _ _ _ _ _ _ _ => rfl

theorem inhibit_keepsLinks (s : State) (i : Fin 6) : State.KeepsStn Station.linkOf s (s.inhibit i) := inhibit_keepsStn linkOf_stopFree s i

theorem State.Stops.arisen {t : State} {id : EvId} {n : Nat} (h : s.Stops t) (ha : s.Arisen id n) : t.Arisen id n := by
  obtain ⟨r, k, n, l, j, rfl⟩ := h
  exact ha

theorem slewFollow_stops (s : State) (i : Fin 6) : s.Stops (s.slewFollow i) := by
  unfold State.slewFollow
  extract_lets g st a d whole rest
  split
  · exact .refl s
  · exact (updStn_stops s i _).trans (slewStart_stops _ i)

theorem slewFollow_keepsLinks (s : State) (i : Fin 6) : State.KeepsStn Station.linkOf s (s.slewFollow i) := by
  unfold State.slewFollow
  extract_lets g st a d whole rest
  split
  · exact .refl _ s
  · exact (State.KeepsStn.updStn s i _ (by intro _; rfl)).trans (slewStart_keepsStn linkOf_stopFree _ i)

/-! ### The link goes down (R251, R252) -/

theorem exlStatus_notStop (i : Fin 6) (f : Fld) (h : f.off = R.EXL_STATUS i) : f.off / 65536 ∉ stopBlocks := by
  rw [h, exlStatus_block]
  decide

theorem dropPkts_keepsLinks (s : State) (i : Fin 6) : State.KeepsStn Station.linkOf s (s.dropPkts i) := by
  unfold State.dropPkts
  extract_lets a
  have ha : a.stn = s.stn := by
    simp only [a]
    split <;> rfl
  exact (State.KeepsStn.of_stn ha).trans (.updStn _ i _ (by intro _; rfl))

theorem retrain_state (s : State) (i : Fin 6) : (s.retrain i).getF (F.EXL_STATUS_STATE i) = 0 := by
  unfold State.retrain
  extract_lets a b c d
  rw [(inhibit_within d i).getF _ (exlStatus_notStop i _ rfl)]
  exact setLink_state _ i (by decide)

theorem retrain_pending (s : State) (i : Fin 6) : (s.retrain i).flag (F.EXL_STATUS_RETRAIN_PENDING i) = false := by
  unfold State.retrain
  extract_lets a b c d
  rw [(inhibit_within d i).flag _ (exlStatus_notStop i _ rfl)]
  have hc : c.flag (F.EXL_STATUS_RETRAIN_PENDING i) = false := by
    simp only [c]
    rw [State.putB, flag_putF_apart _ (by simp [Fld.Apart, F.EXL_STATUS_RETRAIN_PENDING, F.EXL_CTRL_RETRAIN, R.EXL_CTRL, R.EXL_STATUS])]
    exact flag_putB_same _ _ _ (by simp [F.EXL_STATUS_RETRAIN_PENDING]) (by simp [F.EXL_STATUS_RETRAIN_PENDING])
  clear_value c
  rw [flag_eq_of_getF (getF_setLink _ _ _ _ (by simp [linkField, F.EXL_STATUS_RETRAIN_PENDING])),
    flag_putF_apart _ (by simp [Fld.Apart, F.EXL_STATUS_RETRAIN_PENDING, F.EXL_STATUS_LANES]), State.putB,
    flag_putF_apart _ (by simp [Fld.Apart, F.EXL_STATUS_RETRAIN_PENDING, F.EXL_STATUS_HEAD_READY])]
  exact hc

theorem setLink_stnOf (s : State) (i : Fin 6) (v : Nat) (j : Fin 6) : (s.setLink i v).stnOf j = s.stnOf j := stnOf_congr (setLink_stn ..)

theorem linkOf_reset {a b : State} (h : b = a.updStn i fun t => { t with
      nextAttempt := 1, configOk := false, syncErrs := [], lenDiff := 0, lenKnown := false }) :
    (b.stnOf i).linkOf = (1, (a.stnOf i).linkOf.2) := by
  rw [h, stnOf_updStn_same]
  rfl

theorem putB_stnOf (s : State) (f : Fld) (b : Bool) (i : Fin 6) : (s.putB f b).stnOf i = s.stnOf i := putF_stnOf ..

theorem retrain_linkOf (s : State) (i : Fin 6) : ((s.retrain i).stnOf i).linkOf = (1, (s.stnOf i).linkOf.2) := by
  unfold State.retrain
  extract_lets a b c d
  have hc : c.stnOf i = b.stnOf i := (putB_stnOf ..).trans (putB_stnOf ..)
  have hd : d.stnOf i = c.stnOf i := (setLink_stnOf ..).trans ((putF_stnOf ..).trans (putB_stnOf ..))
  have ha : a.stnOf i = (s.dropPkts i).stnOf i := putB_stnOf ..
  rw [inhibit_keepsLinks d i i, hd, hc, linkOf_reset (a := a) rfl, ha, dropPkts_keepsLinks s i i]

/-- A retrain takes the link to IDLE and its next attempt to the first. -/
theorem retrain_idle (s : State) (i : Fin 6) : (s.retrain i).getF (F.EXL_STATUS_STATE i) = 0
    ∧ (s.retrain i).flag (F.EXL_STATUS_RETRAIN_PENDING i) = false ∧ ((s.retrain i).stnOf i).linkOf = (1, (s.stnOf i).linkOf.2) :=
  ⟨retrain_state s i, retrain_pending s i, retrain_linkOf s i⟩

theorem retrain_arisen (s : State) (i : Fin 6) {id : EvId} {n : Nat} (h : s.Arisen id n) : (s.retrain i).Arisen id n := by
  unfold State.retrain
  extract_lets a b c d
  have hd : d.Arisen id n := by
    obtain ⟨⟨r, m, hp⟩, -⟩ := dropPkts_frame s i
    obtain ⟨⟨r', q, l, x, hl⟩, -⟩ := setLink_frame ((c.putB (F.EXL_STATUS_HEAD_READY i) false).putF (F.EXL_STATUS_LANES i) 0) i 0
    have he : c.ev = s.ev ∧ c.tsc = s.tsc := by
      simp only [c, b, a, hp]
      exact ⟨rfl, rfl⟩
    refine h.of_eq ?_ ?_
    · simp only [d, hl]
      exact he.1
    · simp only [d, hl]
      exact he.2
  exact (inhibit_stops d i).arisen hd

/-- A link in use that is lost goes to IDLE and reports it. -/
theorem linkDown_idle (h : s.getF (F.EXL_STATUS_STATE i) = 5) (c : Nat) :
    (s.linkDown i c).Arisen Ev.EXL_LINK_DOWN i ∧ (s.linkDown i c).getF (F.EXL_STATUS_STATE i) = 0 := by
  unfold State.linkDown
  rw [if_pos h]
  extract_lets st a
  exact ⟨retrain_arisen a i ((arisen_raise ..).of_eq rfl rfl), (retrain_idle a i).1⟩

/-- A link that is lost keeps the events that wait and the last count of CRC failures. -/
theorem linkDown_keeps (s : State) (i : Fin 6) (c : Nat) : ((s.linkDown i c).stnOf i).crcLast = (s.stnOf i).crcLast
    ∧ ∀ id n, s.Arisen id n → (s.linkDown i c).Arisen id n := by
  unfold State.linkDown
  split
  · extract_lets st a
    refine ⟨?_, fun id n h => retrain_arisen a i (State.Arisen.of_eq (arisen_of_raise _ _ _ _ _ _ _ h) rfl rfl)⟩
    exact congrArg (fun x => x.2.1) (retrain_idle a i).2.2
  · exact ⟨rfl, fun _ _ h => h⟩

theorem askRetrain_keeps (s : State) (i : Fin 6) : ((s.askRetrain i).stnOf i).crcLast = (s.stnOf i).crcLast
    ∧ ∀ id n, s.Arisen id n → (s.askRetrain i).Arisen id n := by
  unfold State.askRetrain
  extract_lets a
  split
  · exact ⟨congrArg (fun x => x.2.1) (retrain_idle a i).2.2, fun id n h => retrain_arisen a i (State.Arisen.of_eq h rfl rfl)⟩
  · exact ⟨rfl, fun _ _ h => h⟩

/-! ### STATUS (R243, R249, R250, R254) -/

theorem foldl_add_ge (l : List Nat) (n : Nat) : n ≤ l.foldl (· + ·) n := by
  induction l generalizing n with
  | nil => exact le_refl n
  | cons x r ih => exact (Nat.le_add_right n x).trans (ih (n + x))

/-- CRC failures that rose by more than the limit raise EXL_CRC_RATE. -/
theorem crcCount_over {n : Nat} {crc : BitVec 8} (hl : (s.stnOf i).crcLast = some n)
    (hn : s.getF (F.EXL_CRC_LIMIT i) < (crc.toNat + 256 - n) % 256) :
    (s.crcCount i crc).Arisen Ev.EXL_CRC_RATE i ∧ ((s.crcCount i crc).stnOf i).crcLast = some crc.toNat := by
  unfold State.crcCount
  extract_lets t m l sum a
  have hm : m = (crc.toNat + 256 - n) % 256 := by simp only [m, t, hl, Option.getD_some]
  have hsum : m ≤ sum := by
    have hm0 : m ≠ 0 := by omega
    simp only [sum, l, if_neg hm0, List.map_append, List.map_cons, List.map_nil, List.foldl_append, List.foldl_cons, List.foldl_nil]
    exact Nat.le_add_left ..
  have hlim : a.getF (F.EXL_CRC_LIMIT i) = s.getF (F.EXL_CRC_LIMIT i) := by
    change (s.incR (R.EXL_CRC_ERR i) m).getF _ = _
    exact getF_incR _ _ _ (by simp [F.EXL_CRC_LIMIT, R.EXL_CRC_LIMIT, R.EXL_CRC_ERR])
  have ha : (a.stnOf i).crcLast = some crc.toNat := by
    simp only [a, stnOf_updStn_same]
  clear_value a
  rw [if_pos (by omega)]
  obtain ⟨hk, hev⟩ := askRetrain_keeps ((a.raise Ev.EXL_CRC_RATE i).updStn i fun t => { t with crcs := [] }) i
  refine ⟨hev _ _ (arisen_raise ..), hk.trans ?_⟩
  rw [stnOf_updStn_same]
  exact ha

/-- CRC failures that have not risen, after no recent rise, change the station alone. -/
theorem crcCount_same {crc : BitVec 8} (hl : (s.stnOf i).crcLast = some crc.toNat) (hold : ∀ x ∈ (s.stnOf i).crcs, x.1 + 1000 ≤ s.tick) :
    (∀ f : Fld, f.off = R.EXL_STATUS i → (s.crcCount i crc).getF f = s.getF f)
      ∧ ((s.crcCount i crc).stnOf i).configOk = (s.stnOf i).configOk := by
  unfold State.crcCount
  extract_lets t m l sum a
  have hm : m = 0 := by
    simp only [m, t, hl, Option.getD_some]
    omega
  have hsum : sum = 0 := by
    have hf : (t.crcs.filter fun x => Nat.blt s.tick (x.1 + 1000)) = [] := by
      refine List.filter_eq_nil_iff.2 fun x hx => ?_
      have h := hold x hx
      simpa [Nat.blt_eq] using h
    simp only [sum, l, if_pos hm, hf, List.append_nil, List.map_nil, List.foldl_nil]
  have hr : ∀ f : Fld, f.off = R.EXL_STATUS i → a.getF f = s.getF f := fun f h => by
    change (s.incR (R.EXL_CRC_ERR i) m).getF _ = _
    exact getF_incR _ _ _ (by simp [h, R.EXL_STATUS, R.EXL_CRC_ERR])
  have hc : (a.stnOf i).configOk = (s.stnOf i).configOk := by
    simp only [a, stnOf_updStn_same]
    rfl
  clear_value a
  rw [if_neg (by omega)]
  exact ⟨hr, hc⟩

/-- The state after STATUS has been taken up, before the link follows. -/
def State.headStatus (s : State) (i : Fin 6) (flags : BitVec 7) (temp : BitVec 16) : State :=
  let s := s.putF (F.EXL_HEAD_TEMP i) temp.toNat
  let s := (s.putB (F.EXL_STATUS_HEAD_READY i) (flags.getLsbD 0)).putB (F.EXL_STATUS_HEAD_FAULT i) (flags.getLsbD 1)
  (s.putB (F.EXL_STATUS_LEN_SEEN i) (flags.getLsbD 2)).updStn i fun t => { t with statusAt := s.tsc.toNat, lenKnown := true }

theorem headStatus_stn (s : State) (i : Fin 6) (flags : BitVec 7) (temp : BitVec 16) :
    (s.headStatus i flags temp).stnOf i = { s.stnOf i with statusAt := s.tsc.toNat, lenKnown := true } := stnOf_updStn_same ..

theorem getF_headStatus (s : State) (i : Fin 6) (flags : BitVec 7) (temp : BitVec 16) (f : Fld) (hoff : f.off ≠ R.EXL_HEAD_TEMP i)
    (hlo : f.off = R.EXL_STATUS i → f.lo + f.w ≤ 9) : (s.headStatus i flags temp).getF f = s.getF f := by
  have hap : ∀ g : Fld, g.off = R.EXL_STATUS i → 9 ≤ g.lo → g.Apart f := fun g hg h9 => by
    by_cases h : f.off = R.EXL_STATUS i
    · have := hlo h
      exact Or.inr ⟨by omega, Or.inl (by omega)⟩
    · exact Or.inl (by rwa [hg])
  unfold State.headStatus
  extract_lets a b
  rw [updStn_getF, State.putB, getF_putF_apart _ (hap (F.EXL_STATUS_LEN_SEEN i) rfl (by simp [F.EXL_STATUS_LEN_SEEN]))]
  simp only [b, a, State.putB]
  rw [getF_putF_apart _ (hap (F.EXL_STATUS_HEAD_FAULT i) rfl (by simp [F.EXL_STATUS_HEAD_FAULT])),
    getF_putF_apart _ (hap (F.EXL_STATUS_HEAD_READY i) rfl (by simp [F.EXL_STATUS_HEAD_READY]))]
  exact getF_putF_apart (f := F.EXL_HEAD_TEMP i) _ (Or.inl hoff)

/-- What a STATUS does to the link in its state. -/
def State.statusLink (s : State) (i : Fin 6) (flags : BitVec 7) : State :=
  match s.getF (F.EXL_STATUS_STATE i) with
  | 4 =>
    if (s.stnOf i).configOk ∧ flags.getLsbD 0 then s.linkActive i else s
  | 5 =>
    let l := s.getF (F.EXL_STATUS_LANES i)
    if (bit l 0 && !flags.getLsbD 3) || (bit l 1 && !flags.getLsbD 4) then s.linkDown i 3
    else if flags.getLsbD 5 then s.linkDown i 4
    else if flags.getLsbD 1 then s.linkDown i 5
    else s
  | _ => s

theorem exec_status (s : State) (i : Fin 6) (flags : BitVec 7) (temp : BitVec 16) (crc : BitVec 8) :
    exec (.status i flags temp crc) s = .next (((s.headStatus i flags temp).crcCount i crc).statusLink i flags) := rfl

/-- The link becomes active: EXL_STATUS is ACTIVE and the station has settled, and no event is lost. -/
theorem linkActive_active (s : State) (i : Fin 6) : (s.linkActive i).getF (F.EXL_STATUS_STATE i) = 5
    ∧ ((s.linkActive i).stnOf i).settled = true := by
  unfold State.linkActive
  extract_lets one clean a ma b c d
  have ha : a.getF (F.EXL_STATUS_STATE i) = 5 ∧ (a.stnOf i).settled = true := by
    refine ⟨setLink_state s i (by decide), ?_⟩
    simp only [a, stnOf_updStn_same]
  have hb : b.getF (F.EXL_STATUS_STATE i) = 5 ∧ (b.stnOf i).settled = true := by
    simp only [b]
    split
    · refine ⟨?_, ha.2⟩
      refine (getF_putF_off _ _ _ _ (by simp [F.EXL_STATUS_STATE, F.DEC_STATUS_SPARES_LOW, R.EXL_STATUS, R.DEC_STATUS]; omega)).trans ?_
      refine (getF_putF_off _ _ _ _ (by simp [F.EXL_STATUS_STATE, F.DEC_STATUS_NO_WINDOW, R.EXL_STATUS, R.DEC_STATUS]; omega)).trans ?_
      refine (getF_putR _ _ _ _ (by simp [F.EXL_STATUS_STATE, R.EXL_STATUS, R.DEC_DEAD_HI]; omega)).trans ?_
      exact (getF_putR _ _ _ _ (by simp [F.EXL_STATUS_STATE, R.EXL_STATUS, R.DEC_DEAD_LO]; omega)).trans ha.1
    · exact ha
  have hc : c.getF (F.EXL_STATUS_STATE i) = 5 ∧ (c.stnOf i).settled = true :=
    ⟨(getF_putF_apart _ (by simp [Fld.Apart, F.EXL_STATUS_STATE, F.EXL_STATUS_FALLBACK])).trans hb.1, hb.2⟩
  have hd : d.getF (F.EXL_STATUS_STATE i) = 5 ∧ (d.stnOf i).settled = true := by
    simp only [d]
    split
    · have hm := setMend_mends (c.raise Ev.EXL_FALLBACK i) 3
      exact ⟨(hm.getF _ (by simp [F.EXL_STATUS_STATE, exlStatus_block])).trans hc.1, by rw [stnOf_congr hm.stn_eq]; exact hc.2⟩
    · exact hc
  clear_value d
  have hm := emitterMend_mends d
  constructor
  · refine (getF_putF_apart _ (by simp [Fld.Apart, F.EXL_STATUS_STATE, F.EXL_STATUS_RATE_LIMIT])).trans ?_
    exact (hm.getF _ (by simp [F.EXL_STATUS_STATE, exlStatus_block])).trans hd.1
  · change (d.emitterMend.stnOf i).settled = true
    rw [stnOf_congr hm.stn_eq]
    exact hd.2

theorem linkActive_keeps (s : State) (i : Fin 6) : ((s.linkActive i).stnOf i).crcLast = (s.stnOf i).crcLast
    ∧ ∀ id n, s.Arisen id n → (s.linkActive i).Arisen id n := by
  unfold State.linkActive
  extract_lets one clean a ma b c d
  have ha : (a.stnOf i).crcLast = (s.stnOf i).crcLast ∧ ∀ id n, s.Arisen id n → a.Arisen id n := by
    refine ⟨?_, fun id n h => ?_⟩
    · simp only [a, stnOf_updStn_same, stnOf_congr (setLink_stn s i 5)]
    · exact State.Arisen.of_eq h (setLink_ev s i 5) (setLink_tsc s i 5)
  have hb : b.stn = a.stn ∧ b.ev = a.ev ∧ b.tsc = a.tsc := by
    simp only [b]
    split <;> exact ⟨rfl, rfl, rfl⟩
  have hc : (c.stnOf i).crcLast = (s.stnOf i).crcLast ∧ ∀ id n, s.Arisen id n → c.Arisen id n :=
    ⟨(congrArg Station.crcLast (stnOf_congr hb.1)).trans ha.1, fun id n h => (ha.2 id n h).of_eq hb.2.1 hb.2.2⟩
  clear_value c
  have hd : (d.stnOf i).crcLast = (s.stnOf i).crcLast ∧ ∀ id n, s.Arisen id n → d.Arisen id n := by
    simp only [d]
    split
    · have hm := setMend_mends (c.raise Ev.EXL_FALLBACK i) 3
      exact ⟨(congrArg Station.crcLast (stnOf_congr hm.stn_eq)).trans hc.1, fun id n h =>
        hm.2.2 id n (arisen_of_raise _ _ _ _ _ _ _ (hc.2 id n h))⟩
    · exact hc
  clear_value d
  have hm := emitterMend_mends d
  exact ⟨(congrArg Station.crcLast (stnOf_congr hm.stn_eq)).trans hd.1, fun id n h => hm.2.2 id n (hd.2 id n h)⟩

theorem statusLink_keeps (s : State) (i : Fin 6) (flags : BitVec 7) : ((s.statusLink i flags).stnOf i).crcLast = (s.stnOf i).crcLast
    ∧ ∀ id n, s.Arisen id n → (s.statusLink i flags).Arisen id n := by
  have hself : (s.stnOf i).crcLast = (s.stnOf i).crcLast ∧ ∀ id n, s.Arisen id n → s.Arisen id n := ⟨rfl, fun _ _ h => h⟩
  unfold State.statusLink
  split
  · split
    · exact linkActive_keeps s i
    · exact hself
  · extract_lets l
    split
    · exact linkDown_keeps s i 3
    · split
      · exact linkDown_keeps s i 4
      · split
        · exact linkDown_keeps s i 5
        · exact hself
  · exact hself

end Sys2Proof.Machine

end

/-! ## Exposure heads: what they report (R237, R243, R249, R255 to R257) -/

section

namespace Sys2Proof.Machine

variable {s : State} {i : Fin 6}

/-! ### STATUS -/

theorem status_active {flags : BitVec 7} {temp : BitVec 16} {crc : BitVec 8} (hl : (s.stnOf i).crcLast = some crc.toNat)
    (hold : ∀ x ∈ (s.stnOf i).crcs, x.1 + 1000 ≤ s.tick) (h4 : s.getF (F.EXL_STATUS_STATE i) = 4) (hc : (s.stnOf i).configOk = true)
    (hf : flags.getLsbD 0 = true) : Leads s (.status i flags temp crc) fun t =>
      t.getF (F.EXL_STATUS_STATE i) = 5 ∧ (t.stnOf i).settled = true := by
  obtain ⟨hr, hcfg⟩ := crcCount_same (s := s.headStatus i flags temp) (crc := crc) (i := i)
    (by rw [headStatus_stn]; exact hl) (by rw [headStatus_stn]; exact hold)
  refine ⟨_, exec_status .., ?_⟩
  have h : ((s.headStatus i flags temp).crcCount i crc).getF (F.EXL_STATUS_STATE i) = 4 := by
    rw [hr _ rfl, getF_headStatus _ _ _ _ _ (by simp [F.EXL_STATUS_STATE, R.EXL_STATUS, R.EXL_HEAD_TEMP]) (by simp [F.EXL_STATUS_STATE]), h4]
  have hok : (((s.headStatus i flags temp).crcCount i crc).stnOf i).configOk = true := by
    rw [hcfg, headStatus_stn]
    exact hc
  generalize (s.headStatus i flags temp).crcCount i crc = t at h hok
  have hlink : t.statusLink i flags = t.linkActive i := by
    unfold State.statusLink
    rw [h]
    exact if_pos ⟨hok, hf⟩
  rw [hlink]
  exact linkActive_active t i

theorem status_laneLost {flags : BitVec 7} {temp : BitVec 16} {crc : BitVec 8} (hl : (s.stnOf i).crcLast = some crc.toNat)
    (hold : ∀ x ∈ (s.stnOf i).crcs, x.1 + 1000 ≤ s.tick) (h5 : s.getF (F.EXL_STATUS_STATE i) = 5)
    (h3 : s.getF (F.EXL_STATUS_LANES i) = 3) (hf : flags.getLsbD 3 = false) : Leads s (.status i flags temp crc) fun t =>
      t.Arisen Ev.EXL_LINK_DOWN i ∧ t.getF (F.EXL_STATUS_STATE i) = 0 := by
  obtain ⟨hr, -⟩ := crcCount_same (s := s.headStatus i flags temp) (crc := crc) (i := i)
    (by rw [headStatus_stn]; exact hl) (by rw [headStatus_stn]; exact hold)
  refine ⟨_, exec_status .., ?_⟩
  have h : ((s.headStatus i flags temp).crcCount i crc).getF (F.EXL_STATUS_STATE i) = 5 := by
    rw [hr _ rfl, getF_headStatus _ _ _ _ _ (by simp [F.EXL_STATUS_STATE, R.EXL_STATUS, R.EXL_HEAD_TEMP]) (by simp [F.EXL_STATUS_STATE]), h5]
  have hlanes : ((s.headStatus i flags temp).crcCount i crc).getF (F.EXL_STATUS_LANES i) = 3 := by
    rw [hr _ rfl, getF_headStatus _ _ _ _ _ (by simp [F.EXL_STATUS_LANES, R.EXL_STATUS, R.EXL_HEAD_TEMP]) (by simp [F.EXL_STATUS_LANES]), h3]
  generalize (s.headStatus i flags temp).crcCount i crc = t at h hlanes
  have hlink : t.statusLink i flags = t.linkDown i 3 := by
    unfold State.statusLink
    rw [h]
    refine if_pos ?_
    rw [hlanes, hf]
    rfl
  rw [hlink]
  exact linkDown_idle h 3

theorem status_crcRate {flags : BitVec 7} {temp : BitVec 16} {crc : BitVec 8} {n : Nat} (hl : (s.stnOf i).crcLast = some n)
    (hn : s.getF (F.EXL_CRC_LIMIT i) < (crc.toNat + 256 - n) % 256) : Leads s (.status i flags temp crc) fun t =>
      t.Arisen Ev.EXL_CRC_RATE i ∧ (t.stnOf i).crcLast = some crc.toNat := by
  have hlim : (s.headStatus i flags temp).getF (F.EXL_CRC_LIMIT i) = s.getF (F.EXL_CRC_LIMIT i) :=
    getF_headStatus _ _ _ _ _ (by simp [F.EXL_CRC_LIMIT, R.EXL_CRC_LIMIT, R.EXL_HEAD_TEMP])
      (by simp [F.EXL_CRC_LIMIT, R.EXL_CRC_LIMIT, R.EXL_STATUS])
  obtain ⟨he, hc⟩ := crcCount_over (s := s.headStatus i flags temp) (crc := crc) (i := i) (n := n)
    (by rw [headStatus_stn]; exact hl) (by rwa [hlim])
  obtain ⟨hk, hev⟩ := statusLink_keeps ((s.headStatus i flags temp).crcCount i crc) i flags
  exact ⟨_, exec_status .., hev _ _ he, hk.trans hc⟩

theorem statusTimeout_down (h5 : s.getF (F.EXL_STATUS_STATE i) = 5) (hto : (s.stnOf i).statusAt + 1600 ≤ s.tsc.toNat) :
    Leads s (.statusTimeout i) fun t => t.Arisen Ev.EXL_LINK_DOWN i ∧ t.getF (F.EXL_STATUS_STATE i) = 0 :=
  ⟨_, congrArg Host.Outcome.next (if_pos hto), linkDown_idle h5 1⟩

/-! ### Emitters (R237, R255) -/

theorem apc_taken {e : BitVec 8} (pw : BitVec 16) (he : e.toNat < 36) : Leads s (.apc i e pw) fun t =>
    t.getF (F.EXL_APC_POWER i e.toNat) = pw.toNat ∧ t.getF (F.EXL_APC_AGE i e.toNat) = 0 := by
  refine ⟨_, congrArg Host.Outcome.next (if_pos he), ?_⟩
  extract_lets a
  beta_reduce
  rw [updStn_getF, updStn_getF]
  constructor
  · simp only [a]
    rw [getF_putF_apart _ (by simp [Fld.Apart, F.EXL_APC_POWER, F.EXL_APC_AGE]), getF_putF_same _ _ _ (by simp [F.EXL_APC_POWER])]
    exact Nat.mod_eq_of_lt pw.isLt
  · exact getF_putF_same _ _ _ (by simp [F.EXL_APC_AGE])

theorem emitter_degraded {e : BitVec 8} (he : e.toNat < 36) (h0 : s.getF (F.EXL_APC_STATE i e.toNat) = 0) :
    Leads s (.emitter i e 1#8) fun t => t.Arisen Ev.EXL_EMITTER_DEGRADED i ∧ t.getF (F.EXL_APC_STATE i e.toNat) = 1 := by
  have hold : s.getF (F.EXL_APC_STATE i e.toNat) ≠ 1 := by rw [h0]; decide
  refine ⟨_, congrArg Host.Outcome.next ((if_pos ⟨he, by decide⟩).trans ((if_neg (by decide)).trans (if_pos ⟨rfl, hold⟩))), arisen_raise .., ?_⟩
  rw [State.raise_getF, getF_putF_same _ _ _ (by simp [F.EXL_APC_STATE])]
  rfl

/-- The window of a station moves: WIN_BASE, TOP_SHIFT, SPARES_LOW and NO_WINDOW change, and Mend status follows. -/
theorem moveWindow_keeps (s : State) (i : Fin 6) (o : Nat) (h : o / 65536 = 7) (hst : o ≠ R.DEC_STATUS i) (htop : o ≠ R.DEC_TOP_SHIFT i) :
    (s.moveWindow i).getR o = s.getR o := by
  have hb7 : o / 65536 ∉ [0, 0x13, 0x15] := by rw [h]; decide
  have hw : ∀ v, (s.putWindow i v).getR o = s.getR o := fun v => by
    unfold State.putWindow
    extract_lets k d
    rw [getR_putF_ne _ _ _ _ htop, getR_putF_ne _ _ _ _ hst]
  unfold State.moveWindow
  extract_lets w
  split
  · split
    · rfl
    · exact hw _
  · split
    · rfl
    · split
      · extract_lets b c
        have hb : b.getR o = s.getR o := by
          simp only [b, State.putB]
          rw [getR_putF_ne _ _ _ _ hst, hw]
        clear_value b
        have hc : c.getR o = s.getR o := (State.raise_getR ..).trans ((getR_putF_ne _ _ _ _ hst).trans hb)
        clear_value c
        exact ((setMend_mends c 4).2.1 o hb7).trans hc
      · split
        · rfl
        · rw [(setMend_mends _ 4).2.1 o hb7, State.raise_getR, State.putB, getR_putF_ne _ _ _ _ hst]

theorem moveWindow_stn (s : State) (i : Fin 6) : (s.moveWindow i).stn = s.stn := by
  unfold State.moveWindow
  extract_lets w
  split
  · split <;> rfl
  · split
    · rfl
    · split
      · extract_lets b c
        exact (setMend_mends c 4).stn_eq
      · split
        · rfl
        · exact (setMend_mends _ 4).stn_eq


/-- The phase of a station's grid changes EXP_STATUS alone among the registers. -/
theorem slewFollow_getR (s : State) (i : Fin 6) {o : Nat} (h : o / 65536 ≠ 8) : (s.slewFollow i).getR o = s.getR o := by
  have hs : ∀ a : State, (a.slewStart i).getR o = a.getR o := fun a => by
    unfold State.slewStart
    extract_lets busy
    split
    · refine (updStn_getR ..).trans (getR_putF_ne _ _ _ _ ?_)
      simp only [F.EXP_STATUS_SLEWING, R.EXP_STATUS]
      omega
    · rfl
  unfold State.slewFollow
  extract_lets g st a d whole rest
  split
  · rfl
  · exact (hs _).trans (updStn_getR ..)

theorem dead_congr {t : State} {e : Nat} (h : ∀ o, o = R.DEC_DEAD_LO i ∨ o = R.DEC_DEAD_HI i → t.getR o = s.getR o) : t.dead i e = s.dead i e := by
  unfold State.dead
  rw [h _ (Or.inl rfl), h _ (Or.inr rfl)]

/-- What follows the report of a dead emitter keeps it: Mend status and the window of an idle station. -/
theorem deadFollow_keeps (s : State) (i : Fin 6) : let a := s.mendFollow
    let t := if a.stnIdle i then a.moveGrid i else a
    (∀ o, o = R.DEC_DEAD_LO i ∨ o = R.DEC_DEAD_HI i → t.getR o = s.getR o) ∧ (t.stnOf i).deadSeen = (s.stnOf i).deadSeen := by
  extract_lets a t
  have hm := mendFollow_mends s
  have hb : ∀ o, o = R.DEC_DEAD_LO i ∨ o = R.DEC_DEAD_HI i → o / 65536 = 7 ∧ o ≠ R.DEC_STATUS i ∧ o ≠ R.DEC_TOP_SHIFT i := by
    simp only [R.DEC_DEAD_LO, R.DEC_DEAD_HI, R.DEC_STATUS, R.DEC_TOP_SHIFT]
    omega
  have ha : (∀ o, o = R.DEC_DEAD_LO i ∨ o = R.DEC_DEAD_HI i → a.getR o = s.getR o) ∧ a.stn = s.stn :=
    ⟨fun o ho => hm.2.1 o (by rw [(hb o ho).1]; decide), hm.stn_eq⟩
  clear_value a
  obtain ⟨har, has⟩ := ha
  have hs : (a.stnOf i).deadSeen = (s.stnOf i).deadSeen := congrArg Station.deadSeen (stnOf_congr has)
  simp only [t]
  split
  · constructor
    · intro o ho
      obtain ⟨h7, hst, htop⟩ := hb o ho
      rw [← har o ho, ← moveWindow_keeps a i o h7 hst htop]
      exact slewFollow_getR _ i (by rw [h7]; decide)
    · rw [← hs]
      have hk := slewFollow_keepsLinks (a.moveWindow i) i i
      have hw : ((a.moveWindow i).stnOf i).deadSeen = (a.stnOf i).deadSeen := congrArg Station.deadSeen (stnOf_congr (moveWindow_stn a i))
      exact (congrArg (fun x => x.2.2.2) hk).trans hw
  · exact ⟨har, hs⟩

/-- The state after a report that emitter `e` is dead, before Mend status follows. -/
def State.emitterDead (s : State) (i : Fin 6) (e : Nat) : State :=
  let a := (s.putF (F.EXL_APC_STATE i e) 2).updStn i fun t => { t with deadSeen := true }
  let r := if e < 32 then R.DEC_DEAD_LO i else R.DEC_DEAD_HI i
  a.putR r (a.getR r ||| ones (e % 32) 1)

theorem emitterDead_dead (s : State) (i : Fin 6) {e : Nat} (he : e < 36) : (s.emitterDead i e).dead i e = true := by
  unfold State.emitterDead State.dead
  extract_lets a r
  by_cases h : e < 32
  · rw [if_pos h]
    simp only [r, if_pos h, getR_putR_same, BitVec.getLsbD_or, getLsbD_ones _ _ _ h, Nat.mod_eq_of_lt h]
    simp
  · have h32 : e % 32 = e - 32 := by omega
    rw [if_neg h]
    simp only [r, if_neg h, getR_putR_same, BitVec.getLsbD_or, getLsbD_ones _ _ (e - 32) (by omega), h32]
    simp

theorem emitterDead_seen (s : State) (i : Fin 6) (e : Nat) : ((s.emitterDead i e).stnOf i).deadSeen = true := by
  unfold State.emitterDead
  extract_lets a r
  rw [putR_stnOf]
  simp only [a, stnOf_updStn_same]

theorem emitter_dead {e : BitVec 8} (he : e.toNat < 36) :
    Leads s (.emitter i e 2#8) fun t => t.dead i e.toNat = true ∧ (t.stnOf i).deadSeen = true := by
  obtain ⟨hr, hd⟩ := deadFollow_keeps (s.emitterDead i e.toNat) i
  refine ⟨_, congrArg Host.Outcome.next ((if_pos ⟨he, by decide⟩).trans (if_pos rfl)), ?_, ?_⟩
  · exact (dead_congr hr).trans (emitterDead_dead s i he)
  · exact hd.trans (emitterDead_seen s i _)

/-! ### Dark sweeps (R257) -/

theorem darkLine_getR (s : State) (i : Fin 6) (n : Int) (b : Nat) {o : Nat} (h : o ≠ R.EXL_LINES_DARK i) : (s.darkLine i n b).getR o = s.getR o := by
  unfold State.darkLine
  split
  · rfl
  · exact (updStn_getR ..).trans (getR_incR_ne _ _ h)

theorem darkLines_getR (l : List Nat) (s : State) (i : Fin 6) (n : Int) {o : Nat} (h : o ≠ R.EXL_LINES_DARK i) :
    (l.foldl (fun (a : State) b => a.darkLine i n b) s).getR o = s.getR o := by
  induction l generalizing s with
  | nil => rfl
  | cons b r ih => exact (ih (s.darkLine i n b)).trans (darkLine_getR s i n b h)

theorem darkDots_getR (s : State) (i : Fin 6) (r : Run) (n : Nat) {o : Nat} (hb : o / 65536 ∉ haltBlocks) (hlo : o ≠ R.EXL_DOTS_DARK_LO i)
    (hhi : o ≠ R.EXL_DOTS_DARK_LO i + 4) : (s.darkDots i r n).getR o = s.getR o := by
  unfold State.darkDots
  extract_lets a live b
  have ha : a.getR o = s.getR o := (getR_putR_ne _ _ hhi).trans (getR_putR_ne _ _ hlo)
  clear_value a
  have hbr : b.getR o = s.getR o := by
    simp only [b]
    split
    · exact ha
    · exact (journal_within a _ o hb).trans ha
  clear_value b
  split
  · exact (spoil_within b _ o hb).trans hbr
  · exact hbr

theorem event_late {q : BitVec 16} {beam sg : BitVec 8} {r : Run} {sw : Int} (h : (s.stnOf i).runOf q.toNat = some (r, sw)) :
    Leads s (.event i 3#8 q beam sg) fun t => t.getR (R.EXL_SWEEP_LATE i) = (s.incR (R.EXL_SWEEP_LATE i) 1).getR (R.EXL_SWEEP_LATE i) := by
  have hrun : ((s.incR (R.EXL_SWEEP_LATE i) 1).stnOf i).runOf q.toNat = some (r, sw) := h
  have he : exec (.event i 3#8 q beam sg) s = .next (
      let a := s.incR (R.EXL_SWEEP_LATE i) 1
      let lines := (List.range r.geom.beams).filter fun b => (r.geom.line r.lines sw b).isSome
      (lines.foldl (fun (x : State) b => x.darkLine i (r.seq0 + (sw - r.sFirst)) b) a).darkDots i r (lines.length * r.width)) := by
    change execEvent .. = _
    unfold execEvent
    rw [if_pos rfl]
    simp only [hrun]
    rw [if_pos trivial]
  refine ⟨_, he, ?_⟩
  extract_lets a lines
  refine (darkDots_getR _ i r _ ?_ ?_ ?_).trans (darkLines_getR lines a i _ ?_)
  · have hb : R.EXL_SWEEP_LATE i / 65536 = 9 := by
      simp only [R.EXL_SWEEP_LATE]
      omega
    rw [hb]
    decide
  · simp [R.EXL_SWEEP_LATE, R.EXL_DOTS_DARK_LO]
  · simp [R.EXL_SWEEP_LATE, R.EXL_DOTS_DARK_LO]
    omega
  · simp [R.EXL_SWEEP_LATE, R.EXL_LINES_DARK]

/-! ### Return blocks (R239) and alignment -/

theorem returnBlock_right {hdr : BitVec 2} {pay : BitVec 64} {b : Nat} (h : returnFault hdr pay = none) :
    Leads s (.returnBlockError i hdr pay b) fun t => t = s := by
  refine ⟨s, ?_, rfl⟩
  change execReturnBlockError .. = _
  simp only [execReturnBlockError, h]

theorem returnBlock_counted {hdr : BitVec 2} {pay : BitVec 64} {b : Nat} (h : returnFault hdr pay = some false) :
    Leads s (.returnBlockError i hdr pay b) fun t => t = s.incR (R.EXL_RX_SYNC_ERR i) 1 := by
  refine ⟨_, ?_, rfl⟩
  change execReturnBlockError .. = _
  simp only [execReturnBlockError, h, Bool.false_eq_true, false_and, if_false]

theorem returnBlock_down {hdr : BitVec 2} {pay : BitVec 64} {b : Nat} (h : returnFault hdr pay = some true)
    (h5 : s.getF (F.EXL_STATUS_STATE i) = 5) (hn : 15 ≤ ((s.stnOf i).syncErrs.filter fun x => Nat.blt b (x + 64)).length) :
    Leads s (.returnBlockError i hdr pay b) fun t => t.Arisen Ev.EXL_LINK_DOWN i ∧ t.getF (F.EXL_STATUS_STATE i) = 0 := by
  have h5' : (s.incR (R.EXL_RX_SYNC_ERR i) 1).getF (F.EXL_STATUS_STATE i) = 5 :=
    (getF_incR _ _ _ (by simp [F.EXL_STATUS_STATE, R.EXL_STATUS, R.EXL_RX_SYNC_ERR])).trans h5
  let l := b :: (s.stnOf i).syncErrs.filter fun x => Nat.blt b (x + 64)
  have hl : 16 ≤ l.length := Nat.succ_le_succ hn
  refine ⟨((s.incR (R.EXL_RX_SYNC_ERR i) 1).updStn i fun t => { t with syncErrs := l }).linkDown i 2, ?_, linkDown_idle ((updStn_getF ..).trans h5') 2⟩
  change execReturnBlockError .. = _
  unfold execReturnBlockError
  rw [h]
  exact congrArg Host.Outcome.next ((if_pos ⟨rfl, h5'⟩).trans (if_pos hl))

theorem alignMarker_counts (s : State) (i : Fin 6) :
    Leads s (.alignMarker i) fun t => (t.stnOf i).markers = (s.stnOf i).markers + 1#32 ∧ t.regs = s.regs := by
  refine ⟨_, rfl, ?_, rfl⟩
  rw [stnOf_updStn_same]

/-! ### Retraining (R251) and LEN (R258) -/

theorem lenFollow_stn (s : State) (i : Fin 6) : (s.lenFollow i).stn = s.stn := by
  obtain ⟨⟨r, b, h⟩, -⟩ := lenFollow_frame s i
  rw [h]

/-- EXL_CTRL as a retrain command leaves its LEN_EN. -/
def State.lenEn (s : State) (i : Fin 6) (w : Word) : State := (s.putB (F.EXL_CTRL_LEN_EN i) (w.getLsbD 0)).lenFollow i

theorem lenEn_getR (s : State) (i : Fin 6) (w : Word) {o : Nat} (h : o ≠ R.EXL_STATUS i) (hc : o ≠ R.EXL_CTRL i) : (s.lenEn i w).getR o = s.getR o :=
  ((lenFollow_frame _ i).2 o h).trans (getR_putF_ne _ _ _ _ hc)

theorem lenEn_stn (s : State) (i : Fin 6) (w : Word) : (s.lenEn i w).stn = s.stn := lenFollow_stn _ i

theorem lenEn_state (s : State) (i : Fin 6) (w : Word) : (s.lenEn i w).getF (F.EXL_STATUS_STATE i) = s.getF (F.EXL_STATUS_STATE i) := by
  unfold State.lenEn
  rw [getF_lenFollow _ _ _ (by simp [F.EXL_STATUS_STATE]) (by simp [F.EXL_STATUS_STATE])]
  exact getF_putF_off _ _ _ _ (by simp [F.EXL_STATUS_STATE, F.EXL_CTRL_LEN_EN, R.EXL_STATUS, R.EXL_CTRL])

/-- A retrain is asked for: EXL_STATUS and EXL_CTRL show it. -/
def State.retrainAsked (s : State) (i : Fin 6) (w : Word) : State :=
  ((s.lenEn i w).putB (F.EXL_STATUS_RETRAIN_PENDING i) true).putB (F.EXL_CTRL_RETRAIN i) true

theorem retrainAsked_idle (s : State) (i : Fin 6) (w : Word) : (s.retrainAsked i w).stnIdle i = s.stnIdle i := by
  have h : (s.retrainAsked i w).getF (F.DEC_STATUS_STATE i) = s.getF (F.DEC_STATUS_STATE i) := by
    unfold State.retrainAsked
    rw [State.putB, getF_putF_off _ _ _ _ (by simp [F.DEC_STATUS_STATE, F.EXL_CTRL_RETRAIN, R.DEC_STATUS, R.EXL_CTRL]; omega),
      State.putB, getF_putF_off _ _ _ _ (by simp [F.DEC_STATUS_STATE, F.EXL_STATUS_RETRAIN_PENDING, R.DEC_STATUS, R.EXL_STATUS]; omega)]
    refine getF_congr (lenEn_getR s i w ?_ ?_) <;> simp [F.DEC_STATUS_STATE, R.DEC_STATUS, R.EXL_STATUS, R.EXL_CTRL] <;> omega
  unfold State.stnIdle
  rw [h]

theorem exec_retrain (s : State) (p : Port) (i : Fin 6) (w : Word) : exec (.retrain p i w) s =
    .next (if (s.retrainAsked i w).stnIdle i then (s.retrainAsked i w).retrain i else s.retrainAsked i w) := rfl

theorem retrain_atOnce (p : Port) (w : Word) (h : s.stnIdle i = true) : Leads s (.retrain p i w) fun t =>
    t.getF (F.EXL_STATUS_STATE i) = 0 ∧ t.flag (F.EXL_STATUS_RETRAIN_PENDING i) = false ∧ (t.stnOf i).nextAttempt = 1 := by
  obtain ⟨hst, hp, hn⟩ := retrain_idle (s.retrainAsked i w) i
  refine ⟨(s.retrainAsked i w).retrain i, ?_, hst, hp, congrArg Prod.fst hn⟩
  rw [exec_retrain, if_pos ((retrainAsked_idle s i w).trans h)]

theorem retrain_waits (p : Port) (w : Word) (h : s.stnIdle i = false) : Leads s (.retrain p i w) fun t =>
    t.getF (F.EXL_STATUS_STATE i) = s.getF (F.EXL_STATUS_STATE i) ∧ t.flag (F.EXL_STATUS_RETRAIN_PENDING i) = true ∧ t.stn = s.stn := by
  refine ⟨s.retrainAsked i w, ?_, ?_, ?_, lenEn_stn s i w⟩
  · rw [exec_retrain, retrainAsked_idle, h, if_neg Bool.false_ne_true]
  · unfold State.retrainAsked
    rw [State.putB, getF_putF_off _ _ _ _ (by simp [F.EXL_STATUS_STATE, F.EXL_CTRL_RETRAIN, R.EXL_STATUS, R.EXL_CTRL]), State.putB,
      getF_putF_apart _ (by simp [Fld.Apart, F.EXL_STATUS_STATE, F.EXL_STATUS_RETRAIN_PENDING])]
    exact lenEn_state s i w
  · unfold State.retrainAsked
    rw [State.putB, flag_putF_apart _ (by simp [Fld.Apart, F.EXL_STATUS_RETRAIN_PENDING, F.EXL_CTRL_RETRAIN, R.EXL_STATUS, R.EXL_CTRL])]
    exact flag_putB_same _ _ _ (by simp [F.EXL_STATUS_RETRAIN_PENDING]) (by simp [F.EXL_STATUS_RETRAIN_PENDING])

theorem retrainForce_restarts (s : State) (p : Port) (i : Fin 6) (w : Word) : Leads s (.retrainForce p i w) fun t =>
    t.getF (F.EXL_STATUS_STATE i) = 0 ∧ (t.stnOf i).nextAttempt = 1 := by
  obtain ⟨hst, -, hn⟩ := retrain_idle (s.lenEn i w) i
  exact ⟨_, rfl, hst, congrArg Prod.fst hn⟩

/-- LEN is not requested while the states of LEN differ. -/
theorem lenFollow_mismatch (h : s.flag (F.EXL_STATUS_LEN_MISMATCH i) = true) : (s.lenFollow i).flag (F.EXL_STATUS_LEN_REQ i) = false := by
  unfold State.lenFollow
  rw [h, Bool.not_true, Bool.and_false]
  extract_lets a
  have ha : a.flag (F.EXL_STATUS_LEN_REQ i) = false := flag_putB_same _ _ _ (by simp [F.EXL_STATUS_LEN_REQ]) (by simp [F.EXL_STATUS_LEN_REQ])
  split
  · exact ha
  · exact ha

theorem lenMismatch_set (h3 : 3 ≤ (s.stnOf i).lenDiff) (hm : s.flag (F.EXL_STATUS_LEN_MISMATCH i) = false) :
    Leads s (.lenMismatch i) fun t => t.flag (F.EXL_STATUS_LEN_MISMATCH i) = true ∧ t.Arisen Ev.EXL_LEN_MISMATCH i
      ∧ t.flag (F.EXL_STATUS_LEN_REQ i) = false := by
  refine ⟨_, congrArg Host.Outcome.next (if_pos ⟨h3, by simp [hm]⟩), ?_⟩
  extract_lets a
  have ha : a.flag (F.EXL_STATUS_LEN_MISMATCH i) = true ∧ a.Arisen Ev.EXL_LEN_MISMATCH i ∧ a.flag (F.EXL_STATUS_LEN_REQ i) = false := by
    have hset : (s.putF (F.EXL_STATUS_LEN_MISMATCH i) 1).flag (F.EXL_STATUS_LEN_MISMATCH i) = true := by
      rw [flag_putF_same _ _ _ (by simp [F.EXL_STATUS_LEN_MISMATCH])]
      rfl
    refine ⟨?_, arisen_raise .., lenFollow_mismatch hset⟩
    exact (flag_eq_of_getF (getF_lenFollow _ _ _ (by simp [F.EXL_STATUS_LEN_MISMATCH]) (by simp [F.EXL_STATUS_LEN_MISMATCH]))).trans hset
  clear_value a
  obtain ⟨hf, he, hr⟩ := ha
  exact ⟨((inhibit_within a i).flag _ (exlStatus_notStop i _ rfl)).trans hf, (inhibit_stops a i).arisen he,
    ((inhibit_within a i).flag _ (exlStatus_notStop i _ rfl)).trans hr⟩

theorem lenMismatchClear_clears (p : Port) (h : s.getF (F.EXL_STATUS_LEN_SEEN i) = s.getF (F.EXL_STATUS_LEN_OUT i))
    (hs : s.startR (R.EXL_STATUS i) = s.getR (R.EXL_STATUS i)) :
    Leads s (.lenMismatchClear p i) fun t => t.flag (F.EXL_STATUS_LEN_MISMATCH i) = false := by
  refine ⟨_, congrArg Host.Outcome.next (if_pos h), ?_⟩
  beta_reduce
  rw [flag_eq_of_getF (getF_lenFollow _ _ _ (by simp [F.EXL_STATUS_LEN_MISMATCH]) (by simp [F.EXL_STATUS_LEN_MISMATCH]))]
  exact flag_clearF_same _ _ (by simp [F.EXL_STATUS_LEN_MISMATCH]) hs

theorem lenMismatchClear_stays (p : Port) (h : s.getF (F.EXL_STATUS_LEN_SEEN i) ≠ s.getF (F.EXL_STATUS_LEN_OUT i)) :
    Leads s (.lenMismatchClear p i) fun t => t = s :=
  ⟨_, congrArg Host.Outcome.next (if_neg h), rfl⟩

/-- Settles O46: each command is one case of its definition; a link that goes down is a retrain after its event. -/
theorem exposureHeadsReport : Obligations.ExposureHeadsReport := by
  intro s i
  exact ⟨fun _ _ _ => status_active, fun _ _ _ => status_laneLost, fun _ _ _ _ => status_crcRate, statusTimeout_down, fun _ pw => apc_taken pw,
    fun _ => emitter_dead, fun _ => emitter_degraded, fun _ _ _ _ _ => event_late, fun _ _ _ => returnBlock_right,
    fun _ _ _ => returnBlock_counted, fun _ _ _ => returnBlock_down, alignMarker_counts s i, retrain_atOnce, retrain_waits,
    fun p w => retrainForce_restarts s p i w, lenMismatch_set, lenMismatchClear_clears, lenMismatchClear_stays⟩

end Sys2Proof.Machine

end

/-! ## Issuing events and the passing of cycles (R2, R415 to R421) -/

section

namespace Sys2Proof.Machine

variable {s : State}

/-! ### Events are issued -/

/-- From `s` to `t` events have been issued: only registers of the EVT block, their lost counts and the store of events have changed. -/
def State.Issues (s t : State) : Prop := (∃ r e l, t = { s with regs := r, ev := e, lost := l }) ∧ State.Within [0x15] s t

theorem State.Issues.refl (s : State) : s.Issues s := ⟨⟨_, _, _, rfl⟩, .refl _ s⟩

theorem State.Issues.trans {a t : State} (h : s.Issues a) (h' : a.Issues t) : s.Issues t := by
  obtain ⟨⟨r, e, l, rfl⟩, hr⟩ := h
  obtain ⟨⟨r', e', l', rfl⟩, hr'⟩ := h'
  exact ⟨⟨r', e', l', rfl⟩, hr.trans hr'⟩

theorem State.Issues.foldl {α : Type} (l : List α) {f : State → α → State} (hf : ∀ b x, State.Issues b (f b x)) (s : State) :
    s.Issues (l.foldl f s) := by
  induction l generalizing s with
  | nil => exact .refl s
  | cons x r ih => exact (hf s x).trans (ih (f s x))

theorem State.Issues.of_ev (s : State) (e : EvStore) : s.Issues { s with ev := e } := ⟨⟨_, _, _, rfl⟩, fun _ _ => rfl⟩

theorem putF_issues (s : State) (f : Fld) (v : Nat) (h : f.off / 65536 = 0x15) : s.Issues (s.putF f v) :=
  ⟨⟨_, _, _, rfl⟩, (State.Within.refl _ s).putF v (by simp [h])⟩

theorem takeSerial_issues (s : State) : s.Issues s.takeSerial :=
  ⟨⟨_, _, _, rfl⟩, (State.Within.refl _ s).putP _ (by decide) (by decide)⟩

theorem drop_issues (s : State) (c : EvClass) (n : Nat) : s.Issues (s.drop c n) := by
  have hlo : R.EVT_DROP_LO c.code / 65536 ∈ [0x15] := by cases c <;> decide
  have hhi : (R.EVT_DROP_LO c.code + 4) / 65536 ∈ [0x15] := by cases c <;> decide
  unfold State.drop
  extract_lets a fd
  exact State.Issues.trans (a := a) ⟨⟨_, _, _, rfl⟩, (State.Within.refl _ s).putP _ hlo hhi⟩ (.of_ev _ _)

theorem evCounts_issues (s : State) : s.Issues s.evCounts :=
  ((putF_issues s _ _ (by decide)).trans (putF_issues _ _ _ (by decide))).trans (putF_issues _ _ _ (by decide))

theorem issueMarker_issues (s : State) (e : Event) : s.Issues (s.issueMarker e) := by
  unfold State.issueMarker
  split
  · exact (takeSerial_issues s).trans (.of_ev _ _)
  · exact .of_ev _ _

theorem stopTrace_issues (s : State) : s.Issues s.stopTrace := by
  unfold State.stopTrace
  split
  · exact State.Issues.trans (putF_issues s _ _ (by decide)) (.of_ev _ _)
  · exact .refl s

theorem placeGeneral_issues (s : State) (e : Event) : s.Issues (s.placeGeneral e) := by
  unfold State.placeGeneral
  extract_lets put ev n b
  have hput : ∀ a, State.Issues a (put a) := fun a => (takeSerial_issues a).trans (.of_ev _ _)
  clear_value put
  split
  · exact hput s
  · split
    · exact ((State.Issues.of_ev s _).trans (drop_issues _ _ _)).trans (hput _)
    · split
      · exact (((State.Issues.of_ev s _).trans (drop_issues _ _ _)).trans (stopTrace_issues _)).trans (hput _)
      · have hb : s.Issues b := (takeSerial_issues s).trans (drop_issues _ _ _)
        clear_value b
        split
        · exact hb.trans (stopTrace_issues b)
        · exact hb

theorem issue_issues (s : State) (e : Event) : s.Issues (s.issue e) := by
  have hinc : ∀ (a : State) n, a.Issues (a.incR R.EVT_COAL n) := fun a n =>
    ⟨⟨_, _, _, rfl⟩, (State.Within.refl _ a).incR n (by decide)⟩
  unfold State.issue
  refine State.Issues.trans ?_ (evCounts_issues _)
  split
  · exact .refl s
  · split
    · split
      · exact (State.Issues.of_ev s _).trans (hinc _ 1)
      · split
        · exact (State.Issues.of_ev s _).trans (hinc _ 1)
        · split
          · exact ((takeSerial_issues s).trans (.of_ev _ _)).trans (.of_ev _ _)
          · exact (placeGeneral_issues s e).trans (.of_ev _ _)
    · split
      · exact issueMarker_issues s e
      · exact placeGeneral_issues s e

theorem issueNext_issues (s : State) : s.Issues s.issueNext := by
  unfold State.issueNext
  split
  · exact (State.Issues.of_ev s _).trans (issue_issues _ _)
  · exact .refl s

theorem issueOne_issues (s : State) : s.Issues s.issueOne := by
  unfold State.issueOne
  split
  · exact .refl s
  · split
    · split
      · exact ((State.Issues.of_ev s _).trans (issueMarker_issues _ _)).trans (evCounts_issues _)
      · exact issueNext_issues s
    · exact issueNext_issues s

/-- The events that wait are issued: nothing outside the EVT block and the store of events changes. -/
theorem issueAll_issues (s : State) : s.Issues s.issueAll := .foldl _ (fun b _ => issueOne_issues b) s

/-! ### Cycles pass -/

/-- From `s` to `t` cycles pass: the words a cycle began with and the lost counts start again; at cycle 300 the references of the speed
loops are kept and the ledger may freeze. -/
theorem setTsc_frame (s : State) (n : BitVec 64) : (∃ r j b st l, s.setTsc n = { s with regs := r, jr := j, tsc := n, start := st, lost := l, brg := b }
    ∧ b.fbkAt = s.brg.fbkAt) ∧ State.Within [0x13] s (s.setTsc n) := by
  unfold State.setTsc
  split
  · rename_i h
    subst h
    exact ⟨⟨_, _, _, _, _, rfl, rfl⟩, .refl _ s⟩
  · extract_lets a
    have ha : (∃ r j b, a = { s with regs := r, jr := j, brg := b } ∧ b.fbkAt = s.brg.fbkAt) ∧ State.Within [0x13] s a := by
      simp only [a]
      split
      · have hk : ∃ b, s.keepRefs = { s with brg := b } ∧ b.fbkAt = s.brg.fbkAt := by
          unfold State.keepRefs
          split <;> exact ⟨_, rfl, rfl⟩
        obtain ⟨b, hk, hb⟩ := hk
        rw [hk]
        unfold State.acFreeze
        split
        · exact ⟨⟨_, _, _, rfl, hb⟩, State.Within.putF (fun _ _ => rfl) _ (by decide)⟩
        · exact ⟨⟨_, _, _, rfl, hb⟩, fun _ _ => rfl⟩
      · exact ⟨⟨_, _, _, rfl, rfl⟩, .refl _ s⟩
    clear_value a
    obtain ⟨⟨r, j, b, rfl, hb⟩, hr⟩ := ha
    exact ⟨⟨_, _, _, _, _, rfl, hb⟩, hr⟩

/-- The state at a later cycle `n`, the events that wait issued. -/
theorem issueAll_setTsc_frame (s : State) (n : BitVec 64) : (∃ r e j b st l,
    s.issueAll.setTsc n = { s with regs := r, ev := e, jr := j, tsc := n, start := st, lost := l, brg := b } ∧ b.fbkAt = s.brg.fbkAt)
    ∧ State.Within [0x13, 0x15] s (s.issueAll.setTsc n) := by
  obtain ⟨⟨r, e, l, hi⟩, hir⟩ := issueAll_issues s
  obtain ⟨⟨r', j, b, st, l', ht, hb⟩, htr⟩ := setTsc_frame s.issueAll n
  refine ⟨⟨r', e, j, b, st, l', ?_, ?_⟩, (hir.mono (by decide)).trans (htr.mono (by decide))⟩
  · rw [ht, hi]
  · rw [hb, hi]

end Sys2Proof.Machine

end

/-! ## Line and dot clocks (R216 to R223, R225 to R228, R232) -/

section

namespace Sys2Proof.Machine

variable {s : State} {i : Fin 6}

/-! ### What a station's stop leaves of the clocks -/

/-- A field that no stop of a page changes: no SLEWING flag of EXP_STATUS, and in no block of the Racking engine, the Decanters and the
ledger. -/
def Fld.NoStop (f : Fld) : Prop := f.off / 65536 ∉ haltBlocks ∧ ∀ j : Fin 6, (F.EXP_STATUS_SLEWING j).Apart f

theorem slewStart_getF {f : Fld} (h : f.NoStop) (s : State) (j : Fin 6) : (s.slewStart j).getF f = s.getF f := by
  unfold State.slewStart
  extract_lets busy
  split
  · exact (updStn_getF ..).trans (getF_putF_apart _ (h.2 j))
  · rfl

theorem inhibit_getF {f : Fld} (h : f.NoStop) (s : State) (i : Fin 6) : (s.inhibit i).getF f = s.getF f := by
  have hfold : ∀ (l : List (Fin 6)) (a : State), (l.foldl State.slewStart a).getF f = a.getF f := fun l => by
    induction l with
    | nil => exact fun _ => rfl
    | cons j r ih => exact fun a => (ih (a.slewStart j)).trans (slewStart_getF h a j)
  obtain he | ⟨a, ha, he⟩ := inhibit_eq s i
  · rw [he]
  · rw [he]
    exact (hfold _ a).trans (ha.getF f h.1)

theorem gateFollow_getF {f : Fld} (h : f.NoStop) (s : State) : s.gateFollow.getF f = s.getF f := by
  have hfold : ∀ (l : List (Fin 6)) (a : State),
      (l.foldl (fun (a : State) i => if a.gatedNow i then a.inhibit i else a) a).getF f = a.getF f := fun l => by
    induction l with
    | nil => exact fun _ => rfl
    | cons j r ih =>
      refine fun a => (ih _).trans ?_
      beta_reduce
      split
      · exact inhibit_getF h a j
      · rfl
  exact hfold _ s

/-- A whole register as a field. -/
def Fld.word (o : Nat) : Fld := ⟨o, 0, 32⟩

theorem getF_word (s : State) (o : Nat) : s.getF (.word o) = (s.getR o).toNat := by
  simp only [State.getF, Fld.word, bits, pow_zero, Nat.div_one]
  exact Nat.mod_eq_of_lt (s.getR o).isLt

theorem getR_of_getF_word {t : State} {o : Nat} (h : t.getF (.word o) = s.getF (.word o)) : t.getR o = s.getR o := by
  rw [getF_word, getF_word] at h
  exact BitVec.eq_of_toNat_eq h

/-- A register of the exposure clocks that a stop of a page leaves. -/
theorem noStop_word {o : Nat} (h8 : o / 65536 = 8) (h : ∀ j : Fin 6, o ≠ R.EXP_STATUS j) : (Fld.word o).NoStop :=
  ⟨by simp only [Fld.word, h8]; decide, fun j => Or.inl (h j)⟩

/-- A field of such a register, or one of EXP_STATUS beside SLEWING. -/
theorem noStop_of_off {f : Fld} (h8 : f.off / 65536 = 8) (h : ∀ j : Fin 6, f.off ≠ R.EXP_STATUS j) : f.NoStop :=
  ⟨by rw [h8]; decide, fun j => Or.inl (h j)⟩

theorem noStop_status {f : Fld} (i : Fin 6) (hoff : f.off = R.EXP_STATUS i) (hw : f.lo + f.w ≤ 32) (h : f.lo + f.w ≤ 3 ∨ 4 ≤ f.lo) : f.NoStop := by
  refine ⟨?_, fun j => Or.inr ⟨hw, h⟩⟩
  have h8 : R.EXP_STATUS i / 65536 = 8 := by
    simp only [R.EXP_STATUS]
    omega
  rw [hoff, h8]
  decide

/-! ### The line clock (R216, R217) -/

/-- One line clock shows the signal fault of its sine/cosine channel. -/
def State.lineFaultOf (s : State) (i : Fin 6) : State := s.putB (F.EXP_STATUS_LINE_FAULT i) (s.flag (F.FBK_STATUS_SIG_FAULT (s.scOf i)))

theorem lineFaults_eq (s : State) : s.lineFaults = (List.finRange 6).foldl State.lineFaultOf s := rfl

theorem lineFaultOf_fold (l : List (Fin 6)) (a : State) : (∃ r, l.foldl State.lineFaultOf a = { a with regs := r })
    ∧ (∀ o, (∀ j : Fin 6, o ≠ R.EXP_STATUS j) → (l.foldl State.lineFaultOf a).getR o = a.getR o)
    ∧ ∀ i : Fin 6, (l.foldl State.lineFaultOf a).flag (F.EXP_STATUS_LINE_FAULT i) =
      if i ∈ l then a.flag (F.FBK_STATUS_SIG_FAULT (a.scOf i)) else a.flag (F.EXP_STATUS_LINE_FAULT i) := by
  induction l generalizing a with
  | nil => exact ⟨⟨_, rfl⟩, fun _ _ => rfl, fun _ => rfl⟩
  | cons j r ih =>
    let b := a.lineFaultOf j
    obtain ⟨⟨r', hs⟩, hr, hf⟩ := ih b
    have hb : ∀ o, (∀ j : Fin 6, o ≠ R.EXP_STATUS j) → b.getR o = a.getR o := fun o ho => getR_putF_ne _ _ _ _ (ho j)
    have hsc : ∀ k : Fin 6, b.scOf k = a.scOf k := fun k => by
      have hk : b.getF (F.EXP_LCFG_SC k) = a.getF (F.EXP_LCFG_SC k) := getF_congr (hb _ fun j => by
        simp only [F.EXP_LCFG_SC, R.EXP_LCFG, R.EXP_STATUS]
        omega)
      rw [State.scOf, hk, State.scOf]
    have hsig : ∀ k : Fin 18, b.flag (F.FBK_STATUS_SIG_FAULT k) = a.flag (F.FBK_STATUS_SIG_FAULT k) := fun k =>
      flag_congr (hb _ fun j => by
        simp only [F.FBK_STATUS_SIG_FAULT, R.FBK_STATUS, R.EXP_STATUS]
        omega)
    refine ⟨⟨r', hs⟩, fun o ho => (hr o ho).trans (hb o ho), fun i => (hf i).trans ?_⟩
    rw [hsc, hsig]
    by_cases hi : i = j
    · subst hi
      have hown : b.flag (F.EXP_STATUS_LINE_FAULT i) = a.flag (F.FBK_STATUS_SIG_FAULT (a.scOf i)) :=
        flag_putB_same _ _ _ (by simp [F.EXP_STATUS_LINE_FAULT]) (by simp [F.EXP_STATUS_LINE_FAULT])
      rw [hown, if_pos (List.mem_cons_self ..), ite_self]
    · have hother : b.flag (F.EXP_STATUS_LINE_FAULT i) = a.flag (F.EXP_STATUS_LINE_FAULT i) := by
        refine flag_putF_apart _ (Or.inl ?_)
        have : (i : Nat) ≠ j := fun h => hi (Fin.ext h)
        simp only [F.EXP_STATUS_LINE_FAULT, R.EXP_STATUS]
        omega
      rw [hother]
      simp [hi]

/-- Every line clock shows the signal fault of its sine/cosine channel. -/
theorem lineFaults_frame (s : State) : (∃ r, s.lineFaults = { s with regs := r })
    ∧ (∀ o, (∀ j : Fin 6, o ≠ R.EXP_STATUS j) → s.lineFaults.getR o = s.getR o)
    ∧ ∀ i : Fin 6, s.lineFaults.flag (F.EXP_STATUS_LINE_FAULT i) = s.flag (F.FBK_STATUS_SIG_FAULT (s.scOf i)) := by
  obtain ⟨hs, hr, hf⟩ := lineFaultOf_fold (List.finRange 6) s
  rw [lineFaults_eq]
  exact ⟨hs, hr, fun i => (hf i).trans (if_pos (List.mem_finRange i))⟩

theorem bandc_frame (s : State) (i : Fin 6) (n : Nat) : (∃ r e, s.bandc i n = { s with regs := r, ev := e })
    ∧ (∀ o, o ≠ R.EXP_STATUS i → (s.bandc i n).getR o = s.getR o)
    ∧ (s.bandc i n).flag (F.EXP_STATUS_LINE_FAULT i) = s.flag (F.EXP_STATUS_LINE_FAULT i) := by
  unfold State.bandc
  extract_lets learned stale a
  have ha : (∃ r e, a = { s with regs := r, ev := e }) ∧ (∀ o, o ≠ R.EXP_STATUS i → a.getR o = s.getR o)
      ∧ a.flag (F.EXP_STATUS_LINE_FAULT i) = s.flag (F.EXP_STATUS_LINE_FAULT i) :=
    ⟨⟨_, _, rfl⟩, fun o ho => getR_putF_ne _ _ _ _ ho,
      flag_putF_apart _ (by simp [Fld.Apart, F.EXP_STATUS_LINE_FAULT, F.EXP_STATUS_BANDC_STALE])⟩
  clear_value a
  obtain ⟨⟨r, e, rfl⟩, hr, hf⟩ := ha
  split
  · exact ⟨⟨_, _, rfl⟩, fun o ho => (State.raise_getR ..).trans (hr o ho), (State.raise_flag ..).trans hf⟩
  · exact ⟨⟨_, _, rfl⟩, hr, hf⟩

/-- The state in which the line clock of station `i` takes its sample: cycle 600, the rate and the signal faults shown. -/
def State.linePrep (s : State) (i : Fin 6) : State :=
  let s := s.issueAll.setTsc (s.tsc + BitVec.ofNat 64 (600 - s.cycle))
  let s := s.updStn i fun t => { t with line := { t.line with upAt := some s.tick } }
  let rate := s.exposedRate i (s.stnOf i).line.freq
  let s := (s.putF (F.EXP_LRATE i) (min rate 131071)).putB (F.EXP_STATUS_LOW_RATE i) (Nat.blt rate (s.getF (F.EXP_LINE_MIN i)))
  s.lineFaults.bandc i rate

theorem linePrep_frame (s : State) (i : Fin 6) : (s.linePrep i).tsc = s.tsc + BitVec.ofNat 64 (600 - s.cycle)
    ∧ (s.linePrep i).brg.fbkAt = s.brg.fbkAt
    ∧ ((s.linePrep i).stnOf i).line = { (s.stnOf i).line with upAt := some ((s.tsc + BitVec.ofNat 64 (600 - s.cycle)).toNat / 4000) }
    ∧ (∀ o, o / 65536 ∉ [0x13, 0x15] → o ≠ R.EXP_LRATE i → (∀ j : Fin 6, o ≠ R.EXP_STATUS j) → (s.linePrep i).getR o = s.getR o)
    ∧ (s.linePrep i).flag (F.EXP_STATUS_LINE_FAULT i) = s.flag (F.FBK_STATUS_SIG_FAULT (s.scOf i)) := by
  unfold State.linePrep
  extract_lets a b rate c
  obtain ⟨⟨r, e, j, g, st, l, ha, hg⟩, har⟩ := issueAll_setTsc_frame s (s.tsc + BitVec.ofNat 64 (600 - s.cycle))
  have hat : a.tsc = s.tsc + BitVec.ofNat 64 (600 - s.cycle) := congrArg State.tsc ha
  have hab : a.brg.fbkAt = s.brg.fbkAt := (congrArg (fun x => x.brg.fbkAt) ha).trans hg
  have hast : a.stn = s.stn := by simp only [a, ha]
  have has : a.stnOf i = s.stnOf i := stnOf_congr hast
  have har' : ∀ o, o / 65536 ∉ [0x13, 0x15] → a.getR o = s.getR o := har
  clear_value a
  have hbl : (b.stnOf i).line = { (a.stnOf i).line with upAt := some a.tick } := by
    simp only [b, stnOf_updStn_same]
  have hbr : ∀ o, b.getR o = a.getR o := fun o => updStn_getR ..
  have hbt : b.tsc = a.tsc ∧ b.brg = a.brg := ⟨rfl, rfl⟩
  clear_value b
  have hcr : ∀ o, o ≠ R.EXP_LRATE i → (∀ j : Fin 6, o ≠ R.EXP_STATUS j) → c.getR o = b.getR o := fun o ho hs =>
    (getR_putF_ne _ _ _ _ (hs i)).trans (getR_putF_ne _ _ _ _ ho)
  have hcs : c.stn = b.stn ∧ c.tsc = b.tsc ∧ c.brg = b.brg := ⟨rfl, rfl, rfl⟩
  clear_value c
  obtain ⟨⟨r1, h1⟩, hr1, hf1⟩ := lineFaults_frame c
  obtain ⟨⟨r2, e2, h2⟩, hr2, hf2⟩ := bandc_frame c.lineFaults i rate
  have hall : ∀ o, o / 65536 ∉ [0x13, 0x15] → o ≠ R.EXP_LRATE i → (∀ j : Fin 6, o ≠ R.EXP_STATUS j) → c.getR o = s.getR o := fun o ho hl hs =>
    (hcr o hl hs).trans ((hbr o).trans (har' o ho))
  have hd : (c.lineFaults.bandc i rate).tsc = c.tsc ∧ (c.lineFaults.bandc i rate).brg = c.brg
      ∧ (c.lineFaults.bandc i rate).stn = c.stn := by
    rw [h2, h1]
    exact ⟨rfl, rfl, rfl⟩
  obtain ⟨ht, hbg, hst⟩ := hd
  refine ⟨?_, ?_, ?_, ?_, ?_⟩
  · rw [ht, hcs.2.1, hbt.1, hat]
  · rw [hbg, hcs.2.2, hbt.2, hab]
  · rw [stnOf_congr hst, stnOf_congr hcs.1, hbl, has, State.tick, hat]
  · exact fun o ho hl hs => (hr2 o (hs i)).trans ((hr1 o hs).trans (hall o ho hl hs))
  · have hsc : c.scOf i = s.scOf i := by
      have hk : c.getF (F.EXP_LCFG_SC i) = s.getF (F.EXP_LCFG_SC i) := by
        refine getF_congr (hall _ ?_ ?_ fun j => ?_) <;> simp only [F.EXP_LCFG_SC, R.EXP_LCFG, R.EXP_STATUS, R.EXP_LRATE, List.mem_cons, List.not_mem_nil, or_false] <;> omega
      rw [State.scOf, hk, State.scOf]
    rw [hf2, hf1, hsc]
    refine flag_congr (hall _ ?_ ?_ fun j => ?_) <;>
      simp only [F.FBK_STATUS_SIG_FAULT, R.FBK_STATUS, R.EXP_STATUS, R.EXP_LRATE, List.mem_cons, List.not_mem_nil, or_false] <;> omega

/-- The new line clock, and whether it is clamped. -/
def State.lineNext (s : State) (i : Fin 6) : LineClk × Bool :=
  ((s.stnOf i).line.sample s.brg.fbkAt[s.scOf i].pos (s.getR (R.EXP_LPITCH i)).toNat (s.scOf i).val).update
    s.tsc.toNat (s.getF (F.EXP_LCFG_BW i)) (s.lineTop i)

/-- The line clock `u` is taken up. -/
def State.lineTake (s : State) (i : Fin 6) (u : LineClk × Bool) : State :=
  let s := s.updStn i fun t => { t with line := u.1 }
  ((s.putR (R.EXP_TRACK_ERR i) (BitVec.ofInt 32 (Int.fdiv u.1.lag 0x10000))).putB (F.EXP_STATUS_CLAMPED i) u.2).gateFollow

theorem exec_lineClockUpdate (h : ¬ (600 < s.cycle ∨ (s.stnOf i).line.upAt = some s.tick)) : exec (.lineClockUpdate i) s = .next (
    if (s.linePrep i).flag (F.EXP_STATUS_LINE_FAULT i) then (s.linePrep i).gateFollow
    else (s.linePrep i).lineTake i ((s.linePrep i).lineNext i)) :=
  congrArg Host.Outcome.next (if_neg h)

end Sys2Proof.Machine

end

/-! ## Line and dot clocks: their commands (R216 to R223, R225 to R228, R232) -/

section

namespace Sys2Proof.Machine

variable {s : State} {i : Fin 6}

/-! ### The line clock -/

/-- The time of cycle 600 of a tick. -/
theorem tsc_at_600 (h : s.cycle ≤ 600) : (s.tsc + BitVec.ofNat 64 (600 - s.cycle)).toNat = s.tick * 4000 + 600 := by
  have hlt := s.tsc.isLt
  simp only [State.cycle, State.tick, BitVec.toNat_add, BitVec.toNat_ofNat] at h ⊢
  omega

/-- The registers that the line clock reads for its update. -/
theorem linePrep_inputs (s : State) (i : Fin 6) : (s.linePrep i).scOf i = s.scOf i
    ∧ (s.linePrep i).getR (R.EXP_LPITCH i) = s.getR (R.EXP_LPITCH i)
    ∧ (s.linePrep i).getF (F.EXP_LCFG_BW i) = s.getF (F.EXP_LCFG_BW i) ∧ (s.linePrep i).lineTop i = s.lineTop i
    ∧ (s.linePrep i).getR (R.EXP_TRACK_ERR i) = s.getR (R.EXP_TRACK_ERR i) := by
  obtain ⟨-, -, -, hr, -⟩ := linePrep_frame s i
  have hexp : ∀ k, 0x80000 ≤ k → k < 0x80100 → k ≠ 0x80004 → k ≠ 0x8001C → (s.linePrep i).getR (k + 0x100 * i) = s.getR (k + 0x100 * i) :=
    fun k h0 h1 h4 hc => by
      refine hr _ ?_ ?_ fun j => ?_
      · simp only [List.mem_cons, List.not_mem_nil, or_false]
        omega
      · simp only [R.EXP_LRATE]
        omega
      · simp only [R.EXP_STATUS]
        omega
  have hcfg : (s.linePrep i).getR (R.EXP_LCFG i) = s.getR (R.EXP_LCFG i) := hexp 0x80000 (by decide) (by decide) (by decide) (by decide)
  have hmax : (s.linePrep i).getR (R.EXP_LINE_MAX i) = s.getR (R.EXP_LINE_MAX i) := hexp 0x8000C (by decide) (by decide) (by decide) (by decide)
  have hgeom : (s.linePrep i).getR (R.DEC_GEOM i) = s.getR (R.DEC_GEOM i) := by
    refine hr _ ?_ ?_ fun j => ?_ <;> simp only [R.DEC_GEOM, R.EXP_LRATE, R.EXP_STATUS, List.mem_cons, List.not_mem_nil, or_false] <;> omega
  refine ⟨?_, hexp 0x80008 (by decide) (by decide) (by decide) (by decide), getF_congr hcfg, ?_,
    hexp 0x80020 (by decide) (by decide) (by decide) (by decide)⟩
  · rw [State.scOf, getF_congr (f := F.EXP_LCFG_SC i) hcfg, State.scOf]
  · rw [State.lineTop, State.passesOf, getF_congr (f := F.EXP_LINE_MAX i) hmax, flag_congr (f := F.DEC_GEOM_SHINGLE i) hgeom, State.lineTop, State.passesOf]

theorem line_stopFree : StopFree Station.line := fun _ _ _ _ _ _ _ _ _ _ => rfl

theorem noStop_lineFault (i : Fin 6) : (F.EXP_STATUS_LINE_FAULT i).NoStop :=
  noStop_status i rfl (by simp [F.EXP_STATUS_LINE_FAULT]) (by simp [F.EXP_STATUS_LINE_FAULT])

theorem noStop_clamped (i : Fin 6) : (F.EXP_STATUS_CLAMPED i).NoStop :=
  noStop_status i rfl (by simp [F.EXP_STATUS_CLAMPED]) (by simp [F.EXP_STATUS_CLAMPED])

theorem noStop_trackErr (i : Fin 6) : (Fld.word (R.EXP_TRACK_ERR i)).NoStop := by
  refine noStop_word ?_ fun j => ?_ <;> simp only [R.EXP_TRACK_ERR, R.EXP_STATUS] <;> omega

theorem gateFollow_tsc (s : State) : s.gateFollow.tsc = s.tsc := by
  obtain ⟨r, k, n, l, j, h⟩ := gateFollow_stops s
  rw [h]

theorem lineTake_shows (s : State) (i : Fin 6) (u : LineClk × Bool) : ((s.lineTake i u).stnOf i).line = u.1
    ∧ (s.lineTake i u).flag (F.EXP_STATUS_CLAMPED i) = u.2 ∧ (s.lineTake i u).tsc = s.tsc
    ∧ (s.lineTake i u).getR (R.EXP_TRACK_ERR i) = BitVec.ofInt 32 (Int.fdiv u.1.lag 0x10000)
    ∧ (s.lineTake i u).flag (F.EXP_STATUS_LINE_FAULT i) = s.flag (F.EXP_STATUS_LINE_FAULT i) := by
  unfold State.lineTake
  extract_lets b
  have hbl : (b.stnOf i).line = u.1 := by simp only [b, stnOf_updStn_same]
  have hbf : b.flag (F.EXP_STATUS_LINE_FAULT i) = s.flag (F.EXP_STATUS_LINE_FAULT i) := rfl
  have hbt : b.tsc = s.tsc := rfl
  clear_value b
  have hne : R.EXP_TRACK_ERR i ≠ R.EXP_STATUS i := by simp [R.EXP_TRACK_ERR, R.EXP_STATUS]
  refine ⟨(gateFollow_keepsStn line_stopFree _ i).trans hbl, ?_, (gateFollow_tsc _).trans hbt, ?_, ?_⟩
  · rw [flag_eq_of_getF (gateFollow_getF (noStop_clamped i) _)]
    exact flag_putB_same _ _ _ (by simp [F.EXP_STATUS_CLAMPED]) (by simp [F.EXP_STATUS_CLAMPED])
  · rw [getR_of_getF_word (gateFollow_getF (noStop_trackErr i) _), State.putB, getR_putF_ne _ _ _ _ hne, getR_putR_same]
  · rw [flag_eq_of_getF (gateFollow_getF (noStop_lineFault i) _), State.putB,
      flag_putF_apart _ (by simp [Fld.Apart, F.EXP_STATUS_LINE_FAULT, F.EXP_STATUS_CLAMPED]), flag_congr (getR_putR_ne _ _ hne.symm)]
    exact hbf

/-- The station's line clock in the state in which it takes its sample. -/
theorem linePrep_line (hc : s.cycle ≤ 600) : ((s.linePrep i).stnOf i).line = { (s.stnOf i).line with upAt := some s.tick } := by
  obtain ⟨-, -, hl, -, -⟩ := linePrep_frame s i
  have htick : (s.tsc + BitVec.ofNat 64 (600 - s.cycle)).toNat / 4000 = s.tick := by
    rw [tsc_at_600 hc]
    omega
  rw [hl, htick]

theorem lineClockUpdate_follows {u : LineClk × Bool} (hu : u = ({ (s.stnOf i).line with upAt := some s.tick }.sample s.brg.fbkAt[s.scOf i].pos
      (s.getR (R.EXP_LPITCH i)).toNat (s.scOf i).val).update (s.tsc + BitVec.ofNat 64 (600 - s.cycle)).toNat (s.getF (F.EXP_LCFG_BW i)) (s.lineTop i))
    (hc : s.cycle ≤ 600) (hup : (s.stnOf i).line.upAt ≠ some s.tick) (hsig : s.flag (F.FBK_STATUS_SIG_FAULT (s.scOf i)) = false) :
    Leads s (.lineClockUpdate i) fun t => (t.stnOf i).line = u.1 ∧ t.flag (F.EXP_STATUS_CLAMPED i) = u.2 ∧ 600 ≤ t.cycle
      ∧ t.getR (R.EXP_TRACK_ERR i) = BitVec.ofInt 32 (Int.fdiv u.1.lag 0x10000) ∧ t.flag (F.EXP_STATUS_LINE_FAULT i) = false := by
  obtain ⟨ht, hb, -, -, hf⟩ := linePrep_frame s i
  obtain ⟨hsc, hp, hbw, htop, -⟩ := linePrep_inputs s i
  have hu' : (s.linePrep i).lineNext i = u := by
    unfold State.lineNext
    rw [linePrep_line hc, hp, hbw, htop, ht, hu]
    simp only [hsc, hb]
  rw [hsig] at hf
  refine ⟨(s.linePrep i).lineTake i u, ?_, ?_⟩
  · rw [exec_lineClockUpdate (by rintro (h | h); exacts [by omega, hup h]), if_neg (by simp [hf]), hu']
  · obtain ⟨h1, h2, h3, h4, h5⟩ := lineTake_shows (s.linePrep i) i u
    refine ⟨h1, h2, ?_, h4, h5.trans hf⟩
    rw [State.cycle, h3, ht, tsc_at_600 hc]
    omega

theorem lineClockUpdate_coasts (hc : s.cycle ≤ 600) (hup : (s.stnOf i).line.upAt ≠ some s.tick)
    (hsig : s.flag (F.FBK_STATUS_SIG_FAULT (s.scOf i)) = true) : Leads s (.lineClockUpdate i) fun t =>
      (t.stnOf i).line = { (s.stnOf i).line with upAt := some s.tick } ∧ t.getR (R.EXP_TRACK_ERR i) = s.getR (R.EXP_TRACK_ERR i)
        ∧ t.flag (F.EXP_STATUS_LINE_FAULT i) = true := by
  obtain ⟨-, -, -, -, hf⟩ := linePrep_frame s i
  obtain ⟨-, -, -, -, hte⟩ := linePrep_inputs s i
  rw [hsig] at hf
  refine ⟨(s.linePrep i).gateFollow, ?_, (gateFollow_keepsStn line_stopFree _ i).trans (linePrep_line hc), ?_, ?_⟩
  · rw [exec_lineClockUpdate (by rintro (h | h); exacts [by omega, hup h]), if_pos hf]
  · exact (getR_of_getF_word (gateFollow_getF (noStop_trackErr i) _)).trans hte
  · exact (flag_eq_of_getF (gateFollow_getF (noStop_lineFault i) _)).trans hf

theorem lineClockUpdate_past (h : 600 < s.cycle ∨ (s.stnOf i).line.upAt = some s.tick) : Leads s (.lineClockUpdate i) fun t => t = s :=
  ⟨_, congrArg Host.Outcome.next (if_pos h), rfl⟩

/-! ### Beam detect and the polygon's lock (R220 to R223) -/

/-- A station's record of its beam detects. -/
def Station.bdOf (t : Station) : List Nat × Nat × Nat := (t.bds, t.bdMissed, t.bdNum)

theorem bdOf_stopFree : StopFree Station.bdOf := fun _ _ _ _ _ _ _ _ _ _ => rfl

theorem runs_stopFree : StopFree fun t => (t.freqRun, t.lockRun, t.bdMissed) := fun _ _ _ _ _ _ _ _ _ _ => rfl

@[simp] theorem raise_stn (s : State) (id : EvId) (n : Nat) (a b : Word) : (s.raise id n a b).stn = s.stn := rfl

theorem fire_stn (s : State) (c n : Nat) : (s.fire c n).stn = s.stn := by
  obtain ⟨r, q, l, h⟩ := fire_frame s c n false
  rw [h]

theorem fire_arisen (s : State) (c n : Nat) {id : EvId} {k : Nat} (h : s.Arisen id k) : (s.fire c n).Arisen id k := by
  obtain ⟨r, q, l, hf⟩ := fire_frame s c n false
  rw [hf]
  exact h

/-- A register of the exposure clocks beside EXP_STATUS and EXP_POLY_STATUS. -/
def clockReg (o : Nat) : Prop := o / 65536 = 8 ∧ (∀ j : Fin 6, o ≠ R.EXP_STATUS j) ∧ ∀ p : Fin 6, o ≠ R.EXP_POLY_STATUS p

theorem noStop_lock (i : Fin 6) : (F.EXP_STATUS_LOCK i).NoStop :=
  noStop_status i rfl (by simp [F.EXP_STATUS_LOCK]) (by simp [F.EXP_STATUS_LOCK])

theorem expStatus_block (i : Fin 6) : R.EXP_STATUS i / 65536 = 8 := by
  simp only [R.EXP_STATUS]
  omega

/-- The state right after a lock state is shown, before what follows it. -/
def State.lockShown (s : State) (i : Fin 6) (v : Nat) : State :=
  let a := s.putF (F.EXP_STATUS_LOCK i) v
  let b := if a.isMaster i then a.putF (F.EXP_POLY_STATUS_LOCK (a.polyOf i)) v else a
  b.fire 0x09 (b.polyOf i)

theorem lockShown_frame (s : State) (i : Fin 6) {v : Nat} (hv : v < 4) : (s.lockShown i v).stn = s.stn
    ∧ (s.lockShown i v).getF (F.EXP_STATUS_LOCK i) = v ∧ (∀ o, clockReg o → (s.lockShown i v).getR o = s.getR o)
    ∧ ∀ id n, s.Arisen id n → (s.lockShown i v).Arisen id n := by
  unfold State.lockShown
  extract_lets a b
  have ha : a.stn = s.stn ∧ a.getF (F.EXP_STATUS_LOCK i) = v ∧ (∀ o, clockReg o → a.getR o = s.getR o) ∧ ∀ id n, s.Arisen id n → a.Arisen id n := by
    refine ⟨rfl, ?_, fun o ho => getR_putF_ne _ _ _ _ (ho.2.1 i), fun _ _ h => h.of_eq rfl rfl⟩
    rw [getF_putF_same _ _ _ (by simp [F.EXP_STATUS_LOCK])]
    exact Nat.mod_eq_of_lt hv
  clear_value a
  have hb : b.stn = s.stn ∧ b.getF (F.EXP_STATUS_LOCK i) = v ∧ (∀ o, clockReg o → b.getR o = s.getR o) ∧ ∀ id n, s.Arisen id n → b.Arisen id n := by
    obtain ⟨hs, hl, hr, he⟩ := ha
    simp only [b]
    split
    · refine ⟨hs, (getF_putF_off _ _ _ _ ?_).trans hl, fun o ho => (getR_putF_ne _ _ _ _ (ho.2.2 _)).trans (hr o ho), fun id n h => (he id n h).of_eq rfl rfl⟩
      simp only [F.EXP_STATUS_LOCK, F.EXP_POLY_STATUS_LOCK, R.EXP_STATUS, R.EXP_POLY_STATUS]
      omega
    · exact ⟨hs, hl, hr, he⟩
  clear_value b
  obtain ⟨hs, hl, hr, he⟩ := hb
  refine ⟨(fire_stn ..).trans hs, ?_, fun o ho => ?_, fun id n h => fire_arisen _ _ _ (he id n h)⟩
  · exact ((fire_within b _ _ _).getF _ (by simp [F.EXP_STATUS_LOCK, expStatus_block])).trans hl
  · exact (fire_within b _ _ _ o (by simp [ho.1])).trans (hr o ho)

theorem inhibit_getR_clock {o : Nat} (h : clockReg o) (s : State) (i : Fin 6) : (s.inhibit i).getR o = s.getR o :=
  getR_of_getF_word (inhibit_getF (noStop_word h.1 h.2.1) s i)

/-- A change of the lock state restarts the runs of sweeps; beside the lock it changes what a stop of a page changes. -/
theorem setLock_frame (s : State) (i : Fin 6) {v : Nat} (hv : v < 4) : (s.setLock i v).getF (F.EXP_STATUS_LOCK i) = v
    ∧ (((s.setLock i v).stnOf i).freqRun = 0 ∧ ((s.setLock i v).stnOf i).lockRun = 0)
    ∧ State.KeepsStn Station.bdOf s (s.setLock i v) ∧ State.KeepsStn Station.line s (s.setLock i v)
    ∧ (∀ o, clockReg o → (s.setLock i v).getR o = s.getR o) ∧ ∀ id n, s.Arisen id n → (s.setLock i v).Arisen id n := by
  unfold State.setLock
  extract_lets a b c d
  have hruns : (a.stnOf i).freqRun = 0 ∧ (a.stnOf i).lockRun = 0 := by
    simp only [a, stnOf_updStn_same, and_self]
  have hbd : State.KeepsStn Station.bdOf s a := .updStn s i _ (by intro _; rfl)
  have hline : State.KeepsStn Station.line s a := .updStn s i _ (by intro _; rfl)
  have hr : ∀ o, clockReg o → a.getR o = s.getR o := fun o _ => updStn_getR ..
  have he : ∀ id n, s.Arisen id n → a.Arisen id n := fun _ _ h => h.of_eq rfl rfl
  split
  · rename_i h
    exact ⟨h, hruns, hbd, hline, hr, he⟩
  · obtain ⟨hs, hl, hr', he'⟩ := lockShown_frame a i hv
    have hd : d = a.lockShown i v := rfl
    clear_value d
    subst hd
    have hruns' : (((a.lockShown i v).stnOf i).freqRun = 0 ∧ ((a.lockShown i v).stnOf i).lockRun = 0) := by rwa [stnOf_congr hs]
    split
    · exact ⟨hl, hruns', hbd.trans (.of_stn hs), hline.trans (.of_stn hs), fun o ho => (hr' o ho).trans (hr o ho), fun id n h => he' id n (he id n h)⟩
    · have hk := inhibit_keepsStn runs_stopFree (a.lockShown i v) i i
      simp only [Prod.mk.injEq] at hk
      refine ⟨(inhibit_getF (noStop_lock i) _ i).trans hl, ⟨hk.1.trans hruns'.1, hk.2.1.trans hruns'.2⟩,
        (hbd.trans (.of_stn hs)).trans (inhibit_keepsStn bdOf_stopFree _ i), (hline.trans (.of_stn hs)).trans (inhibit_keepsStn line_stopFree _ i),
        fun o ho => (inhibit_getR_clock ho _ i).trans ((hr' o ho).trans (hr o ho)),
        fun id n h => (inhibit_stops _ i).arisen (he' id n (he id n h))⟩

/-- The next step towards lock keeps the beam detects and every register of the clocks beside the lock states and EXP_PHWARN. -/
theorem lockStep_frame (s : State) (i : Fin 6) (e : Int) (rate : Option Int) : State.KeepsStn Station.bdOf s (s.lockStep i e rate)
    ∧ ∀ o, clockReg o → o ≠ R.EXP_PHWARN i → (s.lockStep i e rate).getR o = s.getR o := by
  have hself : State.KeepsStn Station.bdOf s s ∧ ∀ o, clockReg o → o ≠ R.EXP_PHWARN i → s.getR o = s.getR o := ⟨.refl _ s, fun _ _ _ => rfl⟩
  have hlock : ∀ v, v < 4 → State.KeepsStn Station.bdOf s (s.setLock i v)
      ∧ ∀ o, clockReg o → o ≠ R.EXP_PHWARN i → (s.setLock i v).getR o = s.getR o := fun v hv => by
    obtain ⟨-, -, hk, -, hr, -⟩ := setLock_frame s i hv
    exact ⟨hk, fun o ho _ => hr o ho⟩
  have hupd : ∀ f : Station → Station, (∀ t, (f t).bdOf = t.bdOf) → State.KeepsStn Station.bdOf s (s.updStn i f)
      ∧ ∀ o, clockReg o → o ≠ R.EXP_PHWARN i → (s.updStn i f).getR o = s.getR o := fun f hf => ⟨.updStn s i f hf, fun _ _ _ => updStn_getR ..⟩
  unfold State.lockStep
  extract_lets t s1
  have hs1 : State.KeepsStn Station.bdOf s s1 ∧ ∀ o, clockReg o → o ≠ R.EXP_PHWARN i → s1.getR o = s.getR o :=
    ⟨.of_stn rfl, fun o _ ho => getR_incR_ne _ _ ho⟩
  clear_value s1
  split
  · split
    · split
      · exact hlock 1 (by decide)
      · exact hupd _ fun _ => rfl
    · exact hupd _ fun _ => rfl
  · split
    · exact hlock 0 (by decide)
    · split
      · split
        · exact hlock 2 (by decide)
        · exact hupd _ fun _ => rfl
      · exact hupd _ fun _ => rfl
  · split
    · exact hlock 0 (by decide)
    · split
      · exact hself
      · split
        · exact hs1
        · refine ⟨(hs1.1.trans (State.KeepsStn.updStn s1 i _ (by intro _; rfl))).trans (.of_stn (raise_stn ..)), fun o ho hw => ?_⟩
          exact ((State.raise_getR ..).trans (updStn_getR ..)).trans (hs1.2 o ho hw)

theorem clockReg_of {o : Nat} (i : Fin 6) (k : Nat) (h : o = k + 0x100 * i) (h0 : 0x80000 ≤ k) (h1 : k < 0x80100) (h4 : k ≠ 0x80004) : clockReg o := by
  subst h
  refine ⟨by omega, fun j => ?_, fun p => ?_⟩
  · simp only [R.EXP_STATUS]
    omega
  · simp only [R.EXP_POLY_STATUS]
    omega

/-- The phase of a beam detect: its error is shown, and the lock follows. -/
theorem bdPhase_frame (s : State) (i : Fin 6) (now : Nat) : State.KeepsStn Station.bdOf s (s.bdPhase i now)
    ∧ (∀ o, clockReg o → o ≠ R.EXP_PHWARN i → o ≠ R.EXP_PHERR i → (∀ p : Fin 6, o ≠ R.EXP_POLY_ERR p) → (s.bdPhase i now).getR o = s.getR o)
    ∧ ∀ e, s.phaseErr i now = some e → (s.bdPhase i now).getF (F.EXP_PHERR i) = unsigned 16 e := by
  unfold State.bdPhase
  split
  · rename_i h
    exact ⟨.refl _ s, fun _ _ _ _ _ => rfl, fun e he => by rw [h] at he; cases he⟩
  · rename_i e he
    extract_lets rate a p
    obtain ⟨hk, hr⟩ := lockStep_frame (s.putF (F.EXP_PHERR i) (unsigned 16 e)) i e rate
    have hpherr : clockReg (R.EXP_PHERR i) := clockReg_of i 0x80028 rfl (by decide) (by decide) (by decide)
    have ha : State.KeepsStn Station.bdOf s a
        ∧ (∀ o, clockReg o → o ≠ R.EXP_PHWARN i → o ≠ R.EXP_PHERR i → (∀ p : Fin 6, o ≠ R.EXP_POLY_ERR p) → a.getR o = s.getR o)
        ∧ a.getF (F.EXP_PHERR i) = unsigned 16 e := by
      refine ⟨State.KeepsStn.trans (.of_stn rfl) hk, fun o ho hw hp _ => (hr o ho hw).trans (getR_putF_ne _ _ _ _ hp), ?_⟩
      rw [getF_congr (hr _ hpherr (by simp [F.EXP_PHERR, R.EXP_PHERR, R.EXP_PHWARN])), getF_putF_same _ _ _ (by simp [F.EXP_PHERR])]
      exact Nat.mod_eq_of_lt (by
        simp only [F.EXP_PHERR, unsigned]
        omega)
    clear_value a p rate
    have hput : ∀ (w : Word), State.KeepsStn Station.bdOf s (a.putR (R.EXP_POLY_ERR p) w)
        ∧ (∀ o, clockReg o → o ≠ R.EXP_PHWARN i → o ≠ R.EXP_PHERR i → (∀ p : Fin 6, o ≠ R.EXP_POLY_ERR p) →
          (a.putR (R.EXP_POLY_ERR p) w).getR o = s.getR o)
        ∧ ∀ e', s.phaseErr i now = some e' → (a.putR (R.EXP_POLY_ERR p) w).getF (F.EXP_PHERR i) = unsigned 16 e' := fun w => by
      obtain ⟨hk, hr, hf⟩ := ha
      refine ⟨hk.trans (.of_stn rfl), fun o ho hw hp hq => (getR_putR_ne _ _ (hq p)).trans (hr o ho hw hp hq), fun e' he' => ?_⟩
      rw [he] at he'
      cases he'
      refine (getF_putR _ _ _ _ ?_).trans hf
      simp only [F.EXP_PHERR, R.EXP_PHERR, R.EXP_POLY_ERR]
      omega
    have hself : State.KeepsStn Station.bdOf s a
        ∧ (∀ o, clockReg o → o ≠ R.EXP_PHWARN i → o ≠ R.EXP_PHERR i → (∀ p : Fin 6, o ≠ R.EXP_POLY_ERR p) → a.getR o = s.getR o)
        ∧ ∀ e', s.phaseErr i now = some e' → a.getF (F.EXP_PHERR i) = unsigned 16 e' :=
      ⟨ha.1, ha.2.1, fun e' he' => by rw [he] at he'; cases he'; exact ha.2.2⟩
    split
    · split
      · split
        · exact hput _
        · exact hself
      · exact hput _
    · exact hself

/-- The phase error depends on the line clock and the geometry of the station. -/
theorem phaseErr_congr {t : State} (hl : (t.stnOf i).line = (s.stnOf i).line) (hg : t.getR (R.DEC_GEOM i) = s.getR (R.DEC_GEOM i)) (bd : Nat) :
    t.phaseErr i bd = s.phaseErr i bd := by
  have hadv : t.advOf i = s.advOf i := by
    rw [State.advOf, flag_congr (f := F.DEC_GEOM_SHINGLE i) hg, getF_congr (f := F.DEC_GEOM_BEAMS i) hg, State.advOf]
  have hsw : t.tSweep i = s.tSweep i := by rw [State.tSweep, hl, hadv, State.tSweep]
  rw [State.phaseErr, hsw, hl, State.phaseErr]

theorem facetStep_frame (s : State) (i : Fin 6) : (s.facetStep i).stn = s.stn ∧ (s.facetStep i).tsc = s.tsc
    ∧ ∀ o, (∀ p : Fin 6, o ≠ R.EXP_POLY_STATUS p) → (s.facetStep i).getR o = s.getR o := by
  unfold State.facetStep
  exact ⟨rfl, rfl, fun o ho => getR_putF_ne s _ _ _ (ho _)⟩

/-- The state after a beam detect has been stamped. -/
def State.bdTake (s : State) (i : Fin 6) (frac : BitVec 10) : State :=
  let now := s.tsc.toNat * 1024 + frac.toNat
  let s := if s.isMaster i then s.facetStep i else s
  let s := s.updStn i fun t => { t with bds := (now :: t.bds).take (s.facets i + 1), bdMissed := 0, bdNum := (t.bdNum + 1) % 256 }
  let s := (s.putP (R.EXP_BD_TS_LO i) s.tsc.toNat).putF (F.EXP_BD_FRAC_FRAC i) frac.toNat
  s.putF (F.EXP_BD_FRAC_FACET i) (s.getF (F.EXP_POLY_STATUS_FACET (s.polyOf i)))

theorem bdTake_frame (s : State) (i : Fin 6) (frac : BitVec 10) :
    (∃ n, ((s.bdTake i frac).stnOf i).bdOf =
      ((s.tsc.toNat * 1024 + frac.toNat) :: (s.stnOf i).bds.take n, 0, ((s.stnOf i).bdNum + 1) % 256))
    ∧ ((s.bdTake i frac).stnOf i).line = (s.stnOf i).line ∧ (s.bdTake i frac).getR (R.DEC_GEOM i) = s.getR (R.DEC_GEOM i)
    ∧ (s.bdTake i frac).getF (F.EXP_BD_FRAC_FRAC i) = frac.toNat := by
  unfold State.bdTake
  extract_lets now a b c
  have ha : a.stnOf i = s.stnOf i ∧ a.getR (R.DEC_GEOM i) = s.getR (R.DEC_GEOM i) := by
    simp only [a]
    split
    · obtain ⟨hs, -, hr⟩ := facetStep_frame s i
      refine ⟨stnOf_congr hs, hr _ fun p => ?_⟩
      simp only [R.DEC_GEOM, R.EXP_POLY_STATUS]
      omega
    · exact ⟨rfl, rfl⟩
  obtain ⟨has, hag⟩ := ha
  clear_value a
  have hb : (b.stnOf i).bdOf = (now :: (s.stnOf i).bds.take (a.facets i), 0, ((s.stnOf i).bdNum + 1) % 256)
      ∧ (b.stnOf i).line = (s.stnOf i).line := by
    simp only [b, stnOf_updStn_same, ← has]
    exact ⟨rfl, trivial⟩
  have hbg : b.getR (R.DEC_GEOM i) = s.getR (R.DEC_GEOM i) := (updStn_getR ..).trans hag
  clear_value b
  have hg : ∀ k, k = R.EXP_BD_TS_LO i ∨ k = R.EXP_BD_TS_LO i + 4 ∨ k = R.EXP_BD_FRAC i → R.DEC_GEOM i ≠ k := by
    simp only [R.DEC_GEOM, R.EXP_BD_TS_LO, R.EXP_BD_FRAC]
    omega
  have hcs : c.stnOf i = b.stnOf i := putF_stnOf ..
  have hcg : c.getR (R.DEC_GEOM i) = s.getR (R.DEC_GEOM i) :=
    (getR_putF_ne _ _ _ _ (hg _ (Or.inr (Or.inr rfl)))).trans ((getR_putR_ne _ _ (hg _ (Or.inr (Or.inl rfl)))).trans
      ((getR_putR_ne _ _ (hg _ (Or.inl rfl))).trans hbg))
  have hcf : c.getF (F.EXP_BD_FRAC_FRAC i) = frac.toNat := by
    refine (getF_putF_same _ _ _ (by simp [F.EXP_BD_FRAC_FRAC])).trans (Nat.mod_eq_of_lt frac.isLt)
  clear_value c
  refine ⟨⟨a.facets i, ?_⟩, ?_, ?_, ?_⟩
  · rw [putF_stnOf, hcs]
    exact hb.1
  · rw [putF_stnOf, hcs]
    exact hb.2
  · exact (getR_putF_ne _ _ _ _ (hg _ (Or.inr (Or.inr rfl)))).trans hcg
  · exact (getF_putF_apart _ (by simp [Fld.Apart, F.EXP_BD_FRAC_FRAC, F.EXP_BD_FRAC_FACET])).trans hcf

/-- A single beam detect gives no period yet, and the dot clock no target. -/
theorem dclkStep_first {bd now : Nat} (h : (s.stnOf i).bds = [bd]) : s.dclkStep i now = s := by
  have hf : s.facetSum i = none := by
    rw [State.facetSum, h]
    rfl
  have ht : s.dclkTarget i = none := by rw [State.dclkTarget, hf]
  rw [State.dclkStep, ht]

theorem bdPulse_first (frac : BitVec 10) (h : (s.stnOf i).bds = []) :
    Leads s (.bdPulse i frac) fun t => (t.stnOf i).bds = [s.tsc.toNat * 1024 + frac.toNat] ∧ (t.stnOf i).bdMissed = 0
        ∧ (t.stnOf i).bdNum = ((s.stnOf i).bdNum + 1) % 256 ∧ t.getF (F.EXP_BD_FRAC_FRAC i) = frac.toNat
        ∧ ∀ e, s.phaseErr i (s.tsc.toNat * 1024 + frac.toNat) = some e → t.getF (F.EXP_PHERR i) = unsigned 16 e := by
  let now := s.tsc.toNat * 1024 + frac.toNat
  have hexec : exec (.bdPulse i frac) s = .next (((s.bdTake i frac).bdPhase i now).dclkStep i now) := by
    change execBdPulse .. = _
    unfold execBdPulse
    simp only [h, List.head?_nil]
    exact congrArg Host.Outcome.next (if_neg Bool.false_ne_true)
  obtain ⟨⟨n, hbd⟩, hline, hgeom, hfrac⟩ := bdTake_frame s i frac
  obtain ⟨hk, hr, he⟩ := bdPhase_frame (s.bdTake i frac) i now
  have hbd' := (hk i).trans hbd
  rw [h, List.take_nil] at hbd'
  simp only [Station.bdOf, Prod.mk.injEq] at hbd'
  obtain ⟨hbds, hmiss, hnum⟩ := hbd'
  rw [dclkStep_first hbds] at hexec
  refine ⟨_, hexec, hbds, hmiss, hnum, ?_, fun e hpe => he e ((phaseErr_congr hline hgeom now).trans hpe)⟩
  refine (getF_congr (hr (R.EXP_BD_FRAC i) (clockReg_of i 0x80050 rfl (by decide) (by decide) (by decide)) ?_ ?_ fun p => ?_)).trans hfrac
  · simp [R.EXP_BD_FRAC, R.EXP_PHWARN]
  · simp [R.EXP_BD_FRAC, R.EXP_PHERR]
  · simp only [R.EXP_BD_FRAC, R.EXP_POLY_ERR]
    omega

theorem bdPulse_early {frac : BitVec 10} {a T n : Nat} (ha : (s.stnOf i).bds.head? = some a) (hf : s.facetSum i = some (T, n))
    (hlt : 2 * (s.tsc.toNat * 1024 + frac.toNat - a) * n < T) : Leads s (.bdPulse i frac) fun t => t = s.incR (R.EXL_BD_REJECT i) 1 := by
  refine ⟨_, ?_, rfl⟩
  change execBdPulse .. = _
  unfold execBdPulse
  simp only [ha, hf]
  exact congrArg Host.Outcome.next (if_pos (Nat.blt_eq.symm ▸ hlt))

theorem bdMissing_counts {a w : Nat} (ha : (s.stnOf i).bds.head? = some a) (hw : s.tSweep i = some w)
    (hle : (3 + 2 * (s.stnOf i).bdMissed) * w ≤ 2 * (1024 * s.tsc.toNat - a)) :
    Leads s (.bdMissingTimeout i) fun t => t.Arisen Ev.EXP_BD_MISSING i ∧ (t.stnOf i).bdMissed = (s.stnOf i).bdMissed + 1
        ∧ (t.stnOf i).freqRun = 0 ∧ (t.stnOf i).lockRun = 0 ∧ (1 ≤ (s.stnOf i).bdMissed → t.getF (F.EXP_STATUS_LOCK i) = 0) := by
  let m := (s.stnOf i).bdMissed
  let b := ((s.incR (R.EXP_BD_MISS i) 1).raise Ev.EXP_BD_MISSING i).updStn i fun t => { t with bdMissed := m + 1, freqRun := 0, lockRun := 0 }
  have hexec : exec (.bdMissingTimeout i) s = .next (if 2 ≤ m + 1 then b.setLock i 0 else b) := by
    change execBdMissingTimeout .. = _
    unfold execBdMissingTimeout
    simp only [ha, hw]
    exact congrArg Host.Outcome.next (if_neg (by omega))
  have hbe : b.Arisen Ev.EXP_BD_MISSING i := (arisen_raise ..).of_eq rfl rfl
  have hbs : (b.stnOf i).bdMissed = m + 1 ∧ (b.stnOf i).freqRun = 0 ∧ (b.stnOf i).lockRun = 0 := by
    simp only [b, stnOf_updStn_same, and_self]
  clear_value b
  refine ⟨_, hexec, ?_⟩
  by_cases h : 2 ≤ m + 1
  · rw [if_pos h]
    obtain ⟨hl, ⟨hf, hlr⟩, hk, -, -, he⟩ := setLock_frame b i (v := 0) (by decide)
    exact ⟨he _ _ hbe, (congrArg (fun x => x.2.1) (hk i)).trans hbs.1, hf, hlr, fun _ => hl⟩
  · rw [if_neg h]
    exact ⟨hbe, hbs.1, hbs.2.1, hbs.2.2, fun h1 => absurd (Nat.succ_le_succ h1) h⟩

end Sys2Proof.Machine

end

/-! ## Dot clocks, grid slews and overspeed (R226 to R228, R219, R217) -/

section

namespace Sys2Proof.Machine

variable {s : State} {i : Fin 6}

theorem dclkOut_frame (s : State) (i : Fin 6) (v : Nat) : (s.dclkOut i v).tsc = s.tsc ∧ (s.dclkOut i v).ev = s.ev
    ∧ ∀ o, o ≠ R.EXP_DCLK_FREQ i → (s.dclkOut i v).getR o = s.getR o := by
  unfold State.dclkOut
  extract_lets w
  exact ⟨rfl, rfl, fun o ho => (getR_putF_ne _ _ _ _ ho).trans (updStn_getR ..)⟩

theorem dclkSlew_frame (s : State) (i : Fin 6) (now : Nat) : (s.dclkSlew i now).tsc = s.tsc ∧ (s.dclkSlew i now).ev = s.ev
    ∧ ∀ o, o ≠ R.EXP_DCLK_FREQ i → (s.dclkSlew i now).getR o = s.getR o := by
  unfold State.dclkSlew
  extract_lets d f r
  obtain ⟨ht, he, hr⟩ := dclkOut_frame (s.updStn i fun t => { t with dot := { t.dot with at_ := now, gone := d.gone + r.2 } }) i r.1
  exact ⟨ht, he, fun o ho => (hr o ho).trans (updStn_getR ..)⟩

theorem dclkState_off (i : Fin 6) : (F.EXP_DCLK_STATUS_STATE i).off ≠ R.EXP_DCLK_FREQ i := by
  simp [F.EXP_DCLK_STATUS_STATE, R.EXP_DCLK_STATUS, R.EXP_DCLK_FREQ]

/-- The frequency is set anew: EXP_DCLK_FREQ and EXP_DCLK_STATUS.N follow. -/
theorem dclkJump_frame (s : State) (i : Fin 6) (now : Nat) : (s.dclkJump i now).tsc = s.tsc ∧ (s.dclkJump i now).ev = s.ev
    ∧ (s.dclkJump i now).getF (F.EXP_DCLK_STATUS_STATE i) = s.getF (F.EXP_DCLK_STATUS_STATE i) := by
  unfold State.dclkJump
  extract_lets a d
  obtain ⟨hat, hae, har⟩ := dclkSlew_frame s i now
  have ha : a.tsc = s.tsc ∧ a.ev = s.ev ∧ a.getF (F.EXP_DCLK_STATUS_STATE i) = s.getF (F.EXP_DCLK_STATUS_STATE i) :=
    ⟨hat, hae, getF_congr (har _ (dclkState_off i))⟩
  clear_value a
  split
  · exact ha
  · obtain ⟨ht, he, hr⟩ := dclkOut_frame a i (microHz d.num d.den)
    refine ⟨(State.putF_tsc ..).trans (ht.trans ha.1), (State.putF_ev ..).trans (he.trans ha.2.1), ?_⟩
    rw [getF_putF_apart _ (by simp [Fld.Apart, F.EXP_DCLK_STATUS_STATE, F.EXP_DCLK_STATUS_N]), getF_congr (hr _ (dclkState_off i))]
    exact ha.2.2

theorem noStop_dclkState (i : Fin 6) : (F.EXP_DCLK_STATUS_STATE i).NoStop := by
  refine noStop_of_off ?_ fun j => ?_ <;> simp only [F.EXP_DCLK_STATUS_STATE, R.EXP_DCLK_STATUS, R.EXP_STATUS] <;> omega

theorem dclk_stopFree : StopFree fun t => (t.windows, t.relockAt) := fun _ _ _ _ _ _ _ _ _ _ => rfl

/-- A relock: the dot clock is in RELOCK from now on, without a good window; where it was locked the loss is reported. -/
theorem dclkRelock_frame (s : State) (i : Fin 6) : (s.dclkRelock i).getF (F.EXP_DCLK_STATUS_STATE i) = 1
    ∧ (((s.dclkRelock i).stnOf i).windows = 0 ∧ ((s.dclkRelock i).stnOf i).relockAt = s.tsc.toNat)
    ∧ (∀ id n, s.Arisen id n → (s.dclkRelock i).Arisen id n)
    ∧ (s.getF (F.EXP_DCLK_STATUS_STATE i) = 2 → (s.dclkRelock i).Arisen Ev.EXP_DCLK_UNLOCK i) := by
  unfold State.dclkRelock
  extract_lets lost a b c
  obtain ⟨hat, hae, haf⟩ := dclkJump_frame (s.putF (F.EXP_DCLK_STATUS_STATE i) 1) i (1024 * s.tsc.toNat)
  have ha : a.tsc = s.tsc ∧ a.ev = s.ev ∧ a.getF (F.EXP_DCLK_STATUS_STATE i) = 1 := by
    refine ⟨hat, hae, haf.trans ?_⟩
    rw [getF_putF_same _ _ _ (by simp [F.EXP_DCLK_STATUS_STATE])]
    rfl
  clear_value a
  obtain ⟨hat, hae, haf⟩ := ha
  have hb : b.tsc = a.tsc ∧ b.ev = a.ev ∧ b.getF (F.EXP_DCLK_STATUS_STATE i) = a.getF (F.EXP_DCLK_STATUS_STATE i) := ⟨rfl, rfl, updStn_getF ..⟩
  have hbs : (b.stnOf i).windows = 0 ∧ (b.stnOf i).relockAt = s.tsc.toNat := by
    simp only [b, stnOf_updStn_same, hat, and_self]
  clear_value b
  have hbe : ∀ id n, s.Arisen id n → b.Arisen id n := fun id n h => h.of_eq (hb.2.1.trans hae) (hb.1.trans hat)
  have hc : c.getF (F.EXP_DCLK_STATUS_STATE i) = 1 ∧ c.stn = b.stn ∧ (∀ id n, s.Arisen id n → c.Arisen id n)
      ∧ (s.getF (F.EXP_DCLK_STATUS_STATE i) = 2 → c.Arisen Ev.EXP_DCLK_UNLOCK i) := by
    simp only [c]
    by_cases hl : lost = true
    · rw [if_pos hl]
      refine ⟨?_, rfl, fun id n h => arisen_of_raise _ _ _ _ _ _ _ ((hbe id n h).of_eq rfl rfl), fun _ => arisen_raise ..⟩
      rw [State.raise_getF, getF_incR _ _ _ (by simp [F.EXP_DCLK_STATUS_STATE, R.EXP_DCLK_STATUS, R.EXP_DCLK_UNLOCK])]
      exact hb.2.2.trans haf
    · rw [if_neg hl]
      exact ⟨hb.2.2.trans haf, rfl, hbe, fun h => absurd (by simp [lost, h]) hl⟩
  clear_value c
  obtain ⟨hcf, hcs, hce, hcu⟩ := hc
  have hk := inhibit_keepsStn dclk_stopFree c i i
  simp only [Prod.mk.injEq] at hk
  refine ⟨(inhibit_getF (noStop_dclkState i) c i).trans hcf, ?_, fun id n h => (inhibit_stops c i).arisen (hce id n h),
    fun h => (inhibit_stops c i).arisen (hcu h)⟩
  rw [hk.1, hk.2, stnOf_congr hcs]
  exact hbs

/-! ### The commands of the dot clock -/

/-- A window's course, the current frequency kept as the next window's beginning. -/
def State.dclkWindow (s : State) (i : Fin 6) : State :=
  s.updStn i fun t => { t with dot := { t.dot with winFrom := microHz t.dot.num t.dot.den } }

theorem rateCheck_getF (s : State) (i : Fin 6) {f : Fld} (h : f.off ≠ R.EXL_STATUS i) : (s.rateCheck i).getF f = s.getF f :=
  getF_putF_off _ _ _ _ h

theorem dclkLock_fourth {dev : Nat} (h1 : s.getF (F.EXP_DCLK_STATUS_STATE i) = 1) (hd : dev ≤ 20) (hst : s.dclkSteady i = true)
    (hw : 3 ≤ (s.stnOf i).windows) : Leads s (.dclkLockWindow i dev) fun t => t.getF (F.EXP_DCLK_STATUS_STATE i) = 2 := by
  let n := ((s.dclkWindow i).stnOf i).windows + 1
  have hn : 4 ≤ n := by
    have hsame : ((s.dclkWindow i).stnOf i).windows = (s.stnOf i).windows := by
      rw [State.dclkWindow, stnOf_updStn_same]
    simp only [n, hsame]
    omega
  let a := (s.dclkWindow i).updStn i fun t => { t with windows := n }
  refine ⟨(a.putF (F.EXP_DCLK_STATUS_STATE i) 2).rateCheck i, ?_, ?_⟩
  · have h1' : (s.dclkWindow i).getF (F.EXP_DCLK_STATUS_STATE i) = 1 := h1
    change execDclkLockWindow .. = _
    unfold execDclkLockWindow
    simp only
    change Host.Outcome.next (match (s.dclkWindow i).getF (F.EXP_DCLK_STATUS_STATE i) with
      | 1 => _
      | 2 => _
      | _ => _) = _
    rw [h1']
    exact congrArg Host.Outcome.next ((if_pos ⟨hd, hst⟩).trans (if_pos hn))
  · refine (rateCheck_getF _ i ?_).trans ?_
    · simp only [F.EXP_DCLK_STATUS_STATE, R.EXP_DCLK_STATUS, R.EXL_STATUS]
      omega
    · rw [getF_putF_same _ _ _ (by simp [F.EXP_DCLK_STATUS_STATE])]
      rfl

theorem dclkLock_bad {dev : Nat} (h1 : s.getF (F.EXP_DCLK_STATUS_STATE i) = 1) (hd : 20 < dev) :
    Leads s (.dclkLockWindow i dev) fun t => (t.stnOf i).windows = 0 ∧ t.regs = s.regs := by
  refine ⟨(s.dclkWindow i).updStn i fun t => { t with windows := 0 }, ?_, ?_, rfl⟩
  · have h1' : (s.dclkWindow i).getF (F.EXP_DCLK_STATUS_STATE i) = 1 := h1
    change Host.Outcome.next (match (s.dclkWindow i).getF (F.EXP_DCLK_STATUS_STATE i) with
      | 1 => _
      | 2 => _
      | _ => _) = _
    rw [h1']
    exact congrArg Host.Outcome.next (if_neg fun h => absurd h.1 (Nat.not_le.2 hd))
  · rw [stnOf_updStn_same]

theorem dclkLock_lost {dev : Nat} (h2 : s.getF (F.EXP_DCLK_STATUS_STATE i) = 2) (hd : 100 < dev) :
    Leads s (.dclkLockWindow i dev) fun t => t.getF (F.EXP_DCLK_STATUS_STATE i) = 1 ∧ t.Arisen Ev.EXP_DCLK_UNLOCK i := by
  let a := (s.dclkWindow i).dclkSlew i (1024 * s.tsc.toNat)
  have ha : a.getF (F.EXP_DCLK_STATUS_STATE i) = 2 := (getF_congr ((dclkSlew_frame _ i _).2.2 _ (dclkState_off i))).trans h2
  obtain ⟨hs, -, -, hu⟩ := dclkRelock_frame a i
  refine ⟨a.dclkRelock i, ?_, hs, hu ha⟩
  have h2' : (s.dclkWindow i).getF (F.EXP_DCLK_STATUS_STATE i) = 2 := h2
  change Host.Outcome.next (match (s.dclkWindow i).getF (F.EXP_DCLK_STATUS_STATE i) with
    | 1 => _
    | 2 => _
    | _ => _) = _
  rw [h2']
  exact congrArg Host.Outcome.next (if_pos hd)

theorem dclkRefLoss_relocks (h : s.getF (F.EXP_DCLK_STATUS_STATE i) ≠ 0) :
    Leads s (.dclkRefLoss i) fun t => t.getF (F.EXP_DCLK_STATUS_STATE i) = 1 ∧ (t.stnOf i).relockAt = s.tsc.toNat := by
  obtain ⟨hs, ⟨-, hr⟩, -⟩ := dclkRelock_frame s i
  exact ⟨_, congrArg Host.Outcome.next (if_neg h), hs, hr⟩

theorem dclkRelockTimeout_restarts (h : s.getF (F.EXP_DCLK_STATUS_STATE i) = 1) (ht : (s.stnOf i).relockAt + 200000000 ≤ s.tsc.toNat) :
    Leads s (.dclkRelockTimeout i) fun t =>
      t.Arisen Ev.EXP_DCLK_TIMEOUT i ∧ (t.stnOf i).relockAt = s.tsc.toNat ∧ (t.stnOf i).windows = 0 := by
  obtain ⟨-, ⟨hw, hr⟩, he, -⟩ := dclkRelock_frame (s.raise Ev.EXP_DCLK_TIMEOUT i) i
  exact ⟨_, congrArg Host.Outcome.next (if_pos ⟨h, ht⟩), he _ _ (arisen_raise ..), hr, hw⟩

/-! ### Grid slews (R219) and overspeed (R217) -/

theorem gridSlew_ends (hl : (s.stnOf i).slewLeft = 0) (hd : (s.stnOf i).slewDue = 0) : Leads s (.gridSlewDone i) fun t =>
    t.flag (F.EXP_STATUS_SLEWING i) = false ∧ ∀ o, o ≠ R.EXP_STATUS i → t.getR o = s.getR o := by
  have hstart : (s.putF (F.EXP_STATUS_SLEWING i) 0).slewStart i = s.putF (F.EXP_STATUS_SLEWING i) 0 := if_neg fun h => h.1 hd
  refine ⟨s.putF (F.EXP_STATUS_SLEWING i) 0, (congrArg Host.Outcome.next (if_pos hl)).trans (congrArg _ hstart), ?_, fun o ho => getR_putF_ne _ _ _ _ ho⟩
  rw [flag_putF_same _ _ _ (by simp [F.EXP_STATUS_SLEWING])]
  rfl

theorem gridSlew_goesOn (h : (s.stnOf i).slewLeft ≠ 0) : Leads s (.gridSlewDone i) fun t => t = s :=
  ⟨_, congrArg Host.Outcome.next (if_neg h), rfl⟩

theorem overspeed_cleared (u : Fin 16) (hc : s.flag (F.EXP_STATUS_CLAMPED i) = false) (hs : s.startR (R.EXP_STATUS i) = s.getR (R.EXP_STATUS i)) :
    Leads s (.overspeedClear (.thread u) i) fun t => t.flag (F.EXP_STATUS_OVERSPEED i) = false ∧ ∀ o, o ≠ R.EXP_STATUS i → t.getR o = s.getR o := by
  refine ⟨s.clearF (F.EXP_STATUS_OVERSPEED i), congrArg Host.Outcome.next (if_neg (by simp [hc])), ?_, fun o ho => getR_clearF_ne _ _ ho⟩
  exact flag_clearF_same _ _ (by simp [F.EXP_STATUS_OVERSPEED]) hs

/-- Settles O44: each command is one case of its definition; gates, stops and changes of lock that follow leave the line clock, the beam
detects and the dot clock's state. -/
theorem lineAndDotClocksFollowTheirMeasurements : Obligations.LineAndDotClocksFollowTheirMeasurements := by
  intro s i
  refine ⟨fun u line hline hu hc hup => ?_, lineClockUpdate_past, bdPulse_first, fun _ _ _ _ => bdPulse_early, fun _ _ => bdMissing_counts,
    fun _ h1 => ⟨dclkLock_fourth h1, dclkLock_bad h1⟩, fun _ => dclkLock_lost, dclkRefLoss_relocks, dclkRelockTimeout_restarts,
    gridSlew_ends, gridSlew_goesOn, overspeed_cleared, ⟨s, rfl, rfl⟩⟩
  subst hline
  exact ⟨lineClockUpdate_follows hu hc hup, lineClockUpdate_coasts hc hup⟩

end Sys2Proof.Machine

end

/-! ## Motion axes: what an evaluation leaves (R310) -/

section

-- Elaborated in parallel, the proofs below wait for one another on some thirty threads, more than the check has stacks for.
set_option Elab.async false

namespace Sys2Proof.Machine

variable {s t : State}

@[simp] theorem ax_updAx_same (s : State) (a : Fin 20) (f : Axis → Axis) : (s.updAx a f).ax a = f (s.ax a) := by
  simp [State.ax, State.updAx]

theorem ax_updAx_ne (s : State) {a b : Fin 20} (f : Axis → Axis) (h : b ≠ a) : (s.updAx a f).ax b = s.ax b := by
  have : (a : Nat) ≠ (b : Nat) := fun e => h (Fin.ext e.symm)
  simp [State.ax, State.updAx, this]

@[simp] theorem updAx_getR (s : State) (a : Fin 20) (f : Axis → Axis) (o : Nat) : (s.updAx a f).getR o = s.getR o := rfl

@[simp] theorem updAx_getF (s : State) (a : Fin 20) (f : Axis → Axis) (g : Fld) : (s.updAx a f).getF g = s.getF g := rfl

/-- A register that no evaluation of an axis writes: those that enable and type the axes, MOV_AX_CFG and the MOT block, and those of the
sensor pins. -/
def axCfg (o : Nat) : Prop := o / 65536 = 0xB ∨ o / 65536 = 0x18 ∨ o / 65536 = 0xC ∧ o % 256 = 0

/-- From `s` to `t` axes are evaluated: no command comes to wait, what enables and types the axes stays, and so does the bridge. -/
def State.AxSteps (s t : State) : Prop := (∀ b, (s.ax b).cmd = none → (t.ax b).cmd = none) ∧ (∀ o, axCfg o → t.getR o = s.getR o) ∧ t.brg = s.brg

section
variable {u : State} {a : Fin 20}

theorem State.AxSteps.refl (s : State) : s.AxSteps s := ⟨fun _ h => h, fun _ _ => rfl, rfl⟩

theorem State.AxSteps.trans (h : s.AxSteps t) (h' : t.AxSteps u) : s.AxSteps u :=
  ⟨fun b hb => h'.1 b (h.1 b hb), fun o ho => (h'.2.1 o ho).trans (h.2.1 o ho), h'.2.2.trans h.2.2⟩

theorem State.AxSteps.updAx (h : s.AxSteps t) {f : Axis → Axis}
    (hf : ∀ x, (f x).cmd = x.cmd ∨ (f x).cmd = none := by exact fun _ => Or.inl rfl) : s.AxSteps (t.updAx a f) := by
  refine h.trans ⟨fun b hb => ?_, fun _ _ => updAx_getR .., rfl⟩
  by_cases hba : b = a
  · subst hba
    rw [ax_updAx_same]
    exact (hf _).elim (fun e => e.trans hb) id
  · rwa [ax_updAx_ne t f hba]

theorem State.AxSteps.putR (h : s.AxSteps t) {o : Nat} (w : Word) (ho : ¬ axCfg o) : s.AxSteps (t.putR o w) :=
  h.trans ⟨fun _ hb => hb, fun _ hk => getR_putR_ne _ _ fun e => ho (e ▸ hk), rfl⟩

theorem State.AxSteps.putF (h : s.AxSteps t) {f : Fld} (v : Nat) (ho : ¬ axCfg f.off) : s.AxSteps (t.putF f v) := h.putR _ ho

theorem State.AxSteps.putSt (h : s.AxSteps t) {f : Fld} (v : Nat) (hf : ∃ a : Fin 20, f.off = R.MOV_AX_STATUS a := by exact ⟨_, rfl⟩) :
    s.AxSteps (t.putF f v) := by
  obtain ⟨a, ha⟩ := hf
  refine h.putF v ?_
  rw [ha]
  simp only [axCfg, R.MOV_AX_STATUS]
  omega

theorem State.AxSteps.fire (h : s.AxSteps t) (c n : Nat) : s.AxSteps (t.fire c n) := by
  refine h.trans ?_
  obtain ⟨r, q, l, hf⟩ := fire_frame t c n false
  refine ⟨fun b hb => ?_, fun o ho => fire_within t c n false o ?_, by rw [hf]⟩
  · rw [hf]
    exact hb
  · simp only [axCfg] at ho
    simp only [List.mem_singleton]
    omega

theorem State.AxSteps.raise (h : s.AxSteps t) (id : EvId) (n : Nat) (x y : Word) : s.AxSteps (t.raise id n x y) :=
  h.trans ⟨fun _ hb => hb, fun _ _ => rfl, rfl⟩

theorem State.AxSteps.incR (h : s.AxSteps t) {o : Nat} (n : Nat) (ho : ¬ axCfg o) : s.AxSteps (t.incR o n) :=
  h.trans ⟨fun _ hb => hb, fun _ hk => getR_incR_ne _ _ fun e => ho (e ▸ hk), rfl⟩

theorem State.AxSteps.foldl {α : Type} (l : List α) {f : State → α → State} (h : s.AxSteps t) (hf : ∀ b x, State.AxSteps b (f b x)) :
    s.AxSteps (l.foldl f t) := by
  induction l generalizing t with
  | nil => exact h
  | cons x r ih => exact ih (h.trans (hf t x))

end

/-- No register of axis `a` beside MOV_AX_CFG says whether it is enabled. -/
theorem not_axCfg {o k : Nat} (a : Nat) (h : o = 0xC0000 + k + 0x100 * a) (h0 : 0 < k) (h1 : k < 0x100) (ha : a < 0x100) : ¬ axCfg o := by
  simp only [axCfg]
  omega

theorem not_axCfg_status (a : Fin 20) : ¬ axCfg (R.MOV_AX_STATUS a) :=
  not_axCfg (k := 0x28) a rfl (by decide) (by decide) (by omega)

variable {a : Fin 20}

theorem axResult_steps (h : s.AxSteps t) (r : Nat) : s.AxSteps (t.axResult a r) := (h.putSt _).fire _ _

theorem setAxState_steps (h : s.AxSteps t) (v : Nat) : s.AxSteps (t.setAxState a v) := h.putSt _

theorem axReport_steps (h : s.AxSteps t) : s.AxSteps (t.axReport a) :=
  ((h.putR _ (not_axCfg (k := 0x2C) a rfl (by decide) (by decide) (by omega))).putR _
    (not_axCfg (k := 0x30) a rfl (by decide) (by decide) (by omega))).putR _ (not_axCfg (k := 0x34) a rfl (by decide) (by decide) (by omega))

theorem limReport_steps (h : s.AxSteps t) : s.AxSteps (t.limReport a) :=
  ((h.putSt _).putR _ (not_axCfg (k := 0x24) a rfl (by decide) (by decide) (by omega))).putR _
    (not_axCfg (k := 0x48) a rfl (by decide) (by decide) (by omega))

theorem setPlan_steps (h : s.AxSteps t) (l : List Seg) (n : Nat) : s.AxSteps (t.setPlan a l n) := h.updAx

theorem planMove_steps (h : s.AxSteps t) (n : Nat) : s.AxSteps (t.planMove a n) := by
  unfold State.planMove
  extract_lets x
  split
  · exact setPlan_steps h _ _
  · exact setPlan_steps h _ _

theorem axStop_steps (h : s.AxSteps t) (hard keep : Bool) (r : Nat) : s.AxSteps (t.axStop a hard keep r) := by
  unfold State.axStop
  extract_lets x d segs b
  exact setAxState_steps ((setPlan_steps h _ _).updAx) 4

theorem axHalt_steps (h : s.AxSteps t) : s.AxSteps (t.axHalt a) := axStop_steps h _ _ _

theorem limChange_steps (h : s.AxSteps t) (l : Lim) : s.AxSteps (t.limChange a l) := by
  unfold State.limChange
  extract_lets x st b d falling e
  have hb : s.AxSteps b := h.updAx
  clear_value b
  split
  · split
    · exact planMove_steps hb _
    · exact hb
  · split
    · exact hb
    · split
      · split
        · refine State.AxSteps.raise ?_ _ _ _ _
          exact State.AxSteps.trans (hb.updAx (a := a) (f := fun y => { y with held := true }))
            ⟨fun _ hn => hn, fun o ho => getR_latchF_ne _ _ fun e => not_axCfg_status a (show axCfg (F.MOV_AX_STATUS_LIMIT_DEFERRED a).off from e ▸ ho), rfl⟩
        · exact planMove_steps hb _
      · split
        · split
          · exact hb
          · exact setPlan_steps hb _ _
        · split
          · split
            · exact hb
            · exact setPlan_steps hb _ _
          · split
            · exact setPlan_steps hb _ _
            · exact hb

theorem limPins_steps (h : s.AxSteps t) : s.AxSteps (t.limPins a) := (h.putSt _).putSt _

theorem limTrip_steps (h : s.AxSteps t) : s.AxSteps (t.limTrip a) := by
  unfold State.limTrip
  extract_lets x st
  split
  · split
    · exact (axStop_steps h _ _ _).raise _ _ _ _
    · split
      · exact (h.updAx).raise _ _ _ _
      · exact h
  · exact h

theorem axRest_steps (h : s.AxSteps t) (r : Nat) : s.AxSteps (t.axRest a r) := by
  unfold State.axRest
  exact axResult_steps ((setAxState_steps h 0).updAx) r

theorem beginMove_steps (h : s.AxSteps t) (w : Word) (n : Nat) : s.AxSteps (t.beginMove a w n) := by
  unfold State.beginMove
  extract_lets b
  exact planMove_steps (setAxState_steps (h.updAx) 1) n

theorem beginJog_steps (h : s.AxSteps t) (u : Int) (n : Nat) : s.AxSteps (t.beginJog a u n) := by
  unfold State.beginJog
  extract_lets x segs
  exact setPlan_steps (h.updAx) _ n

theorem beginSegment_steps (h : s.AxSteps t) (n : Nat) : s.AxSteps (t.beginSegment a n) := by
  unfold State.beginSegment
  extract_lets x dur goal d
  split
  · exact axResult_steps (setAxState_steps (setPlan_steps (h.updAx) _ _) 2) 1
  · exact (setPlan_steps h _ _).updAx

theorem homeStage_steps (h : s.AxSteps t) (k : HomeStage) (n : Nat) : s.AxSteps (t.homeStage a k n) := by
  unfold State.homeStage
  extract_lets b v1 v2
  have hb : s.AxSteps b := h.updAx
  clear_value b
  split
  · exact beginJog_steps hb _ _
  · exact beginJog_steps hb _ _
  · exact beginJog_steps hb _ _
  · exact setPlan_steps hb _ _

theorem axSupplant_steps (h : s.AxSteps t) : s.AxSteps (t.axSupplant a) := by
  unfold State.axSupplant
  split
  · exact axResult_steps h 2
  · exact h

theorem axMotion_steps (h : s.AxSteps t) (c : AxCmd) : s.AxSteps (t.axMotion a c) := by
  unfold State.axMotion
  extract_lets energise t0 b x first count d e g
  have hb : s.AxSteps b := (h.putSt _).updAx
  have hd : s.AxSteps d := (axSupplant_steps hb).updAx
  have hg : s.AxSteps g := State.AxSteps.putSt ((axSupplant_steps hb).updAx) _
  clear_value b d g
  split
  · exact axResult_steps hb 3
  · split
    · exact beginMove_steps (axSupplant_steps hb) _ _
    · exact beginMove_steps (axSupplant_steps hb) _ _
    · exact beginJog_steps (setAxState_steps ((axSupplant_steps hb).updAx) 2) _ _
    · split
      · exact axResult_steps hb 9
      · exact beginSegment_steps (setAxState_steps hd 3) _
    · split
      · exact axResult_steps hb 1
      · exact beginMove_steps (axSupplant_steps hb) _ _
    · exact homeStage_steps (setAxState_steps hg 5) _ _
    · exact hb

theorem not_axCfg_ofs (a : Fin 20) : ¬ axCfg (R.MOV_AX_OFS a) := not_axCfg (k := 0x40) a rfl (by decide) (by decide) (by omega)

theorem not_axCfg_remain (a : Fin 20) : ¬ axCfg (R.MOV_AX_REMAIN a) := not_axCfg (k := 0x38) a rfl (by decide) (by decide) (by omega)

theorem not_axCfg_superseded (a : Fin 20) : ¬ axCfg (R.MOV_AX_SUPERSEDED a) := not_axCfg (k := 0x6C) a rfl (by decide) (by decide) (by omega)

theorem setPosition_steps (h : s.AxSteps t) (w : Word) : s.AxSteps (t.setPosition a w) := by
  unfold State.setPosition
  split
  · extract_lets d b c
    have hb : s.AxSteps b := by
      simp only [b]
      split
      · exact h.putR _ (not_axCfg_ofs a)
      · exact h
    exact axResult_steps (State.AxSteps.putSt (hb.updAx) _) 1
  · exact axResult_steps h 9

theorem axTake_steps (h : s.AxSteps t) (c : AxCmd) : s.AxSteps (t.axTake a c) := by
  unfold State.axTake
  extract_lets st b
  have hb : s.AxSteps b := by
    simp only [b]
    split
    · exact h.incR _ (not_axCfg_superseded a)
    · exact h
  clear_value b
  split
  · exact axResult_steps h 9
  · split
    · exact setPosition_steps h _
    · split
      · split
        · exact State.AxSteps.putSt (h.updAx) _
        · split
          · exact axResult_steps ((h.putSt _).updAx) 2
          · exact axStop_steps h _ _ _
      · split
        · exact State.AxSteps.putSt (hb.updAx) _
        · exact axMotion_steps h c

theorem homeTick_steps (h : s.AxSteps t) (still : Bool) : s.AxSteps (t.homeTick a still) := by
  unfold State.homeTick
  extract_lets x b d c e
  have hb : s.AxSteps b := by
    simp only [b]
    split
    · split
      · exact h.updAx
      · split
        · exact h.updAx
        · exact h
    · exact h
  have hc : s.AxSteps c := by
    simp only [c]
    split
    · exact hb.putR _ (not_axCfg_ofs a)
    · exact hb
  have he : s.AxSteps e := State.AxSteps.putSt (hc.updAx) _
  clear_value b e
  split
  · split
    · split
      · exact homeStage_steps hb _ _
      · exact hb
    · exact hb
  · split
    · split
      · exact homeStage_steps hb _ _
      · exact axRest_steps (he.putR _ (not_axCfg_remain a)) 8
    · exact hb
  · exact hb

theorem cutSteps_steps (h : s.AxSteps t) : s.AxSteps (t.cutSteps a) := by
  unfold State.cutSteps
  split
  · exact h.updAx
  · exact h

theorem axFault_steps (h : s.AxSteps t) : s.AxSteps (t.axFault a) := by
  unfold State.axFault
  extract_lets b x st c d
  have hb : s.AxSteps b := cutSteps_steps h
  have hc : s.AxSteps c := by
    simp only [c]
    split
    · exact hb.putR _ (not_axCfg_remain a)
    · exact hb
  exact axResult_steps (setAxState_steps (State.AxSteps.putSt (hc.updAx) _) 6) 5

theorem axLeaveFault_steps (h : s.AxSteps t) : s.AxSteps (t.axLeaveFault a) := by
  unfold State.axLeaveFault
  extract_lets b
  have hb : s.AxSteps b := (setAxState_steps h 0).updAx
  split
  · exact hb.putSt _
  · exact hb

theorem faultTick_steps (h : s.AxSteps t) : s.AxSteps (t.faultTick a) := by
  unfold State.faultTick
  extract_lets b
  have hb : s.AxSteps b := by
    simp only [b]
    split
    · exact h.updAx
    · exact h
  split
  · exact axLeaveFault_steps hb
  · exact hb

theorem axReach_steps (h : s.AxSteps t) : s.AxSteps (t.axReach a) := by
  unfold State.axReach
  extract_lets x st e
  split
  · exact h
  · exact h.updAx

theorem advance_steps (h : s.AxSteps t) : s.AxSteps (t.advance a) := by
  unfold State.advance
  extract_lets was b x fin r c
  have hb : s.AxSteps b := axReach_steps h
  have hc : s.AxSteps c := by
    simp only [c]
    split
    · exact hb.updAx
    · exact hb
  clear_value b c
  split
  · split
    · exact axRest_steps (hb.putR _ (not_axCfg_remain a)) 1
    · exact hb
  · split
    · exact axStop_steps hb _ _ _
    · split
      · exact beginSegment_steps hb _
      · exact hb
  · split
    · exact axRest_steps (hb.putR _ (not_axCfg_remain a)) _
    · exact hb
  · exact homeTick_steps hc _
  · exact hb

theorem not_axCfg_stpState (a : Fin 20) : ¬ axCfg (R.MOV_STP_STATE a) := not_axCfg (k := 0xAC) a rfl (by decide) (by decide) (by omega)

theorem stepperRefs_steps (h : s.AxSteps t) (n : Fin 12) (prev : Word) : s.AxSteps (t.stepperRefs a n prev) := by
  have hmot : ∀ (b : State) (f : Motor → Motor), s.AxSteps b → s.AxSteps (b.updMot n f) := fun b f hb =>
    hb.trans ⟨fun _ hn => hn, fun _ _ => rfl, rfl⟩
  unfold State.stepperRefs
  extract_lets
  refine State.AxSteps.putF ?_ _ (not_axCfg_stpState a)
  refine State.AxSteps.putF ?_ _ (not_axCfg_stpState a)
  refine State.AxSteps.putF ?_ _ (not_axCfg_stpState a)
  refine State.AxSteps.putF ?_ _ (not_axCfg_stpState a)
  exact (hmot t _ h).updAx

theorem axUnqueue_steps (h : s.AxSteps t) (c : AxCmd) : s.AxSteps (t.axUnqueue a c) := by
  unfold State.axUnqueue
  split
  · extract_lets b
    have hb : s.AxSteps b := by
      simp only [b]
      split
      · exact h
      · exact h.incR _ (not_axCfg_superseded a)
    exact hb.updAx.putSt _
  · exact h

/-- The evaluation of an axis up to the command it takes. -/
def State.axPrep (s : State) (a : Fin 20) : State :=
  let s := s.limReport a
  let s := s.advance a
  let s := s.updAx a fun x => { x with hist := ((s.tick, s.axPosT0 a) :: x.hist).take 24 }
  let s := s.limPins a
  let s := if s.axState a ≠ 6 ∧ s.axCause a then s.axFault a else s
  let s := if s.axState a = 6 then s.faultTick a else s
  s.limChange a (s.limNow a)

theorem axPrep_steps (h : s.AxSteps t) : s.AxSteps (t.axPrep a) := by
  unfold State.axPrep
  extract_lets b c d e f g
  have he : s.AxSteps e := limPins_steps ((advance_steps (limReport_steps h)).updAx)
  have hf : s.AxSteps f := by
    simp only [f]
    split
    · exact axFault_steps he
    · exact he
  have hg : s.AxSteps g := by
    simp only [g]
    split
    · exact faultTick_steps hf
    · exact hf
  exact limChange_steps hg _

/-- The command that waits, or the one queued behind a stop, is taken. -/
def State.axCommandTake (s : State) (a : Fin 20) : State :=
  let x := s.ax a
  match x.cmd with
  | some op =>
    let c : AxCmd := { op := op, tgt := s.getR (R.MOV_AX_TGT a), jogv := s.getR (R.MOV_AX_JOGV a), seg := s.getR (R.MOV_AX_SEG a) }
    ((s.updAx a fun y => { y with cmd := none }).axUnqueue a c).axTake a c
  | none =>
    (match x.queued with
     | some c => if s.axState a = 0 ∧ x.restAt < s.tick then
         ((s.updAx a fun y => { y with queued := none }).putF (F.MOV_AX_STATUS_PENDING a) 0).axMotion a c else s
     | none => s)

/-- After its taking no command of the axis waits. -/
theorem axCommandTake_steps (h : s.AxSteps t) : s.AxSteps (t.axCommandTake a) ∧ ((t.axCommandTake a).ax a).cmd = none := by
  unfold State.axCommandTake
  extract_lets x
  split
  · extract_lets c
    have hclear : State.AxSteps t (t.updAx a fun y => { y with cmd := none }) := State.AxSteps.updAx (.refl t) fun _ => Or.inr rfl
    refine ⟨axTake_steps (axUnqueue_steps (h.trans hclear) c) c, ?_⟩
    refine (axTake_steps (axUnqueue_steps (State.AxSteps.refl _) c) c).1 a ?_
    rw [ax_updAx_same]
  · rename_i hx
    split
    · rename_i c _
      split
      · have hm : State.AxSteps t (((t.updAx a fun y => { y with queued := none }).putF (F.MOV_AX_STATUS_PENDING a) 0).axMotion a c) :=
          axMotion_steps ((State.AxSteps.refl t).updAx.putSt _) c
        exact ⟨h.trans hm, hm.1 a hx⟩
      · exact ⟨h, hx⟩
    · exact ⟨h, hx⟩

theorem axTick_eq (s : State) (a : Fin 20) (hon : s.axOn a = true) : ∃ t : State, State.AxSteps ((s.axPrep a).axCommandTake a) t ∧ s.axTick a = t := by
  unfold State.axTick
  rw [hon, Bool.not_true, if_neg Bool.false_ne_true]
  extract_lets prev b c d e f g h0 x q j k
  have hk : State.AxSteps q k := axReport_steps (limTrip_steps (.refl q))
  refine ⟨_, ?_, rfl⟩
  change State.AxSteps q _
  split
  · split
    · exact stepperRefs_steps hk _ _
    · exact hk
  · exact hk

/-- The evaluation of one axis: a command of an enabled axis is taken. -/
theorem axTick_steps (s : State) (a : Fin 20) : s.AxSteps (s.axTick a) ∧ (s.axOn a = true → ((s.axTick a).ax a).cmd = none) := by
  by_cases hon : s.axOn a = true
  · obtain ⟨t, ht, he⟩ := axTick_eq s a hon
    obtain ⟨hs, hc⟩ := axCommandTake_steps (axPrep_steps (a := a) (.refl s))
    rw [he]
    exact ⟨hs.trans ht, fun _ => ht.1 a hc⟩
  · have he : s.axTick a = s := by
      unfold State.axTick
      rw [Bool.not_eq_true] at hon
      rw [hon, Bool.not_false, if_pos rfl]
    rw [he]
    exact ⟨.refl s, fun h => absurd h hon⟩

/-- What enables an axis stays while axes are evaluated. -/
theorem State.AxSteps.axOn_eq (h : s.AxSteps t) (a : Fin 20) : t.axOn a = s.axOn a := by
  have hen : t.flag (F.MOV_AX_CFG_EN a) = s.flag (F.MOV_AX_CFG_EN a) := flag_congr (h.2.1 _ (by
    simp only [axCfg, F.MOV_AX_CFG_EN, R.MOV_AX_CFG]
    omega))
  have hty : t.axType a = s.axType a := by
    unfold State.axType
    split
    · refine getF_congr (h.2.1 _ ?_)
      simp only [axCfg, F.MOT_CFG_TYPE, R.MOT_CFG]
      omega
    · rfl
  rw [State.axOn, hen, State.isServo, State.isStepper, hty, State.axOn, State.isServo, State.isStepper]

theorem stopAxes_steps (s : State) : s.AxSteps s.stopAxes := by
  unfold State.stopAxes
  split
  · extract_lets x b
    have hb : s.AxSteps b := ⟨fun _ hn => hn, fun _ _ => rfl, rfl⟩
    refine State.AxSteps.foldl _ hb fun c a => ?_
    extract_lets st
    split
    · exact axHalt_steps (.refl c)
    · exact .refl c
  · exact .refl s

/-- The evaluation of the axes in their order takes the command of each that is enabled. -/
theorem axTicks_take (l : List (Fin 20)) (s : State) : s.AxSteps (l.foldl State.axTick s)
    ∧ ∀ a ∈ l, s.axOn a = true → ((l.foldl State.axTick s).ax a).cmd = none := by
  induction l generalizing s with
  | nil => exact ⟨.refl s, fun a h => absurd h (List.not_mem_nil)⟩
  | cons b r ih =>
    obtain ⟨hb, hc⟩ := axTick_steps s b
    obtain ⟨hr, hcr⟩ := ih (s.axTick b)
    refine ⟨hb.trans hr, fun a ha hon => ?_⟩
    obtain rfl | ha := List.mem_cons.1 ha
    · exact hr.1 a (hc hon)
    · exact hcr a ha ((hb.axOn_eq a).trans hon)

/-- Axes that are off are not evaluated. -/
theorem axTicks_off (l : List (Fin 20)) (h : ∀ a, s.axOn a = false) : l.foldl State.axTick s = s := by
  induction l with
  | nil => rfl
  | cons b r ih =>
    have he : s.axTick b = s := by
      unfold State.axTick
      rw [h b, Bool.not_false, if_pos rfl]
    rw [List.foldl_cons, he, ih]

end Sys2Proof.Machine

end

/-! ## Axes and jam windows: their commands (R311, R315, R316, R324, R325, R330, R331) -/

section

namespace Sys2Proof.Machine

variable {s : State} {a : Fin 20}

/-! ### Axis commands -/

theorem axCommand_waits (s : State) (a : Fin 20) (op : Nat) : ((s.axCommand a op).ax a).cmd = some op
    ∧ (∀ b, b ≠ a → (s.axCommand a op).ax b = s.ax b) ∧ ((s.ax a).cmd = none → (s.axCommand a op).regs = s.regs)
    ∧ ((s.ax a).cmd ≠ none → (s.axCommand a op).getR (R.MOV_AX_SUPERSEDED a) = (s.incR (R.MOV_AX_SUPERSEDED a) 1).getR (R.MOV_AX_SUPERSEDED a)) := by
  unfold State.axCommand
  extract_lets c
  have hc : (∀ b, c.ax b = s.ax b) ∧ ((s.ax a).cmd = none → c.regs = s.regs)
      ∧ ((s.ax a).cmd ≠ none → c.getR (R.MOV_AX_SUPERSEDED a) = (s.incR (R.MOV_AX_SUPERSEDED a) 1).getR (R.MOV_AX_SUPERSEDED a)) := by
    simp only [c]
    split
    · rename_i h
      exact ⟨fun _ => rfl, fun hn => by simp [hn] at h, fun _ => rfl⟩
    · rename_i h
      exact ⟨fun _ => rfl, fun _ => rfl, fun hn => absurd (Option.isSome_iff_ne_none.2 hn) h⟩
  clear_value c
  obtain ⟨hax, hn, hs⟩ := hc
  exact ⟨by rw [ax_updAx_same], fun b hb => (ax_updAx_ne c _ hb).trans (hax b), hn, fun h => (updAx_getR ..).trans (hs h)⟩

theorem undefinedAxisCommand_discarded (p : Port) {op : BitVec 4} (h : op.toNat = 0 ∨ 8 < op.toNat) :
    Leads s (.undefinedAxisCommand p a op) fun t => t.Arisen Ev.MOV_BAD_CMD a ∧ t.axis = s.axis ∧ t.regs = s.regs :=
  ⟨_, congrArg Host.Outcome.next (if_pos h), arisen_raise .., rfl, rfl⟩

/-! ### Ends of motions -/

theorem setAxState_state (s : State) (a : Fin 20) {v : Nat} (hv : v < 16) : (s.setAxState a v).axState a = v := by
  unfold State.setAxState State.axState
  rw [getF_putF_same _ _ _ (by simp [F.MOV_AX_STATUS_STATE])]
  exact Nat.mod_eq_of_lt hv

theorem axStop_stops (s : State) (a : Fin 20) (hard keep : Bool) (r : Nat) :
    (s.axStop a hard keep r).axState a = 4 ∧ ((s.axStop a hard keep r).ax a).stopRes = r := by
  unfold State.axStop
  extract_lets x d segs b
  refine ⟨setAxState_state b a (by decide), ?_⟩
  change (b.ax a).stopRes = r
  simp only [b, ax_updAx_same]

theorem moveTimeout_stops (h1 : s.axState a = 1) (h0 : s.getF (F.MOV_AX_TMO a) ≠ 0) (ht : (s.ax a).began + s.getF (F.MOV_AX_TMO a) ≤ s.tick) :
    Leads s (.moveTimeout a) fun t => t.axState a = 4 ∧ (t.ax a).stopRes = 7 ∧ t.Arisen Ev.MOV_TIMEOUT a := by
  obtain ⟨hs, hr⟩ := axStop_stops s a false (s.axState a == 1) 7
  exact ⟨_, congrArg Host.Outcome.next (if_pos ⟨Or.inl h1, h0, ht⟩), hs, hr, arisen_raise ..⟩

theorem axStatus_block (a : Fin 20) : R.MOV_AX_STATUS a / 65536 = 0xC := by
  simp only [R.MOV_AX_STATUS]
  omega

/-- The state of an axis at rest, before its result is shown. -/
def State.axAtRest (s : State) (a : Fin 20) : State :=
  (s.setAxState a 0).updAx a fun x => { x with v := 0, a := 0, segs := [], held := false, home := none, restAt := s.tick }

theorem axAtRest_frame (s : State) (a : Fin 20) : (s.axAtRest a).getF (F.MOV_AX_STATUS_STATE a) = 0
    ∧ (s.axAtRest a).flag (F.MOV_AX_STATUS_HOMED a) = s.flag (F.MOV_AX_STATUS_HOMED a)
    ∧ (s.axAtRest a).getR (R.MOV_AX_REMAIN a) = s.getR (R.MOV_AX_REMAIN a) ∧ ∀ id n, s.Arisen id n → (s.axAtRest a).Arisen id n := by
  refine ⟨?_, ?_, ?_, fun _ _ h => h.of_eq rfl rfl⟩
  · exact (updAx_getF ..).trans (setAxState_state s a (by decide))
  · exact (flag_eq_of_getF (updAx_getF ..)).trans (flag_putF_apart _ (by simp [Fld.Apart, F.MOV_AX_STATUS_HOMED, F.MOV_AX_STATUS_STATE]))
  · exact (updAx_getR ..).trans (getR_putF_ne _ _ _ _ (by simp [F.MOV_AX_STATUS_STATE, R.MOV_AX_REMAIN, R.MOV_AX_STATUS]))

/-- The end of a motion: the axis is IDLE with its result; events, REMAIN and the rest of MOV_AX_STATUS stay. -/
theorem axRest_rests (s : State) (a : Fin 20) {r : Nat} (hr : r < 16) : (s.axRest a r).axState a = 0
    ∧ (s.axRest a r).getF (F.MOV_AX_STATUS_RESULT a) = r ∧ (s.axRest a r).flag (F.MOV_AX_STATUS_HOMED a) = s.flag (F.MOV_AX_STATUS_HOMED a)
    ∧ (s.axRest a r).getR (R.MOV_AX_REMAIN a) = s.getR (R.MOV_AX_REMAIN a) ∧ ∀ id n, s.Arisen id n → (s.axRest a r).Arisen id n := by
  have heq : s.axRest a r = ((s.axAtRest a).putF (F.MOV_AX_STATUS_RESULT a) r).fire 0x07 a := rfl
  obtain ⟨hb, hh, hrem, he⟩ := axAtRest_frame s a
  rw [heq]
  generalize s.axAtRest a = b at hb hh hrem he
  have hw := fire_within (b.putF (F.MOV_AX_STATUS_RESULT a) r) 0x07 a false
  have hst : ∀ f : Fld, f.off = R.MOV_AX_STATUS a → f.off / 65536 ∉ [2] := fun f hf => by simp [hf, axStatus_block]
  refine ⟨?_, ?_, ?_, ?_, fun id n h => fire_arisen _ _ _ ((he id n h).of_eq rfl rfl)⟩
  · rw [State.axState, hw.getF _ (hst _ rfl), getF_putF_apart _ (by simp [Fld.Apart, F.MOV_AX_STATUS_STATE, F.MOV_AX_STATUS_RESULT])]
    exact hb
  · rw [hw.getF _ (hst _ rfl), getF_putF_same _ _ _ (by simp [F.MOV_AX_STATUS_RESULT])]
    exact Nat.mod_eq_of_lt hr
  · rw [hw.flag _ (hst _ rfl), flag_putF_apart _ (by simp [Fld.Apart, F.MOV_AX_STATUS_HOMED, F.MOV_AX_STATUS_RESULT])]
    exact hh
  · rw [hw (R.MOV_AX_REMAIN a) (by simp [R.MOV_AX_REMAIN]; omega),
      getR_putF_ne _ _ _ _ (by simp [F.MOV_AX_STATUS_RESULT, R.MOV_AX_REMAIN, R.MOV_AX_STATUS])]
    exact hrem

/-- The report of an axis writes MOV_AX_PCMD, VCMD and ACMD alone. -/
theorem axReport_frame (s : State) (a : Fin 20) : (∃ r, s.axReport a = { s with regs := r })
    ∧ ∀ o, o ≠ R.MOV_AX_PCMD a → o ≠ R.MOV_AX_VCMD a → o ≠ R.MOV_AX_ACMD a → (s.axReport a).getR o = s.getR o := by
  unfold State.axReport
  exact ⟨⟨_, rfl⟩, fun o hp hv ha => ((getR_putR_ne _ _ ha).trans (getR_putR_ne _ _ hv)).trans (getR_putR_ne _ _ hp)⟩

theorem stallDetect_ends (hstp : s.isStepper a = true) (hst : s.getF (F.MOV_STP_CFG_STALLT a) ≤ (s.ax a).stall) (h1 : 1 ≤ (s.ax a).stall)
    (hs : s.axState a = 1) : Leads s (.stallDetect a) fun t => t.axState a = 0 ∧ t.getF (F.MOV_AX_STATUS_RESULT a) = 4 ∧ t.Arisen Ev.MOV_STALL a
      ∧ t.flag (F.MOV_AX_STATUS_HOMED a) = false ∧ t.getR (R.MOV_AX_REMAIN a) = (s.ax a).target - (s.ax a).pcmd := by
  have hr : (if s.axState a = 1 ∨ (s.axState a = 4 ∧ (s.ax a).keep) then (s.ax a).target - (s.ax a).pcmd else 0#32) = (s.ax a).target - (s.ax a).pcmd :=
    if_pos (Or.inl hs)
  let b := (((s.putF (F.MOV_AX_STATUS_HOMED a) 0).putR (R.MOV_AX_REMAIN a) ((s.ax a).target - (s.ax a).pcmd)).updAx a fun y =>
    { y with stall := 0, boost := 0 }).raise Ev.MOV_STALL a
  have hexec : exec (.stallDetect a) s = .next ((b.axRest a 4).axReport a) := by
    refine (congrArg Host.Outcome.next (if_pos ⟨hstp, hst, h1, by omega, by omega⟩)).trans ?_
    rw [hr]
  have hbe : b.Arisen Ev.MOV_STALL a := arisen_raise ..
  have hbh : b.flag (F.MOV_AX_STATUS_HOMED a) = false := by
    change ((s.putF (F.MOV_AX_STATUS_HOMED a) 0).putR (R.MOV_AX_REMAIN a) ((s.ax a).target - (s.ax a).pcmd)).flag _ = false
    rw [flag_congr (getR_putR_ne _ _ (by simp [F.MOV_AX_STATUS_HOMED, R.MOV_AX_STATUS, R.MOV_AX_REMAIN])),
      flag_putF_same _ _ _ (by simp [F.MOV_AX_STATUS_HOMED])]
    rfl
  have hbr : b.getR (R.MOV_AX_REMAIN a) = (s.ax a).target - (s.ax a).pcmd := getR_putR_same ..
  clear_value b
  obtain ⟨h0, h4, hh, hrem, he⟩ := axRest_rests b a (r := 4) (by decide)
  obtain ⟨⟨r, hrep⟩, hreg⟩ := axReport_frame (b.axRest a 4) a
  have hne : ∀ o, o = R.MOV_AX_STATUS a ∨ o = R.MOV_AX_REMAIN a → ((b.axRest a 4).axReport a).getR o = (b.axRest a 4).getR o := fun o ho => by
    refine hreg o ?_ ?_ ?_ <;> obtain rfl | rfl := ho <;>
      simp [R.MOV_AX_STATUS, R.MOV_AX_REMAIN, R.MOV_AX_PCMD, R.MOV_AX_VCMD, R.MOV_AX_ACMD]
  refine ⟨_, hexec, ?_, ?_, ?_, ?_, ?_⟩
  · exact (getF_congr (hne _ (Or.inl rfl))).trans h0
  · exact (getF_congr (hne _ (Or.inl rfl))).trans h4
  · rw [hrep]
    exact (he _ _ hbe).of_eq rfl rfl
  · exact (flag_congr (hne _ (Or.inl rfl))).trans (hh.trans hbh)
  · exact (hne _ (Or.inr rfl)).trans (hrem.trans hbr)

theorem standstill_shown (hon : s.axOn a = true) (h0 : s.axState a = 0) (hc : (s.ax a).cmd = none) (hq : (s.ax a).queued = none)
    (ht : (s.ax a).restAt + s.getF (F.MOV_AX_CFG_STILL_T a) ≤ s.tick) :
    Leads s (.standstillMode a) fun t => t.flag (F.MOV_AX_STATUS_STILL_ON a) = true ∧ t.axis = s.axis := by
  refine ⟨_, congrArg Host.Outcome.next (if_pos ⟨hon, h0, hc, hq, ht⟩), ?_, rfl⟩
  rw [flag_putF_same _ _ _ (by simp [F.MOV_AX_STATUS_STILL_ON])]
  rfl

/-! ### Limits (R316) -/

theorem limitWrite_taken (p : Port) {k : Fin 5} {w : Word} (hok : limOk k w = true) (hk : k.val ≠ 4) :
    Leads s (.limitWrite p a k w) fun t => t = s.putR (limReg a k) w :=
  ⟨_, congrArg Host.Outcome.next ((if_pos hok).trans (if_neg hk)), rfl⟩

theorem limitWrite_refused (p : Port) {k : Fin 5} {w : Word} (hok : limOk k w = false) :
    Leads s (.limitWrite p a k w) fun t => t.Arisen Ev.MOV_BAD_LIMIT a ∧ t.regs = s.regs ∧ t.stage = s.stage :=
  ⟨_, congrArg Host.Outcome.next (if_neg (by simp [hok])), arisen_raise .., rfl, rfl⟩

/-! ### Jam windows (R330, R331) -/

variable {j : Fin 32} {w : Word}

theorem jwStatus_put (s : State) (j : Fin 32) {v : Nat} (hv : v < 8) : (s.putF (F.MOV_JW_STATUS j) v).getF (F.MOV_JW_STATUS j) = v := by
  rw [getF_putF_same _ _ _ (by simp [F.MOV_JW_STATUS])]
  exact Nat.mod_eq_of_lt hv

theorem jwArm_arms (p : Port) (h0 : w.getLsbD 0 = true) (h1 : w.getLsbD 1 = false) (hlt : s.getF (F.MOV_JW_TIME_OPEN j) < s.getF (F.MOV_JW_TIME_CLOSE j)) :
    Leads s (.jwArm p j w) fun t => t.getF (F.MOV_JW_STATUS j) = 1 ∧ (t.jam[j]).opens = s.tick * 4000 + 4000 * s.getF (F.MOV_JW_TIME_OPEN j)
      ∧ (t.jam[j]).closes = s.tick * 4000 + 4000 * s.getF (F.MOV_JW_TIME_CLOSE j) ∧ (t.jam[j]).sn = s.getF (F.MOV_JW_CFG_SN j) := by
  refine ⟨_, congrArg Host.Outcome.next ((if_pos h0).trans ((if_pos ?_).trans (if_neg (Nat.not_le.2 hlt)))), jwStatus_put _ j (by decide), ?_⟩
  · rw [h0, h1]
    rfl
  · extract_lets c e f g x
    have hx : (f.putF (F.MOV_JW_STATUS j) 1).jam[j] = e := Vector.getElem_set_self ..
    rw [hx]
    exact ⟨rfl, rfl, rfl⟩

theorem jwArm_refused (p : Port) (h0 : w.getLsbD 0 = true) (h1 : w.getLsbD 1 = false) (hle : s.getF (F.MOV_JW_TIME_CLOSE j) ≤ s.getF (F.MOV_JW_TIME_OPEN j)) :
    Leads s (.jwArm p j w) fun t => t.Arisen Ev.MOV_BAD_WINDOW j ∧ t.jam = s.jam := by
  refine ⟨_, congrArg Host.Outcome.next ((if_pos h0).trans ((if_pos ?_).trans (if_pos hle))), arisen_raise .., rfl⟩
  rw [h0, h1]
  rfl

theorem jwDisarm_disarms (p : Port) (h0 : w.getLsbD 0 = false) (h1 : w.getLsbD 1 = true) (hs : s.getF (F.MOV_JW_STATUS j) = 1) :
    Leads s (.jwDisarm p j w) fun t => t.getF (F.MOV_JW_STATUS j) = 0 ∧ t.jam = s.jam := by
  refine ⟨_, congrArg Host.Outcome.next ((if_pos h1).trans ((if_neg ?_).trans ((if_pos ?_).trans (if_pos hs)))), jwStatus_put _ j (by decide), rfl⟩
  · rw [h0, Bool.false_and]
    exact Bool.false_ne_true
  · rw [h0, h1]
    rfl

theorem jamMiss_shows (s : State) (j : Fin 32) {v : Nat} (hv : v < 8) : (s.jamMiss j v).getF (F.MOV_JW_STATUS j) = v
    ∧ (s.jamMiss j v).Arisen Ev.MOV_JAM_WINDOW j := by
  have hblk : ∀ l : List Nat, 0xC ∉ l → (F.MOV_JW_STATUS j).off / 65536 ∉ l := fun l hl => by
    have h : (F.MOV_JW_STATUS j).off / 65536 = 0xC := by
      simp only [F.MOV_JW_STATUS, R.MOV_JW_STATUS]
      omega
    rwa [h]
  unfold State.jamMiss
  extract_lets x b c
  constructor
  · rw [(gateFollow_within _).getF _ (hblk _ (by decide))]
    refine (getF_congr (getR_putR_ne _ _ ?_)).trans ?_
    · simp only [F.MOV_JW_STATUS, R.MOV_JW_STATUS, R.MOV_JAM_GATE]
      omega
    · rw [State.raise_getF, (fire_within _ _ _ _).getF _ (hblk _ (by decide))]
      exact jwStatus_put s j hv
  · exact (gateFollow_stops _).arisen ((arisen_raise ..).of_eq rfl rfl)

theorem jamWindow_expires (h1 : s.getF (F.MOV_JW_STATUS j) = 1)
    (ht : (s.jam[j]).closes + 200 * s.getF (F.SNS_CFG_FILT (s.jam[j]).sn) < s.tsc.toNat) :
    Leads s (.jamWindowExpired j) fun t => t.getF (F.MOV_JW_STATUS j) = 4 ∧ t.Arisen Ev.MOV_JAM_WINDOW j :=
  ⟨_, congrArg Host.Outcome.next (if_pos ⟨h1, ht⟩), jamMiss_shows s j (by decide)⟩

/-! ### The evaluation of a tick (R310) -/

theorem mangle_once (h : s.brg.mangleTick = some s.tick) : Leads s .mangleEvaluation fun t => t = s :=
  ⟨_, congrArg Host.Outcome.next (if_pos h), rfl⟩

/-- The state with the evaluation of its tick noted. -/
def State.mangleNoted (s : State) : State := { s with brg := { s.brg with mangleTick := some s.tick } }

theorem exec_mangleEvaluation (h : s.brg.mangleTick ≠ some s.tick) :
    exec .mangleEvaluation s = .next ((List.finRange 20).foldl State.axTick s.mangleNoted.stopAxes) :=
  congrArg Host.Outcome.next (if_neg h)

theorem mangle_takes (h : s.brg.mangleTick ≠ some s.tick) (hon : s.axOn a = true) :
    Leads s .mangleEvaluation fun t => (t.ax a).cmd = none ∧ t.brg.mangleTick = some s.tick := by
  have hs := stopAxes_steps s.mangleNoted
  obtain ⟨hf, hc⟩ := axTicks_take (List.finRange 20) s.mangleNoted.stopAxes
  refine ⟨_, exec_mangleEvaluation h, hc a (List.mem_finRange a) ((hs.axOn_eq a).trans hon), ?_⟩
  rw [hf.2.2, hs.2.2]
  rfl

theorem mangle_allOff (h : s.brg.mangleTick ≠ some s.tick) (hoff : ∀ b : Fin 20, s.axOn b = false) (hst : s.chn.stopDue = false) :
    Leads s .mangleEvaluation fun t => t = { s with brg := { s.brg with mangleTick := some s.tick } } := by
  have he : s.mangleNoted.stopAxes = s.mangleNoted := if_neg (by rw [State.mangleNoted, hst]; exact Bool.false_ne_true)
  refine ⟨_, exec_mangleEvaluation h, ?_⟩
  beta_reduce
  rw [he, axTicks_off (s := s.mangleNoted) _ fun b => hoff b]
  rfl

/-- Settles O48: each command is one case of its definition; an evaluation only takes commands, and never changes what enables an
axis. -/
theorem axesAndJamWindowsObeyTheirCommands : Obligations.AxesAndJamWindowsObeyTheirCommands := by
  intro s p a
  refine ⟨fun i op hi => ?_, fun _ => undefinedAxisCommand_discarded p, moveTimeout_stops, stallDetect_ends, standstill_shown,
    fun k w => ⟨limitWrite_taken p, limitWrite_refused p⟩,
    fun j w => ⟨jwArm_arms p, jwArm_refused p, jwDisarm_disarms p, jamWindow_expires⟩, mangle_once, mangle_takes, mangle_allOff⟩
  obtain ⟨rfl, rfl⟩ | ⟨rfl, rfl⟩ | ⟨rfl, rfl⟩ | ⟨rfl, rfl⟩ | ⟨rfl, rfl⟩ | ⟨rfl, rfl⟩ | ⟨rfl, rfl⟩ | ⟨rfl, rfl⟩ := hi
  all_goals exact ⟨_, rfl, axCommand_waits s a _⟩

end Sys2Proof.Machine

end

/-! ## Motor channels: commands during an engine reset (R289, R290) -/

section

namespace Sys2Proof.Machine

/-- An engine reset is under way, and motor channel 0 is stopping with no enable kept. -/
def stoppingInReset : State := (State.reset.putF F.DEV_STATE_STATE 5).putF (F.MOT_STATUS_STATE 0) 3

/-- Refutes O49: during an engine reset ENABLE is without effect, so a stopping channel keeps none. -/
theorem not_motorChannelsEnableDisableAndStop : ¬ Obligations.MotorChannelsEnableDisableAndStop := by
  intro h
  obtain ⟨-, -, -, henable, -⟩ := h stoppingInReset 0
  obtain ⟨t, he, hpending, -⟩ := (henable .host 1#32 (by decide) (by decide)).2 (by decide)
  cases he
  exact absurd hpending (by decide)

end Sys2Proof.Machine

end

/-! ## The control engine: list, test signals and capture (R333, R339 to R341, R344 to R346) -/

section

namespace Sys2Proof.Machine

variable {s : State}

/-! ### The slot list (R333, R341) -/

theorem slotList_once (h : s.cle.listTick = some s.tick) : Leads s .slotList fun t => t = s :=
  ⟨_, congrArg Host.Outcome.next (if_pos h), rfl⟩

theorem keepRefs_frame (s : State) : ∃ b, s.keepRefs = { s with brg := b } := by
  unfold State.keepRefs
  split <;> exact ⟨_, rfl⟩

/-- From `s` to `t` only words of slots' registers and of the capture's have changed. -/
def State.Quiets (s t : State) : Prop := (∃ r, t = { s with regs := r }) ∧ t.getR R.CLE_STATUS = s.getR R.CLE_STATUS

theorem State.Quiets.refl (s : State) : s.Quiets s := ⟨⟨_, rfl⟩, rfl⟩

theorem State.Quiets.trans {a t : State} (h : s.Quiets a) (h' : a.Quiets t) : s.Quiets t := by
  obtain ⟨⟨r, rfl⟩, hr⟩ := h
  obtain ⟨⟨r', rfl⟩, hr'⟩ := h'
  exact ⟨⟨_, rfl⟩, hr'.trans hr⟩

theorem State.Quiets.putR (s : State) (o : Nat) (w : Word) (h : R.CLE_STATUS ≠ o) : s.Quiets (s.putR o w) := ⟨⟨_, rfl⟩, getR_putR_ne _ _ h⟩

theorem State.Quiets.putF (s : State) (f : Fld) (v : Nat) (h : R.CLE_STATUS ≠ f.off) : s.Quiets (s.putF f v) := .putR s _ _ h

theorem State.Quiets.foldl {α : Type} (l : List α) {f : State → α → State} (hf : ∀ b x, State.Quiets b (f b x)) (s : State) :
    s.Quiets (l.foldl f s) := by
  induction l generalizing s with
  | nil => exact .refl s
  | cons x r ih => exact (hf s x).trans (ih (f s x))

theorem cleQuiet_quiets (s : State) : s.Quiets s.cleQuiet := by
  unfold State.cleQuiet State.forEach
  refine State.Quiets.trans (.foldl _ (fun b i => .putR b _ _ ?_) s) (.foldl _ (fun b n => ?_) _)
  · simp only [R.CLE_STATUS, R.CLE_CLAMP_SUM]
    omega
  · extract_lets w
    split
    · exact .refl b
    · refine .putR b _ _ ?_
      simp only [R.CLE_STATUS, R.CLE_SLOT_CTRL]
      omega

theorem capStop_quiets (s : State) : s.Quiets s.capStop := by
  unfold State.capStop
  extract_lets st c n b
  split
  · exact (((State.Quiets.putF s _ _ (by decide)).trans (.putF _ _ _ (by decide))).trans (.putF _ _ _ (by decide))).trans (.putF _ _ _ (by decide))
  · exact .refl s

theorem slotList_suspended (h : s.cle.listTick ≠ some s.tick) (hs : s.cleSuspended = true) :
    Leads s .slotList fun t => t.flag F.CLE_STATUS_SUSP = true ∧ t.flag F.CLE_STATUS_RUN = false ∧ t.cle.listTick = some s.tick
      ∧ t.cle.slot = s.cle.slot := by
  obtain ⟨b, hb⟩ := keepRefs_frame s
  let a : State := { s.keepRefs with cle := { s.cle with listTick := some s.tick } }
  have hsa : a.cleSuspended = true := by
    simp only [a, hb]
    exact hs
  let c := (a.putB F.CLE_STATUS_SUSP a.cleSuspended).putB F.CLE_STATUS_RUN (!a.cleSuspended)
  have hexec : exec .slotList s = .next c.cleQuiet.capStop := congrArg Host.Outcome.next ((if_neg h).trans (if_pos hsa))
  obtain ⟨⟨r, hq⟩, hr⟩ := (cleQuiet_quiets c).trans (capStop_quiets _)
  have hcs : c.flag F.CLE_STATUS_SUSP = true := by
    simp only [c, hsa, State.putB]
    rw [flag_putF_apart _ (by simp [Fld.Apart, F.CLE_STATUS_SUSP, F.CLE_STATUS_RUN]), flag_putF_same _ _ _ (by simp [F.CLE_STATUS_SUSP])]
    rfl
  have hcr : c.flag F.CLE_STATUS_RUN = false := by
    simp only [c, hsa]
    exact flag_putB_same _ _ _ (by simp [F.CLE_STATUS_RUN]) (by simp [F.CLE_STATUS_RUN])
  refine ⟨_, hexec, (flag_congr hr).trans hcs, (flag_congr hr).trans hcr, ?_, ?_⟩
  · rw [hq]
    rfl
  · rw [hq]
    rfl

/-! ### Slots (R339, R340) -/

@[simp] theorem slotOf_updSlot_same (s : State) (n : Fin 256) (f : Slot → Slot) : (s.updSlot n f).slotOf n = f (s.slotOf n) := by
  simp [State.slotOf, State.updSlot]

theorem slotOf_updSlot_ne (s : State) {n m : Fin 256} (f : Slot → Slot) (h : m ≠ n) : (s.updSlot n f).slotOf m = s.slotOf m := by
  have : (n : Nat) ≠ (m : Nat) := fun e => h (Fin.ext e.symm)
  simp [State.slotOf, State.updSlot, this]

theorem slotReset_restarts (s : State) (p : Port) (n : Fin 256) :
    Leads s (.slotReset p n) fun t => (t.slotOf n).restart = true ∧ (∀ m, m ≠ n → t.slotOf m = s.slotOf m) ∧ t.regs = s.regs :=
  ⟨_, rfl, by rw [slotOf_updSlot_same], fun _ hm => slotOf_updSlot_ne s _ hm, rfl⟩

theorem slotReload_notes (s : State) (p : Port) (n : Fin 256) : Leads s (.slotReload p n) fun t => s.tick ∈ (t.slotOf n).reload
    ∧ (∀ k ∈ (s.slotOf n).reload, k ∈ (t.slotOf n).reload) ∧ (∀ m, m ≠ n → t.slotOf m = s.slotOf m) ∧ t.regs = s.regs := by
  have hr : ((s.slotReload n).slotOf n).reload = (s.slotOf n).reload.filter (· != s.tick) ++ [s.tick] := by
    rw [State.slotReload, slotOf_updSlot_same]
  refine ⟨s.slotReload n, rfl, ?_, fun k hk => ?_, fun _ hm => slotOf_updSlot_ne s _ hm, rfl⟩
  · rw [hr]
    exact List.mem_append_right _ (List.mem_singleton_self _)
  · rw [hr]
    by_cases h : k = s.tick
    · exact List.mem_append_right _ (List.mem_singleton.2 h)
    · exact List.mem_append_left _ (List.mem_filter.2 ⟨hk, by simpa using h⟩)

/-! ### Injections (R344) -/

theorem inj_updInj_same (s : State) (g : Fin 2) (f : Inject → Inject) : (s.updInj g f).cle.inj[g] = f s.cle.inj[g] := by
  simp [State.updInj]

/-- An injection ends. -/
def State.injStop (s : State) (g : Fin 2) : State :=
  ((s.updInj g fun x => { x with startAt := none }).putF (F.CLE_INJ_STATUS_RUN g) 0).putR (R.CLE_INJ_VAL g) 0#32

theorem injStop_stops (s : State) (g : Fin 2) : ((s.injStop g).cle.inj[g]).startAt = none ∧ (s.injStop g).flag (F.CLE_INJ_STATUS_RUN g) = false
    ∧ (s.injStop g).getR (R.CLE_INJ_VAL g) = 0#32 := by
  refine ⟨?_, ?_, getR_putR_same ..⟩
  · change ((s.updInj g fun x => { x with startAt := none }).cle.inj[g]).startAt = none
    rw [inj_updInj_same]
  · rw [State.injStop, flag_congr (getR_putR_ne _ _ (by simp [F.CLE_INJ_STATUS_RUN, R.CLE_INJ_STATUS, R.CLE_INJ_VAL])),
      flag_putF_same _ _ _ (by simp [F.CLE_INJ_STATUS_RUN])]
    rfl

theorem injCtrl_go {g : Fin 2} {w : Word} (h0 : w.getLsbD 0 = true) (h1 : w.getLsbD 1 = false) :
    s.injCtrl g w = s.updInj g fun _ => { startAt := some (s.tick + 1) } := by
  rw [State.injCtrl, h0, h1]
  exact if_pos rfl

theorem injCtrl_stop {g : Fin 2} {w : Word} (h0 : w.getLsbD 0 = false) (h1 : w.getLsbD 1 = true) : s.injCtrl g w = s.injStop g := by
  rw [State.injCtrl, h0, h1]
  exact (if_neg Bool.false_ne_true).trans (if_pos rfl)

theorem injCtrl_both {g : Fin 2} {w : Word} (h0 : w.getLsbD 0 = true) (h1 : w.getLsbD 1 = true) : s.injCtrl g w = s := by
  rw [State.injCtrl, h0, h1]
  exact (if_neg Bool.false_ne_true).trans (if_neg Bool.false_ne_true)

theorem injectionGo_starts (p : Port) {g : Fin 2} {w : Word} (h0 : w.getLsbD 0 = true) (h1 : w.getLsbD 1 = false) :
    Leads s (.injectionGo p g w) fun t => (t.cle.inj[g]).startAt = some (s.tick + 1) := by
  refine ⟨_, congrArg Host.Outcome.next ((if_pos h0).trans (injCtrl_go h0 h1)), ?_⟩
  beta_reduce
  rw [inj_updInj_same]

theorem injectionStop_stops (p : Port) {g : Fin 2} {w : Word} (h0 : w.getLsbD 0 = false) (h1 : w.getLsbD 1 = true) :
    Leads s (.injectionStop p g w) fun t =>
      (t.cle.inj[g]).startAt = none ∧ t.flag (F.CLE_INJ_STATUS_RUN g) = false ∧ t.getR (R.CLE_INJ_VAL g) = 0#32 :=
  ⟨_, congrArg Host.Outcome.next ((if_pos h1).trans (injCtrl_stop h0 h1)), injStop_stops s g⟩

theorem injection_discarded (p : Port) {g : Fin 2} {w : Word} (h0 : w.getLsbD 0 = true) (h1 : w.getLsbD 1 = true) :
    (Leads s (.injectionGo p g w) fun t => t = s) ∧ Leads s (.injectionStop p g w) fun t => t = s :=
  ⟨⟨_, congrArg Host.Outcome.next ((if_pos h0).trans (injCtrl_both h0 h1)), rfl⟩,
    ⟨_, congrArg Host.Outcome.next ((if_pos h1).trans (injCtrl_both h0 h1)), rfl⟩⟩

theorem injectionEnd_ends {g : Fin 2} {n : Nat} (h : (s.cle.inj[g]).startAt = some n) (ht : n + s.getF (F.CLE_INJ_LEN_LEN g) ≤ s.tick) :
    Leads s (.injectionEnd g) fun t =>
      (t.cle.inj[g]).startAt = none ∧ t.flag (F.CLE_INJ_STATUS_RUN g) = false ∧ t.getR (R.CLE_INJ_VAL g) = 0#32 := by
  refine ⟨s.injStop g, ?_, injStop_stops s g⟩
  change execInjectionEnd .. = _
  unfold execInjectionEnd
  rw [h]
  exact congrArg Host.Outcome.next (if_pos ht)

/-! ### Capture (R345, R346) -/

theorem capArm_arms (s : State) : s.capArm.getF F.CLE_CAP_STATUS_STATE = 1 ∧ s.capArm.cle.cap.pos = 0 ∧ s.capArm.cle.cap.total = 0
    ∧ s.capArm.getF F.CLE_CAP_COUNT = 0 ∧ s.capArm.flag F.CLE_CAP_STATUS_STOPPED = false ∧ s.capArm.cle.cap.xfer = s.cle.cap.xfer := by
  unfold State.capArm
  extract_lets c a b
  have hb : b.getF F.CLE_CAP_STATUS_STATE = 1 ∧ b.flag F.CLE_CAP_STATUS_STOPPED = false := by
    constructor
    · refine (getF_putF_apart _ (by simp [Fld.Apart, F.CLE_CAP_STATUS_STATE, F.CLE_CAP_STATUS_STOPPED])).trans ?_
      rw [getF_putF_same _ _ _ (by decide)]
      rfl
    · refine (flag_putF_same _ _ _ (by decide)).trans ?_
      rfl
  have hcap : b.cle.cap = { s.cle.cap with pos := 0, total := 0, left := none, prev := none, armWait := false } := rfl
  clear_value b
  obtain ⟨hs, hst⟩ := hb
  refine ⟨?_, by rw [State.putF_cle, State.putF_cle, hcap], by rw [State.putF_cle, State.putF_cle, hcap], ?_, ?_,
    by rw [State.putF_cle, State.putF_cle, hcap]⟩
  · rw [getF_putF_off _ _ _ _ (by decide), getF_putF_off _ _ _ _ (by decide), hs]
  · rw [getF_putF_off _ _ _ _ (by decide), getF_putF_same _ _ _ (by decide)]
    rfl
  · rw [flag_putF_apart _ (Or.inl (by decide)), flag_putF_apart _ (Or.inl (by decide)), hst]

theorem captureArm_arms (p : Port) {w : Word} (h0 : w.getLsbD 0 = true) (h1 : w.getLsbD 1 = false) (hx : s.cle.cap.xfer = none) :
    Leads s (.captureArm p w) fun t => t.getF F.CLE_CAP_STATUS_STATE = 1 ∧ t.cle.cap.pos = 0 ∧ t.cle.cap.total = 0
      ∧ t.getF F.CLE_CAP_COUNT = 0 ∧ t.flag F.CLE_CAP_STATUS_STOPPED = false := by
  obtain ⟨hs, hp, ht, hc, hst, -⟩ := capArm_arms s
  refine ⟨s.capArm, congrArg Host.Outcome.next ((if_pos h0).trans ?_), hs, hp, ht, hc, hst⟩
  rw [State.capCtrl, h0, h1]
  exact (if_pos rfl).trans (if_neg (by simp [hx]))

theorem captureArm_waits (p : Port) {w : Word} (h0 : w.getLsbD 0 = true) (h1 : w.getLsbD 1 = false) (hx : s.cle.cap.xfer.isSome = true) :
    Leads s (.captureArm p w) fun t => t.cle.cap.armWait = true ∧ t.regs = s.regs := by
  refine ⟨s.setCap { s.cle.cap with armWait := true }, congrArg Host.Outcome.next ((if_pos h0).trans ?_), rfl, rfl⟩
  rw [State.capCtrl, h0, h1]
  exact (if_pos rfl).trans (if_pos hx)

theorem captureStop_stops (p : Port) {w : Word} (h0 : w.getLsbD 0 = false) (h1 : w.getLsbD 1 = true) (hs : s.getF F.CLE_CAP_STATUS_STATE = 1) :
    Leads s (.captureStop p w) fun t => t.getF F.CLE_CAP_STATUS_STATE = 3 ∧ t.flag F.CLE_CAP_STATUS_STOPPED = true
      ∧ t.getF F.CLE_CAP_COUNT = min s.cle.cap.total 65536 := by
  have hexec : exec (.captureStop p w) s = .next s.capStop := by
    refine congrArg Host.Outcome.next ((if_pos h1).trans ?_)
    rw [State.capCtrl, h0, h1]
    exact (if_neg Bool.false_ne_true).trans (if_pos rfl)
  refine ⟨_, hexec, ?_⟩
  unfold State.capStop
  extract_lets st c n b
  rw [if_pos (Or.inl hs)]
  have hb : b.getF F.CLE_CAP_STATUS_STATE = 3 ∧ b.flag F.CLE_CAP_STATUS_STOPPED = true := by
    constructor
    · refine (getF_putF_apart _ (by simp [Fld.Apart, F.CLE_CAP_STATUS_STATE, F.CLE_CAP_STATUS_STOPPED])).trans ?_
      rw [getF_putF_same _ _ _ (by decide)]
      rfl
    · refine (flag_putF_same _ _ _ (by decide)).trans ?_
      rfl
  clear_value b
  refine ⟨?_, ?_, ?_⟩
  · rw [getF_putF_off _ _ _ _ (by decide), getF_putF_off _ _ _ _ (by decide), hb.1]
  · rw [flag_putF_apart _ (Or.inl (by decide)), flag_putF_apart _ (Or.inl (by decide)), hb.2]
  · rw [getF_putF_off _ _ _ _ (by decide), getF_putF_same _ _ _ (by decide)]
    refine Nat.mod_eq_of_lt ?_
    simp only [n, F.CLE_CAP_COUNT]
    omega

end Sys2Proof.Machine

end

/-! ## Transfers of the Racking engine (R125, R128)

What a transfer leaves: the registers outside the blocks of the host interface, the Racking engine and the events, and every part of
the state but the rings, the channels and the event store. -/

section

namespace Sys2Proof.Machine

variable {s t u : State}

/-- The register blocks of the host interface, the Racking engine and the event store. -/
def rackBlocks : List Nat := [3, 4, 0x15]

/-- The completions written to CQ and those that wait for it, in their order and without their phase bits (R109). -/
def HostIf.answers (x : HostIf) : List CqEntry := (x.cq ++ x.cqHeld).map fun e => { e with phase := false }

/-- The host interface without its rings' entries, their room and their messages: what the Racking engine leaves. -/
def HostIf.rest (x : HostIf) : HostIf := { x with
  cq := [], cqReserved := 0, cqFree := 0, stall := Vector.replicate 2 0, cqHeld := [], evr := [], cqUnsig := 0, cqOldest := 0, evrUnsig := 0, evrOldest := 0, msixPend := 0,
  msixSent := Vector.replicate 64 0, resetHeld := 0, evrDue := false }

/-- From `x` to `y` completions that waited and held events have been written to their rings. -/
def HostIf.Turns (x y : HostIf) : Prop := y.rest = x.rest ∧ y.answers = x.answers

theorem HostIf.Turns.refl (x : HostIf) : x.Turns x := ⟨rfl, rfl⟩

theorem HostIf.Turns.trans {x y z : HostIf} (h : x.Turns y) (h' : y.Turns z) : x.Turns z := ⟨h'.1.trans h.1, h'.2.trans h.2⟩

/-- From `s` to `t` the Racking engine has issued transactions and written to rings. -/
def State.RackSteps (s t : State) : Prop :=
  (∃ r h k e, t = { s with regs := r, host := h, rck := k, ev := e }) ∧ State.Within rackBlocks s t
    ∧ (∀ id i, s.Arisen id i → t.Arisen id i) ∧ s.host.Turns t.host

theorem State.RackSteps.refl (s : State) : s.RackSteps s := ⟨⟨_, _, _, _, rfl⟩, .refl _ s, fun _ _ h => h, .refl _⟩

theorem State.RackSteps.trans (h : s.RackSteps t) (h' : t.RackSteps u) : s.RackSteps u := by
  obtain ⟨⟨r, x, k, e, rfl⟩, hw, ha, hx⟩ := h
  obtain ⟨⟨r', x', k', e', rfl⟩, hw', ha', hx'⟩ := h'
  exact ⟨⟨r', x', k', e', rfl⟩, hw.trans hw', fun id i q => ha' id i (ha id i q), hx.trans hx'⟩

theorem State.RackSteps.within (h : s.RackSteps t) : State.Within rackBlocks s t := h.2.1

theorem State.RackSteps.arisen (h : s.RackSteps t) {id : EvId} {i : Nat} (q : s.Arisen id i) : t.Arisen id i := h.2.2.1 id i q

theorem State.RackSteps.turns (h : s.RackSteps t) : s.host.Turns t.host := h.2.2.2

/-- What the engine writes to CQ was an answer before. -/
theorem State.RackSteps.answers (h : s.RackSteps t) : t.answers = s.answers := h.turns.2

theorem State.RackSteps.sqTail (h : s.RackSteps t) : t.host.sqTail = s.host.sqTail := by
  have e := congrArg HostIf.sqTail h.turns.1
  exact e

theorem State.RackSteps.getF (h : s.RackSteps t) (f : Fld) (hf : f.off / 65536 ∉ rackBlocks) : t.getF f = s.getF f := h.within.getF f hf

theorem State.RackSteps.putF (h : s.RackSteps t) {f : Fld} (v : Nat) (hf : f.off / 65536 ∈ rackBlocks) : s.RackSteps (t.putF f v) :=
  h.trans ⟨⟨_, t.host, t.rck, t.ev, rfl⟩, (State.Within.refl _ t).putF v hf, fun _ _ q => q.of_eq rfl rfl, .refl _⟩

theorem State.RackSteps.setHost (h : s.RackSteps t) (x : HostIf) (hx : t.host.Turns x := by exact ⟨rfl, rfl⟩) : s.RackSteps { t with host := x } :=
  h.trans ⟨⟨t.regs, _, t.rck, t.ev, rfl⟩, fun _ _ => rfl, fun _ _ q => q.of_eq rfl rfl, hx⟩

theorem State.RackSteps.setRck (h : s.RackSteps t) (x : Rack) : s.RackSteps { t with rck := x } :=
  h.trans ⟨⟨t.regs, t.host, _, t.ev, rfl⟩, fun _ _ => rfl, fun _ _ q => q.of_eq rfl rfl, .refl _⟩

theorem State.RackSteps.setEv (h : s.RackSteps t) (x : EvStore) (hx : ∀ e ∈ t.ev.arisen, e ∈ x.arisen) : s.RackSteps { t with ev := x } :=
  h.trans ⟨⟨t.regs, t.host, t.rck, _, rfl⟩, fun _ _ => rfl, fun _ _ ⟨e, he, q⟩ => ⟨e, hx e he, q⟩, .refl _⟩

theorem State.RackSteps.arise (h : s.RackSteps t) (e : Event) : s.RackSteps (t.arise e) :=
  h.setEv _ fun _ hx => (mem_insertEvent ..).2 (Or.inr hx)

theorem State.RackSteps.foldl {α : Type} (l : List α) {f : State → α → State} (h : s.RackSteps t)
    (hf : ∀ b, ∀ x ∈ l, State.RackSteps b (f b x)) : s.RackSteps (l.foldl f t) := by
  induction l generalizing t with
  | nil => exact h
  | cons x r ih => exact ih (h.trans (hf t x (List.mem_cons_self ..))) fun b y hy => hf b y (List.mem_cons_of_mem x hy)

theorem signal_rackSteps (h : s.RackSteps t) (v : Nat) : s.RackSteps (t.signal v) := by
  unfold State.signal
  split
  · exact h.setHost _
  · exact h.setHost _

theorem advTail_rackSteps (h : s.RackSteps t) {r : Nat} (hr : r < 4) : s.RackSteps (t.advTail r) := by
  have hp : (F.HIF_RING_PTR_PTR r).off / 65536 ∈ rackBlocks := by
    simp only [F.HIF_RING_PTR_PTR, R.HIF_RING_PTR, rackBlocks, List.mem_cons]
    omega
  unfold State.advTail
  extract_lets n
  split
  · exact (h.putF _ hp).putF _ hp
  · exact h.putF _ hp

theorem coal_rackSteps (h : s.RackSteps t) (evr : Bool) : s.RackSteps (t.coal evr) := by
  unfold State.coal
  extract_lets c k n old n' old'
  split
  · split
    · exact signal_rackSteps (h.setHost _) 2
    · exact h.setHost _
  · split
    · exact signal_rackSteps (h.setHost _) 0
    · exact h.setHost _

theorem cqDrainOne_rackSteps (h : s.RackSteps t) : s.RackSteps t.cqDrainOne := by
  unfold State.cqDrainOne
  split
  · exact h
  · next e r hq =>
    refine coal_rackSteps (advTail_rackSteps ?_ (show 2 < 4 by decide)) false
    exact h.setHost _ ⟨rfl, by simp [HostIf.answers, hq]⟩

theorem EvStore.settleTo_arisen (e : EvStore) : e.settleTo.arisen = e.arisen := by
  unfold EvStore.settleTo
  split <;> rfl

theorem EvStore.settle_arisen (e : EvStore) (n : Nat) : (e.settle n).arisen = e.arisen := by
  unfold EvStore.settle
  split <;> rw [EvStore.settleTo_arisen]

theorem summary_rackSteps (h : s.RackSteps t) (c : Nat) : s.RackSteps (t.summary c) := by
  unfold State.summary
  extract_lets total rep fd x y
  split
  · exact (h.setEv { t.ev with reported := t.ev.reported.setIfInBounds c total, firstDrop := t.ev.firstDrop.setIfInBounds c 0 }
      fun _ hx => hx).arise _
  · exact h

theorem evCounts_rackSteps (h : s.RackSteps t) : s.RackSteps t.evCounts := by
  unfold State.evCounts
  refine State.RackSteps.putF (State.RackSteps.putF (State.RackSteps.putF h _ ?_) _ ?_) _ ?_
  · decide
  · decide
  · decide

theorem evrCopyOne_rackSteps (h : s.RackSteps t) : s.RackSteps t.evrCopyOne := by
  unfold State.evrCopyOne
  split
  · exact h
  · split
    · exact h
    · next e _ =>
      extract_lets ph x a y z b c
      have hb : s.RackSteps b := by
        refine advTail_rackSteps ((h.setHost _).setEv _ fun y hy => ?_) (by decide)
        rw [EvStore.settle_arisen]
        exact hy
      clear_value b
      have hc : s.RackSteps c := by
        simp only [c]
        split
        · exact signal_rackSteps hb 1
        · exact coal_rackSteps hb true
      clear_value c
      exact evCounts_rackSteps (hc.foldl _ fun d i _ => summary_rackSteps (.refl d) i)

theorem ringTurn_rackSteps (h : s.RackSteps t) : s.RackSteps t.ringTurn := by
  unfold State.ringTurn
  split
  · exact evrCopyOne_rackSteps h
  · exact cqDrainOne_rackSteps h

theorem setChan_rackSteps (h : s.RackSteps t) (c : Nat) (x : Chan) : s.RackSteps (t.setChan c x) := h.setRck _

theorem enqueue_rackSteps (h : s.RackSteps t) (c : Nat) (x : Txn) : s.RackSteps (t.enqueue c x) := h.setRck _

theorem chStatus_rack {c : Nat} (hc : c < 16) : R.RCK_CH_STATUS c / 65536 ∈ rackBlocks := by
  simp only [R.RCK_CH_STATUS, rackBlocks, List.mem_cons]
  omega

theorem issueTxn_rackSteps (h : s.RackSteps t) {c : Nat} (hc : c < 16) : s.RackSteps (t.issueTxn c) := by
  unfold State.issueTxn
  extract_lets x own
  split
  · exact h
  · split
    · exact h
    · extract_lets first a b d e
      have ha : s.RackSteps a := setChan_rackSteps h c _
      clear_value a
      have hb : s.RackSteps b := ha.putF (f := F.RCK_TOKENS_FREE) _ (by decide)
      clear_value b
      have hd : s.RackSteps d := hb.putF (f := F.RCK_TOKENS_SHARED) _ (by decide)
      clear_value d
      have he : s.RackSteps e := hd.putF (f := F.RCK_SLOTS) _ (by decide)
      clear_value e
      refine State.RackSteps.putF (State.RackSteps.putF he _ ?_) _ ?_
      · exact chStatus_rack hc
      · exact chStatus_rack hc

theorem nextGrant_lt {c : Nat} (h : s.nextGrant = some c) : c < 16 := by
  unfold State.nextGrant at h
  obtain h | ⟨-, h⟩ := (Option.orElse_eq_some _ _ _).1 h
  · obtain ⟨i, hi, rfl⟩ := List.mem_map.1 (List.mem_of_find?_eq_some h)
    have := List.mem_range.1 hi
    omega
  · obtain ⟨i, -, rfl⟩ := List.mem_map.1 (List.mem_of_find?_eq_some h)
    omega

theorem pump_rackSteps (n : Nat) (h : s.RackSteps t) : s.RackSteps (State.pump n t) := by
  induction n generalizing t with
  | zero => exact h
  | succ n ih =>
    unfold State.pump
    split
    · exact h
    · next c hc =>
      extract_lets a
      have ha : s.RackSteps a := by
        simp only [a]
        split
        · exact ringTurn_rackSteps h
        · exact issueTxn_rackSteps h (nextGrant_lt hc)
      clear_value a
      refine ih ?_
      split
      · exact ha
      · exact ha.setRck _

theorem pumpAll_rackSteps (h : s.RackSteps t) : s.RackSteps t.pumpAll := by
  unfold State.pumpAll
  extract_lets a
  have ha : s.RackSteps a := pump_rackSteps _ h
  clear_value a
  split
  · exact ha.setHost _
  · exact ha

theorem transferParts_rackSteps (h : s.RackSteps t) (c : Nat) (parts : List (Nat × Nat)) (write : Bool) (tag : Nat) :
    s.RackSteps (t.transferParts c parts write tag) :=
  pumpAll_rackSteps ((h.setRck _).foldl _ fun b x _ => (State.RackSteps.refl b).foldl _ fun d i _ => enqueue_rackSteps (.refl d) c _)

theorem transfer_rackSteps (h : s.RackSteps t) (c addr bytes : Nat) (write : Bool) (tag : Nat) :
    s.RackSteps (t.transfer c addr bytes write tag) := transferParts_rackSteps h c _ write tag

theorem State.RackSteps.cle (h : s.RackSteps t) : t.cle = s.cle := by
  obtain ⟨⟨r, x, k, e, rfl⟩, -⟩ := h
  rfl

theorem State.RackSteps.mem (h : s.RackSteps t) : t.mem = s.mem := by
  obtain ⟨⟨r, x, k, e, rfl⟩, -⟩ := h
  rfl


end Sys2Proof.Machine

end

/-! ## The capture and its transfer (R345, R346) -/

section

namespace Sys2Proof.Machine

variable {s : State}

theorem captureTransfer_starts (p : Port) {w : Word} (h0 : w.getLsbD 0 = true) (h3 : s.getF F.CLE_CAP_STATUS_STATE = 3)
    (hx : s.cle.cap.xfer = none) : Leads s (.captureTransfer p w) fun t =>
      t.cle.cap.xfer = some (s.getF F.CLE_CAP_FIRST, s.getF F.CLE_CAP_COUNT, s.getP R.CLE_CAP_XFER_LO) ∧ t.mem = s.mem := by
  have ht := transfer_rackSteps (.refl (s.setCap { s.cle.cap with
    xfer := some (s.getF F.CLE_CAP_FIRST, s.getF F.CLE_CAP_COUNT, s.getP R.CLE_CAP_XFER_LO) })) 14 (s.getP R.CLE_CAP_XFER_LO)
    (16 * s.getF F.CLE_CAP_COUNT) true 0
  refine ⟨_, congrArg Host.Outcome.next (if_pos ⟨h0, h3, hx⟩), ?_, ht.mem⟩
  beta_reduce
  rw [ht.cle]
  rfl

theorem capXferEnd_ends (s : State) : s.capXferEnd.cle.cap.xfer = none
    ∧ (s.cle.cap.armWait = true → s.capXferEnd.getF F.CLE_CAP_STATUS_STATE = 1) := by
  unfold State.capXferEnd
  extract_lets wait c b
  have hb : b.cle.cap.xfer = none := rfl
  clear_value b
  obtain ⟨hs, -, -, -, -, hx⟩ := capArm_arms b
  split
  · exact ⟨hx.trans hb, fun _ => hs⟩
  · next hw => exact ⟨hb, fun h => absurd h hw⟩

theorem captureTransferDone_ends (hx : s.cle.cap.xfer.isSome = true) (hq : (s.chan 14).queued = []) (hh : s.halted 14 = false) :
    Leads s .captureTransferDone fun t => t.cle.cap.xfer = none ∧ t.Arisen Ev.CLE_CAP_XFER_DONE 0
      ∧ (s.cle.cap.armWait = true → t.getF F.CLE_CAP_STATUS_STATE = 1) := by
  obtain ⟨⟨first, n, a⟩, he⟩ := Option.isSome_iff_exists.1 hx
  obtain ⟨hend, harm⟩ := capXferEnd_ends (s.setCap { s.cle.cap with sent := some (a, s.capBytes first n) })
  have hg : (s.chan 14).queued.isEmpty = true ∧ ¬s.halted 14 = true := ⟨by rw [hq]; rfl, by simp [hh]⟩
  refine ⟨State.raise (State.capXferEnd _) Ev.CLE_CAP_XFER_DONE, ?_, hend, arisen_raise .., harm⟩
  change execCaptureTransferDone s = _
  unfold execCaptureTransferDone
  rw [he]
  exact congrArg Host.Outcome.next (if_pos hg)

/-- From `s` to `t` the capture has taken a sample. -/
def State.Sampled (s t : State) : Prop := t.cle.capTick = some s.tick ∧ t.cle.cap.pos = (s.cle.cap.pos + 1) % 65536
  ∧ t.mem.pmem = s.mem.pmem ∧ t.mem.dmem = s.mem.dmem ∧ t.mem.coef = s.mem.coef ∧ t.mem.expo = s.mem.expo

theorem State.Sampled.putF {t : State} (h : s.Sampled t) (f : Fld) (v : Nat) : s.Sampled (t.putF f v) := h

theorem State.Sampled.raise {t : State} (h : s.Sampled t) (id : EvId) (i : Nat) (a b : Word) : s.Sampled (t.raise id i a b) := h

theorem captureSample_samples (hs : s.cleSuspended = false) (ht : s.cle.capTick ≠ some s.tick)
    (h : s.getF F.CLE_CAP_STATUS_STATE = 1 ∨ s.getF F.CLE_CAP_STATUS_STATE = 2) : Leads s .captureSample s.Sampled := by
  refine ⟨_, congrArg Host.Outcome.next ((if_neg (by simp [hs])).trans (if_pos ⟨h, ht⟩)), ?_⟩
  extract_lets c raw was mem cur trig ring left x y a total kept b d n e
  have hb : s.Sampled b := ⟨rfl, rfl, rfl, rfl, rfl, rfl⟩
  clear_value b
  have hd : s.Sampled d := by
    simp only [d]
    split
    · exact hb.putF _ _
    · exact hb
  clear_value d
  have he : s.Sampled e := (hd.putF _ _).putF _ _
  clear_value e
  split
  · exact (he.putF _ _).raise _ _ _ _
  · exact he

/-- Settles O51, clause by clause: the slot list, its slots, the test signals and the capture. -/
theorem theControlEngineAndItsCapture : Obligations.TheControlEngineAndItsCapture := by
  intro s
  exact ⟨slotList_once, slotList_suspended, fun p n => ⟨slotReset_restarts s p n, slotReload_notes s p n⟩,
    fun p g w => ⟨injectionGo_starts p, injectionStop_stops p, injection_discarded p⟩, fun g n => injectionEnd_ends,
    fun p w h0 h1 => ⟨captureArm_arms p h0 h1, captureArm_waits p h0 h1⟩, fun p w => captureStop_stops p, captureSample_samples,
    fun p w => captureTransfer_starts p, captureTransferDone_ends⟩

end Sys2Proof.Machine

end

/-! ## Heaters and the mains (R357, R358, R360, R361)

What the outputs and the trips of heaters leave: the other heaters and every register but a few of their own. -/

section

namespace Sys2Proof.Machine

variable {s t u : State} {J : Fin 4 → Prop} {h : Fin 4}

/-- The registers of a heater that its outputs and its trips write. -/
def heaterRegs (h : Fin 4) : List Nat := [R.IRN_HTR_STATUS h, R.IRN_HTR_APPLIED h, R.IRN_HTR_TRIPS h]

theorem heaterRegs_block {o : Nat} (ho : o ∈ heaterRegs h) : o / 65536 = 0xF := by
  simp only [heaterRegs, R.IRN_HTR_STATUS, R.IRN_HTR_APPLIED, R.IRN_HTR_TRIPS, List.mem_cons, List.not_mem_nil, or_false] at ho
  omega

theorem htrStatus_of_heaterRegs {j : Fin 4} (ho : R.IRN_HTR_STATUS h ∈ heaterRegs j) : j = h := by
  simp only [heaterRegs, R.IRN_HTR_STATUS, R.IRN_HTR_APPLIED, R.IRN_HTR_TRIPS, List.mem_cons, List.not_mem_nil, or_false] at ho
  omega

theorem htrCmd_heaterRegs (h j : Fin 4) : R.IRN_HTR_CMD h ∉ heaterRegs j := by
  simp only [heaterRegs, R.IRN_HTR_CMD, R.IRN_HTR_STATUS, R.IRN_HTR_APPLIED, R.IRN_HTR_TRIPS, List.mem_cons, List.not_mem_nil, or_false]
  omega

theorem htrCfg_heaterRegs (h j : Fin 4) : R.IRN_HTR_CFG h ∉ heaterRegs j := by
  simp only [heaterRegs, R.IRN_HTR_CFG, R.IRN_HTR_STATUS, R.IRN_HTR_APPLIED, R.IRN_HTR_TRIPS, List.mem_cons, List.not_mem_nil, or_false]
  omega

/-- From `s` to `t` nothing has changed but the heaters `J`: their outputs, and their own registers. -/
def State.Heats (J : Fin 4 → Prop) (s t : State) : Prop :=
  (∃ r v l, t = { s with regs := r, heat := { s.heat with heater := v }, lost := l }) ∧ (∀ h, ¬J h → t.heaterOf h = s.heaterOf h)
    ∧ ∀ o, (∀ j, J j → o ∉ heaterRegs j) → t.getR o = s.getR o

theorem State.Heats.refl (J : Fin 4 → Prop) (s : State) : State.Heats J s s := ⟨⟨_, _, _, rfl⟩, fun _ _ => rfl, fun _ _ => rfl⟩

theorem State.Heats.trans (a : State.Heats J s t) (b : State.Heats J t u) : State.Heats J s u := by
  obtain ⟨⟨r, v, l, rfl⟩, ha, hr⟩ := a
  obtain ⟨⟨r', v', l', rfl⟩, ha', hr'⟩ := b
  exact ⟨⟨r', v', l', rfl⟩, fun i hi => (ha' i hi).trans (ha i hi), fun o ho => (hr' o ho).trans (hr o ho)⟩

theorem State.Heats.mono {K : Fin 4 → Prop} (a : State.Heats J s t) (hk : ∀ j, J j → K j) : State.Heats K s t :=
  ⟨a.1, fun i hi => a.2.1 i fun hj => hi (hk i hj), fun o ho => a.2.2 o fun j hj => ho j (hk j hj)⟩

theorem State.Heats.putR (a : State.Heats J s t) {o : Nat} (w : Word) (hj : J h) (ho : o ∈ heaterRegs h) : State.Heats J s (t.putR o w) :=
  a.trans ⟨⟨_, t.heat.heater, t.lost, rfl⟩, fun _ _ => rfl, fun _ hn => getR_putR_ne t w fun e => hn h hj (e ▸ ho)⟩

theorem State.Heats.putF (a : State.Heats J s t) {f : Fld} (v : Nat) (hj : J h) (ho : f.off ∈ heaterRegs h) : State.Heats J s (t.putF f v) :=
  a.putR _ hj ho

theorem State.Heats.incR (a : State.Heats J s t) {o : Nat} (n : Nat) (hj : J h) (ho : o ∈ heaterRegs h) : State.Heats J s (t.incR o n) :=
  a.trans ⟨⟨_, t.heat.heater, _, rfl⟩, fun _ _ => rfl, fun _ hn => getR_incR_ne t n fun e => hn h hj (e ▸ ho)⟩

theorem heaterOf_updHeater_same (s : State) (h : Fin 4) (f : Heater → Heater) : (s.updHeater h f).heaterOf h = f (s.heaterOf h) := by
  simp [State.heaterOf, State.updHeater]

theorem heaterOf_updHeater_ne (s : State) {i : Fin 4} (f : Heater → Heater) (hi : i ≠ h) : (s.updHeater h f).heaterOf i = s.heaterOf i := by
  have : (h : Nat) ≠ (i : Nat) := fun e => hi (Fin.ext e.symm)
  simp [State.heaterOf, State.updHeater, this]

theorem State.Heats.updHeater (a : State.Heats J s t) (f : Heater → Heater) (hj : J h) : State.Heats J s (t.updHeater h f) :=
  a.trans ⟨⟨t.regs, _, t.lost, rfl⟩, fun _ hi => heaterOf_updHeater_ne t f fun e => hi (e ▸ hj), fun _ _ => rfl⟩

theorem State.Heats.foldl {α : Type} (l : List α) {f : State → α → State} (a : State.Heats J s t) (hf : ∀ b, ∀ x ∈ l, State.Heats J b (f b x)) :
    State.Heats J s (l.foldl f t) := by
  induction l generalizing t with
  | nil => exact a
  | cons x r ih => exact ih (a.trans (hf t x (List.mem_cons_self ..))) fun b y hy => hf b y (List.mem_cons_of_mem x hy)

/-- A change of each heater in turn is the change of any one of them, with the others changed before and after it. -/
theorem heats_each {f : State → Fin 4 → State} (hf : ∀ b i, State.Heats (· = i) b (f b i)) (s : State) (h : Fin 4) :
    ∃ a, State.Heats (· ≠ h) s a ∧ State.Heats (· ≠ h) (f a h) ((List.finRange 4).foldl f s) := by
  obtain ⟨l, r, hl⟩ := List.append_of_mem (List.mem_finRange h)
  have hnd := List.nodup_finRange 4
  rw [hl] at hnd
  have hnl : h ∉ l := fun hm => List.disjoint_of_nodup_append hnd hm (List.mem_cons_self ..)
  have hnr : h ∉ r := (List.nodup_cons.1 (List.nodup_append.1 hnd).2.1).1
  have hother : ∀ (k : List (Fin 4)), h ∉ k → ∀ b : State, State.Heats (· ≠ h) b (k.foldl f b) := fun k hk b =>
    State.Heats.foldl k (.refl _ b) fun c i hi => (hf c i).mono fun j hj e => hk (e ▸ hj ▸ hi)
  refine ⟨l.foldl f s, hother l hnl s, ?_⟩
  rw [hl, List.foldl_append, List.foldl_cons]
  exact hother r hnr _

theorem State.Heats.getR (a : State.Heats J s t) {o : Nat} (ho : ∀ j, o ∉ heaterRegs j) : t.getR o = s.getR o := a.2.2 o fun j _ => ho j

theorem State.Heats.getF (a : State.Heats J s t) (f : Fld) (hf : ∀ j, f.off ∉ heaterRegs j) : t.getF f = s.getF f := getF_congr (a.getR hf)

theorem State.Heats.flag (a : State.Heats J s t) (f : Fld) (hf : ∀ j, f.off ∉ heaterRegs j) : t.flag f = s.flag f := flag_congr (a.getR hf)

theorem State.Heats.within (a : State.Heats J s t) : State.Within [0xF] s t := fun _ ho =>
  a.getR fun _ hm => ho (List.mem_singleton.2 (heaterRegs_block hm))

theorem State.Heats.other_status (a : State.Heats (· ≠ h) s t) : t.getR (R.IRN_HTR_STATUS h) = s.getR (R.IRN_HTR_STATUS h) :=
  a.2.2 _ fun _ hj hm => hj (htrStatus_of_heaterRegs hm)

theorem State.Heats.other_heater (a : State.Heats (· ≠ h) s t) : t.heaterOf h = s.heaterOf h := a.2.1 h fun e => e rfl

theorem State.Heats.tsc (a : State.Heats J s t) : t.tsc = s.tsc := by
  obtain ⟨⟨r, v, l, rfl⟩, -, -⟩ := a
  rfl

theorem State.Heats.ev (a : State.Heats J s t) : t.ev = s.ev := by
  obtain ⟨⟨r, v, l, rfl⟩, -, -⟩ := a
  rfl

theorem State.Heats.brg (a : State.Heats J s t) : t.brg = s.brg := by
  obtain ⟨⟨r, v, l, rfl⟩, -, -⟩ := a
  rfl

theorem State.Heats.therm (a : State.Heats J s t) : t.heat.therm = s.heat.therm := by
  obtain ⟨⟨r, v, l, rfl⟩, -, -⟩ := a
  rfl

theorem State.Heats.mains (a : State.Heats J s t) : t.heat.mains = s.heat.mains := by
  obtain ⟨⟨r, v, l, rfl⟩, -, -⟩ := a
  rfl

theorem State.Heats.arisen (a : State.Heats J s t) {id : EvId} {i : Nat} (q : s.Arisen id i) : t.Arisen id i := q.of_eq a.ev a.tsc

/-! ### What heaters do -/

theorem htrStatus_mem (h : Fin 4) : R.IRN_HTR_STATUS h ∈ heaterRegs h := List.mem_cons_self ..

theorem htrApplied_mem (h : Fin 4) : R.IRN_HTR_APPLIED h ∈ heaterRegs h := List.mem_cons_of_mem _ (List.mem_cons_self ..)

theorem htrTrips_mem (h : Fin 4) : R.IRN_HTR_TRIPS h ∈ heaterRegs h :=
  List.mem_cons_of_mem _ (List.mem_cons_of_mem _ (List.mem_cons_self ..))

theorem heaterDrive_heats (s : State) (h : Fin 4) (d : HeaterDrive) : State.Heats (· = h) s (s.heaterDrive h d) := by
  have hd : State.Heats (· = h) s (s.updHeater h fun x => { x with drive := d }) := State.Heats.updHeater (.refl _ s) _ rfl
  exact hd.putF _ rfl (htrStatus_mem h)

theorem heaterOff_heats (s : State) (h : Fin 4) : State.Heats (· = h) s (s.heaterOff h) := heaterDrive_heats s h _

theorem heaterDrive_on (s : State) (h : Fin 4) (d : HeaterDrive) : (s.heaterDrive h d).flag (F.IRN_HTR_STATUS_ON h) = (d != .low) :=
  flag_putB_same _ _ _ (by simp [F.IRN_HTR_STATUS_ON]) (by simp [F.IRN_HTR_STATUS_ON])

theorem heaterOf_heaterDrive (s : State) (h : Fin 4) (d : HeaterDrive) : (s.heaterDrive h d).heaterOf h = { s.heaterOf h with drive := d } :=
  heaterOf_updHeater_same s h fun x => { x with drive := d }

theorem burst_heats (s : State) (h : Fin 4) : State.Heats (· = h) s (s.burst h) := by
  unfold State.burst
  extract_lets x now kept a go fired b
  split
  · have hb : State.Heats (· = h) s b := (State.Heats.refl _ s).updHeater _ rfl
    clear_value b
    exact (hb.trans (heaterDrive_heats b h _)).putR _ rfl (htrApplied_mem h)
  · exact ((heaterOff_heats s h).updHeater _ rfl).putR _ rfl (htrApplied_mem h)

theorem phaseFire_heats (s : State) (h : Fin 4) : State.Heats (· = h) s (s.phaseFire h) := by
  unfold State.phaseFire
  extract_lets c a m rise
  split
  · exact heaterOff_heats s h
  · exact (heaterDrive_heats s h _).putR _ rfl (htrApplied_mem h)

/-- A burst heater that is live fires where its demand has added up to 1, and else keeps the sum. -/
theorem burst_live (hl : s.heaterLive h = true) {go : Bool} (hg : F32.le F32.one (F32.add (s.heaterOf h).acc (s.heaterCmd h)) = go) :
    (s.burst h).flag (F.IRN_HTR_STATUS_ON h) = go ∧ (go = true → s.tsc.toNat ∈ ((s.burst h).heaterOf h).fired)
      ∧ (go = false → ((s.burst h).heaterOf h).acc = F32.add (s.heaterOf h).acc (s.heaterCmd h)) := by
  have hst : (F.IRN_HTR_STATUS_ON h).off ≠ R.IRN_HTR_APPLIED h := by
    simp only [F.IRN_HTR_STATUS_ON, R.IRN_HTR_STATUS, R.IRN_HTR_APPLIED]
    omega
  unfold State.burst
  extract_lets x now kept a g fired b
  rw [if_pos hl]
  have hgo : g = go := hg
  refine ⟨?_, fun e => ?_, fun e => ?_⟩
  · rw [flag_congr (getR_putR_ne _ _ hst), heaterDrive_on, hgo]
    cases go <;> rfl
  · change now ∈ ((b.heaterDrive h _).heaterOf h).fired
    rw [heaterOf_heaterDrive, heaterOf_updHeater_same]
    simp only [fired, hgo, e]
    exact List.mem_cons_self ..
  · change ((b.heaterDrive h _).heaterOf h).acc = a
    rw [heaterOf_heaterDrive, heaterOf_updHeater_same]
    simp only [hgo, e, Bool.false_eq_true, if_false]

end Sys2Proof.Machine

end

/-! ## Trips of heaters, thermistors and the mains (R348 to R351, R357, R360, R361) -/

section

namespace Sys2Proof.Machine

variable {s t u : State} {h : Fin 4}

/-! ### Trips -/

/-- A field of one bit is that bit of its register. -/
theorem flag_eq_getLsbD (s : State) (f : Fld) (hw : f.w = 1) : s.flag f = (s.getR f.off).getLsbD f.lo := by
  rw [State.flag, State.getF, bits, hw, BitVec.getLsbD, Nat.testBit_eq_decide_div_mod_eq, pow_one]
  obtain e | e := Nat.mod_two_eq_zero_or_one ((s.getR f.off).toNat / 2 ^ f.lo) <;> rw [e] <;> rfl

theorem heaterTrip_heats (s : State) (h : Fin 4) (c : Nat) (th : Option Nat) : State.Heats (· = h) s (s.heaterTrip h c th) := by
  unfold State.heaterTrip
  extract_lets old named a b d
  have ha : State.Heats (· = h) s a := (heaterOff_heats s h).putR _ rfl (htrStatus_mem h)
  clear_value a
  have hb : State.Heats (· = h) s b := ha.updHeater _ rfl
  clear_value b
  have hd : State.Heats (· = h) s d := by
    simp only [d]
    split
    · split
      · exact hb
      · exact hb.putF (f := F.IRN_HTR_STATUS_FIRST h) _ rfl (htrStatus_mem h)
    · exact hb
  clear_value d
  split
  · exact hd
  · exact hd.incR 1 rfl (htrTrips_mem h)

/-- A bit of a heater's status below FIRST. -/
def htrBit (h : Fin 4) (k : Nat) : Fld := ⟨R.IRN_HTR_STATUS h, k, 1⟩

/-- After a trip the heater is off, tripped, and has the bit of the cause; the other causes are kept. -/
theorem heaterTrip_bit (s : State) (h : Fin 4) (c : Nat) (th : Option Nat) {k : Nat} (hk : k < 8) :
    (s.heaterTrip h c th).flag (htrBit h k) = ((k != 0 && s.flag (htrBit h k)) || (BitVec.ofNat 32 (2 + 2 ^ c)).getLsbD k) := by
  have hoff : (s.heaterOff h).flag (htrBit h k) = (k != 0 && s.flag (htrBit h k)) := by
    by_cases h0 : k = 0
    · subst h0
      exact heaterDrive_on s h .low
    · have hap : Fld.Apart (F.IRN_HTR_STATUS_ON h) (htrBit h k) := by
        refine Or.inr ⟨?_, Or.inr ?_⟩ <;> simp only [htrBit, F.IRN_HTR_STATUS_ON] <;> omega
      have hb : (k != 0) = true := by simpa using h0
      rw [hb, Bool.true_and]
      exact flag_putF_apart _ hap
  have hne : (htrBit h k).off ≠ R.IRN_HTR_TRIPS h := by
    simp only [htrBit, R.IRN_HTR_STATUS, R.IRN_HTR_TRIPS]
    omega
  unfold State.heaterTrip
  extract_lets old named a b d
  have ha : a.flag (htrBit h k) = ((k != 0 && s.flag (htrBit h k)) || (BitVec.ofNat 32 (2 + 2 ^ c)).getLsbD k) := by
    rw [flag_eq_getLsbD _ _ rfl, ← hoff, flag_eq_getLsbD _ _ rfl]
    change (State.getR (State.putR _ _ _) (R.IRN_HTR_STATUS h)).getLsbD k = _
    rw [getR_putR_same, BitVec.getLsbD_or]
    rfl
  clear_value a
  have hb : b.flag (htrBit h k) = a.flag (htrBit h k) := rfl
  clear_value b
  have hd : d.flag (htrBit h k) = b.flag (htrBit h k) := by
    have hap : Fld.Apart (F.IRN_HTR_STATUS_FIRST h) (htrBit h k) := by
      refine Or.inr ⟨?_, Or.inl ?_⟩ <;> simp only [htrBit, F.IRN_HTR_STATUS_FIRST] <;> omega
    simp only [d]
    split
    · split
      · rfl
      · exact flag_putF_apart _ hap
    · rfl
  clear_value d
  rw [← ha, ← hb, ← hd]
  split
  · rfl
  · exact flag_congr (getR_incR_ne d 1 hne)

/-- A thermistor's flag that trips a heater: the step of R361 for one cause. -/
def State.thermTrip (s : State) (h : Fin 4) (f st : Nat → Fld) (c : Nat) : State :=
  match s.flagged h f with
  | n :: _ => if s.flag (st h) then s else s.heaterTrip h c (some n.val)
  | [] => s

theorem thermTrip_cases (s : State) (h : Fin 4) (f st : Nat → Fld) (c : Nat) :
    s.thermTrip h f st c = s ∨ ∃ n, s.thermTrip h f st c = s.heaterTrip h c (some n) := by
  unfold State.thermTrip
  split
  · split
    · exact Or.inl rfl
    · exact Or.inr ⟨_, rfl⟩
  · exact Or.inl rfl

theorem thermTrip_heats (s : State) (h : Fin 4) (f st : Nat → Fld) (c : Nat) : State.Heats (· = h) s (s.thermTrip h f st c) := by
  obtain e | ⟨n, e⟩ := thermTrip_cases s h f st c
  · rw [e]
    exact .refl _ s
  · rw [e]
    exact heaterTrip_heats s h c _

/-- The thermistor causes of a heater's trip. -/
def State.thermTrips (s : State) (h : Fin 4) : State :=
  ((s.thermTrip h F.THM_STAT_OVER F.IRN_HTR_STATUS_OVER 2).thermTrip h F.THM_STAT_RATE F.IRN_HTR_STATUS_RATE 3).thermTrip h
    F.THM_STAT_BROKEN F.IRN_HTR_STATUS_BROKEN 4

/-- The driver's cause of a heater's trip. -/
def State.driverTrip (s : State) (h : Fin 4) : State :=
  if (s.heaterOf h).fault && s.getF (F.IRN_HTR_CFG_MODE h) == 3 && !s.flag (F.IRN_HTR_STATUS_DRIVER h) then s.heaterTrip h 5 none else s

theorem heaterJudge_eq (s : State) (h : Fin 4) : s.heaterJudge h =
    if (s.thermTrips h |>.driverTrip h).ilkOpen ((s.thermTrips h |>.driverTrip h).getF (F.IRN_HTR_CFG_ILK h))
      && !(s.thermTrips h |>.driverTrip h).flag (F.IRN_HTR_STATUS_ILK h)
    then (s.thermTrips h |>.driverTrip h).heaterTrip h 6 none else (s.thermTrips h |>.driverTrip h) := rfl

theorem thermTrips_heats (s : State) (h : Fin 4) : State.Heats (· = h) s (s.thermTrips h) :=
  ((thermTrip_heats s h ..).trans (thermTrip_heats _ h ..)).trans (thermTrip_heats _ h ..)

theorem driverTrip_heats (s : State) (h : Fin 4) : State.Heats (· = h) s (s.driverTrip h) := by
  unfold State.driverTrip
  split
  · exact heaterTrip_heats s h _ _
  · exact .refl _ s

theorem heaterJudge_heats (s : State) (h : Fin 4) : State.Heats (· = h) s (s.heaterJudge h) := by
  have hd := (thermTrips_heats s h).trans (driverTrip_heats _ h)
  rw [heaterJudge_eq]
  split
  · exact hd.trans (heaterTrip_heats _ h _ _)
  · exact hd

theorem heaterJudgeAll_heats (s : State) : State.Heats (fun _ => True) s s.heaterJudgeAll :=
  State.Heats.foldl _ (.refl _ s) fun b i _ => (heaterJudge_heats b i).mono fun _ _ => trivial

theorem thermTrip_driver (s : State) (h : Fin 4) (f st : Nat → Fld) {c : Nat} (hc : c < 5) :
    (s.thermTrip h f st c).flag (F.IRN_HTR_STATUS_DRIVER h) = s.flag (F.IRN_HTR_STATUS_DRIVER h) := by
  obtain e | ⟨n, e⟩ := thermTrip_cases s h f st c
  · rw [e]
  · have hb : (BitVec.ofNat 32 (2 + 2 ^ c)).getLsbD 5 = false := by
      interval_cases c <;> decide
    have := heaterTrip_bit s h c (some n) (k := 5) (by decide)
    rw [e]
    rw [hb] at this
    simpa [htrBit, F.IRN_HTR_STATUS_DRIVER] using this

theorem heaterOf_fault_heaterTrip (s : State) (h : Fin 4) (c : Nat) (th : Option Nat) : ((s.heaterTrip h c th).heaterOf h).fault = (s.heaterOf h).fault := by
  unfold State.heaterTrip
  extract_lets old named a b d
  have ha : (a.heaterOf h).fault = (s.heaterOf h).fault := by
    change ((s.heaterOff h).heaterOf h).fault = _
    rw [State.heaterOff, heaterOf_heaterDrive]
  clear_value a
  have hb : (b.heaterOf h).fault = (a.heaterOf h).fault := by
    simp only [b]
    rw [heaterOf_updHeater_same]
  clear_value b
  have hd : d.heaterOf h = b.heaterOf h := by
    simp only [d]
    split
    · split <;> rfl
    · rfl
  clear_value d
  rw [← ha, ← hb, ← hd]
  split <;> rfl

theorem thermTrip_fault (s : State) (h : Fin 4) (f st : Nat → Fld) (c : Nat) :
    ((s.thermTrip h f st c).heaterOf h).fault = (s.heaterOf h).fault := by
  obtain e | ⟨n, e⟩ := thermTrip_cases s h f st c
  · rw [e]
  · rw [e, heaterOf_fault_heaterTrip]

theorem heaterDriverFault_trips (hm : s.getF (F.IRN_HTR_CFG_MODE h) = 3) (hd : s.flag (F.IRN_HTR_STATUS_DRIVER h) = false) :
    Leads s (.heaterDriverFault h true) fun t => t.flag (F.IRN_HTR_STATUS_DRIVER h) = true ∧ t.flag (F.IRN_HTR_STATUS_TRIP h) = true
      ∧ t.flag (F.IRN_HTR_STATUS_ON h) = false := by
  refine ⟨_, rfl, ?_⟩
  have hb : ((s.updHeater h fun x => { x with fault := true }).heaterOf h).fault = true := by rw [heaterOf_updHeater_same]
  have hbm : (s.updHeater h fun x => { x with fault := true }).getF (F.IRN_HTR_CFG_MODE h) = 3 := hm
  have hbd : (s.updHeater h fun x => { x with fault := true }).flag (F.IRN_HTR_STATUS_DRIVER h) = false := hd
  generalize (s.updHeater h fun x => { x with fault := true }) = b at hb hbm hbd
  have hcf : ((b.thermTrips h).heaterOf h).fault = true := by
    rw [State.thermTrips, thermTrip_fault, thermTrip_fault, thermTrip_fault, hb]
  have hcm : (b.thermTrips h).getF (F.IRN_HTR_CFG_MODE h) = 3 :=
    ((thermTrips_heats b h).getF _ (htrCfg_heaterRegs h)).trans hbm
  have hcd : (b.thermTrips h).flag (F.IRN_HTR_STATUS_DRIVER h) = false := by
    rw [State.thermTrips, thermTrip_driver _ _ _ _ (by decide), thermTrip_driver _ _ _ _ (by decide),
      thermTrip_driver _ _ _ _ (by decide), hbd]
  rw [heaterJudge_eq]
  generalize b.thermTrips h = c at hcf hcm hcd
  have ht : c.driverTrip h = c.heaterTrip h 5 none := if_pos (by simp [hcf, hcm, hcd])
  have h5 := fun k hk => heaterTrip_bit c h 5 none (k := k) hk
  rw [ht]
  have htrip : ∀ (k : Nat), k = 1 ∨ k = 5 → (c.heaterTrip h 5 none).flag (htrBit h k) = true := by
    rintro k (rfl | rfl)
    · rw [h5 1 (by decide), Bool.or_eq_true]
      exact Or.inr (by decide)
    · rw [h5 5 (by decide), Bool.or_eq_true]
      exact Or.inr (by decide)
  have hon : (c.heaterTrip h 5 none).flag (htrBit h 0) = false := by
    rw [h5 0 (by decide)]
    rfl
  generalize c.heaterTrip h 5 none = d at htrip hon
  split
  · have h6 := fun k hk => heaterTrip_bit d h 6 none (k := k) hk
    refine ⟨(h6 5 (by decide)).trans ?_, (h6 1 (by decide)).trans ?_, (h6 0 (by decide)).trans rfl⟩
    · rw [htrip 5 (Or.inr rfl)]
      rfl
    · rw [htrip 1 (Or.inl rfl)]
      rfl
  · exact ⟨htrip 5 (Or.inr rfl), htrip 1 (Or.inl rfl), hon⟩

end Sys2Proof.Machine

end

/-! ## Thermistors, clears and the mains (R20, R348 to R351, R357, R358, R362) -/

section

namespace Sys2Proof.Machine

variable {s t u : State}

/-! ### Thermistors -/

theorem thermistorSample_off (n : Fin 12) (code : BitVec 14) (h : s.flag (F.THM_CFG_EN n) = false) :
    Leads s (.thermistorSample n code) fun t => t = s :=
  ⟨_, congrArg Host.Outcome.next (if_neg (by simp [h])), rfl⟩

@[simp] theorem thermOf_updTherm_same (s : State) (n : Fin 12) (f : Therm → Therm) : (s.updTherm n f).thermOf n = f (s.thermOf n) := by
  simp [State.thermOf, State.updTherm]

/-- From `s` to `t` the reading of a thermistor, its BROKEN bit and its count of bad samples are kept, and no event is lost. -/
def State.Therms (n : Fin 12) (s t : State) : Prop :=
  (t.thermOf n).bad = (s.thermOf n).bad ∧ t.flag (F.THM_STAT_BROKEN n) = s.flag (F.THM_STAT_BROKEN n)
    ∧ t.getF (F.THM_TEMP n) = s.getF (F.THM_TEMP n) ∧ ∀ id i, s.Arisen id i → t.Arisen id i

variable {n : Fin 12}

theorem State.Therms.refl (n : Fin 12) (s : State) : State.Therms n s s := ⟨rfl, rfl, rfl, fun _ _ h => h⟩

theorem State.Therms.trans (h : State.Therms n s t) (h' : State.Therms n t u) : State.Therms n s u :=
  ⟨h'.1.trans h.1, h'.2.1.trans h.2.1, h'.2.2.1.trans h.2.2.1, fun id i q => h'.2.2.2 id i (h.2.2.2 id i q)⟩

theorem thermRegs_block (n : Fin 12) : R.THM_STAT n / 65536 = 0x11 ∧ R.THM_TEMP n / 65536 = 0x11 := by
  simp only [R.THM_STAT, R.THM_TEMP]
  omega

/-- A change outside the thermistors' registers. -/
theorem State.Therms.of_within (h : State.Therms n s t) {bs : List Nat} (hw : State.Within bs t u) (hb : 0x11 ∉ bs)
    (ht : u.heat.therm = t.heat.therm) (he : ∀ id i, t.Arisen id i → u.Arisen id i) : State.Therms n s u := by
  obtain ⟨h1, h2⟩ := thermRegs_block n
  refine h.trans ⟨?_, hw.flag _ (by simpa [F.THM_STAT_BROKEN, h1] using hb), hw.getF _ (by simpa [F.THM_TEMP, h2] using hb), he⟩
  rw [State.thermOf, ht]
  rfl

theorem State.Therms.putF (h : State.Therms n s t) {f : Fld} (v : Nat) (h1 : Fld.Apart f (F.THM_STAT_BROKEN n) := by
      simp [Fld.Apart, F.THM_STAT_BROKEN, F.THM_STAT_OPEN, F.THM_STAT_FAST])
    (h2 : f.off ≠ R.THM_TEMP n := by simp [F.THM_STAT_OPEN, F.THM_STAT_FAST, R.THM_TEMP, R.THM_STAT]) : State.Therms n s (t.putF f v) :=
  h.trans ⟨rfl, flag_putF_apart v h1, getF_putF_off t f _ v h2.symm, fun _ _ q => q.of_eq rfl rfl⟩

theorem State.Therms.latchF (h : State.Therms n s t) {f : Fld} (h1 : f.off = R.THM_STAT n) (h2 : 1 ≤ f.lo) :
    State.Therms n s (t.latchF f) := by
  refine h.trans ⟨rfl, ?_, getF_congr (getR_latchF_ne t f ?_), fun _ _ q => q.of_eq rfl rfl⟩
  · rw [State.flag, getF_latchF_disjoint t f _ (by simp [F.THM_STAT_BROKEN]) (Or.inl (by simpa [F.THM_STAT_BROKEN] using h2)), State.flag]
  · rw [h1]
    simp only [F.THM_TEMP, R.THM_TEMP, R.THM_STAT]
    omega

theorem State.Therms.putRise (h : State.Therms n s t) (w : Word) : State.Therms n s (t.putR (R.THM_RISE n) w) :=
  h.trans ⟨rfl, flag_congr (getR_putR_ne t w (by simp [F.THM_STAT_BROKEN, R.THM_STAT, R.THM_RISE])),
    getF_congr (getR_putR_ne t w (by simp [F.THM_TEMP, R.THM_TEMP, R.THM_RISE])), fun _ _ q => q.of_eq rfl rfl⟩

theorem State.Therms.updTherm (h : State.Therms n s t) {f : Therm → Therm} (hf : ∀ x, (f x).bad = x.bad := by exact fun _ => rfl) :
    State.Therms n s (t.updTherm n f) :=
  h.trans ⟨by rw [thermOf_updTherm_same, hf], rfl, rfl, fun _ _ q => q.of_eq rfl rfl⟩

theorem State.Therms.mends (h : State.Therms n s t) (hm : t.Mends u) : State.Therms n s u := by
  refine h.of_within hm.2.1 (by decide) ?_ hm.2.2
  obtain ⟨⟨r, j, x, e, rfl⟩, -, -⟩ := hm
  rfl

theorem State.Therms.mendTherm (h : State.Therms n s t) : State.Therms n s t.mendTherm := by
  unfold State.mendTherm
  extract_lets up a b
  have hb : State.Therms n s b := h.trans ⟨rfl, rfl, rfl, fun _ _ q => q.of_eq rfl rfl⟩
  clear_value b
  split
  · exact hb.mends (clearMend_mends b 5)
  · exact hb

theorem State.Therms.judge (h : State.Therms n s t) : State.Therms n s t.heaterJudgeAll :=
  have hj := heaterJudgeAll_heats t
  h.of_within hj.within (by decide) hj.therm fun _ _ => hj.arisen

/-- Is a code of a sample out of range (R350)? -/
def thermBad (code : BitVec 14) : Bool := decide (100 * code.toNat < 16383) || decide (99 * 16383 < 100 * code.toNat)

/-- Bad samples in a row, with a further sample. -/
def State.thermRun (s : State) (n : Fin 12) (code : BitVec 14) : Nat := if thermBad code then (s.thermOf n).bad + 1 else 0

/-- From `s` to `t` a sample of a thermistor that is not broken has been taken. -/
def State.ThermTaken (n : Fin 12) (code : BitVec 14) (s t : State) : Prop :=
  (t.thermOf n).bad = s.thermRun n code ∧ t.flag (F.THM_STAT_BROKEN n) = Nat.ble 3 (s.thermRun n code)
    ∧ (Nat.ble 3 (s.thermRun n code) = true → t.Arisen Ev.THM_BROKEN n)
    ∧ t.getF (F.THM_TEMP n) = if thermBad code then s.getF (F.THM_TEMP n) else
        (thermTemp (s.getF (F.THM_CFG_RPU n)) (s.getR (R.THM_SH_A n)) (s.getR (R.THM_SH_B n)) (s.getR (R.THM_SH_C n)) code.toNat).toNat

theorem thermistorSample_taken (n : Fin 12) (code : BitVec 14) (h : s.flag (F.THM_CFG_EN n) = true)
    (hb : s.flag (F.THM_STAT_BROKEN n) = false) : Leads s (.thermistorSample n code) (s.ThermTaken n code) := by
  refine ⟨_, congrArg Host.Outcome.next (if_pos h), ?_⟩
  extract_lets x now k bad was nb ng broken b c d e tm g cur lvl old rise keep i lim no nr hot j l m fast
  have hbad : bad = thermBad code := rfl
  have hnb : nb = s.thermRun n code := rfl
  have hbr : broken = Nat.ble 3 nb := by
    simp only [broken, was, hb]
    rfl
  have hwas : was = false := hb
  have htm : tm = thermTemp (e.getF (F.THM_CFG_RPU n)) (e.getR (R.THM_SH_A n)) (e.getR (R.THM_SH_B n)) (e.getR (R.THM_SH_C n)) k := rfl
  have hgd : bad = false → broken = false := fun hk => by
    rw [hbr]
    simp only [nb, hk]
    rfl
  have hge : g = if bad then e else e.putF (F.THM_TEMP n) tm.toNat := by
    simp only [g]
    by_cases hk : bad = true
    · rw [hk, Bool.or_true]
    · rw [hgd (Bool.eq_false_iff.2 hk), Bool.false_or]
  clear_value tm g
  have hbs : ∀ o, o ≠ R.THM_STAT n → b.getR o = s.getR o := fun o ho => getR_putR_ne _ _ ho
  have hbbad : (b.thermOf n).bad = nb := by
    change ((s.updTherm n fun y => { y with bad := nb, good := ng, taken := min 3 (y.taken + 1) }).thermOf n).bad = nb
    rw [thermOf_updTherm_same]
  have hbb : b.flag (F.THM_STAT_BROKEN n) = broken := flag_putB_same _ _ _ (by simp [F.THM_STAT_BROKEN]) (by simp [F.THM_STAT_BROKEN])
  have hbt : b.getF (F.THM_TEMP n) = s.getF (F.THM_TEMP n) := getF_congr (hbs _ (by simp [F.THM_TEMP, R.THM_TEMP, R.THM_STAT]))
  clear_value b
  have hc : State.Therms n b c := by
    simp only [c]
    split
    · exact (State.Therms.refl n b).putF (f := F.THM_STAT_OPEN n) _
    · exact (State.Therms.refl n b).putF _
  have hcs : ∀ o, o ≠ R.THM_STAT n → c.getR o = s.getR o := fun o ho => by
    rw [← hbs o ho]
    simp only [c]
    split
    · exact getR_putR_ne _ _ ho
    · exact getR_putR_ne _ _ ho
  clear_value c
  have hd : State.Therms n b d ∧ (broken = true → d.Arisen Ev.THM_BROKEN n) ∧ (broken = false → d = c) := by
    simp only [d, hwas]
    cases broken
    · exact ⟨hc, fun h => absurd h Bool.false_ne_true, fun _ => rfl⟩
    · have hm := (raise_mends c Ev.THM_BROKEN n 0 0).trans (setMend_mends _ 5)
      exact ⟨hc.mends hm, fun _ => (setMend_mends _ 5).2.2 _ _ (arisen_raise ..), fun h => absurd h.symm Bool.false_ne_true⟩
  clear_value d
  have he : e = d := by
    simp only [e, hwas]
    rfl
  clear_value e
  subst he
  obtain ⟨⟨hebad, heb, het, -⟩, hea, hec⟩ := hd
  have hg : (g.thermOf n).bad = nb ∧ g.flag (F.THM_STAT_BROKEN n) = broken ∧ (broken = true → g.Arisen Ev.THM_BROKEN n)
      ∧ g.getF (F.THM_TEMP n) = if bad then s.getF (F.THM_TEMP n) else
        (thermTemp (s.getF (F.THM_CFG_RPU n)) (s.getR (R.THM_SH_A n)) (s.getR (R.THM_SH_B n)) (s.getR (R.THM_SH_C n)) k).toNat := by
    rw [hge]
    by_cases hk : bad = true
    · rw [if_pos hk, if_pos hk]
      exact ⟨hebad.trans hbbad, heb.trans hbb, hea, het.trans hbt⟩
    · rw [if_neg hk, if_neg hk]
      have hes : ∀ o, o ≠ R.THM_STAT n → e.getR o = s.getR o := hec (hgd (Bool.eq_false_iff.2 hk)) ▸ hcs
      refine ⟨hebad.trans hbbad, ?_, fun h => (hea h).of_eq rfl rfl, ?_⟩
      · rw [← hbb, ← heb]
        exact flag_putF_off e (F.THM_TEMP n) (F.THM_STAT_BROKEN n) _ (by simp [F.THM_STAT_BROKEN, F.THM_TEMP, R.THM_TEMP, R.THM_STAT])
      · rw [getF_putF_same e (F.THM_TEMP n) _ (by simp [F.THM_TEMP]), htm, hes (R.THM_SH_A n) (by simp [R.THM_SH_A, R.THM_STAT]), hes (R.THM_SH_B n) (by simp [R.THM_SH_B, R.THM_STAT]),
          hes (R.THM_SH_C n) (by simp [R.THM_SH_C, R.THM_STAT]),
          getF_congr (f := F.THM_CFG_RPU n) (hes _ (by simp only [F.THM_CFG_RPU, R.THM_CFG, R.THM_STAT]; omega))]
        exact Nat.mod_eq_of_lt (BitVec.isLt _)
  have hi : State.Therms n g i := (State.Therms.refl n g).putRise _
  clear_value i
  have hj : State.Therms n g j := hi.updTherm
  clear_value j
  have hl : State.Therms n g l := by
    simp only [l]
    split
    · exact hj.latchF rfl (by simp [F.THM_STAT_OVER])
    · exact hj
  clear_value l
  have hm : State.Therms n g m := by
    simp only [m]
    split
    · exact hl.latchF rfl (by simp [F.THM_STAT_RATE])
    · exact hl
  clear_value m
  have hend : State.Therms n g (m.putB (F.THM_STAT_FAST n) fast).heaterJudgeAll := (hm.putF (f := F.THM_STAT_FAST n) _).judge
  obtain ⟨hfb, hff, hft, hfa⟩ := hend
  obtain ⟨hgb, hgf, hga, hgt⟩ := hg
  refine ⟨hfb.trans (hgb.trans hnb), hff.trans (hgf.trans ?_), fun q => hfa _ _ (hga ?_), hft.trans hgt⟩
  · rw [hbr, hnb]
  · rw [hbr, hnb, q]

end Sys2Proof.Machine

end

/-! ## Samples, clears and the mains: the clauses (R20, R348 to R351, R357, R358, R362) -/

section

namespace Sys2Proof.Machine

variable {s : State}

theorem thermistorSample_good (n : Fin 12) (code : BitVec 14) (h : s.flag (F.THM_CFG_EN n) = true)
    (hb : s.flag (F.THM_STAT_BROKEN n) = false) (hlo : 163 < code.toNat) (hhi : code.toNat < 16220) :
    Leads s (.thermistorSample n code) fun t => t.flag (F.THM_STAT_BROKEN n) = false ∧ (t.thermOf n).bad = 0
      ∧ t.getF (F.THM_TEMP n) = (thermTemp (s.getF (F.THM_CFG_RPU n)) (s.getR (R.THM_SH_A n)) (s.getR (R.THM_SH_B n))
          (s.getR (R.THM_SH_C n)) code.toNat).toNat := by
  have hok : thermBad code = false := by
    simp only [thermBad, Bool.or_eq_false_iff, decide_eq_false_iff_not]
    omega
  have hrun : s.thermRun n code = 0 := if_neg (by simp [hok])
  obtain ⟨t, ht, hbad, hbr, -, htemp⟩ := thermistorSample_taken n code h hb
  rw [hrun] at hbad hbr
  rw [hok] at htemp
  exact ⟨t, ht, hbr, hbad, htemp⟩

theorem thermistorSample_breaks (n : Fin 12) (code : BitVec 14) (h : s.flag (F.THM_CFG_EN n) = true)
    (hb : s.flag (F.THM_STAT_BROKEN n) = false) (hlo : code.toNat ≤ 163) (h2 : 2 ≤ (s.thermOf n).bad) :
    Leads s (.thermistorSample n code) fun t => t.flag (F.THM_STAT_BROKEN n) = true ∧ t.Arisen Ev.THM_BROKEN n
      ∧ t.getF (F.THM_TEMP n) = s.getF (F.THM_TEMP n) := by
  have hk : thermBad code = true := by
    simp only [thermBad, Bool.or_eq_true, decide_eq_true_eq]
    omega
  have hrun : Nat.ble 3 (s.thermRun n code) = true := by
    rw [State.thermRun, if_pos hk]
    exact Nat.ble_eq_true_of_le (by omega)
  obtain ⟨t, ht, -, hbr, hev, htemp⟩ := thermistorSample_taken n code h hb
  rw [hk] at htemp
  exact ⟨t, ht, hbr.trans hrun, hev hrun, htemp⟩

theorem dnWrite_carries (s : State) (o : Nat) (w : Word) (h : s.dnLate = false) :
    (s.dnWrite o w).brg.out.writes = s.brg.out.writes ++ [{ off := o, w := w, tick := s.tick }] ∧ (s.dnWrite o w).regs = s.regs := by
  have : s.dnWrite o w = { s with brg := { s.brg with out := { s.brg.out with
      writes := s.brg.out.writes ++ [{ off := o, w := w, tick := s.tick }] } } } := if_neg (by simp [h])
  rw [this]
  exact ⟨rfl, rfl⟩

/-! ### The mains (R357) -/

theorem mainsSyncEdge_first (h : s.heat.mains.last = none) :
    Leads s .mainsSyncEdge fun t => t.heat.mains.last = some s.tsc.toNat ∧ t.regs = s.regs := by
  refine ⟨s.setMains { s.heat.mains with last := some s.tsc.toNat, crossed := 0 }, ?_, rfl, rfl⟩
  change execMainsSyncEdge s = _
  unfold execMainsSyncEdge
  simp only [h]

/-- The mains after an edge that is taken, where no period had been. -/
def Mains.taken (m : Mains) (now p : Nat) : Mains := { last := some now, periods := [p], run := m.run + 1, crossed := 0 }

theorem mainsSyncEdge_taken {n : Nat} (h : s.heat.mains.last = some n) (hlo : 15385 * 200 ≤ s.tsc.toNat - n)
    (hhi : s.tsc.toNat - n ≤ 22222 * 200) (hp : s.heat.mains.periods = []) :
    Leads s .mainsSyncEdge fun t => t.heat.mains.last = some s.tsc.toNat ∧ t.heat.mains.run = s.heat.mains.run + 1
      ∧ t.getF F.IRN_MAINS_PERIOD = (s.tsc.toNat - n) / 200
      ∧ (3 ≤ s.heat.mains.run → t.flag F.IRN_MAINS_LOCKED = true ∧ t.flag F.IRN_MAINS_LOST = false) := by
  have hacc : s.heat.mains.accepts (s.tsc.toNat - n) = true := by
    simp only [Mains.accepts, hp, Nat.ble_eq_true_of_le hlo, Nat.ble_eq_true_of_le hhi]
    rfl
  have hmean : (Mains.taken s.heat.mains s.tsc.toNat (s.tsc.toNat - n)).mean = (s.tsc.toNat - n) / 200 := by
    simp [Mains.mean, Mains.total, Mains.taken]
  let b := (s.setMains (Mains.taken s.heat.mains s.tsc.toNat (s.tsc.toNat - n))).putF F.IRN_MAINS_PERIOD
    (Mains.taken s.heat.mains s.tsc.toNat (s.tsc.toNat - n)).mean
  have hexec : exec .mainsSyncEdge s =
      .next (if 4 ≤ s.heat.mains.run + 1 then (b.putF F.IRN_MAINS_LOCKED 1).putF F.IRN_MAINS_LOST 0 else b) := by
    change execMainsSyncEdge s = _
    unfold execMainsSyncEdge
    simp only [h, hp]
    rw [if_pos hacc]
    rfl
  have hlast : b.heat.mains.last = some s.tsc.toNat ∧ b.heat.mains.run = s.heat.mains.run + 1 := ⟨rfl, rfl⟩
  have hper : b.getF F.IRN_MAINS_PERIOD = (s.tsc.toNat - n) / 200 := by
    simp only [b]
    rw [getF_putF_same _ _ _ (by decide), hmean]
    exact Nat.mod_eq_of_lt (by simp only [F.IRN_MAINS_PERIOD]; omega)
  clear_value b
  refine ⟨_, hexec, ?_⟩
  split
  · refine ⟨hlast.1, hlast.2, ?_, fun _ => ⟨?_, ?_⟩⟩
    · rw [getF_putF_apart _ (by simp [Fld.Apart, F.IRN_MAINS_LOST, F.IRN_MAINS_PERIOD]),
        getF_putF_apart _ (by simp [Fld.Apart, F.IRN_MAINS_LOCKED, F.IRN_MAINS_PERIOD]), hper]
    · rw [flag_putF_apart _ (by simp [Fld.Apart, F.IRN_MAINS_LOST, F.IRN_MAINS_LOCKED]), flag_putF_same _ _ _ (by decide)]
      rfl
    · rw [flag_putF_same _ _ _ (by decide)]
      rfl
  · next h4 => exact ⟨hlast.1, hlast.2, hper, fun h3 => absurd (Nat.succ_le_succ h3) h4⟩

theorem mainsSyncEdge_rejected {n : Nat} (h : s.heat.mains.last = some n) (hlo : s.tsc.toNat - n < 15385 * 200) :
    Leads s .mainsSyncEdge fun t => t.heat.mains.last = some n ∧ t.heat.mains.run = 0
      ∧ t.getR R.IRN_MAINS_REJ = (s.incR R.IRN_MAINS_REJ 1).getR R.IRN_MAINS_REJ := by
  have hacc : ¬s.heat.mains.accepts (s.tsc.toNat - n) = true := by
    simp only [Mains.accepts, Bool.and_eq_true, Nat.ble_eq]
    omega
  refine ⟨(s.setMains { s.heat.mains with run := 0 }).incR R.IRN_MAINS_REJ 1, ?_, h, rfl, rfl⟩
  change execMainsSyncEdge s = _
  unfold execMainsSyncEdge
  simp only [h]
  rw [if_neg hacc]

/-- The lamps of the mains are off. -/
def State.lampsOff (s : State) : State := s.each (List.finRange 4) fun a h =>
  if a.getF (F.IRN_HTR_CFG_MODE h) = 1 ∨ a.getF (F.IRN_HTR_CFG_MODE h) = 2 then a.heaterOff h else a

theorem lampsOff_heats (s : State) : State.Heats (fun _ => True) s s.lampsOff := by
  refine State.Heats.foldl _ (.refl _ s) fun b i _ => ?_
  split
  · exact (heaterOff_heats b i).mono fun _ _ => trivial
  · exact .refl _ b

theorem mains_heaterRegs (j : Fin 4) : R.IRN_MAINS ∉ heaterRegs j := by
  simp only [heaterRegs, R.IRN_MAINS, R.IRN_HTR_STATUS, R.IRN_HTR_APPLIED, R.IRN_HTR_TRIPS, List.mem_cons, List.not_mem_nil, or_false]
  omega

theorem mainsLostTimeout_loses (h : s.heat.mains.last.getD 0 + 5000000 ≤ s.tsc.toNat) (hl : s.getF F.IRN_MAINS_LOST = 0) :
    Leads s .mainsLostTimeout fun t =>
      t.flag F.IRN_MAINS_LOST = true ∧ t.flag F.IRN_MAINS_LOCKED = false ∧ t.Arisen Ev.IRN_MAINS_LOST 0 := by
  have hoff := lampsOff_heats (((s.setMains {}).putF F.IRN_MAINS_LOST 1).putF F.IRN_MAINS_LOCKED 0)
  refine ⟨_, congrArg Host.Outcome.next (if_pos ⟨h, hl⟩), (hoff.flag F.IRN_MAINS_LOST mains_heaterRegs).trans ?_,
    (hoff.flag F.IRN_MAINS_LOCKED mains_heaterRegs).trans ?_, arisen_raise ..⟩
  · rw [flag_putF_apart _ (by simp [Fld.Apart, F.IRN_MAINS_LOST, F.IRN_MAINS_LOCKED]), flag_putF_same _ _ _ (by decide)]
    rfl
  · rw [flag_putF_same _ _ _ (by decide)]
    rfl

/-! ### Zero crossings (R358, R359) -/

/-- What a positive zero crossing does to one heater. -/
def State.crossed (s : State) (h : Fin 4) : State :=
  match s.getF (F.IRN_HTR_CFG_MODE h) with
  | 1 => s.burst h
  | 2 => s.phaseFire h
  | _ => s

theorem crossed_heats (s : State) (h : Fin 4) : State.Heats (· = h) s (s.crossed h) := by
  unfold State.crossed
  split
  · exact burst_heats s h
  · exact phaseFire_heats s h
  · exact .refl _ s

theorem State.Heats.heaterLive {t : State} {h : Fin 4} (a : State.Heats (· ≠ h) s t) : t.heaterLive h = s.heaterLive h := by
  have hd : R.DEV_STATE / 65536 ≠ 0xF ∧ R.BRG_STATUS / 65536 ≠ 0xF := by decide
  have hout : t.outputsHeld = s.outputsHeld := by
    rw [State.outputsHeld, State.outputsHeld, a.flag F.BRG_STATUS_DRIVE_SAFE fun _ hm => hd.2 (heaterRegs_block hm),
      a.getF F.DEV_STATE_STATE fun _ hm => hd.1 (heaterRegs_block hm)]
  rw [State.heaterLive, State.heaterLive, hout, a.brg, a.flag F.BRG_STATUS_DRIVE_SAFE fun _ hm => hd.2 (heaterRegs_block hm),
    flag_congr (f := F.IRN_HTR_STATUS_TRIP h) a.other_status]

theorem State.Heats.heaterCmd {t : State} {h : Fin 4} (a : State.Heats (· ≠ h) s t) : t.heaterCmd h = s.heaterCmd h := by
  rw [State.heaterCmd, State.heaterCmd, a.getR (htrCmd_heaterRegs h)]

theorem zeroCrossing_burst {h : Fin 4} (hlk : s.flag F.IRN_MAINS_LOCKED = true) (hlo : s.flag F.IRN_MAINS_LOST = false)
    (hm : s.getF (F.IRN_HTR_CFG_MODE h) = 1) (hl : s.heaterLive h = true) (hc : s.crossingDue true = true) {go : Bool}
    (hg : F32.le F32.one (F32.add (s.heaterOf h).acc (s.heaterCmd h)) = go) :
    Leads s (.zeroCrossing true) fun t => t.flag (F.IRN_HTR_STATUS_ON h) = go ∧ (go = true → s.tsc.toNat ∈ (t.heaterOf h).fired)
      ∧ (go = false → (t.heaterOf h).acc = F32.add (s.heaterOf h).acc (s.heaterCmd h)) := by
  obtain ⟨a, ha, hb⟩ := heats_each crossed_heats (s.setMains { s.heat.mains with crossed := s.heat.mains.crossed + 1 }) h
  have hexec : exec (.zeroCrossing true) s = .next ((List.finRange 4).foldl State.crossed
      (s.setMains { s.heat.mains with crossed := s.heat.mains.crossed + 1 })) :=
    congrArg Host.Outcome.next (if_pos (by simp [hlk, hlo, hc]))
  have hlive : a.heaterLive h = true := ha.heaterLive.trans hl
  have hcmd : a.heaterCmd h = s.heaterCmd h := ha.heaterCmd
  have hof : a.heaterOf h = s.heaterOf h := ha.other_heater
  have hmode : a.getF (F.IRN_HTR_CFG_MODE h) = 1 := (ha.getF _ (htrCfg_heaterRegs h)).trans hm
  have hcr : a.crossed h = a.burst h := by
    rw [State.crossed, hmode]
    rfl
  rw [hcr] at hb
  have hburst := burst_live hlive (go := go) (by rw [hof, hcmd, hg])
  rw [hof, hcmd, ha.tsc] at hburst
  refine ⟨_, hexec, ?_⟩
  beta_reduce
  rw [flag_congr (f := F.IRN_HTR_STATUS_ON h) hb.other_status, hb.other_heater]
  exact hburst

/-- Settles O52, clause by clause: thermistors, the writes that clear, the mains, burst heaters and the driver input. -/
theorem thermistorsMainsAndHeatersAct : Obligations.ThermistorsMainsAndHeatersAct := by
  intro s
  refine ⟨thermistorSample_off, thermistorSample_good, thermistorSample_breaks, fun p w hd => ⟨fun n => ?_, fun h h0 => ?_⟩,
    mainsSyncEdge_first, fun n => mainsSyncEdge_taken, fun n => mainsSyncEdge_rejected, mainsLostTimeout_loses,
    fun h hlk hlo hm hl hc => ⟨fun hg => ?_, fun hg => ?_⟩, fun h => heaterDriverFault_trips⟩
  · exact ⟨_, rfl, dnWrite_carries s _ w hd⟩
  · exact ⟨_, congrArg Host.Outcome.next (if_pos h0), dnWrite_carries s _ w hd⟩
  · obtain ⟨t, ht, hon, hf, -⟩ := zeroCrossing_burst hlk hlo hm hl hc hg
    exact ⟨t, ht, hon, hf rfl⟩
  · obtain ⟨t, ht, hon, -, hacc⟩ := zeroCrossing_burst hlk hlo hm hl hc hg
    exact ⟨t, ht, hon, hacc rfl⟩

end Sys2Proof.Machine

end

/-! ## High voltage channels: what their steps do and leave (R364 to R368) -/

section

namespace Sys2Proof.Machine

variable {s t u : State} {c : Fin 24} {os : List Nat}

/-- From `s` to `t` an HV channel has been worked on: beside HV channels and events only the registers `os` have changed. -/
def State.Hvs (os : List Nat) (s t : State) : Prop :=
  (∃ r v l e, t = { s with regs := r, heat := { s.heat with hv := v }, lost := l, ev := e }) ∧ ∀ o, o ∉ os → t.getR o = s.getR o

theorem State.Hvs.refl (os : List Nat) (s : State) : State.Hvs os s s := ⟨⟨_, _, _, _, rfl⟩, fun _ _ => rfl⟩

theorem State.Hvs.trans (a : State.Hvs os s t) (b : State.Hvs os t u) : State.Hvs os s u := by
  obtain ⟨⟨r, v, l, e, rfl⟩, hr⟩ := a
  obtain ⟨⟨r', v', l', e', rfl⟩, hr'⟩ := b
  exact ⟨⟨r', v', l', e', rfl⟩, fun o ho => (hr' o ho).trans (hr o ho)⟩

theorem State.Hvs.mono {os' : List Nat} (a : State.Hvs os s t) (h : ∀ o ∈ os, o ∈ os') : State.Hvs os' s t :=
  ⟨a.1, fun o ho => a.2 o fun hm => ho (h o hm)⟩

theorem State.Hvs.putR (a : State.Hvs os s t) {o : Nat} (w : Word) (h : o ∈ os) : State.Hvs os s (t.putR o w) :=
  a.trans ⟨⟨_, t.heat.hv, t.lost, t.ev, rfl⟩, fun _ hn => getR_putR_ne t w fun e => hn (e ▸ h)⟩

theorem State.Hvs.putF (a : State.Hvs os s t) {f : Fld} (v : Nat) (h : f.off ∈ os) : State.Hvs os s (t.putF f v) := a.putR _ h

theorem State.Hvs.incR (a : State.Hvs os s t) {o : Nat} (n : Nat) (h : o ∈ os) : State.Hvs os s (t.incR o n) :=
  a.trans ⟨⟨_, t.heat.hv, _, t.ev, rfl⟩, fun _ hn => getR_incR_ne t n fun e => hn (e ▸ h)⟩

theorem State.Hvs.updHv (a : State.Hvs os s t) (f : HvCh → HvCh) : State.Hvs os s (t.updHv c f) :=
  a.trans ⟨⟨t.regs, _, t.lost, t.ev, rfl⟩, fun _ _ => rfl⟩

theorem State.Hvs.raise (a : State.Hvs os s t) (id : EvId) (i : Nat) (x y : Word) : State.Hvs os s (t.raise id i x y) :=
  a.trans ⟨⟨t.regs, t.heat.hv, t.lost, _, rfl⟩, fun _ _ => rfl⟩

theorem State.Hvs.getR (a : State.Hvs os s t) {o : Nat} (h : o ∉ os) : t.getR o = s.getR o := a.2 o h

theorem State.Hvs.getF (a : State.Hvs os s t) (f : Fld) (h : f.off ∉ os) : t.getF f = s.getF f := getF_congr (a.getR h)

theorem State.Hvs.flag (a : State.Hvs os s t) (f : Fld) (h : f.off ∉ os) : t.flag f = s.flag f := flag_congr (a.getR h)

theorem State.Hvs.brg (a : State.Hvs os s t) : t.brg = s.brg := by
  obtain ⟨⟨r, v, l, e, rfl⟩, -⟩ := a
  rfl

@[simp] theorem hvOf_updHv (s : State) (c : Fin 24) (f : HvCh → HvCh) : (s.updHv c f).hvOf c = f (s.hvOf c) := by
  simp [State.hvOf, State.updHv]

theorem hvOf_putR (s : State) (c : Fin 24) (o : Nat) (w : Word) : (s.putR o w).hvOf c = s.hvOf c := rfl

theorem hvOf_putF (s : State) (c : Fin 24) (f : Fld) (v : Nat) : (s.putF f v).hvOf c = s.hvOf c := rfl

/-! ### Registers of a channel -/

/-- The registers that the steps of a channel write, its conversions apart. -/
def hvOwn (c : Fin 24) : List Nat := [R.HVS_STATUS c, R.HVS_TRIPS c]

/-- Those and the registers of its conversions. -/
def hvAll (c : Fin 24) : List Nat := [R.HVS_STATUS c, R.HVS_TRIPS c, R.HVS_MON c, R.HVS_AUX c, R.HVS_AC_MEAS c]

/-- The registers that set a channel up. -/
def hvSetup (c : Fin 24) (o : Nat) : Prop := o / 0x40 = 0x4000 + c ∧ o ≠ R.HVS_STATUS c

theorem hvSetup_own {o : Nat} (h : hvSetup c o) : o ∉ hvOwn c := by
  obtain ⟨h, hs⟩ := h
  simp only [hvOwn, R.HVS_TRIPS, List.mem_cons, List.not_mem_nil, or_false, hs, false_or]
  omega

theorem hvSetup_all {o : Nat} (h : hvSetup c o) : o ∉ hvAll c := by
  obtain ⟨h, hs⟩ := h
  simp only [hvAll, R.HVS_TRIPS, R.HVS_MON, R.HVS_AUX, R.HVS_AC_MEAS, List.mem_cons, List.not_mem_nil, or_false, hs, false_or]
  omega

theorem hvRails_all {o : Nat} (h : o / 65536 ≠ 0x10) : o ∉ hvAll c := by
  simp only [hvAll, R.HVS_STATUS, R.HVS_TRIPS, R.HVS_MON, R.HVS_AUX, R.HVS_AC_MEAS, List.mem_cons, List.not_mem_nil, or_false]
  omega

theorem hvOwn_all {o : Nat} (h : o ∈ hvOwn c) : o ∈ hvAll c := by
  simp only [hvOwn, hvAll, List.mem_cons, List.not_mem_nil, or_false] at h ⊢
  omega

theorem hvStatus_own (c : Fin 24) : R.HVS_STATUS c ∈ hvOwn c := List.mem_cons_self ..

theorem hvTrips_own (c : Fin 24) : R.HVS_TRIPS c ∈ hvOwn c := List.mem_cons_of_mem _ (List.mem_cons_self ..)

/-! ### Trips -/

theorem hvLow_hvs (s : State) (c : Fin 24) : State.Hvs (hvOwn c) s (s.hvLow c) := by
  refine State.Hvs.updHv (State.Hvs.putF (State.Hvs.putF (State.Hvs.putF (.refl _ s) _ ?_) _ ?_) _ ?_) _
  all_goals exact hvStatus_own c

theorem updHv_getR (s : State) (c : Fin 24) (f : HvCh → HvCh) (o : Nat) : (s.updHv c f).getR o = s.getR o := rfl

theorem updHv_getF (s : State) (c : Fin 24) (f : HvCh → HvCh) (g : Fld) : (s.updHv c f).getF g = s.getF g := rfl

theorem hvLow_duty (s : State) (c : Fin 24) : (s.hvLow c).getF (F.HVS_STATUS_DUTY c) = 0 := by
  rw [State.hvLow, updHv_getF, getF_putF_apart _ (by simp [Fld.Apart, F.HVS_STATUS_DUTY, F.HVS_STATUS_ACLAMP]),
    getF_putF_apart _ (by simp [Fld.Apart, F.HVS_STATUS_DUTY, F.HVS_STATUS_DCLAMP]),
    getF_putF_same s (F.HVS_STATUS_DUTY c) _ (by simp [F.HVS_STATUS_DUTY])]
  rfl

theorem hvLow_state (s : State) (c : Fin 24) : (s.hvLow c).hvState c = s.hvState c := by
  rw [State.hvState, State.hvLow, updHv_getF, getF_putF_apart _ (by simp [Fld.Apart, F.HVS_STATUS_STATE, F.HVS_STATUS_ACLAMP]),
    getF_putF_apart _ (by simp [Fld.Apart, F.HVS_STATUS_STATE, F.HVS_STATUS_DCLAMP]),
    getF_putF_apart _ (by simp [Fld.Apart, F.HVS_STATUS_STATE, F.HVS_STATUS_DUTY]), State.hvState]

theorem hvOf_hvLow (s : State) (c : Fin 24) : (s.hvLow c).hvOf c = { s.hvOf c with on := false } :=
  hvOf_updHv _ c fun x => { x with on := false }

/-- The status of a channel that trips, before its counters follow. -/
def State.hvTripSet (s : State) (c : Fin 24) (n : Nat) : State :=
  (((s.hvLow c).putF (F.HVS_STATUS_STATE c) 4).putF (F.HVS_STATUS_CAUSE c) n).putF (F.HVS_STATUS_PENDING_ENABLE c) 0

theorem hvTripNow_eq {n : Nat} (h : s.hvState c ≠ 4) :
    s.hvTripNow c n = (((s.hvTripSet c n).updHv c fun _ => {}).incR (R.HVS_TRIPS c) 1).raise Ev.HVS_TRIP c := if_neg h

theorem hvTripSet_hvs (s : State) (c : Fin 24) (n : Nat) : State.Hvs (hvOwn c) s (s.hvTripSet c n) := by
  refine State.Hvs.putF (State.Hvs.putF (State.Hvs.putF (hvLow_hvs s c) _ ?_) _ ?_) _ ?_
  all_goals exact hvStatus_own c

theorem hvTripNow_hvs (s : State) (c : Fin 24) (n : Nat) : State.Hvs (hvOwn c) s (s.hvTripNow c n) := by
  by_cases h : s.hvState c = 4
  · rw [State.hvTripNow, if_pos h]
    exact .refl _ s
  · rw [hvTripNow_eq h]
    exact (((hvTripSet_hvs s c n).updHv _).incR 1 (hvTrips_own c)).raise _ _ _ _

theorem hvTripSet_sets (s : State) (c : Fin 24) {n : Nat} (hn : n < 4) : (s.hvTripSet c n).hvState c = 4
    ∧ (s.hvTripSet c n).getF (F.HVS_STATUS_CAUSE c) = n ∧ (s.hvTripSet c n).getF (F.HVS_STATUS_DUTY c) = 0 := by
  rw [State.hvState, State.hvTripSet]
  refine ⟨?_, ?_, ?_⟩
  · rw [getF_putF_apart _ (by simp [Fld.Apart, F.HVS_STATUS_STATE, F.HVS_STATUS_PENDING_ENABLE]),
      getF_putF_apart _ (by simp [Fld.Apart, F.HVS_STATUS_STATE, F.HVS_STATUS_CAUSE]),
      getF_putF_same _ (F.HVS_STATUS_STATE c) _ (by simp [F.HVS_STATUS_STATE])]
    rfl
  · rw [getF_putF_apart _ (by simp [Fld.Apart, F.HVS_STATUS_CAUSE, F.HVS_STATUS_PENDING_ENABLE]),
      getF_putF_same _ (F.HVS_STATUS_CAUSE c) _ (by simp [F.HVS_STATUS_CAUSE])]
    exact Nat.mod_eq_of_lt hn
  · rw [getF_putF_apart _ (by simp [Fld.Apart, F.HVS_STATUS_DUTY, F.HVS_STATUS_PENDING_ENABLE]),
      getF_putF_apart _ (by simp [Fld.Apart, F.HVS_STATUS_DUTY, F.HVS_STATUS_CAUSE]),
      getF_putF_apart _ (by simp [Fld.Apart, F.HVS_STATUS_DUTY, F.HVS_STATUS_STATE]), hvLow_duty]

theorem hvTripNow_status {n : Nat} (h : s.hvState c ≠ 4) :
    (s.hvTripNow c n).getR (R.HVS_STATUS c) = (s.hvTripSet c n).getR (R.HVS_STATUS c) := by
  have hne : R.HVS_STATUS c ≠ R.HVS_TRIPS c := by
    simp only [R.HVS_STATUS, R.HVS_TRIPS]
    omega
  rw [hvTripNow_eq h, State.raise_getR, getR_incR_ne _ 1 hne, updHv_getR]

theorem hvTripNow_arisen {n : Nat} (h : s.hvState c ≠ 4) : (s.hvTripNow c n).Arisen Ev.HVS_TRIP c := by
  rw [hvTripNow_eq h]
  exact arisen_raise ..

theorem hvTripNow_trips {n : Nat} (h : s.hvState c ≠ 4) (hn : n < 4) : (s.hvTripNow c n).hvState c = 4
    ∧ (s.hvTripNow c n).getF (F.HVS_STATUS_CAUSE c) = n ∧ (s.hvTripNow c n).getF (F.HVS_STATUS_DUTY c) = 0
    ∧ (s.hvTripNow c n).Arisen Ev.HVS_TRIP c := by
  obtain ⟨h4, hc, hd⟩ := hvTripSet_sets s c hn
  have hr := hvTripNow_status (n := n) h
  exact ⟨(getF_congr (f := F.HVS_STATUS_STATE c) hr).trans h4, (getF_congr (f := F.HVS_STATUS_CAUSE c) hr).trans hc,
    (getF_congr (f := F.HVS_STATUS_DUTY c) hr).trans hd, hvTripNow_arisen h⟩

/-- The run lengths of a channel follow the levels of this period. -/
def State.hvHot (s : State) (c : Fin 24) : State :=
  s.updHv c fun x => { x with
    hotMon := if s.monOver c then x.hotMon + 1 else 0
    hotAux := if s.auxOver c then x.hotAux + 1 else 0 }

theorem hvJudge_ilk (h : s.ilkOpen (s.getF (F.HVS_CFG_ILK c)) = true) : s.hvJudge c = (s.hvHot c).hvTripNow c 3 := if_pos h

theorem hvJudge_mon (h : s.ilkOpen (s.getF (F.HVS_CFG_ILK c)) = false) (hm : s.monOver c = true) (h2 : 2 ≤ (s.hvOf c).hotMon) :
    s.hvJudge c = (s.hvHot c).hvTripNow c 1 := by
  have h3 : 3 ≤ ((s.hvHot c).hvOf c).hotMon := by
    simp only [State.hvHot, hvOf_updHv, hm, if_true]
    omega
  exact (if_neg (ne_true_of_eq_false h)).trans (if_pos h3)

theorem hvJudge_none (h : s.ilkOpen (s.getF (F.HVS_CFG_ILK c)) = false) (h2 : (s.hvOf c).hotMon < 2) (h2' : (s.hvOf c).hotAux < 2) :
    s.hvJudge c = s.hvHot c := by
  have h3 : ¬3 ≤ ((s.hvHot c).hvOf c).hotMon := by
    simp only [State.hvHot, hvOf_updHv]
    split <;> omega
  have h3' : ¬3 ≤ ((s.hvHot c).hvOf c).hotAux := by
    simp only [State.hvHot, hvOf_updHv]
    split <;> omega
  exact (if_neg (ne_true_of_eq_false h)).trans ((if_neg h3).trans (if_neg h3'))

theorem hvHot_hvs (s : State) (c : Fin 24) : State.Hvs (hvOwn c) s (s.hvHot c) := (State.Hvs.refl _ s).updHv _

theorem hvJudge_hvs (s : State) (c : Fin 24) : State.Hvs (hvOwn c) s (s.hvJudge c) := by
  unfold State.hvJudge
  extract_lets a
  have ha : State.Hvs (hvOwn c) s a := hvHot_hvs s c
  clear_value a
  split
  · exact ha.trans (hvTripNow_hvs a c 3)
  · split
    · exact ha.trans (hvTripNow_hvs a c 1)
    · split
      · exact ha.trans (hvTripNow_hvs a c 2)
      · exact ha

/-! ### The regulator -/

/-- Is the output of a channel driven (R17, R368)? -/
def State.hvDriven (s : State) (c : Fin 24) : Bool := s.vanaGood && !s.outputsHeld && s.getF (F.HVS_CFG_MODE c) != 0

theorem hvDuty_driven {d : F32} (h : s.hvDriven c = true) : s.hvDuty c d = (s.updHv c fun x => { x with duty := d, on := true }).putF
    (F.HVS_STATUS_DUTY c) (F32.clampInt 0 65535 (F32.toInt (F32.mul d (F32.ofNat 65536)))).toNat := by
  simp only [State.hvDriven, Bool.and_eq_true, Bool.not_eq_true', bne_iff_ne] at h
  exact if_neg (by simp [h])

theorem hvDuty_low {d : F32} (h : s.hvDriven c = false) : s.hvDuty c d = s.hvLow c := by
  refine if_pos ?_
  simp only [State.hvDriven] at h
  revert h
  cases s.vanaGood <;> cases s.outputsHeld <;> simp

theorem hvDuty_hvs (s : State) (c : Fin 24) (d : F32) : State.Hvs (hvOwn c) s (s.hvDuty c d) := by
  cases h : s.hvDriven c
  · rw [hvDuty_low h]
    exact hvLow_hvs s c
  · rw [hvDuty_driven h]
    exact State.Hvs.putF ((State.Hvs.refl _ s).updHv _) _ (hvStatus_own c)

/-- What a duty leaves of the channel, and what it gives. -/
theorem hvDuty_gives (s : State) (c : Fin 24) (d : F32) : ((s.hvDuty c d).hvOf c).setp = (s.hvOf c).setp
    ∧ ((s.hvDuty c d).hvOf c).int = (s.hvOf c).int ∧ ((s.hvDuty c d).hvOf c).dac = (s.hvOf c).dac
    ∧ (s.hvDuty c d).hvState c = s.hvState c ∧ ((s.hvDuty c d).hvOf c).on = s.hvDriven c
    ∧ (((s.hvDuty c d).hvOf c).on = true → ((s.hvDuty c d).hvOf c).duty = d ∧ (s.hvDuty c d).getF (F.HVS_STATUS_DUTY c) =
        (F32.clampInt 0 65535 (F32.toInt (F32.mul ((s.hvDuty c d).hvOf c).duty (F32.ofNat 65536)))).toNat)
    ∧ (((s.hvDuty c d).hvOf c).on = false → (s.hvDuty c d).getF (F.HVS_STATUS_DUTY c) = 0) := by
  cases h : s.hvDriven c
  · rw [hvDuty_low h, hvOf_hvLow]
    exact ⟨rfl, rfl, rfl, hvLow_state s c, rfl, fun h => absurd h Bool.false_ne_true, fun _ => hvLow_duty s c⟩
  · rw [hvDuty_driven h, hvOf_putF, hvOf_updHv]
    refine ⟨rfl, rfl, rfl, getF_putF_apart _ (by simp [Fld.Apart, F.HVS_STATUS_DUTY, F.HVS_STATUS_STATE]), rfl, fun _ => ⟨rfl, ?_⟩,
      fun h => absurd h.symm Bool.false_ne_true⟩
    rw [getF_putF_same _ _ _ (by simp [F.HVS_STATUS_DUTY])]
    refine Nat.mod_eq_of_lt ?_
    simp only [F32.clampInt, F.HVS_STATUS_DUTY]
    omega

end Sys2Proof.Machine

end

/-! ## High voltage channels: the clauses (R20, R364 to R368) -/

section

namespace Sys2Proof.Machine

variable {s t : State} {c : Fin 24}

/-! ### One run of the regulator -/

/-- The channel as its set-point has moved. -/
def State.hvMoved (s : State) (c : Fin 24) (sp : F32) : State :=
  if (s.updHv c fun x => { x with setp := sp }).hvState c = 1 && F32.eq sp (s.getR (R.HVS_SET c)) then
    (s.updHv c fun x => { x with setp := sp }).putF (F.HVS_STATUS_STATE c) 2
  else s.updHv c fun x => { x with setp := sp }

theorem hvMoved_hvs (s : State) (c : Fin 24) (sp : F32) : State.Hvs [R.HVS_STATUS c] s (s.hvMoved c sp) := by
  unfold State.hvMoved
  split
  · exact State.Hvs.putF ((State.Hvs.refl _ s).updHv _) _ (List.mem_cons_self ..)
  · exact (State.Hvs.refl _ s).updHv _

theorem hvMoved_hvOf (s : State) (c : Fin 24) (sp : F32) : (s.hvMoved c sp).hvOf c = { s.hvOf c with setp := sp } := by
  unfold State.hvMoved
  split
  · rw [hvOf_putF, hvOf_updHv]
  · rw [hvOf_updHv]

theorem hvMoved_state (s : State) (c : Fin 24) (sp : F32) :
    (s.hvMoved c sp).hvState c = if s.hvState c = 1 ∧ F32.eq sp (s.getR (R.HVS_SET c)) = true then 2 else s.hvState c := by
  have hu : (s.updHv c fun x => { x with setp := sp }).hvState c = s.hvState c := updHv_getF ..
  unfold State.hvMoved
  rw [hu]
  split
  · next h =>
    rw [if_pos (by simpa using h), State.hvState, getF_putF_same _ _ _ (by simp [F.HVS_STATUS_STATE])]
    rfl
  · next h => rw [if_neg (by simpa using h), hu]

/-- The value of the DC regulator on an error. -/
def State.hvRaw (s : State) (c : Fin 24) (e : F32) : F32 := F32.add (F32.mul (s.getR (R.HVS_KP c)) e) (s.hvOf c).int

/-- Does the regulator hold its integrator: at a limit, with the error driving it further? -/
def State.hvHolds (s : State) (c : Fin 24) (e : F32) : Bool :=
  (F32.le (s.hvDmax c) (s.hvRaw c e) && F32.lt (F32.zero false) e) || (F32.le (s.hvRaw c e) (F32.zero false) && F32.lt e (F32.zero false))

/-- The integrator after a period of `secs` seconds. -/
def State.hvInt (s : State) (c : Fin 24) (e secs : F32) : F32 :=
  if s.hvHolds c e then (s.hvOf c).int else F32.add (s.hvOf c).int (F32.mul (F32.mul (s.getR (R.HVS_KI c)) e) secs)

/-- The channel with its integrator stepped, in CV and CC mode. -/
def State.hvStepped (s : State) (c : Fin 24) (e secs : F32) : State :=
  (s.updHv c fun y => { y with int := s.hvInt c e secs }).putB (F.HVS_STATUS_DCLAMP c) (s.hvHolds c e)

theorem hvRegulate_direct {secs ms : F32} (h : s.getF (F.HVS_CFG_MODE c) ≤ 1) : s.hvRegulate c secs ms =
    ((s.hvMoved c (s.hvRamp c ms)).putF (F.HVS_STATUS_DCLAMP c) 0).hvDuty c
      (F32.clamp (F32.zero false) ((s.hvMoved c (s.hvRamp c ms)).hvDmax c) (s.hvRamp c ms)) := by
  have hm : (s.hvMoved c (s.hvRamp c ms)).getF (F.HVS_CFG_MODE c) ≤ 1 := by
    rw [(hvMoved_hvs s c _).getF _ (by simp [F.HVS_CFG_MODE, R.HVS_CFG, R.HVS_STATUS])]
    exact h
  exact if_pos hm

theorem hvRegulate_closed {secs ms : F32} (h : ¬s.getF (F.HVS_CFG_MODE c) ≤ 1) : s.hvRegulate c secs ms =
    ((s.hvMoved c (s.hvRamp c ms)).hvStepped c (F32.sub (s.hvRamp c ms) ((s.hvMoved c (s.hvRamp c ms)).getR (R.HVS_MON c))) secs).hvDuty c
      (F32.clamp (F32.zero false) ((s.hvMoved c (s.hvRamp c ms)).hvDmax c)
        ((s.hvMoved c (s.hvRamp c ms)).hvRaw c (F32.sub (s.hvRamp c ms) ((s.hvMoved c (s.hvRamp c ms)).getR (R.HVS_MON c))))) := by
  have hm : ¬(s.hvMoved c (s.hvRamp c ms)).getF (F.HVS_CFG_MODE c) ≤ 1 := by
    rw [(hvMoved_hvs s c _).getF _ (by simp [F.HVS_CFG_MODE, R.HVS_CFG, R.HVS_STATUS])]
    exact h
  exact if_neg hm

theorem hvRegulate_hvs (s : State) (c : Fin 24) (secs ms : F32) : State.Hvs (hvOwn c) s (s.hvRegulate c secs ms) := by
  have hm : State.Hvs (hvOwn c) s (s.hvMoved c (s.hvRamp c ms)) := (hvMoved_hvs s c _).mono (by simp [hvOwn])
  by_cases h : s.getF (F.HVS_CFG_MODE c) ≤ 1
  · rw [hvRegulate_direct h]
    generalize s.hvMoved c (s.hvRamp c ms) = b at hm ⊢
    exact (hm.putF (f := F.HVS_STATUS_DCLAMP c) 0 (hvStatus_own c)).trans (hvDuty_hvs _ c _)
  · rw [hvRegulate_closed h]
    generalize s.hvMoved c (s.hvRamp c ms) = b at hm ⊢
    exact ((hm.updHv _).putF (f := F.HVS_STATUS_DCLAMP c) _ (hvStatus_own c)).trans (hvDuty_hvs _ c _)

/-- What the regulator gives at set-point `sp` and error `e`. -/
def State.HvGives (c : Fin 24) (secs sp e : F32) (s t : State) : Prop :=
  (t.hvOf c).setp = sp ∧ t.hvState c = (if s.hvState c = 1 ∧ F32.eq sp (s.getR (R.HVS_SET c)) = true then 2 else s.hvState c)
    ∧ (t.hvOf c).dac = (s.hvOf c).dac ∧ (2 ≤ s.getF (F.HVS_CFG_MODE c) → (t.hvOf c).int = s.hvInt c e secs)
    ∧ (t.hvOf c).on = s.hvDriven c
    ∧ ((t.hvOf c).on = true →
      (t.hvOf c).duty = F32.clamp (F32.zero false) (s.hvDmax c) (if s.getF (F.HVS_CFG_MODE c) = 1 then sp else s.hvRaw c e)
      ∧ t.getF (F.HVS_STATUS_DUTY c) = (F32.clampInt 0 65535 (F32.toInt (F32.mul (t.hvOf c).duty (F32.ofNat 65536)))).toNat)
    ∧ ((t.hvOf c).on = false → t.getF (F.HVS_STATUS_DUTY c) = 0)

theorem State.Hvs.hvDriven {os : List Nat} (a : State.Hvs os s t) (hr : ∀ o, o / 65536 ≠ 0x10 → o ∉ os) (hc : R.HVS_CFG c ∉ os) :
    t.hvDriven c = s.hvDriven c := by
  have h0 : ∀ f : Fld, f.off / 65536 ≠ 0x10 → t.getF f = s.getF f := fun f hf => a.getF f (hr _ hf)
  have hv : t.vanaGood = s.vanaGood := by
    rw [State.vanaGood, State.vanaGood, h0 _ (by simp only [F.PSQ_RAIL_STATUS_STATE, R.PSQ_RAIL_STATUS]; omega)]
  have ho : t.outputsHeld = s.outputsHeld := by
    rw [State.outputsHeld, State.outputsHeld, State.flag, State.flag, h0 F.BRG_STATUS_DRIVE_SAFE (by decide),
      h0 F.DEV_STATE_STATE (by decide)]
  rw [State.hvDriven, State.hvDriven, hv, ho, a.getF (F.HVS_CFG_MODE c) hc]

theorem hvSetup_status {o : Nat} (h : hvSetup c o) : o ∉ [R.HVS_STATUS c] := fun hm => h.2 (List.mem_singleton.1 hm)

theorem hvSetup_mem (c : Fin 24) : hvSetup c (R.HVS_CFG c) ∧ hvSetup c (R.HVS_SCALE c) ∧ hvSetup c (R.HVS_ASCALE c) ∧ hvSetup c (R.HVS_KP c)
    ∧ hvSetup c (R.HVS_KI c) ∧ hvSetup c (R.HVS_DLIM c) ∧ hvSetup c (R.HVS_RAMP_UP c) ∧ hvSetup c (R.HVS_RAMP_DN c) ∧ hvSetup c (R.HVS_SET c)
    ∧ hvSetup c (R.HVS_TRIP_MON c) ∧ hvSetup c (R.HVS_TRIP_AUX c) ∧ hvSetup c (R.HVS_AC_FREQ c) ∧ hvSetup c (R.HVS_AC_SET c)
    ∧ hvSetup c (R.HVS_AC_KI c) := by
  simp only [hvSetup, R.HVS_CFG, R.HVS_SCALE, R.HVS_ASCALE, R.HVS_KP, R.HVS_KI, R.HVS_DLIM, R.HVS_RAMP_UP, R.HVS_RAMP_DN, R.HVS_SET,
    R.HVS_TRIP_MON, R.HVS_TRIP_AUX, R.HVS_AC_FREQ, R.HVS_AC_SET, R.HVS_AC_KI, R.HVS_STATUS]
  omega

theorem hvStatus_rails {o : Nat} (h : o / 65536 ≠ 0x10) : o ∉ [R.HVS_STATUS c] := by
  simp only [R.HVS_STATUS, List.mem_singleton]
  omega

theorem hvRegulate_gives (s : State) (c : Fin 24) (secs ms : F32) :
    s.HvGives c secs (s.hvRamp c ms) (F32.sub (s.hvRamp c ms) (s.getR (R.HVS_MON c))) (s.hvRegulate c secs ms) := by
  obtain ⟨hcfg, -, -, hkp, hki, hlim, -⟩ := hvSetup_mem c
  have hf := hvMoved_hvs s c (s.hvRamp c ms)
  have hof := hvMoved_hvOf s c (s.hvRamp c ms)
  have hst := hvMoved_state s c (s.hvRamp c ms)
  have hdr : (s.hvMoved c (s.hvRamp c ms)).hvDriven c = s.hvDriven c := hf.hvDriven (fun _ => hvStatus_rails) (hvSetup_status hcfg)
  have hmon : (s.hvMoved c (s.hvRamp c ms)).getR (R.HVS_MON c) = s.getR (R.HVS_MON c) := hf.getR (by
    simp only [R.HVS_MON, R.HVS_STATUS, List.mem_singleton]
    omega)
  have hdm : (s.hvMoved c (s.hvRamp c ms)).hvDmax c = s.hvDmax c := by
    rw [State.hvDmax, State.hvDmax, hf.getF (F.HVS_DLIM c) (hvSetup_status hlim)]
  by_cases h : s.getF (F.HVS_CFG_MODE c) ≤ 1
  · rw [hvRegulate_direct h, hdm]
    generalize hsp : s.hvRamp c ms = sp at *
    generalize s.hvMoved c sp = b at *
    have hd : (b.putF (F.HVS_STATUS_DCLAMP c) 0).hvDriven c = s.hvDriven c :=
      (State.Hvs.hvDriven (State.Hvs.putF (.refl _ b) (f := F.HVS_STATUS_DCLAMP c) 0 (List.mem_singleton_self _)) (fun _ => hvStatus_rails)
        (hvSetup_status hcfg)).trans hdr
    have hs : (b.putF (F.HVS_STATUS_DCLAMP c) 0).hvState c = b.hvState c :=
      getF_putF_apart _ (by simp [Fld.Apart, F.HVS_STATUS_DCLAMP, F.HVS_STATUS_STATE])
    obtain ⟨h1, h2, h3, h4, h5, h6, h7⟩ := hvDuty_gives (b.putF (F.HVS_STATUS_DCLAMP c) 0) c (F32.clamp (F32.zero false) (s.hvDmax c) sp)
    rw [hvOf_putF, hof] at h1 h2 h3
    refine ⟨h1, h4.trans (hs.trans hst), h3, fun h2' => absurd h2' (by omega), h5.trans hd, fun hon => ?_, h7⟩
    obtain ⟨h8, h9⟩ := h6 hon
    have hm1 : s.getF (F.HVS_CFG_MODE c) = 1 := by
      rw [h5, hd, State.hvDriven] at hon
      simp only [Bool.and_eq_true, bne_iff_ne] at hon
      omega
    rw [if_pos hm1]
    exact ⟨h8, h9⟩
  · rw [hvRegulate_closed h, hdm, hmon]
    generalize hsp : s.hvRamp c ms = sp at *
    generalize F32.sub sp (s.getR (R.HVS_MON c)) = e
    have hraw : (s.hvMoved c sp).hvRaw c e = s.hvRaw c e := by
      rw [State.hvRaw, State.hvRaw, hof, hf.getR (hvSetup_status hkp)]
    have hint : (s.hvMoved c sp).hvInt c e secs = s.hvInt c e secs := by
      rw [State.hvInt, State.hvInt, State.hvHolds, State.hvHolds, hraw, hdm, hof, hf.getR (hvSetup_status hki)]
    rw [hraw]
    generalize s.hvMoved c sp = b at *
    have hd : (b.hvStepped c e secs).hvDriven c = s.hvDriven c :=
      (State.Hvs.hvDriven (State.Hvs.putF ((State.Hvs.refl _ b).updHv _) (f := F.HVS_STATUS_DCLAMP c) _ (List.mem_singleton_self _))
        (fun _ => hvStatus_rails) (hvSetup_status hcfg)).trans hdr
    have hs : (b.hvStepped c e secs).hvState c = b.hvState c := by
      rw [State.hvState, State.hvStepped, State.putB, getF_putF_apart _ (by simp [Fld.Apart, F.HVS_STATUS_DCLAMP, F.HVS_STATUS_STATE]),
        updHv_getF, State.hvState]
    have ho : (b.hvStepped c e secs).hvOf c = { s.hvOf c with setp := sp, int := s.hvInt c e secs } := by
      rw [State.hvStepped, State.putB, hvOf_putF, hvOf_updHv, hof, hint]
    generalize b.hvStepped c e secs = d at *
    obtain ⟨h1, h2, h3, h4, h5, h6, h7⟩ := hvDuty_gives d c (F32.clamp (F32.zero false) (s.hvDmax c) (s.hvRaw c e))
    rw [ho] at h1 h2 h3
    refine ⟨h1, h4.trans (hs.trans hst), h3, fun _ => h2, h5.trans hd, fun hon => ?_, h7⟩
    obtain ⟨h8, h9⟩ := h6 hon
    rw [if_neg (by omega)]
    exact ⟨h8, h9⟩

end Sys2Proof.Machine

end

/-! ## High voltage channels: conversions, trips and commands (R20, R364 to R368) -/

section

namespace Sys2Proof.Machine

variable {s t : State} {c : Fin 24}

/-! ### Conversions -/

/-- The amplitude of an AC cycle is taken. -/
def State.hvAc (s : State) (c : Fin 24) (amp : F32) : State :=
  if (s.putR (R.HVS_AC_MEAS c) amp).hvRuns c then (s.putR (R.HVS_AC_MEAS c) amp).hvAcLoop c else s.putR (R.HVS_AC_MEAS c) amp

/-- What goes before the conversions: the amplitude loop of an AC channel. -/
def State.hvPre (s : State) (c : Fin 24) (amp : F32) : State := if s.flag (F.HVS_CFG_AC c) then s.hvAc c amp else s

/-- The amplitude of an AC channel, as its loop moves it. -/
def State.hvDac (s : State) (c : Fin 24) (amp : F32) : F32 := F32.clamp
  (F32.neg (F32.fmin (s.hvOf c).duty (F32.sub (s.hvDmax c) (s.hvOf c).duty)))
  (F32.fmin (s.hvOf c).duty (F32.sub (s.hvDmax c) (s.hvOf c).duty))
  (F32.add (s.hvOf c).dac (F32.mul (s.getR (R.HVS_AC_KI c)) (F32.sub (s.getR (R.HVS_AC_SET c)) amp)))

theorem hvMeas_ne (c : Fin 24) : R.HVS_MON c ≠ R.HVS_AUX c ∧ R.HVS_AC_MEAS c ≠ R.HVS_MON c ∧ R.HVS_AC_MEAS c ≠ R.HVS_AUX c
    ∧ R.HVS_STATUS c ≠ R.HVS_MON c ∧ R.HVS_STATUS c ≠ R.HVS_AUX c ∧ R.HVS_STATUS c ≠ R.HVS_AC_MEAS c := by
  simp only [R.HVS_MON, R.HVS_AUX, R.HVS_AC_MEAS, R.HVS_STATUS]
  omega

theorem hvMeas_own (c : Fin 24) : R.HVS_MON c ∉ hvOwn c ∧ R.HVS_AUX c ∉ hvOwn c ∧ R.HVS_AC_MEAS c ∉ hvOwn c := by
  simp only [hvOwn, R.HVS_MON, R.HVS_AUX, R.HVS_AC_MEAS, R.HVS_STATUS, R.HVS_TRIPS, List.mem_cons, List.not_mem_nil, or_false]
  omega

theorem hvAll_mem (c : Fin 24) : R.HVS_STATUS c ∈ hvAll c ∧ R.HVS_MON c ∈ hvAll c ∧ R.HVS_AUX c ∈ hvAll c ∧ R.HVS_AC_MEAS c ∈ hvAll c := by
  simp [hvAll]

theorem hvRuns_congr (h : t.hvState c = s.hvState c) : t.hvRuns c = s.hvRuns c := by
  rw [State.hvRuns, State.hvRuns, h]

/-- The loop of the amplitude writes ACLAMP and the amplitude alone. -/
theorem hvAcLoop_eq (s : State) (c : Fin 24) : ∃ b, s.hvAcLoop c = (s.updHv c fun x => { x with
    dac := s.hvDac c (s.getR (R.HVS_AC_MEAS c)) }).putB (F.HVS_STATUS_ACLAMP c) b := ⟨_, rfl⟩

theorem hvAc_keeps (s : State) (c : Fin 24) (amp : F32) : State.Hvs (hvAll c) s (s.hvAc c amp) ∧ (s.hvAc c amp).hvState c = s.hvState c
    ∧ (s.hvAc c amp).getR (R.HVS_AC_MEAS c) = amp
    ∧ (s.hvRuns c = true → (s.hvAc c amp).hvOf c = { s.hvOf c with dac := s.hvDac c amp }) ∧ (s.hvRuns c = false → (s.hvAc c amp).heat = s.heat) := by
  obtain ⟨-, hm1, hm2, hs1, hs2, hs3⟩ := hvMeas_ne c
  obtain ⟨hmem, -, -, hmeas⟩ := hvAll_mem c
  have hp : State.Hvs (hvAll c) s (s.putR (R.HVS_AC_MEAS c) amp) := (State.Hvs.refl _ s).putR _ hmeas
  have hst : (s.putR (R.HVS_AC_MEAS c) amp).hvState c = s.hvState c := getF_congr (f := F.HVS_STATUS_STATE c) (getR_putR_ne s _ hs3)
  have hr : (s.putR (R.HVS_AC_MEAS c) amp).getR (R.HVS_AC_MEAS c) = amp := getR_putR_same ..
  have hof : (s.putR (R.HVS_AC_MEAS c) amp).hvOf c = s.hvOf c := rfl
  have hheat : (s.putR (R.HVS_AC_MEAS c) amp).heat = s.heat := rfl
  have hdac : (s.putR (R.HVS_AC_MEAS c) amp).hvDac c amp = s.hvDac c amp := by
    have h1 : ∀ o, hvSetup c o → (s.putR (R.HVS_AC_MEAS c) amp).getR o = s.getR o := fun o ho => hp.getR (hvSetup_all ho)
    obtain ⟨-, -, -, -, -, hl, -, -, -, -, -, -, hset, hki⟩ := hvSetup_mem c
    rw [State.hvDac, State.hvDac, State.hvDmax, State.hvDmax, hof, getF_congr (f := F.HVS_DLIM c) (h1 _ hl), h1 _ hset, h1 _ hki]
  rw [State.hvAc, hvRuns_congr hst]
  generalize s.putR (R.HVS_AC_MEAS c) amp = b at *
  split
  · next hrun =>
    obtain ⟨v, hv⟩ := hvAcLoop_eq b c
    rw [hr, hdac] at hv
    rw [hv, State.putB]
    refine ⟨State.Hvs.putF (hp.updHv _) _ hmem, ?_, ?_, fun _ => ?_, fun h => absurd (h.symm.trans hrun) Bool.false_ne_true⟩
    · rw [State.hvState, getF_putF_apart _ (by simp [Fld.Apart, F.HVS_STATUS_ACLAMP, F.HVS_STATUS_STATE]), updHv_getF]
      exact hst
    · exact (getR_putF_ne _ (F.HVS_STATUS_ACLAMP c) _ _ hs3.symm).trans ((updHv_getR ..).trans hr)
    · rw [hvOf_putF, hvOf_updHv, hof]
  · next hrun => exact ⟨hp, hst, hr, fun h => absurd h hrun, fun _ => hheat⟩

theorem hvPre_keeps (s : State) (c : Fin 24) (amp : F32) : State.Hvs (hvAll c) s (s.hvPre c amp) ∧ (s.hvPre c amp).hvState c = s.hvState c
    ∧ (s.flag (F.HVS_CFG_AC c) = true → (s.hvPre c amp).getR (R.HVS_AC_MEAS c) = amp)
    ∧ (s.hvRuns c = true → ∃ d, (s.hvPre c amp).hvOf c = { s.hvOf c with dac := d } ∧ (s.flag (F.HVS_CFG_AC c) = true → d = s.hvDac c amp))
    ∧ (s.hvRuns c = false → (s.hvPre c amp).heat = s.heat) := by
  unfold State.hvPre
  cases h : s.flag (F.HVS_CFG_AC c)
  · exact ⟨.refl _ s, rfl, fun h => absurd h Bool.false_ne_true, fun _ => ⟨_, rfl, fun h => absurd h Bool.false_ne_true⟩, fun _ => rfl⟩
  · obtain ⟨h1, h2, h3, h4, h5⟩ := hvAc_keeps s c amp
    exact ⟨h1, h2, fun _ => h3, fun hr => ⟨_, h4 hr, fun _ => rfl⟩, h5⟩

/-- Conversions write the registers of MON and AUX alone. -/
theorem hvMeasure_keeps (s : State) (c : Fin 24) (mon aux : BitVec 14) : State.Hvs (hvAll c) s (s.hvMeasure c mon aux)
    ∧ (s.hvMeasure c mon aux).getR (R.HVS_STATUS c) = s.getR (R.HVS_STATUS c)
    ∧ (s.hvMeasure c mon aux).getR (R.HVS_AC_MEAS c) = s.getR (R.HVS_AC_MEAS c) ∧ (s.hvMeasure c mon aux).heat = s.heat
    ∧ (s.hvMeasure c mon aux).getR (R.HVS_MON c) = F32.mul (F32.ofNat mon.toNat) (s.getR (R.HVS_SCALE c))
    ∧ (s.getF (F.HVS_CFG_AUX c) ≠ 63 →
      (s.hvMeasure c mon aux).getR (R.HVS_AUX c) = F32.mul (F32.ofNat aux.toNat) (s.getR (R.HVS_ASCALE c))) := by
  obtain ⟨hma, hm1, hm2, hs1, hs2, -⟩ := hvMeas_ne c
  obtain ⟨-, hmon, haux, -⟩ := hvAll_mem c
  obtain ⟨hcfg, -, hasc, -⟩ := hvSetup_mem c
  unfold State.hvMeasure
  extract_lets b
  have hb : State.Hvs (hvAll c) s b := (State.Hvs.refl _ s).putR _ hmon
  have hst : b.getR (R.HVS_STATUS c) = s.getR (R.HVS_STATUS c) := getR_putR_ne _ _ hs1
  have hac : b.getR (R.HVS_AC_MEAS c) = s.getR (R.HVS_AC_MEAS c) := getR_putR_ne _ _ hm1
  have hm : b.getR (R.HVS_MON c) = F32.mul (F32.ofNat mon.toNat) (s.getR (R.HVS_SCALE c)) := getR_putR_same ..
  have hh : b.heat = s.heat := rfl
  clear_value b
  rw [hb.getF (F.HVS_CFG_AUX c) (hvSetup_all hcfg)]
  split
  · next h => exact ⟨hb, hst, hac, hh, hm, fun h' => absurd h h'⟩
  · refine ⟨hb.putR _ haux, ?_, ?_, hh, ?_, fun _ => ?_⟩
    · rw [getR_putR_ne _ _ hs2, hst]
    · rw [getR_putR_ne _ _ hm2, hac]
    · rw [getR_putR_ne _ _ hma, hm]
    · rw [getR_putR_same, hb.getR (hvSetup_all hasc)]

/-- The channel with its amplitude and its conversions taken. -/
def State.hvTaken (s : State) (c : Fin 24) (mon aux : BitVec 14) (amp : F32) : State := (s.hvPre c amp).hvMeasure c mon aux

theorem hvTaken_keeps (s : State) (c : Fin 24) (mon aux : BitVec 14) (amp : F32) : State.Hvs (hvAll c) s (s.hvTaken c mon aux amp)
    ∧ (s.hvTaken c mon aux amp).hvState c = s.hvState c
    ∧ (s.hvTaken c mon aux amp).getR (R.HVS_MON c) = F32.mul (F32.ofNat mon.toNat) (s.getR (R.HVS_SCALE c))
    ∧ (s.getF (F.HVS_CFG_AUX c) ≠ 63 →
      (s.hvTaken c mon aux amp).getR (R.HVS_AUX c) = F32.mul (F32.ofNat aux.toNat) (s.getR (R.HVS_ASCALE c)))
    ∧ (s.flag (F.HVS_CFG_AC c) = true → (s.hvTaken c mon aux amp).getR (R.HVS_AC_MEAS c) = amp)
    ∧ (s.hvRuns c = true → ∃ d, (s.hvTaken c mon aux amp).hvOf c = { s.hvOf c with dac := d }
      ∧ (s.flag (F.HVS_CFG_AC c) = true → d = s.hvDac c amp))
    ∧ (s.hvRuns c = false → (s.hvTaken c mon aux amp).heat = s.heat) := by
  obtain ⟨hp, hps, hpm, hpo, hph⟩ := hvPre_keeps s c amp
  obtain ⟨hm, hms, hmac, hmh, hmm, hma⟩ := hvMeasure_keeps (s.hvPre c amp) c mon aux
  obtain ⟨hcfg, hsc, hasc, -⟩ := hvSetup_mem c
  refine ⟨hp.trans hm, (getF_congr (f := F.HVS_STATUS_STATE c) hms).trans hps, ?_, fun h => ?_, fun h => hmac.trans (hpm h), fun h => ?_,
    fun h => hmh.trans (hph h)⟩
  · rw [← hp.getR (hvSetup_all hsc)]
    exact hmm
  · rw [← hp.getR (hvSetup_all hasc)]
    rw [← hp.getF (F.HVS_CFG_AUX c) (hvSetup_all hcfg)] at h
    exact hma h
  · obtain ⟨d, hd, hd'⟩ := hpo h
    have ho : (s.hvTaken c mon aux amp).hvOf c = (s.hvPre c amp).hvOf c := by
      rw [State.hvTaken, State.hvOf, hmh, State.hvOf]
    exact ⟨d, ho.trans hd, hd'⟩

/-! ### A run of the regulator -/

/-- A run goes on from the conversions: a channel that runs is judged, and regulated where it did not trip. -/
def State.hvOn (s : State) (c : Fin 24) (secs ms : F32) : State :=
  if s.hvRuns c then (if (s.hvJudge c).hvRuns c then (s.hvJudge c).hvRegulate c secs ms else s.hvJudge c) else s

theorem hvRun_eq (s : State) (c : Fin 24) (mon aux : BitVec 14) (amp secs ms : F32) :
    (s.hvPre c amp).hvRun c mon aux secs ms = (s.hvTaken c mon aux amp).hvOn c secs ms := rfl

theorem hvOn_hvs (s : State) (c : Fin 24) (secs ms : F32) : State.Hvs (hvOwn c) s (s.hvOn c secs ms) := by
  unfold State.hvOn
  split
  · split
    · exact (hvJudge_hvs s c).trans (hvRegulate_hvs _ c _ _)
    · exact hvJudge_hvs s c
  · exact .refl _ s

theorem hvRuns_iff : s.hvRuns c = true ↔ 1 ≤ s.hvState c ∧ s.hvState c ≤ 3 := by
  rw [State.hvRuns, Bool.and_eq_true, Nat.ble_eq, Nat.ble_eq]

/-- A run in which the channel trips ends there. -/
theorem hvOn_trips {n : Nat} (hr : s.hvRuns c = true) (hj : s.hvJudge c = (s.hvHot c).hvTripNow c n) (hn : n < 4) (secs ms : F32) :
    (s.hvOn c secs ms).hvState c = 4 ∧ (s.hvOn c secs ms).getF (F.HVS_STATUS_CAUSE c) = n
      ∧ (s.hvOn c secs ms).getF (F.HVS_STATUS_DUTY c) = 0 ∧ (s.hvOn c secs ms).Arisen Ev.HVS_TRIP c := by
  have hst : (s.hvHot c).hvState c = s.hvState c := updHv_getF ..
  have hne : (s.hvHot c).hvState c ≠ 4 := by
    obtain ⟨-, h3⟩ := hvRuns_iff.1 hr
    omega
  have ht := hvTripNow_trips hne hn
  have hstop : ¬((s.hvHot c).hvTripNow c n).hvRuns c = true := fun h => by
    obtain ⟨-, h3⟩ := hvRuns_iff.1 h
    rw [ht.1] at h3
    omega
  rw [State.hvOn, if_pos hr, hj, if_neg hstop]
  exact ht

/-- A run in which no trip comes regulates. -/
theorem hvOn_regulates (hr : s.hvRuns c = true) (hj : s.hvJudge c = s.hvHot c) (secs ms : F32) :
    s.hvOn c secs ms = (s.hvHot c).hvRegulate c secs ms := by
  have hst : (s.hvHot c).hvRuns c = s.hvRuns c := hvRuns_congr (updHv_getF ..)
  rw [State.hvOn, if_pos hr, hj, if_pos (hst.trans hr)]

end Sys2Proof.Machine

end

/-! ## High voltage channels: the statement (R20, R364 to R368) -/

section

namespace Sys2Proof.Machine

variable {s t : State} {c : Fin 24}

/-- A conversion instant of a channel: its regulator's period, or its AC cycle. -/
def hvInstant (s : State) (c : Fin 24) (mon aux : BitVec 14) (i : Instr) (amp per ms : F32) : Prop :=
  (i = .hvRegulate c mon aux ∧ s.flag (F.HVS_CFG_AC c) = false ∧ per = f10us ∧ ms = f10usMs)
    ∨ (i = .hvAcCycle c mon aux amp ∧ s.flag (F.HVS_CFG_AC c) = true ∧ per = F32.ofRat 1 (s.getF (F.HVS_AC_FREQ c))
      ∧ ms = F32.ofRat 1000 (s.getF (F.HVS_AC_FREQ c)))

section instant

variable {mon aux : BitVec 14} {i : Instr} {amp per ms : F32}

theorem hvInstant_exec (h : hvInstant s c mon aux i amp per ms) : exec i s = .next ((s.hvTaken c mon aux amp).hvOn c per ms) := by
  rw [← hvRun_eq]
  obtain ⟨rfl, hac, rfl, rfl⟩ | ⟨rfl, hac, rfl, rfl⟩ := h
  · have hp : s.hvPre c amp = s := if_neg (ne_true_of_eq_false hac)
    rw [hp]
    exact congrArg Host.Outcome.next (if_neg (ne_true_of_eq_false hac))
  · have hp : s.hvPre c amp = s.hvAc c amp := if_pos hac
    have hf : (s.putR (R.HVS_AC_MEAS c) amp).getF (F.HVS_AC_FREQ c) = s.getF (F.HVS_AC_FREQ c) :=
      getF_congr (getR_putR_ne s amp (by simp only [F.HVS_AC_FREQ, R.HVS_AC_FREQ, R.HVS_AC_MEAS]; omega))
    rw [hp, ← hf]
    exact congrArg Host.Outcome.next (if_pos hac)

theorem hvInstant_measures (h : hvInstant s c mon aux i amp per ms) : Leads s i fun t =>
    t.getR (R.HVS_MON c) = F32.mul (F32.ofNat mon.toNat) (s.getR (R.HVS_SCALE c))
      ∧ (s.getF (F.HVS_CFG_AUX c) ≠ 63 → t.getR (R.HVS_AUX c) = F32.mul (F32.ofNat aux.toNat) (s.getR (R.HVS_ASCALE c)))
      ∧ (s.flag (F.HVS_CFG_AC c) = true → t.getR (R.HVS_AC_MEAS c) = amp)
      ∧ (s.hvRuns c = false → t.heat = s.heat ∧ t.hvState c = s.hvState c) := by
  obtain ⟨-, hst, hmon, haux, hmeas, -, hheat⟩ := hvTaken_keeps s c mon aux amp
  obtain ⟨hm, ha, hac⟩ := hvMeas_own c
  have hon := hvOn_hvs (s.hvTaken c mon aux amp) c per ms
  refine ⟨_, hvInstant_exec h, (hon.getR hm).trans hmon, fun h => (hon.getR ha).trans (haux h), fun h => (hon.getR hac).trans (hmeas h),
    fun hr => ?_⟩
  have hstop : (s.hvTaken c mon aux amp).hvOn c per ms = s.hvTaken c mon aux amp :=
    if_neg (ne_true_of_eq_false ((hvRuns_congr hst).trans hr))
  rw [hstop]
  exact ⟨hheat hr, hst⟩

theorem hvTaken_runs (hr : s.hvRuns c = true) : (s.hvTaken c mon aux amp).hvRuns c = true :=
  (hvRuns_congr (hvTaken_keeps s c mon aux amp).2.1).trans hr

theorem hvTaken_ilk (s : State) (c : Fin 24) (mon aux : BitVec 14) (amp : F32) :
    (s.hvTaken c mon aux amp).ilkOpen ((s.hvTaken c mon aux amp).getF (F.HVS_CFG_ILK c)) = s.ilkOpen (s.getF (F.HVS_CFG_ILK c)) := by
  have hf := (hvTaken_keeps s c mon aux amp).1
  obtain ⟨hcfg, -⟩ := hvSetup_mem c
  rw [hf.getF (F.HVS_CFG_ILK c) (hvSetup_all hcfg), State.ilkOpen, State.ilkOpen, hf.brg]

theorem hvInstant_ilk (h : hvInstant s c mon aux i amp per ms) (hr : s.hvRuns c = true)
    (ho : s.ilkOpen (s.getF (F.HVS_CFG_ILK c)) = true) : Leads s i fun t =>
      t.hvState c = 4 ∧ t.getF (F.HVS_STATUS_CAUSE c) = 3 ∧ t.getF (F.HVS_STATUS_DUTY c) = 0 ∧ t.Arisen Ev.HVS_TRIP c :=
  ⟨_, hvInstant_exec h, hvOn_trips (hvTaken_runs hr) (hvJudge_ilk ((hvTaken_ilk ..).trans ho)) (by decide) per ms⟩

theorem hvInstant_mon (h : hvInstant s c mon aux i amp per ms) (hr : s.hvRuns c = true) (h2 : 2 ≤ (s.hvOf c).hotMon)
    (ho : s.ilkOpen (s.getF (F.HVS_CFG_ILK c)) = false)
    (hm : F32.lt (s.getR (R.HVS_TRIP_MON c)) (F32.abs (F32.mul (F32.ofNat mon.toNat) (s.getR (R.HVS_SCALE c)))) = true) :
    Leads s i fun t =>
      t.hvState c = 4 ∧ t.getF (F.HVS_STATUS_CAUSE c) = 1 ∧ t.getF (F.HVS_STATUS_DUTY c) = 0 ∧ t.Arisen Ev.HVS_TRIP c := by
  obtain ⟨hf, -, hmon, -, -, hof, -⟩ := hvTaken_keeps s c mon aux amp
  obtain ⟨-, -, -, -, -, -, -, -, -, htrip, -⟩ := hvSetup_mem c
  obtain ⟨d, hd, -⟩ := hof hr
  have hover : (s.hvTaken c mon aux amp).monOver c = true := by
    rw [State.monOver, hmon, hf.getR (hvSetup_all htrip)]
    exact hm
  exact ⟨_, hvInstant_exec h, hvOn_trips (hvTaken_runs hr) (hvJudge_mon ((hvTaken_ilk ..).trans ho) hover (by rw [hd]; exact h2)) (by decide) per ms⟩

theorem hvRamp_congr (hf : State.Hvs (hvAll c) s t) (hst : t.hvState c = s.hvState c) (hsp : (t.hvOf c).setp = (s.hvOf c).setp)
    (hrs : (t.hvOf c).resetStep = (s.hvOf c).resetStep) (ms : F32) : t.hvRamp c ms = s.hvRamp c ms := by
  obtain ⟨-, -, -, -, -, -, hup, hdn, hset, -⟩ := hvSetup_mem c
  have hr : ∀ b : Bool, t.getR (if b then R.HVS_RAMP_UP c else R.HVS_RAMP_DN c) = s.getR (if b then R.HVS_RAMP_UP c else R.HVS_RAMP_DN c) := by
    intro b
    cases b
    · exact hf.getR (hvSetup_all hdn)
    · exact hf.getR (hvSetup_all hup)
  rw [State.hvRamp, State.hvRamp, hst, hsp, hrs, hf.getR (hvSetup_all hset)]
  simp only [hr]

theorem hvInstant_regulates (h : hvInstant s c mon aux i amp per ms) {sp e raw : F32} (hr : s.hvRuns c = true)
    (ho : s.ilkOpen (s.getF (F.HVS_CFG_ILK c)) = false) (hm2 : (s.hvOf c).hotMon < 2) (ha2 : (s.hvOf c).hotAux < 2)
    (hsp : sp = s.hvRamp c ms) (he : e = F32.sub sp (F32.mul (F32.ofNat mon.toNat) (s.getR (R.HVS_SCALE c))))
    (hraw : raw = F32.add (F32.mul (s.getR (R.HVS_KP c)) e) (s.hvOf c).int) :
    Leads s i fun t => (t.hvOf c).setp = sp
      ∧ t.hvState c = (if s.hvState c = 1 ∧ F32.eq sp (s.getR (R.HVS_SET c)) = true then 2 else s.hvState c)
      ∧ (s.flag (F.HVS_CFG_AC c) = true → (t.hvOf c).dac = s.hvDac c amp)
      ∧ (2 ≤ s.getF (F.HVS_CFG_MODE c) →
        (t.hvOf c).int = if (F32.le (s.hvDmax c) raw && F32.lt (F32.zero false) e) || (F32.le raw (F32.zero false) && F32.lt e (F32.zero false))
          then (s.hvOf c).int else F32.add (s.hvOf c).int (F32.mul (F32.mul (s.getR (R.HVS_KI c)) e) per))
      ∧ ((t.hvOf c).on = (s.vanaGood && !s.outputsHeld && s.getF (F.HVS_CFG_MODE c) != 0))
      ∧ ((t.hvOf c).on = true →
        (t.hvOf c).duty = F32.clamp (F32.zero false) (s.hvDmax c) (if s.getF (F.HVS_CFG_MODE c) = 1 then sp else raw)
        ∧ t.getF (F.HVS_STATUS_DUTY c) = (F32.clampInt 0 65535 (F32.toInt (F32.mul (t.hvOf c).duty (F32.ofNat 65536)))).toNat)
      ∧ ((t.hvOf c).on = false → t.getF (F.HVS_STATUS_DUTY c) = 0) := by
  obtain ⟨hf, hst, hmon, -, -, hof, -⟩ := hvTaken_keeps s c mon aux amp
  obtain ⟨hcfg, -, -, hkp, hki, hlim, -, -, hset, -⟩ := hvSetup_mem c
  obtain ⟨d, hd, hd'⟩ := hof hr
  have hj : (s.hvTaken c mon aux amp).hvJudge c = (s.hvTaken c mon aux amp).hvHot c :=
    hvJudge_none ((hvTaken_ilk ..).trans ho) (by rw [hd]; exact hm2) (by rw [hd]; exact ha2)
  have hon := hvOn_regulates (hvTaken_runs hr) hj per ms
  have hexec := hvInstant_exec h
  rw [hon] at hexec
  have hg := hvRegulate_gives ((s.hvTaken c mon aux amp).hvHot c) c per ms
  have hfh : State.Hvs (hvAll c) s ((s.hvTaken c mon aux amp).hvHot c) := hf.updHv _
  have hsth : ((s.hvTaken c mon aux amp).hvHot c).hvState c = s.hvState c := (updHv_getF ..).trans hst
  have hofh : (((s.hvTaken c mon aux amp).hvHot c).hvOf c).setp = (s.hvOf c).setp ∧ (((s.hvTaken c mon aux amp).hvHot c).hvOf c).int = (s.hvOf c).int
      ∧ (((s.hvTaken c mon aux amp).hvHot c).hvOf c).dac = d
      ∧ (((s.hvTaken c mon aux amp).hvHot c).hvOf c).resetStep = (s.hvOf c).resetStep := by
    rw [State.hvHot, hvOf_updHv, hd]
    exact ⟨rfl, rfl, rfl, rfl⟩
  have hmonh : ((s.hvTaken c mon aux amp).hvHot c).getR (R.HVS_MON c) = F32.mul (F32.ofNat mon.toNat) (s.getR (R.HVS_SCALE c)) :=
    (updHv_getR ..).trans hmon
  generalize (s.hvTaken c mon aux amp).hvHot c = b at *
  obtain ⟨ho1, ho2, ho3, ho4⟩ := hofh
  have hramp : b.hvRamp c ms = sp := (hvRamp_congr hfh hsth ho1 ho4 ms).trans hsp.symm
  have hdm : b.hvDmax c = s.hvDmax c := by
    rw [State.hvDmax, State.hvDmax, hfh.getF (F.HVS_DLIM c) (hvSetup_all hlim)]
  have hrawb : b.hvRaw c e = raw := by
    rw [State.hvRaw, ho2, hfh.getR (hvSetup_all hkp), hraw]
  have hdr : b.hvDriven c = s.hvDriven c := hfh.hvDriven (fun _ => hvRails_all) (hvSetup_all hcfg)
  have hmode : b.getF (F.HVS_CFG_MODE c) = s.getF (F.HVS_CFG_MODE c) := hfh.getF _ (hvSetup_all hcfg)
  rw [hramp, hmonh, ← he] at hg
  obtain ⟨g1, g2, g3, g4, g5, g6, g7⟩ := hg
  rw [hsth, hfh.getR (hvSetup_all hset)] at g2
  rw [hmode, State.hvInt, State.hvHolds, hrawb, hdm, ho2, hfh.getR (hvSetup_all hki)] at g4
  rw [hmode, hrawb, hdm] at g6
  exact ⟨_, hexec, g1, g2, fun hac => g3.trans (ho3.trans (hd' hac)), g4, g5.trans hdr, g6, g7⟩

end instant

/-! ### Commands -/

theorem hvWrite_carries {i : Instr} {p : Port} {w : Word} {k : Nat}
    (h : (i = .hvEnable p c w ∧ k = 0) ∨ (i = .hvDisable p c w ∧ k = 1) ∨ (i = .hvClear p c w ∧ k = 2)) :
    (w.getLsbD k = true → exec i s = .next (s.dnWrite (R.HVS_CTRL c) w)) ∧ (w.getLsbD k = false → exec i s = .next s) := by
  obtain ⟨rfl, rfl⟩ | ⟨rfl, rfl⟩ | ⟨rfl, rfl⟩ := h
  all_goals exact ⟨fun h => congrArg Host.Outcome.next (if_pos h), fun h => congrArg Host.Outcome.next (if_neg (ne_true_of_eq_false h))⟩

theorem dnWrite_in_time (s : State) (o : Nat) (w : Word) (h : s.dnLate = false) :
    (s.dnWrite o w).brg.out.writes = s.brg.out.writes ++ [{ off := o, w := w, tick := s.tick }] ∧ (s.dnWrite o w).regs = s.regs
      ∧ (s.dnWrite o w).heat = s.heat := by
  have : s.dnWrite o w = { s with brg := { s.brg with out := { s.brg.out with
      writes := s.brg.out.writes ++ [{ off := o, w := w, tick := s.tick }] } } } := if_neg (by simp [h])
  rw [this]
  exact ⟨rfl, rfl, rfl⟩

theorem dnWrite_too_late (s : State) (o : Nat) (w : Word) (h : s.dnLate = true) :
    (s.dnWrite o w).brg.late = s.brg.late ++ [{ off := o, w := w, tick := s.tick }] ∧ (s.dnWrite o w).brg.out = s.brg.out
      ∧ (s.dnWrite o w).regs = s.regs ∧ (s.dnWrite o w).heat = s.heat := by
  have : s.dnWrite o w = { s with brg := { s.brg with late := s.brg.late ++ [{ off := o, w := w, tick := s.tick }] } } := if_pos h
  rw [this]
  exact ⟨rfl, rfl, rfl, rfl⟩

/-- The commands of a write of HVS_CTRL, CLEAR apart. -/
def State.hvCommand (s : State) (c : Fin 24) (w : Word) : State :=
  if w.getLsbD 0 && !w.getLsbD 1 then
    if s.hvState c = 0 then s.hvStart c
    else if s.hvState c = 3 then s.putF (F.HVS_STATUS_PENDING_ENABLE c) 1
    else s
  else if w.getLsbD 1 && !w.getLsbD 0 then
    if s.hvState c = 3 then s.putF (F.HVS_STATUS_PENDING_ENABLE c) 0
    else if s.hvState c = 1 ∨ s.hvState c = 2 then s.putF (F.HVS_STATUS_STATE c) 3
    else s.updHv c fun x => { x with startAt := none }
  else s

theorem hvCtrl_eq (s : State) (c : Fin 24) (w : Word) : s.hvCtrl c w =
    if w.getLsbD 2 && (s.hvCommand c w).hvState c == 4 && (s.hvCommand c w).hvCause c == 0 then
      ((s.hvCommand c w).putF (F.HVS_STATUS_STATE c) 0).putF (F.HVS_STATUS_CAUSE c) 0
    else s.hvCommand c w := rfl

theorem hvCtrl_noClear {w : Word} (h : w.getLsbD 2 = false) : s.hvCtrl c w = s.hvCommand c w := by
  rw [hvCtrl_eq, h]
  exact if_neg (by simp)

theorem hvState_putPend (s : State) (c : Fin 24) (v : Nat) : (s.putF (F.HVS_STATUS_PENDING_ENABLE c) v).hvState c = s.hvState c :=
  getF_putF_apart _ (by simp [Fld.Apart, F.HVS_STATUS_STATE, F.HVS_STATUS_PENDING_ENABLE])

theorem hvCommand_enable {w : Word} (h0 : w.getLsbD 0 = true) (h1 : w.getLsbD 1 = false) :
    (s.hvState c = 0 → (s.hvCommand c w).hvState c = 1 ∧ (s.hvCommand c w).hvOf c = {})
      ∧ (s.hvState c = 3 → (s.hvCommand c w).hvState c = 3 ∧ (s.hvCommand c w).flag (F.HVS_STATUS_PENDING_ENABLE c) = true)
      ∧ (s.hvState c = 4 → s.hvCommand c w = s) := by
  rw [State.hvCommand, h0, h1]
  simp only [Bool.not_false, Bool.and_self, if_true]
  refine ⟨fun h => ?_, fun h => ?_, fun h => ?_⟩
  · rw [if_pos h, State.hvStart, hvOf_updHv, State.hvState, updHv_getF, getF_putF_same _ _ _ (by simp [F.HVS_STATUS_STATE])]
    exact ⟨rfl, rfl⟩
  · rw [if_neg (by omega), if_pos h, hvState_putPend, flag_putF_same _ _ _ (by simp [F.HVS_STATUS_PENDING_ENABLE])]
    exact ⟨h, rfl⟩
  · rw [if_neg (by omega), if_neg (by omega)]

theorem hvCommand_disable {w : Word} (h0 : w.getLsbD 0 = false) (h1 : w.getLsbD 1 = true) :
    (s.hvState c = 1 ∨ s.hvState c = 2 → (s.hvCommand c w).hvState c = 3)
      ∧ (s.hvState c = 3 → (s.hvCommand c w).hvState c = 3 ∧ (s.hvCommand c w).flag (F.HVS_STATUS_PENDING_ENABLE c) = false) := by
  rw [State.hvCommand, h0, h1]
  simp only [Bool.not_false, Bool.and_self, if_true, Bool.not_true, Bool.false_eq_true, if_false]
  refine ⟨fun h => ?_, fun h => ?_⟩
  · rw [if_neg (by omega), if_pos h, State.hvState, getF_putF_same _ _ _ (by simp [F.HVS_STATUS_STATE])]
    rfl
  · rw [if_pos h, hvState_putPend, flag_putF_same _ _ _ (by simp [F.HVS_STATUS_PENDING_ENABLE])]
    exact ⟨h, rfl⟩

theorem hvCommand_neither {w : Word} (h : w.getLsbD 0 = w.getLsbD 1) : s.hvCommand c w = s := by
  rw [State.hvCommand, h]
  cases w.getLsbD 1 <;> rfl

theorem hvCtrl_clears {w : Word} (h2 : w.getLsbD 2 = true) (h : w.getLsbD 0 = w.getLsbD 1) (hs : s.hvState c = 4) :
    (s.hvCause c = 0 → (s.hvCtrl c w).hvState c = 0 ∧ (s.hvCtrl c w).getF (F.HVS_STATUS_CAUSE c) = 0)
      ∧ (s.hvCause c ≠ 0 → s.hvCtrl c w = s) := by
  rw [hvCtrl_eq, hvCommand_neither h, h2, hs]
  refine ⟨fun hc => ?_, fun hc => if_neg (by simpa using hc)⟩
  rw [if_pos (by simpa using hc), State.hvState, getF_putF_apart _ (by simp [Fld.Apart, F.HVS_STATUS_STATE, F.HVS_STATUS_CAUSE]),
    getF_putF_same _ (F.HVS_STATUS_STATE c) _ (by simp [F.HVS_STATUS_STATE]),
    getF_putF_same _ (F.HVS_STATUS_CAUSE c) _ (by simp [F.HVS_STATUS_CAUSE])]
  exact ⟨rfl, rfl⟩

theorem State.Hvs.tick {os : List Nat} (a : State.Hvs os s t) : t.tick = s.tick := by
  obtain ⟨⟨r, v, l, e, rfl⟩, -⟩ := a
  rfl

/-- A channel that is OFF after its ramp down. -/
def State.hvEnded (s : State) (c : Fin 24) : State :=
  ((s.hvLow c).putF (F.HVS_STATUS_STATE c) 0).putF (F.HVS_STATUS_PENDING_ENABLE c) 0

theorem hvRampDownDone_exec (h3 : s.hvState c = 3) (hz : F32.isZero (s.hvOf c).setp = true) : exec (.hvRampDownDone c) s =
    .next ((s.hvEnded c).updHv c fun _ => {
      startAt := if s.flag (F.HVS_STATUS_PENDING_ENABLE c) = true then some ((s.hvEnded c).tick + 1) else none }) :=
  congrArg Host.Outcome.next (if_pos ⟨h3, hz⟩)

theorem hvEnded_hvs (s : State) (c : Fin 24) : State.Hvs (hvOwn c) s (s.hvEnded c) :=
  ((hvLow_hvs s c).putF (f := F.HVS_STATUS_STATE c) _ (hvStatus_own c)).putF (f := F.HVS_STATUS_PENDING_ENABLE c) _ (hvStatus_own c)

theorem hvEnded_off (s : State) (c : Fin 24) : (s.hvEnded c).hvState c = 0 ∧ (s.hvEnded c).getF (F.HVS_STATUS_DUTY c) = 0
    ∧ (s.hvEnded c).flag (F.HVS_STATUS_PENDING_ENABLE c) = false := by
  rw [State.hvEnded]
  refine ⟨?_, ?_, ?_⟩
  · rw [hvState_putPend, State.hvState, getF_putF_same _ _ _ (by simp [F.HVS_STATUS_STATE])]
    rfl
  · rw [getF_putF_apart _ (by simp [Fld.Apart, F.HVS_STATUS_DUTY, F.HVS_STATUS_PENDING_ENABLE]),
      getF_putF_apart _ (by simp [Fld.Apart, F.HVS_STATUS_DUTY, F.HVS_STATUS_STATE]), hvLow_duty]
  · rw [flag_putF_same _ _ _ (by simp [F.HVS_STATUS_PENDING_ENABLE])]
    rfl

theorem hvRampDownDone_ends (h3 : s.hvState c = 3) (hz : F32.isZero (s.hvOf c).setp = true) :
    Leads s (.hvRampDownDone c) fun t => t.hvState c = 0 ∧ t.getF (F.HVS_STATUS_DUTY c) = 0
      ∧ t.flag (F.HVS_STATUS_PENDING_ENABLE c) = false ∧ (t.hvOf c).on = false
      ∧ (t.hvOf c).startAt = (if s.flag (F.HVS_STATUS_PENDING_ENABLE c) = true then some (s.tick + 1) else none) := by
  obtain ⟨hs, hd, hp⟩ := hvEnded_off s c
  refine ⟨_, hvRampDownDone_exec h3 hz, (updHv_getF ..).trans hs, (updHv_getF ..).trans hd, ?_, ?_, ?_⟩
  · rw [State.flag, updHv_getF]
    exact hp
  · rw [hvOf_updHv]
  · rw [hvOf_updHv, (hvEnded_hvs s c).tick]

/-- Settles O53, clause by clause: conversions, trips, the regulator, the commands in the frame and their effect, the ramp down. -/
theorem highVoltageChannelsAct : Obligations.HighVoltageChannelsAct := by
  intro s c
  refine ⟨fun mon aux i amp per ms h => ⟨hvInstant_measures h, hvInstant_ilk h, hvInstant_mon h, fun sp e raw => hvInstant_regulates h⟩,
    fun mon aux amp => ⟨fun h => ?_, fun h => ?_⟩, fun i p w k h => ⟨fun hk hl => ?_, fun hk hl => ?_, fun hk => ?_⟩,
    fun w h2 => ⟨fun h0 h1 => ?_, fun h0 h1 => ?_, fun h0 h1 => ?_⟩, fun w h2 h4 => ⟨fun hc h => ?_, fun hc h => ?_⟩,
    hvRampDownDone_ends, fun h => ?_⟩
  · exact ⟨_, congrArg Host.Outcome.next (if_pos h), rfl⟩
  · exact ⟨_, congrArg Host.Outcome.next (if_neg (ne_true_of_eq_false h)), rfl⟩
  · exact ⟨_, (hvWrite_carries h).1 hk, dnWrite_in_time s _ w hl⟩
  · exact ⟨_, (hvWrite_carries h).1 hk, dnWrite_too_late s _ w hl⟩
  · exact ⟨_, (hvWrite_carries h).2 hk, rfl⟩
  · rw [hvCtrl_noClear h2]
    exact hvCommand_enable h0 h1
  · rw [hvCtrl_noClear h2]
    exact hvCommand_disable h0 h1
  · rw [hvCtrl_noClear h2]
    exact hvCommand_neither (h0.trans h1.symm)
  · exact (hvCtrl_clears h2 h h4).1 hc
  · exact (hvCtrl_clears h2 h h4).2 hc
  · refine ⟨s, congrArg Host.Outcome.next (if_neg fun ⟨h3, hz⟩ => ?_), rfl⟩
    obtain h | h := h
    · exact h h3
    · exact Bool.false_ne_true (h.symm.trans hz)

end Sys2Proof.Machine

end

/-! ## Groups whose faults latch (R300, R301)

What a fault that latches in a group keeps: the other causes, the faults of all groups, and everything beside the groups. -/

section

namespace Sys2Proof.Machine

variable {s t u : State}

/-- The registers that faults of groups write. -/
def pwsReg (o : Nat) : Prop :=
  (∃ g < 12, o = R.GDR_GRP_STATUS g ∨ o = R.GDR_GRP_FAULTS g ∨ o = R.MOT_STATUS g) ∨ (∃ i : Fin 4, o = R.MOT_BRK_STAT i)
    ∨ o = R.GDR_STATUS ∨ o = R.BRG_STATUS

/-- From `s` to `t` faults of groups have latched: no fault, no cause and no event is lost, and beside groups, half-bridges and
choppers only the registers `pwsReg` have changed; of GDR_STATUS only GRP_FAULT. -/
def State.Latches (s t : State) : Prop :=
  (∃ r g h c e l, t = { s with regs := r, brg := { s.brg with grp := g, half := h, chop := c }, ev := e, lost := l })
    ∧ (∀ o, ¬pwsReg o → t.getR o = s.getR o)
    ∧ (∀ f : Fld, f.off = R.GDR_STATUS → 12 ≤ f.lo → f.lo + f.w ≤ 32 → t.getF f = s.getF f)
    ∧ (∀ g, s.flag (F.GDR_GRP_STATUS_FAULT g) = true → t.flag (F.GDR_GRP_STATUS_FAULT g) = true)
    ∧ (∀ g c, s.hasCause g c = true → t.hasCause g c = true) ∧ ∀ id i, s.Arisen id i → t.Arisen id i

theorem State.Latches.refl (s : State) : s.Latches s :=
  ⟨⟨_, _, _, _, _, _, rfl⟩, fun _ _ => rfl, fun _ _ _ _ => rfl, fun _ h => h, fun _ _ h => h, fun _ _ h => h⟩

theorem State.Latches.trans (a : s.Latches t) (b : t.Latches u) : s.Latches u := by
  obtain ⟨⟨r, g, h, c, e, l, rfl⟩, hr, hs, hf, hc, he⟩ := a
  obtain ⟨⟨r', g', h', c', e', l', rfl⟩, hr', hs', hf', hc', he'⟩ := b
  exact ⟨⟨r', g', h', c', e', l', rfl⟩, fun o ho => (hr' o ho).trans (hr o ho), fun f h1 h2 h3 => (hs' f h1 h2 h3).trans (hs f h1 h2 h3),
    fun g q => hf' g (hf g q), fun g c q => hc' g c (hc g c q), fun id i q => he' id i (he id i q)⟩

theorem State.Latches.foldl {α : Type} (l : List α) {f : State → α → State} (a : s.Latches t) (hf : ∀ b, ∀ x ∈ l, State.Latches b (f b x)) :
    s.Latches (l.foldl f t) := by
  induction l generalizing t with
  | nil => exact a
  | cons x r ih => exact ih (a.trans (hf t x (List.mem_cons_self ..))) fun b y hy => hf b y (List.mem_cons_of_mem x hy)

theorem bitF_congr {f : Fld} (h : t.getF f = s.getF f) (i : Nat) : t.bitF f i = s.bitF f i := by
  rw [State.bitF, State.bitF, h]

/-- A write of a field that is neither a fault, nor causes, nor one of the upper fields of GDR_STATUS. -/
theorem State.Latches.putF (a : s.Latches t) {f : Fld} (v : Nat) (hr : pwsReg f.off) (h12 : f.off = R.GDR_STATUS → f.lo + f.w ≤ 12)
    (hf : ∀ g, f.Apart (F.GDR_GRP_STATUS_FAULT g)) (hc : ∀ g, f.Apart (F.GDR_GRP_STATUS_CAUSES g)) : s.Latches (t.putF f v) := by
  refine a.trans ⟨⟨_, t.brg.grp, t.brg.half, t.brg.chop, t.ev, t.lost, rfl⟩, fun o ho => getR_putF_ne t f v o fun e => ho (e ▸ hr),
    fun k h1 h2 h3 => getF_putF_apart v ?_, fun g q => (flag_putF_apart v (hf g)).trans q, fun g c q => ?_, fun _ _ q => q.of_eq rfl rfl⟩
  · by_cases he : k.off = f.off
    · exact Or.inr ⟨h3, Or.inr (by have := h12 (he ▸ h1); omega)⟩
    · exact Or.inl he
  · rw [State.hasCause, bitF_congr (getF_putF_apart v (hc g))]
    exact q

theorem bitF_putBitF (s : State) (f : Fld) (i j : Nat) (b : Bool) (h : f.lo + f.w ≤ 32) (hj : j < f.w) :
    (s.putBitF f i b).bitF f j = if j = i then b else s.bitF f j := by
  rw [State.bitF, State.putBitF, getF_putF_same _ _ _ h, bit_eq_testBit, Nat.testBit_mod_two_pow, testBit_setBit, State.bitF, bit_eq_testBit]
  simp [hj]

theorem hasCause_lt {g c : Nat} (h : s.hasCause g c = true) : c - 1 < 5 := by
  by_contra hc
  have : s.getF (F.GDR_GRP_STATUS_CAUSES g) < 2 ^ (c - 1) :=
    Nat.lt_of_lt_of_le (bits_lt _ _ _) (Nat.pow_le_pow_right (by decide) (by simp only [F.GDR_GRP_STATUS_CAUSES]; omega))
  rw [State.hasCause, State.bitF, bit_eq_testBit, Nat.testBit_lt_two_pow this] at h
  exact Bool.false_ne_true h

theorem grpStatus_reg {g : Nat} (hg : g < 12) : pwsReg (R.GDR_GRP_STATUS g) := Or.inl ⟨g, hg, Or.inl rfl⟩

theorem grpStatus_ne (g : Nat) : R.GDR_GRP_STATUS g ≠ R.GDR_STATUS := by
  simp only [R.GDR_GRP_STATUS, R.GDR_STATUS]
  omega

theorem grpStatus_inj {g g' : Nat} (h : R.GDR_GRP_STATUS g = R.GDR_GRP_STATUS g') : g = g' := by
  simp only [R.GDR_GRP_STATUS] at h
  omega

/-- A cause latches. -/
theorem State.Latches.putCause (a : s.Latches t) {g : Nat} (hg : g < 12) (c : Nat) :
    s.Latches (t.putBitF (F.GDR_GRP_STATUS_CAUSES g) c true) := by
  refine a.trans ⟨⟨_, t.brg.grp, t.brg.half, t.brg.chop, t.ev, t.lost, rfl⟩, fun o ho => getR_putF_ne t _ _ o fun e => ho (e ▸ grpStatus_reg hg),
    fun k h1 _ _ => getF_putF_off t _ _ _ fun e => grpStatus_ne g (e.symm.trans h1),
    fun g' q => (flag_putF_apart _ ?_).trans q, fun g' c' q => ?_, fun _ _ q => q.of_eq rfl rfl⟩
  · exact Or.inr (by simp [F.GDR_GRP_STATUS_FAULT, F.GDR_GRP_STATUS_CAUSES])
  · have hlt := hasCause_lt q
    by_cases e : g' = g
    · subst e
      rw [State.hasCause, bitF_putBitF _ _ _ _ _ (by simp [F.GDR_GRP_STATUS_CAUSES]) (by simpa [F.GDR_GRP_STATUS_CAUSES] using hlt)]
      split
      · rfl
      · exact q
    · rw [State.hasCause, State.putBitF, bitF_congr (getF_putF_off t (F.GDR_GRP_STATUS_CAUSES g) (F.GDR_GRP_STATUS_CAUSES g') _ fun x => e (grpStatus_inj x))]
      exact q

/-- A fault is set. -/
theorem State.Latches.putFault (a : s.Latches t) {g : Nat} (hg : g < 12) : s.Latches (t.putF (F.GDR_GRP_STATUS_FAULT g) 1) := by
  refine a.trans ⟨⟨_, t.brg.grp, t.brg.half, t.brg.chop, t.ev, t.lost, rfl⟩, fun o ho => getR_putF_ne t _ _ o fun e => ho (e ▸ grpStatus_reg hg),
    fun k h1 _ _ => getF_putF_off t _ _ _ fun e => grpStatus_ne g (e.symm.trans h1), fun g' q => ?_, fun g' c' q => ?_,
    fun _ _ q => q.of_eq rfl rfl⟩
  · by_cases e : g' = g
    · subst e
      rw [flag_putF_same _ _ _ (by simp [F.GDR_GRP_STATUS_FAULT])]
      rfl
    · exact (flag_putF_off t _ _ _ fun x => e (grpStatus_inj x)).trans q
  · rw [State.hasCause, bitF_congr (getF_putF_apart _ (Or.inr (by simp [F.GDR_GRP_STATUS_FAULT, F.GDR_GRP_STATUS_CAUSES])))]
    exact q

theorem State.Latches.setGrp (a : s.Latches t) (g : Nat) (x : Group) : s.Latches (t.setGrp g x) :=
  a.trans ⟨⟨t.regs, _, t.brg.half, t.brg.chop, t.ev, t.lost, rfl⟩, fun _ _ => rfl, fun _ _ _ _ => rfl, fun _ h => h, fun _ _ h => h,
    fun _ _ q => q.of_eq rfl rfl⟩

theorem State.Latches.setHalf (a : s.Latches t) (h : Nat) (x : Half) : s.Latches (t.setHalf h x) :=
  a.trans ⟨⟨t.regs, t.brg.grp, _, t.brg.chop, t.ev, t.lost, rfl⟩, fun _ _ => rfl, fun _ _ _ _ => rfl, fun _ h => h, fun _ _ h => h,
    fun _ _ q => q.of_eq rfl rfl⟩

theorem State.Latches.setChop (a : s.Latches t) (i : Fin 4) (x : Chopper) : s.Latches (t.setChop i x) :=
  a.trans ⟨⟨t.regs, t.brg.grp, t.brg.half, _, t.ev, t.lost, rfl⟩, fun _ _ => rfl, fun _ _ _ _ => rfl, fun _ h => h, fun _ _ h => h,
    fun _ _ q => q.of_eq rfl rfl⟩

theorem State.Latches.raise (a : s.Latches t) (id : EvId) (i : Nat) (x y : Word) : s.Latches (t.raise id i x y) :=
  a.trans ⟨⟨t.regs, t.brg.grp, t.brg.half, t.brg.chop, _, t.lost, rfl⟩, fun _ _ => rfl, fun _ _ _ _ => rfl, fun _ h => h, fun _ _ h => h,
    fun _ _ q => arisen_of_raise _ _ _ _ _ _ _ q⟩

theorem State.Latches.incFaults (a : s.Latches t) {g : Nat} (hg : g < 12) : s.Latches (t.incR (R.GDR_GRP_FAULTS g) 1) := by
  have hne : ∀ g', R.GDR_GRP_STATUS g' ≠ R.GDR_GRP_FAULTS g := fun g' => by
    simp only [R.GDR_GRP_STATUS, R.GDR_GRP_FAULTS]
    omega
  refine a.trans ⟨⟨_, t.brg.grp, t.brg.half, t.brg.chop, t.ev, _, rfl⟩, fun o ho => getR_incR_ne t 1 fun e => ho (e ▸ Or.inl ⟨g, hg, Or.inr (Or.inl rfl)⟩),
    fun k h1 _ _ => getF_incR t k 1 ?_, fun g' q => (flag_congr (getR_incR_ne t 1 (hne g'))).trans q, fun g' c q => ?_, fun _ _ q => q.of_eq rfl rfl⟩
  · rw [h1]
    simp only [R.GDR_STATUS, R.GDR_GRP_FAULTS]
    omega
  · rw [State.hasCause, bitF_congr (getF_congr (getR_incR_ne t 1 (hne g')))]
    exact q

theorem State.Latches.getR (a : s.Latches t) {o : Nat} (h : ¬pwsReg o) : t.getR o = s.getR o := a.2.1 o h

theorem State.Latches.bitF_status (a : s.Latches t) (f : Fld) (i : Nat) (h1 : f.off = R.GDR_STATUS) (h2 : 12 ≤ f.lo) (h3 : f.lo + f.w ≤ 32) :
    t.bitF f i = s.bitF f i := bitF_congr (a.2.2.1 f h1 h2 h3) i

theorem State.Latches.fault (a : s.Latches t) {g : Nat} (h : s.flag (F.GDR_GRP_STATUS_FAULT g) = true) :
    t.flag (F.GDR_GRP_STATUS_FAULT g) = true := a.2.2.2.1 g h

theorem State.Latches.cause (a : s.Latches t) {g c : Nat} (h : s.hasCause g c = true) : t.hasCause g c = true := a.2.2.2.2.1 g c h

theorem State.Latches.arisen (a : s.Latches t) {id : EvId} {i : Nat} (h : s.Arisen id i) : t.Arisen id i := a.2.2.2.2.2 id i h

theorem State.Latches.brg (a : s.Latches t) : t.brg.armedVgl = s.brg.armedVgl ∧ t.brg.armedBst = s.brg.armedBst ∧ t.brg.tripDue = s.brg.tripDue := by
  obtain ⟨⟨r, g, h, c, e, l, rfl⟩, -⟩ := a
  exact ⟨rfl, rfl, rfl⟩

/-! ### The steps of a fault -/

theorem brgStatus_apart (f : Fld) (h : f.off = R.BRG_STATUS) : (∀ g, f.Apart (F.GDR_GRP_STATUS_FAULT g)) ∧ ∀ g, f.Apart (F.GDR_GRP_STATUS_CAUSES g) := by
  have hne : ∀ g, R.GDR_GRP_STATUS g ≠ R.BRG_STATUS := fun g => by
    simp only [R.GDR_GRP_STATUS, R.BRG_STATUS]
    omega
  exact ⟨fun g => Or.inl (h ▸ hne g), fun g => Or.inl (h ▸ hne g)⟩

theorem linesFollow_latches (a : s.Latches t) : s.Latches t.linesFollow := by
  have hb := brgStatus_apart F.BRG_STATUS_LINES rfl
  have hput : ∀ {u : State} (v : Nat), s.Latches u → s.Latches (u.putF F.BRG_STATUS_LINES v) := fun v hu =>
    hu.putF v (Or.inr (Or.inr (Or.inr rfl))) (fun e => absurd e (by decide)) hb.1 hb.2
  unfold State.linesFollow
  exact hput _ (hput _ (hput _ a))

theorem chopOff_latches (a : s.Latches t) (i : Fin 4) : s.Latches (t.chopOff i) := by
  have hne : ∀ g, R.GDR_GRP_STATUS g ≠ R.MOT_BRK_STAT i := fun g => by
    simp only [R.GDR_GRP_STATUS, R.MOT_BRK_STAT]
    omega
  unfold State.chopOff
  split
  · refine (a.setChop i _).putF (f := F.MOT_BRK_STAT_ON i) _ (Or.inr (Or.inl ⟨i, rfl⟩)) (fun e => ?_) (fun g => Or.inl (hne g)) fun g => Or.inl (hne g)
    simp only [F.MOT_BRK_STAT_ON, R.MOT_BRK_STAT, R.GDR_STATUS] at e
    omega
  · exact a

theorem chopsFollow_latches (a : s.Latches t) : s.Latches t.chopsFollow := by
  refine State.Latches.foldl _ a fun b i _ => ?_
  split
  · exact chopOff_latches (.refl b) i
  · exact .refl b

/-- A field of a group's status beside FAULT and CAUSES. -/
theorem State.Latches.putGrp (a : s.Latches t) {f : Fld} (v : Nat) {g : Nat} (hg : g < 12) (ho : f.off = R.GDR_GRP_STATUS g) (h1 : 1 ≤ f.lo)
    (h16 : f.lo + f.w ≤ 16) : s.Latches (t.putF f v) := by
  refine a.putF v (ho ▸ grpStatus_reg hg) (fun e => absurd (ho.symm.trans e) (grpStatus_ne g)) (fun g' => Or.inr ⟨?_, Or.inl ?_⟩)
    fun g' => Or.inr ⟨?_, Or.inr ?_⟩
  all_goals simp only [F.GDR_GRP_STATUS_FAULT, F.GDR_GRP_STATUS_CAUSES]
  all_goals omega

/-- What the half-bridge `k` of a group is to do. -/
def State.halfWant (s : State) (g k : Nat) : Option Nat × Nat :=
  if s.gatesLive g then s.faulted (4 * g + k) ((s.half (4 * g + k)).duty, (s.half (4 * g + k)).low) else (none, 0)

/-- The half-bridge `k` of a group takes the state the group's faults call for. -/
def State.halfOutput (s : State) (g k : Nat) : State :=
  if s.halfWant g k = ((s.half (4 * g + k)).duty, (s.half (4 * g + k)).low) then s
  else s.setHalf (4 * g + k) { duty := (s.halfWant g k).1, low := (s.halfWant g k).2 }

theorem groupOutputs_eq (s : State) (g : Nat) : s.groupOutputs g =
    (List.range 4).foldl (fun a k => a.halfOutput g k)
      (s.putB (F.GDR_GRP_STATUS_SHORTING g) (s.flag (F.GDR_GRP_STATUS_FAULT g) && s.policy g == 1)) := rfl

theorem halfOutput_latches (s : State) (g k : Nat) : s.Latches (s.halfOutput g k) := by
  unfold State.halfOutput
  split
  · exact .refl s
  · exact (State.Latches.refl s).setHalf _ _

theorem groupOutputs_latches (a : s.Latches t) {g : Nat} (hg : g < 12) : s.Latches (t.groupOutputs g) := by
  rw [groupOutputs_eq]
  refine State.Latches.foldl _ (a.putGrp (f := F.GDR_GRP_STATUS_SHORTING g) _ hg rfl ?_ ?_) fun b k _ => halfOutput_latches b g k
  · simp [F.GDR_GRP_STATUS_SHORTING]
  · simp [F.GDR_GRP_STATUS_SHORTING]

end Sys2Proof.Machine

end

/-! ## A cause latches in a group (R300, R301) -/

section

namespace Sys2Proof.Machine

variable {s t u : State}

/-- A latched cause, or retirement, in a half-bridge's status keeps it off through a fault of its group. -/
theorem State.Latches.hbLatched (a : s.Latches t) (h : Nat) : t.hbLatched h = s.hbLatched h := by
  have hne : ¬pwsReg (R.GDR_HB_STATUS h) := by
    rintro (⟨g, hg, e | e | e⟩ | ⟨i, e⟩ | e | e)
    all_goals simp only [R.GDR_HB_STATUS, R.GDR_GRP_STATUS, R.GDR_GRP_FAULTS, R.MOT_STATUS, R.MOT_BRK_STAT, R.GDR_STATUS, R.BRG_STATUS] at e
    · omega
    · omega
    · omega
    · omega
    · omega
    · omega
  rw [State.hbLatched, State.hbLatched, a.getR hne]

theorem half_setHalf_same (s : State) {h : Nat} (hh : h < 48) (x : Half) : (s.setHalf h x).half h = x := by
  simp [State.half, State.setHalf, hh]

theorem half_setHalf_ne (s : State) {h k : Nat} (x : Half) (e : k ≠ h) : (s.setHalf h x).half k = s.half k := by
  have : h ≠ k := fun e' => e e'.symm
  simp only [State.half, State.setHalf]
  rw [List.getD_eq_getElem?_getD, List.getD_eq_getElem?_getD, Vector.toList_setIfInBounds, List.getElem?_set_ne this]

theorem halfWant_latched {g k : Nat} (hl : s.hbLatched (4 * g + k) = true) : s.halfWant g k = (none, 0) := by
  unfold State.halfWant
  split
  · unfold State.faulted
    rw [if_pos hl]
  · rfl

theorem halfOutput_latched {g k : Nat} (hg : 4 * g + k < 48) (hl : s.hbLatched (4 * g + k) = true) :
    ((s.halfOutput g k).half (4 * g + k)).duty = none := by
  unfold State.halfOutput
  rw [halfWant_latched hl]
  split
  · next h => exact (Prod.mk.inj h).1.symm
  · rw [half_setHalf_same s hg]

theorem halfOutput_keeps {g k h : Nat} (hh : h < 48) (hl : s.hbLatched h = true) (hd : (s.half h).duty = none) :
    ((s.halfOutput g k).half h).duty = none := by
  by_cases e : h = 4 * g + k
  · subst e
    exact halfOutput_latched hh hl
  · unfold State.halfOutput
    split
    · exact hd
    · rw [half_setHalf_ne s _ e, hd]

theorem halfOutputs_latched (l : List Nat) {g h : Nat} (hh : h < 48) (hl : s.hbLatched h = true)
    (hd : (s.half h).duty = none ∨ ∃ k ∈ l, h = 4 * g + k) : ((l.foldl (fun a k => a.halfOutput g k) s).half h).duty = none := by
  induction l generalizing s with
  | nil =>
    obtain hd | ⟨k, hk, -⟩ := hd
    · exact hd
    · exact absurd hk List.not_mem_nil
  | cons j r ih =>
    refine ih (((halfOutput_latches s g j).hbLatched h).trans hl) ?_
    by_cases e : h = 4 * g + j
    · subst e
      exact Or.inl (halfOutput_latched hh hl)
    · obtain hd | ⟨k, hk, e'⟩ := hd
      · exact Or.inl (halfOutput_keeps hh hl hd)
      · obtain rfl | hk := List.mem_cons.1 hk
        · exact absurd e' e
        · exact Or.inr ⟨k, hk, e'⟩

/-- The first fault of a group is recorded, or the status is kept. -/
def State.latchFirst (s : State) (g cause hb mon : Nat) : State :=
  if !s.flag (F.GDR_GRP_STATUS_FAULT g) || ((s.grp g).firstAt == s.tsc.toNat && Nat.blt hb (s.getF (F.GDR_GRP_STATUS_FIRST_HB g))) then
    (((s.putF (F.GDR_GRP_STATUS_FAULT g) 1).putF (F.GDR_GRP_STATUS_FIRST g) cause).putF (F.GDR_GRP_STATUS_FIRST_HB g) hb).setGrp g
      { (((s.putF (F.GDR_GRP_STATUS_FAULT g) 1).putF (F.GDR_GRP_STATUS_FIRST g) cause).putF (F.GDR_GRP_STATUS_FIRST_HB g) hb).grp g with
        firstAt := s.tsc.toNat, monitor := mon }
  else s

theorem latchFirst_latches (a : s.Latches t) {g : Nat} (hg : g < 12) (cause hb mon : Nat) : s.Latches (t.latchFirst g cause hb mon) := by
  unfold State.latchFirst
  split
  · refine State.Latches.setGrp ?_ g _
    refine State.Latches.putGrp ?_ (f := F.GDR_GRP_STATUS_FIRST_HB g) hb hg rfl ?_ ?_
    · refine State.Latches.putGrp (a.putFault hg) (f := F.GDR_GRP_STATUS_FIRST g) cause hg rfl ?_ ?_
      · simp [F.GDR_GRP_STATUS_FIRST]
      · simp [F.GDR_GRP_STATUS_FIRST]
    · simp [F.GDR_GRP_STATUS_FIRST_HB]
    · simp [F.GDR_GRP_STATUS_FIRST_HB]
  · exact a

theorem setGrp_flag (s : State) (g : Nat) (x : Group) (f : Fld) : (s.setGrp g x).flag f = s.flag f := rfl

theorem latchFirst_fault (s : State) {g : Nat} (cause hb mon : Nat) :
    (s.latchFirst g cause hb mon).flag (F.GDR_GRP_STATUS_FAULT g) = true := by
  unfold State.latchFirst
  split
  · rw [setGrp_flag, flag_putF_apart _ (Or.inr (by simp [F.GDR_GRP_STATUS_FAULT, F.GDR_GRP_STATUS_FIRST_HB])),
      flag_putF_apart _ (Or.inr (by simp [F.GDR_GRP_STATUS_FAULT, F.GDR_GRP_STATUS_FIRST])),
      flag_putF_same _ _ _ (by simp [F.GDR_GRP_STATUS_FAULT])]
    rfl
  · next h =>
    simp only [Bool.or_eq_true, Bool.not_eq_true', not_or, Bool.not_eq_false] at h
    exact h.1

/-- The cause of a fault is put down, and the retry of its group withdrawn. -/
def State.latchCause (s : State) (g cause : Nat) : State :=
  ((s.putBitF (F.GDR_GRP_STATUS_CAUSES g) (cause - 1) true).putBitF F.GDR_STATUS_GRP_FAULT g true).putB (F.GDR_GRP_STATUS_RETRY_WAIT g) false

theorem putGrpFault_latches (a : s.Latches t) (g : Nat) : s.Latches (t.putBitF F.GDR_STATUS_GRP_FAULT g true) := by
  refine a.putF (f := F.GDR_STATUS_GRP_FAULT) _ (Or.inr (Or.inr (Or.inl rfl))) (fun _ => by decide) (fun g' => Or.inl ?_) fun g' => Or.inl ?_
  · exact grpStatus_ne g'
  · exact grpStatus_ne g'

theorem latchCause_latches (a : s.Latches t) {g : Nat} (hg : g < 12) (cause : Nat) : s.Latches (t.latchCause g cause) := by
  refine State.Latches.putGrp (putGrpFault_latches (a.putCause hg _) g) (f := F.GDR_GRP_STATUS_RETRY_WAIT g) _ hg rfl ?_ ?_
  · simp [F.GDR_GRP_STATUS_RETRY_WAIT]
  · simp [F.GDR_GRP_STATUS_RETRY_WAIT]

theorem latchCause_cause (s : State) {g cause : Nat} (hg : g < 12) (hc : cause - 1 < 5) : (s.latchCause g cause).hasCause g cause = true := by
  have h1 : (s.putBitF (F.GDR_GRP_STATUS_CAUSES g) (cause - 1) true).hasCause g cause = true :=
    bitF_putBitF_same s _ _ _ (by simp [F.GDR_GRP_STATUS_CAUSES]) (by simpa [F.GDR_GRP_STATUS_CAUSES] using hc)
  refine State.Latches.cause (State.Latches.putGrp (putGrpFault_latches (.refl _) g) (f := F.GDR_GRP_STATUS_RETRY_WAIT g) _ hg rfl ?_ ?_) h1
  · simp [F.GDR_GRP_STATUS_RETRY_WAIT]
  · simp [F.GDR_GRP_STATUS_RETRY_WAIT]

/-- The outputs, the choppers and the lines follow a fault of a group. -/
def State.latchOut (s : State) (g : Nat) : State := (((s.groupOutputs g).chopsFollow).putF (F.MOT_STATUS_GROUP_FAULT g) 1).linesFollow

theorem motStatus_apart (g : Nat) (f : Fld) (h : f.off = R.MOT_STATUS g) (hg : g < 12) :
    (∀ g', f.Apart (F.GDR_GRP_STATUS_FAULT g')) ∧ ∀ g', f.Apart (F.GDR_GRP_STATUS_CAUSES g') := by
  have hne : ∀ g', R.GDR_GRP_STATUS g' ≠ R.MOT_STATUS g := fun g' => by
    simp only [R.GDR_GRP_STATUS, R.MOT_STATUS]
    omega
  exact ⟨fun g' => Or.inl (h ▸ hne g'), fun g' => Or.inl (h ▸ hne g')⟩

theorem latchOut_latches (a : s.Latches t) {g : Nat} (hg : g < 12) : s.Latches (t.latchOut g) := by
  obtain ⟨h1, h2⟩ := motStatus_apart g (F.MOT_STATUS_GROUP_FAULT g) rfl hg
  refine linesFollow_latches (State.Latches.putF (chopsFollow_latches (groupOutputs_latches a hg)) 1 (Or.inl ⟨g, hg, Or.inr (Or.inr rfl)⟩) (fun e => ?_) h1 h2)
  simp only [F.MOT_STATUS_GROUP_FAULT, R.MOT_STATUS, R.GDR_STATUS] at e
  omega

theorem chopsFollow_half (s : State) (h : Nat) : s.chopsFollow.half h = s.half h := by
  have hfold : ∀ (l : List (Fin 4)) (a : State), (l.foldl (fun a i => if a.chopBlocked i then a.chopOff i else a) a).half h = a.half h := by
    intro l
    induction l with
    | nil => exact fun _ => rfl
    | cons i r ih =>
      intro a
      rw [List.foldl_cons, ih]
      split
      · unfold State.chopOff
        split <;> rfl
      · rfl
  exact hfold _ s

theorem linesFollow_half (s : State) (h : Nat) : s.linesFollow.half h = s.half h := rfl

theorem latchOut_half {g h : Nat} (hg : g < 12) (hh : h / 4 = g) (hl : s.hbLatched h = true) : ((s.latchOut g).half h).duty = none := by
  have hput : ∀ a : State, (a.putF (F.MOT_STATUS_GROUP_FAULT g) 1).half h = a.half h := fun _ => rfl
  rw [State.latchOut, linesFollow_half, hput, chopsFollow_half, groupOutputs_eq]
  refine halfOutputs_latched _ (by omega) ?_ (Or.inr ⟨h % 4, List.mem_range.2 (Nat.mod_lt _ (by decide)), by omega⟩)
  refine (State.Latches.hbLatched (State.Latches.putGrp (.refl s) (f := F.GDR_GRP_STATUS_SHORTING g) _ hg rfl ?_ ?_) h).trans hl
  · simp [F.GDR_GRP_STATUS_SHORTING]
  · simp [F.GDR_GRP_STATUS_SHORTING]

/-- A latched cause: the count, the first fault, the cause, the record of the group, the outputs and the event. -/
theorem latchGroup_eq (s : State) (g cause hb mon : Nat) : ∃ x a b, s.latchGroup g cause hb mon =
    (((((s.incR (R.GDR_GRP_FAULTS g) 1).latchFirst g cause hb mon).latchCause g cause).setGrp g x).latchOut g).raise Ev.GDR_GROUP_FAULT g a b :=
  ⟨_, _, _, rfl⟩

theorem latchGroup_latches (a : s.Latches t) {g : Nat} (hg : g < 12) (cause hb mon : Nat) : s.Latches (t.latchGroup g cause hb mon) := by
  obtain ⟨x, d, e, h⟩ := latchGroup_eq t g cause hb mon
  rw [h]
  exact (latchOut_latches ((latchCause_latches (latchFirst_latches (a.incFaults hg) hg cause hb mon) hg cause).setGrp g x) hg).raise _ _ d e

theorem latchGroup_sets (s : State) {g cause : Nat} (hg : g < 12) (hc : cause - 1 < 5) (hb mon : Nat) :
    (s.latchGroup g cause hb mon).flag (F.GDR_GRP_STATUS_FAULT g) = true ∧ (s.latchGroup g cause hb mon).hasCause g cause = true
      ∧ (s.latchGroup g cause hb mon).Arisen Ev.GDR_GROUP_FAULT g := by
  obtain ⟨x, d, e, h⟩ := latchGroup_eq s g cause hb mon
  rw [h]
  have hf := latchFirst_fault (s.incR (R.GDR_GRP_FAULTS g) 1) (g := g) cause hb mon
  generalize (s.incR (R.GDR_GRP_FAULTS g) 1).latchFirst g cause hb mon = b at hf ⊢
  have hcs := latchCause_cause b (g := g) (cause := cause) hg hc
  have hfs := (latchCause_latches (.refl b) hg cause).fault hf
  generalize b.latchCause g cause = k at hcs hfs ⊢
  have hend := (latchOut_latches ((State.Latches.refl k).setGrp g x) hg).raise Ev.GDR_GROUP_FAULT g d e
  exact ⟨hend.fault hfs, hend.cause hcs, arisen_raise ..⟩

theorem latchGroup_half (s : State) {g h : Nat} (hg : g < 12) (hh : h / 4 = g) (hl : s.hbLatched h = true) (cause hb mon : Nat) :
    ((s.latchGroup g cause hb mon).half h).duty = none := by
  obtain ⟨x, d, e, hq⟩ := latchGroup_eq s g cause hb mon
  have hraise : ∀ (a : State), (a.raise Ev.GDR_GROUP_FAULT g d e).half h = a.half h := fun _ => rfl
  rw [hq, hraise]
  refine latchOut_half hg hh ?_
  rw [((latchCause_latches (latchFirst_latches ((State.Latches.refl s).incFaults hg) hg cause hb mon) hg cause).setGrp g x).hbLatched h]
  exact hl

end Sys2Proof.Machine

end

/-! ## The power stage: the clauses (R20, R291, R294 to R307) -/

section

namespace Sys2Proof.Machine

variable {s t u : State}

/-! ### Supplies -/

/-- A fault that latches in several groups sets each of them. -/
theorem latchGroups_set (l : List Nat) (s : State) (f : Nat → Nat) (hf : ∀ k ∈ l, f k < 12) {cause : Nat} (hc : cause - 1 < 5) (hb mon : Nat) :
    s.Latches (l.foldl (fun a k => a.latchGroup (f k) cause hb mon) s) ∧ ∀ k ∈ l,
      (l.foldl (fun a k => a.latchGroup (f k) cause hb mon) s).flag (F.GDR_GRP_STATUS_FAULT (f k)) = true
        ∧ (l.foldl (fun a k => a.latchGroup (f k) cause hb mon) s).hasCause (f k) cause = true := by
  have hall : ∀ (l : List Nat) (b : State), (∀ k ∈ l, f k < 12) → b.Latches (l.foldl (fun a k => a.latchGroup (f k) cause hb mon) b) :=
    fun l b h => State.Latches.foldl l (.refl b) fun d k hk => latchGroup_latches (.refl d) (h k hk) cause hb mon
  refine ⟨hall l s hf, ?_⟩
  induction l generalizing s with
  | nil => exact fun k hk => absurd hk List.not_mem_nil
  | cons j r ih =>
    have hr : ∀ k ∈ r, f k < 12 := fun k hk => hf k (List.mem_cons_of_mem _ hk)
    intro k hk
    obtain rfl | hk := List.mem_cons.1 hk
    · obtain ⟨h1, h2, -⟩ := latchGroup_sets s (hf k (List.mem_cons_self ..)) hc hb mon
      exact ⟨(hall r _ hr).fault h1, (hall r _ hr).cause h2⟩
    · exact ih (s.latchGroup (f j) cause hb mon) hr k hk

theorem vglUvlo_faults {v : Fin 4} {mv : Nat} (ha : s.brg.armedVgl[v] = true) (hl : s.vglLow v = false) (hm : mv < (s.vglMv v).1) :
    Leads s (.vglUvlo v mv) fun t => t.vglLow v = true ∧ t.Arisen Ev.GDR_VGL_UV v
      ∧ ∀ k : Fin 3, t.flag (F.GDR_GRP_STATUS_FAULT (3 * v.val + k.val)) = true ∧ t.hasCause (3 * v.val + k.val) 4 = true := by
  have hexec : exec (.vglUvlo v mv) s = .next ((List.range 3).foldl (fun a k => a.latchGroup (3 * v + k) 4 0 0)
      ((s.putBitF F.GDR_STATUS_VGL_UV v true).raise Ev.GDR_VGL_UV v)) := by
    refine congrArg Host.Outcome.next (if_pos ?_)
    rw [ha, hl, Bool.and_eq_true]
    exact ⟨rfl, Nat.ble_eq_true_of_le hm⟩
  have hlow : ((s.putBitF F.GDR_STATUS_VGL_UV v true).raise Ev.GDR_VGL_UV v).vglLow v = true :=
    bitF_putBitF_same s _ _ _ (by decide) v.isLt
  have hev : ((s.putBitF F.GDR_STATUS_VGL_UV v true).raise Ev.GDR_VGL_UV v).Arisen Ev.GDR_VGL_UV v := arisen_raise ..
  generalize (s.putBitF F.GDR_STATUS_VGL_UV v true).raise Ev.GDR_VGL_UV v = b at hexec hlow hev
  obtain ⟨hla, hset⟩ := latchGroups_set (List.range 3) b (fun k => 3 * v + k) (fun k hk => by have := List.mem_range.1 hk; omega)
    (cause := 4) (by decide) 0 0
  exact ⟨_, hexec, (hla.bitF_status F.GDR_STATUS_VGL_UV v rfl (by decide) (by decide)).trans hlow, hla.arisen hev,
    fun k => hset k (List.mem_range.2 k.isLt)⟩

theorem hbStatus_reg (h : Nat) : ¬pwsReg (R.GDR_HB_STATUS h) := by
  rintro (⟨g, hg, e | e | e⟩ | ⟨i, e⟩ | e | e)
  all_goals simp only [R.GDR_HB_STATUS, R.GDR_GRP_STATUS, R.GDR_GRP_FAULTS, R.MOT_STATUS, R.MOT_BRK_STAT, R.GDR_STATUS, R.BRG_STATUS] at e
  all_goals omega

/-- A latched cause of its own is in bits 0 to 4 of a half-bridge's status. -/
theorem hbLatched_of_flag {f : Fld} {h : Nat} (ho : f.off = R.GDR_HB_STATUS h) (hw : f.w = 1) (hl : f.lo < 5) (hf : s.flag f = true) :
    s.hbLatched h = true := by
  rw [flag_eq_getLsbD s f hw, ho] at hf
  rw [State.hbLatched, bne_iff_ne]
  intro h0
  have hb := bits_testBit (s.getR (R.GDR_HB_STATUS h)) 0 5 f.lo
  rw [h0, Nat.zero_testBit, Nat.zero_add, hf, Bool.and_true, eq_comm, decide_eq_false_iff_not] at hb
  exact hb hl

theorem bstUvlo_faults {h : Fin 48} {mv : Nat} (ha : s.brg.armedBst[h] = true) (hok : s.flag (F.GDR_HB_STATUS_BST_OK h) = true)
    (hm : mv < (s.bstMv h).1) : Leads s (.bstUvlo h mv) fun t =>
      t.flag (F.GDR_HB_STATUS_BST_OK h) = false ∧ t.flag (F.GDR_HB_STATUS_UV_BST h) = true
        ∧ t.flag (F.GDR_GRP_STATUS_FAULT (h.val / 4)) = true ∧ (t.half h).duty = none := by
  have hexec : exec (.bstUvlo h mv) s = .next (((s.putF (F.GDR_HB_STATUS_BST_OK h) 0).putF (F.GDR_HB_STATUS_UV_BST h) 1).latchGroup
      (h / 4) 1 (h % 4)) := by
    refine congrArg Host.Outcome.next (if_pos ?_)
    rw [ha, hok, Bool.and_true, Bool.true_and]
    exact Nat.ble_eq_true_of_le hm
  have hbst : ((s.putF (F.GDR_HB_STATUS_BST_OK h) 0).putF (F.GDR_HB_STATUS_UV_BST h) 1).flag (F.GDR_HB_STATUS_BST_OK h) = false := by
    rw [flag_putF_apart _ (Or.inr (by simp [F.GDR_HB_STATUS_BST_OK, F.GDR_HB_STATUS_UV_BST])),
      flag_putF_same _ _ _ (by simp [F.GDR_HB_STATUS_BST_OK])]
    rfl
  have huv : ((s.putF (F.GDR_HB_STATUS_BST_OK h) 0).putF (F.GDR_HB_STATUS_UV_BST h) 1).flag (F.GDR_HB_STATUS_UV_BST h) = true := by
    rw [flag_putF_same _ _ _ (by simp [F.GDR_HB_STATUS_UV_BST])]
    rfl
  generalize (s.putF (F.GDR_HB_STATUS_BST_OK h) 0).putF (F.GDR_HB_STATUS_UV_BST h) 1 = b at hexec hbst huv
  have hg : h.val / 4 < 12 := by omega
  have hla := latchGroup_latches (.refl b) hg 1 (h % 4) 0
  obtain ⟨hf, -, -⟩ := latchGroup_sets b hg (cause := 1) (by decide) (h % 4) 0
  exact ⟨_, hexec, (flag_congr (f := F.GDR_HB_STATUS_BST_OK h) (hla.getR (hbStatus_reg h))).trans hbst,
    (flag_congr (f := F.GDR_HB_STATUS_UV_BST h) (hla.getR (hbStatus_reg h))).trans huv, hf,
    latchGroup_half b hg rfl (hbLatched_of_flag rfl rfl (by simp [F.GDR_HB_STATUS_UV_BST]) huv) _ _ _⟩

/-- The start of a retry wait is in the group alone. -/
theorem retryStart_latches (a : s.Latches t) {g : Nat} (hg : g < 12) : s.Latches (t.retryStart g) := by
  unfold State.retryStart
  split
  · refine State.Latches.setGrp (a.putGrp (f := F.GDR_GRP_STATUS_RETRY_WAIT g) _ hg rfl ?_ ?_) g _
    · simp [F.GDR_GRP_STATUS_RETRY_WAIT]
    · simp [F.GDR_GRP_STATUS_RETRY_WAIT]
  · exact a

theorem vglRises {v : Fin 4} {mv : Nat} (hm : (s.vglMv v).2 ≤ mv) :
    Leads s (.uvloRisingThreshold (.vgl v) mv) fun t => t.brg.armedVgl[v] = true ∧ t.vglLow v = false := by
  have hexec : exec (.uvloRisingThreshold (.vgl v) mv) s = .next ((List.range 3).foldl (fun a k => a.retryStart (3 * v + k))
      (State.putBitF { s with brg := { s.brg with armedVgl := s.brg.armedVgl.set v true } } F.GDR_STATUS_VGL_UV v false)) :=
    congrArg Host.Outcome.next (if_neg (by omega))
  have harm : (State.putBitF { s with brg := { s.brg with armedVgl := s.brg.armedVgl.set v true } } F.GDR_STATUS_VGL_UV v false).brg.armedVgl[v]
      = true := by
    change (s.brg.armedVgl.set v true)[v] = true
    simp
  have hlow : (State.putBitF { s with brg := { s.brg with armedVgl := s.brg.armedVgl.set v true } } F.GDR_STATUS_VGL_UV v false).vglLow v
      = false := bitF_putBitF_same _ _ _ _ (by decide) v.isLt
  generalize State.putBitF { s with brg := { s.brg with armedVgl := s.brg.armedVgl.set v true } } F.GDR_STATUS_VGL_UV v false = b
    at hexec harm hlow
  have hla : b.Latches ((List.range 3).foldl (fun a k => a.retryStart (3 * v + k)) b) := State.Latches.foldl _ (.refl b) fun d k hk =>
    retryStart_latches (.refl d) (by have := List.mem_range.1 hk; omega)
  refine ⟨_, hexec, ?_, (hla.bitF_status F.GDR_STATUS_VGL_UV v rfl (by decide) (by decide)).trans hlow⟩
  beta_reduce
  rw [hla.brg.1]
  exact harm

theorem bstRises {h : Fin 48} {mv : Nat} (hm : (s.bstMv h).2 ≤ mv) :
    Leads s (.uvloRisingThreshold (.bst h) mv) fun t => t.brg.armedBst[h] = true ∧ t.flag (F.GDR_HB_STATUS_BST_OK h) = true := by
  have hexec : exec (.uvloRisingThreshold (.bst h) mv) s = .next ((State.putF { s with brg := { s.brg with
      armedBst := s.brg.armedBst.set h true } } (F.GDR_HB_STATUS_BST_OK h) 1).retryStart (h / 4)) :=
    congrArg Host.Outcome.next (if_neg (by omega))
  have harm : (State.putF { s with brg := { s.brg with armedBst := s.brg.armedBst.set h true } } (F.GDR_HB_STATUS_BST_OK h) 1).brg.armedBst[h]
      = true := by
    change (s.brg.armedBst.set h true)[h] = true
    simp
  have hok : (State.putF { s with brg := { s.brg with armedBst := s.brg.armedBst.set h true } } (F.GDR_HB_STATUS_BST_OK h) 1).flag
      (F.GDR_HB_STATUS_BST_OK h) = true := by
    rw [flag_putF_same _ _ _ (by simp [F.GDR_HB_STATUS_BST_OK])]
    rfl
  generalize State.putF { s with brg := { s.brg with armedBst := s.brg.armedBst.set h true } } (F.GDR_HB_STATUS_BST_OK h) 1 = b
    at hexec harm hok
  have hla := retryStart_latches (.refl b) (g := h.val / 4) (by omega)
  refine ⟨_, hexec, ?_, (flag_congr (f := F.GDR_HB_STATUS_BST_OK h) (hla.getR (hbStatus_reg h))).trans hok⟩
  beta_reduce
  rw [hla.brg.2.1]
  exact harm

/-! ### Desaturation -/

/-- The bit of a desaturation. -/
def desatBit (h : Fin 48) (high : Bool) : Fld := if high then F.GDR_HB_STATUS_DESAT_H h else F.GDR_HB_STATUS_DESAT_L h

/-- The half-bridge's status after a desaturation. -/
def State.desatMark (s : State) (h : Fin 48) (high : Bool) : State :=
  (s.putF (desatBit h high) 1).putF (F.GDR_HB_STATUS_DESAT_CNT h) (min (s.getF (F.GDR_HB_STATUS_DESAT_CNT h) + 1) 3)

theorem desatBit_cases (h : Fin 48) (high : Bool) : (desatBit h high).off = R.GDR_HB_STATUS h ∧ (desatBit h high).w = 1
    ∧ 1 ≤ (desatBit h high).lo ∧ (desatBit h high).lo ≤ 2 := by
  cases high
  · simp [desatBit, F.GDR_HB_STATUS_DESAT_L]
  · simp [desatBit, F.GDR_HB_STATUS_DESAT_H]

/-- The choppers that a desaturation stops: they conduct on the half-bridge's low switch. -/
def State.desatChops (s : State) (h : Fin 48) (high : Bool) : List (Fin 4) :=
  (List.finRange 4).filter fun (i : Fin 4) => s.getF (F.MOT_BRK_CFG_HB i) == h.val && (s.chopOf i).onSince.isSome && !high

theorem desatMark_marks (s : State) (h : Fin 48) (high : Bool) : (s.desatMark h high).flag (desatBit h high) = true
    ∧ (s.desatMark h high).getF (F.GDR_HB_STATUS_DESAT_CNT h) = min (s.getF (F.GDR_HB_STATUS_DESAT_CNT h) + 1) 3
    ∧ (s.desatMark h high).flag (F.GDR_HB_STATUS_RETIRED h) = s.flag (F.GDR_HB_STATUS_RETIRED h) := by
  obtain ⟨ho, hw, h1, h2⟩ := desatBit_cases h high
  refine ⟨?_, ?_, ?_⟩
  · rw [State.desatMark, flag_putF_apart _ (Or.inr ⟨by omega, Or.inl (by simp only [F.GDR_HB_STATUS_DESAT_CNT]; omega)⟩),
      flag_putF_same _ _ _ (by omega), hw]
    rfl
  · rw [State.desatMark, getF_putF_same _ _ _ (by simp [F.GDR_HB_STATUS_DESAT_CNT])]
    exact Nat.mod_eq_of_lt (by simp only [F.GDR_HB_STATUS_DESAT_CNT]; omega)
  · rw [State.desatMark, flag_putF_apart _ (Or.inr (by simp [F.GDR_HB_STATUS_RETIRED, F.GDR_HB_STATUS_DESAT_CNT])),
      flag_putF_apart _ (Or.inr ⟨by simp [F.GDR_HB_STATUS_RETIRED], Or.inr (by simp only [F.GDR_HB_STATUS_RETIRED]; omega)⟩)]

theorem desaturation_exec {h : Fin 48} {high : Bool} {mv ns : Nat} (hmv : 1000 + 500 * s.getF (F.GDR_HB_CFG_DS_TH h) < mv)
    (hns : 250 + 50 * s.getF (F.GDR_HB_CFG_BLANK h) ≤ ns) (hon : s.switchOn h high = true) : exec (.desaturation h high mv ns) s =
      .next ((s.desatChops h high).foldl (fun a i => a.chopFault i true)
        (if 3 ≤ s.getF (F.GDR_HB_STATUS_DESAT_CNT h) + 1 then
          ((s.desatMark h high).latchGroup (h / 4) 2 (h % 4)).retireHb h else (s.desatMark h high).latchGroup (h / 4) 2 (h % 4))) := by
  have hcnt : (s.putF (desatBit h high) 1).getF (F.GDR_HB_STATUS_DESAT_CNT h) = s.getF (F.GDR_HB_STATUS_DESAT_CNT h) := by
    obtain ⟨ho, hw, h1, h2⟩ := desatBit_cases h high
    exact getF_putF_apart _ (Or.inr ⟨by simp [F.GDR_HB_STATUS_DESAT_CNT], Or.inr (by simp only [F.GDR_HB_STATUS_DESAT_CNT]; omega)⟩)
  have hgo : ((Nat.blt (1000 + 500 * s.getF (F.GDR_HB_CFG_DS_TH h)) mv && Nat.ble (250 + 50 * s.getF (F.GDR_HB_CFG_BLANK h)) ns)
      && (s.switchOn h high || !(s.desatChops h high).isEmpty)) = true := by
    rw [hon, Bool.true_or, Bool.and_true, Bool.and_eq_true]
    exact ⟨Nat.ble_eq_true_of_le hmv, Nat.ble_eq_true_of_le hns⟩
  rw [State.desatMark, ← hcnt]
  exact congrArg Host.Outcome.next (if_pos hgo)

theorem desaturation_faults {h : Fin 48} {high : Bool} {mv ns : Nat} (hmv : 1000 + 500 * s.getF (F.GDR_HB_CFG_DS_TH h) < mv)
    (hns : 250 + 50 * s.getF (F.GDR_HB_CFG_BLANK h) ≤ ns) (hon : s.switchOn h high = true) (h2 : s.getF (F.GDR_HB_STATUS_DESAT_CNT h) < 2)
    (hch : ∀ i : Fin 4, s.getF (F.MOT_BRK_CFG_HB i) ≠ h.val) : Leads s (.desaturation h high mv ns) fun t =>
      t.flag (if high then F.GDR_HB_STATUS_DESAT_H h else F.GDR_HB_STATUS_DESAT_L h) = true
        ∧ t.getF (F.GDR_HB_STATUS_DESAT_CNT h) = s.getF (F.GDR_HB_STATUS_DESAT_CNT h) + 1 ∧ (t.half h).duty = none
        ∧ t.hasCause (h.val / 4) 2 = true ∧ t.Arisen Ev.GDR_GROUP_FAULT (h.val / 4) := by
  have hnone : s.desatChops h high = [] := by
    rw [State.desatChops, List.filter_eq_nil_iff]
    intro i _ hi
    simp only [Bool.and_eq_true, beq_iff_eq] at hi
    exact hch i hi.1.1
  have hexec := desaturation_exec hmv hns hon
  rw [hnone, if_neg (by omega)] at hexec
  obtain ⟨hb, hc, -⟩ := desatMark_marks s h high
  obtain ⟨ho, hw, -, hlo⟩ := desatBit_cases h high
  generalize s.desatMark h high = b at hexec hb hc
  have hg : h.val / 4 < 12 := by omega
  have hla := latchGroup_latches (.refl b) hg 2 (h % 4) 0
  obtain ⟨-, hcs, hev⟩ := latchGroup_sets b hg (cause := 2) (by decide) (h % 4) 0
  refine ⟨_, hexec, (flag_congr (f := desatBit h high) (ho ▸ hla.getR (hbStatus_reg h))).trans hb,
    (getF_congr (f := F.GDR_HB_STATUS_DESAT_CNT h) (hla.getR (hbStatus_reg h))).trans (hc.trans (by omega)),
    latchGroup_half b hg rfl (hbLatched_of_flag ho hw (by omega) hb) _ _ _, hcs, hev⟩

end Sys2Proof.Machine

end

/-! ## The power stage: retirement, retries, bus monitors and choppers (R291, R302 to R306) -/

section

namespace Sys2Proof.Machine

variable {s t u : State} {h : Fin 48}

/-! ### Retirement -/

/-- From `s` to `t` a retired half-bridge stays retired, and no event is lost. -/
def State.Retires (h : Fin 48) (s t : State) : Prop :=
  (s.flag (F.GDR_HB_STATUS_RETIRED h) = true → t.flag (F.GDR_HB_STATUS_RETIRED h) = true) ∧ ∀ id i, s.Arisen id i → t.Arisen id i

theorem State.Retires.refl (h : Fin 48) (s : State) : State.Retires h s s := ⟨fun h => h, fun _ _ h => h⟩

theorem State.Retires.trans (a : State.Retires h s t) (b : State.Retires h t u) : State.Retires h s u :=
  ⟨fun q => b.1 (a.1 q), fun id i q => b.2 id i (a.2 id i q)⟩

theorem State.Latches.retires (a : s.Latches t) (h : Fin 48) : State.Retires h s t :=
  ⟨fun q => (flag_congr (f := F.GDR_HB_STATUS_RETIRED h) (a.getR (hbStatus_reg h))).trans q, fun _ _ => a.arisen⟩

theorem State.Retires.putF (a : State.Retires h s t) {f : Fld} (v : Nat) (ho : R.GDR_HB_STATUS h ≠ f.off) : State.Retires h s (t.putF f v) :=
  a.trans ⟨fun q => (flag_putF_off t f (F.GDR_HB_STATUS_RETIRED h) v ho).trans q, fun _ _ q => q.of_eq rfl rfl⟩

theorem State.Retires.mends (a : State.Retires h s t) (m : t.Mends u) : State.Retires h s u := by
  refine a.trans ⟨fun q => (m.2.1.flag (F.GDR_HB_STATUS_RETIRED h) ?_).trans q, m.2.2⟩
  simp only [F.GDR_HB_STATUS_RETIRED, R.GDR_HB_STATUS, List.mem_cons, List.not_mem_nil, or_false]
  omega

theorem putRetired (s : State) (h : Fin 48) (k : Nat) : State.Retires h s (s.putF (F.GDR_HB_STATUS_RETIRED k) 1) := by
  by_cases e : k = h
  · subst e
    refine ⟨fun _ => ?_, fun _ _ q => q.of_eq rfl rfl⟩
    rw [flag_putF_same _ _ _ (by simp [F.GDR_HB_STATUS_RETIRED])]
    rfl
  · refine (State.Retires.refl h s).putF 1 ?_
    simp only [F.GDR_HB_STATUS_RETIRED, R.GDR_HB_STATUS]
    omega

/-- What follows where a half-bridge is retired. -/
theorem retired_follows (s : State) (k : Nat) (h : Fin 48) :
    State.Retires h s (((((s.bothOff k).chopsFollow).raise Ev.GDR_HB_RETIRED k).setMend 2)) := by
  have hla : s.Latches (((s.bothOff k).chopsFollow).raise Ev.GDR_HB_RETIRED k) :=
    (chopsFollow_latches ((State.Latches.refl s).setHalf k {})).raise _ _ _ _
  exact (hla.retires h).mends (setMend_mends _ 2)

theorem retireHb_retires (s : State) (k : Nat) (h : Fin 48) : State.Retires h s (s.retireHb k) := by
  unfold State.retireHb
  split
  · exact .refl h s
  · exact (putRetired s h k).trans (retired_follows _ k h)

theorem chopFault_retires (s : State) (i : Fin 4) (d : Bool) (h : Fin 48) : State.Retires h s (s.chopFault i d) := by
  unfold State.chopFault
  extract_lets a b
  have ha : State.Retires h s a := by
    refine ((chopOff_latches (.refl s) i).retires h).putF (f := F.GDR_STATUS_CHOP_FAULT) _ ?_
    simp only [F.GDR_STATUS_CHOP_FAULT, R.GDR_STATUS, R.GDR_HB_STATUS]
    omega
  clear_value a
  have hb : State.Retires h s b := by
    simp only [b]
    split
    · refine ha.putF _ ?_
      simp only [F.GDR_CHOP_STAT_DESAT, R.GDR_CHOP_STAT, R.GDR_HB_STATUS]
      omega
    · refine ha.putF _ ?_
      simp only [F.GDR_CHOP_STAT_RISE, R.GDR_CHOP_STAT, R.GDR_HB_STATUS]
      omega
  clear_value b
  exact (hb.trans (retireHb_retires b _ h)).trans (((State.Latches.refl _).raise _ _ _ _).retires h)

/-- A half-bridge that is retired is retired, with its event. -/
theorem retireHb_sets (hr : s.flag (F.GDR_HB_STATUS_RETIRED h) = false) :
    (s.retireHb h).flag (F.GDR_HB_STATUS_RETIRED h) = true ∧ (s.retireHb h).Arisen Ev.GDR_HB_RETIRED h := by
  have hput : (s.putF (F.GDR_HB_STATUS_RETIRED h) 1).flag (F.GDR_HB_STATUS_RETIRED h) = true := by
    rw [flag_putF_same _ _ _ (by simp [F.GDR_HB_STATUS_RETIRED])]
    rfl
  have he : s.retireHb h = ((((s.putF (F.GDR_HB_STATUS_RETIRED h) 1).bothOff h).chopsFollow).raise Ev.GDR_HB_RETIRED h).setMend 2 :=
    if_neg (by simp [hr])
  rw [he]
  exact ⟨(retired_follows _ h h).1 hput, (setMend_mends _ 2).2.2 _ _ (arisen_raise ..)⟩

theorem desaturation_retires {high : Bool} {mv ns : Nat} (hmv : 1000 + 500 * s.getF (F.GDR_HB_CFG_DS_TH h) < mv)
    (hns : 250 + 50 * s.getF (F.GDR_HB_CFG_BLANK h) ≤ ns) (hon : s.switchOn h high = true) (h2 : s.getF (F.GDR_HB_STATUS_DESAT_CNT h) = 2)
    (hr : s.flag (F.GDR_HB_STATUS_RETIRED h) = false) : Leads s (.desaturation h high mv ns) fun t =>
      t.flag (F.GDR_HB_STATUS_RETIRED h) = true ∧ t.Arisen Ev.GDR_HB_RETIRED h := by
  have hexec := desaturation_exec hmv hns hon
  rw [if_pos (by omega)] at hexec
  obtain ⟨-, -, hm⟩ := desatMark_marks s h high
  have hla := latchGroup_latches (.refl (s.desatMark h high)) (g := h.val / 4) (by omega) 2 (h % 4) 0
  have hsets := retireHb_sets (s := (s.desatMark h high).latchGroup (h / 4) 2 (h % 4)) (h := h)
    (by rw [flag_congr (f := F.GDR_HB_STATUS_RETIRED h) (hla.getR (hbStatus_reg h)), hm, hr])
  generalize ((s.desatMark h high).latchGroup (h / 4) 2 (h % 4)).retireHb h = b at hexec hsets
  have hfold : ∀ (l : List (Fin 4)) (d : State), State.Retires h d (l.foldl (fun a i => a.chopFault i true) d) := by
    intro l
    induction l with
    | nil => exact fun d => .refl h d
    | cons i r ih => exact fun d => (chopFault_retires d i true h).trans (ih _)
  obtain ⟨h1, h3⟩ := hfold (s.desatChops h high) b
  exact ⟨_, hexec, h1 hsets.1, h3 _ _ hsets.2⟩

/-! ### Clears and retries -/

theorem groupClear_carries (p : Port) (g : Fin 12) {w : Word} (h0 : w.getLsbD 0 = true) :
    exec (.groupClear p g w) s = .next (s.dnWrite (R.GDR_GRP_CTRL g) w) := congrArg Host.Outcome.next (if_pos h0)

theorem supplyLow_of_up {g : Nat} (h : s.causePresent g = false) : s.supplyLow g = false ∧ s.keptOut g = false := by
  rw [State.causePresent, Bool.or_eq_false_iff, Bool.not_eq_false', State.suppliesUp, Bool.and_eq_true, State.vglGood, Bool.and_eq_true,
    Bool.not_eq_true', List.all_eq_true] at h
  obtain ⟨⟨⟨-, hv⟩, hb⟩, hk⟩ := h
  refine ⟨?_, hk⟩
  rw [State.supplyLow, hv, Bool.false_or, List.any_eq_false]
  intro k hk'
  rw [State.bstLow, hb k hk', Bool.not_true, Bool.and_false]
  exact Bool.false_ne_true

/-- A group that returns to service has no fault. -/
theorem groupReturn_fault (s : State) {g : Nat} (hg : g < 12) : (s.groupReturn g).flag (F.GDR_GRP_STATUS_FAULT g) = false := by
  have hhb : ∀ (l : List Nat) (a : State) (f : State → Nat → Word),
      (l.foldl (fun a k => a.putR (R.GDR_HB_STATUS (4 * g + k)) (f a k)) a).getR (R.GDR_GRP_STATUS g) = a.getR (R.GDR_GRP_STATUS g) := by
    intro l
    induction l with
    | nil => exact fun _ _ => rfl
    | cons k r ih =>
      intro a f
      rw [List.foldl_cons, ih, getR_putR_ne]
      simp only [R.GDR_GRP_STATUS, R.GDR_HB_STATUS]
      omega
  unfold State.groupReturn
  extract_lets keep a x b
  have ha : a.flag (F.GDR_GRP_STATUS_FAULT g) = false := by
    have hp : (s.putR (R.GDR_GRP_STATUS g) keep).flag (F.GDR_GRP_STATUS_FAULT g) = false := by
      rw [flag_eq_getLsbD _ _ rfl]
      change (State.getR (State.putR _ _ _) (R.GDR_GRP_STATUS g)).getLsbD 0 = false
      rw [getR_putR_same]
      simp only [keep, BitVec.getLsbD_and]
      exact Bool.and_false _
    exact (flag_putF_off _ F.GDR_STATUS_GRP_FAULT (F.GDR_GRP_STATUS_FAULT g) _ (grpStatus_ne g)).trans hp
  clear_value a
  have hb : b.flag (F.GDR_GRP_STATUS_FAULT g) = false := by
    refine (flag_putF_off _ (F.MOT_STATUS_GROUP_FAULT g) (F.GDR_GRP_STATUS_FAULT g) _ ?_).trans ha
    simp only [F.GDR_GRP_STATUS_FAULT, F.MOT_STATUS_GROUP_FAULT, R.GDR_GRP_STATUS, R.MOT_STATUS]
    omega
  clear_value b
  have hl : ∀ d : State, d.linesFollow.getR (R.GDR_GRP_STATUS g) = d.getR (R.GDR_GRP_STATUS g) := fun d => by
    have hne : R.GDR_GRP_STATUS g ≠ R.BRG_STATUS := by
      simp only [R.GDR_GRP_STATUS, R.BRG_STATUS]
      omega
    unfold State.linesFollow
    exact (getR_putF_ne _ F.BRG_STATUS_LINES _ _ hne).trans ((getR_putF_ne _ F.BRG_STATUS_LINES _ _ hne).trans
      (getR_putF_ne _ F.BRG_STATUS_LINES _ _ hne))
  refine (flag_congr (f := F.GDR_GRP_STATUS_FAULT g) ((hl _).trans ?_)).trans hb
  exact hhb (List.range 4) b fun a k => a.getR (R.GDR_HB_STATUS (4 * g + k)) &&& ~~~0xF#32

theorem groupRetry_returns {g : Fin 12} {n : Nat} (hn : (s.grp g).retryAt = some n) (ht : n ≤ s.tick)
    (hw : s.flag (F.GDR_GRP_STATUS_RETRY_WAIT g) = true) (h3 : (s.retriesOf g).length < 3) (hc : s.causePresent g = false) :
    Leads s (.groupRetry g) fun t => t.flag (F.GDR_GRP_STATUS_FAULT g) = false ∧ t.Arisen Ev.GDR_RETRY g := by
  obtain ⟨hl, hk⟩ := supplyLow_of_up hc
  have hret := groupReturn_fault (s.setGrp g { s.grp g with retries := s.tick :: s.retriesOf g }) (g := g) g.isLt
  have hexec : exec (.groupRetry g) s = .next ((((s.setGrp g { s.grp g with retries := s.tick :: s.retriesOf g }).groupReturn g).putF
      (F.GDR_GRP_STATUS_RETRIES g) (((s.setGrp g { s.grp g with retries := s.tick :: s.retriesOf g }).groupReturn g).retriesOf g).length).raise
        Ev.GDR_RETRY g) := by
    change execGroupRetry g s = _
    unfold execGroupRetry
    rw [hn]
    exact congrArg Host.Outcome.next ((if_pos ⟨ht, hw⟩).trans ((if_pos h3).trans (if_neg (by simp [hl, hk]))))
  generalize (s.setGrp g { s.grp g with retries := s.tick :: s.retriesOf g }).groupReturn g = b at hexec hret
  refine ⟨_, hexec, ?_, arisen_raise ..⟩
  beta_reduce
  rw [State.raise_flag, flag_putF_apart _ (Or.inr (by simp [F.GDR_GRP_STATUS_FAULT, F.GDR_GRP_STATUS_RETRIES]))]
  exact hret

theorem groupRetry_exhausted {g : Fin 12} {n : Nat} (hn : (s.grp g).retryAt = some n) (ht : n ≤ s.tick)
    (hw : s.flag (F.GDR_GRP_STATUS_RETRY_WAIT g) = true) (h3 : 3 ≤ (s.retriesOf g).length) :
    Leads s (.groupRetry g) fun t => t.flag (F.GDR_GRP_STATUS_EXHAUSTED g) = true ∧ t.flag (F.GDR_GRP_STATUS_RETRY_WAIT g) = false
      ∧ t.Arisen Ev.GDR_RETRY_EXHAUSTED g := by
  have hexec : exec (.groupRetry g) s = .next ((((s.putF (F.GDR_GRP_STATUS_EXHAUSTED g) 1).putB (F.GDR_GRP_STATUS_RETRY_WAIT g) false).setGrp
      g { ((s.putF (F.GDR_GRP_STATUS_EXHAUSTED g) 1).putB (F.GDR_GRP_STATUS_RETRY_WAIT g) false).grp g with retryAt := none }).raise
        Ev.GDR_RETRY_EXHAUSTED g) := by
    change execGroupRetry g s = _
    unfold execGroupRetry
    rw [hn]
    exact congrArg Host.Outcome.next ((if_pos ⟨ht, hw⟩).trans (if_neg (by omega)))
  have hex : ((s.putF (F.GDR_GRP_STATUS_EXHAUSTED g) 1).putB (F.GDR_GRP_STATUS_RETRY_WAIT g) false).flag (F.GDR_GRP_STATUS_EXHAUSTED g) = true := by
    rw [State.putB, flag_putF_apart _ (Or.inr (by simp [F.GDR_GRP_STATUS_EXHAUSTED, F.GDR_GRP_STATUS_RETRY_WAIT])),
      flag_putF_same _ _ _ (by simp [F.GDR_GRP_STATUS_EXHAUSTED])]
    rfl
  have hwt : ((s.putF (F.GDR_GRP_STATUS_EXHAUSTED g) 1).putB (F.GDR_GRP_STATUS_RETRY_WAIT g) false).flag (F.GDR_GRP_STATUS_RETRY_WAIT g) = false :=
    flag_putB_same _ _ _ (by simp [F.GDR_GRP_STATUS_RETRY_WAIT]) (by simp [F.GDR_GRP_STATUS_RETRY_WAIT])
  generalize (s.putF (F.GDR_GRP_STATUS_EXHAUSTED g) 1).putB (F.GDR_GRP_STATUS_RETRY_WAIT g) false = b at hexec hex hwt
  exact ⟨_, hexec, hex, hwt, arisen_raise ..⟩

end Sys2Proof.Machine

end

/-! ## The power stage: bus monitors, choppers and the statement (R291, R294 to R307) -/

section

namespace Sys2Proof.Machine

variable {s t u : State}

/-! ### Bus monitors (R304, R305) -/

/-- The warning of a bus monitor follows its value. -/
def State.busWarn (s : State) (i : Fin 4) (v : Nat) : State :=
  if s.getF (F.GDR_BUS_WARN_LEVEL i) ≤ v then
    (if s.bitF F.GDR_STATUS_BUS_WARN i then s
     else (s.putBitF F.GDR_STATUS_BUS_WARN i true).raise Ev.GDR_BUS_OV_WARN i)
  else if v + s.getF (F.GDR_BUS_WARN_HYST i) < s.getF (F.GDR_BUS_WARN_LEVEL i) then s.putBitF F.GDR_STATUS_BUS_WARN i false
  else s

/-- The warning is in GDR_STATUS.BUS_WARN alone. -/
theorem busWarn_keeps (s : State) (i : Fin 4) (v : Nat) : (s.busWarn i v).brg = s.brg
    ∧ (∀ o, o ≠ R.GDR_STATUS → (s.busWarn i v).getR o = s.getR o)
    ∧ (s.busWarn i v).getF F.GDR_STATUS_BUS_TRIP = s.getF F.GDR_STATUS_BUS_TRIP := by
  have hput : ∀ b : Bool, (s.putBitF F.GDR_STATUS_BUS_WARN i b).brg = s.brg
      ∧ (∀ o, o ≠ R.GDR_STATUS → (s.putBitF F.GDR_STATUS_BUS_WARN i b).getR o = s.getR o)
      ∧ (s.putBitF F.GDR_STATUS_BUS_WARN i b).getF F.GDR_STATUS_BUS_TRIP = s.getF F.GDR_STATUS_BUS_TRIP := fun b =>
    ⟨rfl, fun o ho => getR_putF_ne s _ _ o ho, getF_putF_apart _ (by simp [Fld.Apart, F.GDR_STATUS_BUS_WARN, F.GDR_STATUS_BUS_TRIP])⟩
  unfold State.busWarn
  split
  · split
    · exact ⟨rfl, fun _ _ => rfl, rfl⟩
    · exact hput true
  · split
    · exact hput false
    · exact ⟨rfl, fun _ _ => rfl, rfl⟩

theorem busMonitor_exec {i : Fin 4} {code : BitVec 14} (hen : s.flag (F.GDR_BUS_CFG_EN i) = true) :
    exec (.busMonitorConversion i code) s = .next (
      if ((s.putF (F.GDR_BUS_VAL i) code.toNat).busWarn i code.toNat).getF (F.GDR_BUS_TRIP_LEVEL i) ≤ code.toNat
          ∧ ¬((s.putF (F.GDR_BUS_VAL i) code.toNat).busWarn i code.toNat).bitF F.GDR_STATUS_BUS_TRIP i then
        ((s.putF (F.GDR_BUS_VAL i) code.toNat).busWarn i code.toNat).busTrip i
      else (s.putF (F.GDR_BUS_VAL i) code.toNat).busWarn i code.toNat) := by
  have he : (s.putF (F.GDR_BUS_VAL i) code.toNat).flag (F.GDR_BUS_CFG_EN i) = true := by
    refine (flag_putF_off s _ _ _ ?_).trans hen
    simp only [F.GDR_BUS_CFG_EN, F.GDR_BUS_VAL, R.GDR_BUS_CFG, R.GDR_BUS_VAL]
    omega
  exact congrArg Host.Outcome.next (if_pos he)

theorem busWarned_keeps (s : State) (i : Fin 4) (code : BitVec 14) :
    ((s.putF (F.GDR_BUS_VAL i) code.toNat).busWarn i code.toNat).brg = s.brg
      ∧ ((s.putF (F.GDR_BUS_VAL i) code.toNat).busWarn i code.toNat).getF (F.GDR_BUS_VAL i) = code.toNat
      ∧ ((s.putF (F.GDR_BUS_VAL i) code.toNat).busWarn i code.toNat).getF (F.GDR_BUS_TRIP_LEVEL i) = s.getF (F.GDR_BUS_TRIP_LEVEL i)
      ∧ ((s.putF (F.GDR_BUS_VAL i) code.toNat).busWarn i code.toNat).bitF F.GDR_STATUS_BUS_TRIP i = s.bitF F.GDR_STATUS_BUS_TRIP i := by
  obtain ⟨hb, hr, ht⟩ := busWarn_keeps (s.putF (F.GDR_BUS_VAL i) code.toNat) i code.toNat
  have hne : R.GDR_BUS_VAL i ≠ R.GDR_STATUS ∧ R.GDR_BUS_TRIP i ≠ R.GDR_STATUS ∧ R.GDR_BUS_TRIP i ≠ R.GDR_BUS_VAL i ∧ R.GDR_STATUS ≠ R.GDR_BUS_VAL i := by
    simp only [R.GDR_BUS_VAL, R.GDR_BUS_TRIP, R.GDR_STATUS]
    omega
  obtain ⟨h1, h2, h3, h4⟩ := hne
  refine ⟨hb, (getF_congr (f := F.GDR_BUS_VAL i) (hr _ h1)).trans ?_,
    (getF_congr (f := F.GDR_BUS_TRIP_LEVEL i) (hr _ h2)).trans (getF_putF_off s _ _ _ h3), bitF_congr (ht.trans (getF_putF_off s _ _ _ h4)) i⟩
  rw [getF_putF_same _ _ _ (by simp [F.GDR_BUS_VAL])]
  exact Nat.mod_eq_of_lt code.isLt

theorem busMonitor_takes {i : Fin 4} {code : BitVec 14} (hen : s.flag (F.GDR_BUS_CFG_EN i) = true)
    (ht : code.toNat < s.getF (F.GDR_BUS_TRIP_LEVEL i)) :
    Leads s (.busMonitorConversion i code) fun t => t.getF (F.GDR_BUS_VAL i) = code.toNat ∧ t.brg = s.brg := by
  obtain ⟨hb, hv, hl, -⟩ := busWarned_keeps s i code
  have hexec := busMonitor_exec (code := code) hen
  rw [hl, if_neg (by omega)] at hexec
  exact ⟨_, hexec, hv, hb⟩

theorem busTrip_trips (s : State) (i : Fin 4) : (s.busTrip i).bitF F.GDR_STATUS_BUS_TRIP i = true ∧ (s.busTrip i).brg.tripDue = true
    ∧ ∀ g : Fin 12, (s.busTrip i).flag (F.GDR_GRP_STATUS_FAULT g) = true ∧ (s.busTrip i).hasCause g 5 = true := by
  unfold State.busTrip
  extract_lets a x b
  have ha : a.bitF F.GDR_STATUS_BUS_TRIP i = true := bitF_putBitF_same s _ _ _ (by decide) i.isLt
  clear_value a
  have hb : b.bitF F.GDR_STATUS_BUS_TRIP i = true := ha
  have hd : b.brg.tripDue = true := rfl
  clear_value b
  have hset := latchGroups_set (List.range 12) b id (fun k hk => List.mem_range.1 hk) (cause := 5) (by decide) 0 i
  obtain ⟨hla, hg⟩ := hset
  exact ⟨(hla.bitF_status F.GDR_STATUS_BUS_TRIP i rfl (by decide) (by decide)).trans hb, hla.brg.2.2.trans hd,
    fun g => hg g (List.mem_range.2 g.isLt)⟩

theorem busMonitor_trips {i : Fin 4} {code : BitVec 14} (hen : s.flag (F.GDR_BUS_CFG_EN i) = true)
    (ht : s.getF (F.GDR_BUS_TRIP_LEVEL i) ≤ code.toNat) (hn : s.bitF F.GDR_STATUS_BUS_TRIP i = false) :
    Leads s (.busMonitorConversion i code) fun t => t.bitF F.GDR_STATUS_BUS_TRIP i = true ∧ t.brg.tripDue = true
      ∧ ∀ g : Fin 12, t.flag (F.GDR_GRP_STATUS_FAULT g) = true ∧ t.hasCause g 5 = true := by
  obtain ⟨-, -, hl, hb⟩ := busWarned_keeps s i code
  have hexec := busMonitor_exec (code := code) hen
  rw [hl, hb, hn, if_pos ⟨ht, Bool.false_ne_true⟩] at hexec
  exact ⟨_, hexec, busTrip_trips _ i⟩

/-! ### Choppers (R291) -/

@[simp] theorem chopOf_setChop (s : State) (i : Fin 4) (x : Chopper) : (s.setChop i x).chopOf i = x := by
  simp [State.chopOf, State.setChop]

theorem chopOf_putF (s : State) (i : Fin 4) (f : Fld) (v : Nat) : (s.putF f v).chopOf i = s.chopOf i := rfl

theorem chopper_on {i : Fin 4} {code : BitVec 14} (hen : s.flag (F.MOT_BRK_CFG_EN i) = true) (hf : s.bitF F.GDR_STATUS_CHOP_FAULT i = false)
    (hb : s.chopBlocked i = false) (ho : (s.chopOf i).onSince = none) (hl : s.getF (F.MOT_BRK_ON i) ≤ code.toNat) :
    Leads s (.chopperConversion i code) fun t => (t.chopOf i).onSince = some s.tsc.toNat ∧ t.flag (F.MOT_BRK_STAT_ON i) = true := by
  refine ⟨(s.setChop i { s.chopOf i with onSince := some s.tsc.toNat, hist := [(s.tsc.toNat, code.toNat)] }).putB (F.MOT_BRK_STAT_ON i) true,
    ?_, ?_, flag_putB_same _ _ _ (by simp [F.MOT_BRK_STAT_ON]) (by simp [F.MOT_BRK_STAT_ON])⟩
  · change execChopperConversion i code s = _
    unfold execChopperConversion
    rw [ho, if_pos (by simp [hen, hf, hb])]
    exact congrArg Host.Outcome.next (if_pos hl)
  · rw [State.putB, chopOf_putF, chopOf_setChop]

theorem chopper_off {i : Fin 4} {code : BitVec 14} {n : Nat} (hen : s.flag (F.MOT_BRK_CFG_EN i) = true)
    (hf : s.bitF F.GDR_STATUS_CHOP_FAULT i = false) (hb : s.chopBlocked i = false) (ho : (s.chopOf i).onSince = some n)
    (hl : code.toNat < s.getF (F.MOT_BRK_OFF i)) (ht : n + 400 ≤ s.tsc.toNat) :
    Leads s (.chopperConversion i code) fun t => (t.chopOf i).onSince = none ∧ t.flag (F.MOT_BRK_STAT_ON i) = false := by
  refine ⟨(s.setChop i { onCycles := (s.chopOf i).onCycles + (s.tsc.toNat - max n (s.tick * 4000)) }).putB (F.MOT_BRK_STAT_ON i) false,
    ?_, ?_, flag_putB_same _ _ _ (by simp [F.MOT_BRK_STAT_ON]) (by simp [F.MOT_BRK_STAT_ON])⟩
  · have hoff : s.chopOff i = (s.setChop i { onCycles := (s.chopOf i).onCycles + (s.tsc.toNat - max n (s.tick * 4000)) }).putB
        (F.MOT_BRK_STAT_ON i) false := by
      unfold State.chopOff
      rw [ho]
    change execChopperConversion i code s = _
    unfold execChopperConversion
    rw [ho, if_pos (by simp [hen, hf, hb]), ← hoff]
    exact congrArg Host.Outcome.next (if_pos ⟨hl, ht⟩)
  · rw [State.putB, chopOf_putF, chopOf_setChop]

/-- Settles O50, clause by clause: supplies, desaturations, clears, retries, bus monitors and choppers. -/
theorem thePowerStageFaultsAndReturns : Obligations.ThePowerStageFaultsAndReturns := by
  intro s
  refine ⟨fun v mv => vglUvlo_faults, fun h mv => bstUvlo_faults, fun v mv => vglRises, fun h mv => bstRises,
    fun h high mv ns => desaturation_faults, fun h high mv ns => desaturation_retires, fun p g w h0 => ⟨fun hd => ?_, fun hd => ?_⟩,
    fun g n hn ht hw => ⟨groupRetry_returns hn ht hw, groupRetry_exhausted hn ht hw⟩,
    fun i code hen => ⟨fun _ => busMonitor_takes hen, busMonitor_trips hen⟩,
    fun i code hen hf hb => ⟨chopper_on hen hf hb, fun n => chopper_off hen hf hb⟩⟩
  · exact ⟨_, groupClear_carries p g h0, dnWrite_carries s _ w hd⟩
  · obtain ⟨hl, ho, hr, -⟩ := dnWrite_too_late s (R.GDR_GRP_CTRL g) w hd
    exact ⟨_, groupClear_carries p g h0, hl, ho, hr⟩

end Sys2Proof.Machine

end

/-! ## Fuses and the debug port (R387 to R390, R399, R400) -/

section

namespace Sys2Proof.Machine

variable {s : State}

/-! ### Words written one after another -/

/-- A run of word writes changes registers only. -/
theorem forEach_putR_frame (s : State) (n : Nat) (at_ : Nat → Nat) (w : Nat → Word) :
    ∃ r, (s.forEach n fun a i => a.putR (at_ i) (w i)) = { s with regs := r } := by
  unfold State.forEach
  generalize List.range n = l
  induction l generalizing s with
  | nil => exact ⟨_, rfl⟩
  | cons i l ih =>
    obtain ⟨r, h⟩ := ih (s.putR (at_ i) (w i))
    exact ⟨r, h⟩

/-- It leaves a word that it does not write. -/
theorem getR_forEach_putR (s : State) (n : Nat) (at_ : Nat → Nat) (w : Nat → Word) {o : Nat} (h : ∀ i < n, at_ i ≠ o) :
    (s.forEach n fun a i => a.putR (at_ i) (w i)).getR o = s.getR o := by
  have hrun : ∀ (l : List Nat) (a : State), (∀ i ∈ l, at_ i ≠ o) →
      (l.foldl (fun a i => a.putR (at_ i) (w i)) a).getR o = a.getR o := by
    intro l
    induction l with
    | nil => exact fun a _ => rfl
    | cons i l ih =>
      intro a hl
      exact (ih _ fun j hj => hl j (List.mem_cons_of_mem i hj)).trans (getR_putR_ne a (w i) (hl i (List.mem_cons_self ..)).symm)
  exact hrun (List.range n) s fun i hi => h i (List.mem_range.1 hi)

/-! ### The registers that show the fuses -/

/-- SEC_STATUS and SEC_PROV_RESULT as the fuses give them, and the stepping. -/
def State.fuseFields (s : State) : State :=
  let f := s.fuse
  (((((((s.putF F.SEC_STATUS_LIFECYCLE f.lifecycle).putB F.SEC_STATUS_DEBUG_PERM_LOCK f.permLock).putF
    F.SEC_STATUS_ROOT_VALID f.validMask).putF F.SEC_STATUS_ROOT_REVOKED f.revoked.toNat).putB F.SEC_STATUS_PROV_DEAD f.dead).putF
    F.SEC_PROV_RESULT_FAILS f.genFails).putF F.DEV_ID_STEP f.stepping.toNat)

theorem putF_frame {t : State} (h : ∃ r, t = { s with regs := r }) (f : Fld) (v : Nat) : ∃ r, t.putF f v = { s with regs := r } := by
  obtain ⟨r, rfl⟩ := h
  exact ⟨_, rfl⟩

theorem fuseFields_frame (s : State) : ∃ r, s.fuseFields = { s with regs := r } :=
  putF_frame (putF_frame (putF_frame (putF_frame (putF_frame (putF_frame (putF_frame ⟨s.regs, rfl⟩ _ _) _ _) _ _) _ _) _ _) _ _) _ _

/-- The identity's words come after the fields, at offsets of their own. -/
theorem fuseFollow_fields (s : State) : (∃ r, s.fuseFollow = { s with regs := r })
    ∧ ∀ o, o < 0x140010 ∨ 0x140070 ≤ o → s.fuseFollow.getR o = s.fuseFields.getR o := by
  unfold State.fuseFollow
  extract_lets f a b c d pub h e
  have hd : d = s.fuseFields := rfl
  have he' : e = d.forEach 16 fun a i => a.putR (R.SEC_ID_PUB i) (BitVec.ofNat 32 (ofLeBytes ((pub.drop (4 * i)).take 4))) := rfl
  clear_value e d
  obtain ⟨r, hr⟩ : ∃ r, d = { s with regs := r } := hd ▸ fuseFields_frame s
  split
  · exact ⟨⟨r, hr⟩, fun o _ => by rw [hd]⟩
  · obtain ⟨r1, h1⟩ := forEach_putR_frame d 16 R.SEC_ID_PUB fun i => BitVec.ofNat 32 (ofLeBytes ((pub.drop (4 * i)).take 4))
    obtain ⟨r2, h2⟩ := forEach_putR_frame e 8 R.SEC_ID_HASH fun i => BitVec.ofNat 32 (ofLeBytes ((h.drop (4 * i)).take 4))
    have he : e = { d with regs := r1 } := he'.trans h1
    refine ⟨⟨r2, h2.trans ?_⟩, fun o ho => ?_⟩
    · rw [he, hr]
    · rw [getR_forEach_putR e 8 R.SEC_ID_HASH _ fun i hi => by simp only [R.SEC_ID_HASH]; omega, he',
        getR_forEach_putR d 16 R.SEC_ID_PUB _ fun i hi => by simp only [R.SEC_ID_PUB]; omega, hd]

theorem setFuse_frame (s : State) (f : Fuses) : ∃ r, s.setFuse f = { s with fuse := f, regs := r } := by
  obtain ⟨r, h⟩ := (fuseFollow_fields { s with fuse := f }).1
  exact ⟨r, h⟩

theorem setFuse_fuse (s : State) (f : Fuses) : (s.setFuse f).fuse = f := by
  obtain ⟨r, h⟩ := setFuse_frame s f
  rw [h]

theorem lifecycle_lt (f : Fuses) : f.lifecycle < 2 ^ 2 := by
  unfold Fuses.lifecycle
  split
  · decide
  · split <;> decide

/-- LIFECYCLE shows the new fuses (R388). -/
theorem setFuse_lifecycle (s : State) (f : Fuses) : (s.setFuse f).getF F.SEC_STATUS_LIFECYCLE = f.lifecycle := by
  have hoff : ∀ (a : State) (g : Fld) (v : Nat), g.off ≠ R.SEC_STATUS → (a.putF g v).getF F.SEC_STATUS_LIFECYCLE = a.getF F.SEC_STATUS_LIFECYCLE :=
    fun a g v h => getF_putF_apart v (Or.inl h.symm)
  have hbits : ∀ (a : State) (g : Fld) (v : Nat), 2 ≤ g.lo → (a.putF g v).getF F.SEC_STATUS_LIFECYCLE = a.getF F.SEC_STATUS_LIFECYCLE :=
    fun a g v h => getF_putF_apart v (Or.inr ⟨by decide, Or.inl h⟩)
  rw [State.setFuse, getF_congr ((fuseFollow_fields _).2 _ (Or.inl (by decide))), State.fuseFields, hoff _ _ _ (by decide),
    hoff _ _ _ (by decide), State.putB, hbits _ _ _ (by decide), hbits _ _ _ (by decide), hbits _ _ _ (by decide), State.putB,
    hbits _ _ _ (by decide), getF_putF_same _ _ _ (by decide)]
  exact Nat.mod_eq_of_lt (lifecycle_lt f)

/-! ### Provisioning (R389) -/

/-- The result of a provisioning command is what SEC_PROV_RESULT shows; the fuses and LIFECYCLE stay. -/
theorem provResult (s : State) {r : Nat} (h : r < 4) : (s.putF F.SEC_PROV_RESULT_RESULT r).fuse = s.fuse
    ∧ (s.putF F.SEC_PROV_RESULT_RESULT r).getF F.SEC_PROV_RESULT_RESULT = r
    ∧ (s.putF F.SEC_PROV_RESULT_RESULT r).getF F.SEC_STATUS_LIFECYCLE = s.getF F.SEC_STATUS_LIFECYCLE := by
  refine ⟨rfl, ?_, getF_putF_off _ _ _ _ (by decide)⟩
  rw [getF_putF_same _ _ _ (by decide)]
  exact Nat.mod_eq_of_lt h

theorem provBurnt (s : State) (f : Fuses) {r : Nat} (h : r < 4) : ((s.setFuse f).putF F.SEC_PROV_RESULT_RESULT r).fuse = f
    ∧ ((s.setFuse f).putF F.SEC_PROV_RESULT_RESULT r).getF F.SEC_PROV_RESULT_RESULT = r
    ∧ ((s.setFuse f).putF F.SEC_PROV_RESULT_RESULT r).getF F.SEC_STATUS_LIFECYCLE = f.lifecycle := by
  obtain ⟨hf, hr, hl⟩ := provResult (s.setFuse f) h
  exact ⟨hf.trans (setFuse_fuse s f), hr, hl.trans (setFuse_lifecycle s f)⟩

theorem secProv_refuse_key {op key : Nat} {slot : Fin 4} {rb : Bool} (h : key ≠ 0x5EC0 ∨ s.fuse.secured = true) :
    s.secProv op slot key rb = s.refuse R.SEC_PROV := if_pos h

/-- GENERATE three times in vain leaves a device that no command provisions. -/
theorem secProv_refuse_dead {op key : Nat} {slot : Fin 4} {rb : Bool} (h : s.fuse.dead = true) :
    s.secProv op slot key rb = s.refuse R.SEC_PROV := by
  unfold State.secProv
  dsimp only
  split
  · rfl
  · split
    · exact if_pos (Or.inr h)
    · split
      · exact if_pos (Or.inr h)
      · split
        · exact if_pos (Or.inr h)
        · rfl

theorem secProv_refused {op : Nat} {key : BitVec 16} {slot : Fin 4} {rb : Bool}
    (h : key ≠ 0x5EC0#16 ∨ s.fuse.secured = true ∨ s.fuse.dead = true) : s.secProv op slot key.toNat rb = s.refuse R.SEC_PROV := by
  obtain h | h | h := h
  · exact secProv_refuse_key (Or.inl fun e => h (BitVec.eq_of_toNat_eq e))
  · exact secProv_refuse_key (Or.inr h)
  · exact secProv_refuse_dead h

/-- A refused provisioning command changes no fuse. -/
theorem prov_refused {key : BitVec 16} {k : Fin 4} {rb : Bool} (h : key ≠ 0x5EC0#16 ∨ s.fuse.secured = true ∨ s.fuse.dead = true) :
    (Leads s (.provGenerate key rb) fun t => t.fuse = s.fuse ∧ t.Arisen (Ev.writeRefused 0x14) 0)
    ∧ (Leads s (.provProgram key k rb) fun t => t.fuse = s.fuse ∧ t.Arisen (Ev.writeRefused 0x14) 0)
    ∧ Leads s (.provLock key) fun t => t.fuse = s.fuse ∧ t.Arisen (Ev.writeRefused 0x14) 0 :=
  ⟨⟨_, congrArg Host.Outcome.next (secProv_refused h), rfl, arisen_raise ..⟩,
    ⟨_, congrArg Host.Outcome.next (secProv_refused h), rfl, arisen_raise ..⟩,
    ⟨_, congrArg Host.Outcome.next (secProv_refused (s := s.drew) h), rfl, arisen_raise ..⟩⟩

section keyed

/-- GENERATE, PROGRAM and LOCK under the key, in a device that is not secured. -/
theorem provOpen (hs : s.fuse.secured = false) : ¬((0x5EC0#16).toNat ≠ 0x5EC0 ∨ s.fuse.secured = true) := by simp [hs]

theorem secProv_generate (rb : Bool) (hs : s.fuse.secured = false) (hk : s.fuse.idKey = none) (hd : s.fuse.dead = false)
    (hr : s.flag F.SEC_STATUS_RNG_FAIL = false) : s.secProv 1 0 (0x5EC0#16).toNat rb =
      if rb then (s.drew.setFuse { s.fuse with idKey := some (s.fresh 256) }).putF F.SEC_PROV_RESULT_RESULT 1
      else (s.drew.setFuse { s.fuse with genFails := s.fuse.genFails + 1 }).putF F.SEC_PROV_RESULT_RESULT 2 :=
  (((if_neg (provOpen hs)).trans (if_pos rfl)).trans (if_neg (by simp [hk, hd]))).trans (if_neg (by simp [hr]))

theorem secProv_program (k : Fin 4) (rb : Bool) (hs : s.fuse.secured = false) (hk : s.fuse.roots[k] = none) (hd : s.fuse.dead = false) :
    s.secProv 2 k (0x5EC0#16).toNat rb =
      if rb then (s.setFuse { s.fuse with roots := s.fuse.roots.set k (some s.provData) }).putF F.SEC_PROV_RESULT_RESULT 1
      else s.putF F.SEC_PROV_RESULT_RESULT 2 :=
  (((if_neg (provOpen hs)).trans (if_neg (by decide))).trans (if_pos rfl)).trans (if_neg (by simpa [hd] using hk))

theorem secProv_lock (rb : Bool) (hs : s.fuse.secured = false) (hv : s.fuse.validMask ≠ 0) (hd : s.fuse.dead = false) :
    s.secProv 3 0 (0x5EC0#16).toNat rb =
      if rb then (s.setFuse { s.fuse with secured := true }).putF F.SEC_PROV_RESULT_RESULT 1 else s.putF F.SEC_PROV_RESULT_RESULT 2 :=
  ((((if_neg (provOpen hs)).trans (if_neg (by decide))).trans (if_neg (by decide))).trans (if_pos rfl)).trans
    (if_neg (by simp [hv, hd]))

theorem generate_leads (hs : s.fuse.secured = false) (hk : s.fuse.idKey = none) (hd : s.fuse.dead = false)
    (hr : s.flag F.SEC_STATUS_RNG_FAIL = false) :
    (Leads s (.provGenerate 0x5EC0#16 true) fun t => t.fuse.idKey.isSome = true ∧ t.fuse.roots = s.fuse.roots
      ∧ t.getF F.SEC_PROV_RESULT_RESULT = 1 ∧ t.getF F.SEC_STATUS_LIFECYCLE = 1)
    ∧ Leads s (.provGenerate 0x5EC0#16 false) fun t => t.fuse = { s.fuse with genFails := s.fuse.genFails + 1 }
      ∧ t.getF F.SEC_PROV_RESULT_RESULT = 2 := by
  constructor
  · refine ⟨_, congrArg Host.Outcome.next ((secProv_generate true hs hk hd hr).trans (if_pos rfl)), ?_⟩
    obtain ⟨hf, hres, hl⟩ := provBurnt s.drew { s.fuse with idKey := some (s.fresh 256) } (r := 1) (by decide)
    exact ⟨congrArg (fun f => f.idKey.isSome) hf, (congrArg Fuses.roots hf :), hres, hl.trans (by simp [Fuses.lifecycle, hs])⟩
  · refine ⟨_, congrArg Host.Outcome.next ((secProv_generate false hs hk hd hr).trans (if_neg (by decide))), ?_⟩
    obtain ⟨hf, hres, -⟩ := provBurnt s.drew { s.fuse with genFails := s.fuse.genFails + 1 } (r := 2) (by decide)
    exact ⟨hf, hres⟩

theorem program_leads (k : Fin 4) (hs : s.fuse.secured = false) (hk : s.fuse.roots[k] = none) (hd : s.fuse.dead = false) :
    (Leads s (.provProgram 0x5EC0#16 k true) fun t => t.fuse = { s.fuse with roots := s.fuse.roots.set k (some s.provData) }
      ∧ t.getF F.SEC_PROV_RESULT_RESULT = 1)
    ∧ Leads s (.provProgram 0x5EC0#16 k false) fun t => t.fuse = s.fuse ∧ t.getF F.SEC_PROV_RESULT_RESULT = 2 := by
  constructor
  · refine ⟨_, congrArg Host.Outcome.next ((secProv_program k true hs hk hd).trans (if_pos rfl)), ?_⟩
    obtain ⟨hf, hres, -⟩ := provBurnt s { s.fuse with roots := s.fuse.roots.set k (some s.provData) } (r := 1) (by decide)
    exact ⟨hf, hres⟩
  · refine ⟨_, congrArg Host.Outcome.next ((secProv_program k false hs hk hd).trans (if_neg (by decide))), ?_⟩
    obtain ⟨hf, hres, -⟩ := provResult s (r := 2) (by decide)
    exact ⟨hf, hres⟩

theorem lock_leads (hs : s.fuse.secured = false) (hv : s.fuse.validMask ≠ 0) (hd : s.fuse.dead = false) :
    Leads s (.provLock 0x5EC0#16) fun t =>
      t.fuse = (if (s.fresh 1).getLsbD 0 = true then { s.fuse with secured := true } else s.fuse)
      ∧ t.getF F.SEC_PROV_RESULT_RESULT = (if (s.fresh 1).getLsbD 0 = true then 1 else 2)
      ∧ ((s.fresh 1).getLsbD 0 = true → t.getF F.SEC_STATUS_LIFECYCLE = 2) := by
  refine ⟨_, congrArg Host.Outcome.next (secProv_lock (s := s.drew) ((s.fresh 1).getLsbD 0) hs hv hd), ?_⟩
  cases (s.fresh 1).getLsbD 0 with
  | false =>
    obtain ⟨hf, hres, -⟩ := provResult s.drew (r := 2) (by decide)
    exact ⟨hf, hres, fun e => by cases e⟩
  | true =>
    obtain ⟨hf, hres, hl⟩ := provBurnt s.drew { s.fuse with secured := true } (r := 1) (by decide)
    exact ⟨hf, hres, fun _ => hl⟩

end keyed

/-! ### Revocation (R390) -/

theorem revoke_leads (w : Word) (k : Fin 4) (hw : bits w 16 16 = 0x5EC0) (hk : s.fuse.roots[k].isSome = true)
    (hr : (s.fuse.revoked ||| w.extractLsb' 0 4).getLsbD k = false) :
    Leads s (.rootRevoke w) fun t => t.fuse = { s.fuse with revoked := s.fuse.revoked ||| w.extractLsb' 0 4 } := by
  have hany : ((List.finRange 4).any fun k => s.fuse.roots[k].isSome && !(s.fuse.revoked ||| w.extractLsb' 0 4).getLsbD k) = true :=
    List.any_eq_true.2 ⟨k, List.mem_finRange k, by rw [hk, hr]; rfl⟩
  exact ⟨_, congrArg Host.Outcome.next ((if_neg (by simp [hw])).trans (if_pos hany)), setFuse_fuse ..⟩

/-! ### Challenges (R399) -/

theorem randomWords_frame (s : State) (n : Nat) : (s.randomWords n).1 = { s with freeCtr := s.freeCtr + n } := by
  unfold State.randomWords
  induction n with
  | zero => rfl
  | succ n ih =>
    rw [List.range_succ, List.foldl_append]
    simp only [List.foldl_cons, List.foldl_nil]
    rw [State.drew, ih]
    rfl

theorem newChal_leads (h : s.rngFail = false) : Leads s .newChal fun t => t.sec.chal = true ∧ t.freeCtr = s.freeCtr + 8 := by
  refine ⟨_, congrArg Host.Outcome.next (if_neg (by simp [h])), ?_⟩
  dsimp only
  obtain ⟨r, hr⟩ := forEach_putR_frame (s.randomWords 8).1 8 R.SEC_DBG_CHAL fun i => (s.randomWords 8).2.getD i 0#32
  rw [hr, randomWords_frame]
  exact ⟨rfl, rfl⟩

/-! ### The unlock of the debug port (R399) -/

/-- An UNLOCK consumes the challenge and shows its result. -/
def State.chalUsed (s : State) : State :=
  ({ s with sec := { s.sec with chal := false } }.forEach 8 fun a i => a.putR (R.SEC_DBG_CHAL i) 0#32).putF F.SEC_DBG_RESULT s.unlockResult.1

/-- A failure is counted, the third one locks the port. -/
def State.unlockFailed (s : State) : State :=
  (s.putF F.SEC_STATUS_UNLOCK_FAILS (s.getF F.SEC_STATUS_UNLOCK_FAILS + 1)).putB F.SEC_STATUS_LOCKOUT
    (Nat.ble 3 (s.getF F.SEC_STATUS_UNLOCK_FAILS + 1))

/-- A success opens the port and moves the monotonic counter on. -/
def State.unlockOpened (s : State) : State := (s.monoSet 2 (s.monoLive 2 + 1)).putF F.SEC_STATUS_DEBUG_UNLOCKED 1

theorem unlock_eq (s : State) : s.unlock = if s.unlockResult.1 = 1 then
      s.chalUsed.unlockOpened.raise Ev.SEC_DEBUG_UNLOCKED 0 (BitVec.ofNat 32 s.unlockResult.2) (BitVec.ofNat 32 (s.unlockResult.2 / 0x100000000))
    else if s.flag F.SEC_STATUS_LOCKOUT = true then s.chalUsed else s.chalUsed.unlockFailed := rfl

theorem unlockResult_le (s : State) : s.unlockResult.1 < 2 ^ 3 := by
  unfold State.unlockResult
  split
  · decide
  · split
    · decide
    · dsimp only
      split
      · decide
      · split
        · show 1 < 2 ^ 3
          decide
        · decide

theorem chalUsed_frame (s : State) : s.chalUsed.sec.chal = false ∧ s.chalUsed.getF F.SEC_DBG_RESULT = s.unlockResult.1
    ∧ s.chalUsed.getR R.SEC_STATUS = s.getR R.SEC_STATUS := by
  obtain ⟨r, hr⟩ := forEach_putR_frame { s with sec := { s.sec with chal := false } } 8 R.SEC_DBG_CHAL fun _ => 0#32
  refine ⟨?_, ?_, ?_⟩
  · rw [State.chalUsed, hr]
    rfl
  · rw [State.chalUsed, getF_putF_same _ _ _ (by decide)]
    exact Nat.mod_eq_of_lt (unlockResult_le s)
  · refine (getR_putF_ne _ _ _ _ (by decide)).trans ?_
    exact getR_forEach_putR _ 8 R.SEC_DBG_CHAL _ fun i hi => by simp only [R.SEC_DBG_CHAL, R.SEC_STATUS]; omega

theorem unlockFailed_frame (s : State) : s.unlockFailed.sec = s.sec ∧ s.unlockFailed.getF F.SEC_DBG_RESULT = s.getF F.SEC_DBG_RESULT
    ∧ s.unlockFailed.dbgOpen = s.dbgOpen :=
  ⟨rfl, (getF_putF_off _ _ _ _ (by decide)).trans (getF_putF_off _ _ _ _ (by decide)),
    (flag_putF_apart _ (Or.inr (by decide))).trans (flag_putF_apart _ (Or.inr (by decide)))⟩

theorem unlockOpened_frame (s : State) : s.unlockOpened.sec = s.sec ∧ s.unlockOpened.getF F.SEC_DBG_RESULT = s.getF F.SEC_DBG_RESULT
    ∧ s.unlockOpened.dbgOpen = true := by
  refine ⟨?_, ?_, ?_⟩
  · obtain ⟨r, k, n, l, j, h⟩ := journal_stops s (.mono 2 (s.monoLive 2 + 1))
    rw [State.unlockOpened, State.monoSet, h]
    rfl
  · refine (getF_putF_off _ _ _ _ (by decide)).trans ?_
    exact (journal_within s _).getF _ (by decide)
  · exact (flag_putF_same _ _ _ (by decide)).trans (by decide)

/-- With no challenge an UNLOCK fails, and is counted. -/
theorem unlock_noChal (hc : s.sec.chal = false) (hl : s.flag F.SEC_STATUS_LOCKOUT = false) (hp : s.fuse.permLock = false)
    (hn : s.getF F.SEC_STATUS_UNLOCK_FAILS < 3) :
    Leads s .debugUnlock fun t => t.getF F.SEC_DBG_RESULT = 4 ∧ t.dbgOpen = s.dbgOpen
      ∧ t.getF F.SEC_STATUS_UNLOCK_FAILS = s.getF F.SEC_STATUS_UNLOCK_FAILS + 1
      ∧ t.flag F.SEC_STATUS_LOCKOUT = decide (s.getF F.SEC_STATUS_UNLOCK_FAILS = 2) := by
  have hres : s.unlockResult = (4, 0) := (if_neg (by simp [hl, hp])).trans (if_pos (by simp [hc]))
  refine ⟨_, congrArg Host.Outcome.next ((unlock_eq s).trans ((if_neg (by simp [hres])).trans (if_neg (by simp [hl])))), ?_⟩
  obtain ⟨-, hr, hst⟩ := chalUsed_frame s
  obtain ⟨-, hdbg, hopen⟩ := unlockFailed_frame s.chalUsed
  have hfails : s.chalUsed.getF F.SEC_STATUS_UNLOCK_FAILS = s.getF F.SEC_STATUS_UNLOCK_FAILS := getF_congr hst
  refine ⟨hdbg.trans (hr.trans (by rw [hres])), hopen.trans (flag_congr hst), ?_, ?_⟩
  · rw [State.unlockFailed, State.putB, getF_putF_apart _ (Or.inr (by decide)), getF_putF_same _ _ _ (by decide), hfails]
    exact Nat.mod_eq_of_lt (show _ < 2 ^ 2 by omega)
  · rw [State.unlockFailed, flag_putB_same _ _ _ (by decide) (by decide), hfails, Bool.eq_iff_iff, Nat.ble_eq, decide_eq_true_eq]
    omega

theorem unlock_leads (s : State) : Leads s .debugUnlock fun t => t.dbgOpen = (s.dbgOpen || decide (s.unlockResult.1 = 1))
    ∧ t.sec.chal = false ∧ t.getF F.SEC_DBG_RESULT = s.unlockResult.1 ∧ (s.unlockResult.1 = 1 → t.Arisen Ev.SEC_DEBUG_UNLOCKED 0) := by
  obtain ⟨hchal, hr, hst⟩ := chalUsed_frame s
  by_cases h1 : s.unlockResult.1 = 1
  · refine ⟨_, congrArg Host.Outcome.next ((unlock_eq s).trans (if_pos h1)), ?_⟩
    obtain ⟨hsec, hdbg, hopen⟩ := unlockOpened_frame s.chalUsed
    exact ⟨hopen.trans (by simp [h1]), (congrArg Sec.chal hsec).trans hchal, hdbg.trans hr, fun _ => arisen_raise ..⟩
  · have hor : (s.dbgOpen || decide (s.unlockResult.1 = 1)) = s.dbgOpen := by simp [h1]
    by_cases hl : s.flag F.SEC_STATUS_LOCKOUT = true
    · exact ⟨_, congrArg Host.Outcome.next ((unlock_eq s).trans ((if_neg h1).trans (if_pos hl))),
        (flag_congr hst).trans hor.symm, hchal, hr, fun h => absurd h h1⟩
    · obtain ⟨hsec, hdbg, hopen⟩ := unlockFailed_frame s.chalUsed
      exact ⟨_, congrArg Host.Outcome.next ((unlock_eq s).trans ((if_neg h1).trans (if_neg hl))),
        (hopen.trans (flag_congr hst)).trans hor.symm, (congrArg Sec.chal hsec).trans hchal, hdbg.trans hr, fun h => absurd h h1⟩

/-! ### LOCK (R400) -/

/-- A configuration that is marked unsigned is unsigned; threads and SEC_STATUS stay. -/
theorem markUnsigned_frame (s : State) : s.markUnsigned.vin.unsigned = true ∧ (∀ u, s.markUnsigned.thr u = s.thr u)
    ∧ s.markUnsigned.dbgOpen = s.dbgOpen := by
  unfold State.markUnsigned
  dsimp only
  split
  next h => exact ⟨h, fun _ => rfl, rfl⟩
  next =>
    obtain ⟨r, k, n, l, j, h⟩ := journal_stops
      { s with seq := { s.seq with patched := true }, vin := { s.vin with unsigned := true } } (.index s.vin.cur s.vin.prev (s.monoLive 0) true)
    refine ⟨?_, fun u => ?_, (journal_within _ _).flag _ (by decide)⟩
    · exact (congrArg (fun x => x.vin.unsigned) h)
    · exact congrArg (fun x => x.seq.thr[u]) h

theorem resume_st (h : Thread) (hb : h.back ≠ .debugHalted) : h.resume.st ≠ .debugHalted := by
  unfold Thread.resume
  split
  · dsimp only
    split
    · decide
    · exact hb
  next hst => exact hst

theorem debugLock_leads (s : State) : Leads s .debugLock fun t => t.dbgOpen = false
    ∧ (∀ u, (s.thr u).back ≠ .debugHalted → (t.thr u).st ≠ .debugHalted) ∧ (s.seq.patched = true → t.vin.unsigned = true) := by
  have hthr : ∀ u, ((s.putF F.SEC_STATUS_DEBUG_UNLOCKED 0).mapThr fun _ h => h.resume).thr u = (s.thr u).resume := fun u => by
    simp [State.mapThr, State.thr, State.putF, State.putR]
  have hopen : ((s.putF F.SEC_STATUS_DEBUG_UNLOCKED 0).mapThr fun _ h => h.resume).dbgOpen = false :=
    flag_putF_same s F.SEC_STATUS_DEBUG_UNLOCKED 0 (by decide)
  by_cases hp : s.seq.patched = true
  · obtain ⟨hun, hm, ho⟩ := markUnsigned_frame ((s.putF F.SEC_STATUS_DEBUG_UNLOCKED 0).mapThr fun _ h => h.resume)
    refine ⟨_, congrArg Host.Outcome.next (if_pos hp), ho.trans hopen, fun u hb => ?_, fun _ => hun⟩
    rw [hm, hthr]
    exact resume_st _ hb
  · refine ⟨_, congrArg Host.Outcome.next (if_neg hp), hopen, fun u hb => ?_, fun h => absurd h hp⟩
    rw [hthr]
    exact resume_st _ hb

/-! ### A random source that fails (R387) -/

theorem rngHealthFail_leads (h : s.rngFail = false) : Leads s .rngHealthFail fun t => t.rngFail = true ∧ t.Arisen Ev.SEC_RNG_FAIL 0 :=
  ⟨_, congrArg Host.Outcome.next (if_neg (by simp [h])), (flag_putF_same s F.SEC_STATUS_RNG_FAIL 1 (by decide)).trans (by decide),
    arisen_raise ..⟩

/-- Settles O54, command by command. -/
theorem fusesAndDebugPortObeyTheirKeys : Obligations.FusesAndDebugPortObeyTheirKeys := by
  intro s
  refine ⟨fun key k rb h => prov_refused h, fun hs => ⟨generate_leads hs, fun k => program_leads k hs, lock_leads hs⟩, revoke_leads,
    fun w hw => ⟨s, congrArg Host.Outcome.next (if_pos hw), rfl⟩, newChal_leads,
    fun h => ⟨s, congrArg Host.Outcome.next (if_pos h), rfl⟩, unlock_noChal, unlock_leads s, debugLock_leads s, rngHealthFail_leads⟩

end Sys2Proof.Machine

end

/-! ## Accesses to the sequencer: host memory, mailboxes and debug (R58 to R60, R66, R67, R71) -/

section

namespace Sys2Proof.Machine

variable {s : State}

/-! ### Host accesses to program and data memory -/

/-- A host access that fits in the tick is served, and leaves no access behind it. -/
theorem serveMem_one {h : HostAcc} (hn : s.seq.served + dwordCount h.addrs ≤ 400) :
    serveMem [h] s = { s.serveAcc h with seq := { (s.serveAcc h).seq with waiting := [] } } := if_pos (by omega)

theorem hostMem_served {h : HostAcc} (hr : s.reserved = true) (hw : s.seq.waiting = [])
    (hn : s.seq.served + dwordCount h.addrs ≤ 400) :
    s.hostMem h = { s.serveAcc h with seq := { (s.serveAcc h).seq with waiting := [] } } := by
  have e : s.hostMem h = serveMem (s.seq.waiting ++ [h]) s := if_pos hr
  rw [e, hw]
  exact serveMem_one hn

/-- What an access reads goes to the host, and its dwords are counted. -/
def State.accRead (s : State) (h : HostAcc) : State :=
  { s with
    host := { s.host with readData := s.host.readData ++ h.read.map (rdByte (if h.prog then s.mem.pmem else s.mem.dmem)) }
    seq := { s.seq with served := s.seq.served + dwordCount h.addrs } }

/-- The bytes of a write to data memory land there, none where it writes none. -/
theorem serveAcc_data {h : HostAcc} (hp : h.prog = false) :
    s.serveAcc h = { s.accRead h with mem := { s.mem with dmem := putBytes s.mem.dmem h.write } } := by
  by_cases hw : h.write = []
  · rw [hw]
    exact if_pos hw
  · exact (if_neg hw).trans (if_neg (by simp [hp]))

theorem serveAcc_prog {h : HostAcc} (hp : h.prog = true) (hw : h.write ≠ []) :
    s.serveAcc h = { s.accRead h with mem := { s.mem with pmem := putBytes s.mem.pmem h.write } }.markUnsigned :=
  (if_neg hw).trans (if_pos hp)

theorem markUnsigned_mem (s : State) : s.markUnsigned.mem = s.mem := by
  unfold State.markUnsigned
  dsimp only
  split
  · rfl
  · obtain ⟨r, k, n, l, j, h⟩ := journal_stops
      { s with seq := { s.seq with patched := true }, vin := { s.vin with unsigned := true } } (.index s.vin.cur s.vin.prev (s.monoLive 0) true)
    exact congrArg (fun x => x.mem) h

theorem addrs_write (l : List (Nat × Byte)) (p : Bool) : HostAcc.addrs { prog := p, write := l } = l.map Prod.fst := List.append_nil _

theorem bytesAt_ne_nil {a : Nat} {data : List Byte} (h : data ≠ []) : bytesAt a data ≠ [] := by
  cases data with
  | nil => exact absurd rfl h
  | cons b l => simp [bytesAt]

theorem pmemHostWrite_lands {addr : Nat} {data : List Byte} (ho : s.dbgOpen = true) (hr : s.reserved = true) (hw : s.seq.waiting = [])
    (hd : data ≠ []) (hn : s.seq.served + dwordCount ((bytesAt (addr % 0x40000) data).map Prod.fst) ≤ 400) :
    Leads s (.pmemHostWrite addr data) fun x =>
      x.mem = { s.mem with pmem := putBytes s.mem.pmem (bytesAt (addr % 0x40000) data) } ∧ x.vin.unsigned = true := by
  rw [← addrs_write _ true] at hn
  have hexec : exec (.pmemHostWrite addr data) s = _ := congrArg Host.Outcome.next ((if_pos ho).trans (hostMem_served hr hw hn))
  rw [serveAcc_prog rfl (bytesAt_ne_nil hd)] at hexec
  exact ⟨_, hexec, markUnsigned_mem _, (markUnsigned_frame _).1⟩

theorem dmemHostWrite_lands {addr : Nat} {data : List Byte}
    (hin : ∀ x ∈ bytesAt (addr % 0x20000) data, inWin (s.getR R.SEQ_HOST_WIN) x.1 = true) (hr : s.reserved = true)
    (hw : s.seq.waiting = []) (hn : s.seq.served + dwordCount ((bytesAt (addr % 0x20000) data).map Prod.fst) ≤ 400) :
    Leads s (.dmemHostWrite addr data) fun x =>
      x.mem = { s.mem with dmem := putBytes s.mem.dmem (bytesAt (addr % 0x20000) data) } := by
  rw [← addrs_write _ false] at hn
  have hexec : exec (.dmemHostWrite addr data) s = _ :=
    congrArg Host.Outcome.next ((if_pos (List.all_eq_true.2 hin)).trans (hostMem_served hr hw hn))
  rw [serveAcc_data rfl] at hexec
  exact ⟨_, hexec, rfl⟩

theorem dmemHostWrite_refused {addr : Nat} {data : List Byte} {y : Nat × Byte} (hy : y ∈ bytesAt (addr % 0x20000) data)
    (hin : inWin (s.getR R.SEQ_HOST_WIN) y.1 = false) :
    Leads s (.dmemHostWrite addr data) fun x => x.mem = s.mem ∧ x.Arisen (Ev.writeRefused 2) 0 := by
  have hall : ¬((bytesAt (addr % 0x20000) data).all fun x => inWin (s.getR R.SEQ_HOST_WIN) x.1) = true := fun h => by
    rw [List.all_eq_true.1 h y hy] at hin
    cases hin
  exact ⟨_, congrArg Host.Outcome.next (if_neg hall), rfl, arisen_raise ..⟩

theorem hostMemAccess_serves {h : HostAcc} (hr : s.reserved = true) (hw : s.seq.waiting = [h]) (hp : h.prog = false)
    (hn : s.seq.served + dwordCount h.addrs ≤ 400) :
    Leads s .hostMemAccess fun x => x.seq.waiting = [] ∧ x.mem = { s.mem with dmem := putBytes s.mem.dmem h.write }
      ∧ x.host.readData = s.host.readData ++ h.read.map (rdByte s.mem.dmem) ∧ x.seq.served = s.seq.served + dwordCount h.addrs := by
  have hexec : exec .hostMemAccess s = .next (serveMem [h] s) := congrArg Host.Outcome.next ((if_pos hr).trans (by rw [hw]))
  rw [serveMem_one hn, serveAcc_data hp] at hexec
  refine ⟨_, hexec, rfl, rfl, ?_, rfl⟩
  simp [State.accRead, hp]

/-! ### Mailboxes -/

/-- A flag that was clear stays so under a write of 1 to another bit of its register. -/
theorem flag_clearF_of_false {f g : Fld} (hw : g.w = 1) (hoff : f.off = g.off) (h : s.flag g = false) : (s.clearF f).flag g = false := by
  rw [flag_eq_getLsbD _ _ hw] at h ⊢
  have hr : (s.clearF f).getR f.off = s.getR f.off &&& ~~~(ones f.lo f.w &&& s.startR f.off) := getR_putR_same ..
  rw [← hoff, hr, BitVec.getLsbD_and, hoff, h, Bool.false_and]

/-- A write of 1 leaves what was there when the cycle began equal to what is there now, where it was so before. -/
theorem startR_clearF {f : Fld} (h : s.startR f.off = s.getR f.off) : (s.clearF f).startR f.off = (s.clearF f).getR f.off := by
  have hr : (s.clearF f).getR f.off = s.getR f.off &&& ~~~(ones f.lo f.w &&& s.startR f.off) := getR_putR_same ..
  have hst : (s.clearF f).startR f.off = s.startR f.off &&& ~~~(ones f.lo f.w) := SMap.get_set_same ..
  rw [hr, hst, h]
  ext i hi
  simp only [BitVec.getElem_and, BitVec.getElem_not]
  cases (s.getR f.off)[i] <;> simp

theorem mboRelease_clears {m : Fin 8} (p : Port) {w : Word} (h0 : w.getLsbD 0 = true) (h1 : w.getLsbD 1 = true)
    (hs : s.startR (R.SEQ_MBO_STATUS m) = s.getR (R.SEQ_MBO_STATUS m)) :
    Leads s (.mboRelease p m w) fun x => x.flag (F.SEQ_MBO_STATUS_FULL m) = false ∧ x.flag (F.SEQ_MBO_STATUS_OVR m) = false := by
  have hexec : exec (.mboRelease p m w) s = .next ((s.clearF (F.SEQ_MBO_STATUS_FULL m)).clearF (F.SEQ_MBO_STATUS_OVR m)) := by
    change execMboRelease p m w s = _
    rw [execMboRelease, if_pos h0, if_pos h1]
  have hfull : (s.clearF (F.SEQ_MBO_STATUS_FULL m)).flag (F.SEQ_MBO_STATUS_FULL m) = false :=
    flag_clearF_same _ _ (by simp [F.SEQ_MBO_STATUS_FULL]) hs
  exact ⟨_, hexec, flag_clearF_of_false rfl rfl hfull,
    flag_clearF_same _ _ (by simp [F.SEQ_MBO_STATUS_OVR]) (startR_clearF (f := F.SEQ_MBO_STATUS_FULL m) hs)⟩

theorem signal_getR (s : State) (v o : Nat) : (s.signal v).getR o = s.getR o := by
  obtain ⟨h, e⟩ := signal_frame s v
  rw [e]
  rfl

theorem Arisen.signal {id : EvId} {i : Nat} (v : Nat) (h : s.Arisen id i) : (s.signal v).Arisen id i := by
  obtain ⟨x, e⟩ := signal_frame s v
  rw [e]
  exact h

theorem mboPost_full {m : Fin 8} (p : Port) {w : Word} (hw : bits w 0 5 ≤ 16) (hf : s.flag (F.SEQ_MBO_STATUS_FULL m) = false) :
    Leads s (.seqMboPost p m w) fun x => x.flag (F.SEQ_MBO_STATUS_FULL m) = true ∧ x.getF (F.SEQ_MBO_STATUS_COUNT m) = bits w 0 5
      ∧ x.Arisen Ev.SEQ_MBOX_POSTED m := by
  refine ⟨_, congrArg Host.Outcome.next (if_neg (by simp [hf])), ?_, ?_, Arisen.signal _ (arisen_raise ..)⟩
  · rw [flag_congr (signal_getR _ _ _), State.raise_flag]
    exact flag_latchF_same _ _ (by simp [F.SEQ_MBO_STATUS_FULL]) (by simp [F.SEQ_MBO_STATUS_FULL])
  · rw [getF_congr (signal_getR _ _ _), State.raise_getF, getF_latchF_disjoint _ _ _ (by simp [F.SEQ_MBO_STATUS_COUNT])
      (Or.inr (by simp [F.SEQ_MBO_STATUS_COUNT, F.SEQ_MBO_STATUS_FULL])), getF_putF_same _ _ _ (by simp [F.SEQ_MBO_STATUS_COUNT])]
    exact Nat.mod_eq_of_lt (show _ < 2 ^ 5 by omega)

theorem mboPost_over {m : Fin 8} (p : Port) {w : Word} (hf : s.flag (F.SEQ_MBO_STATUS_FULL m) = true) :
    Leads s (.seqMboPost p m w) fun x => x.flag (F.SEQ_MBO_STATUS_OVR m) = true ∧ ∀ o, o ≠ R.SEQ_MBO_STATUS m → x.getR o = s.getR o :=
  ⟨_, congrArg Host.Outcome.next (if_pos hf),
    flag_latchF_same _ _ (by simp [F.SEQ_MBO_STATUS_OVR]) (by simp [F.SEQ_MBO_STATUS_OVR]), fun _ ho => getR_latchF_ne _ _ ho⟩

/-! ### Debug -/

/-- While debug is unlocked, a debug command acts on its thread. -/
theorem dbgWrite_thr (t : Fin 16) (f : Thread → Thread) (ho : s.dbgOpen = true) : (s.dbgWrite t f).thr t = f (s.thr t) := by
  rw [State.dbgWrite, if_pos ho]
  exact thr_setThr_same ..

theorem dbg_acts (t : Fin 16) (ho : s.dbgOpen = true) :
    ((s.thr t).st = .eligible ∨ (s.thr t).st = .waiting →
      Leads s (.dbgHalt t) fun x => (x.thr t).st = .debugHalted ∧ (x.thr t).back = (s.thr t).st)
    ∧ ((s.thr t).st = .debugHalted → (Leads s (.dbgStep t) fun x => (x.thr t).step = true ∧ (x.thr t).st = .debugHalted)
      ∧ ((s.thr t).susp = false → Leads s (.dbgResume t) fun x => (x.thr t).st = (s.thr t).back)) := by
  refine ⟨fun h => ⟨_, rfl, ?_⟩, fun h => ⟨⟨_, rfl, ?_⟩, fun hs => ⟨_, rfl, ?_⟩⟩⟩ <;> beta_reduce <;> rw [dbgWrite_thr t _ ho]
  · obtain e | e := h <;> simp [e, Thread.run]
  · simp [h]
  · simp [Thread.resume, h, hs]

/-- Settles O34, access by access. -/
theorem sequencerAccessesAct : Obligations.SequencerAccessesAct := by
  intro s t m addr data
  refine ⟨pmemHostWrite_lands, fun ho => ?_, dmemHostWrite_lands, fun y hy => dmemHostWrite_refused hy, fun h => hostMemAccess_serves,
    fun p w h0 hs => ?_, fun p w _ h16 hf => mboPost_full p h16 hf, fun p w _ _ hf => mboPost_over p hf,
    fun p w h0 h1 hs => mboRelease_clears p h0 h1 hs, dbg_acts t⟩
  · exact ⟨_, congrArg Host.Outcome.next (if_neg (by simp [ho])), rfl, arisen_raise ..⟩
  · exact ⟨_, congrArg Host.Outcome.next (if_pos h0), flag_clearF_same _ _ (by simp [F.SEQ_MBI_STATUS_FULL]) hs⟩

end Sys2Proof.Machine

end

/-! ## Doorbells, vectors and ring registers (R106, R107, R109, R110, R123, R124) -/

section

namespace Sys2Proof.Machine

variable {s : State}

/-! ### Doorbells -/

theorem readEntries_rackSteps {t : State} (h : s.RackSteps t) (q : Fin 2) (i n : Nat) : s.RackSteps (t.readEntries q i n) := by
  unfold State.readEntries
  split
  · exact h
  · exact transfer_rackSteps h _ _ _ _ _

/-- The entries that a doorbell publishes are asked for by transfers of channel 0. -/
theorem fetchEntries_rackSteps (s : State) (q : Fin 2) : s.RackSteps (s.fetchEntries q) := by
  unfold State.fetchEntries
  dsimp only
  split
  · exact readEntries_rackSteps (.refl s) ..
  · exact readEntries_rackSteps (readEntries_rackSteps (.refl s) ..) ..

theorem sqDoorbell_publishes {q : Fin 2} {w : Word} {i : Nat} (h : s.doorbell q w = some i) :
    Leads s (.sqDoorbell q w) fun t => t.host.sqTail = s.host.sqTail.set q i := by
  have hexec : exec (.sqDoorbell q w) s = .next (({ s with host := { s.host with sqTail := s.host.sqTail.set q i } } : State).fetchEntries q) := by
    change execSqDoorbell q w s = _
    rw [execSqDoorbell, h]
  exact ⟨_, hexec, (fetchEntries_rackSteps _ q).sqTail⟩

theorem cqDoorbell_releases {w : Word} {i k : Nat} (h : s.doorbell 2 w = some i) (hk : s.released 2 s.host.cq.length i = some k) :
    Leads s (.cqDoorbell w) fun t => t.host.cq = s.host.cq.drop k ∧ t.host.cqFree = s.host.cqFree + k := by
  have hexec : exec (.cqDoorbell w) s =
      .next ({ s with host := { s.host with cq := s.host.cq.drop k, cqFree := s.host.cqFree + k } } : State).stallFollow := by
    change execCqDoorbell w s = _
    rw [execCqDoorbell, h, Option.bind_some, hk]
  exact ⟨_, hexec, rfl, rfl⟩

theorem evrDoorbell_releases {w : Word} {i k : Nat} (h : s.doorbell 3 w = some i) (hk : s.released 3 s.host.evr.length i = some k) :
    Leads s (.evrDoorbell w) fun t => t = { s with host := { s.host with evr := s.host.evr.drop k } } := by
  refine ⟨_, ?_, rfl⟩
  change execEvrDoorbell w s = _
  rw [execEvrDoorbell, h, Option.bind_some, hk]

theorem sqDoorbell_dropped {q : Fin 2} {w : Word} (h : s.doorbell q w = none) :
    Leads s (.sqDoorbell q w) fun t => t = s.incR R.HIF_DB_DROP 1 := by
  refine ⟨_, ?_, rfl⟩
  change execSqDoorbell q w s = _
  rw [execSqDoorbell, h]
  rfl

/-! ### MSI-X vectors -/

theorem getLsbD_vector (v w : Fin 64) : (BitVec.ofNat 64 (2 ^ v.val)).getLsbD w = decide (v = w) := by
  rw [BitVec.getLsbD_ofNat, Nat.testBit_two_pow, decide_eq_true w.isLt, Bool.true_and]
  exact decide_eq_decide.2 Fin.ext_iff.symm

/-- A vector that is not masked sends its message. -/
theorem signal_unmasked {v : Fin 64} (h : s.host.msixMask.getLsbD v = false) :
    s.signal v = { s with host := { s.host with
      msixSent := s.host.msixSent.setIfInBounds v (s.host.msixSent.toList.getD v 0 + 1) } } := if_neg (by rw [h]; decide)

theorem msixUnmask_sends {v : Fin 64} (h : s.host.msixPend.getLsbD v = true) :
    Leads s (.msixUnmask v false) fun t => t.host.msixSent[v] = s.host.msixSent[v] + 1 ∧ t.host.msixPend.getLsbD v = false
      ∧ t.host.msixMask.getLsbD v = false := by
  have hbit : ∀ m : BitVec 64, (m &&& ~~~BitVec.ofNat 64 (2 ^ v.val)).getLsbD v = false := fun m => by
    rw [BitVec.getLsbD_and, BitVec.getLsbD_not, getLsbD_vector]
    simp
  refine ⟨_, congrArg Host.Outcome.next ((if_neg (by decide)).trans (if_pos h)), ?_⟩
  rw [signal_unmasked (hbit _)]
  refine ⟨?_, hbit _, hbit _⟩
  simp

theorem msixUnmask_masks (v : Fin 64) :
    Leads s (.msixUnmask v true) fun t => t.host.msixMask.getLsbD v = true ∧ t.host.msixPend = s.host.msixPend := by
  refine ⟨_, congrArg Host.Outcome.next (if_pos rfl), ?_, rfl⟩
  change (s.host.msixMask ||| BitVec.ofNat 64 (2 ^ v.val)).getLsbD v = true
  rw [BitVec.getLsbD_or, getLsbD_vector]
  simp

/-! ### Coalescing -/

/-- A message changes none of the rings' counts. -/
theorem signal_counts (s : State) (v : Nat) : (s.signal v).host.evrUnsig = s.host.evrUnsig ∧ (s.signal v).host.evr = s.host.evr
    ∧ (s.signal v).host.cqUnsig = s.host.cqUnsig ∧ (s.signal v).host.cq = s.host.cq := by
  unfold State.signal
  split <;> exact ⟨rfl, rfl, rfl, rfl⟩

theorem coalTimeout_evr (ht : s.getF F.HIF_COAL_TICKS ≠ 0) (hn : s.host.evrUnsig ≠ 0)
    (hd : s.host.evrOldest + s.getF F.HIF_COAL_TICKS ≤ s.tick) :
    Leads s (.coalTimeout true) fun t => t.host.evrUnsig = 0 ∧ t.host.evr = s.host.evr := by
  obtain ⟨h1, h2, -, -⟩ := signal_counts { s with host := { s.host with evrUnsig := 0 } } 2
  exact ⟨_, congrArg Host.Outcome.next ((if_pos ⟨ht, hn, hd⟩).trans (if_pos rfl)), h1, h2⟩

theorem coalTimeout_cq (ht : s.getF F.HIF_COAL_TICKS ≠ 0) (hn : s.host.cqUnsig ≠ 0)
    (hd : s.host.cqOldest + s.getF F.HIF_COAL_TICKS ≤ s.tick) :
    Leads s (.coalTimeout false) fun t => t.host.cqUnsig = 0 ∧ t.host.cq = s.host.cq := by
  obtain ⟨-, -, h1, h2⟩ := signal_counts { s with host := { s.host with cqUnsig := 0 } } 0
  exact ⟨_, congrArg Host.Outcome.next ((if_pos ⟨ht, hn, hd⟩).trans (if_neg (by decide))), h1, h2⟩

/-! ### Ring registers -/

theorem viaPort_host (s : State) (off : Nat) (f : State → State) : s.viaPort .host off f = f s := if_neg (by simp [State.portDenied])

theorem exec_ringBase (r : Fin 4) (high : Bool) (w : Word) (s : State) :
    exec (.ringBaseWrite .host r high w) s = .next (s.ringBase r high w) := congrArg Host.Outcome.next (viaPort_host ..)

theorem exec_ringSize (r : Fin 4) (w : Word) (s : State) : exec (.ringSizeWrite .host r w) s = .next (s.ringSize r w) :=
  congrArg Host.Outcome.next (viaPort_host ..)

/-- A ring that is disabled takes its base, the low word with the high one (R7), and its size. -/
theorem ring_disabled (r : Fin 4) (w : Word) (h : s.ringOn r = false) :
    (bits w 0 12 = 0 → Leads s (.ringBaseWrite .host r false w) fun t => t.regs = s.regs
      ∧ SMap.get resetWord t.low (R.HIF_RING_BASE_LO r) = w)
    ∧ (Leads s (.ringBaseWrite .host r true w) fun t => t.getR (R.HIF_RING_BASE_HI r) = w
      ∧ t.getR (R.HIF_RING_BASE_LO r) = SMap.get resetWord s.low (R.HIF_RING_BASE_LO r))
    ∧ (4 ≤ bits w 0 4 → bits w 0 4 ≤ 12 → Leads s (.ringSizeWrite .host r w) fun t => t.getF (F.HIF_RING_SIZE r) = bits w 0 4) := by
  have hoff : ¬s.ringOn r = true := by simp [h]
  refine ⟨fun hal => ?_, ?_, fun h4 h12 => ?_⟩
  · have hbase : s.ringBase r false w = s.pairLow (R.HIF_RING_BASE_LO r) w :=
      (if_neg hoff).trans ((if_neg (by decide)).trans (if_neg (by simp [hal])))
    exact ⟨_, (exec_ringBase ..).trans (congrArg _ hbase), rfl, SMap.get_set_same ..⟩
  · have hbase : s.ringBase r true w = s.pairHigh (R.HIF_RING_BASE_LO r) w := (if_neg hoff).trans (if_pos rfl)
    have hhi : R.HIF_RING_BASE_HI r = R.HIF_RING_BASE_LO r + 4 := by simp only [R.HIF_RING_BASE_HI, R.HIF_RING_BASE_LO]; omega
    refine ⟨_, (exec_ringBase ..).trans (congrArg _ hbase), ?_, ?_⟩
    · rw [hhi]
      exact getR_putR_same ..
    · exact (getR_putR_ne _ _ (by omega)).trans (getR_putR_same ..)
  · have hsize : ∃ x, s.ringSize r w = { s.putF (F.HIF_RING_SIZE r) (bits w 0 4) with host := x } := by
      have hin : ¬(s.ringOn r = true ∨ bits w 0 4 < 4 ∨ 12 < bits w 0 4) := by
        rintro (ho | ho | ho)
        · exact hoff ho
        · omega
        · omega
      rw [State.ringSize]
      dsimp only
      rw [if_neg hin]
      split <;> exact ⟨_, rfl⟩
    obtain ⟨x, hx⟩ := hsize
    refine ⟨_, (exec_ringSize ..).trans (congrArg _ hx), (getF_putF_same s (F.HIF_RING_SIZE r) (bits w 0 4) (by simp [F.HIF_RING_SIZE])).trans ?_⟩
    exact Nat.mod_eq_of_lt (bits_lt w 0 4)

/-- A write that the host interface refuses is reported, and changes no register. -/
theorem refuse_hif {off : Nat} (h : off / 65536 = 3) : (s.refuse off).regs = s.regs ∧ (s.refuse off).low = s.low
    ∧ (s.refuse off).Arisen (Ev.writeRefused 3) 0 := by
  rw [State.refuse, h]
  exact ⟨rfl, rfl, arisen_raise ..⟩

theorem ring_enabled (r : Fin 4) (w : Word) (hb : Bool) (h : s.ringOn r = true) :
    (Leads s (.ringBaseWrite .host r hb w) fun t => t.regs = s.regs ∧ t.low = s.low ∧ t.Arisen (Ev.writeRefused 3) 0)
    ∧ (Leads s (.ringSizeWrite .host r w) fun t => t.regs = s.regs ∧ t.Arisen (Ev.writeRefused 3) 0) := by
  constructor
  · refine ⟨_, (exec_ringBase ..).trans (congrArg _ (if_pos h)), refuse_hif ?_⟩
    cases hb <;> simp [R.HIF_RING_BASE_LO] <;> omega
  · obtain ⟨hr, -, ha⟩ := refuse_hif (s := s) (off := R.HIF_RING_SIZE r) (by simp only [R.HIF_RING_SIZE]; omega)
    exact ⟨_, (exec_ringSize ..).trans (congrArg _ (if_pos (Or.inl h))), hr, ha⟩

/-- Settles O35, register by register. -/
theorem doorbellsVectorsAndRings : Obligations.DoorbellsVectorsAndRings := by
  intro s
  exact ⟨fun q w i => sqDoorbell_publishes, fun w i k => cqDoorbell_releases, fun w i k => evrDoorbell_releases,
    fun q w => sqDoorbell_dropped, fun v => msixUnmask_sends, msixUnmask_masks, fun ht => ⟨coalTimeout_evr ht, coalTimeout_cq ht⟩,
    ring_disabled, ring_enabled⟩

end Sys2Proof.Machine

end

/-! ## Commands of the submission queues (R109, R113, R114)

How a command is consumed and how it is answered, in the frame of the Racking engine. -/

section

namespace Sys2Proof.Machine

variable {s t : State}

/-! ### What the Racking engine leaves -/

theorem State.RackSteps.vin (h : s.RackSteps t) : t.vin = s.vin := by
  obtain ⟨⟨r, x, k, e, rfl⟩, -⟩ := h
  rfl

theorem State.RackSteps.stage (h : s.RackSteps t) : t.stage = s.stage := by
  obtain ⟨⟨r, x, k, e, rfl⟩, -⟩ := h
  rfl

theorem State.RackSteps.tsc (h : s.RackSteps t) : t.tsc = s.tsc := by
  obtain ⟨⟨r, x, k, e, rfl⟩, -⟩ := h
  rfl

theorem State.RackSteps.tick (h : s.RackSteps t) : t.tick = s.tick := by rw [State.tick, h.tsc, State.tick]

theorem State.RackSteps.jr (h : s.RackSteps t) : t.jr = s.jr := by
  obtain ⟨⟨r, x, k, e, rfl⟩, -⟩ := h
  rfl

theorem State.RackSteps.nvm (h : s.RackSteps t) : t.nvm = s.nvm := by
  obtain ⟨⟨r, x, k, e, rfl⟩, -⟩ := h
  rfl

theorem State.RackSteps.cel (h : s.RackSteps t) : t.cel = s.cel := by
  obtain ⟨⟨r, x, k, e, rfl⟩, -⟩ := h
  rfl

theorem State.RackSteps.led (h : s.RackSteps t) : t.led = s.led := by
  obtain ⟨⟨r, x, k, e, rfl⟩, -⟩ := h
  rfl

theorem State.RackSteps.flag (h : s.RackSteps t) (f : Fld) (hf : f.off / 65536 ∉ rackBlocks) : t.flag f = s.flag f := h.within.flag f hf

theorem State.RackSteps.devIs (h : s.RackSteps t) (n : Nat) : t.devIs n = s.devIs n := by
  rw [State.devIs, h.getF _ (by decide), State.devIs]

theorem State.RackSteps.monoLive (h : s.RackSteps t) (k : Fin 3) : t.monoLive k = s.monoLive k := by
  rw [State.monoLive, State.uncommitted, h.jr, h.nvm, State.monoLive, State.uncommitted]

/-! ### Completions -/

theorem cqDrain_rackSteps (h : s.RackSteps t) : s.RackSteps t.cqDrain := by
  unfold State.cqDrain
  split
  · exact h.foldl _ fun b _ _ => cqDrainOne_rackSteps (.refl b)
  · exact h

/-- An entry that is given to channel 0 is the last answer. -/
theorem cqPush_frame (s : State) (e : CqEntry) : ∃ x : HostIf, ({ s with host := x } : State).RackSteps (s.cqPush e) ∧ x.rest = s.host.rest
    ∧ x.answers = s.answers ++ [{ e with phase := false }] := by
  refine ⟨{ s.host with cqHeld := s.host.cqHeld ++ [e] }, cqDrain_rackSteps (.refl _), rfl, ?_⟩
  simp [HostIf.answers, State.answers]

/-- The end of a command with a completion: its frame, and the answer (R114). -/
theorem complete_frame (s : State) (q : Fin 2) (cid : BitVec 16) (st : Status) (d : Nat) (a b : Word) : ∃ x : HostIf,
    ({ s with host := x } : State).RackSteps (s.complete q cid st d a b) ∧ x.rest = s.host.rest
      ∧ s.Answered (s.complete q cid st d a b) cid st := by
  obtain ⟨x, h, hx, ha⟩ := cqPush_frame s { cid := cid, sq := q, status := st, detail := d, resA := a, resB := b }
  exact ⟨x, h, hx, _, h.answers.trans ha, rfl, rfl, rfl⟩

/-- What was answered before a completion does not matter to it. -/
theorem State.Answered.of_eq {u : State} {cid : BitVec 16} {st : Status} (h : t.Answered u cid st) (e : t.answers = s.answers) :
    s.Answered u cid st := by
  obtain ⟨x, hx, hr⟩ := h
  exact ⟨x, hx.trans (by rw [e]), hr⟩

/-! ### Consumption -/

theorem hifRing_rack (q : Fin 2) : (F.HIF_RING_PTR_PTR q).off / 65536 ∈ rackBlocks := by
  simp only [F.HIF_RING_PTR_PTR, R.HIF_RING_PTR, rackBlocks, List.mem_cons]
  omega

theorem stallFollow_rackSteps (h : s.RackSteps t) : s.RackSteps t.stallFollow := h.putF (f := F.HIF_STATUS_CQ_STALL) _ (by decide)

/-- A command that is consumed moves the head of its queue on and reserves its entries. -/
theorem consume_rackSteps (s : State) (q : Fin 2) (n : Nat) : s.RackSteps (s.consume q n) :=
  stallFollow_rackSteps (((State.RackSteps.refl s).putF _ (hifRing_rack q)).setHost _)

theorem command_run {q home : Fin 2} {op : BitVec 8} {e : SqEntry} {states : List Nat} {ok : Bool} {a : Word} {run : State → State}
    (hop : e.opcode = op) (hc : s.canConsume q 1 = true) (ha : (s.consume q 1).admitCmd q home states ok = none) :
    s.command q home op e states ok a run = run (s.consume q 1) := by
  rw [State.command, if_neg (by simp [hop]), if_pos hc]
  dsimp only
  rw [ha]

/-- A command of its queue, in a state that admits it, with its fields in order, is run. -/
theorem admitCmd_none {q : Fin 2} {states : List Nat} {n : Nat} (hd : s.devIs n = true) (hn : n ∈ states) :
    s.admitCmd q q states true = none := by
  have hst : s.getF F.DEV_STATE_STATE = n := by simpa [State.devIs] using hd
  rw [State.admitCmd, if_neg (by simp), hst, if_neg (by simpa using hn), if_neg (by decide)]

end Sys2Proof.Machine

end

/-! ## The vintage commands and the ends of their jobs (R32, R33, R36 to R38, R45 to R48) -/

section

namespace Sys2Proof.Machine

variable {s t : State} {e : SqEntry} {k : Fin 8}

/-! ### Results -/

/-- The end of a vintage command: its result, and the answer (R48). -/
theorem vinDone_frame (s : State) (cid : BitVec 16) (res slot : Nat) : ∃ x : HostIf,
    ({ s.putF F.VIN_STATUS_RESULT res with host := x } : State).RackSteps (s.vinDone (some cid) res slot)
      ∧ s.Answered (s.vinDone (some cid) res slot) cid (if res = 0 then .ok else .vintageFail) := by
  obtain ⟨x, h, -, ha⟩ := complete_frame (s.putF F.VIN_STATUS_RESULT res) 1 cid (if res = 0 then .ok else .vintageFail) res
    (BitVec.ofNat 32 slot) (BitVec.ofNat 32 0)
  exact ⟨x, h, ha.of_eq rfl⟩

/-- It leaves the vintages, the staging bank, and the registers but VIN_STATUS and those of the rings. -/
theorem vinDone_keeps (s : State) (cid : BitVec 16) (res slot : Nat) : (s.vinDone (some cid) res slot).vin = s.vin
    ∧ (s.vinDone (some cid) res slot).stage = s.stage
    ∧ ∀ o, o / 65536 ∉ rackBlocks → o ≠ R.VIN_STATUS → (s.vinDone (some cid) res slot).getR o = s.getR o := by
  obtain ⟨x, h, -⟩ := vinDone_frame s cid res slot
  exact ⟨h.vin, h.stage, fun o hb ho => (h.within o hb).trans (getR_putF_ne s F.VIN_STATUS_RESULT res o ho)⟩

theorem vinDone_flag (s : State) (cid : BitVec 16) (res slot : Nat) {f : Fld} (hb : f.off / 65536 ∉ rackBlocks)
    (hf : F.VIN_STATUS_RESULT.Apart f) : (s.vinDone (some cid) res slot).flag f = s.flag f := by
  obtain ⟨x, h, -⟩ := vinDone_frame s cid res slot
  have hp : (s.putF F.VIN_STATUS_RESULT res).flag f = s.flag f := flag_putF_apart res hf
  exact (h.flag f hb).trans hp

/-! ### Consumption -/

/-- A vintage command that the device takes in OPERATIONAL is run. -/
theorem vinCommand_run {op : BitVec 8} {states : List Nat} {ok : Bool} {a : Word} {run : State → State} (hc : s.canConsume 1 1 = true)
    (hd : s.devIs 4 = true) (hop : e.opcode = op) (hst : 4 ∈ states) (hok : ok = true) :
    s.command 1 1 op e states ok a run = run (s.consume 1 1) := by
  subst hok
  exact command_run hop hc (admitCmd_none (((consume_rackSteps s 1 1).devIs 4).trans hd) hst)

theorem consume_vin (s : State) : (s.consume 1 1).vin = s.vin := (consume_rackSteps s 1 1).vin

theorem consume_answers (s : State) : (s.consume 1 1).answers = s.answers := (consume_rackSteps s 1 1).answers

theorem vinBusy_rackSteps (h : s.RackSteps t) : t.vinBusy = s.vinBusy := by
  rw [State.vinBusy, h.vin, h.getF _ (by decide), State.vinBusy]

theorem belowFloor_rackSteps (h : s.RackSteps t) (img : Image) : t.belowFloor img = s.belowFloor img := by
  rw [State.belowFloor, h.monoLive, State.belowFloor]

theorem wholeApply_rackSteps (h : s.RackSteps t) : t.wholeApply = s.wholeApply := by
  rw [State.wholeApply, h.devIs, h.vin, State.wholeApply]

theorem applyRefusal_rackSteps (h : s.RackSteps t) (n : Nat) : t.applyRefusal n = s.applyRefusal n := by
  rw [State.applyRefusal, vinBusy_rackSteps h, h.devIs, h.flag _ (by decide), h.flag _ (by decide), State.dbgOpen, h.flag _ (by decide),
    wholeApply_rackSteps h, State.dramOk, h.flag _ (by decide), h.tick, State.applyRefusal, State.dbgOpen, State.dramOk]

/-! ### Loads (R33) -/

theorem exec_vintageLoad (hc : s.canConsume 1 1 = true) (hd : s.devIs 4 = true) (hop : e.opcode = 0x10#8) (hz : zeroFrom e 4 = true)
    (hk : e.dw[0].toNat = k.val) (h1 : 1 ≤ e.dw[3].toNat) (hm : e.dw[3].toNat ≤ 0x100000) :
    exec (.vintageLoad 1 e) s = .next (if s.vin.cur = some k ∨ s.vin.prev = some k then (s.consume 1 1).vinDone (some e.cid) 3 k
      else ((s.consume 1 1).setVin { s.vin with jobs := s.vin.jobs ++ [.load e.cid k] }).transfer 3
        (e.dw[1].toNat + 0x100000000 * e.dw[2].toNat) e.dw[3].toNat false) := by
  have hok : (zeroFrom e 4 && Nat.blt e.dw[0].toNat 8 && Nat.ble 1 e.dw[3].toNat && Nat.ble e.dw[3].toNat 0x100000) = true := by
    rw [hz, Nat.ble_eq_true_of_le h1, Nat.ble_eq_true_of_le hm, show Nat.blt e.dw[0].toNat 8 = true by rw [Nat.blt_eq]; omega]
    rfl
  have hfin : Fin.ofNat 8 e.dw[0].toNat = k := Fin.ext (by rw [Fin.val_ofNat, hk]; omega)
  refine congrArg Host.Outcome.next ((vinCommand_run hc hd hop (by decide) hok).trans ?_)
  rw [hfin, consume_vin]

theorem vintageLoad_waits (hc : s.canConsume 1 1 = true) (hd : s.devIs 4 = true) (hop : e.opcode = 0x10#8) (hz : zeroFrom e 4 = true)
    (hk : e.dw[0].toNat = k.val) (h1 : 1 ≤ e.dw[3].toNat) (hm : e.dw[3].toNat ≤ 0x100000) (hcur : s.vin.cur ≠ some k)
    (hprev : s.vin.prev ≠ some k) :
    Leads s (.vintageLoad 1 e) fun t => t.vin = { s.vin with jobs := s.vin.jobs ++ [.load e.cid k] } ∧ t.answers = s.answers := by
  have hexec := exec_vintageLoad hc hd hop hz hk h1 hm
  rw [if_neg (by simp [hcur, hprev])] at hexec
  have h := transfer_rackSteps (.refl ((s.consume 1 1).setVin { s.vin with jobs := s.vin.jobs ++ [.load e.cid k] })) 3
    (e.dw[1].toNat + 0x100000000 * e.dw[2].toNat) e.dw[3].toNat false 0
  exact ⟨_, hexec, h.vin, h.answers.trans (consume_answers s)⟩

theorem vintageLoad_marked (hc : s.canConsume 1 1 = true) (hd : s.devIs 4 = true) (hop : e.opcode = 0x10#8) (hz : zeroFrom e 4 = true)
    (hk : e.dw[0].toNat = k.val) (h1 : 1 ≤ e.dw[3].toNat) (hm : e.dw[3].toNat ≤ 0x100000)
    (hmark : s.vin.cur = some k ∨ s.vin.prev = some k) :
    Leads s (.vintageLoad 1 e) fun t => s.Answered t e.cid .vintageFail ∧ t.vin = s.vin := by
  have hexec := exec_vintageLoad hc hd hop hz hk h1 hm
  rw [if_pos hmark] at hexec
  obtain ⟨x, -, ha⟩ := vinDone_frame (s.consume 1 1) e.cid 3 k
  exact ⟨_, hexec, ha.of_eq (consume_answers s), (vinDone_keeps ..).1.trans (consume_vin s)⟩

/-! ### Checks (R36) -/

theorem vintageCheck_waits (hc : s.canConsume 1 1 = true) (hd : s.devIs 4 = true) (hop : e.opcode = 0x11#8) (hz : zeroFrom e 1 = true)
    (hk : e.dw[0].toNat = k.val) (hb : s.vinBusy = false) :
    Leads s (.vintageCheck 1 e) fun t => t.vin = { s.vin with jobs := s.vin.jobs ++ [.check e.cid k] } ∧ t.answers = s.answers := by
  have hok : (zeroFrom e 1 && Nat.blt e.dw[0].toNat 8) = true := by
    rw [hz, show Nat.blt e.dw[0].toNat 8 = true by rw [Nat.blt_eq]; omega]
    rfl
  have hfin : Fin.ofNat 8 e.dw[0].toNat = k := Fin.ext (by rw [Fin.val_ofNat, hk]; omega)
  have hbusy : ¬(s.consume 1 1).vinBusy = true := by rw [vinBusy_rackSteps (consume_rackSteps s 1 1), hb]; decide
  refine ⟨_, congrArg Host.Outcome.next ((vinCommand_run hc hd hop (by decide) hok).trans (if_neg hbusy)), ?_, consume_answers s⟩
  rw [hfin, consume_vin]
  rfl

/-! ### Applies (R37, R38) -/

/-- An apply that is accepted is pending. -/
theorem acceptApply_frame (s : State) (cid : BitVec 16) (n : Nat) (r : Bool) :
    (s.acceptApply cid n r).vin = { s.vin with apply := some {
      cid := some cid, at_ := if n = 0 then s.tick + 2 else n, whole := s.wholeApply, slot := Fin.ofNat 8 (s.getF F.VIN_STATUS_SLOT),
      revert := r, dirty := s.flag F.VIN_STATUS_DIRTY } }
    ∧ (s.acceptApply cid n r).flag F.VIN_STATUS_PENDING = true := by
  unfold State.acceptApply
  extract_lets whole at_ job v a
  have ha : a.flag F.VIN_STATUS_PENDING = true := (flag_putF_same _ F.VIN_STATUS_PENDING 1 (by decide)).trans (by decide)
  have hvin : a.vin = { s.vin with apply := some job } := rfl
  clear_value a
  obtain ⟨r', q, l, hf⟩ := fire_frame ((a.putB F.VIN_STATUS_WHOLE whole).putP R.VIN_APPLY_TICK_LO at_) 0x0D 0 true
  constructor
  · rw [hf]
    exact hvin
  · rw [(fire_within _ _ _ _).flag _ (by decide)]
    refine (flag_congr ?_).trans ((flag_putF_apart (f := F.VIN_STATUS_WHOLE) (boolNat whole) (Or.inr (by decide))).trans ha)
    exact (getR_putR_ne _ _ (by decide)).trans (getR_putR_ne _ _ (by decide))

theorem vintageApply_pends {n : Nat} (hc : s.canConsume 1 1 = true) (hd : s.devIs 4 = true) (hop : e.opcode = 0x12#8)
    (hz : zeroFrom e 2 = true) (hn : n = e.dw[0].toNat + 0x100000000 * e.dw[1].toNat) (hr : s.applyRefusal n = none)
    (hch : s.flag F.VIN_STATUS_CHECKED = true) :
    Leads s (.vintageApply 1 e) fun t => t.vin = { s.vin with apply := some {
        cid := some e.cid, at_ := if n = 0 then s.tick + 2 else n, whole := s.wholeApply,
        slot := Fin.ofNat 8 (s.getF F.VIN_STATUS_SLOT), revert := false, dirty := s.flag F.VIN_STATUS_DIRTY } }
      ∧ t.flag F.VIN_STATUS_PENDING = true := by
  have h := consume_rackSteps s 1 1
  have hexec : exec (.vintageApply 1 e) s = .next ((s.consume 1 1).acceptApply e.cid n false) := by
    refine congrArg Host.Outcome.next ((vinCommand_run hc hd hop (by decide) hz).trans ?_)
    dsimp only
    rw [← hn, applyRefusal_rackSteps h, hr]
    exact if_pos ((h.flag _ (by decide)).trans hch)
  obtain ⟨hv, hp⟩ := acceptApply_frame (s.consume 1 1) e.cid n false
  refine ⟨_, hexec, hv.trans ?_, hp⟩
  rw [h.vin, h.tick, wholeApply_rackSteps h, h.getF _ (by decide), h.flag _ (by decide)]

/-! ### Reverts (R47) -/

theorem vintageRevert_waits (hc : s.canConsume 1 1 = true) (hd : s.devIs 4 = true) (hop : e.opcode = 0x13#8) (hz : zeroFrom e 0 = true)
    (hb : s.vinBusy = false) (hp : s.vin.prev = some k) (hfl : ∀ img, s.vin.slots[k] = some img → s.belowFloor img = false) :
    Leads s (.vintageRevert 1 e) fun t => t.vin = { s.vin with jobs := s.vin.jobs ++ [.revert e.cid] } ∧ t.answers = s.answers := by
  have h := consume_rackSteps s 1 1
  have hbusy : ¬(s.consume 1 1).vinBusy = true := by rw [vinBusy_rackSteps h, hb]; decide
  have hexec : exec (.vintageRevert 1 e) s =
      .next ((s.consume 1 1).setVin { s.vin with jobs := s.vin.jobs ++ [.revert e.cid] }) := by
    refine congrArg Host.Outcome.next ((vinCommand_run hc hd hop (by decide) hz).trans ((if_neg hbusy).trans ?_))
    rw [h.vin, hp]
    dsimp only
    split
    next img hi => exact if_neg (by rw [belowFloor_rackSteps h, hfl img hi]; decide)
    next => rfl
  exact ⟨_, hexec, rfl, h.answers⟩

theorem vintageRevert_unmarked (hc : s.canConsume 1 1 = true) (hd : s.devIs 4 = true) (hop : e.opcode = 0x13#8) (hz : zeroFrom e 0 = true)
    (hb : s.vinBusy = false) (hp : s.vin.prev = none) :
    Leads s (.vintageRevert 1 e) fun t => s.Answered t e.cid .vintageFail ∧ t.vin = s.vin := by
  have h := consume_rackSteps s 1 1
  have hbusy : ¬(s.consume 1 1).vinBusy = true := by rw [vinBusy_rackSteps h, hb]; decide
  have hexec : exec (.vintageRevert 1 e) s = .next ((s.consume 1 1).vinDone (some e.cid) 10 0) := by
    refine congrArg Host.Outcome.next ((vinCommand_run hc hd hop (by decide) hz).trans ((if_neg hbusy).trans ?_))
    rw [h.vin, hp]
  obtain ⟨x, -, ha⟩ := vinDone_frame (s.consume 1 1) e.cid 10 0
  exact ⟨_, hexec, ha.of_eq h.answers, (vinDone_keeps ..).1.trans h.vin⟩

/-- Settles O30, command by command. -/
theorem vintageCommandsComplete : Obligations.VintageCommandsComplete := by
  intro s e hc hd
  exact ⟨fun k => vintageLoad_waits hc hd, fun k => vintageLoad_marked hc hd, fun k => vintageCheck_waits hc hd,
    fun n => vintageApply_pends hc hd, fun k => vintageRevert_waits hc hd, vintageRevert_unmarked hc hd⟩

/-! ### The end of a load (R32, R33, R46) -/

section load

variable {cid : BitVec 16} {img : Image} {rest : List VinJob}

/-- A load whose image has been read ends by what the image is. -/
theorem exec_vintageLoadDone (hj : s.vin.jobs = .load cid k :: rest) (hi : (s.chan 3).issued = []) (hq : (s.chan 3).queued = [])
    (hh : s.halted 3 = false) : exec (.vintageLoadDone img) s = .next (
      if (!s.imageSigned img) = true then (s.setVin { s.vin with jobs := rest }).vinDone (some cid) 1 k
      else if s.belowFloor img = true then (s.setVin { s.vin with jobs := rest }).vinDone (some cid) 2 k
      else ((s.setVin { s.vin with jobs := rest, slots := s.vin.slots.set k (some img) }).vinDone (some cid) 0 k).vinFollow) := by
  have hfind : s.vin.jobs.find? VinJob.isLoad = some (.load cid k) := by rw [hj]; rfl
  have herase : s.vin.jobs.erase (.load cid k) = rest := by rw [hj]; exact List.erase_cons_head ..
  change execVintageLoadDone img s = _
  unfold execVintageLoadDone
  rw [hfind]
  dsimp only
  rw [if_pos (by simp [hi, hq, hh]), herase]
  rfl

/-- The version registers follow the index. -/
theorem vinFollow_frame (s : State) : s.vinFollow.vin = s.vin ∧ s.vinFollow.answers = s.answers := ⟨rfl, rfl⟩

theorem vintageLoadDone_ok (hj : s.vin.jobs = .load cid k :: rest) (hi : (s.chan 3).issued = []) (hq : (s.chan 3).queued = [])
    (hh : s.halted 3 = false) (hs : s.imageSigned img = true) (hb : s.belowFloor img = false) :
    Leads s (.vintageLoadDone img) fun t => t.vin.jobs = rest ∧ t.vin.slots = s.vin.slots.set k (some img) ∧ s.Answered t cid .ok := by
  have hexec := exec_vintageLoadDone (img := img) hj hi hq hh
  rw [if_neg (by simp [hs]), if_neg (by simp [hb])] at hexec
  have hv := (vinDone_keeps (s.setVin { s.vin with jobs := rest, slots := s.vin.slots.set k (some img) }) cid 0 k).1
  obtain ⟨x, -, y, ha, hy⟩ := vinDone_frame (s.setVin { s.vin with jobs := rest, slots := s.vin.slots.set k (some img) }) cid 0 k
  generalize (s.setVin { s.vin with jobs := rest, slots := s.vin.slots.set k (some img) }).vinDone (some cid) 0 k = c at hexec hv ha
  obtain ⟨hfv, hfa⟩ := vinFollow_frame c
  refine ⟨_, hexec, ?_, ?_, y, hfa.trans ha, hy⟩
  · rw [hfv, hv]
    rfl
  · rw [hfv, hv]
    rfl

theorem vintageLoadDone_fail (hj : s.vin.jobs = .load cid k :: rest) (hi : (s.chan 3).issued = []) (hq : (s.chan 3).queued = [])
    (hh : s.halted 3 = false) (hs : s.imageSigned img = false ∨ s.belowFloor img = true) :
    Leads s (.vintageLoadDone img) fun t => t.vin.jobs = rest ∧ t.vin.slots = s.vin.slots ∧ s.Answered t cid .vintageFail := by
  have hexec := exec_vintageLoadDone (img := img) hj hi hq hh
  have hfail : ∃ n, n ≠ 0 ∧ exec (.vintageLoadDone img) s = .next ((s.setVin { s.vin with jobs := rest }).vinDone (some cid) n k) := by
    by_cases hsig : s.imageSigned img = true
    · rw [if_neg (by simp [hsig]), if_pos (by simpa [hsig] using hs)] at hexec
      exact ⟨2, by decide, hexec⟩
    · rw [if_pos (by simpa using hsig)] at hexec
      exact ⟨1, by decide, hexec⟩
  obtain ⟨n, hn, hexec⟩ := hfail
  have hv := (vinDone_keeps (s.setVin { s.vin with jobs := rest }) cid n k).1
  obtain ⟨x, -, ha⟩ := vinDone_frame (s.setVin { s.vin with jobs := rest }) cid n k
  rw [if_neg hn] at ha
  exact ⟨_, hexec, congrArg Vint.jobs hv, (congrArg Vint.slots hv :), ha.of_eq rfl⟩

/-! ### The end of a check (R36) -/

/-- The bank filled for a check: its image in the preload area and its ST fields staged. -/
theorem fillBank_frame (s : State) (k : Fin 8) (img : Image) : (s.fillBank k img).vin = { s.vin with preload := some img }
    ∧ (s.fillBank k img).stage = bankOf img.stage ∧ (s.fillBank k img).answers = s.answers := ⟨rfl, rfl, rfl⟩

/-- A check that passes sets CHECKED, one that fails clears it and gives the offset of the failing rule. -/
theorem runCheck_none {u : State} {pre : Bool} (h : u.vinCheck img pre = none) : (u.runCheck img pre).2 = none
    ∧ (u.runCheck img pre).1.flag F.VIN_STATUS_CHECKED = true := by
  rw [State.runCheck, h]
  exact ⟨rfl, (flag_putF_same _ F.VIN_STATUS_CHECKED 1 (by decide)).trans (by decide)⟩

theorem runCheck_some {u : State} {pre : Bool} {f : CheckFail} (h : u.vinCheck img pre = some f) : (u.runCheck img pre).2 = some f
    ∧ (u.runCheck img pre).1.flag F.VIN_STATUS_CHECKED = false
    ∧ (u.runCheck img pre).1.getR R.VIN_CHECK_OFFSET = BitVec.ofNat 32 f.off := by
  rw [State.runCheck, h]
  exact ⟨rfl, (flag_putF_same _ F.VIN_STATUS_CHECKED 0 (by decide)).trans (by decide),
    (getR_putF_ne _ F.VIN_STATUS_CHECKED 0 _ (by decide)).trans (getR_putR_same ..)⟩

theorem runCheck_frame (u : State) (img : Image) (pre : Bool) : (u.runCheck img pre).1.vin = u.vin ∧ (u.runCheck img pre).1.stage = u.stage
    ∧ (u.runCheck img pre).1.answers = u.answers := by
  unfold State.runCheck
  split <;> exact ⟨rfl, rfl, rfl⟩

/-- The result of a check over the filled bank (Table 2-4). -/
def checkResult : Option CheckFail → Nat
  | none => 0
  | some f => f.result

theorem exec_vintageCheckDone {pre : Bool} (hj : s.vin.jobs = .check cid k :: rest) (hb : s.vinBusy = false)
    (hk : s.vin.slots[k] = some img) (hs : s.imageSigned img = true) :
    exec (.vintageCheckDone true pre) s = .next (((((s.setVin { s.vin with jobs := rest }).fillBank k img).runCheck img pre).1).vinDone
      (some cid) (checkResult (((s.setVin { s.vin with jobs := rest }).fillBank k img).runCheck img pre).2) k) := by
  have hfind : (s.vin.jobs.find? fun j => !j.isLoad) = some (.check cid k) := by rw [hj]; rfl
  have herase : s.vin.jobs.erase (.check cid k) = rest := by rw [hj]; exact List.erase_cons_head ..
  have hbusy : ¬(s.setVin { s.vin with jobs := rest }).vinBusy = true := by
    rw [show (s.setVin { s.vin with jobs := rest }).vinBusy = s.vinBusy from rfl, hb]
    decide
  have hcheck : (s.setVin { s.vin with jobs := rest }).checkSlot k true pre = ((((s.setVin { s.vin with jobs := rest }).fillBank k img).runCheck
      img pre).1, checkResult (((s.setVin { s.vin with jobs := rest }).fillBank k img).runCheck img pre).2) := by
    rw [State.checkSlot, show (s.setVin { s.vin with jobs := rest }).vin.slots[k] = some img from hk]
    dsimp only
    rw [show (s.setVin { s.vin with jobs := rest }).imageSigned img = true from hs]
    refine (if_pos rfl).trans (Prod.ext rfl ?_)
    dsimp only
    cases (((s.setVin { s.vin with jobs := rest }).fillBank k img).runCheck img pre).2 <;> rfl
  change execVintageCheckDone true pre s = _
  unfold execVintageCheckDone
  rw [hfind]
  dsimp only
  rw [herase, if_neg hbusy, hcheck]

theorem result_ne_zero (f : CheckFail) : f.result ≠ 0 := by
  unfold CheckFail.result
  split <;> decide

theorem vintageCheckDone_ok {pre : Bool} (hj : s.vin.jobs = .check cid k :: rest) (hb : s.vinBusy = false)
    (hk : s.vin.slots[k] = some img) (hs : s.imageSigned img = true)
    (hc : ((s.setVin { s.vin with jobs := rest }).fillBank k img).vinCheck img pre = none) :
    Leads s (.vintageCheckDone true pre) fun t => t.vin.jobs = rest ∧ t.stage = bankOf img.stage ∧ t.vin.preload = some img
      ∧ t.flag F.VIN_STATUS_CHECKED = true ∧ s.Answered t cid .ok := by
  have hexec := exec_vintageCheckDone (pre := pre) hj hb hk hs
  obtain ⟨hr, hf⟩ := runCheck_none hc
  obtain ⟨hv, hst, ha⟩ := runCheck_frame ((s.setVin { s.vin with jobs := rest }).fillBank k img) img pre
  rw [hr] at hexec
  generalize (((s.setVin { s.vin with jobs := rest }).fillBank k img).runCheck img pre).1 = c at hexec hf hv hst ha
  obtain ⟨hv', hst', -⟩ := vinDone_keeps c cid 0 k
  obtain ⟨x, -, hans⟩ := vinDone_frame c cid 0 k
  refine ⟨_, hexec, ?_, hst'.trans hst, ?_, (vinDone_flag c cid 0 k (by decide) (Or.inr (by decide))).trans hf, hans.of_eq ha⟩
  · exact congrArg Vint.jobs (hv'.trans hv)
  · exact congrArg Vint.preload (hv'.trans hv)

theorem vintageCheckDone_fail {pre : Bool} {f : CheckFail} (hj : s.vin.jobs = .check cid k :: rest) (hb : s.vinBusy = false)
    (hk : s.vin.slots[k] = some img) (hs : s.imageSigned img = true)
    (hc : ((s.setVin { s.vin with jobs := rest }).fillBank k img).vinCheck img pre = some f) :
    Leads s (.vintageCheckDone true pre) fun t => t.vin.jobs = rest ∧ t.flag F.VIN_STATUS_CHECKED = false
      ∧ t.getR R.VIN_CHECK_OFFSET = BitVec.ofNat 32 f.off ∧ s.Answered t cid .vintageFail := by
  have hexec := exec_vintageCheckDone (pre := pre) hj hb hk hs
  obtain ⟨hr, hf, ho⟩ := runCheck_some hc
  obtain ⟨hv, -, ha⟩ := runCheck_frame ((s.setVin { s.vin with jobs := rest }).fillBank k img) img pre
  rw [hr] at hexec
  generalize (((s.setVin { s.vin with jobs := rest }).fillBank k img).runCheck img pre).1 = c at hexec hf ho hv ha
  obtain ⟨hv', -, hr'⟩ := vinDone_keeps c cid f.result k
  obtain ⟨x, -, hans⟩ := vinDone_frame c cid f.result k
  rw [if_neg (result_ne_zero f)] at hans
  exact ⟨_, hexec, congrArg Vint.jobs (hv'.trans hv), (vinDone_flag c cid f.result k (by decide) (Or.inr (by decide))).trans hf,
    (hr' _ (by decide) (by decide)).trans ho, hans.of_eq ha⟩

end load

/-- Settles O31, for loads and for checks. -/
theorem vintageJobsEnd : Obligations.VintageJobsEnd := by
  intro s cid k img rest
  refine ⟨fun hj hi hq hh => ⟨vintageLoadDone_ok hj hi hq hh, vintageLoadDone_fail hj hi hq hh⟩, fun pre u hj hb hk hs hu => ?_⟩
  subst hu
  exact ⟨vintageCheckDone_ok hj hb hk hs, fun f => vintageCheckDone_fail hj hb hk hs⟩

end Sys2Proof.Machine

end

/-! ## Threads: reload, overrun, handover, restart, start and wake (R51 to R53, R55, R57, R62, R63, R65, R68, R89) -/

section

namespace Sys2Proof.Machine

variable {s : State} {t : Fin 16}

/-! ### Changes of every thread -/

@[simp] theorem thr_mapThr (s : State) (f : Nat → Thread → Thread) (u : Fin 16) : (s.mapThr f).thr u = f u (s.thr u) := by
  simp [State.mapThr, State.thr]

theorem mapThr_getF (s : State) (f : Nat → Thread → Thread) (g : Fld) : (s.mapThr f).getF g = s.getF g := rfl

/-! ### The reload at cycle 200 (R51, R62) -/

theorem setRun_pend (h : Thread) (v : ThrState) : (h.setRun v).pend = h.pend ∧ (h.setRun v).budget = h.budget := by
  unfold Thread.setRun
  split <;> exact ⟨rfl, rfl⟩

/-- The reload of one thread. -/
def Thread.reload (h : Thread) (b : Nat) : Thread :=
  let h1 : Thread := { h with budget := b }
  (if h1.run = .preempted then h1.setRun .eligible else h1).setPend 48

/-- It has its BUDGET, and TICK pending. -/
theorem reload_thread (h : Thread) (b : Nat) : (h.reload b).budget = b ∧ (h.reload b).pend.getLsbD 48 = true := by
  have hbit : ∀ p : BitVec 64, (p ||| BitVec.ofNat 64 (2 ^ 48)).getLsbD 48 = true := fun p => by
    rw [BitVec.getLsbD_or]
    exact (Bool.or_eq_true _ _).mpr (Or.inr (by decide))
  unfold Thread.reload
  dsimp only
  split
  · exact ⟨(setRun_pend _ _).2, hbit _⟩
  · exact ⟨rfl, hbit _⟩

/-- The state in which the reload of every thread is made: held BUDGETs are in place and due restarts have taken effect. -/
def State.reloadBase (s : State) : State :=
  let s := s.takeBudgets
  let due := fun (h : Thread) => match h.restart with
    | some k => Nat.ble k s.tick
    | none => false
  s.forEach 16 fun (a : State) (n : Nat) => if due (a.seq.thr.toList.getD n {}) then a.startThr (Fin.ofNat 16 n) else a

theorem budgetReload_eq (s : State) :
    s.budgetReload = s.reloadBase.mapThr fun n h => h.reload (s.reloadBase.getF (F.SEQ_THR_CFG_BUDGET n)) := by
  unfold State.budgetReload
  extract_lets a due start b
  have hb : b = s.reloadBase := rfl
  clear_value b
  rw [hb]
  rfl

theorem budgetReload_leads (h : s.cycle ≤ 200) : Leads s .budgetReload fun x => x.tsc = s.tsc + BitVec.ofNat 64 (200 - s.cycle)
    ∧ ∀ u : Fin 16, (x.thr u).budget = x.getF (F.SEQ_THR_CFG_BUDGET u) ∧ (x.thr u).pend.getLsbD 48 = true := by
  refine ⟨_, congrArg Host.Outcome.next (if_pos h), (tsc_of_outer (State.budgetReload_outer _)).trans (setTsc_tsc ..), fun u => ?_⟩
  rw [budgetReload_eq]
  generalize State.reloadBase _ = b
  rw [thr_mapThr, mapThr_getF]
  exact reload_thread _ _

/-! ### Overruns (R52, R53) -/

/-- A thread that is charged an overrun. -/
def Thread.overran (h : Thread) : Thread := { h with consec := h.consec + 1, ovrThisTick := true, st := .preempted }

theorem exec_overrun (he : (s.thr t).st = .eligible) (ho : (s.thr t).ovrThisTick = false) (hr : (s.thr t).readyAt ≤ s.tsc.toNat)
    (hc : 3800 ≤ s.cycle) : exec (.overrun t) s = .next (
      if 3 ≤ (s.thr t).consec + 1 then ((s.incR (R.SEQ_THR_OVR t) 1).setThr t (s.thr t).overran).faultThr t 0x7
      else ((s.incR (R.SEQ_THR_OVR t) 1).setThr t (s.thr t).overran).raise Ev.SEQ_OVERRUN t (BitVec.ofNat 32 (s.thr t).pc)) :=
  congrArg Host.Outcome.next (if_pos ⟨he, ho, hr, Or.inl hc⟩)

theorem overrun_preempts (he : (s.thr t).st = .eligible) (ho : (s.thr t).ovrThisTick = false) (hr : (s.thr t).readyAt ≤ s.tsc.toNat)
    (hc : 3800 ≤ s.cycle) (hn : (s.thr t).consec < 2) :
    Leads s (.overrun t) fun x => (x.thr t).st = .preempted ∧ (x.thr t).consec = (s.thr t).consec + 1
      ∧ (x.thr t).pc = (s.thr t).pc ∧ x.Arisen Ev.SEQ_OVERRUN t := by
  have hthr : ∀ a b, ((((s.incR (R.SEQ_THR_OVR t) 1).setThr t (s.thr t).overran).raise Ev.SEQ_OVERRUN t a b).thr t) = (s.thr t).overran :=
    fun a b => thr_setThr_same (s.incR (R.SEQ_THR_OVR t) 1) t (s.thr t).overran
  refine ⟨_, (exec_overrun he ho hr hc).trans (congrArg _ (if_neg (by omega))), ?_⟩
  beta_reduce
  rw [hthr]
  exact ⟨rfl, rfl, rfl, arisen_raise ..⟩

theorem overrun_halts (he : (s.thr t).st = .eligible) (ho : (s.thr t).ovrThisTick = false) (hr : (s.thr t).readyAt ≤ s.tsc.toNat)
    (hc : 3800 ≤ s.cycle) (hn : 2 ≤ (s.thr t).consec) :
    Leads s (.overrun t) fun x => (x.thr t).st = .halted ∧ (x.thr t).fault = 0x7 := by
  refine ⟨_, (exec_overrun he ho hr hc).trans (congrArg _ (if_pos (by omega))), ?_⟩
  obtain ⟨o, h⟩ := thr_faultThr_same ((s.incR (R.SEQ_THR_OVR t) 1).setThr t (s.thr t).overran) t 0x7
  beta_reduce
  rw [h]
  exact ⟨rfl, rfl⟩

/-! ### The handover of a fault (R55) -/

/-- A sheet of the list `l` passes to the thread `ft`. -/
def handed (l : List Sheet) (ft : Fin 16) (y : Sheet) : Sheet := if l.any (fun x => x.id == y.id) then { y with owner := ft } else y

theorem journal_frozenAc (e : JEntry) (h : s.jr.frozenAc = false) : (s.journal e).jr.frozenAc = false := by
  rw [State.journal, if_neg (by simp [h]), State.jfullCheck]
  split <;> exact h

/-- Every sheet of the list passes; the sequencer stays. -/
theorem own_each (l : List Sheet) (ft : Fin 16) (h : s.jr.frozenAc = false) :
    (s.each l fun a x => a.journal (.own x.id ft)).led.sheets = s.led.sheets.map (handed l ft)
    ∧ (s.each l fun a x => a.journal (.own x.id ft)).seq = s.seq := by
  unfold State.each
  induction l generalizing s with
  | nil => exact ⟨(List.map_id' s.led.sheets).symm, rfl⟩
  | cons x l ih =>
    obtain ⟨hled, hseq, -⟩ := journal_frame (.own x.id ft) h
    obtain ⟨ih1, ih2⟩ := ih (journal_frozenAc (.own x.id ft) h)
    refine ⟨?_, ih2.trans hseq⟩
    rw [List.foldl_cons, ih1, hled]
    change (mapIf (fun y => y.id == x.id) (fun y => { y with owner := ft }) s.led.sheets).map (handed l ft) = _
    rw [mapIf, List.map_map]
    refine List.map_congr_left fun y _ => ?_
    simp only [Function.comp_apply, handed, List.any_cons]
    by_cases hx : y.id = x.id
    · simp only [hx, beq_self_eq_true, if_true, Bool.true_or]
      split <;> rfl
    · have hne : (x.id == y.id) = false := beq_false_of_ne fun e => hx e.symm
      simp only [hne, Bool.false_or, beq_false_of_ne hx, Bool.false_eq_true, if_false]

theorem faultThread_lt (s : State) : s.faultThread < 16 := bits_lt _ _ _

theorem bitF_latchBits_src (s : State) (t : Fin 16) :
    (s.latchBits F.SEQ_FAULT_SRC_SRC.off (ones (F.SEQ_FAULT_SRC_SRC.lo + t) 1)).bitF F.SEQ_FAULT_SRC_SRC t = true := by
  have hr : (s.latchBits F.SEQ_FAULT_SRC_SRC.off (ones (F.SEQ_FAULT_SRC_SRC.lo + t) 1)).getR F.SEQ_FAULT_SRC_SRC.off
      = s.getR F.SEQ_FAULT_SRC_SRC.off ||| ones (F.SEQ_FAULT_SRC_SRC.lo + t) 1 := getR_putR_same ..
  have hlt : (t : Nat) < 16 := t.isLt
  rw [State.bitF, bit_eq_testBit, State.getF, hr, bits_testBit, BitVec.getLsbD_or, getLsbD_ones _ _ _ (by simp [F.SEQ_FAULT_SRC_SRC]; omega)]
  simp [F.SEQ_FAULT_SRC_SRC]

/-- No sheet in the path stays with a thread that has handed over, unless it is the fault thread itself. -/
theorem faultHandover_leads {k : Nat} (hj : s.jr.frozenAc = false) (hh : (s.thr t).handover = some k) (hk : k ≤ s.tick)
    (hc : s.cycle < 200) :
    Leads s (.faultHandover t) fun x => (x.thr t).handover = none ∧ x.bitF F.SEQ_FAULT_SRC_SRC t = true
      ∧ ∀ y ∈ x.led.sheets, y.place.inPath = true → y.handoff = false → y.owner = t → s.faultThread = t.val := by
  have hexec : exec (.faultHandover t) s = .next (((s.each
      (s.led.sheets.filter fun sh => sh.place.inPath && sh.owner == t && !sh.handoff) fun a sh =>
        a.journal (.own sh.id (Fin.ofNat 16 s.faultThread))).setThr t { (s.each
      (s.led.sheets.filter fun sh => sh.place.inPath && sh.owner == t && !sh.handoff) fun a sh =>
        a.journal (.own sh.id (Fin.ofNat 16 s.faultThread))).thr t with handover := none }).latchBits F.SEQ_FAULT_SRC_SRC.off
      (ones (F.SEQ_FAULT_SRC_SRC.lo + t) 1)) := by
    change execFaultHandover t s = _
    unfold execFaultHandover
    rw [hh]
    exact congrArg Host.Outcome.next (if_pos ⟨hk, hc⟩)
  obtain ⟨hled, -⟩ := own_each (s.led.sheets.filter fun sh => sh.place.inPath && sh.owner == t && !sh.handoff)
    (Fin.ofNat 16 s.faultThread) hj
  generalize (s.each (s.led.sheets.filter fun sh => sh.place.inPath && sh.owner == t && !sh.handoff) fun a sh =>
    a.journal (.own sh.id (Fin.ofNat 16 s.faultThread))) = b at hexec hled
  refine ⟨_, hexec, ?_, bitF_latchBits_src _ t, fun y hy hp hf ho => ?_⟩
  · exact congrArg Thread.handover (thr_setThr_same b t _)
  · have hy' : y ∈ b.led.sheets := hy
    rw [hled] at hy'
    obtain ⟨z, hz, rfl⟩ := List.mem_map.1 hy'
    unfold handed at hp hf ho
    split at ho
    next =>
      have := congrArg Fin.val ho
      rw [Fin.val_ofNat, Nat.mod_eq_of_lt (faultThread_lt s)] at this
      exact this
    next hany =>
      rw [if_neg hany] at hp hf
      have hmine : z ∈ s.led.sheets.filter fun sh => sh.place.inPath && sh.owner == t && !sh.handoff :=
        List.mem_filter.2 ⟨hz, by simp [hp, ho, hf]⟩
      exact absurd (List.any_eq_true.2 ⟨z, hmine, beq_self_eq_true z.id⟩) hany

/-! ### Restarts (R57) -/

/-- The thread that a write of SEQ_THR_RESTART names. -/
theorem restart_names (t : Fin 16) : Fin.ofNat 16 (bits (BitVec.ofNat 32 t) 0 4) = t := by
  revert t
  decide

theorem threadRestart_leads (hst : (s.thr t).st = .halted) (hf : (s.thr t).fault ≠ 0) (ho : s.dbgOpen = true) :
    Leads s (.threadRestart .host (BitVec.ofNat 32 t)) fun x => (x.thr t).restart = some (s.tick + 1) ∧ x.regs = s.regs := by
  have hexec : exec (.threadRestart .host (BitVec.ofNat 32 t)) s = .next (s.setThr t { s.thr t with restart := some (s.tick + 1) }) := by
    change execThreadRestart .host (BitVec.ofNat 32 t) s = _
    unfold execThreadRestart
    rw [restart_names]
    exact congrArg Host.Outcome.next ((if_pos ho).trans (if_pos ⟨hst, hf⟩))
  exact ⟨_, hexec, congrArg Thread.restart (thr_setThr_same ..), rfl⟩

/-! ### Waking (R62, R63, R89) -/

theorem wake_eq (hst : (s.thr t).st = .waiting) (hm : s.pendOf t &&& (s.thr t).mask ≠ 0#64) :
    s.wake t = (s.endWait t (s.pendOf t &&& (s.thr t).mask)).setThr t
      { ((s.endWait t (s.pendOf t &&& (s.thr t).mask)).thr t).setRun .eligible with readyAt := s.wakeFrom } :=
  if_pos ⟨by simp [Thread.run, hst], hm⟩

/-- A thread whose WAIT ends with the bits `m`. -/
def Thread.ended (h : Thread) (m : BitVec 64) : Thread :=
  let h1 := { h.wx h.waitRd (m.setWidth 32) with aux := (m >>> 32).setWidth 32, pend := h.pend &&& ~~~ (m &&& 0xFFFFFFFFFFFF#64) }
  if m.getLsbD 50 then { h1 with deadline := none } else h1

theorem wx_st (h : Thread) (i : Fin 16) (v : Word) : (h.wx i v).st = h.st := by
  unfold Thread.wx
  split <;> rfl

theorem ended_frame (h : Thread) (m : BitVec 64) : (h.ended m).st = h.st ∧ (h.ended m).aux = (m >>> 32).setWidth 32
    ∧ (h.ended m).x = (h.wx h.waitRd (m.setWidth 32)).x ∧ (m.getLsbD 50 = true → (h.ended m).deadline = none) := by
  unfold Thread.ended
  dsimp only
  split
  · exact ⟨wx_st .., rfl, rfl, fun _ => rfl⟩
  next hm => exact ⟨wx_st .., rfl, rfl, fun h => absurd h hm⟩

/-- What waking leaves of a waiting thread. -/
theorem wake_thr (hst : (s.thr t).st = .waiting) (hm : s.pendOf t &&& (s.thr t).mask ≠ 0#64) :
    (s.wake t).thr t = { (s.thr t).ended (s.pendOf t &&& (s.thr t).mask) with st := .eligible, readyAt := s.wakeFrom } := by
  have hend : (s.endWait t (s.pendOf t &&& (s.thr t).mask)).thr t = (s.thr t).ended (s.pendOf t &&& (s.thr t).mask) :=
    thr_setThr_same s t _
  rw [wake_eq hst hm, thr_setThr_same, hend, Thread.setRun, if_neg (by rw [(ended_frame _ _).1, hst]; decide)]

theorem waitWake_leads (hst : (s.thr t).st = .waiting) (hm : s.pendOf t &&& (s.thr t).mask ≠ 0#64) :
    Leads s (.waitWake t) fun x => (x.thr t).st = .eligible ∧ (x.thr t).readyAt = s.wakeFrom
      ∧ ((s.thr t).waitRd ≠ 0 → x.rx t (s.thr t).waitRd = (s.pendOf t &&& (s.thr t).mask).setWidth 32)
      ∧ (x.thr t).aux = ((s.pendOf t &&& (s.thr t).mask) >>> 32).setWidth 32 := by
  obtain ⟨-, haux, hx, -⟩ := ended_frame (s.thr t) (s.pendOf t &&& (s.thr t).mask)
  refine ⟨_, rfl, ?_⟩
  beta_reduce
  rw [State.rx, wake_thr hst hm]
  refine ⟨rfl, rfl, fun hrd => ?_, haux⟩
  simp [Thread.rx, hx, Thread.wx, hrd]

theorem pendOf_time {d : BitVec 64} (h : (s.thr t).deadline = some d) (hd : d.toNat ≤ s.tsc.toNat) : (s.pendOf t).getLsbD 50 = true := by
  unfold State.pendOf
  dsimp only
  rw [h]
  dsimp only
  rw [if_pos (Nat.ble_eq_true_of_le hd)]
  simp only [BitVec.getLsbD_or]
  simp

theorem timeDeadline_leads (hst : (s.thr t).st = .waiting) (hm : s.pendOf t &&& (s.thr t).mask ≠ 0#64) {d : BitVec 64}
    (h : (s.thr t).deadline = some d) (hd : d.toNat ≤ s.tsc.toNat) (h50 : (s.thr t).mask.getLsbD 50 = true) :
    Leads s (.timeDeadline t) fun x => (x.thr t).st = .eligible ∧ (x.thr t).deadline = none ∧ (x.thr t).aux.getLsbD 18 = true := by
  have hp := pendOf_time h hd
  have hbit : (s.pendOf t &&& (s.thr t).mask).getLsbD 50 = true := by rw [BitVec.getLsbD_and, hp, h50]; rfl
  obtain ⟨-, haux, -, hdl⟩ := ended_frame (s.thr t) (s.pendOf t &&& (s.thr t).mask)
  refine ⟨_, congrArg Host.Outcome.next (if_pos hp), ?_⟩
  beta_reduce
  rw [wake_thr hst hm]
  refine ⟨rfl, hdl hbit, ?_⟩
  dsimp only
  rw [haux, BitVec.getLsbD_setWidth, BitVec.getLsbD_ushiftRight]
  exact hbit

end Sys2Proof.Machine

end

/-! ## The start of threads (R65, R68, R70) -/

section

namespace Sys2Proof.Machine

variable {s t : State}

/-! ### What follows a start leaves threads as they are -/

/-- From `s` to `t` no thread has changed its state, its PC, its EN or its entry point, and no start has become due or been made. -/
def State.ThreadsStay (s t : State) : Prop := t.seq.startDue = s.seq.startDue ∧ ∀ u : Fin 16, (t.thr u).st = (s.thr u).st ∧ (t.thr u).pc = (s.thr u).pc
  ∧ t.getR (R.SEQ_THR_CFG u) = s.getR (R.SEQ_THR_CFG u) ∧ t.getR (R.SEQ_THR_ENTRY u) = s.getR (R.SEQ_THR_ENTRY u)

theorem State.ThreadsStay.refl (s : State) : s.ThreadsStay s := ⟨rfl, fun _ => ⟨rfl, rfl, rfl, rfl⟩⟩

theorem State.ThreadsStay.trans {a : State} (h : s.ThreadsStay a) (h' : a.ThreadsStay t) : s.ThreadsStay t := by
  refine ⟨h'.1.trans h.1, fun u => ?_⟩
  obtain ⟨h1, h2, h3, h4⟩ := h.2 u
  obtain ⟨h1', h2', h3', h4'⟩ := h'.2 u
  exact ⟨h1'.trans h1, h2'.trans h2, h3'.trans h3, h4'.trans h4⟩

theorem State.ThreadsStay.foldl {α : Type} (l : List α) {f : State → α → State} (hf : ∀ b x, State.ThreadsStay b (f b x)) (s : State) :
    s.ThreadsStay (l.foldl f s) := by
  induction l generalizing s with
  | nil => exact .refl s
  | cons x r ih => exact (hf s x).trans (ih (f s x))

theorem seqThr_block (u : Fin 16) : R.SEQ_THR_CFG u / 65536 = 2 ∧ R.SEQ_THR_ENTRY u / 65536 = 2 := by
  simp only [R.SEQ_THR_CFG, R.SEQ_THR_ENTRY]
  omega

/-- A change of other blocks' registers is none of a thread. -/
theorem State.ThreadsStay.of_within {bs : List Nat} (hq : t.seq = s.seq) (h : State.Within bs s t) (hb : 2 ∉ bs) : s.ThreadsStay t := by
  refine ⟨by rw [hq], fun u => ?_⟩
  obtain ⟨hc, he⟩ := seqThr_block u
  exact ⟨by rw [State.thr, hq, State.thr], by rw [State.thr, hq, State.thr], h _ (by rwa [hc]), h _ (by rwa [he])⟩

theorem State.ThreadsStay.putF (h : s.ThreadsStay t) {f : Fld} (v : Nat) (hf : f.off / 65536 ≠ 2) : s.ThreadsStay (t.putF f v) :=
  h.trans (.of_within (bs := [f.off / 65536]) rfl ((State.Within.refl _ t).putF v (List.mem_singleton.2 rfl)) (by simpa using hf.symm))

theorem signal_threadsStay (s : State) (v : Nat) : s.ThreadsStay (s.signal v) := by
  obtain ⟨x, e⟩ := signal_frame s v
  rw [e]
  exact .refl s

/-- An event line sets pending bits and counts merged firings. -/
theorem fireAt_threadsStay (s : State) (cls inst j : Nat) (anyInst : Bool) : s.ThreadsStay (s.fireAt cls inst j anyInst) := by
  have hcount : ∀ (l : List Nat) (p : Nat → Bool) (a : State),
      (l.foldl (fun a n => if p n then a.incR (R.SEQ_THR_EVOVF n) 1 else a) a).seq = a.seq
      ∧ a.ThreadsStay (l.foldl (fun a n => if p n then a.incR (R.SEQ_THR_EVOVF n) 1 else a) a) := by
    intro l p
    induction l with
    | nil => exact fun a => ⟨rfl, .refl a⟩
    | cons n l ih =>
      intro a
      rw [List.foldl_cons]
      split
      · obtain ⟨hq, h⟩ := ih (a.incR (R.SEQ_THR_EVOVF n) 1)
        have hstep : a.ThreadsStay (a.incR (R.SEQ_THR_EVOVF n) 1) := by
          refine ⟨rfl, fun u => ⟨rfl, rfl, getR_incR_ne _ _ ?_, getR_incR_ne _ _ ?_⟩⟩
          · simp only [R.SEQ_THR_CFG, R.SEQ_THR_EVOVF]
            omega
          · simp only [R.SEQ_THR_ENTRY, R.SEQ_THR_EVOVF]
            omega
        exact ⟨hq, hstep.trans h⟩
      · exact ih a
  unfold State.fireAt
  split
  · refine (hcount (List.range 16) _ s).2.trans ⟨rfl, fun u => ?_⟩
    rw [thr_mapThr]
    refine ⟨?_, ?_, rfl, rfl⟩
    · split <;> rfl
    · split <;> rfl
  · exact .refl s

theorem fire_threadsStay (s : State) (cls inst : Nat) (anyInst : Bool) : s.ThreadsStay (s.fire cls inst anyInst) := by
  unfold State.fire
  split
  · exact .refl s
  · exact .foldl _ (fun b j => fireAt_threadsStay b cls inst j anyInst) s

theorem inhibit_threadsStay (s : State) (i : Fin 6) : s.ThreadsStay (s.inhibit i) := by
  refine .of_within ?_ (inhibit_within s i) (by decide)
  obtain ⟨r, k, n, l, j, h⟩ := inhibit_stops s i
  rw [h]

theorem setLock_threadsStay (s : State) (i : Fin 6) (v : Nat) : s.ThreadsStay (s.setLock i v) := by
  unfold State.setLock
  extract_lets a b c d
  have ha : s.ThreadsStay a := .refl s
  clear_value a
  split
  · exact ha
  · have hb : s.ThreadsStay b := ha.putF _ (by simp only [F.EXP_STATUS_LOCK, R.EXP_STATUS]; omega)
    clear_value b
    have hc : s.ThreadsStay c := by
      simp only [c]
      split
      · exact hb.putF _ (by simp only [F.EXP_POLY_STATUS_LOCK, R.EXP_POLY_STATUS]; omega)
      · exact hb
    clear_value c
    have hd : s.ThreadsStay d := hc.trans (fire_threadsStay ..)
    clear_value d
    split
    · exact hd
    · exact hd.trans (inhibit_threadsStay ..)

theorem freqAcqAll_threadsStay (s : State) : s.ThreadsStay s.freqAcqAll :=
  State.ThreadsStay.trans (.foldl _ (fun b i => setLock_threadsStay b i 0) s) ⟨rfl, fun _ => ⟨rfl, rfl, rfl, rfl⟩⟩

theorem setDev_threadsStay (s : State) (v : Nat) : s.ThreadsStay (s.setDev v) := by
  unfold State.setDev
  split
  · exact .refl s
  · exact ((State.ThreadsStay.refl s).putF (f := F.DEV_STATE_STATE) v (by decide)).trans (signal_threadsStay ..)

theorem hostReady_threadsStay (s : State) (b : Bool) : s.ThreadsStay (s.hostReady b) :=
  (((State.ThreadsStay.refl s).putF (f := F.DEV_STATE_HOST_READY) _ (by decide)).putF (f := F.HIF_STATUS_READY) _ (by decide)).putF
    (f := F.HIF_STATUS_CQ_STALL) _ (by decide)

theorem conStart_threadsStay (s : State) (p : Fin 4) : s.ThreadsStay (s.conStart p) := by
  unfold State.conStart
  split
  · refine State.ThreadsStay.trans ((State.ThreadsStay.refl s).putF (f := F.SEC_CON_STATUS_STATE p) 1 ?_) ⟨rfl, fun _ => ⟨rfl, rfl, rfl, rfl⟩⟩
    simp only [F.SEC_CON_STATUS_STATE, R.SEC_CON_STATUS]
    omega
  · exact .refl s

theorem conBoot_threadsStay (s : State) : s.ThreadsStay s.conBoot := by
  unfold State.conBoot
  split
  · exact .refl s
  · refine State.ThreadsStay.trans (⟨rfl, fun _ => ⟨rfl, rfl, rfl, rfl⟩⟩) (.foldl _ (fun b p => ?_) _)
    exact State.ThreadsStay.trans (⟨rfl, fun _ => ⟨rfl, rfl, rfl, rfl⟩⟩) (conStart_threadsStay _ p)

theorem emitterMend_threadsStay (s : State) : s.ThreadsStay s.emitterMend := by
  obtain ⟨⟨r, j, h, e, heq⟩, hw, -⟩ := emitterMend_mends s
  exact .of_within (by rw [heq]) hw (by decide)

/-- A boot or an engine reset ends after the start, and leaves the threads. -/
theorem operational_threadsStay (s : State) : s.ThreadsStay s.operational := by
  unfold State.operational
  split
  · extract_lets r a
    have ha : s.ThreadsStay a := .refl s
    clear_value a
    refine State.ThreadsStay.trans ?_ (emitterMend_threadsStay _)
    exact ((ha.trans (setDev_threadsStay a 4)).trans (hostReady_threadsStay _ true)).trans (conBoot_threadsStay _)
  · exact .refl s

/-! ### The start itself (R68) -/

/-- A thread that has started where it is enabled. -/
def State.Started (s : State) (u : Fin 16) : Prop :=
  s.flag (F.SEQ_THR_CFG_EN u) = true → (s.thr u).st = .eligible ∧ (s.thr u).pc = s.getF (F.SEQ_THR_ENTRY u)

theorem State.Started.of_stay {u : Fin 16} (h : s.Started u) (k : s.ThreadsStay t) : t.Started u := by
  obtain ⟨hst, hpc, hc, he⟩ := k.2 u
  intro hen
  obtain ⟨h1, h2⟩ := h ((flag_congr hc).symm.trans hen)
  exact ⟨hst.trans h1, hpc.trans (h2.trans (getF_congr he).symm)⟩

/-- The registers that a start takes up are SEQ_CTRL and those of its own thread. -/
theorem seqDeferred_getR (s : State) (n : Nat) {o : Nat} (h1 : o ≠ R.SEQ_CTRL) (h2 : o ≠ R.SEQ_THR_CFG n) (h3 : o ≠ R.SEQ_THR_ENTRY n) :
    (s.seqDeferred n).getR o = s.getR o :=
  ((getR_putR_ne _ _ h3).trans (getR_putR_ne _ _ h2)).trans (getR_putR_ne _ _ h1)

theorem startThr_getR (s : State) (u : Fin 16) (o : Nat) : (s.startThr u).getR o = (s.seqDeferred u).getR o := by
  unfold State.startThr
  dsimp only
  split <;> rfl

theorem startThr_suspended (s : State) (u : Fin 16) : (s.startThr u).flag F.SEQ_STATUS_SUSPENDED = s.flag F.SEQ_STATUS_SUSPENDED := by
  refine flag_congr ((startThr_getR ..).trans (seqDeferred_getR _ _ (by decide) ?_ ?_))
  · simp only [F.SEQ_STATUS_SUSPENDED, R.SEQ_STATUS, R.SEQ_THR_CFG]
    omega
  · simp only [F.SEQ_STATUS_SUSPENDED, R.SEQ_STATUS, R.SEQ_THR_ENTRY]
    omega

theorem startThr_started (s : State) (u : Fin 16) (hs : s.flag F.SEQ_STATUS_SUSPENDED = false) : (s.startThr u).Started u := by
  have hs' := (startThr_suspended s u).trans hs
  intro hen
  rw [flag_congr (startThr_getR ..)] at hen hs'
  rw [getF_congr (f := F.SEQ_THR_ENTRY u) (startThr_getR s u _), State.startThr]
  dsimp only
  rw [if_pos hen, thr_setThr_same, hs']
  exact ⟨rfl, rfl⟩

theorem startThr_other (s : State) {u v : Fin 16} (h : u ≠ v) (k : s.Started u) : (s.startThr v).Started u := by
  have hne : (u : Nat) ≠ v := fun e => h (Fin.ext e)
  have hthr : (s.startThr v).thr u = s.thr u := by
    unfold State.startThr
    dsimp only
    split <;> exact thr_setThr_ne _ _ h
  have hc : (s.startThr v).getR (R.SEQ_THR_CFG u) = s.getR (R.SEQ_THR_CFG u) := by
    refine (startThr_getR ..).trans (seqDeferred_getR _ _ ?_ ?_ ?_) <;> simp only [R.SEQ_THR_CFG, R.SEQ_THR_ENTRY, R.SEQ_CTRL] <;> omega
  have he : (s.startThr v).getR (R.SEQ_THR_ENTRY u) = s.getR (R.SEQ_THR_ENTRY u) := by
    refine (startThr_getR ..).trans (seqDeferred_getR _ _ ?_ ?_ ?_) <;> simp only [R.SEQ_THR_CFG, R.SEQ_THR_ENTRY, R.SEQ_CTRL] <;> omega
  intro hen
  obtain ⟨h1, h2⟩ := k ((flag_congr (f := F.SEQ_THR_CFG_EN u) hc).symm.trans hen)
  rw [hthr, getF_congr (f := F.SEQ_THR_ENTRY u) he]
  exact ⟨h1, h2⟩

/-- Thread after thread starts. -/
theorem startAll_started (s : State) (hs : s.flag F.SEQ_STATUS_SUSPENDED = false) (u : Fin 16) :
    (s.forEach 16 fun a n => a.startThr (Fin.ofNat 16 n)).Started u := by
  have hrun : ∀ (l : List Nat) (a : State), (∀ n ∈ l, n < 16) → a.flag F.SEQ_STATUS_SUSPENDED = false → u.val ∈ l ∨ a.Started u →
      (l.foldl (fun a n => a.startThr (Fin.ofNat 16 n)) a).Started u := by
    intro l
    induction l with
    | nil => exact fun a _ _ h => h.resolve_left (List.not_mem_nil)
    | cons n l ih =>
      intro a hl ha h
      refine ih _ (fun m hm => hl m (List.mem_cons_of_mem n hm)) ((startThr_suspended ..).trans ha) ?_
      by_cases hn : n = u.val
      · subst hn
        beta_reduce
        rw [show Fin.ofNat 16 u.val = u from Fin.ext (Nat.mod_eq_of_lt u.isLt)]
        exact Or.inr (startThr_started a u ha)
      · have hne : u ≠ Fin.ofNat 16 n := fun e => hn (by rw [e, Fin.val_ofNat, Nat.mod_eq_of_lt (hl n (List.mem_cons_self ..))])
        exact h.imp (fun h => (List.mem_cons.1 h).resolve_left fun e => hn e.symm) (startThr_other a hne)
  exact hrun (List.range 16) s (fun n hn => List.mem_range.1 hn) hs (Or.inl (List.mem_range.2 u.isLt))

theorem startThr_startDue (s : State) (u : Fin 16) : (s.startThr u).seq.startDue = s.seq.startDue := by
  unfold State.startThr
  dsimp only
  split <;> rfl

theorem startAll_startDue (s : State) : (s.forEach 16 fun a n => a.startThr (Fin.ofNat 16 n)).seq.startDue = s.seq.startDue := by
  unfold State.forEach
  generalize List.range 16 = l
  induction l generalizing s with
  | nil => rfl
  | cons n l ih => exact (ih _).trans (startThr_startDue ..)

/-- The state in which every enabled thread has started. -/
def State.startedAll (s : State) : State :=
  ({ s with seq := { s.seq with startDue := false } } : State).forEach 16 fun a n => a.startThr (Fin.ofNat 16 n)

theorem startThreads_eq (s : State) :
    s.startThreads = ({ s.startedAll.freqAcqAll with cel := { s.startedAll.freqAcqAll.cel with lastPick := none } } : State).operational := by
  rfl

/-- What follows the start of the threads. -/
theorem startThreads_stay (s : State) : s.startedAll.ThreadsStay s.startThreads := by
  have h := freqAcqAll_threadsStay s.startedAll
  rw [startThreads_eq]
  generalize s.startedAll.freqAcqAll = b at h
  exact h.trans (State.ThreadsStay.trans ⟨rfl, fun _ => ⟨rfl, rfl, rfl, rfl⟩⟩ (operational_threadsStay _))

theorem threadStart_leads (hd : s.seq.startDue = true)
    (hst : (s.devIs 2 || s.devIs 4 || s.devIs 6 || (s.devIs 5 && s.rst.stage == .emptied)) = true)
    (hs : s.flag F.SEQ_STATUS_SUSPENDED = false) : Leads s .threadStart fun x => x.seq.startDue = false
      ∧ ∀ u : Fin 16, x.flag (F.SEQ_THR_CFG_EN u) = true → (x.thr u).st = .eligible ∧ (x.thr u).pc = x.getF (F.SEQ_THR_ENTRY u) := by
  have h := startThreads_stay s
  exact ⟨_, congrArg Host.Outcome.next (if_pos (by rw [hd, hst]; rfl)), h.1.trans (startAll_startDue _),
    fun u => (startAll_started { s with seq := { s.seq with startDue := false } } hs u).of_stay h⟩

/-- Settles O33, command by command. -/
theorem threadsAreReloadedOverrunAndWoken : Obligations.ThreadsAreReloadedOverrunAndWoken := by
  intro s t
  exact ⟨budgetReload_leads, fun he ho hr hc => ⟨overrun_preempts he ho hr hc, overrun_halts he ho hr hc⟩, fun k => faultHandover_leads,
    threadRestart_leads, threadStart_leads, fun hst hm => ⟨waitWake_leads hst hm, fun d => timeDeadline_leads hst hm⟩⟩

end Sys2Proof.Machine

end

/-! ## Feedback channels: moves, and what they leave (R260 to R262, R266, R272) -/

section

namespace Sys2Proof.Machine

variable {s t u : State} {c k : Fin 18}

@[simp] theorem fbkOf_updFbk_same (s : State) (c : Fin 18) (f : Fbk → Fbk) : (s.updFbk c f).fbkOf c = f (s.fbkOf c) := by
  simp [State.fbkOf, State.updFbk]

theorem fbkOf_updFbk_ne (s : State) {c k : Fin 18} (f : Fbk → Fbk) (h : k ≠ c) : (s.updFbk c f).fbkOf k = s.fbkOf k := by
  have : (c : Nat) ≠ (k : Nat) := fun e => h (Fin.ext e.symm)
  simp [State.fbkOf, State.updFbk, this]

@[simp] theorem updFbk_getR (s : State) (c : Fin 18) (f : Fbk → Fbk) (o : Nat) : (s.updFbk c f).getR o = s.getR o := rfl

@[simp] theorem updFbk_getF (s : State) (c : Fin 18) (f : Fbk → Fbk) (g : Fld) : (s.updFbk c f).getF g = s.getF g := rfl

@[simp] theorem updFbk_flag (s : State) (c : Fin 18) (f : Fbk → Fbk) (g : Fld) : (s.updFbk c f).flag g = s.flag g := rfl

@[simp] theorem updFbk_pos (s : State) (c : Fin 18) (f : Fbk → Fbk) (n : Nat) : (s.updFbk c f).pos n = s.pos n := rfl

/-! ### Compare units -/

/-- A register of a feedback channel. -/
def fbkReg (o : Nat) : Prop := 0xD0000 ≤ o ∧ o < 0xD0480

/-- From `s` to `t` compare units have been judged: the channels and their registers stay. -/
def State.Judges (s t : State) : Prop := t.fbk = s.fbk ∧ ∀ o, fbkReg o → t.getR o = s.getR o

theorem State.Judges.refl (s : State) : s.Judges s := ⟨rfl, fun _ _ => rfl⟩

theorem State.Judges.trans (h : s.Judges t) (h' : t.Judges u) : s.Judges u := ⟨h'.1.trans h.1, fun o ho => (h'.2 o ho).trans (h.2 o ho)⟩

theorem State.Judges.putR (h : s.Judges t) {o : Nat} (w : Word) (ho : ¬fbkReg o) : s.Judges (t.putR o w) :=
  h.trans ⟨rfl, fun _ hk => getR_putR_ne _ _ fun e => ho (e ▸ hk)⟩

theorem State.Judges.incR (h : s.Judges t) {o : Nat} (n : Nat) (ho : ¬fbkReg o) : s.Judges (t.incR o n) :=
  h.trans ⟨rfl, fun _ hk => getR_incR_ne _ _ fun e => ho (e ▸ hk)⟩

theorem State.Judges.fire (h : s.Judges t) (x n : Nat) : s.Judges (t.fire x n) := by
  obtain ⟨r, q, l, hf⟩ := fire_frame t x n false
  refine h.trans ⟨by rw [hf], fun o ho => fire_within t x n false o ?_⟩
  simp only [fbkReg] at ho
  simp only [List.mem_singleton]
  omega

/-- The registers of a compare unit are none of a channel. -/
theorem not_fbkReg_cmp {o : Nat} (u k : Nat) (h : o = 0xD1000 + k + 0x20 * u) : ¬fbkReg o := by
  simp only [fbkReg]
  omega

theorem topFire_judges (h : s.Judges t) (i : Fin 6) (ts : Nat) : s.Judges (t.topFire i ts) := by
  have hst : ¬fbkReg (F.DEC_STATUS_STATE i).off := by
    simp only [fbkReg, F.DEC_STATUS_STATE, R.DEC_STATUS]
    omega
  unfold State.topFire
  extract_lets n cur waits
  split
  · have ha : s.Judges (t.updStn i fun x => { x with top := true, topPhase := x.line.phaseAt ts }) := h.trans ⟨rfl, fun _ _ => rfl⟩
    unfold State.armFollow
    split
    · exact ha.putR _ hst
    · exact ha
  · exact h

theorem fireCmp_judges (h : s.Judges t) (n ts : Nat) : s.Judges (t.fireCmp n ts) := by
  unfold State.fireCmp
  extract_lets a b d m e
  have ha : s.Judges a := ((h.incR _ (not_fbkReg_cmp n 0x14 rfl)).putR _ (not_fbkReg_cmp n 0x0C rfl)).putR _
    (not_fbkReg_cmp n 0x10 (by simp only [R.FBK_CMP_TS_LO]; omega))
  clear_value a
  have hb : s.Judges b := by
    simp only [b]
    split
    · exact ha.putR _ (not_fbkReg_cmp n 0x04 rfl)
    · exact ha.putR _ (not_fbkReg_cmp n 0 (by simp only [F.FBK_CMP_CFG_EN, R.FBK_CMP_CFG]))
  clear_value b
  have hd : s.Judges d := by
    simp only [d]
    split
    · exact hb.fire 0x01 n
    · exact hb
  clear_value d
  have he : s.Judges e := by
    simp only [e]
    split
    · exact hd.trans ⟨rfl, fun _ _ => rfl⟩
    · exact hd
  clear_value e
  split
  · exact topFire_judges he _ _
  · exact he

theorem compares_judges (s : State) (c : Nat) (old new : Word) (ts : Nat) : s.Judges (s.compares c old new ts) := by
  unfold State.compares State.forEach
  generalize List.range 16 = l
  suffices h : ∀ b, s.Judges b → s.Judges (l.foldl (fun a u =>
      if a.flag (F.FBK_CMP_CFG_EN u) && a.getF (F.FBK_CMP_CFG_CH u) == c then
        if crosses ((a.setCmpAt u none).getF (F.FBK_CMP_CFG_DIR u)) ((a.cmpAt.toList.getD u none).getD old) new
          ((a.setCmpAt u none).getR (R.FBK_CMP_POS u)) then (a.setCmpAt u none).fireCmp u ts else a.setCmpAt u none
      else a) b) from h s (.refl s)
  induction l with
  | nil => exact fun _ h => h
  | cons n l ih =>
    intro b hb
    refine ih _ ?_
    beta_reduce
    split
    · have hset : s.Judges (b.setCmpAt n none) := hb.trans ⟨rfl, fun _ _ => rfl⟩
      split
      · exact fireCmp_judges hset n ts
      · exact hset
    · exact hb

/-! ### Moves -/

/-- From `s` to `t` channel `c` has moved by `d`: only its position and the direction bit of its status change among the channels'
registers, and no channel's code. -/
def State.Moves (s : State) (c : Fin 18) (d : Int) (t : State) : Prop :=
  t.pos c = s.pos c + BitVec.ofInt 32 d
  ∧ (∀ k, (t.fbkOf k).sector = (s.fbkOf k).sector ∧ (t.fbkOf k).ab = (s.fbkOf k).ab)
  ∧ (∀ o, fbkReg o → o ≠ R.FBK_POS c → o ≠ R.FBK_STATUS c → t.getR o = s.getR o)
  ∧ ∀ f : Fld, f.off = R.FBK_STATUS c → 1 ≤ f.lo → f.lo + f.w ≤ 32 → t.getF f = s.getF f

theorem State.Moves.refl (s : State) (c : Fin 18) : s.Moves c 0 s := ⟨by simp, fun _ => ⟨rfl, rfl⟩, fun _ _ _ _ => rfl, fun _ _ _ _ => rfl⟩

theorem State.Moves.flag (h : s.Moves c d t) {f : Fld} (ho : f.off = R.FBK_STATUS c) (h1 : 1 ≤ f.lo) (h2 : f.lo + f.w ≤ 32) :
    t.flag f = s.flag f := flag_eq_of_getF (h.2.2.2 f ho h1 h2)

theorem fbkReg_of {o : Nat} (c : Fin 18) (j : Nat) (hj : j < 0x40) (h : o = 0xD0000 + j + 0x40 * c) : fbkReg o := by
  simp only [fbkReg]
  omega

theorem fbkReg_pos (c : Fin 18) : fbkReg (R.FBK_POS c) := fbkReg_of c 8 (by decide) rfl

theorem fbkReg_status (c : Fin 18) : fbkReg (R.FBK_STATUS c) := fbkReg_of c 4 (by decide) rfl

theorem pos_ne_status (c : Fin 18) : R.FBK_POS c ≠ R.FBK_STATUS c := by
  simp only [R.FBK_POS, R.FBK_STATUS]
  omega

/-- What DIR leaves. -/
theorem dirFollow_frame (s : State) (c : Fin 18) (p : Word) :
    (∀ k, ((s.dirFollow c p).fbkOf k).sector = (s.fbkOf k).sector ∧ ((s.dirFollow c p).fbkOf k).ab = (s.fbkOf k).ab)
    ∧ (∀ o, o ≠ R.FBK_STATUS c → (s.dirFollow c p).getR o = s.getR o)
    ∧ ∀ f : Fld, f.off = R.FBK_STATUS c → 1 ≤ f.lo → f.lo + f.w ≤ 32 → (s.dirFollow c p).getF f = s.getF f := by
  have hkeep : ∀ a : State, ∀ k, ((a.updFbk c fun f => { f with peak := p }).fbkOf k).sector = (a.fbkOf k).sector
      ∧ ((a.updFbk c fun f => { f with peak := p }).fbkOf k).ab = (a.fbkOf k).ab := by
    intro a k
    by_cases hk : k = c
    · subst hk
      rw [fbkOf_updFbk_same]
      exact ⟨rfl, rfl⟩
    · rw [fbkOf_updFbk_ne a _ hk]
      exact ⟨rfl, rfl⟩
  have hsame : ∀ a : State, (a = s ∨ ∃ up, a = s.putB (F.FBK_STATUS_DIR c) up) →
      (∀ o, o ≠ R.FBK_STATUS c → a.getR o = s.getR o)
      ∧ ∀ f : Fld, f.off = R.FBK_STATUS c → 1 ≤ f.lo → f.lo + f.w ≤ 32 → a.getF f = s.getF f := by
    rintro a (rfl | ⟨up, rfl⟩)
    · exact ⟨fun _ _ => rfl, fun _ _ _ _ => rfl⟩
    · exact ⟨fun o ho => getR_putF_ne _ _ _ _ ho, fun f _ h1 h2 => getF_putF_apart (f := F.FBK_STATUS_DIR c) _ (Or.inr ⟨h2, Or.inr h1⟩)⟩
  unfold State.dirFollow
  extract_lets q flip keep
  have hk : (∀ k, (keep.fbkOf k).sector = (s.fbkOf k).sector ∧ (keep.fbkOf k).ab = (s.fbkOf k).ab)
      ∧ (∀ o, o ≠ R.FBK_STATUS c → keep.getR o = s.getR o)
      ∧ ∀ f : Fld, f.off = R.FBK_STATUS c → 1 ≤ f.lo → f.lo + f.w ≤ 32 → keep.getF f = s.getF f := ⟨hkeep s, hsame s (Or.inl rfl)⟩
  have hf : ∀ up, (∀ k, ((flip up).fbkOf k).sector = (s.fbkOf k).sector ∧ ((flip up).fbkOf k).ab = (s.fbkOf k).ab)
      ∧ (∀ o, o ≠ R.FBK_STATUS c → (flip up).getR o = s.getR o)
      ∧ ∀ f : Fld, f.off = R.FBK_STATUS c → 1 ≤ f.lo → f.lo + f.w ≤ 32 → (flip up).getF f = s.getF f :=
    fun up => ⟨hkeep (s.putB (F.FBK_STATUS_DIR c) up), hsame (s.putB (F.FBK_STATUS_DIR c) up) (Or.inr ⟨up, rfl⟩)⟩
  have hs : (∀ k, (s.fbkOf k).sector = (s.fbkOf k).sector ∧ (s.fbkOf k).ab = (s.fbkOf k).ab)
      ∧ (∀ o, o ≠ R.FBK_STATUS c → s.getR o = s.getR o)
      ∧ ∀ f : Fld, f.off = R.FBK_STATUS c → 1 ≤ f.lo → f.lo + f.w ≤ 32 → s.getF f = s.getF f :=
    ⟨fun _ => ⟨rfl, rfl⟩, hsame s (Or.inl rfl)⟩
  clear_value flip keep
  split
  · split
    · exact hk
    · split
      · exact hf false
      · exact hs
  · split
    · exact hk
    · split
      · exact hf true
      · exact hs

theorem stepPos_moves (s : State) (c : Fin 18) (d : Int) (ts : Nat) : s.Moves c d (s.stepPos c d ts) := by
  unfold State.stepPos
  extract_lets old new
  obtain ⟨hc, hr, hf⟩ := dirFollow_frame (s.putR (R.FBK_POS c) new) c new
  obtain ⟨hk, hreg⟩ := compares_judges ((s.putR (R.FBK_POS c) new).dirFollow c new) c old new ts
  generalize ((s.putR (R.FBK_POS c) new).dirFollow c new).compares c old new ts = t at hk hreg
  generalize (s.putR (R.FBK_POS c) new).dirFollow c new = a at hc hr hf hk hreg
  have hfbk : ∀ k, t.fbkOf k = a.fbkOf k := fun k => by rw [State.fbkOf, hk, State.fbkOf]
  refine ⟨?_, fun k => by rw [hfbk]; exact hc k, fun o ho hp hst => ?_, fun f ho h1 h2 => ?_⟩
  · exact (hreg _ (fbkReg_pos c)).trans ((hr _ (pos_ne_status c)).trans (getR_putR_same ..))
  · exact (hreg o ho).trans ((hr o hst).trans (getR_putR_ne _ _ hp))
  · refine (getF_congr (hreg _ (ho ▸ fbkReg_status c))).trans ((hf f ho h1 h2).trans (getF_congr (getR_putR_ne _ _ ?_)))
    rw [ho]
    exact (pos_ne_status c).symm

/-- A count is a move (R267). -/
theorem count_moves (s : State) (c : Fin 18) (d : Int) (ts : Nat) : s.Moves c d (s.count c d ts) := by
  have h := stepPos_moves (s.updFbk c fun f => { f with edges := ((ts, if d < 0 then -1 else 1) :: f.edges).take 2 }) c d ts
  obtain ⟨hp, hk, hr, hf⟩ := h
  refine ⟨hp, fun k => ?_, hr, hf⟩
  obtain ⟨h1, h2⟩ := hk k
  by_cases hkc : k = c
  · subst hkc
    rw [fbkOf_updFbk_same] at h1 h2
    exact ⟨h1, h2⟩
  · rw [fbkOf_updFbk_ne _ _ hkc] at h1 h2
    exact ⟨h1, h2⟩

/-- The sense of counting turns a step by INVERT (R262). -/
theorem sense_eq (s : State) (c : Fin 18) (d : Int) : s.sense c d = (if s.flag (F.FBK_CFG_INVERT c) = true then -1 else 1) * d := by
  unfold State.sense
  split <;> omega

end Sys2Proof.Machine

end

/-! ## Feedback channels: codes, quadrature, index, probes and pins (R261 to R264, R268 to R271, R273) -/

section

namespace Sys2Proof.Machine

variable {s t u : State} {c : Fin 12} {k : Fin 18} {d : Int}

/-! ### Counted errors -/

theorem getR_incR_congr {a b : State} {o : Nat} (n : Nat) (h : a.getR o = b.getR o) : (a.incR o n).getR o = (b.incR o n).getR o := by
  have hinc : ∀ x : State, (x.incR o n).getR o = BitVec.ofNat 32 (satAdd 0xFFFFFFFF (x.getR o).toNat n) := fun x =>
    (getR_putLost ..).trans (getR_putR_same ..)
  rw [hinc, hinc, h]

/-- From `s` to `t` channel `k` has moved by `d`, an error counted if `err`; its status bits above DIR and all codes stay. -/
def State.Counts (s : State) (k : Fin 18) (d : Int) (err : Bool) (t : State) : Prop :=
  t.pos k = s.pos k + BitVec.ofInt 32 d
  ∧ (∀ j, (t.fbkOf j).sector = (s.fbkOf j).sector ∧ (t.fbkOf j).ab = (s.fbkOf j).ab)
  ∧ (∀ f : Fld, f.off = R.FBK_STATUS k → 1 ≤ f.lo → f.lo + f.w ≤ 32 → t.getF f = s.getF f)
  ∧ t.getR (R.FBK_ERR k) = (if err = true then s.incR (R.FBK_ERR k) 1 else s).getR (R.FBK_ERR k)

theorem fbkErr_ne (k : Fin 18) : R.FBK_ERR k ≠ R.FBK_POS k ∧ R.FBK_ERR k ≠ R.FBK_STATUS k := by
  simp only [R.FBK_ERR, R.FBK_POS, R.FBK_STATUS]
  omega

theorem State.Moves.counts (h : s.Moves k d t) : s.Counts k d false t := by
  obtain ⟨hp, hc, hr, hf⟩ := h
  exact ⟨hp, hc, hf, hr _ (fbkReg_of k 0x30 (by decide) rfl) (fbkErr_ne k).1 (fbkErr_ne k).2⟩

theorem State.Counts.incErr (h : s.Counts k d false t) : s.Counts k d true (t.incR (R.FBK_ERR k) 1) := by
  obtain ⟨hp, hc, hf, he⟩ := h
  refine ⟨(getR_incR_ne _ _ (fbkErr_ne k).1.symm).trans hp, hc, fun f ho h1 h2 => ?_, getR_incR_congr 1 he⟩
  exact (getF_congr (getR_incR_ne _ _ (ho ▸ (fbkErr_ne k).2.symm))).trans (hf f ho h1 h2)

theorem State.Counts.refl (s : State) (k : Fin 18) : s.Counts k 0 false s := (State.Moves.refl s k).counts

theorem sensed_counts (s : State) (k : Fin 18) (d : Int) :
    s.Counts k ((if s.flag (F.FBK_CFG_INVERT k) = true then -1 else 1) * d) false (s.count k (s.sense k d) s.tsc.toNat) :=
  sense_eq s k d ▸ (count_moves s k (s.sense k d) s.tsc.toNat).counts

/-- A step of no distance, whatever the sense. -/
theorem still_counts (s : State) (k : Fin 18) : s.Counts k ((if s.flag (F.FBK_CFG_INVERT k) = true then -1 else 1) * 0) false s := by
  rw [Int.mul_zero]
  exact .refl s k

theorem fbkStatus_flag {err : Bool} (h : s.Counts k d err t) {f : Fld} (ho : f.off = R.FBK_STATUS k) (h1 : 1 ≤ f.lo) (h2 : f.lo + f.w ≤ 32) :
    t.flag f = s.flag f := flag_eq_of_getF (h.2.2.1 f ho h1 h2)

/-! ### Hall codes (R261) -/

/-- The channel of a Hall or quadrature input. -/
def chan18 (c : Fin 12) : Fin 18 := c.castLE (by decide)

/-- A valid code `m` sectors on from the last one. -/
def State.hallStep (s : State) (c : Fin 12) (m : Nat) : State :=
  match m with
  | 0 => s
  | 1 => s.count (chan18 c) (s.sense (chan18 c) 1) s.tsc.toNat
  | 5 => s.count (chan18 c) (s.sense (chan18 c) (-1)) s.tsc.toNat
  | 2 => (s.count (chan18 c) (s.sense (chan18 c) 2) s.tsc.toNat).incR (R.FBK_ERR c) 1
  | 4 => (s.count (chan18 c) (s.sense (chan18 c) (-2)) s.tsc.toNat).incR (R.FBK_ERR c) 1
  | _ => s.incR (R.FBK_ERR c) 1

theorem hallStep_counts (s : State) (c : Fin 12) {m : Nat} (h : m < 6) : s.Counts (chan18 c)
    ((if s.flag (F.FBK_CFG_INVERT c) = true then -1 else 1) * ([0, 1, 2, 0, -2, -1] : List Int).getD m 0) (decide (2 ≤ m ∧ m ≤ 4))
    (s.hallStep c m) := by
  interval_cases m
  · exact still_counts s (chan18 c)
  · exact sensed_counts s (chan18 c) 1
  · exact (sensed_counts s (chan18 c) 2).incErr
  · exact (still_counts s (chan18 c)).incErr
  · exact (sensed_counts s (chan18 c) (-2)).incErr
  · exact sensed_counts s (chan18 c) (-1)

/-- The inputs of a code, shown in HALL. -/
def State.hallShown (s : State) (c : Fin 12) (code : BitVec 3) : State :=
  (s.putF (F.FBK_STATUS_HALL c) code.toNat).updFbk (chan18 c) fun f => { f with ab := some (code.toNat % 4) }

/-- A valid code is the channel's sector. -/
def State.hallValid (s : State) (c : Fin 12) (code : BitVec 3) (n : Nat) : State :=
  ((s.hallShown c code).putF (F.FBK_STATUS_HALL_INVALID c) 0).updFbk (chan18 c) fun f => { f with sector := some n }

theorem fbkCfg_ne_status (c : Nat) : R.FBK_CFG c ≠ R.FBK_STATUS c := by
  simp only [R.FBK_CFG, R.FBK_STATUS]
  omega

theorem hallShown_getR (s : State) (c : Fin 12) (code : BitVec 3) (o : Nat) :
    (s.hallShown c code).getR o = (s.putF (F.FBK_STATUS_HALL c) code.toNat).getR o := rfl

theorem hallShown_frame (s : State) (c : Fin 12) (code : BitVec 3) :
    (∀ o, o ≠ R.FBK_STATUS c → (s.hallShown c code).getR o = s.getR o)
    ∧ ((s.hallShown c code).fbkOf (chan18 c)).sector = (s.fbkOf (chan18 c)).sector
    ∧ (s.hallShown c code).getF (F.FBK_STATUS_HALL c) = code.toNat
    ∧ (s.hallShown c code).flag (F.FBK_STATUS_HALL_INVALID c) = s.flag (F.FBK_STATUS_HALL_INVALID c) := by
  refine ⟨fun o ho => ?_, ?_, ?_, ?_⟩
  · rw [hallShown_getR]
    exact getR_putF_ne s (F.FBK_STATUS_HALL c) code.toNat o ho
  · rw [State.hallShown, fbkOf_updFbk_same]
    rfl
  · rw [getF_congr (hallShown_getR s c code _), getF_putF_same s (F.FBK_STATUS_HALL c) code.toNat (by simp [F.FBK_STATUS_HALL])]
    exact Nat.mod_eq_of_lt code.isLt
  · rw [flag_congr (hallShown_getR s c code _)]
    exact flag_putF_apart (f := F.FBK_STATUS_HALL c) code.toNat (Or.inr (by simp [F.FBK_STATUS_HALL, F.FBK_STATUS_HALL_INVALID]))

theorem hallShown_pos (s : State) (c : Fin 12) (code : BitVec 3) : (s.hallShown c code).pos c = s.pos c :=
  (hallShown_frame s c code).1 _ (pos_ne_status (chan18 c))

theorem hallValid_getR (s : State) (c : Fin 12) (code : BitVec 3) (n o : Nat) :
    (s.hallValid c code n).getR o = ((s.hallShown c code).putF (F.FBK_STATUS_HALL_INVALID c) 0).getR o := rfl

theorem hallValid_frame (s : State) (c : Fin 12) (code : BitVec 3) (n : Nat) :
    (∀ o, o ≠ R.FBK_STATUS c → (s.hallValid c code n).getR o = s.getR o) ∧ ((s.hallValid c code n).fbkOf (chan18 c)).sector = some n
    ∧ (s.hallValid c code n).getF (F.FBK_STATUS_HALL c) = code.toNat ∧ (s.hallValid c code n).flag (F.FBK_STATUS_HALL_INVALID c) = false := by
  obtain ⟨hr, -, hh, -⟩ := hallShown_frame s c code
  refine ⟨fun o ho => ?_, ?_, ?_, ?_⟩
  · rw [hallValid_getR, getR_putF_ne _ (F.FBK_STATUS_HALL_INVALID c) 0 o ho]
    exact hr o ho
  · rw [State.hallValid, fbkOf_updFbk_same]
  · rw [getF_congr (hallValid_getR s c code n _), getF_putF_apart (f := F.FBK_STATUS_HALL_INVALID c) 0
      (Or.inr (by simp [F.FBK_STATUS_HALL, F.FBK_STATUS_HALL_INVALID]))]
    exact hh
  · rw [flag_congr (hallValid_getR s c code n _)]
    exact flag_putF_same _ (F.FBK_STATUS_HALL_INVALID c) 0 (by simp [F.FBK_STATUS_HALL_INVALID])

theorem hallValid_pos (s : State) (c : Fin 12) (code : BitVec 3) (n : Nat) : (s.hallValid c code n).pos c = s.pos c :=
  (hallValid_frame s c code n).1 _ (pos_ne_status (chan18 c))

section hall

variable {code : BitVec 3} {n o : Nat}

/-- What a code does to a Hall channel that shows its inputs in `a`. -/
def State.hallTaken (a : State) (c : Fin 12) (code : BitVec 3) : State :=
  match hallSector code.toNat with
  | none => if a.flag (F.FBK_STATUS_HALL_INVALID c) then a else (a.putF (F.FBK_STATUS_HALL_INVALID c) 1).raise Ev.FBK_HALL_INVALID c
  | some n =>
    let b := a.putF (F.FBK_STATUS_HALL_INVALID c) 0
    let old := (b.fbkOf (chan18 c)).sector
    let d := b.updFbk (chan18 c) fun f => { f with sector := some n }
    match old with
    | none => d
    | some o => d.hallStep c ((n + 6 - o) % 6)

theorem exec_hallEdge (hm : s.getF (F.FBK_CFG_MODE c) = 1) : exec (.hallEdge c code) s = .next ((s.hallShown c code).hallTaken c code) := by
  have hm' : (s.putF (F.FBK_STATUS_HALL c) code.toNat).getF (F.FBK_CFG_MODE c) = 1 :=
    (getF_putF_off s (F.FBK_STATUS_HALL c) _ _ (fbkCfg_ne_status c)).trans hm
  change execHallEdge c code s = _
  unfold execHallEdge
  extract_lets k a b b1 old
  have hb : b = s.hallShown c code := if_neg (by rw [hm']; decide)
  have hmb : b.getF (F.FBK_CFG_MODE c) = 1 := by
    rw [hb]
    exact (getF_congr ((hallShown_frame s c code).1 _ (fbkCfg_ne_status c))).trans hm
  have hold : ((b.putF (F.FBK_STATUS_HALL_INVALID c) 0).fbkOf (chan18 c)).sector = old := rfl
  rw [if_pos hmb, ← hb, State.hallTaken]
  cases hallSector code.toNat with
  | none => rfl
  | some n =>
    dsimp only
    rw [hold]
    clear_value old
    cases old with
    | none => rfl
    | some o =>
      have hm6 : (n + 6 - o) % 6 < 6 := Nat.mod_lt _ (by decide)
      generalize (n + 6 - o) % 6 = m at hm6
      interval_cases m <;> rfl

theorem exec_hallEdge_invalid (hm : s.getF (F.FBK_CFG_MODE c) = 1) (hn : hallSector code.toNat = none) :
    exec (.hallEdge c code) s = .next (if (s.hallShown c code).flag (F.FBK_STATUS_HALL_INVALID c) = true then s.hallShown c code
      else ((s.hallShown c code).putF (F.FBK_STATUS_HALL_INVALID c) 1).raise Ev.FBK_HALL_INVALID c) := by
  rw [exec_hallEdge hm]
  generalize s.hallShown c code = a
  unfold State.hallTaken
  rw [hn]

theorem hallTaken_valid (a : State) (hn : hallSector code.toNat = some n) : a.hallTaken c code = match (a.fbkOf (chan18 c)).sector with
    | none => (a.putF (F.FBK_STATUS_HALL_INVALID c) 0).updFbk (chan18 c) fun f => { f with sector := some n }
    | some o => ((a.putF (F.FBK_STATUS_HALL_INVALID c) 0).updFbk (chan18 c) fun f => { f with sector := some n }).hallStep c ((n + 6 - o) % 6) := by
  have hsec : ((a.putF (F.FBK_STATUS_HALL_INVALID c) 0).fbkOf (chan18 c)).sector = (a.fbkOf (chan18 c)).sector := rfl
  unfold State.hallTaken
  rw [hn]
  dsimp only
  rw [hsec]

theorem exec_hallEdge_first (hm : s.getF (F.FBK_CFG_MODE c) = 1) (hn : hallSector code.toNat = some n)
    (ho : (s.fbkOf (chan18 c)).sector = none) : exec (.hallEdge c code) s = .next (s.hallValid c code n) := by
  have ho' := (hallShown_frame s c code).2.1.trans ho
  rw [exec_hallEdge hm, hallTaken_valid _ hn, ho', State.hallValid]

theorem exec_hallEdge_valid (hm : s.getF (F.FBK_CFG_MODE c) = 1) (hn : hallSector code.toNat = some n)
    (ho : (s.fbkOf (chan18 c)).sector = some o) :
    exec (.hallEdge c code) s = .next ((s.hallValid c code n).hallStep c ((n + 6 - o) % 6)) := by
  have ho' := (hallShown_frame s c code).2.1.trans ho
  rw [exec_hallEdge hm, hallTaken_valid _ hn, ho', State.hallValid]

theorem hallEdge_step (hm : s.getF (F.FBK_CFG_MODE c) = 1) (hn : hallSector code.toNat = some n)
    (ho : (s.fbkOf (chan18 c)).sector = some o) :
    Leads s (.hallEdge c code) fun t => (t.fbkOf (chan18 c)).sector = some n ∧ t.getF (F.FBK_STATUS_HALL c) = code.toNat
      ∧ t.flag (F.FBK_STATUS_HALL_INVALID c) = false
      ∧ t.pos c = s.pos c + BitVec.ofInt 32 ((if s.flag (F.FBK_CFG_INVERT c) = true then -1 else 1)
          * ([0, 1, 2, 0, -2, -1] : List Int).getD ((n + 6 - o) % 6) 0)
      ∧ t.getR (R.FBK_ERR c) = (if 2 ≤ (n + 6 - o) % 6 ∧ (n + 6 - o) % 6 ≤ 4 then s.incR (R.FBK_ERR c) 1 else s).getR (R.FBK_ERR c) := by
  have hexec := exec_hallEdge_valid hm hn ho
  obtain ⟨hr, hs, hh, hi⟩ := hallValid_frame s c code n
  have hp := hallValid_pos s c code n
  have hinv : (s.hallValid c code n).flag (F.FBK_CFG_INVERT c) = s.flag (F.FBK_CFG_INVERT c) := flag_congr (hr _ (fbkCfg_ne_status c))
  have herr : (s.hallValid c code n).getR (R.FBK_ERR c) = s.getR (R.FBK_ERR c) := hr _ (fbkErr_ne (chan18 c)).2
  have hm6 : (n + 6 - o) % 6 < 6 := Nat.mod_lt _ (by decide)
  have hc := hallStep_counts (s.hallValid c code n) c hm6
  rw [hinv] at hc
  generalize (n + 6 - o) % 6 = m at hexec hc hm6
  generalize s.hallValid c code n = a at hexec hc hp hs hh hi herr
  generalize a.hallStep c m = b at hexec hc
  have hfl := fbkStatus_flag hc (f := F.FBK_STATUS_HALL_INVALID c) rfl (by simp [F.FBK_STATUS_HALL_INVALID])
    (by simp [F.FBK_STATUS_HALL_INVALID])
  obtain ⟨hpos, hcode, hst, he⟩ := hc
  refine ⟨b, hexec, (hcode _).1.trans hs, (hst (F.FBK_STATUS_HALL c) rfl (by simp [F.FBK_STATUS_HALL]) (by simp [F.FBK_STATUS_HALL])).trans hh,
    hfl.trans hi, hpos.trans (by rw [show a.pos (chan18 c) = s.pos c from hp]), he.trans ?_⟩
  by_cases hj : 2 ≤ m ∧ m ≤ 4
  · rw [if_pos (decide_eq_true hj), if_pos hj]
    exact getR_incR_congr 1 herr
  · rw [if_neg (by simpa using hj), if_neg hj]
    exact herr

theorem hallEdge_first (hm : s.getF (F.FBK_CFG_MODE c) = 1) (hn : hallSector code.toNat = some n)
    (ho : (s.fbkOf (chan18 c)).sector = none) :
    Leads s (.hallEdge c code) fun t => t.pos c = s.pos c ∧ (t.fbkOf (chan18 c)).sector = some n := by
  exact ⟨_, exec_hallEdge_first hm hn ho, hallValid_pos .., (hallValid_frame s c code n).2.1⟩

/-- A code that is none, reported. -/
def State.hallBad (a : State) (c : Fin 12) : State := (a.putF (F.FBK_STATUS_HALL_INVALID c) 1).raise Ev.FBK_HALL_INVALID c

theorem hallBad_getR (a : State) (c : Fin 12) (o : Nat) : (a.hallBad c).getR o = (a.putF (F.FBK_STATUS_HALL_INVALID c) 1).getR o := rfl

theorem hallBad_fbkOf (a : State) (c : Fin 12) (k : Fin 18) : (a.hallBad c).fbkOf k = a.fbkOf k := rfl

theorem hallBad_pos (a : State) (c : Fin 12) : (a.hallBad c).pos c = a.pos c :=
  (hallBad_getR a c _).trans (getR_putF_ne a (F.FBK_STATUS_HALL_INVALID c) 1 _ (pos_ne_status (chan18 c)))

theorem hallBad_flag (a : State) (c : Fin 12) : (a.hallBad c).flag (F.FBK_STATUS_HALL_INVALID c) = true := by
  rw [flag_congr (hallBad_getR a c _), flag_putF_same a (F.FBK_STATUS_HALL_INVALID c) 1 (by simp [F.FBK_STATUS_HALL_INVALID])]
  simp [F.FBK_STATUS_HALL_INVALID]

theorem hallEdge_invalid (hm : s.getF (F.FBK_CFG_MODE c) = 1) (hn : hallSector code.toNat = none) :
    Leads s (.hallEdge c code) fun t => t.pos c = s.pos c ∧ (t.fbkOf (chan18 c)).sector = (s.fbkOf (chan18 c)).sector
      ∧ t.flag (F.FBK_STATUS_HALL_INVALID c) = true
      ∧ (s.flag (F.FBK_STATUS_HALL_INVALID c) = false → t.Arisen Ev.FBK_HALL_INVALID c)
      ∧ (s.flag (F.FBK_STATUS_HALL_INVALID c) = true → t.ev = s.ev) := by
  have hexec := exec_hallEdge_invalid hm hn
  obtain ⟨-, hs, -, hi⟩ := hallShown_frame s c code
  have hp := hallShown_pos s c code
  have hev : (s.hallShown c code).ev = s.ev := rfl
  generalize s.hallShown c code = a at hexec hs hi hp hev
  by_cases hf : s.flag (F.FBK_STATUS_HALL_INVALID c) = true
  · rw [if_pos (hi.trans hf)] at hexec
    exact ⟨a, hexec, hp, hs, hi.trans hf, fun h => absurd hf (by simp [h]), fun _ => hev⟩
  · rw [if_neg (by rw [hi]; exact hf)] at hexec
    exact ⟨a.hallBad c, hexec, (hallBad_pos a c).trans hp, (congrArg Fbk.sector (hallBad_fbkOf a c _)).trans hs, hallBad_flag a c,
      fun _ => arisen_raise .., fun h => absurd h hf⟩

theorem hallEdge_other (hm : s.getF (F.FBK_CFG_MODE c) ≠ 1) :
    Leads s (.hallEdge c code) fun t => t.pos c = s.pos c ∧ t.getF (F.FBK_STATUS_HALL c) = code.toNat ∧ t.ev = s.ev := by
  have hexec : ∃ t, exec (.hallEdge c code) s = .next t ∧ t.ev = s.ev
      ∧ ∀ o, t.getR o = (s.putF (F.FBK_STATUS_HALL c) code.toNat).getR o := by
    change ∃ t, execHallEdge c code s = .next t ∧ _
    unfold execHallEdge
    extract_lets k a b
    have hb : b.ev = s.ev ∧ ∀ o, b.getR o = a.getR o := by
      simp only [b]
      split <;> exact ⟨rfl, fun _ => rfl⟩
    clear_value b
    obtain ⟨hev, hr⟩ := hb
    have hmb : b.getF (F.FBK_CFG_MODE c) ≠ 1 := by
      rw [getF_congr (hr _), getF_putF_off s (F.FBK_STATUS_HALL c) _ _ (fbkCfg_ne_status c)]
      exact hm
    rw [if_neg hmb]
    exact ⟨_, rfl, hev, hr⟩
  obtain ⟨t, hexec, hev, hr⟩ := hexec
  refine ⟨t, hexec, ?_, ?_, hev⟩
  · exact (hr _).trans (getR_putF_ne s (F.FBK_STATUS_HALL c) code.toNat _ (pos_ne_status (chan18 c)))
  · rw [getF_congr (hr _), getF_putF_same s (F.FBK_STATUS_HALL c) code.toNat (by simp [F.FBK_STATUS_HALL])]
    exact Nat.mod_eq_of_lt code.isLt

end hall

/-! ### Quadrature (R264) -/

section quad

variable {a b : Bool} {p : Nat}

/-- The two inputs of an edge. -/
def abOf (a b : Bool) : Nat := boolNat a + 2 * boolNat b

/-- The inputs, shown and kept. -/
def State.abShown (s : State) (c : Fin 12) (a b : Bool) : State :=
  (s.putF (F.FBK_STATUS_HALL c) (s.getF (F.FBK_STATUS_HALL c) / 4 * 4 + abOf a b)).updFbk (chan18 c) fun f => { f with ab := some (abOf a b) }

/-- A change of phase by `m` quarters. -/
def State.quadStep (s : State) (c : Fin 12) (m : Nat) : State :=
  match m with
  | 0 => s
  | 1 => s.count (chan18 c) (s.sense (chan18 c) 1) s.tsc.toNat
  | 3 => s.count (chan18 c) (s.sense (chan18 c) (-1)) s.tsc.toNat
  | _ => s.incR (R.FBK_ERR c) 1

theorem quadStep_counts (s : State) (c : Fin 12) {m : Nat} (h : m < 4) : s.Counts (chan18 c)
    ((if s.flag (F.FBK_CFG_INVERT c) = true then -1 else 1) * ([0, 1, 0, -1] : List Int).getD m 0) (decide (m = 2)) (s.quadStep c m) := by
  interval_cases m
  · exact still_counts s (chan18 c)
  · exact sensed_counts s (chan18 c) 1
  · exact (still_counts s (chan18 c)).incErr
  · exact sensed_counts s (chan18 c) (-1)

theorem abShown_frame (s : State) (c : Fin 12) (a b : Bool) : (s.abShown c a b).pos c = s.pos c
    ∧ ((s.abShown c a b).fbkOf (chan18 c)).ab = some (abOf a b) ∧ ∀ o, o ≠ R.FBK_STATUS c → (s.abShown c a b).getR o = s.getR o := by
  have hr : ∀ o, o ≠ R.FBK_STATUS c → (s.abShown c a b).getR o = s.getR o := fun o ho =>
    getR_putF_ne s (F.FBK_STATUS_HALL c) (s.getF (F.FBK_STATUS_HALL c) / 4 * 4 + abOf a b) o ho
  refine ⟨hr _ (pos_ne_status (chan18 c)), ?_, hr⟩
  rw [State.abShown, fbkOf_updFbk_same]

theorem exec_quadratureEdge (s : State) (c : Fin 12) (a b : Bool) : exec (.quadratureEdge c a b) s = .next (
    if (s.abShown c a b).getF (F.FBK_CFG_MODE c) = 2 then
      (s.abShown c a b).quadStep c ((quadPhase (abOf a b) + 4 - quadPhase (((s.fbkOf (chan18 c)).ab).getD (abOf a b))) % 4)
    else s.abShown c a b) := rfl

theorem quadratureEdge_step (hm : s.getF (F.FBK_CFG_MODE c) = 2) (ho : (s.fbkOf (chan18 c)).ab = some p) :
    Leads s (.quadratureEdge c a b) fun t => (t.fbkOf (chan18 c)).ab = some (abOf a b)
      ∧ t.pos c = s.pos c + BitVec.ofInt 32 ((if s.flag (F.FBK_CFG_INVERT c) = true then -1 else 1)
          * ([0, 1, 0, -1] : List Int).getD ((quadPhase (abOf a b) + 4 - quadPhase p) % 4) 0)
      ∧ t.getR (R.FBK_ERR c) = (if (quadPhase (abOf a b) + 4 - quadPhase p) % 4 = 2 then s.incR (R.FBK_ERR c) 1
          else s).getR (R.FBK_ERR c) := by
  obtain ⟨hp, hab, hr⟩ := abShown_frame s c a b
  have hexec := exec_quadratureEdge s c a b
  rw [if_pos ((getF_congr (hr _ (fbkCfg_ne_status c))).trans hm), ho, Option.getD_some] at hexec
  have hinv : (s.abShown c a b).flag (F.FBK_CFG_INVERT c) = s.flag (F.FBK_CFG_INVERT c) := flag_congr (hr _ (fbkCfg_ne_status c))
  have herr : (s.abShown c a b).getR (R.FBK_ERR c) = s.getR (R.FBK_ERR c) := hr _ (fbkErr_ne (chan18 c)).2
  have hc := quadStep_counts (s.abShown c a b) c (m := (quadPhase (abOf a b) + 4 - quadPhase p) % 4) (Nat.mod_lt _ (by decide))
  rw [hinv] at hc
  generalize (quadPhase (abOf a b) + 4 - quadPhase p) % 4 = m at hexec hc
  obtain ⟨hpos, hcode, -, he⟩ := hc
  refine ⟨_, hexec, (hcode _).2.trans hab, hpos.trans (by rw [show (s.abShown c a b).pos (chan18 c) = s.pos c from hp]), he.trans ?_⟩
  by_cases hj : m = 2
  · rw [if_pos (decide_eq_true hj), if_pos hj]
    exact getR_incR_congr 1 herr
  · rw [if_neg (by simpa using hj), if_neg hj]
    exact herr

theorem quadratureEdge_still (h : s.getF (F.FBK_CFG_MODE c) ≠ 2 ∨ (s.fbkOf (chan18 c)).ab = none) :
    Leads s (.quadratureEdge c a b) fun t => t.pos c = s.pos c ∧ (t.fbkOf (chan18 c)).ab = some (abOf a b)
      ∧ t.getR (R.FBK_ERR c) = s.getR (R.FBK_ERR c) := by
  obtain ⟨hp, hab, hr⟩ := abShown_frame s c a b
  have hmode : (s.abShown c a b).getF (F.FBK_CFG_MODE c) = s.getF (F.FBK_CFG_MODE c) := getF_congr (hr _ (fbkCfg_ne_status c))
  have hexec := exec_quadratureEdge s c a b
  have hstill : exec (.quadratureEdge c a b) s = .next (s.abShown c a b) := by
    by_cases hm : s.getF (F.FBK_CFG_MODE c) = 2
    · rw [hexec, if_pos (hmode.trans hm), h.resolve_left fun e => e hm, Option.getD_none, Nat.add_sub_cancel_left]
      rfl
    · rw [hexec, if_neg (by rw [hmode]; exact hm)]
  exact ⟨_, hstill, hp, hab, hr _ (fbkErr_ne (chan18 c)).2⟩

end quad

end Sys2Proof.Machine

end

/-! ## Index, probes and sensor pins (R268 to R271, R273) -/

section

namespace Sys2Proof.Machine

variable {s t u : State} {c : Fin 18}

/-! ### Index (R268, R269) -/

/-- May an edge of the index be taken? -/
def State.indexMay (s : State) (c : Fin 18) : Bool :=
  s.flag (F.FBK_CFG_IDX_EN c) && s.getF (F.FBK_CFG_MODE c) != 0 && (s.getF (F.FBK_CFG_MODE c) != 2 || (s.fbkOf c).ab == some 3)
    && !s.flag (F.FBK_STATUS_IDX_DROPPED c)

theorem exec_indexEdge_own (h : c.val < 12) : exec (.indexEdge c) s = .next (s.indexTake c s.tsc.toNat) := congrArg Host.Outcome.next (if_pos h)

theorem indexEdge_sampled (h : 12 ≤ c.val) (hm : s.getF (F.FBK_CFG_MODE c) = 4 ∨ s.getF (F.FBK_CFG_MODE c) = 5) :
    Leads s (.indexEdge c) fun t => t = s.updFbk c fun f => { f with idxAt := f.idxAt ++ [s.tsc.toNat] } := by
  have hsc : s.isSc c = true := by
    unfold State.isSc
    obtain h | h := hm <;> simp [h]
  exact ⟨_, congrArg Host.Outcome.next ((if_neg (by omega)).trans (if_pos hsc)), rfl⟩

theorem indexEdge_none (h : 12 ≤ c.val) (h4 : s.getF (F.FBK_CFG_MODE c) ≠ 4) (h5 : s.getF (F.FBK_CFG_MODE c) ≠ 5) :
    Leads s (.indexEdge c) fun t => t = s :=
  ⟨_, congrArg Host.Outcome.next ((if_neg (by omega)).trans (if_neg (by simp [State.isSc, h4, h5]))), rfl⟩

theorem indexEdge_ignored (h : c.val < 12) (hm : s.indexMay c = false) : Leads s (.indexEdge c) fun t => t = s :=
  ⟨_, (exec_indexEdge_own h).trans (congrArg _ (if_neg fun e => Bool.noConfusion ((show s.indexMay c = true from e).symm.trans hm))), rfl⟩

/-- A bit of the channel's status above DIR. -/
theorem fbkStatus_apart {f g : Fld} (hg : g.lo + g.w ≤ 32) (h : g.lo + g.w ≤ f.lo ∨ f.lo + f.w ≤ g.lo) : f.Apart g := Or.inr ⟨hg, h⟩

/-- The first index is the reference. -/
theorem indexEdge_reference (h : c.val < 12) (hm : s.indexMay c = true)
    (hv : s.flag (F.FBK_STATUS_IDX_VALID c) = false ∨ s.flag (F.FBK_STATUS_POS_LOST c) = true) :
    Leads s (.indexEdge c) fun t => t.getR (R.FBK_IDX_POS c) = s.pos c ∧ t.flag (F.FBK_STATUS_IDX_VALID c) = true
      ∧ t.flag (F.FBK_STATUS_POS_LOST c) = false ∧ t.pos c = s.pos c := by
  have hcond : ¬s.flag (F.FBK_STATUS_IDX_VALID c) = true ∨ s.flag (F.FBK_STATUS_POS_LOST c) = true := by simpa using hv
  have hidx : R.FBK_IDX_POS c ≠ R.FBK_STATUS c ∧ R.FBK_POS c ≠ R.FBK_IDX_POS c := by
    simp only [R.FBK_IDX_POS, R.FBK_STATUS, R.FBK_POS]
    omega
  refine ⟨_, (exec_indexEdge_own h).trans (congrArg _ ((if_pos hm).trans (if_pos hcond))), ?_, ?_, ?_, ?_⟩
  · exact (getR_putF_ne _ _ _ _ hidx.1).trans ((getR_putF_ne _ _ _ _ hidx.1).trans (getR_putR_same ..))
  · refine (flag_putF_apart (f := F.FBK_STATUS_POS_LOST c) _ (fbkStatus_apart ?_ ?_)).trans
      ((flag_putF_same _ (F.FBK_STATUS_IDX_VALID c) 1 ?_).trans ?_) <;> simp [F.FBK_STATUS_IDX_VALID, F.FBK_STATUS_POS_LOST]
  · exact flag_putF_same _ (F.FBK_STATUS_POS_LOST c) 0 (by simp [F.FBK_STATUS_POS_LOST])
  · exact (getR_putF_ne _ _ _ _ (pos_ne_status c)).trans ((getR_putF_ne _ _ _ _ (pos_ne_status c)).trans (getR_putR_ne _ _ hidx.2))

/-- An error within the window is recorded. -/
def State.indexNear (s : State) (c : Fin 18) : State :=
  ((s.putR (R.FBK_IDX_ERR c) (BitVec.ofInt 32 (s.indexError c))).incR (R.FBK_IDX_CORR c) 1).putF (F.FBK_STATUS_IDX_CONSEC c) 0

theorem indexNear_frame (s : State) (c : Fin 18) : (s.indexNear c).getR (R.FBK_IDX_ERR c) = BitVec.ofInt 32 (s.indexError c)
    ∧ (s.indexNear c).pos c = s.pos c ∧ (s.indexNear c).getR (R.FBK_IDX_CORR c) = (s.incR (R.FBK_IDX_CORR c) 1).getR (R.FBK_IDX_CORR c)
    ∧ (s.indexNear c).getF (F.FBK_STATUS_IDX_CONSEC c) = 0
    ∧ (s.indexNear c).flag (F.FBK_STATUS_SIG_FAULT c) = s.flag (F.FBK_STATUS_SIG_FAULT c) := by
  have hne : ∀ o, o ≠ R.FBK_STATUS c → o ≠ R.FBK_IDX_CORR c → o ≠ R.FBK_IDX_ERR c → (s.indexNear c).getR o = s.getR o := fun o h1 h2 h3 =>
    (getR_putF_ne _ _ _ _ h1).trans ((getR_incR_ne _ _ h2).trans (getR_putR_ne _ _ h3))
  refine ⟨?_, ?_, ?_, ?_, ?_⟩
  · refine (getR_putF_ne _ _ _ _ ?_).trans ((getR_incR_ne _ _ ?_).trans (getR_putR_same ..)) <;>
      simp only [R.FBK_IDX_ERR, R.FBK_STATUS, R.FBK_IDX_CORR, F.FBK_STATUS_IDX_CONSEC] <;> omega
  · refine hne _ (pos_ne_status c) ?_ ?_ <;> simp only [R.FBK_POS, R.FBK_IDX_CORR, R.FBK_IDX_ERR] <;> omega
  · refine (getR_putF_ne _ _ _ _ ?_).trans (getR_incR_congr 1 (getR_putR_ne _ _ ?_)) <;>
      simp only [R.FBK_IDX_ERR, R.FBK_STATUS, R.FBK_IDX_CORR, F.FBK_STATUS_IDX_CONSEC] <;> omega
  · exact getF_putF_same _ (F.FBK_STATUS_IDX_CONSEC c) 0 (by simp [F.FBK_STATUS_IDX_CONSEC])
  · refine (flag_putF_apart (f := F.FBK_STATUS_IDX_CONSEC c) _ (fbkStatus_apart ?_ ?_)).trans
      (flag_congr ((getR_incR_ne _ _ ?_).trans (getR_putR_ne _ _ ?_)))
    · simp [F.FBK_STATUS_SIG_FAULT]
    · exact Or.inl (by simp [F.FBK_STATUS_SIG_FAULT, F.FBK_STATUS_IDX_CONSEC])
    · simp only [F.FBK_STATUS_SIG_FAULT, R.FBK_STATUS, R.FBK_IDX_CORR]
      omega
    · simp only [F.FBK_STATUS_SIG_FAULT, R.FBK_STATUS, R.FBK_IDX_ERR]
      omega

theorem indexTaken_cond (hv : s.flag (F.FBK_STATUS_IDX_VALID c) = true) (hl : s.flag (F.FBK_STATUS_POS_LOST c) = false) :
    ¬(¬s.flag (F.FBK_STATUS_IDX_VALID c) = true ∨ s.flag (F.FBK_STATUS_POS_LOST c) = true) := by simp [hv, hl]

/-- A later index steps the position back by its error, unless a signal fault holds it. -/
theorem indexEdge_corrects (h : c.val < 12) (hm : s.indexMay c = true) (hv : s.flag (F.FBK_STATUS_IDX_VALID c) = true)
    (hl : s.flag (F.FBK_STATUS_POS_LOST c) = false) (he : (s.indexError c).natAbs ≤ s.getF (F.FBK_IDX_WIN c)) :
    Leads s (.indexEdge c) fun t => t.getR (R.FBK_IDX_ERR c) = BitVec.ofInt 32 (s.indexError c)
      ∧ t.pos c = (if s.flag (F.FBK_STATUS_SIG_FAULT c) = true then s.pos c else s.pos c + BitVec.ofInt 32 (-(s.indexError c)))
      ∧ t.getR (R.FBK_IDX_CORR c) = (s.incR (R.FBK_IDX_CORR c) 1).getR (R.FBK_IDX_CORR c)
      ∧ t.getF (F.FBK_STATUS_IDX_CONSEC c) = 0 := by
  obtain ⟨hierr, hpos, hcorr, hcons, hsig⟩ := indexNear_frame s c
  have hexec : exec (.indexEdge c) s = .next (if s.indexError c = 0 ∨ (s.indexNear c).flag (F.FBK_STATUS_SIG_FAULT c) = true then s.indexNear c
      else (s.indexNear c).stepPos c (-(s.indexError c)) s.tsc.toNat) :=
    (exec_indexEdge_own h).trans (congrArg _ ((if_pos hm).trans ((if_neg (indexTaken_cond hv hl)).trans (if_pos he))))
  rw [hsig] at hexec
  by_cases hs : s.flag (F.FBK_STATUS_SIG_FAULT c) = true
  · rw [if_pos (Or.inr hs)] at hexec
    exact ⟨_, hexec, hierr, by rw [if_pos hs]; exact hpos, hcorr, hcons⟩
  · by_cases h0 : s.indexError c = 0
    · rw [if_pos (Or.inl h0)] at hexec
      refine ⟨_, hexec, hierr, ?_, hcorr, hcons⟩
      rw [if_neg hs, h0]
      simpa using hpos
    · rw [if_neg (by rintro (e | e); exacts [h0 e, hs e])] at hexec
      obtain ⟨hp, -, hr, hf⟩ := stepPos_moves (s.indexNear c) c (-(s.indexError c)) s.tsc.toNat
      refine ⟨_, hexec, (hr _ (fbkReg_of c 0x20 (by decide) rfl) ?_ ?_).trans hierr, ?_, (hr _ (fbkReg_of c 0x24 (by decide) rfl) ?_ ?_).trans hcorr,
        (hf (F.FBK_STATUS_IDX_CONSEC c) rfl (by simp [F.FBK_STATUS_IDX_CONSEC]) (by simp [F.FBK_STATUS_IDX_CONSEC])).trans hcons⟩
      · simp only [R.FBK_IDX_ERR, R.FBK_POS]; omega
      · simp only [R.FBK_IDX_ERR, R.FBK_STATUS]; omega
      · rw [if_neg hs, hp, hpos]
      · simp only [R.FBK_IDX_CORR, R.FBK_POS]; omega
      · simp only [R.FBK_IDX_CORR, R.FBK_STATUS]; omega

/-- An error beyond the window is counted and reported. -/
def State.indexFar (s : State) (c : Fin 18) : State :=
  ((s.incR (R.FBK_IDX_MISM c) 1).putF (F.FBK_STATUS_IDX_CONSEC c) (s.getF (F.FBK_STATUS_IDX_CONSEC c) + 1)).raise Ev.INDEX_MISMATCH c

theorem indexFar_getR (s : State) (c : Fin 18) (o : Nat) : (s.indexFar c).getR o
    = ((s.incR (R.FBK_IDX_MISM c) 1).putF (F.FBK_STATUS_IDX_CONSEC c) (s.getF (F.FBK_STATUS_IDX_CONSEC c) + 1)).getR o := rfl

theorem indexFar_frame (s : State) (c : Fin 18) (hn : s.getF (F.FBK_STATUS_IDX_CONSEC c) < 3) : (s.indexFar c).pos c = s.pos c
    ∧ (s.indexFar c).getR (R.FBK_IDX_MISM c) = (s.incR (R.FBK_IDX_MISM c) 1).getR (R.FBK_IDX_MISM c)
    ∧ (s.indexFar c).getF (F.FBK_STATUS_IDX_CONSEC c) = s.getF (F.FBK_STATUS_IDX_CONSEC c) + 1
    ∧ (s.indexFar c).flag (F.FBK_STATUS_IDX_DROPPED c) = s.flag (F.FBK_STATUS_IDX_DROPPED c) := by
  have hf : ∀ o, o ≠ R.FBK_STATUS c → (s.indexFar c).getR o = (s.incR (R.FBK_IDX_MISM c) 1).getR o := fun o ho =>
    (indexFar_getR s c o).trans (getR_putF_ne _ (F.FBK_STATUS_IDX_CONSEC c) _ o ho)
  refine ⟨(hf _ (pos_ne_status c)).trans (getR_incR_ne s 1 ?_), hf _ ?_, ?_, ?_⟩
  · simp only [R.FBK_IDX_MISM, R.FBK_POS]
    omega
  · simp only [R.FBK_IDX_MISM, R.FBK_STATUS]
    omega
  · rw [getF_congr (indexFar_getR s c _), getF_putF_same _ (F.FBK_STATUS_IDX_CONSEC c) _ (by simp [F.FBK_STATUS_IDX_CONSEC])]
    exact Nat.mod_eq_of_lt (show _ < 2 ^ 2 by omega)
  · rw [flag_congr (indexFar_getR s c _), flag_putF_apart (f := F.FBK_STATUS_IDX_CONSEC c) _ (fbkStatus_apart (by simp [F.FBK_STATUS_IDX_DROPPED])
      (Or.inl (by simp [F.FBK_STATUS_IDX_DROPPED, F.FBK_STATUS_IDX_CONSEC])))]
    refine flag_congr (getR_incR_ne s 1 ?_)
    simp only [F.FBK_STATUS_IDX_DROPPED, R.FBK_STATUS, R.FBK_IDX_MISM]
    omega

/-- The use of the index ends. -/
def State.indexDrop (s : State) (c : Fin 18) : State := (s.putF (F.FBK_STATUS_IDX_DROPPED c) 1).raise Ev.FBK_INDEX_DROPPED c

theorem indexDrop_getR (s : State) (c : Fin 18) (o : Nat) : (s.indexDrop c).getR o = (s.putF (F.FBK_STATUS_IDX_DROPPED c) 1).getR o := rfl

theorem indexDrop_frame (s : State) (c : Fin 18) : (∀ o, o ≠ R.FBK_STATUS c → (s.indexDrop c).getR o = s.getR o)
    ∧ (s.indexDrop c).getF (F.FBK_STATUS_IDX_CONSEC c) = s.getF (F.FBK_STATUS_IDX_CONSEC c)
    ∧ (s.indexDrop c).flag (F.FBK_STATUS_IDX_DROPPED c) = true := by
  refine ⟨fun o ho => (indexDrop_getR s c o).trans (getR_putF_ne s (F.FBK_STATUS_IDX_DROPPED c) 1 o ho), ?_, ?_⟩
  · rw [getF_congr (indexDrop_getR s c _)]
    exact getF_putF_apart (f := F.FBK_STATUS_IDX_DROPPED c) 1 (fbkStatus_apart (by simp [F.FBK_STATUS_IDX_CONSEC])
      (Or.inr (by simp [F.FBK_STATUS_IDX_DROPPED, F.FBK_STATUS_IDX_CONSEC])))
  · rw [flag_congr (indexDrop_getR s c _), flag_putF_same s (F.FBK_STATUS_IDX_DROPPED c) 1 (by simp [F.FBK_STATUS_IDX_DROPPED])]
    simp [F.FBK_STATUS_IDX_DROPPED]

theorem indexDrop_arisen (s : State) (c : Fin 18) {x : EvId} {i : Nat} (h : s.Arisen x i) : (s.indexDrop c).Arisen x i :=
  arisen_of_raise _ _ _ _ _ _ _ (State.Arisen.of_eq h rfl rfl)

theorem exec_indexEdge_far (h : c.val < 12) (hm : s.indexMay c = true) (hv : s.flag (F.FBK_STATUS_IDX_VALID c) = true)
    (hl : s.flag (F.FBK_STATUS_POS_LOST c) = false) (he : s.getF (F.FBK_IDX_WIN c) < (s.indexError c).natAbs) :
    exec (.indexEdge c) s = .next (if 3 ≤ s.getF (F.FBK_STATUS_IDX_CONSEC c) + 1 then (s.indexFar c).indexDrop c else s.indexFar c) :=
  (exec_indexEdge_own h).trans (congrArg _ ((if_pos hm).trans ((if_neg (indexTaken_cond hv hl)).trans (if_neg (by omega)))))

theorem indexEdge_mismatch (h : c.val < 12) (hm : s.indexMay c = true) (hv : s.flag (F.FBK_STATUS_IDX_VALID c) = true)
    (hl : s.flag (F.FBK_STATUS_POS_LOST c) = false) (he : s.getF (F.FBK_IDX_WIN c) < (s.indexError c).natAbs)
    (hn : s.getF (F.FBK_STATUS_IDX_CONSEC c) < 3) :
    Leads s (.indexEdge c) fun t => t.pos c = s.pos c ∧ t.Arisen Ev.INDEX_MISMATCH c
      ∧ t.getR (R.FBK_IDX_MISM c) = (s.incR (R.FBK_IDX_MISM c) 1).getR (R.FBK_IDX_MISM c)
      ∧ t.getF (F.FBK_STATUS_IDX_CONSEC c) = s.getF (F.FBK_STATUS_IDX_CONSEC c) + 1
      ∧ t.flag (F.FBK_STATUS_IDX_DROPPED c) = decide (s.getF (F.FBK_STATUS_IDX_CONSEC c) = 2)
      ∧ (s.getF (F.FBK_STATUS_IDX_CONSEC c) = 2 → t.Arisen Ev.FBK_INDEX_DROPPED c) := by
  have hdrop : s.flag (F.FBK_STATUS_IDX_DROPPED c) = false := by
    unfold State.indexMay at hm
    simpa using (Bool.and_eq_true_iff.1 hm).2
  have harr : (s.indexFar c).Arisen Ev.INDEX_MISMATCH c := arisen_raise ..
  have hexec := exec_indexEdge_far h hm hv hl he
  obtain ⟨hpos, hmis, hcons, hd⟩ := indexFar_frame s c hn
  generalize s.indexFar c = a at hexec harr hpos hmis hcons hd
  by_cases h2 : s.getF (F.FBK_STATUS_IDX_CONSEC c) = 2
  · rw [if_pos (by omega)] at hexec
    obtain ⟨hr, hc', hd'⟩ := indexDrop_frame a c
    refine ⟨_, hexec, (hr _ (pos_ne_status c)).trans hpos, indexDrop_arisen a c harr, (hr _ ?_).trans hmis, hc'.trans hcons,
      hd'.trans (decide_eq_true h2).symm, fun _ => arisen_raise ..⟩
    simp only [R.FBK_STATUS, R.FBK_IDX_MISM]
    omega
  · rw [if_neg (by omega)] at hexec
    exact ⟨a, hexec, hpos, harr, hmis, hcons, hd.trans (hdrop.trans (decide_eq_false h2).symm), fun e => absurd e h2⟩

/-! ### Rearm and position writes -/

/-- The use of the index starts anew. -/
def State.rearmed (s : State) (c : Fin 18) : State :=
  ((s.putF (F.FBK_STATUS_IDX_DROPPED c) 0).putF (F.FBK_STATUS_IDX_VALID c) 0).putF (F.FBK_STATUS_IDX_CONSEC c) 0

theorem rearmed_frame (s : State) (c : Fin 18) : (s.rearmed c).flag (F.FBK_STATUS_IDX_DROPPED c) = false
    ∧ (s.rearmed c).flag (F.FBK_STATUS_IDX_VALID c) = false ∧ (s.rearmed c).getF (F.FBK_STATUS_IDX_CONSEC c) = 0
    ∧ ∀ o, o ≠ R.FBK_STATUS c → (s.rearmed c).getR o = s.getR o := by
  have h32 : (F.FBK_STATUS_IDX_DROPPED c).lo + (F.FBK_STATUS_IDX_DROPPED c).w ≤ 32 ∧ (F.FBK_STATUS_IDX_VALID c).lo + (F.FBK_STATUS_IDX_VALID c).w ≤ 32 := by
    simp [F.FBK_STATUS_IDX_DROPPED, F.FBK_STATUS_IDX_VALID]
  unfold State.rearmed
  refine ⟨?_, ?_, getF_putF_same _ (F.FBK_STATUS_IDX_CONSEC c) 0 (by simp [F.FBK_STATUS_IDX_CONSEC]), fun o ho => ?_⟩
  · rw [flag_putF_apart (f := F.FBK_STATUS_IDX_CONSEC c) 0 (fbkStatus_apart h32.1 (Or.inl (by simp [F.FBK_STATUS_IDX_DROPPED, F.FBK_STATUS_IDX_CONSEC]))),
      flag_putF_apart (f := F.FBK_STATUS_IDX_VALID c) 0 (fbkStatus_apart h32.1 (Or.inr (by simp [F.FBK_STATUS_IDX_DROPPED, F.FBK_STATUS_IDX_VALID])))]
    exact flag_putF_same s (F.FBK_STATUS_IDX_DROPPED c) 0 (by simp [F.FBK_STATUS_IDX_DROPPED])
  · rw [flag_putF_apart (f := F.FBK_STATUS_IDX_CONSEC c) 0 (fbkStatus_apart h32.2 (Or.inl (by simp [F.FBK_STATUS_IDX_VALID, F.FBK_STATUS_IDX_CONSEC])))]
    exact flag_putF_same _ (F.FBK_STATUS_IDX_VALID c) 0 (by simp [F.FBK_STATUS_IDX_VALID])
  · rw [getR_putF_ne _ (F.FBK_STATUS_IDX_CONSEC c) 0 o ho, getR_putF_ne _ (F.FBK_STATUS_IDX_VALID c) 0 o ho,
      getR_putF_ne _ (F.FBK_STATUS_IDX_DROPPED c) 0 o ho]

theorem indexRearm_acts (p : Port) {w : Word} (hw : w.getLsbD 0 = true) :
    Leads s (.indexRearm p c w) fun t => t.flag (F.FBK_STATUS_IDX_DROPPED c) = false ∧ t.flag (F.FBK_STATUS_IDX_VALID c) = false
      ∧ t.getF (F.FBK_STATUS_IDX_CONSEC c) = 0 ∧ ∀ o, o ≠ R.FBK_STATUS c → t.getR o = s.getR o :=
  have hexec : exec (.indexRearm p c w) s = .next (s.rearmed c) := congrArg Host.Outcome.next (if_pos hw)
  ⟨_, hexec, rearmed_frame s c⟩

/-- The position is set. -/
def State.posWritten (s : State) (c : Fin 18) (w : Word) : State :=
  ((s.putR (R.FBK_POS c) w).putF (F.FBK_STATUS_POS_LOST c) 0).updFbk c fun f => { f with peak := w }

theorem posWritten_getR (s : State) (c : Fin 18) (w : Word) {o : Nat} (h : o ≠ R.FBK_STATUS c) :
    (s.posWritten c w).getR o = (s.putR (R.FBK_POS c) w).getR o :=
  (updFbk_getR ..).trans (getR_putF_ne _ (F.FBK_STATUS_POS_LOST c) 0 o h)

theorem positionWrite_acts (p : Port) (w : Word) :
    Leads s (.positionWrite p c w) fun t => t.pos c = w ∧ t.flag (F.FBK_STATUS_POS_LOST c) = false ∧ t.pulses = s.pulses
      ∧ t.cmpAt = s.cmpAt ∧ ∀ o, o ≠ R.FBK_STATUS c → o ≠ R.FBK_POS c → t.getR o = s.getR o :=
  have hexec : exec (.positionWrite p c w) s = .next (s.posWritten c w) := rfl
  have hlost : (s.posWritten c w).flag (F.FBK_STATUS_POS_LOST c) = false :=
    (updFbk_flag ..).trans (flag_putF_same _ (F.FBK_STATUS_POS_LOST c) 0 (by simp [F.FBK_STATUS_POS_LOST]))
  ⟨_, hexec, (posWritten_getR s c w (pos_ne_status c)).trans (getR_putR_same ..), hlost, rfl, rfl,
    fun _ h1 h2 => (posWritten_getR s c w h1).trans (getR_putR_ne s w h2)⟩

/-! ### Probes (R270) -/

section probes

variable {p : Fin 8} {rising : Bool}

theorem probeFollow_probes (s : State) (p : Fin 8) : (s.probeFollow p).probes = s.probes := by
  unfold State.probeFollow
  dsimp only
  split <;> rfl

theorem fire_probes (s : State) (x n : Nat) : (s.fire x n).probes = s.probes := by
  obtain ⟨r, q, l, h⟩ := fire_frame s x n false
  rw [h]

/-- What a probe latches. -/
def State.latchNow (s : State) (p : Fin 8) : Latch :=
  { src := s.getF (F.SNS_PRB_CFG_SRC p), tsc := s.tsc.toNat,
    pos := if s.getF (F.SNS_PRB_CFG_SRC p) < 12 then some (s.pos (s.getF (F.SNS_PRB_CFG_SRC p)))
      else if s.getF (F.SNS_PRB_CFG_SRC p) < 18 then none
      else some ((s.ax (Fin.ofNat 20 (s.getF (F.SNS_PRB_CFG_SRC p) - 6))).stepsAt s.tsc.toNat) }

/-- Is the probe on for the edge? -/
def State.probeOn (s : State) (p : Fin 8) (rising : Bool) : Bool :=
  s.flag (F.SNS_PRB_CFG_EN p) && s.bitF (F.SNS_PRB_CFG_EDGE p) (if rising then 0 else 1)

theorem probeLatch_latches (ho : s.probeOn p rising = true) (hl : (s.probes[p]).length < 4) :
    Leads s (.probeLatch p rising) fun t => t.probes[p] = s.probes[p] ++ [s.latchNow p] := by
  have hon := Bool.and_eq_true_iff.1 ho
  have hexec : exec (.probeLatch p rising) s = .next (
      if (s.latchNow p).pos.isSome = true then
        (({ s with probes := s.probes.set p ((s.probes[p]) ++ [s.latchNow p]) } : State).probeFollow p).fire 0x02 p
      else ({ s with probes := s.probes.set p ((s.probes[p]) ++ [s.latchNow p]) } : State).probeFollow p) :=
    congrArg Host.Outcome.next ((if_pos hon).trans (if_pos hl))
  have hset : (s.probes.set p ((s.probes[p]) ++ [s.latchNow p]))[p] = s.probes[p] ++ [s.latchNow p] := by simp
  generalize hx : ({ s with probes := s.probes.set p ((s.probes[p]) ++ [s.latchNow p]) } : State) = x at hexec
  have hxp : (x.probeFollow p).probes[p] = s.probes[p] ++ [s.latchNow p] := by
    rw [probeFollow_probes, ← hx]
    exact hset
  split at hexec
  · refine ⟨_, hexec, ?_⟩
    beta_reduce
    rw [fire_probes]
    exact hxp
  · exact ⟨_, hexec, hxp⟩

theorem probeLatch_overflows (ho : s.probeOn p rising = true) (hl : 4 ≤ (s.probes[p]).length) :
    Leads s (.probeLatch p rising) fun t => t.probes = s.probes ∧ t.flag (F.SNS_PRB_STATUS_OVF p) = true :=
  ⟨_, congrArg Host.Outcome.next ((if_pos (Bool.and_eq_true_iff.1 ho)).trans (if_neg (by omega))), rfl,
    flag_latchF_same _ _ (by simp [F.SNS_PRB_STATUS_OVF]) (by simp [F.SNS_PRB_STATUS_OVF])⟩

theorem probeLatch_off (ho : s.probeOn p rising = false) : Leads s (.probeLatch p rising) fun t => t = s :=
  ⟨_, congrArg Host.Outcome.next (if_neg fun h => by rw [State.probeOn, Bool.and_eq_true_iff.2 h] at ho; cases ho), rfl⟩

theorem probePop_pops (port : Port) {w : Word} (hw : w.getLsbD 0 = true) (hc : s.getF (F.SNS_PRB_STATUS_COUNT p) ≠ 0) :
    Leads s (.probePop port p w) fun t => t.probes[p] = (s.probes[p]).tail := by
  refine ⟨_, congrArg Host.Outcome.next (if_pos ⟨hw, hc⟩), ?_⟩
  beta_reduce
  rw [probeFollow_probes]
  simp

theorem probePop_empty (port : Port) {w : Word} (h : w.getLsbD 0 = false ∨ s.getF (F.SNS_PRB_STATUS_COUNT p) = 0) :
    Leads s (.probePop port p w) fun t => t = s := by
  refine ⟨_, congrArg Host.Outcome.next (if_neg ?_), rfl⟩
  rintro ⟨hw, hc⟩
  obtain h | h := h
  · rw [h] at hw
    cases hw
  · exact hc h

end probes

/-! ### Sensor pins (R271) -/

/-- From `s` to `t` the registers of the sensor pins stay. -/
def State.PinsStay (s t : State) : Prop := ∀ o, o / 65536 = 0x18 → t.getR o = s.getR o

theorem State.PinsStay.trans (h : s.PinsStay t) (h' : t.PinsStay u) : s.PinsStay u := fun o ho => (h' o ho).trans (h o ho)

theorem State.PinsStay.foldl {α : Type} (l : List α) {f : State → α → State} (hf : ∀ b x, State.PinsStay b (f b x)) (s : State) :
    s.PinsStay (l.foldl f s) := by
  induction l generalizing s with
  | nil => exact fun _ _ => rfl
  | cons x r ih => exact (hf s x).trans (ih (f s x))

theorem State.PinsStay.of_within {bs : List Nat} (h : State.Within bs s t) (hb : 0x18 ∉ bs) : s.PinsStay t := fun o ho => h o (by rwa [ho])

theorem State.AxSteps.pins (h : s.AxSteps t) : s.PinsStay t := fun o ho => h.2.1 o (Or.inr (Or.inl ho))

theorem ite_pins {p : Prop} [Decidable p] (h : s.PinsStay t) : s.PinsStay (if p then t else s) := by
  split
  · exact h
  · exact fun _ _ => rfl

theorem fire_pins (s : State) (x n : Nat) : s.PinsStay (s.fire x n) := .of_within (fire_within s x n false) (by decide)

theorem gateFollow_pins (s : State) : s.PinsStay s.gateFollow := .of_within (gateFollow_within s) (by decide)

theorem jamMiss_pins (s : State) (j : Fin 32) (x : Nat) : s.PinsStay (s.jamMiss j x) := by
  refine State.PinsStay.trans (fun o ho => ?_) (gateFollow_pins _)
  refine (getR_putR_ne _ _ ?_).trans ((fire_pins _ _ _ o ho).trans (getR_putF_ne _ _ _ _ ?_))
  · rintro rfl
    exact absurd ho (by decide)
  · simp only [F.MOV_JW_STATUS, R.MOV_JW_STATUS]
    omega

theorem jamEdge_pins (s : State) (n : Nat) (rising : Bool) (ts : Nat) : s.PinsStay (s.jamEdge n rising ts) := by
  unfold State.jamEdge
  split
  · split
    · exact jamMiss_pins s _ 3
    · intro o ho
      refine (getR_putR_ne _ _ ?_).trans ((getR_putR_ne _ _ ?_).trans (getR_putF_ne _ _ _ _ ?_)) <;>
        simp only [F.MOV_JW_STATUS, R.MOV_JW_STATUS, R.MOV_JW_TS_LO] <;> omega
  · exact fun _ _ => rfl

theorem homeEdge_steps (s : State) (a : Fin 20) (active : Bool) (ts : Nat) : s.AxSteps (s.homeEdge a active ts) := by
  unfold State.homeEdge
  extract_lets x b d
  have hb : s.AxSteps b := by
    simp only [b]
    split
    · exact (State.AxSteps.refl s).updAx
    · exact (State.AxSteps.refl s).updAx
  clear_value b
  split
  · exact hb.incR 1 (not_axCfg (k := 0x68) a rfl (by decide) (by decide) (by omega))
  · split
    · split
      · have hd : s.AxSteps d := hb.updAx
        clear_value d
        split
        · exact homeStage_steps (hd.updAx) _ _
        · exact hd
      · exact hb
    · exact hb

theorem indexMark_pins (s : State) (p : Fin 6) : s.PinsStay (s.indexMark p) := by
  unfold State.indexMark
  extract_lets g a
  have ha : s.PinsStay a := by
    simp only [a]
    split <;> exact fun _ _ => rfl
  clear_value a
  exact ha

/-- What an edge of a pin is for the axes. -/
theorem axEdge_pins (s : State) (n : Nat) (rising : Bool) (ts : Nat) (a : Fin 20) : s.PinsStay (
    let b := s.limPins a
    if b.axOn a then
      let b := if b.getF (F.MOV_HOME_CFG_PIN a) = n then b.homeEdge a (rising == b.flag (F.MOV_HOME_CFG_LEVEL a)) ts else b
      let b := b.limTrip a
      if isSd a && b.axCause a && b.axState a != 6 then b.axFault a else b
    else b) := by
  extract_lets b c d
  have hb : s.AxSteps b := limPins_steps (.refl s)
  clear_value b
  split
  · have hc : s.AxSteps c := by
      simp only [c]
      split
      · exact hb.trans (homeEdge_steps ..)
      · exact hb
    clear_value c
    have hd : s.AxSteps d := limTrip_steps hc
    clear_value d
    split
    · exact (axFault_steps hd).pins
    · exact hd.pins
  · exact hb.pins

/-- The levels of a pin after its edge, and the time of it. -/
def State.pinEdge (s : State) (n : Fin 64) (rising : Bool) : State :=
  (((s.putB (F.SNS_STATE_LEVEL n) rising).putB (F.SNS_STATE_RAW n) rising).putB (F.SNS_STATE_POL n) rising).putP (R.SNS_TS_LO n)
    (s.tsc.toNat - 200 * s.getF (F.SNS_CFG_FILT n))

theorem pinEdge_frame (s : State) (n : Fin 64) (rising : Bool) : (s.pinEdge n rising).pin n = rising
    ∧ (s.pinEdge n rising).flag (F.SNS_STATE_POL n) = rising
    ∧ (s.pinEdge n rising).getP (R.SNS_TS_LO n) = (s.tsc.toNat - 200 * s.getF (F.SNS_CFG_FILT n)) % 2 ^ 64 := by
  have hst : ∀ f : Fld, f.off = R.SNS_STATE n → (s.pinEdge n rising).flag f
      = (((s.putB (F.SNS_STATE_LEVEL n) rising).putB (F.SNS_STATE_RAW n) rising).putB (F.SNS_STATE_POL n) rising).flag f := fun f hf => by
    refine flag_congr ((getR_putR_ne _ _ ?_).trans (getR_putR_ne _ _ ?_)) <;> rw [hf] <;> simp only [R.SNS_STATE, R.SNS_TS_LO] <;> omega
  have hts : s.tsc.toNat - 200 * s.getF (F.SNS_CFG_FILT n) < 2 ^ 64 := lt_of_le_of_lt (Nat.sub_le ..) s.tsc.isLt
  refine ⟨(hst _ rfl).trans ?_, (hst _ rfl).trans (flag_putB_same _ (F.SNS_STATE_POL n) rising ?_ ?_),
    (getP_putP _ hts).trans (Nat.mod_eq_of_lt hts).symm⟩
  · refine (flag_putF_apart (f := F.SNS_STATE_POL n) _ (fbkStatus_apart ?_ (Or.inl ?_))).trans
      ((flag_putF_apart (f := F.SNS_STATE_RAW n) _ (fbkStatus_apart ?_ (Or.inl ?_))).trans
        (flag_putB_same s (F.SNS_STATE_LEVEL n) rising ?_ ?_)) <;> simp [F.SNS_STATE_LEVEL, F.SNS_STATE_POL, F.SNS_STATE_RAW]
  · simp [F.SNS_STATE_POL]
  · simp [F.SNS_STATE_POL]

theorem sensorEdge_pins (s : State) (n : Fin 64) (rising : Bool) (hd : s.getF (F.SNS_CFG_DIR n) = 0) (hp : s.pin n ≠ rising) :
    ∃ t, exec (.sensorEdge n rising) s = .next t ∧ (s.pinEdge n rising).PinsStay t := by
  refine ⟨_, congrArg Host.Outcome.next (if_pos ⟨hd, hp⟩), ?_⟩
  extract_lets ts a b c d e f
  have hb : b = s.pinEdge n rising := rfl
  clear_value b
  rw [← hb]
  have hc : b.PinsStay c := by
    simp only [c]
    split
    · exact ite_pins (fire_pins b 3 n)
    · exact ite_pins (fire_pins b 3 n)
  clear_value c
  have hd' : b.PinsStay d := hc.trans (jamEdge_pins c n rising ts)
  clear_value d
  have he : b.PinsStay e := hd'.trans (.foldl _ (fun x a => axEdge_pins x n rising ts a) d)
  clear_value e
  have hf : b.PinsStay f := by
    refine he.trans (.foldl _ (fun x p => ?_) e)
    split
    · exact indexMark_pins x p
    · exact fun _ _ => rfl
  clear_value f
  exact hf.trans (gateFollow_pins f)

theorem sensorEdge_acts {n : Fin 64} {rising : Bool} (hd : s.getF (F.SNS_CFG_DIR n) = 0) (hp : s.pin n ≠ rising) :
    Leads s (.sensorEdge n rising) fun t => t.pin n = rising ∧ t.flag (F.SNS_STATE_POL n) = rising
      ∧ t.getP (R.SNS_TS_LO n) = (s.tsc.toNat - 200 * s.getF (F.SNS_CFG_FILT n)) % 2 ^ 64 := by
  obtain ⟨t, hexec, ht⟩ := sensorEdge_pins s n rising hd hp
  obtain ⟨h1, h2, h3⟩ := pinEdge_frame s n rising
  have hblk : R.SNS_STATE n / 65536 = 0x18 ∧ R.SNS_TS_LO n / 65536 = 0x18 ∧ (R.SNS_TS_LO n + 4) / 65536 = 0x18 := by
    simp only [R.SNS_STATE, R.SNS_TS_LO]
    omega
  obtain ⟨hb1, hb2, hb3⟩ := hblk
  refine ⟨t, hexec, (flag_congr (f := F.SNS_STATE_LEVEL n) (ht _ hb1)).trans h1, (flag_congr (f := F.SNS_STATE_POL n) (ht _ hb1)).trans h2, ?_⟩
  rw [State.getP, ht _ hb2, ht _ hb3]
  exact h3

theorem sensorEdge_still {n : Fin 64} {rising : Bool} (h : s.getF (F.SNS_CFG_DIR n) ≠ 0 ∨ s.pin n = rising) :
    Leads s (.sensorEdge n rising) fun t => t = s := by
  refine ⟨_, congrArg Host.Outcome.next (if_neg ?_), rfl⟩
  rintro ⟨hd, hp⟩
  exact h.elim (fun e => e hd) hp

/-- Settles O47, input by input. -/
theorem feedbackChannelsCount : Obligations.FeedbackChannelsCount := by
  intro s
  refine ⟨fun c code k hk => ?_, fun c a b k hk => ?_, fun c may hmay => ?_, fun p rising on x hon hx => ?_,
    fun p port w => ⟨probePop_pops port, probePop_empty port⟩, fun n rising => ⟨sensorEdge_acts, sensorEdge_still⟩, fun n => ⟨_, rfl, rfl⟩⟩
  · subst hk
    exact ⟨fun n o hm hn ho _ => hallEdge_step hm hn ho, fun n hm hn ho => hallEdge_first hm hn ho, fun hm hn => hallEdge_invalid hm hn, hallEdge_other⟩
  · subst hk
    exact ⟨fun p hm ho => quadratureEdge_step hm ho, quadratureEdge_still⟩
  · subst hmay
    exact ⟨indexEdge_sampled, indexEdge_none, indexEdge_ignored, indexEdge_reference,
      fun h hm hv hl => ⟨indexEdge_corrects h hm hv hl, indexEdge_mismatch h hm hv hl⟩,
      fun p w => ⟨indexRearm_acts p, fun hw => ⟨_, congrArg Host.Outcome.next (if_neg (by rw [hw]; decide)), rfl⟩⟩, positionWrite_acts⟩
  · subst hon hx
    exact ⟨probeLatch_latches, probeLatch_overflows, probeLatch_off⟩

end Sys2Proof.Machine

end

/-! ## Stations: an edge that finds its sweep passed over (R217, R232) -/

section

namespace Sys2Proof.Machine

/-- A plane of one line at station 0. -/
def oneLinePlane : Plane :=
  { station := 0, pre := false, depth := 1, gLines := 1, tmode := 0, width := 16, gen := 0,
    geom := { beams := 1, spacing := 0, offset := 0, depth := 1, width := 16, shingle := false } }

/-- The page of that plane. -/
def oneLinePage : Page := { tag := 1#32, cid := 0, seq := 0, st := .picked, lines := 1, planes := [oneLinePlane] }

/-- Station 0 prints the page: its only sweep is passed over, its line is complete, and the next edge is due. -/
def passingOver : State :=
  (({ State.reset with cel := { State.reset.cel with pages := [oneLinePage] } } : State).putF (F.DEC_STATUS_STATE (0 : Fin 6)) 3).updStn 0
    fun t => { t with page := some 1#32, cur := -1, skipping := true, notices := [0], line := { t.line with freq := 1 } }

/-- Refutes O43: a sweep that is passed over is not drained at the edge, so it is never the sweep in drain. -/
theorem not_stationsPrimeSweepAndEndTheirPage : ¬ Obligations.StationsPrimeSweepAndEndTheirPage := by
  intro h
  obtain ⟨-, hpage⟩ := h passingOver 0 oneLinePage oneLinePlane
  obtain ⟨-, -, -, hedge, -⟩ := hpage (by decide)
  obtain ⟨t, he, -, hcur, -⟩ := (hedge 0 (by decide)).1 (by decide) (by decide) (by decide)
  have hstays : ∀ u, exec (.sweepEdge 0) passingOver = .next u → (u.stnOf 0).cur = -1 := by
    intro u hu
    cases hu
    decide
  have := (hstays t he).symm.trans hcur
  exact absurd this (by decide)

end Sys2Proof.Machine

end

/-! ## Racking channels: what issuing leaves (R107, R125) -/

section

namespace Sys2Proof.Machine

variable {s t u : State}

/-! ### Turns of the rings -/

/-- A register that a turn of the rings writes. -/
def ringReg (o : Nat) : Prop := (∃ r, r < 4 ∧ o = R.HIF_RING_PTR r) ∨ o / 65536 = 0x15

/-- From `s` to `t` entries have gone to CQ or EVR. -/
def State.RingSteps (s t : State) : Prop := t.rck = s.rck ∧ ∀ o, ¬ringReg o → t.getR o = s.getR o

theorem State.RingSteps.refl (s : State) : s.RingSteps s := ⟨rfl, fun _ _ => rfl⟩

theorem State.RingSteps.trans (h : s.RingSteps t) (h' : t.RingSteps u) : s.RingSteps u :=
  ⟨h'.1.trans h.1, fun o ho => (h'.2 o ho).trans (h.2 o ho)⟩

theorem State.RingSteps.of_regs (hk : t.rck = s.rck) (hr : t.regs = s.regs) : s.RingSteps t :=
  ⟨hk, fun o _ => by rw [State.getR, hr, State.getR]⟩

theorem State.RingSteps.putF (s : State) {f : Fld} (v : Nat) (hf : ringReg f.off) : s.RingSteps (s.putF f v) :=
  ⟨rfl, fun o ho => getR_putF_ne s f v o fun e => ho (e ▸ hf)⟩

theorem signal_ring (s : State) (v : Nat) : s.RingSteps (s.signal v) := by
  unfold State.signal
  split <;> exact .of_regs rfl rfl

theorem advTail_ring (s : State) {r : Nat} (hr : r < 4) : s.RingSteps (s.advTail r) := by
  have hp : ringReg (R.HIF_RING_PTR r) := Or.inl ⟨r, hr, rfl⟩
  unfold State.advTail
  extract_lets n
  split
  · exact (State.RingSteps.putF s (f := F.HIF_RING_PTR_PTR r) _ hp).trans (.putF _ (f := F.HIF_RING_PTR_PHASE r) _ hp)
  · exact .putF s (f := F.HIF_RING_PTR_PTR r) _ hp

theorem coal_ring (s : State) (evr : Bool) : s.RingSteps (s.coal evr) := by
  unfold State.coal
  extract_lets c k n old n' old'
  split
  · split
    · refine State.RingSteps.trans ?_ (signal_ring _ 2)
      exact .of_regs rfl rfl
    · exact .of_regs rfl rfl
  · split
    · refine State.RingSteps.trans ?_ (signal_ring _ 0)
      exact .of_regs rfl rfl
    · exact .of_regs rfl rfl

theorem cqDrainOne_ring (s : State) : s.RingSteps s.cqDrainOne := by
  unfold State.cqDrainOne
  split
  · exact .refl s
  · refine State.RingSteps.trans ?_ (coal_ring _ false)
    refine State.RingSteps.trans ?_ (advTail_ring _ (by decide))
    exact .of_regs rfl rfl

theorem summary_ring (s : State) (c : Nat) : s.RingSteps (s.summary c) := by
  unfold State.summary
  extract_lets total rep fd x y
  split
  · exact .of_regs rfl rfl
  · exact .refl s

theorem evCounts_ring (s : State) : s.RingSteps s.evCounts := by
  unfold State.evCounts
  refine State.RingSteps.trans (State.RingSteps.trans (.putF s _ ?_) (.putF _ _ ?_)) (.putF _ _ ?_)
  · exact Or.inr rfl
  · exact Or.inr rfl
  · exact Or.inr rfl

theorem State.RingSteps.foldl {α : Type} (l : List α) {f : State → α → State} (hf : ∀ b x, State.RingSteps b (f b x)) (s : State) :
    s.RingSteps (l.foldl f s) := by
  induction l generalizing s with
  | nil => exact .refl s
  | cons x r ih => exact (hf s x).trans (ih (f s x))

theorem evrCopyOne_ring (s : State) : s.RingSteps s.evrCopyOne := by
  unfold State.evrCopyOne
  split
  · exact .refl s
  · split
    · exact .refl s
    · extract_lets ph x a y z b c
      have hb : s.RingSteps b := by
        refine State.RingSteps.trans ?_ (advTail_ring _ (by decide))
        exact .of_regs rfl rfl
      clear_value b
      have hc : s.RingSteps c := by
        simp only [c]
        split
        · exact hb.trans (signal_ring b 1)
        · exact hb.trans (coal_ring b true)
      clear_value c
      exact (hc.trans (.foldl _ (fun d i => summary_ring d i) c)).trans (evCounts_ring _)

theorem ringTurn_ring (s : State) : s.RingSteps s.ringTurn := by
  unfold State.ringTurn
  split
  · exact evrCopyOne_ring s
  · exact cqDrainOne_ring s

/-! ### Issuing -/

/-- A register that issuing writes. -/
def issueReg (o : Nat) : Prop := o = R.RCK_TOKENS ∨ o = R.RCK_SLOTS ∨ (∃ c : Fin 16, o = R.RCK_CH_STATUS c) ∨ ringReg o

/-- From `s` to `t` transactions have been issued: no channel halts or goes on, and of its status only STATE and TOKENS change. -/
def State.Grants (s t : State) : Prop :=
  (∀ o, ¬issueReg o → t.getR o = s.getR o) ∧ ∀ c : Fin 16, t.halted c = s.halted c
    ∧ ∀ f : Fld, f.off = R.RCK_CH_STATUS c → 2 ≤ f.lo → f.lo + f.w ≤ 16 → t.getF f = s.getF f

theorem State.Grants.refl (s : State) : s.Grants s := ⟨fun _ _ => rfl, fun _ => ⟨rfl, fun _ _ _ _ => rfl⟩⟩

theorem State.Grants.trans (h : s.Grants t) (h' : t.Grants u) : s.Grants u :=
  ⟨fun o ho => (h'.1 o ho).trans (h.1 o ho), fun c => ⟨(h'.2 c).1.trans (h.2 c).1, fun f ho h1 h2 =>
    ((h'.2 c).2 f ho h1 h2).trans ((h.2 c).2 f ho h1 h2)⟩⟩

theorem halted_congr {a b : State} {c : Nat} (h : a.getR (R.RCK_CH_STATUS c) = b.getR (R.RCK_CH_STATUS c)) : a.halted c = b.halted c := by
  unfold State.halted
  rw [getF_congr (f := F.RCK_CH_STATUS_STATE c) h]

/-- Where the status of every channel stays. -/
theorem State.Grants.of_status (h : ∀ o, ¬issueReg o → t.getR o = s.getR o)
    (hc : ∀ c : Fin 16, t.getR (R.RCK_CH_STATUS c) = s.getR (R.RCK_CH_STATUS c)) : s.Grants t :=
  ⟨h, fun c => ⟨halted_congr (hc c), fun f ho _ _ => getF_congr (by rw [ho]; exact hc c)⟩⟩

theorem status_not_ring (c : Fin 16) : ¬ringReg (R.RCK_CH_STATUS c) := by
  rintro (⟨r, hr, h⟩ | h)
  · simp only [R.RCK_CH_STATUS, R.HIF_RING_PTR] at h
    omega
  · simp only [R.RCK_CH_STATUS] at h
    omega

theorem State.RingSteps.grants (h : s.RingSteps t) : s.Grants t :=
  .of_status (fun o ho => h.2 o fun e => ho (Or.inr (Or.inr (Or.inr e)))) fun c => h.2 _ (status_not_ring c)

/-- A field of TOKENS or SLOTS is written. -/
theorem State.Grants.putF (h : s.Grants t) {f : Fld} (v : Nat) (hf : f.off = R.RCK_TOKENS ∨ f.off = R.RCK_SLOTS) : s.Grants (t.putF f v) := by
  refine h.trans (.of_status (fun o ho => getR_putF_ne t f v o fun e => ho ?_) fun c => getR_putF_ne t f v _ ?_)
  · exact hf.elim (fun q => Or.inl (e.trans q)) fun q => Or.inr (Or.inl (e.trans q))
  · simp only [R.RCK_CH_STATUS, R.RCK_TOKENS, R.RCK_SLOTS] at hf ⊢
    omega

/-- The TOKENS of a channel are counted and its STATE is 0 or 1. -/
theorem State.Grants.status (h : s.Grants t) (c : Fin 16) (n : Nat) {v : Nat} (hv : v < 2) (hh : t.halted c = false) :
    s.Grants ((t.putF (F.RCK_CH_STATUS_TOKENS c) n).putF (F.RCK_CH_STATUS_STATE c) v) := by
  have hoff : ∀ o, o ≠ R.RCK_CH_STATUS c →
      ((t.putF (F.RCK_CH_STATUS_TOKENS c) n).putF (F.RCK_CH_STATUS_STATE c) v).getR o = t.getR o := fun o ho =>
    (getR_putF_ne _ (F.RCK_CH_STATUS_STATE c) v o ho).trans (getR_putF_ne t (F.RCK_CH_STATUS_TOKENS c) n o ho)
  refine h.trans ⟨fun o ho => hoff o fun e => ho (Or.inr (Or.inr (Or.inl ⟨c, e⟩))), fun d => ?_⟩
  by_cases hd : d = c
  · subst hd
    refine ⟨?_, fun f ho h1 h2 => ?_⟩
    · rw [hh, State.halted, getF_putF_same _ (F.RCK_CH_STATUS_STATE d) v (by simp [F.RCK_CH_STATUS_STATE])]
      simp only [F.RCK_CH_STATUS_STATE, beq_eq_false_iff_ne]
      omega
    · rw [getF_putF_apart (f := F.RCK_CH_STATUS_STATE d) (g := f) v (Or.inr ⟨by omega, Or.inr h1⟩),
        getF_putF_apart (f := F.RCK_CH_STATUS_TOKENS d) (g := f) n (Or.inr ⟨by omega, Or.inl h2⟩)]
  · have hne : R.RCK_CH_STATUS d ≠ R.RCK_CH_STATUS c := by
      have : (d : Nat) ≠ c := fun e => hd (Fin.ext e)
      simp only [R.RCK_CH_STATUS]
      omega
    exact ⟨halted_congr (hoff _ hne), fun f ho _ _ => getF_congr (hoff _ (ho ▸ hne))⟩

theorem issueTxn_grants (s : State) (c : Fin 16) : s.Grants (s.issueTxn c) := by
  unfold State.issueTxn
  extract_lets x own
  split
  · exact .refl s
  · next y r hq =>
    split
    · exact .refl s
    · next hm =>
      have hh : s.halted c = false := by
        have hm' : s.mayIssue c = true := by simpa using hm
        unfold State.mayIssue at hm'
        rw [show (s.chan c).queued = y :: r from hq] at hm'
        simp only [Bool.and_eq_true, Bool.not_eq_true'] at hm'
        exact hm'.1.1
      extract_lets first a b d e
      have ha : s.Grants a := .of_status (fun _ _ => rfl) fun _ => rfl
      clear_value a
      have hb : s.Grants b := ha.putF (f := F.RCK_TOKENS_FREE) _ (Or.inl rfl)
      clear_value b
      have hd : s.Grants d := hb.putF (f := F.RCK_TOKENS_SHARED) _ (Or.inl rfl)
      clear_value d
      have he : s.Grants e := hd.putF (f := F.RCK_SLOTS) _ (Or.inr rfl)
      clear_value e
      exact he.status c _ (by decide) ((he.2 c).1.trans hh)

theorem pump_grants (n : Nat) (s : State) : s.Grants (State.pump n s) := by
  induction n generalizing s with
  | zero => exact .refl s
  | succ n ih =>
    unfold State.pump
    split
    · exact .refl s
    · next c hc =>
      extract_lets a
      have ha : s.Grants a := by
        simp only [a]
        split
        · exact (ringTurn_ring s).grants
        · exact issueTxn_grants s ⟨c, nextGrant_lt hc⟩
      clear_value a
      refine (ha.trans ?_).trans (ih _)
      split
      · exact .refl a
      · exact .of_status (fun _ _ => rfl) fun _ => rfl

theorem pumpAll_grants (s : State) : s.Grants s.pumpAll := by
  unfold State.pumpAll
  extract_lets a
  have ha : s.Grants a := pump_grants _ s
  clear_value a
  split
  · exact ha.trans (.of_status (fun _ _ => rfl) fun _ => rfl)
  · exact ha

/-! ### With nothing queued -/

/-- From `s` to `t` no transaction has been issued. -/
def State.Idles (s t : State) : Prop := t.rck.ch = s.rck.ch ∧ t.getF F.RCK_TOKENS_FREE = s.getF F.RCK_TOKENS_FREE

theorem tokens_not_ring : ¬ringReg R.RCK_TOKENS := by
  rintro (⟨r, hr, h⟩ | h)
  · simp only [R.RCK_TOKENS, R.HIF_RING_PTR] at h
    omega
  · exact absurd h (by decide)

theorem State.RingSteps.idles (h : s.RingSteps t) : s.Idles t :=
  ⟨congrArg Rack.ch h.1, getF_congr (f := F.RCK_TOKENS_FREE) (h.2 _ tokens_not_ring)⟩

theorem mayIssue_of_queued_nil {c : Nat} (h : (s.chan c).queued = []) : s.mayIssue c = false := by
  unfold State.mayIssue
  rw [h]

/-- Only the rings have a turn. -/
theorem nextGrant_ring {c : Nat} (hq : ∀ d, (s.chan d).queued = []) (h : s.nextGrant = some c) : c = 0 ∧ s.ringWork = true := by
  unfold State.nextGrant at h
  obtain h | ⟨-, h⟩ := (Option.orElse_eq_some _ _ _).1 h
  · have := List.find?_some h
    rw [mayIssue_of_queued_nil (hq c), Bool.and_false] at this
    cases this
  · have := List.find?_some h
    rw [State.hasTurn, mayIssue_of_queued_nil (hq c), Bool.false_or, Bool.and_eq_true, beq_iff_eq] at this
    exact this

theorem pump_idles (n : Nat) {s : State} (hq : ∀ d, (s.chan d).queued = []) : s.Idles (State.pump n s) := by
  induction n generalizing s with
  | zero => exact ⟨rfl, rfl⟩
  | succ n ih =>
    unfold State.pump
    split
    · exact ⟨rfl, rfl⟩
    · next c hc =>
      extract_lets a
      have ha : s.Idles a := by
        simp only [a]
        rw [if_pos (nextGrant_ring hq hc)]
        exact (ringTurn_ring s).idles
      clear_value a
      obtain ⟨hch, hf⟩ := ha
      have hstep : ∀ b : State, b.rck.ch = a.rck.ch → b.getF F.RCK_TOKENS_FREE = a.getF F.RCK_TOKENS_FREE → s.Idles (State.pump n b) :=
        fun b hb hbf => by
          obtain ⟨h1, h2⟩ := ih (s := b) fun d => by rw [State.chan, hb, hch]; exact hq d
          exact ⟨h1.trans (hb.trans hch), h2.trans (hbf.trans hf)⟩
      split
      · exact hstep a rfl rfl
      · exact hstep _ rfl rfl

theorem pumpAll_idles (hq : ∀ d, (s.chan d).queued = []) : s.Idles s.pumpAll := by
  unfold State.pumpAll
  extract_lets a
  have ha : s.Idles a := pump_idles _ hq
  clear_value a
  split
  · exact ha
  · exact ha

end Sys2Proof.Machine

end

/-! ## Racking channels: how transactions end, halts, RESUME and ABORT (R107, R126, R128 to R130) -/

section

namespace Sys2Proof.Machine

variable {s t u : State} {c : Fin 16} {x : Txn} {rest : List Txn}

theorem getR_incR_same (s : State) (o n : Nat) : (s.incR o n).getR o = BitVec.ofNat 32 (min 0xFFFFFFFF ((s.getR o).toNat + n)) := by
  refine (getR_putLost ..).trans ((getR_putR_same ..).trans ?_)
  rw [satAdd]

theorem getP_putP_mod (s : State) (lo v : Nat) : (s.putP lo v).getP lo = v % 2 ^ 64 := by
  have h : (s.putP lo v).getP lo = (s.putP lo (v % 2 ^ 64)).getP lo := by
    have h1 : BitVec.ofNat 32 v = BitVec.ofNat 32 (v % 2 ^ 64) := BitVec.eq_of_toNat_eq (by simp only [BitVec.toNat_ofNat]; omega)
    have h2 : BitVec.ofNat 32 (v / 0x100000000) = BitVec.ofNat 32 (v % 2 ^ 64 / 0x100000000) :=
      BitVec.eq_of_toNat_eq (by simp only [BitVec.toNat_ofNat]; omega)
    unfold State.putP
    rw [h1, h2]
  rw [h, getP_putP _ (Nat.mod_lt _ (by decide))]

theorem ringLen_congr {a b : State} {r : Nat} (h : a.getR (R.HIF_RING_SIZE r) = b.getR (R.HIF_RING_SIZE r)) : a.ringLen r = b.ringLen r := by
  unfold State.ringLen
  rw [getF_congr (f := F.HIF_RING_SIZE r) h]

theorem chan_setChan_same (s : State) (c : Fin 16) (h : Chan) : (s.setChan c h).chan c = h := by
  unfold State.chan State.setChan
  simp

/-! ### Returning a transaction -/

/-- A field of a channel's status other than STATE and TOKENS. -/
def chanFld (c : Fin 16) (f : Fld) : Prop := f.off = R.RCK_CH_STATUS c ∧ 2 ≤ f.lo ∧ f.lo + f.w ≤ 16

theorem returnOf_rackSteps (s : State) (c : Fin 16) (x : Txn) : s.RackSteps (s.returnOf c x) := by
  have hst : R.RCK_CH_STATUS c / 65536 ∈ rackBlocks := chStatus_rack c.isLt
  unfold State.returnOf
  extract_lets h r a b d e f
  have ha : s.RackSteps a := setChan_rackSteps (.refl s) _ _
  clear_value a
  have hb : s.RackSteps b := ha.putF (f := F.RCK_TOKENS_FREE) _ (by decide)
  clear_value b
  have hd : s.RackSteps d := hb.putF (f := F.RCK_TOKENS_SHARED) _ (by decide)
  clear_value d
  have he : s.RackSteps e := hd.putF (f := F.RCK_SLOTS) _ (by decide)
  clear_value e
  have hf : s.RackSteps f := he.putF (f := F.RCK_CH_STATUS_TOKENS c) _ hst
  clear_value f
  split
  · exact hf.putF (f := F.RCK_CH_STATUS_STATE c) _ hst
  · exact hf

/-- What returning a transaction does to its channel and the tokens. -/
theorem returnOf_frame (s : State) (c : Fin 16) (x : Txn) :
    ((s.returnOf c x).chan c).issued = (s.chan c).issued.erase x ∧ ((s.returnOf c x).chan c).queued = (s.chan c).queued
      ∧ (∀ d, ((s.returnOf c x).chan d).queued = (s.chan d).queued)
      ∧ (s.getF F.RCK_TOKENS_FREE < 64 → (s.returnOf c x).getF F.RCK_TOKENS_FREE = s.getF F.RCK_TOKENS_FREE + 1)
      ∧ (∀ o, ¬issueReg o → (s.returnOf c x).getR o = s.getR o)
      ∧ ∀ f, chanFld c f → (s.returnOf c x).getF f = s.getF f := by
  have hapart : ∀ f : Fld, f.off = R.RCK_CH_STATUS c → f.off ≠ R.RCK_TOKENS ∧ f.off ≠ R.RCK_SLOTS := fun f hf => by
    rw [hf]
    simp only [R.RCK_CH_STATUS, R.RCK_TOKENS, R.RCK_SLOTS]
    omega
  have hstop : ∀ o, ¬issueReg o → o ≠ R.RCK_TOKENS ∧ o ≠ R.RCK_SLOTS ∧ o ≠ R.RCK_CH_STATUS c := fun o ho =>
    ⟨fun e => ho (Or.inl e), fun e => ho (Or.inr (Or.inl e)), fun e => ho (Or.inr (Or.inr (Or.inl ⟨c, e⟩)))⟩
  unfold State.returnOf
  extract_lets h r a b d e f
  have ha : a.getF F.RCK_TOKENS_FREE = s.getF F.RCK_TOKENS_FREE ∧ (∀ o, ¬issueReg o → a.getR o = s.getR o) ∧ ∀ g, chanFld c g → a.getF g = s.getF g :=
    ⟨rfl, fun _ _ => rfl, fun _ _ => rfl⟩
  have hch : (a.chan c).issued = r ∧ (a.chan c).queued = h.queued ∧ ∀ k, (a.chan k).queued = (s.chan k).queued := by
    have hsame : a.chan c = ({ h with issued := r, ownUsed := h.ownUsed - boolNat x.own, slots := h.slots - boolNat (!x.write) } : Chan).tidy :=
      chan_setChan_same ..
    refine ⟨by rw [hsame, Chan.tidy], by rw [hsame, Chan.tidy], fun k => ?_⟩
    by_cases hk : k = c
    · rw [hk, hsame, Chan.tidy]
    · simp only [a, State.chan, State.setChan]
      simp [Ne.symm hk]
  clear_value a
  have hb : (s.getF F.RCK_TOKENS_FREE < 64 → b.getF F.RCK_TOKENS_FREE = s.getF F.RCK_TOKENS_FREE + 1)
      ∧ (∀ o, ¬issueReg o → b.getR o = s.getR o) ∧ (∀ g, chanFld c g → b.getF g = s.getF g) ∧ b.rck = a.rck := by
    refine ⟨fun hn => ?_, fun o ho => (getR_putF_ne a F.RCK_TOKENS_FREE _ o (hstop o ho).1).trans (ha.2.1 o ho),
      fun g hg => (getF_putF_off a F.RCK_TOKENS_FREE g _ (hapart g hg.1).1).trans (ha.2.2 g hg), rfl⟩
    rw [getF_putF_same a F.RCK_TOKENS_FREE _ (by decide), ha.1]
    exact Nat.mod_eq_of_lt (show _ < 2 ^ 7 by omega)
  clear_value b
  have hd : d.getF F.RCK_TOKENS_FREE = b.getF F.RCK_TOKENS_FREE
      ∧ (∀ o, ¬issueReg o → d.getR o = b.getR o) ∧ (∀ g, chanFld c g → d.getF g = b.getF g) ∧ d.rck = b.rck :=
    ⟨getF_putF_apart (f := F.RCK_TOKENS_SHARED) _ (Or.inr (by decide)), fun o ho => getR_putF_ne b F.RCK_TOKENS_SHARED _ o (hstop o ho).1,
      fun g hg => getF_putF_off b F.RCK_TOKENS_SHARED g _ (hapart g hg.1).1, rfl⟩
  clear_value d
  have he : e.getF F.RCK_TOKENS_FREE = d.getF F.RCK_TOKENS_FREE
      ∧ (∀ o, ¬issueReg o → e.getR o = d.getR o) ∧ (∀ g, chanFld c g → e.getF g = d.getF g) ∧ e.rck = d.rck :=
    ⟨getF_putF_off d F.RCK_SLOTS _ _ (by decide), fun o ho => getR_putF_ne d F.RCK_SLOTS _ o (hstop o ho).2.1,
      fun g hg => getF_putF_off d F.RCK_SLOTS g _ (hapart g hg.1).2, rfl⟩
  clear_value e
  have hst : ∀ (y : State) (g : Fld) (v : Nat), g.off = R.RCK_CH_STATUS c → g.lo + g.w ≤ 2 ∨ 16 ≤ g.lo →
      (y.putF g v).getF F.RCK_TOKENS_FREE = y.getF F.RCK_TOKENS_FREE
      ∧ (∀ o, ¬issueReg o → (y.putF g v).getR o = y.getR o) ∧ (∀ k, chanFld c k → (y.putF g v).getF k = y.getF k) ∧ (y.putF g v).rck = y.rck :=
    fun y g v hg hl => ⟨getF_putF_off y g _ v (fun q => (hapart g hg).1 q.symm), fun o ho => getR_putF_ne y g v o (by rw [hg]; exact (hstop o ho).2.2),
      fun k ⟨_, h1, h2⟩ => getF_putF_apart v (Or.inr ⟨by omega, by omega⟩), rfl⟩
  have hf := hst e (F.RCK_CH_STATUS_TOKENS c) (e.getF (F.RCK_CH_STATUS_TOKENS c) - 1) rfl (Or.inr (by simp [F.RCK_CH_STATUS_TOKENS]))
  change f.getF _ = _ ∧ (∀ o, _ → f.getR o = _) ∧ (∀ k, _ → f.getF k = _) ∧ f.rck = _ at hf
  clear_value f
  have hg : ∀ y : State, y.getF F.RCK_TOKENS_FREE = f.getF F.RCK_TOKENS_FREE ∧ (∀ o, ¬issueReg o → y.getR o = f.getR o)
      ∧ (∀ k, chanFld c k → y.getF k = f.getF k) ∧ y.rck = f.rck →
      (y.chan c).issued = r ∧ (y.chan c).queued = h.queued ∧ (∀ k, (y.chan k).queued = (s.chan k).queued)
      ∧ (s.getF F.RCK_TOKENS_FREE < 64 → y.getF F.RCK_TOKENS_FREE = s.getF F.RCK_TOKENS_FREE + 1)
      ∧ (∀ o, ¬issueReg o → y.getR o = s.getR o) ∧ ∀ k, chanFld c k → y.getF k = s.getF k := by
    rintro y ⟨h1, h2, h3, h4⟩
    have hk : y.rck = a.rck := h4.trans (hf.2.2.2.trans (he.2.2.2.trans (hd.2.2.2.trans hb.2.2.2)))
    have hchan : ∀ k, y.chan k = a.chan k := fun k => by rw [State.chan, hk, State.chan]
    refine ⟨by rw [hchan]; exact hch.1, by rw [hchan]; exact hch.2.1, fun k => by rw [hchan]; exact hch.2.2 k, fun hn => ?_, fun o ho => ?_, fun k q => ?_⟩
    · rw [h1, hf.1, he.1, hd.1, hb.1 hn]
    · rw [h2 o ho, hf.2.1 o ho, he.2.1 o ho, hd.2.1 o ho, hb.2.1 o ho]
    · rw [h3 k q, hf.2.2.1 k q, he.2.2.1 k q, hd.2.2.1 k q, hb.2.2.1 k q]
  split
  · exact hg _ (hst f (F.RCK_CH_STATUS_STATE c) 0 rfl (Or.inl (by simp [F.RCK_CH_STATUS_STATE])))
  · exact hg f ⟨rfl, fun _ _ => rfl, fun _ _ => rfl, rfl⟩

theorem returnTxn_eq (hi : (s.chan c).issued = x :: rest) : s.returnTxn c = s.returnOf c x := by
  unfold State.returnTxn
  rw [hi]

/-! ### Halts (R128) -/

/-- A register of a channel that issuing leaves. -/
theorem chanReg_not_issue {o : Nat} (c : Fin 16) (k : Nat) (hk : 0 < k ∧ k < 0x40) (h : o = 0x40100 + k + 0x40 * c) : ¬issueReg o := by
  rintro (e | e | ⟨d, e⟩ | ⟨r, hr, e⟩ | e)
  · simp only [R.RCK_TOKENS] at e
    omega
  · simp only [R.RCK_SLOTS] at e
    omega
  · simp only [R.RCK_CH_STATUS] at e
    omega
  · simp only [R.HIF_RING_PTR] at e
    omega
  · omega

/-- Channel `c` stands halted with this cause, address and event. -/
def State.HaltedFor (t : State) (c : Fin 16) (cause addr : Nat) : Prop :=
  t.halted c = true ∧ t.getF (F.RCK_CH_STATUS_CAUSE c) = cause ∧ t.getP (R.RCK_CH_FAIL_LO c) = addr % 2 ^ 64 ∧ t.Arisen Ev.RCK_BUS_ERROR c

theorem pausedFollow_getR (s : State) {o : Nat} (h : o ≠ R.PRS_STATUS) : s.pausedFollow.getR o = s.getR o :=
  getR_putF_ne s F.PRS_STATUS_PAUSED _ o h

theorem pausedFollow_halted (s : State) (c : Fin 16) : s.pausedFollow.halted c = s.halted c := by
  refine halted_congr (pausedFollow_getR s ?_)
  simp only [R.RCK_CH_STATUS, R.PRS_STATUS]
  omega

/-- The status and the address of a channel that halts. -/
def State.haltRegs (s : State) (c : Nat) (write : Bool) (cause addr : Nat) : State :=
  ((((s.putF (F.RCK_CH_STATUS_STATE c) 2).putB (F.RCK_CH_STATUS_DIR c) write).putF (F.RCK_CH_STATUS_CAUSE c) cause).putP (R.RCK_CH_FAIL_LO c) addr)

theorem haltRegs_frame (s : State) (c : Nat) (write : Bool) {cause : Nat} (addr : Nat) (hc : cause < 8) :
    (s.haltRegs c write cause addr).halted c = true ∧ (s.haltRegs c write cause addr).getF (F.RCK_CH_STATUS_CAUSE c) = cause
      ∧ (s.haltRegs c write cause addr).getP (R.RCK_CH_FAIL_LO c) = addr % 2 ^ 64 := by
  have hst : ∀ y : State, (y.putP (R.RCK_CH_FAIL_LO c) addr).getR (R.RCK_CH_STATUS c) = y.getR (R.RCK_CH_STATUS c) := fun y => by
    refine (getR_putR_ne _ _ ?_).trans (getR_putR_ne _ _ ?_) <;> simp only [R.RCK_CH_STATUS, R.RCK_CH_FAIL_LO] <;> omega
  unfold State.haltRegs
  refine ⟨?_, ?_, getP_putP_mod ..⟩
  · rw [halted_congr (hst _), State.halted, getF_putF_apart (f := F.RCK_CH_STATUS_CAUSE c) cause (Or.inr (by simp [F.RCK_CH_STATUS_STATE, F.RCK_CH_STATUS_CAUSE])),
      State.putB, getF_putF_apart (f := F.RCK_CH_STATUS_DIR c) _ (Or.inr (by simp [F.RCK_CH_STATUS_STATE, F.RCK_CH_STATUS_DIR])),
      getF_putF_same s (F.RCK_CH_STATUS_STATE c) 2 (by simp [F.RCK_CH_STATUS_STATE])]
    simp [F.RCK_CH_STATUS_STATE]
  · rw [getF_congr (f := F.RCK_CH_STATUS_CAUSE c) (hst _), getF_putF_same _ (F.RCK_CH_STATUS_CAUSE c) cause (by simp [F.RCK_CH_STATUS_CAUSE])]
    exact Nat.mod_eq_of_lt hc

theorem halt_halts (s : State) (c : Fin 16) {cause : Nat} (addr : Nat) (x : Txn) (hc : cause < 8) : (s.halt c cause addr x).HaltedFor c cause addr := by
  obtain ⟨y, hy⟩ : ∃ y : State, s.halt c cause addr x = ((y.haltRegs c x.write cause addr).pausedFollow.raise Ev.RCK_BUS_ERROR c
      (BitVec.ofNat 32 addr) (BitVec.ofNat 32 (boolNat x.write * 4 + cause * 16 + (addr / 0x100000000) % 0x10000 * 0x10000))).signal (16 + c) :=
    ⟨_, rfl⟩
  rw [hy]
  obtain ⟨h1, h2, h3⟩ := haltRegs_frame y c x.write addr hc
  generalize y.haltRegs c x.write cause addr = b at h1 h2 h3
  have hr : ∀ o, o ≠ R.PRS_STATUS → ((b.pausedFollow.raise Ev.RCK_BUS_ERROR c (BitVec.ofNat 32 addr)
      (BitVec.ofNat 32 (boolNat x.write * 4 + cause * 16 + (addr / 0x100000000) % 0x10000 * 0x10000))).signal (16 + c)).getR o = b.getR o := fun o ho =>
    (signal_getR ..).trans ((State.raise_getR ..).trans (pausedFollow_getR b ho))
  have hne : R.RCK_CH_STATUS c ≠ R.PRS_STATUS ∧ R.RCK_CH_FAIL_LO c ≠ R.PRS_STATUS ∧ R.RCK_CH_FAIL_LO c + 4 ≠ R.PRS_STATUS := by
    simp only [R.RCK_CH_STATUS, R.RCK_CH_FAIL_LO, R.PRS_STATUS]
    omega
  obtain ⟨n1, n2, n3⟩ := hne
  refine ⟨(halted_congr (hr _ n1)).trans h1, (getF_congr (f := F.RCK_CH_STATUS_CAUSE c) (hr _ n1)).trans h2, ?_, Arisen.signal _ (arisen_raise ..)⟩
  rw [State.getP, hr _ n2, hr _ n3]
  exact h3

/-- Other channels go on. -/
theorem State.HaltedFor.pumpAll {cause addr : Nat} (h : s.HaltedFor c cause addr) : s.pumpAll.HaltedFor c cause addr := by
  obtain ⟨h1, h2, h3, h4⟩ := h
  obtain ⟨hr, hch⟩ := pumpAll_grants s
  obtain ⟨hh, hf⟩ := hch c
  refine ⟨hh.trans h1, (hf (F.RCK_CH_STATUS_CAUSE c) rfl (by simp [F.RCK_CH_STATUS_CAUSE]) (by simp [F.RCK_CH_STATUS_CAUSE])).trans h2, ?_,
    (pumpAll_rackSteps (.refl s)).arisen h4⟩
  rw [State.getP, hr (R.RCK_CH_FAIL_LO c) (chanReg_not_issue c 4 (by decide) rfl), hr (R.RCK_CH_FAIL_LO c + 4) (chanReg_not_issue c 8 (by decide) ?_)]
  · exact h3
  · simp only [R.RCK_CH_FAIL_LO]
    omega

/-! ### Transactions end (R125, R128 to R130) -/

section done

variable (hs : (s.chan c).stale = []) (hi : (s.chan c).issued = x :: rest)

include hi in
theorem headTxn_eq : s.headTxn c = some x := by
  rw [State.headTxn, hi, List.head?_cons]

include hs hi

theorem exec_done_ok (ho : (s.outOfRange c x && x.gen == s.getF (F.RCK_CH_STATUS_GEN c)) = false) :
    exec (.rackingTransactionDone c .ok) s = .next (s.txnEnd c x .ok) := by
  change execRackingTransactionDone c .ok s = _
  unfold execRackingTransactionDone
  rw [hs, headTxn_eq hi]
  dsimp only
  rw [if_neg (by rw [ho]; decide), if_neg (by rw [endFits]; decide)]

theorem exec_done_range (res : TxnResult) (ho : s.outOfRange c x = true) (hg : x.gen = s.getF (F.RCK_CH_STATUS_GEN c)) (hh : s.halted c = false) :
    exec (.rackingTransactionDone c res) s = .next (s.halt c 6 x.addr x).pumpAll := by
  change execRackingTransactionDone c res s = _
  unfold execRackingTransactionDone
  rw [hs, headTxn_eq hi]
  dsimp only
  rw [if_pos (by rw [ho, hg]; simp), if_neg (by rw [hh]; decide)]

theorem exec_done_bus (cause : BitVec 3) (hd : inDram c = false) (hk : cause = 1#3 ∨ cause = 2#3 ∨ cause = 3#3)
    (hg : x.gen = s.getF (F.RCK_CH_STATUS_GEN c)) (hh : s.halted c = false) :
    exec (.rackingTransactionDone c (.busError cause)) s = .next (s.halt c cause.toNat x.addr x).pumpAll := by
  have ho : s.outOfRange c x = false := by
    rw [State.outOfRange, hd]
    rfl
  have hfit : endFits (.busError cause) c x = true := by
    rw [endFits, hd]
    obtain rfl | rfl | rfl := hk <;> rfl
  change execRackingTransactionDone c _ s = _
  unfold execRackingTransactionDone
  rw [hs, headTxn_eq hi]
  dsimp only
  rw [if_neg (by rw [ho, Bool.false_and]; decide), if_neg (by rw [hfit]; decide), if_neg (by rw [hh]; decide), if_neg (fun e => e hg)]

omit hs in
theorem txnEnd_ok (s' : State) (hs' : s' = s.returnOf c x) : s.txnEnd c x .ok
    = (if x.gen ≠ s'.getF (F.RCK_CH_STATUS_GEN c) then s'.discardOld c x else s'.deliver c x false).pumpAll := by
  subst hs'
  rw [← returnTxn_eq hi]
  rfl

end done

/-! ### What an end gives -/

section ends

variable (hs : (s.chan c).stale = []) (hi : (s.chan c).issued = x :: rest)

include hs hi

/-- A transaction without a consumer gives its token back. -/
theorem done_frees (hg : x.gen = s.getF (F.RCK_CH_STATUS_GEN c)) (hc : c = 2 ∨ c = 3 ∨ c = 14) (hq : ∀ d, (s.chan d).queued = [])
    (hf : s.getF F.RCK_TOKENS_FREE < 64) : Leads s (.rackingTransactionDone c .ok) fun t => (t.chan c).issued = rest
      ∧ t.getF F.RCK_TOKENS_FREE = s.getF F.RCK_TOKENS_FREE + 1 := by
  obtain ⟨hiss, -, hqu, hfree, -, hfld⟩ := returnOf_frame s c x
  have hgen : x.gen = (s.returnOf c x).getF (F.RCK_CH_STATUS_GEN c) :=
    hg.trans (hfld _ ⟨rfl, by simp [F.RCK_CH_STATUS_GEN], by simp [F.RCK_CH_STATUS_GEN]⟩).symm
  have hexec := exec_done_ok hs hi (by obtain rfl | rfl | rfl := hc <;> rfl)
  rw [txnEnd_ok hi _ rfl, if_neg (fun e => e hgen)] at hexec
  generalize s.returnOf c x = a at hexec hiss hqu hfree
  have hdel : a.deliver c x false = a := by
    unfold State.deliver
    split
    · rfl
    · obtain rfl | rfl | rfl := hc <;> rfl
  rw [hdel] at hexec
  obtain ⟨hch, ht⟩ := pumpAll_idles (s := a) fun d => (hqu d).trans (hq d)
  refine ⟨_, hexec, ?_, ht.trans (hfree hf)⟩
  rw [State.chan, hch, ← State.chan, hiss, hi, List.erase_cons_head]

/-- Submission entries that have come move the index of their queue. -/
theorem done_fetches {q : Fin 2} (hg : x.gen = s.getF (F.RCK_CH_STATUS_GEN c)) (hc : c = 0) (hj : x.job ≠ 0) (hw : x.write = false)
    (ht : x.tag = q.val) : Leads s (.rackingTransactionDone c .ok) fun t =>
      t.host.sqRead = s.host.sqRead.set q ((s.host.sqRead[q] + x.bytes / 64) % s.ringLen q) := by
  subst hc
  obtain ⟨-, -, -, -, hreg, hfld⟩ := returnOf_frame s 0 x
  have hgen : x.gen = (s.returnOf (0 : Fin 16) x).getF (F.RCK_CH_STATUS_GEN (0 : Fin 16)) :=
    hg.trans (hfld _ ⟨rfl, by simp [F.RCK_CH_STATUS_GEN], by simp [F.RCK_CH_STATUS_GEN]⟩).symm
  have hread : (s.returnOf (0 : Fin 16) x).host.sqRead = s.host.sqRead := by
    have e := congrArg HostIf.sqRead (returnOf_rackSteps s 0 x).turns.1
    exact e
  have hlen : (s.returnOf (0 : Fin 16) x).ringLen q = s.ringLen q := by
    refine ringLen_congr (hreg _ ?_)
    rintro (e | e | ⟨d, e⟩ | ⟨r, hr, e⟩ | e)
    all_goals simp only [R.HIF_RING_SIZE, R.RCK_TOKENS, R.RCK_SLOTS, R.RCK_CH_STATUS, R.HIF_RING_PTR] at e
    all_goals omega
  have hexec := exec_done_ok hs hi rfl
  rw [txnEnd_ok hi _ rfl, if_neg (fun e => e hgen)] at hexec
  generalize s.returnOf (0 : Fin 16) x = a at hexec hread hlen
  have hdel : a.deliver (0 : Fin 16) x false = a.entriesRead q (x.bytes / 64) := by
    unfold State.deliver
    rw [if_neg hj, if_pos (show ((0 : Fin 16) : Nat) = 0 from rfl), if_neg (by rw [hw]; decide), ht]
    congr 1
    exact Fin.ext (Nat.mod_eq_of_lt q.isLt)
  rw [hdel] at hexec
  refine ⟨_, hexec, ?_⟩
  have e := congrArg HostIf.sqRead (pumpAll_rackSteps (.refl (a.entriesRead q (x.bytes / 64)))).turns.1
  refine (show _ = (a.entriesRead q (x.bytes / 64)).host.sqRead from e).trans ?_
  rw [State.entriesRead, hlen]
  dsimp only
  rw [hread]

/-- Data of an older generation reaches nothing and is counted. -/
theorem done_old (hg : x.gen ≠ s.getF (F.RCK_CH_STATUS_GEN c)) (hw : x.write = false) :
    Leads s (.rackingTransactionDone c .ok) fun t => t.led = s.led ∧ t.cel = s.cel ∧ t.vin = s.vin ∧ t.answers = s.answers
      ∧ t.getR (R.RCK_CH_WDRAW c) = BitVec.ofNat 32 (min 0xFFFFFFFF ((s.getR (R.RCK_CH_WDRAW c)).toNat + 1)) := by
  obtain ⟨-, -, -, -, hreg, hfld⟩ := returnOf_frame s c x
  have hgen : x.gen ≠ (s.returnOf c x).getF (F.RCK_CH_STATUS_GEN c) := by
    rw [hfld (F.RCK_CH_STATUS_GEN c) ⟨rfl, by simp [F.RCK_CH_STATUS_GEN], by simp [F.RCK_CH_STATUS_GEN]⟩]
    exact hg
  have hwd : ∀ y : State, y.pumpAll.getR (R.RCK_CH_WDRAW c) = y.getR (R.RCK_CH_WDRAW c) := fun y =>
    (pumpAll_grants y).1 _ (chanReg_not_issue c 0x14 (by decide) rfl)
  have hret : (s.returnOf c x).getR (R.RCK_CH_WDRAW c) = s.getR (R.RCK_CH_WDRAW c) := hreg _ (chanReg_not_issue c 0x14 (by decide) rfl)
  have hsteps := returnOf_rackSteps s c x
  have hexec := exec_done_ok hs hi (by rw [beq_false_of_ne hg, Bool.and_false])
  rw [txnEnd_ok hi _ rfl, if_pos hgen] at hexec
  generalize s.returnOf c x = a at hexec hsteps hret
  have hdis : a.discardOld c x = (a.incR (R.RCK_CH_DISCARD c) x.bytes).incR (R.RCK_CH_WDRAW c) 1 := if_neg (by rw [hw]; decide)
  rw [hdis] at hexec
  have hcount : ((a.incR (R.RCK_CH_DISCARD c) x.bytes).incR (R.RCK_CH_WDRAW c) 1).getR (R.RCK_CH_WDRAW c)
      = BitVec.ofNat 32 (min 0xFFFFFFFF ((s.getR (R.RCK_CH_WDRAW c)).toNat + 1)) := by
    rw [getR_incR_same, getR_incR_ne a x.bytes (by simp only [R.RCK_CH_WDRAW, R.RCK_CH_DISCARD]; omega), hret]
  have hkeep : ∀ y : State, ∀ o n, (y.incR o n).led = y.led ∧ (y.incR o n).cel = y.cel ∧ (y.incR o n).vin = y.vin ∧ (y.incR o n).answers = y.answers :=
    fun _ _ _ => ⟨rfl, rfl, rfl, rfl⟩
  obtain ⟨l1, c1, v1, a1⟩ := hkeep a (R.RCK_CH_DISCARD c) x.bytes
  obtain ⟨l2, c2, v2, a2⟩ := hkeep (a.incR (R.RCK_CH_DISCARD c) x.bytes) (R.RCK_CH_WDRAW c) 1
  generalize (a.incR (R.RCK_CH_DISCARD c) x.bytes).incR (R.RCK_CH_WDRAW c) 1 = b at hexec hcount l2 c2 v2 a2
  have hp := pumpAll_rackSteps (.refl b)
  exact ⟨_, hexec, hp.led.trans (l2.trans (l1.trans hsteps.led)), hp.cel.trans (c2.trans (c1.trans hsteps.cel)),
    hp.vin.trans (v2.trans (v1.trans hsteps.vin)), hp.answers.trans (a2.trans (a1.trans hsteps.answers)), (hwd b).trans hcount⟩

theorem done_busError {cause : BitVec 3} (hg : x.gen = s.getF (F.RCK_CH_STATUS_GEN c)) (hk : cause = 1#3 ∨ cause = 2#3 ∨ cause = 3#3)
    (hd : inDram c = false) (hh : s.halted c = false) :
    Leads s (.rackingTransactionDone c (.busError cause)) fun t => t.HaltedFor c cause.toNat x.addr :=
  ⟨_, exec_done_bus hs hi cause hd hk hg hh, (halt_halts s c x.addr x cause.isLt).pumpAll⟩

theorem done_outOfRange {res : TxnResult} (ho : s.outOfRange c x = true) (hg : x.gen = s.getF (F.RCK_CH_STATUS_GEN c)) (hh : s.halted c = false) :
    Leads s (.rackingTransactionDone c res) fun t => t.HaltedFor c 6 x.addr :=
  ⟨_, exec_done_range hs hi res ho hg hh, (halt_halts s c x.addr x (by decide)).pumpAll⟩

omit hs

theorem completionTimeout_halts (hr : readsHost c x = true) (hh : s.halted c = false) :
    Leads s (.completionTimeout c) fun t => t.HaltedFor c 4 x.addr := by
  have hexec : exec (.completionTimeout c) s = .next (s.halt c 4 x.addr x).pumpAll := by
    change execCompletionTimeout c s = _
    unfold execCompletionTimeout
    rw [headTxn_eq hi]
    exact congrArg _ (if_pos (by rw [hr, hh]; rfl))
  exact ⟨_, hexec, (halt_halts s c x.addr x (by decide)).pumpAll⟩

theorem transferTimeout_halts {k : Nat} (hst : isStation c = false) (hh : s.halted c = false) (hj : x.job ≠ 0)
    (hk : (s.chan c).issuedAt x.job = some k) (hle : k + (s.getR R.RCK_XFER_TIMEOUT).toNat ≤ s.tick) :
    Leads s (.transferTimeout c) fun t => t.HaltedFor c 5 x.addr := by
  have hfind : ((s.chan c).issued ++ (s.chan c).queued).find? (fun t => t.job != 0) = some x := by
    rw [hi, List.cons_append]
    exact List.find?_cons_of_pos (by simpa using hj)
  have hexec : exec (.transferTimeout c) s = .next (s.halt c 5 x.addr x).pumpAll := by
    change execTransferTimeout c s = _
    unfold execTransferTimeout
    dsimp only
    rw [hfind]
    dsimp only
    rw [hk]
    exact congrArg _ (if_pos (by simpa [hst, hh] using hle))
  exact ⟨_, hexec, (halt_halts s c x.addr x (by decide)).pumpAll⟩

end ends

end Sys2Proof.Machine

end

/-! ## Racking channels: RESUME and ABORT (R128) -/

section

namespace Sys2Proof.Machine

variable {s t u : State} {c : Fin 16}

theorem exec_resume (p : Port) (w : Word) : exec (.channelResume p c w) s = .next (s.chCtrl c w) := rfl

theorem exec_abort (p : Port) (w : Word) : exec (.channelAbort p c w) s = .next (s.chCtrl c w) := rfl

/-- Neither acts on a channel that is not halted. -/
theorem chCtrl_of_not_halted (w : Word) (h : s.halted c = false) : s.chCtrl c w = s := by
  unfold State.chCtrl
  exact if_pos (by rw [h]; rfl)

/-- A channel whose STATE is put back goes on. -/
theorem goesOn (a : State) (c : Fin 16) {v : Nat} (hv : v < 2) : (a.putF (F.RCK_CH_STATUS_STATE c) v).pausedFollow.pumpAll.halted c = false := by
  rw [((pumpAll_grants _).2 c).1, pausedFollow_halted, State.halted,
    getF_putF_same a (F.RCK_CH_STATUS_STATE c) v (by simp [F.RCK_CH_STATUS_STATE])]
  simp only [F.RCK_CH_STATUS_STATE, beq_eq_false_iff_ne]
  omega

theorem ite_lt_two (p : Prop) [Decidable p] : (if p then 0 else 1) < 2 := by
  split <;> decide

theorem channelResume_resumes (p : Port) (h : s.halted c = true) : Leads s (.channelResume p c 1#32) fun t => t.halted c = false := by
  obtain ⟨y, v, hv, hy⟩ : ∃ (y : State) (v : Nat), v < 2 ∧ s.chCtrl c 1#32 = (y.putF (F.RCK_CH_STATUS_STATE c) v).pausedFollow.pumpAll := by
    unfold State.chCtrl
    exact ⟨_, _, ite_lt_two _, (if_neg (by rw [h]; decide)).trans (if_pos (by decide))⟩
  refine ⟨_, exec_resume p 1#32, ?_⟩
  rw [hy]
  exact goesOn y c hv

/-! ### ABORT -/

/-- What the end of a transfer leaves of the host interface, and of its halt. -/
theorem abortTransfer_frame (s : State) (c : Fin 16) (j : Nat) : (s.abortTransfer c j).halted c = false
    ∧ s.host.Turns (s.abortTransfer c j).host := by
  obtain ⟨y, v, hv, hh, hy⟩ : ∃ (y : State) (v : Nat), v < 2 ∧ y.host = s.host
      ∧ s.abortTransfer c j = (y.putF (F.RCK_CH_STATUS_STATE c) v).pausedFollow.pumpAll := by
    unfold State.abortTransfer
    refine ⟨_, _, ite_lt_two _, ?_, rfl⟩
    rfl
  rw [hy]
  refine ⟨goesOn y c hv, ?_⟩
  have hp := (pumpAll_rackSteps (.refl (y.putF (F.RCK_CH_STATUS_STATE c) v).pausedFollow)).turns
  have e : (y.putF (F.RCK_CH_STATUS_STATE c) v).pausedFollow.host = s.host := hh
  rw [e] at hp
  exact hp

theorem chCtrl_abort {y : Txn} (h : s.halted c = true) (hf : (s.chan c).failed = some y) (hj : y.job ≠ 0) :
    s.chCtrl c 2#32 = ((s.abortTransfer c y.job).aborted c y).pumpAll := by
  unfold State.chCtrl
  dsimp only
  rw [if_neg (by rw [h]; decide), if_neg (by decide), hf]
  exact if_neg hj

theorem capXferEnd_within (s : State) : State.Within [0x0A] s s.capXferEnd := by
  unfold State.capXferEnd
  extract_lets w cp a
  have ha : State.Within [0x0A] s a := fun _ _ => rfl
  clear_value a
  split
  · unfold State.capArm
    extract_lets cp2 b d
    have hb : State.Within [0x0A] s b := ha.trans fun _ _ => rfl
    clear_value b
    have hd : State.Within [0x0A] s d := (hb.putF (f := F.CLE_CAP_STATUS_STATE) _ (by decide)).putF (f := F.CLE_CAP_STATUS_STOPPED) _ (by decide)
    clear_value d
    exact (hd.putF (f := F.CLE_CAP_COUNT) _ (by decide)).putF (f := F.CLE_CAP_FIRST) _ (by decide)
  · exact ha

theorem channelAbort_capture (p : Port) {y : Txn} (h : s.halted 14 = true) (hf : (s.chan 14).failed = some y) (hj : y.job ≠ 0) :
    Leads s (.channelAbort p 14 2#32) fun t => t.halted 14 = false ∧ t.Arisen Ev.RCK_XFER_DROPPED 14 := by
  have hexec := exec_abort (s := s) (c := 14) p 2#32
  rw [chCtrl_abort (c := 14) h hf hj] at hexec
  obtain ⟨hh, -⟩ := abortTransfer_frame s 14 y.job
  generalize s.abortTransfer (14 : Fin 16) y.job = a at hexec hh
  have hab : a.aborted (14 : Fin 16) y = a.capXferEnd.raise Ev.RCK_XFER_DROPPED 14 := rfl
  have hdrop : (a.capXferEnd.raise Ev.RCK_XFER_DROPPED 14).halted (14 : Fin 16) = false := by
    refine (halted_congr ?_).trans hh
    exact (State.raise_getR ..).trans (capXferEnd_within a _ (by decide))
  rw [hab] at hexec
  have harr : (a.capXferEnd.raise Ev.RCK_XFER_DROPPED 14).Arisen Ev.RCK_XFER_DROPPED 14 := arisen_raise ..
  generalize a.capXferEnd.raise Ev.RCK_XFER_DROPPED 14 = b at hexec hdrop harr
  exact ⟨_, hexec, ((pumpAll_grants b).2 14).1.trans hdrop, (pumpAll_rackSteps (.refl b)).arisen harr⟩

theorem channelAbort_report (p : Port) {m : BitVec 16 × Nat × List Byte} {r : List (BitVec 16 × Nat × List Byte)} {y : Txn}
    (h : s.halted 5 = true) (hf : (s.chan 5).failed = some y) (hj : y.job ≠ 0) (hw : y.write = true) (hs : s.host.sending = m :: r) :
    Leads s (.channelAbort p 5 2#32) fun t => t.host.sending = r ∧ s.Answered t m.1 .busError := by
  have hexec := exec_abort (s := s) (c := 5) p 2#32
  rw [chCtrl_abort (c := 5) h hf hj] at hexec
  obtain ⟨-, hturn⟩ := abortTransfer_frame s 5 y.job
  generalize s.abortTransfer (5 : Fin 16) y.job = a at hexec hturn
  have hsend : a.host.sending = m :: r := by
    have e := congrArg HostIf.sending hturn.1
    exact (show a.host.sending = s.host.sending from e).trans hs
  have hab : a.aborted (5 : Fin 16) y = ({ a with host := { a.host with sending := r } } : State).complete 1 m.1 .busError := by
    change (if y.write = true then _ else _) = _
    rw [if_pos hw, hsend]
  rw [hab] at hexec
  obtain ⟨x, hx, hrest, hans⟩ := complete_frame { a with host := { a.host with sending := r } } 1 m.1 .busError 0 0 0
  generalize ({ a with host := { a.host with sending := r } } : State).complete 1 m.1 .busError = b at hexec hx hans
  have hp := pumpAll_rackSteps (.refl b)
  refine ⟨_, hexec, ?_, ?_⟩
  · have e1 := congrArg HostIf.sending hp.turns.1
    have e2 := congrArg HostIf.sending hx.turns.1
    have e3 := congrArg HostIf.sending hrest
    exact (show b.pumpAll.host.sending = b.host.sending from e1).trans ((show b.host.sending = x.sending from e2).trans e3)
  · have hb : s.Answered b m.1 .busError := hans.of_eq hturn.2
    obtain ⟨z, hz, hq⟩ := hb
    exact ⟨z, hp.answers.trans hz, hq⟩

/-- Settles O39, end by end. -/
theorem rackingChannelsEndHaltAndResume : Obligations.RackingChannelsEndHaltAndResume := by
  intro s c x rest hs hi
  refine ⟨done_frees hs hi, fun q => done_fetches hs hi, fun cause hg hk hd hh => done_busError hs hi hg hk hd hh, fun res ho hg hh => ?_,
    done_old hs hi, fun hr hh => ?_, fun k hst hh hj hk hle => ?_,
    fun p w hh => ⟨⟨_, exec_resume p w, chCtrl_of_not_halted w hh⟩, ⟨_, exec_abort p w, chCtrl_of_not_halted w hh⟩⟩, channelResume_resumes, ?_, ?_⟩
  · obtain ⟨t, he, h1, h2, -⟩ := done_outOfRange hs hi (res := res) ho hg hh
    exact ⟨t, he, h1, h2⟩
  · obtain ⟨t, he, h1, h2, -, h4⟩ := completionTimeout_halts hi hr hh
    exact ⟨t, he, h1, h2, h4⟩
  · obtain ⟨t, he, h1, h2, -, h4⟩ := transferTimeout_halts hi hst hh hj hk hle
    exact ⟨t, he, h1, h2, h4⟩
  · rintro p y hh rfl hf hj
    exact channelAbort_capture p hh hf hj
  · rintro p m r y hh rfl hf hj hw hsend
    exact channelAbort_report p hh hf hj hw hsend

end Sys2Proof.Machine

end

/-! ## The ledger's commands: commit, SPOIL and the Rinse (R373, R377, R380) -/

section

namespace Sys2Proof.Machine

variable {s t u : State}

theorem foldl_same {α β : Type} (g : State → β) (l : List α) {f : State → α → State} (hf : ∀ a x, g (f a x) = g a) (s : State) :
    g (l.foldl f s) = g s := by
  induction l generalizing s with
  | nil => rfl
  | cons x r ih => exact (ih _).trans (hf s x)

/-! ### Commit (R377) -/

/-- A committed entry acts on the committed ledger and leaves the journal. -/
theorem commitEntry_frame (s : State) (e : JEntry) : (s.commitEntry e).jr = s.jr ∧ (s.commitEntry e).nvm.led = s.nvm.led.apply e := by
  have hmeter : ∀ (b : State) (k n : Nat), (b.meter k n).jr = b.jr ∧ (b.meter k n).nvm = b.nvm := fun _ _ _ => ⟨rfl, rfl⟩
  unfold State.commitEntry
  extract_lets v b w
  suffices h : b.jr = s.jr ∧ b.nvm.led = s.nvm.led from ⟨h.1, congrArg (fun l => Ledger.apply l e) h.2⟩
  constructor
  · simp only [b]
    split
    · split
      · split <;> exact (hmeter ..).1
      · rfl
    · rfl
    · rfl
    · exact ((hmeter ..).1.trans (hmeter ..).1).trans (foldl_same State.jr _ (fun a v => (hmeter ..).1) s)
    · rfl
    · rfl
    · rfl
    · rfl
    · rfl
  · simp only [b]
    split
    · split
      · split <;> exact congrArg _ (hmeter ..).2
      · rfl
    · rfl
    · rfl
    · exact congrArg _ (((hmeter ..).2.trans (hmeter ..).2).trans (foldl_same State.nvm _ (fun a v => (hmeter ..).2) s))
    · rfl
    · rfl
    · rfl
    · rfl
    · rfl

theorem commitEntries_frame (l : List (Nat × JEntry)) (s : State) : (l.foldl (fun a e => a.commitEntry e.2) s).jr = s.jr
    ∧ (l.foldl (fun a e => a.commitEntry e.2) s).nvm.led = l.foldl (fun x e => x.apply e.2) s.nvm.led := by
  induction l generalizing s with
  | nil => exact ⟨rfl, rfl⟩
  | cons e r ih =>
    obtain ⟨h1, h2⟩ := ih (s.commitEntry e.2)
    obtain ⟨g1, g2⟩ := commitEntry_frame s e.2
    exact ⟨h1.trans g1, h2.trans (by rw [g2]; rfl)⟩

theorem putP_keeps (s : State) (o v : Nat) : (s.putP o v).jr = s.jr ∧ (s.putP o v).nvm = s.nvm := ⟨rfl, rfl⟩

theorem meterTotals_frame (s : State) : s.meterTotals.jr = s.jr ∧ s.meterTotals.nvm = s.nvm := by
  unfold State.meterTotals
  exact ⟨foldl_same State.jr _ (fun a i => (putP_keeps a _ _).1) s, foldl_same State.nvm _ (fun a i => (putP_keeps a _ _).2) s⟩

theorem journalCommit_commits (s : State) : Leads s .journalCommit fun t => t.jr.inflight = [] ∧ t.jr.cur = s.jr.cur ∧ t.jr.backlog = s.jr.backlog
    ∧ t.nvm.led = s.jr.inflight.foldl (fun l x => l.apply x.2) s.nvm.led := by
  refine ⟨_, rfl, ?_⟩
  unfold State.commitRecord
  extract_lets l a n kn src b ms host d
  have ha : a.jr = s.jr ∧ a.nvm.led = l.foldl (fun x e => x.apply e.2) s.nvm.led := commitEntries_frame l s
  have hd : d.jr.inflight = [] ∧ d.jr.cur = a.jr.cur ∧ d.jr.backlog = a.jr.backlog ∧ d.nvm = a.nvm := ⟨rfl, rfl, rfl, rfl⟩
  clear_value d a
  obtain ⟨mj, mn⟩ := meterTotals_frame d
  have hput : ∀ (y : State) (o : Nat) (w : Word), (y.putR o w).jr = y.jr ∧ (y.putR o w).nvm = y.nvm := fun _ _ _ => ⟨rfl, rfl⟩
  obtain ⟨pj, pn⟩ := hput d.meterTotals R.VIN_FLOOR (BitVec.ofNat 32 d.nvm.mono[(0 : Fin 3)])
  beta_reduce
  rw [pj, mj, pn, mn]
  obtain ⟨h1, h2, h3, h4⟩ := hd
  exact ⟨h1, h2.trans (by rw [ha.1]), h3.trans (by rw [ha.1]), by rw [h4]; exact ha.2⟩

/-! ### Entries of the journal (R376) -/

theorem jfullCheck_jr (s : State) : s.jfullCheck.jr = s.jr := by
  unfold State.jfullCheck
  split <;> rfl

theorem journal_acts (e : JEntry) (h : s.jr.frozenAc = false) : (s.journal e).led = s.led.apply e ∧ (s.journal e).host = s.host
    ∧ (s.journal e).jr = { s.jr with cur := s.jr.cur ++ [(s.recTick, e)] } := by
  obtain ⟨hl, -, hh⟩ := journal_frame e h
  refine ⟨hl, hh, ?_⟩
  rw [State.journal, if_neg (by simp [h])]
  exact jfullCheck_jr _

theorem spoil_spoils (p : Port) {id : Word} {sh : Sheet} (hf : s.led.find id = some sh) (he : sh.place.inEngine = true) (hs : sh.spoiled = false)
    (hz : s.jr.frozenAc = false) : Leads s (.spoil p id) fun t => t.led = s.led.apply (.spoil id)
      ∧ t.jr.cur = s.jr.cur ++ [(s.recTick, .spoil id)] := by
  have hexec : exec (.spoil p id) s = .next (s.journal (.spoil id)) := by
    change Host.Outcome.next (s.spoilWrite id) = _
    rw [State.spoilWrite, hf]
    dsimp only
    rw [if_pos he, State.spoil, hf]
    dsimp only
    rw [if_neg (by rw [hs]; decide)]
  obtain ⟨hl, -, hj⟩ := journal_acts (.spoil id) hz
  exact ⟨_, hexec, hl, by rw [hj]⟩

theorem spoil_refused (p : Port) {id : Word} (hf : s.led.find id = none) :
    Leads s (.spoil p id) fun t => t.led = s.led ∧ t.Arisen (Ev.writeRefused 0x13) 0 := by
  have hexec : exec (.spoil p id) s = .next (s.refuse R.LDG_SPOIL) := by
    change Host.Outcome.next (s.spoilWrite id) = _
    rw [State.spoilWrite, hf]
  exact ⟨_, hexec, rfl, arisen_raise ..⟩

/-! ### The Rinse (R380) -/

/-- The Rinse `j` has ended with status `st`, the ledger as it was. -/
def State.RinseEnds (s : State) (j : RinseJob) (st : Status) (t : State) : Prop :=
  t.host.rinse = none ∧ s.Answered t j.cid st ∧ t.led = s.led ∧ t.flag F.LDG_RINSE_REQ = false ∧ ∀ id i, s.Arisen id i → t.Arisen id i

theorem rinseEnd_ends (s : State) (j : RinseJob) (st : Status) (moved : Nat) {cause : Nat} (hc : cause < 8) :
    s.RinseEnds j st (s.rinseEnd j st moved cause) ∧ (st ≠ .ok → (s.rinseEnd j st moved cause).getF F.LDG_RINSE_CAUSE = cause) := by
  unfold State.rinseEnd
  extract_lets h a b d
  have ha : a.host.rinse = none ∧ a.answers = s.answers ∧ a.led = s.led ∧ a.ev = s.ev ∧ a.tsc = s.tsc := ⟨rfl, rfl, rfl, rfl, rfl⟩
  clear_value a
  have hb : b.host = a.host ∧ b.led = a.led ∧ b.ev = a.ev ∧ b.tsc = a.tsc ∧ b.flag F.LDG_RINSE_REQ = false :=
    ⟨rfl, rfl, rfl, rfl, flag_putF_same a F.LDG_RINSE_REQ 0 (by decide)⟩
  clear_value b
  have hd : d.host = b.host ∧ d.led = b.led ∧ d.ev = b.ev ∧ d.tsc = b.tsc ∧ d.flag F.LDG_RINSE_REQ = b.flag F.LDG_RINSE_REQ
      ∧ (st ≠ .ok → d.getF F.LDG_RINSE_CAUSE = cause) := by
    simp only [d]
    split
    · next e => exact ⟨rfl, rfl, rfl, rfl, rfl, fun q => absurd e q⟩
    · refine ⟨rfl, rfl, rfl, rfl, flag_putF_apart (f := F.LDG_RINSE_CAUSE) cause (Or.inr (by decide)), fun _ => ?_⟩
      rw [getF_putF_same b F.LDG_RINSE_CAUSE cause (by decide)]
      exact Nat.mod_eq_of_lt hc
  clear_value d
  obtain ⟨a1, a2, a3, a4, a5⟩ := ha
  obtain ⟨b1, b2, b3, b4, b5⟩ := hb
  obtain ⟨d1, d2, d3, d4, d5, d6⟩ := hd
  obtain ⟨x, hx, hrest, hans⟩ := complete_frame d 1 j.cid st 0 (BitVec.ofNat 32 moved) 0
  generalize d.complete 1 j.cid st 0 (BitVec.ofNat 32 moved) 0 = e at hx hans ⊢
  have hrinse : e.host.rinse = none := by
    have e1 := congrArg HostIf.rinse hx.turns.1
    have e2 := congrArg HostIf.rinse hrest
    exact ((show e.host.rinse = x.rinse from e1).trans e2).trans ((congrArg HostIf.rinse (d1.trans b1)).trans a1)
  have hled : e.led = s.led := hx.led.trans (d2.trans (b2.trans a3))
  have hanswers : d.answers = s.answers := by
    rw [State.answers, d1, b1]
    exact a2
  refine ⟨⟨hrinse, hans.of_eq hanswers, hled, ?_, fun id i q => ?_⟩, fun q => ?_⟩
  · rw [hx.flag F.LDG_RINSE_REQ (by decide)]
    exact d5.trans b5
  · exact hx.arisen ((q.of_eq (d3.trans (b3.trans a4)) (d4.trans (b4.trans a5))).of_eq rfl rfl)
  · rw [hx.getF F.LDG_RINSE_CAUSE (by decide)]
    exact d6 q

section rinse

variable {j : RinseJob} (hj : s.host.rinse = some j)

/-- A sheet that no page has moves no page. -/
theorem jamSheet_none (hp : ∀ x ∈ s.cel.pages, x.sheet = none) (id : Word) : s.jamSheet id = s := by
  have hnil : s.pagesOf id = [] := List.filter_eq_nil_iff.2 fun x hx => by simp [hp x hx]
  rw [State.jamSheet, hnil]
  rfl

theorem jamSheets_none (hp : ∀ x ∈ s.cel.pages, x.sheet = none) (ids : List Word) : s.each ids State.jamSheet = s := by
  induction ids with
  | nil => rfl
  | cons id r ih =>
    refine (congrArg (fun a => List.foldl State.jamSheet a r) (jamSheet_none hp id)).trans ih

theorem rinseFollow_frame (s : State) : s.rinseFollow.led = s.led ∧ s.rinseFollow.host = s.host ∧ s.rinseFollow.tsc = s.tsc := by
  unfold State.rinseFollow
  extract_lets n
  split
  · split <;> exact ⟨rfl, rfl, rfl⟩
  · exact ⟨rfl, rfl, rfl⟩

include hj

theorem exec_rinseClear (p : Port) : exec (.rinseClear p) s
    = .next (if s.frozen = true then { s with host := { s.host with rinse := some { j with heldClear := true } } } else s.rinsePurge j) := by
  change Host.Outcome.next (s.rinseWrite 2#32) = _
  unfold State.rinseWrite
  rw [hj]
  rfl

theorem rinseClear_purges (p : Port) (hf : s.frozen = false) (hz : s.jr.frozenAc = false) (hp : ∀ x ∈ s.cel.pages, x.sheet = none) :
    Leads s (.rinseClear p) fun t => t.host.rinse = none ∧ t.led = s.led.apply (.purge j.ids) ∧ s.Answered t j.cid .ok
      ∧ t.flag F.LDG_RINSE_REQ = false := by
  have hexec := exec_rinseClear hj p
  rw [if_neg (by rw [hf]; decide), State.rinsePurge] at hexec
  rw [jamSheets_none hp] at hexec
  obtain ⟨hl, hh, -⟩ := journal_acts (.purge j.ids) hz
  obtain ⟨gl, gh, -⟩ := rinseFollow_frame (s.journal (.purge j.ids))
  generalize (s.journal (.purge j.ids)).rinseFollow = a at hexec gl gh
  obtain ⟨⟨h1, h2, h3, h4, -⟩, -⟩ := rinseEnd_ends a j .ok
    (s.led.sheets.filter fun sh => j.ids.contains sh.id && sh.place.inEngine).length (cause := 0) (by decide)
  exact ⟨_, hexec, h1, h3.trans (gl.trans hl), h2.of_eq (by rw [State.answers, gh, hh, State.answers]), h4⟩

theorem rinseClear_waits (p : Port) (hf : s.frozen = true) :
    Leads s (.rinseClear p) fun t => t.host.rinse = some { j with heldClear := true } ∧ t.led = s.led := by
  have hexec := exec_rinseClear hj p
  rw [if_pos hf] at hexec
  exact ⟨_, hexec, rfl, rfl⟩

theorem rinseFail_ends (p : Port) (hh : j.heldClear = false) : Leads s (.rinseFail p) fun t => t.host.rinse = none
    ∧ s.Answered t j.cid .rinseRefused ∧ t.led = s.led ∧ t.getF F.LDG_RINSE_CAUSE = 3 := by
  have hexec : exec (.rinseFail p) s = .next (s.rinseEnd j .rinseRefused 0 3) := by
    change Host.Outcome.next (s.rinseWrite 4#32) = _
    unfold State.rinseWrite
    rw [hj]
    change Host.Outcome.next (if j.heldClear = true then s else s.rinseEnd j .rinseRefused 0 3) = _
    rw [if_neg (by rw [hh]; decide)]
  obtain ⟨⟨h1, h2, h3, -, -⟩, h6⟩ := rinseEnd_ends s j .rinseRefused 0 (cause := 3) (by decide)
  exact ⟨_, hexec, h1, h2, h3, h6 (by decide)⟩

theorem rinseTimeout_ends (hh : j.heldClear = false) (hle : j.since + (s.getR R.LDG_RINSE_TO).toNat ≤ s.tick) :
    Leads s .rinseTimeout fun t => t.host.rinse = none ∧ s.Answered t j.cid .rinseRefused ∧ t.led = s.led ∧ t.Arisen Ev.LDG_RINSE_TIMEOUT 0 := by
  have hexec : exec .rinseTimeout s = .next ((s.raise Ev.LDG_RINSE_TIMEOUT).rinseEnd j .rinseRefused 0 4) := by
    change execRinseTimeout s = _
    unfold execRinseTimeout
    rw [hj]
    exact congrArg _ (if_pos (by simpa [hh] using hle))
  obtain ⟨⟨h1, h2, h3, -, h5⟩, -⟩ := rinseEnd_ends (s.raise Ev.LDG_RINSE_TIMEOUT) j .rinseRefused 0 (cause := 4) (by decide)
  exact ⟨_, hexec, h1, h2.of_eq rfl, h3, h5 _ _ (arisen_raise ..)⟩

end rinse

end Sys2Proof.Machine

end

/-! ## Meter reports, the copy to EVR and the audits of a tick (R18, R110, R384, R417) -/

section

namespace Sys2Proof.Machine

variable {s t u : State}

/-! ### Meter reports (R384) -/

theorem State.RackSteps.freeCtr (h : s.RackSteps t) : t.freeCtr = s.freeCtr := by
  obtain ⟨⟨r, x, k, e, rfl⟩, -⟩ := h
  rfl

section meters

variable {m : MeterJob} {r : List MeterJob} (hm : s.host.meters = m :: r)

include hm

theorem meterSnapshot_signs {b : List Byte} (hb : m.body = some b) (hf : s.flag F.SEC_STATUS_RNG_FAIL = false) :
    Leads s .meterSnapshot fun t => t.host.meters = r ∧ t.freeCtr = s.freeCtr + 1
      ∧ t.host.sending = s.host.sending ++ [(m.cid, m.addr, b
          ++ Crypto.ecdsaSign (s.fuse.idKey.getD 0) (Config.freeValue 256 s.freeCtr) (Crypto.sha256 b))] := by
  obtain ⟨x, hx⟩ : ∃ x, x = b ++ Crypto.ecdsaSign (s.fuse.idKey.getD 0) (Config.freeValue 256 s.freeCtr) (Crypto.sha256 b) := ⟨_, rfl⟩
  have hsign : ({ s with host := { s.host with meters := r } } : State).signReport b = x := by
    rw [State.signReport, State.fresh, hx]
  obtain ⟨y, hy⟩ : ∃ y : State, y = { s with
      freeCtr := s.freeCtr + 1, host := { s.host with meters := r, sending := s.host.sending ++ [(m.cid, m.addr, x)] } } := ⟨_, rfl⟩
  have hexec : exec .meterSnapshot s = .next (y.transfer 5 m.addr 3280 true) := by
    change execMeterSnapshot s = _
    unfold execMeterSnapshot
    rw [hm]
    dsimp only
    rw [if_neg (by rw [hf]; decide), hb]
    dsimp only
    rw [hsign, hy]
    rfl
  have hmeters : y.host.meters = r ∧ y.freeCtr = s.freeCtr + 1 ∧ y.host.sending = s.host.sending ++ [(m.cid, m.addr, x)] := by
    rw [hy]
    exact ⟨rfl, rfl, rfl⟩
  have hp := transfer_rackSteps (.refl y) 5 m.addr 3280 true 0
  have e1 := congrArg HostIf.meters hp.turns.1
  have e2 := congrArg HostIf.sending hp.turns.1
  obtain ⟨h1, h2, h3⟩ := hmeters
  rw [← hx]
  exact ⟨_, hexec, Eq.trans e1 h1, hp.freeCtr.trans h2, Eq.trans e2 h3⟩

theorem meterSnapshot_fails (hf : s.flag F.SEC_STATUS_RNG_FAIL = true) :
    Leads s .meterSnapshot fun t => t.host.meters = r ∧ s.Answered t m.cid .vintageFail := by
  have hexec : exec .meterSnapshot s = .next (({ s with host := { s.host with meters := r } } : State).complete 1 m.cid .vintageFail 1) := by
    change execMeterSnapshot s = _
    unfold execMeterSnapshot
    rw [hm]
    exact congrArg _ (if_pos hf)
  obtain ⟨x, hx, hrest, hans⟩ := complete_frame { s with host := { s.host with meters := r } } 1 m.cid .vintageFail 1 0 0
  generalize ({ s with host := { s.host with meters := r } } : State).complete 1 m.cid .vintageFail 1 = b at hexec hx hans
  have e1 := congrArg HostIf.meters hx.turns.1
  have e2 := congrArg HostIf.meters hrest
  exact ⟨b, hexec, Eq.trans e1 e2, hans.of_eq rfl⟩

end meters

/-! ### The copy to EVR (R110, R417) -/

theorem signal_evr (s : State) (v : Nat) : (s.signal v).host.evr = s.host.evr := by
  unfold State.signal
  split <;> rfl

theorem advTail_host (s : State) (r : Nat) : (s.advTail r).host = s.host := by
  unfold State.advTail
  extract_lets n
  split <;> rfl

theorem coal_evr (s : State) (evr : Bool) : (s.coal evr).host.evr = s.host.evr := by
  unfold State.coal
  extract_lets c k n old n' old'
  split
  · split
    · exact signal_evr _ 2
    · rfl
  · split
    · exact signal_evr _ 0
    · rfl

theorem cqWrite_evr (s : State) (e : CqEntry) : (s.cqWrite e).host.evr = s.host.evr := by
  unfold State.cqWrite
  extract_lets x h a
  rw [coal_evr, advTail_host]

theorem cqDrainOne_evr (s : State) : s.cqDrainOne.host.evr = s.host.evr := by
  unfold State.cqDrainOne
  split
  · rfl
  · rw [cqWrite_evr]

theorem summary_host (s : State) (c : Nat) : (s.summary c).host = s.host := by
  unfold State.summary
  extract_lets total rep fd x y
  split <;> rfl

theorem evCounts_host (s : State) : s.evCounts.host = s.host := rfl

theorem summaries_host (s : State) (n : Nat) : (s.forEach n State.summary).host = s.host :=
  foldl_same State.host (List.range n) (fun a i => summary_host a i) s

/-- The held event of lowest serial is the next entry. -/
theorem evrCopyOne_copies {e : Event} (hr : s.evrRoom = true) (hl : lowest s.ev.waiting = some e) :
    s.evrCopyOne.host.evr = s.host.evr ++ [(e, s.flag (F.HIF_RING_PTR_PHASE 3))] := by
  unfold State.evrCopyOne
  rw [if_neg (by rw [hr]; decide), hl]
  dsimp only
  rw [evCounts_host, summaries_host]
  split
  · rw [signal_evr, advTail_host]
  · rw [coal_evr, advTail_host]

theorem evrCopyOne_grows (s : State) : ∃ l, s.evrCopyOne.host.evr = s.host.evr ++ l := by
  by_cases hr : s.evrRoom = true
  · cases hl : lowest s.ev.waiting with
    | some e => exact ⟨_, evrCopyOne_copies hr hl⟩
    | none =>
      refine ⟨[], ?_⟩
      rw [State.evrCopyOne, if_neg (by rw [hr]; decide), hl, List.append_nil]
  · refine ⟨[], ?_⟩
    rw [State.evrCopyOne, if_pos (by simpa using hr), List.append_nil]

theorem issueTxn_evr (s : State) (c : Nat) : (s.issueTxn c).host.evr = s.host.evr := by
  unfold State.issueTxn
  extract_lets x own
  split
  · rfl
  · split <;> rfl

theorem pump_grows (n : Nat) (s : State) : ∃ l, (State.pump n s).host.evr = s.host.evr ++ l := by
  induction n generalizing s with
  | zero => exact ⟨[], (List.append_nil _).symm⟩
  | succ n ih =>
    unfold State.pump
    split
    · exact ⟨[], (List.append_nil _).symm⟩
    · next c hc =>
      extract_lets a
      have ha : ∃ l, a.host.evr = s.host.evr ++ l := by
        simp only [a]
        split
        · unfold State.ringTurn
          split
          · exact evrCopyOne_grows s
          · exact ⟨[], (cqDrainOne_evr s).trans (List.append_nil _).symm⟩
        · exact ⟨[], (issueTxn_evr s c).trans (List.append_nil _).symm⟩
      clear_value a
      obtain ⟨l, hl⟩ := ha
      have hstep : ∀ b : State, b.host = a.host → ∃ l, (State.pump n b).host.evr = s.host.evr ++ l := fun b hb => by
        obtain ⟨k, hk⟩ := ih b
        exact ⟨l ++ k, by rw [hk, hb, hl, List.append_assoc]⟩
      split
      · exact hstep a rfl
      · exact hstep _ rfl

theorem pumpAll_evr (s : State) : ∃ n, s.pumpAll.host.evr = (State.pump (n + 1) s).host.evr := by
  refine ⟨63 + s.host.cqHeld.length + (if s.host.evrDue then 512 else 0), ?_⟩
  have hn : 63 + s.host.cqHeld.length + (if s.host.evrDue then 512 else 0) + 1
      = 64 + s.host.cqHeld.length + (if s.host.evrDue then 512 else 0) := by omega
  rw [hn]
  unfold State.pumpAll
  extract_lets a
  split <;> rfl

/-- Where only the rings have work, they have the turn. -/
theorem nextGrant_zero (hq : ∀ d, (s.chan d).queued = []) (hw : s.ringWork = true) : s.nextGrant = some 0 := by
  cases hn : s.nextGrant with
  | some c => rw [(nextGrant_ring hq hn).1]
  | none =>
    exfalso
    have h2 : ((List.range 16).map fun i => (s.rck.last + 1 + i) % 16).find? s.hasTurn = none := by
      unfold State.nextGrant at hn
      exact (Option.orElse_eq_none _ _).1 hn |>.2
    have hmem : 0 ∈ (List.range 16).map fun i => (s.rck.last + 1 + i) % 16 :=
      List.mem_map.2 ⟨15 - s.rck.last % 16, List.mem_range.2 (by omega), by omega⟩
    have := List.find?_eq_none.1 h2 0 hmem
    rw [State.hasTurn, hw] at this
    simp at this

theorem evrCopy_copies {e : Event} (hr : s.evrRoom = true) (hl : lowest (s.ev.alarms ++ s.ev.general ++ s.ev.markers) = some e)
    (hh : s.host.cqHeld = []) (hq : ∀ c, (s.chan c).queued = []) :
    Leads s .evrCopy fun t => ∃ l, t.host.evr = s.host.evr ++ (e, s.flag (F.HIF_RING_PTR_PHASE 3)) :: l := by
  obtain ⟨a, ha⟩ : ∃ a : State, a = { s with host := { s.host with evrDue := true } } := ⟨_, rfl⟩
  have hexec : exec .evrCopy s = .next (a.pumpAll.forEach 4 State.summary) := by
    rw [ha]
    rfl
  have hopen : s.ringOpen = true := by
    rw [State.evrRoom, Bool.and_eq_true, Bool.and_eq_true] at hr
    exact hr.1.2
  have hwait : s.ev.waiting.isEmpty = false := by
    cases hw : s.ev.waiting with
    | nil =>
      rw [show s.ev.alarms ++ s.ev.general ++ s.ev.markers = [] from hw] at hl
      cases hl
    | cons x r => rfl
  have hroom : a.evrRoom = true ∧ a.host.evr = s.host.evr ∧ a.ev = s.ev ∧ a.host.cqHeld = [] ∧ a.host.evrDue = true
      ∧ a.flag (F.HIF_RING_PTR_PHASE 3) = s.flag (F.HIF_RING_PTR_PHASE 3) ∧ a.ringOpen = true ∧ ∀ c, (a.chan c).queued = [] := by
    rw [ha]
    exact ⟨hr, rfl, rfl, hh, rfl, rfl, hopen, hq⟩
  clear ha
  obtain ⟨h1, h2, h3, h4, h5, h6, h7, h8⟩ := hroom
  have hwork : a.ringWork = true := by
    rw [State.ringWork, h7, h4, h5, h1, h3, hwait]
    rfl
  have hturn : a.ringTurn.host.evr = s.host.evr ++ [(e, s.flag (F.HIF_RING_PTR_PHASE 3))] := by
    rw [State.ringTurn, if_pos (by rw [h4]; rfl), evrCopyOne_copies h1 (h3 ▸ hl), h2, h6]
  have hpump : ∀ n, ∃ l, (State.pump (n + 1) a).host.evr = s.host.evr ++ (e, s.flag (F.HIF_RING_PTR_PHASE 3)) :: l := fun n => by
    have hstep : ∀ b : State, b.host = a.ringTurn.host → ∃ l, (State.pump n b).host.evr
        = s.host.evr ++ (e, s.flag (F.HIF_RING_PTR_PHASE 3)) :: l := fun b hb => by
      obtain ⟨l, hl⟩ := pump_grows n b
      exact ⟨l, by rw [hl, hb, hturn, List.append_assoc, List.singleton_append]⟩
    unfold State.pump
    rw [nextGrant_zero h8 hwork]
    dsimp only
    have hc : 0 = 0 ∧ a.ringWork = true := ⟨rfl, hwork⟩
    rw [if_pos hc]
    split
    · exact hstep _ rfl
    · exact hstep _ rfl
  obtain ⟨n, hn⟩ := pumpAll_evr a
  obtain ⟨l, hl'⟩ := hpump n
  refine ⟨_, hexec, l, ?_⟩
  beta_reduce
  rw [summaries_host, hn, hl']

/-! ### The audits of a tick (R18) -/

/-- From `s` to `t` the ledger, the pages and the time stay. -/
def State.Audits (s t : State) : Prop := t.led = s.led ∧ t.cel.pages = s.cel.pages ∧ t.tsc = s.tsc

theorem State.Audits.refl (s : State) : s.Audits s := ⟨rfl, rfl, rfl⟩

theorem State.Audits.trans (h : s.Audits t) (h' : t.Audits u) : s.Audits u :=
  ⟨h'.1.trans h.1, h'.2.1.trans h.2.1, h'.2.2.trans h.2.2⟩

theorem State.RackSteps.audits (h : s.RackSteps t) : s.Audits t := ⟨h.led, by rw [h.cel], h.tsc⟩

theorem startEviction_audits (s : State) : s.Audits s.startEviction.1 := by
  unfold State.startEviction
  split <;> exact ⟨rfl, rfl, rfl⟩

theorem evictFor_audits (n : Nat) (s : State) : s.Audits (State.evictFor n s) := by
  induction n generalizing s with
  | zero => exact .refl s
  | succ n ih =>
    unfold State.evictFor
    extract_lets r v
    split
    · have hr : s.Audits r.1 := startEviction_audits s
      clear_value v r
      refine hr.trans (State.Audits.trans ?_ (ih _))
      split
      · exact (transfer_rackSteps (.refl r.1) ..).audits
      · exact .refl _
    · exact .refl s

theorem rackAudit_audits (s : State) : s.Audits s.rackAudit := by
  unfold State.rackAudit
  split
  · exact .refl s
  · extract_lets k a b
    have ha : s.Audits a := ⟨rfl, rfl, rfl⟩
    clear_value a
    have hstep : ∀ (y : State) (c : Nat), y.Audits (if isStation c = true then y else
        ((y.setChan c (if y.halted c = true then y.chan c else { y.chan c with failed := ((y.chan c).issued ++ (y.chan c).queued).find? fun t => t.job != 0 })).putF
          (F.RCK_CH_STATUS_STATE c) 2).signal (16 + c)) := fun y c => by
      split
      · exact .refl y
      · obtain ⟨x, hx⟩ := signal_frame ((y.setChan c (if y.halted c = true then y.chan c else
          { y.chan c with failed := ((y.chan c).issued ++ (y.chan c).queued).find? fun t => t.job != 0 })).putF (F.RCK_CH_STATUS_STATE c) 2) (16 + c)
        rw [hx]
        exact ⟨rfl, rfl, rfl⟩
    have hb : a.Audits b := ⟨foldl_same State.led _ (fun y c => (hstep y c).1) a, foldl_same (fun y => y.cel.pages) _ (fun y c => (hstep y c).2.1) a,
      foldl_same State.tsc _ (fun y c => (hstep y c).2.2) a⟩
    clear_value b
    exact ha.trans (hb.trans ⟨rfl, rfl, rfl⟩)

theorem tickAudits_audits (s : State) : Leads s .tickAudits fun t => t.led = s.led ∧ t.cel.pages = s.cel.pages
    ∧ (s.cycle < 3800 → t.tsc = BitVec.ofNat 64 (s.tick * 4000 + 3800)) := by
  refine ⟨_, rfl, ?_⟩
  unfold State.evictRetiring
  extract_lets a
  have ha : a.led = s.led ∧ a.cel.pages = s.cel.pages ∧ (s.cycle < 3800 → a.tsc = BitVec.ofNat 64 (s.tick * 4000 + 3800)) := by
    simp only [a]
    split
    · obtain ⟨⟨r, j, b, st, l, hs, -⟩, -⟩ := setTsc_frame s (BitVec.ofNat 64 (s.tick * 4000 + 3800))
      obtain ⟨⟨r', e, l', hi⟩, -⟩ := issueAll_issues (s.setTsc (BitVec.ofNat 64 (s.tick * 4000 + 3800)))
      rw [hi, hs]
      exact ⟨rfl, rfl, fun _ => rfl⟩
    · next hn => exact ⟨rfl, rfl, fun h => absurd h hn⟩
  clear_value a
  have hb := evictFor_audits a.retiringVictims.length a
  generalize State.evictFor a.retiringVictims.length a = b at hb
  have hc : b.Audits b.ledgerAudit := by
    unfold State.ledgerAudit
    split <;> exact ⟨rfl, rfl, rfl⟩
  generalize b.ledgerAudit = c at hc
  have hd : c.Audits c.granuleAudit := by
    unfold State.granuleAudit
    extract_lets total d
    split <;> exact ⟨rfl, rfl, rfl⟩
  generalize c.granuleAudit = d at hd
  have he : d.Audits d.creditAudit := by
    unfold State.creditAudit
    extract_lets n
    split <;> exact ⟨rfl, rfl, rfl⟩
  generalize d.creditAudit = e at he
  have hf := rackAudit_audits e
  generalize e.rackAudit = f at hf
  have hg : f.Audits f.serialAudit := by
    unfold State.serialAudit
    split <;> exact ⟨rfl, rfl, rfl⟩
  obtain ⟨h1, h2, h3⟩ := hb.trans (hc.trans (hd.trans (he.trans (hf.trans hg))))
  obtain ⟨a1, a2, a3⟩ := ha
  exact ⟨h1.trans a1, h2.trans a2, fun h => h3.trans (a3 h)⟩

/-- Settles O37, command by command. -/
theorem ledgerCommandsAct : Obligations.LedgerCommandsAct := by
  intro s
  refine ⟨journalCommit_commits s, fun p id sh hf he hs hz => spoil_spoils p hf he hs hz, fun p id hf => spoil_refused p hf,
    fun p j hj => ⟨rinseClear_purges hj p, rinseClear_waits hj p, rinseFail_ends hj p, rinseTimeout_ends hj⟩,
    fun m r b hm hb hf => meterSnapshot_signs hm hb hf, fun m r hm hf => meterSnapshot_fails hm hf,
    fun e hr hl hh hq => evrCopy_copies hr hl hh hq, tickAudits_audits s⟩

end Sys2Proof.Machine

end

/-! ## Pages leave the store (R116, R118, R119, R179) -/

section

namespace Sys2Proof.Machine

variable {s t u : State}

/-! ### Granules -/

/-- From `s` to `t` granules have been taken or given back: the registers and the store's bookkeeping change, the pages stay. -/
def State.Stores (s t : State) : Prop := ∃ r c, t = { s with regs := r, cel := c } ∧ c.pages = s.cel.pages

theorem State.Stores.refl (s : State) : s.Stores s := ⟨_, _, rfl, rfl⟩

theorem State.Stores.trans (h : s.Stores t) (h' : t.Stores u) : s.Stores u := by
  obtain ⟨r, c, rfl, hc⟩ := h
  obtain ⟨r', c', rfl, hc'⟩ := h'
  exact ⟨r', c', rfl, hc'.trans hc⟩

theorem State.Stores.putF (h : s.Stores t) (f : Fld) (v : Nat) : s.Stores (t.putF f v) := h.trans ⟨_, _, rfl, rfl⟩

theorem State.Stores.putR (h : s.Stores t) (o : Nat) (w : Word) : s.Stores (t.putR o w) := h.trans ⟨_, _, rfl, rfl⟩

theorem State.Stores.setCel (h : s.Stores t) (c : Cellar) (hc : c.pages = t.cel.pages) : s.Stores { t with cel := c } := h.trans ⟨_, _, rfl, hc⟩

theorem State.Stores.foldl {α : Type} (l : List α) {f : State → α → State} (hf : ∀ b x, State.Stores b (f b x)) (s : State) :
    s.Stores (l.foldl f s) := by
  induction l generalizing s with
  | nil => exact .refl s
  | cons x r ih => exact (hf s x).trans (ih (f s x))

theorem State.Stores.pages (h : s.Stores t) : t.cel.pages = s.cel.pages := by
  obtain ⟨r, c, rfl, hc⟩ := h
  exact hc

theorem State.Stores.host (h : s.Stores t) : t.host = s.host := by
  obtain ⟨r, c, rfl, -⟩ := h
  rfl

theorem winFollow_stores (s : State) : s.Stores s.winFollow := by
  refine .foldl _ (fun b i => ?_) s
  split
  · exact (State.Stores.refl b).putF ..
  · exact .refl b

theorem freeOne_stores (s : State) (g : Gran) : s.Stores (s.freeOne g) := by
  unfold State.freeOne
  split
  · split
    · exact .refl s
    · next n _ =>
      have ha : s.Stores { s with cel := { s.cel with used := s.cel.used.filter (· != n) } } := (State.Stores.refl s).setCel _ rfl
      extract_lets c a
      change s.Stores a at ha
      clear_value a
      have hb := (ha.putF F.CEL_GRAN_FREE (a.getF F.CEL_GRAN_FREE + 1))
      generalize a.putF F.CEL_GRAN_FREE (a.getF F.CEL_GRAN_FREE + 1) = b at hb
      exact (hb.putF F.CEL_GRAN_ALLOC _).trans (winFollow_stores _)
  · next n =>
    have ha : s.Stores { s with cel := { s.cel with dramUsed := s.cel.dramUsed.filter (· != n) } } := (State.Stores.refl s).setCel _ rfl
    extract_lets c a
    change s.Stores a at ha
    clear_value a
    exact (ha.putF F.CEL_DGRAN_FREE _).putF F.CEL_STATUS_DRAM_FULL _

theorem bankFollow_stores (s : State) (k : Nat) : s.Stores (s.bankFollow k) := by
  unfold State.bankFollow
  split
  · exact ((((State.Stores.refl s).putR _ _).putR _ _).putF _ _).putF _ _
  · exact .refl s

theorem freeStore_stores (s : State) (p : Page) : s.Stores (s.freeStore p) := by
  unfold State.freeStore
  extract_lets a b c x d
  have ha : s.Stores a := .foldl _ (fun y q => .foldl _ freeOne_stores y) s
  clear_value a
  have hb : s.Stores b := ha.trans (.foldl _ (fun y e => freeOne_stores y _) a)
  clear_value b
  have hc : s.Stores c := hb.trans (.foldl _ (fun y e => freeOne_stores y _) b)
  clear_value c
  have hd : s.Stores d := hc.setCel _ rfl
  clear_value d
  exact ((hd.putF F.CEL_STATUS_EVICTING _).putF F.CEL_STATUS_REFILLING _).trans (.foldl _ bankFollow_stores _)

theorem recompute_stores (s : State) (i : Nat) : s.Stores (s.recompute i) := by
  unfold State.recompute
  exact ((State.Stores.refl s).putR _ _).putR _ _

theorem pagesFollow_stores (s : State) : s.Stores s.pagesFollow := ((State.Stores.refl s).putF _ _).putF _ _

/-! ### A page is released -/

/-- What a page's release leaves: the other pages. -/
theorem dropPage_frame (s : State) (p : Page) :
    (s.setPages (s.cel.pages.filter fun x => x.tag != p.tag)).Stores (s.dropPage p) := by
  unfold State.dropPage
  extract_lets a b c
  have ha : (s.setPages (s.cel.pages.filter fun x => x.tag != p.tag)).Stores a := freeStore_stores _ p
  clear_value a
  have hb := ha.putF F.HIF_PAGE_CREDITS (a.getF F.HIF_PAGE_CREDITS + 1)
  have hc : (s.setPages (s.cel.pages.filter fun x => x.tag != p.tag)).Stores c := by
    simp only [c]
    split
    · exact hb.trans (.foldl _ (fun y q => recompute_stores y _) _)
    · exact hb
  clear_value c
  exact hc.trans (pagesFollow_stores c)

theorem page_eq_none {tag : Word} (h : s.cel.pages = u.cel.pages.filter fun x => x.tag != tag) : s.page tag = none := by
  rw [State.page, h]
  exact List.find?_eq_none.2 fun x hx => by simpa using (List.mem_filter.1 hx).2

theorem dropPage_pages (s : State) (p : Page) : (s.dropPage p).cel.pages = s.cel.pages.filter fun x => x.tag != p.tag :=
  (dropPage_frame s p).pages

theorem dropPage_host (s : State) (p : Page) : (s.dropPage p).host = s.host := (dropPage_frame s p).host

/-- The retire entry of a page that leaves (R119). -/
theorem retire_frame (s : State) (p : Page) (st : Status) (spoiled : Bool) :
    (s.retire p st spoiled).cel.pages = (s.cel.pages.filter fun x => x.tag != p.tag) ∧ (s.retire p st spoiled).host.rest = s.host.rest
      ∧ ∃ r, (s.retire p st spoiled).answers = s.answers ++ [r] ∧ r.retire = true ∧ r.status = st ∧ r.resA = p.tag := by
  unfold State.retire
  extract_lets a
  have hp : a.cel.pages = s.cel.pages.filter fun x => x.tag != p.tag := dropPage_pages s p
  have hh : a.host = s.host := dropPage_host s p
  clear_value a
  obtain ⟨x, hx, hrest, hans⟩ := cqPush_frame a
    { cid := p.cid, sq := 0, retire := true, status := st, detail := boolNat spoiled, resA := p.tag, resB := p.sheet.getD 0#32 }
  refine ⟨(congrArg Cellar.pages hx.cel).trans hp, hx.turns.1.trans (hrest.trans (by rw [hh])), _, (hx.answers.trans hans).trans (by rw [State.answers, hh, State.answers]),
    rfl, rfl, rfl⟩

/-! ### A page that fails -/

theorem stopReading_frame (s : State) (n : Nat) : s.host.Turns (s.stopReading n).host ∧ (s.stopReading n).cel = s.cel := by
  unfold State.stopReading
  extract_lets mine a
  have ha : a.host = s.host ∧ a.cel = s.cel := by
    refine ⟨foldl_same State.host _ (fun b c => ?_) s, foldl_same State.cel _ (fun b c => ?_) s⟩
    · extract_lets
      split <;> rfl
    · extract_lets
      split <;> rfl
  clear_value a
  obtain ⟨h1, h2⟩ := ha
  have hp := pumpAll_rackSteps (.refl a.pausedFollow)
  exact ⟨h1 ▸ hp.turns, hp.cel.trans h2⟩

theorem clearPress_frame (s : State) (p : Page) : (s.clearPress p).cel.pages = s.cel.pages ∧ (s.clearPress p).host = s.host := by
  unfold State.clearPress
  extract_lets mine a isCur lanes passed prs nxt nh b d
  have ha : a.cel.pages = s.cel.pages ∧ a.host = s.host := by
    refine ⟨foldl_same (fun y => y.cel.pages) _ (fun y l => ?_) s, foldl_same State.host _ (fun y l => ?_) s⟩
    · split <;> rfl
    · split <;> rfl
  have hb : b.cel.pages = a.cel.pages ∧ b.host = a.host := ⟨rfl, rfl⟩
  clear_value b
  clear_value a
  split
  · exact ⟨hb.1.trans ha.1, hb.2.trans ha.2⟩
  · split
    · exact ha
    · exact ha

/-- The end of a page with a status other than OK (R116, R155). -/
theorem failPage_fails (s : State) (p : Page) (st : Status) :
    s.Answered (s.failPage p st) p.cid st ∧ (s.failPage p st).page p.tag = none := by
  unfold State.failPage
  extract_lets a
  obtain ⟨h1, h2⟩ := stopReading_frame s p.seq
  have ha : a.answers = s.answers ∧ a.cel.pages = s.cel.pages.filter fun x => x.tag != p.tag := by
    have e : a.host = (s.stopReading p.seq).host := (clearPress_frame ..).2.trans (dropPage_host ..)
    have g : a.cel.pages = (s.stopReading p.seq).cel.pages.filter fun x => x.tag != p.tag := (clearPress_frame ..).1.trans (dropPage_pages ..)
    refine ⟨?_, g.trans (by rw [h2])⟩
    rw [State.answers, e]
    exact h1.2
  clear_value a
  obtain ⟨ha1, ha2⟩ := ha
  obtain ⟨x, hx, -, hans⟩ := complete_frame a 0 p.cid st 0 p.tag 0#32
  generalize a.complete 0 p.cid st 0 p.tag 0#32 = b at hx hans
  exact ⟨hans.of_eq ha1, page_eq_none ((congrArg Cellar.pages hx.cel).trans ha2)⟩

end Sys2Proof.Machine

end

/-! ## Host commands are consumed (R66, R113, R115, R118, R121, R380, R384) -/

section

namespace Sys2Proof.Machine

variable {s t u : State} {e : SqEntry}

/-! ### PAGE_SUBMIT (R113, R115) -/

theorem consume_regs (s : State) (q : Fin 2) (n : Nat) {o : Nat} (h : (∀ r, r < 2 → o ≠ R.HIF_RING_PTR r) ∧ o ≠ R.HIF_STATUS) :
    (s.consume q n).getR o = s.getR o := by
  unfold State.consume
  refine (getR_putF_ne _ F.HIF_STATUS_CQ_STALL _ o h.2).trans ?_
  exact getR_putF_ne s (F.HIF_RING_PTR_PTR q) _ o (h.1 q q.isLt)

/-- What a submitted page asks of the device. -/
def State.admitsPage (s : State) (e : SqEntry) : Prop :=
  e.opcode = 0x01#8 ∧ s.canConsume 0 2 = true ∧ zeroFrom e 4 = true ∧ e.dw[0] ≠ 0#32 ∧ s.flag F.CEL_STATUS_AUDIT_FAIL = false
    ∧ s.getF F.PRS_STATUS_IN_SERVICE ≠ 0

/-- The page of a submission. -/
def submittedPage (e : SqEntry) (n : Nat) : Page :=
  { tag := e.dw[0], cid := e.cid, seq := n, desc := e.dw[1].toNat + 0x100000000 * e.dw[2].toNat, descLen := e.dw[3].toNat }

/-- The page is in the Press and holds a credit. -/
def State.submitted (s : State) (p : Page) : State :=
  let a := s.putF F.HIF_PAGE_CREDITS (s.getF F.HIF_PAGE_CREDITS - 1)
  ({ a with cel := { a.cel with pages := a.cel.pages ++ [p], nextSeq := a.cel.nextSeq + 1 } } : State).pagesFollow

theorem exec_pageSubmit (hd : s.devIs 4 = true) (ha : s.admitsPage e) : exec (.pageSubmit 0 e) s = .next (
    if (s.consume 0 2).getF F.HIF_PAGE_CREDITS = 0 then ((s.consume 0 2).complete 0 e.cid .noCredit 0 e.dw[0]).unreserve
    else if ((s.consume 0 2).page e.dw[0]).isSome = true then ((s.consume 0 2).complete 0 e.cid .duplicateTag 0 e.dw[0]).unreserve
    else (s.consume 0 2).submitted (submittedPage e (s.consume 0 2).cel.nextSeq)) := by
  obtain ⟨hop, hc, hz, htag, haud, hsvc⟩ := ha
  have hcs := consume_rackSteps s 0 2
  have hadm : (s.consume 0 2).admitCmd 0 0 [4] (zeroFrom e 4 && e.dw[0] != 0#32) = none := by
    rw [hz, show (e.dw[0] != 0#32) = true from by simpa using htag]
    exact admitCmd_none ((hcs.devIs 4).trans hd) (by decide)
  have hready : ¬((s.consume 0 2).flag F.CEL_STATUS_AUDIT_FAIL = true ∨ (s.consume 0 2).getF F.PRS_STATUS_IN_SERVICE = 0) := by
    rw [hcs.flag F.CEL_STATUS_AUDIT_FAIL (by decide), hcs.getF F.PRS_STATUS_IN_SERVICE (by decide), haud]
    simpa using hsvc
  change execPageSubmit 0 e s = _
  unfold execPageSubmit
  rw [if_neg (by simp [hop]), if_neg (by rw [hc]; decide)]
  dsimp only
  rw [hadm]
  dsimp only
  rw [if_neg hready]
  rfl

theorem pageSubmit_credits : (s.consume 0 2).getF F.HIF_PAGE_CREDITS = s.getF F.HIF_PAGE_CREDITS := by
  refine getF_congr (consume_regs s 0 2 ⟨fun r hr => ?_, by decide⟩)
  simp only [F.HIF_PAGE_CREDITS, R.HIF_PAGE_CREDITS, R.HIF_RING_PTR]
  omega

theorem submitted_frame (s : State) (p : Page) : (s.submitted p).cel.pages = s.cel.pages ++ [p] ∧ (s.submitted p).host = s.host
    ∧ (s.submitted p).getF F.HIF_PAGE_CREDITS = s.getF F.HIF_PAGE_CREDITS - 1 := by
  refine ⟨rfl, rfl, ?_⟩
  have hlt : s.getF F.HIF_PAGE_CREDITS < 2 ^ F.HIF_PAGE_CREDITS.w := bits_lt ..
  unfold State.submitted
  extract_lets a c
  have ha : a.getF F.HIF_PAGE_CREDITS = s.getF F.HIF_PAGE_CREDITS - 1 := by
    rw [getF_putF_same s F.HIF_PAGE_CREDITS _ (by decide)]
    exact Nat.mod_eq_of_lt (by omega)
  have hb : ∀ b : State, b.getF F.HIF_PAGE_CREDITS = a.getF F.HIF_PAGE_CREDITS → b.pagesFollow.getF F.HIF_PAGE_CREDITS = a.getF F.HIF_PAGE_CREDITS :=
    fun b h => by
      unfold State.pagesFollow
      rw [getF_putF_off _ F.CEL_PAGES_COMMITTED _ _ (by decide), getF_putF_off _ F.CEL_PAGES_HELD _ _ (by decide), h]
  refine (hb _ ?_).trans ha
  rfl

theorem pageSubmit_submits (hd : s.devIs 4 = true) (ha : s.admitsPage e) (hc : s.getF F.HIF_PAGE_CREDITS ≠ 0) (hp : s.page e.dw[0] = none) :
    Leads s (.pageSubmit 0 e) fun t => t.cel.pages = s.cel.pages ++ [submittedPage e s.cel.nextSeq]
      ∧ t.getF F.HIF_PAGE_CREDITS = s.getF F.HIF_PAGE_CREDITS - 1 ∧ t.answers = s.answers := by
  have hexec := exec_pageSubmit hd ha
  have hcs := consume_rackSteps s 0 2
  have hcred : (s.consume 0 2).getF F.HIF_PAGE_CREDITS = s.getF F.HIF_PAGE_CREDITS := pageSubmit_credits
  have hpage : (s.consume 0 2).page e.dw[0] = none := by rw [State.page, hcs.cel, ← State.page, hp]
  rw [if_neg (by rw [hcred]; exact hc), if_neg (by rw [hpage]; decide), hcs.cel] at hexec
  obtain ⟨h1, h2, h3⟩ := submitted_frame (s.consume 0 2) (submittedPage e s.cel.nextSeq)
  refine ⟨_, hexec, h1.trans (by rw [hcs.cel]), h3.trans (by rw [hcred]), ?_⟩
  rw [State.answers, h2]
  exact hcs.answers

theorem pageSubmit_noCredit (hd : s.devIs 4 = true) (ha : s.admitsPage e) (hc : s.getF F.HIF_PAGE_CREDITS = 0) :
    Leads s (.pageSubmit 0 e) fun t => s.Answered t e.cid .noCredit ∧ t.cel = s.cel := by
  have hexec := exec_pageSubmit hd ha
  have hcs := consume_rackSteps s 0 2
  have hcred : (s.consume 0 2).getF F.HIF_PAGE_CREDITS = s.getF F.HIF_PAGE_CREDITS := pageSubmit_credits
  rw [if_pos (hcred.trans hc)] at hexec
  obtain ⟨x, hx, -, hans⟩ := complete_frame (s.consume 0 2) 0 e.cid .noCredit 0 e.dw[0] 0
  generalize (s.consume 0 2).complete 0 e.cid .noCredit 0 e.dw[0] 0 = b at hexec hx hans
  exact ⟨_, hexec, hans.of_eq hcs.answers, hx.cel.trans hcs.cel⟩

/-! ### Commands with one completion -/

/-- A command whose state and fields are in order runs on what its consumption leaves. -/
theorem exec_command {q home : Fin 2} {op : BitVec 8} {states : List Nat} {ok : Bool} {a : Word} {run : State → State}
    (hd : s.devIs 4 = true) (hop : e.opcode = op) (hc : s.canConsume home 1 = true) (hn : 4 ∈ states) (hq : q = home) (hok : ok = true) :
    s.command q home op e states ok a run = run (s.consume home 1) := by
  subst hq hok
  exact command_run hop hc (admitCmd_none (((consume_rackSteps s q 1).devIs 4).trans hd) hn)

/-- A command that is answered leaves the store and the ledger. -/
theorem consume_complete (s : State) (q : Fin 2) (cid : BitVec 16) (st : Status) (d : Nat) (a b : Word) :
    s.Answered ((s.consume q 1).complete q cid st d a b) cid st ∧ ((s.consume q 1).complete q cid st d a b).cel = s.cel
      ∧ ((s.consume q 1).complete q cid st d a b).led = s.led := by
  have hcs := consume_rackSteps s q 1
  obtain ⟨x, hx, -, hans⟩ := complete_frame (s.consume q 1) q cid st d a b
  exact ⟨hans.of_eq hcs.answers, hx.cel.trans hcs.cel, hx.led.trans hcs.led⟩

theorem undefinedCommand_answered (q : Fin 2) (ho : opcodes.contains e.opcode = false) (hc : s.canConsume q 1 = true) :
    Leads s (.undefinedCommand q e) fun t => s.Answered t e.cid .badOpcode ∧ t.cel = s.cel ∧ t.led = s.led := by
  have hexec : exec (.undefinedCommand q e) s = .next ((s.consume q 1).complete q e.cid .badOpcode) :=
    congrArg Host.Outcome.next ((if_neg (by rw [ho]; decide)).trans (if_pos hc))
  exact ⟨_, hexec, consume_complete s q e.cid .badOpcode 0 0 0⟩

/-! ### PAGE_DISCARD (R118) -/

theorem exec_pageDiscard (hd : s.devIs 4 = true) (hop : e.opcode = 0x02#8) (hc : s.canConsume 0 1 = true) (hz : zeroFrom e 1 = true) :
    ∀ o, s.page e.dw[0] = o → exec (.pageDiscard 0 e) s = .next (match o with
      | some p => { s.consume 0 1 with host := { (s.consume 0 1).host with
          discards := (s.consume 0 1).host.discards ++ [{ tag := e.dw[0], seq := p.seq, cid := e.cid, tick := (s.consume 0 1).tick }] } }
      | none => (s.consume 0 1).complete 0 e.cid .unknownTag 0 e.dw[0]) := by
  intro o ho
  have hpage : (s.consume 0 1).page e.dw[0] = o := by rw [State.page, (consume_rackSteps s 0 1).cel, ← State.page, ho]
  change execPageDiscard 0 e s = _
  unfold execPageDiscard
  rw [exec_command hd hop hc (by decide) rfl hz]
  dsimp only
  cases o <;> rw [hpage]

theorem pageDiscard_waits (hd : s.devIs 4 = true) {p : Page} (hop : e.opcode = 0x02#8) (hc : s.canConsume 0 1 = true) (hz : zeroFrom e 1 = true)
    (hp : s.page e.dw[0] = some p) : Leads s (.pageDiscard 0 e) fun t => t.answers = s.answers
      ∧ t.host.discards = s.host.discards ++ [{ tag := e.dw[0], seq := p.seq, cid := e.cid, tick := s.tick }] := by
  have hcs := consume_rackSteps s 0 1
  have hdis := congrArg HostIf.discards hcs.turns.1
  refine ⟨_, exec_pageDiscard hd hop hc hz _ hp, hcs.answers, ?_⟩
  rw [hcs.tick]
  exact congrArg (· ++ [_]) hdis

theorem pageDiscard_unknown (hd : s.devIs 4 = true) (hop : e.opcode = 0x02#8) (hc : s.canConsume 0 1 = true) (hz : zeroFrom e 1 = true)
    (hp : s.page e.dw[0] = none) : Leads s (.pageDiscard 0 e) fun t => s.Answered t e.cid .unknownTag ∧ t.cel = s.cel := by
  obtain ⟨h1, h2, -⟩ := consume_complete s 0 e.cid .unknownTag 0 e.dw[0] 0
  exact ⟨_, exec_pageDiscard hd hop hc hz _ hp, h1, h2⟩

/-- At the tick boundary a STORED page leaves, with its retire entry before the answer. -/
theorem pageDiscardAction_retires {d : Discard} {p : Page} (hs : s.host.discards = [d]) (ht : d.tick < s.tick)
    (hf : s.cel.pages.find? (fun x => x.tag == d.tag && x.seq == d.seq) = some p) (hp : p.st = .stored) :
    Leads s (.pageDiscardAction d.tag) fun t => t.host.discards = [] ∧ t.page d.tag = none
      ∧ ∃ r x, t.answers = s.answers ++ [r, x] ∧ r.retire = true ∧ r.status = .discarded ∧ r.resA = d.tag ∧ x.cid = d.cid ∧ x.status = .ok := by
  obtain ⟨a, ha⟩ : ∃ a : State, a = { s with host := { s.host with discards := [] } } := ⟨_, rfl⟩
  have hfind : s.host.discards.find? (fun x => x.tag == d.tag && Nat.blt x.tick s.tick) = some d := by
    rw [hs]
    exact List.find?_cons_of_pos (by simpa using ht)
  have hexec : exec (.pageDiscardAction d.tag) s = .next ((a.retire p .discarded (a.spoiledPage p)).complete 0 d.cid .ok 0 p.tag) := by
    change execPageDiscardAction d.tag s = _
    unfold execPageDiscardAction
    rw [hfind]
    dsimp only
    rw [hs, List.erase_cons_head, ← ha, hf]
    dsimp only
    rw [State.discardPage, hp]
  have htag : p.tag = d.tag := by
    have := List.find?_some hf
    rw [Bool.and_eq_true] at this
    simpa using this.1
  have hah : a.host.discards = [] ∧ a.answers = s.answers := by
    rw [ha]
    exact ⟨rfl, rfl⟩
  obtain ⟨hpages, hrest, r, hr1, hr2, hr3, hr4⟩ := retire_frame a p .discarded (a.spoiledPage p)
  generalize a.retire p .discarded (a.spoiledPage p) = b at hexec hpages hrest hr1
  obtain ⟨x, hx, hxr, y, hy1, hy2, hy3, -⟩ := complete_frame b 0 d.cid .ok 0 p.tag 0
  generalize b.complete 0 d.cid .ok 0 p.tag 0 = f at hexec hx hy1
  have e1 := congrArg HostIf.discards hx.turns.1
  have e2 := congrArg HostIf.discards hxr
  have e3 := congrArg HostIf.discards hrest
  refine ⟨f, hexec, ?_, htag ▸ page_eq_none ((congrArg Cellar.pages hx.cel).trans hpages), r, y, ?_, hr2, hr3, hr4.trans htag, hy2, hy3⟩
  · exact ((show f.host.discards = x.discards from e1).trans e2).trans ((show b.host.discards = a.host.discards from e3).trans hah.1)
  · rw [hy1, hr1, hah.2, List.append_assoc]
    rfl

end Sys2Proof.Machine

end

/-! ## Mailboxes, the Rinse and meter reports are asked for (R66, R121, R380, R384) -/

section

namespace Sys2Proof.Machine

variable {s t u : State} {e : SqEntry}

/-! ### MAILBOX (R66, R121) -/

theorem mailbox_waits (hd : s.devIs 4 = true) {m : Mail} {payload : Vector Word 16} (hop : e.opcode = 0x21#8) (hc : s.canConsume 1 1 = true)
    (hz : zeroFrom e 3 = true) (hr : e.dw[0] &&& ~~~0x1F07#32 = 0#32) (h1 : 1 ≤ bits e.dw[0] 8 5) (h16 : bits e.dw[0] 8 5 ≤ 16)
    (hm : m = { cid := e.cid, box := bits e.dw[0] 0 3, count := bits e.dw[0] 8 5, payload := payload }) :
    Leads s (.mailbox 1 e payload) fun t => t.host.mails = s.host.mails ++ [m] ∧ t.answers = s.answers := by
  have hcs := consume_rackSteps s 1 1
  obtain ⟨a, ha⟩ : ∃ a : State, a = { s.consume 1 1 with host := { (s.consume 1 1).host with mails := (s.consume 1 1).host.mails ++ [m] } } := ⟨_, rfl⟩
  have hok : (zeroFrom e 3 && (e.dw[0] &&& ~~~0x1F07#32 == 0#32) && Nat.ble 1 (bits e.dw[0] 8 5) && Nat.ble (bits e.dw[0] 8 5) 16) = true := by
    rw [hz, hr]
    simp [h1, h16]
  have hexec : exec (.mailbox 1 e payload) s
      = .next (a.transfer 5 (e.dw[1].toNat + 0x100000000 * e.dw[2].toNat) (4 * bits e.dw[0] 8 5) false) := by
    change execMailbox 1 e payload s = _
    unfold execMailbox
    dsimp only
    rw [exec_command hd hop hc (by decide) rfl hok, ha, hm]
  have hah : a.host.mails = (s.consume 1 1).host.mails ++ [m] ∧ a.answers = (s.consume 1 1).answers := by
    rw [ha]
    exact ⟨rfl, rfl⟩
  clear ha
  have hp := transfer_rackSteps (.refl a) 5 (e.dw[1].toNat + 0x100000000 * e.dw[2].toNat) (4 * bits e.dw[0] 8 5) false 0
  have e1 := congrArg HostIf.mails hp.turns.1
  have e2 := congrArg HostIf.mails hcs.turns.1
  refine ⟨_, hexec, ?_, hp.answers.trans (hah.2.trans hcs.answers)⟩
  exact (Eq.trans e1 hah.1).trans (congrArg (· ++ [m]) e2)

/-- The first word of a run of writes keeps its value. -/
theorem getR_forEach_first (s : State) (at_ : Nat → Nat) (w : Nat → Word) {n : Nat} (hn : 1 ≤ n) (h : ∀ i, 0 < i → at_ i ≠ at_ 0) :
    (s.forEach n fun a i => a.putR (at_ i) (w i)).getR (at_ 0) = w 0 := by
  obtain ⟨k, rfl⟩ : ∃ k, n = k + 1 := ⟨n - 1, by omega⟩
  have hrun : (s.forEach (k + 1) fun a i => a.putR (at_ i) (w i))
      = (s.putR (at_ 0) (w 0)).forEach k fun a i => a.putR (at_ (i + 1)) (w (i + 1)) := by
    rw [State.forEach, List.range_succ_eq_map, List.foldl_cons, List.foldl_map]
    rfl
  rw [hrun, getR_forEach_putR _ k (fun i => at_ (i + 1)) (fun i => w (i + 1)) fun i _ => h (i + 1) (by omega)]
  exact getR_putR_same ..

/-- What filling a mailbox leaves in it. -/
theorem fillMbi_fills (s : State) {m n : Nat} (data : Vector Word 16) (hn : 1 ≤ n) (h16 : n ≤ 16) :
    (s.fillMbi m n data).flag (F.SEQ_MBI_STATUS_FULL m) = true ∧ (s.fillMbi m n data).getF (F.SEQ_MBI_STATUS_COUNT m) = n
      ∧ (s.fillMbi m n data).getR (R.SEQ_MBI_DATA m 0) = data[0] ∧ (s.fillMbi m n data).host = s.host := by
  unfold State.fillMbi
  extract_lets a
  have ha : a.getR (R.SEQ_MBI_DATA m 0) = data[0] ∧ a.host = s.host := by
    constructor
    · refine (getR_forEach_first s (fun i => R.SEQ_MBI_DATA m i) (fun i => data.toList.getD i 0#32) hn fun i hi => ?_).trans (by simp)
      simp only [R.SEQ_MBI_DATA]
      omega
    · exact foldl_same State.host (List.range n) (f := fun a i => a.putR (R.SEQ_MBI_DATA m i) (data.toList.getD i 0#32)) (fun _ _ => rfl) s
  clear_value a
  have hne : R.SEQ_MBI_DATA m 0 ≠ R.SEQ_MBI_STATUS m := by
    simp only [R.SEQ_MBI_DATA, R.SEQ_MBI_STATUS]
    omega
  refine ⟨flag_latchF_same _ (F.SEQ_MBI_STATUS_FULL m) (by simp [F.SEQ_MBI_STATUS_FULL]) (by simp [F.SEQ_MBI_STATUS_FULL]), ?_, ?_, ha.2⟩
  · rw [getF_latchF_disjoint _ (F.SEQ_MBI_STATUS_FULL m) (F.SEQ_MBI_STATUS_COUNT m) (by simp [F.SEQ_MBI_STATUS_COUNT])
      (Or.inr (by simp [F.SEQ_MBI_STATUS_FULL, F.SEQ_MBI_STATUS_COUNT])),
      getF_putF_same a (F.SEQ_MBI_STATUS_COUNT m) n (by simp [F.SEQ_MBI_STATUS_COUNT])]
    exact Nat.mod_eq_of_lt (show n < 2 ^ 5 by omega)
  · rw [getR_latchF_ne _ (F.SEQ_MBI_STATUS_FULL m) hne, getR_putF_ne a (F.SEQ_MBI_STATUS_COUNT m) n _ hne]
    exact ha.1

/-- The end of the payload's read fills the mailbox and answers the command. -/
theorem done_fillsMailbox {m : Mail} {r : List Mail} {x : Txn} {y : List Txn} (hm : s.host.mails = m :: r) (hb : m.box < 8) (h1 : 1 ≤ m.count)
    (h16 : m.count ≤ 16) (hs : (s.chan 5).stale = []) (hi : (s.chan 5).issued = x :: y) (hg : x.gen = s.getF (F.RCK_CH_STATUS_GEN 5))
    (hj : x.job ≠ 0) (hw : x.write = false) (hf : s.flag (F.SEQ_MBI_STATUS_FULL m.box) = false) :
    Leads s (.rackingTransactionDone 5 .ok) fun t => t.host.mails = r ∧ t.flag (F.SEQ_MBI_STATUS_FULL m.box) = true
      ∧ t.getF (F.SEQ_MBI_STATUS_COUNT m.box) = m.count ∧ t.getR (R.SEQ_MBI_DATA m.box 0) = m.payload[0] ∧ s.Answered t m.cid .ok := by
  obtain ⟨-, -, -, -, -, hfld⟩ := returnOf_frame s 5 x
  have hgen : x.gen = (s.returnOf (5 : Fin 16) x).getF (F.RCK_CH_STATUS_GEN (5 : Fin 16)) :=
    hg.trans (hfld _ ⟨rfl, by decide, by decide⟩).symm
  have hsteps := returnOf_rackSteps s 5 x
  have hblk : R.SEQ_MBI_STATUS m.box / 65536 ∉ rackBlocks ∧ R.SEQ_MBI_DATA m.box 0 / 65536 ∉ rackBlocks := by
    simp only [R.SEQ_MBI_STATUS, R.SEQ_MBI_DATA, rackBlocks, List.mem_cons, List.not_mem_nil, or_false]
    omega
  obtain ⟨hb1, hb2⟩ := hblk
  have hfull : (s.returnOf (5 : Fin 16) x).flag (F.SEQ_MBI_STATUS_FULL m.box) = false := (hsteps.flag (F.SEQ_MBI_STATUS_FULL m.box) hb1).trans hf
  have hmails : (s.returnOf (5 : Fin 16) x).host.mails = m :: r := by
    have e1 := congrArg HostIf.mails hsteps.turns.1
    exact Eq.trans e1 hm
  have hexec := exec_done_ok (c := 5) hs hi rfl
  rw [txnEnd_ok (c := 5) hi _ rfl, if_neg (fun q => q hgen)] at hexec
  have hans0 := hsteps.answers
  clear hsteps hgen hfld
  generalize s.returnOf (5 : Fin 16) x = a at hexec hfull hmails hans0
  obtain ⟨b, hbv⟩ : ∃ b : State, b = { a with host := { a.host with mails := r } } := ⟨_, rfl⟩
  have hdel : a.deliver (5 : Fin 16) x false = (b.fillMbi m.box m.count m.payload).complete 1 m.cid .ok 0 (BitVec.ofNat 32 m.box) := by
    have h5 : a.deliver (5 : Fin 16) x false = a.mailRead := by
      unfold State.deliver
      rw [if_neg hj]
      change (if x.write = true then a.reportSent else a.mailRead) = _
      rw [if_neg (by rw [hw]; decide)]
    rw [h5, State.mailRead, hmails]
    dsimp only
    rw [← hbv, if_neg]
    rw [hbv]
    exact fun q => Bool.noConfusion (hfull.symm.trans q)
  rw [hdel] at hexec
  have hbm : b.host.mails = r ∧ b.answers = a.answers := by
    rw [hbv]
    exact ⟨rfl, rfl⟩
  obtain ⟨f1, f2, f3, f4⟩ := fillMbi_fills b (m := m.box) m.payload h1 h16
  generalize b.fillMbi m.box m.count m.payload = d at hexec f1 f2 f3 f4
  obtain ⟨z, hz, hzr, hans⟩ := complete_frame d 1 m.cid .ok 0 (BitVec.ofNat 32 m.box) 0
  generalize d.complete 1 m.cid .ok 0 (BitVec.ofNat 32 m.box) 0 = g at hexec hz hans
  have hp := pumpAll_rackSteps (.refl g)
  have e1 := congrArg HostIf.mails hp.turns.1
  have e2 := congrArg HostIf.mails hz.turns.1
  have e3 := congrArg HostIf.mails hzr
  refine ⟨_, hexec, ?_, ?_, ?_, ?_, ?_⟩
  · exact (Eq.trans e1 (Eq.trans e2 e3)).trans ((congrArg HostIf.mails f4).trans hbm.1)
  · exact (hp.flag (F.SEQ_MBI_STATUS_FULL m.box) hb1).trans ((hz.flag (F.SEQ_MBI_STATUS_FULL m.box) hb1).trans f1)
  · exact (hp.getF (F.SEQ_MBI_STATUS_COUNT m.box) hb1).trans ((hz.getF (F.SEQ_MBI_STATUS_COUNT m.box) hb1).trans f2)
  · exact (hp.within _ hb2).trans ((hz.within _ hb2).trans f3)
  · have hd : d.answers = s.answers := by
      rw [State.answers, f4]
      exact hbm.2.trans hans0
    obtain ⟨q, hq, hrest⟩ := hans.of_eq hd
    exact ⟨q, hp.answers.trans hq, hrest⟩

/-! ### RINSE (R380) -/

theorem rinse_asks (hd : s.devIs 4 = true) (hop : e.opcode = 0x31#8) (hc : s.canConsume 1 1 = true) (hz : zeroFrom e 0 = true)
    (hp : ∀ sh ∈ s.led.sheets, sh.place.inPath = false) (hn : s.host.rinse = none) :
    Leads s (.rinse 1 e) fun t => t.flag F.LDG_RINSE_REQ = true ∧ t.answers = s.answers ∧ t.host.rinse = some {
      cid := e.cid, since := s.tick, ids := (s.led.sheets.filter fun sh => sh.place == .jammed || sh.place == .stranded).map Sheet.id } := by
  have hcs := consume_rackSteps s 1 1
  have hrinse : (s.consume 1 1).host.rinse = none := by
    have e1 := congrArg HostIf.rinse hcs.turns.1
    exact Eq.trans e1 hn
  have hpath : ((s.consume 1 1).led.sheets.any fun sh => sh.place.inPath) = false := by
    rw [hcs.led]
    exact List.any_eq_false.2 fun x hx => by simp [hp x hx]
  have hexec : exec (.rinse 1 e) s = .next { (s.consume 1 1).putF F.LDG_RINSE_REQ 1 with host := { (s.consume 1 1).host with rinse := some {
      cid := e.cid, ids := (s.led.sheets.filter fun sh => sh.place == .jammed || sh.place == .stranded).map Sheet.id, since := s.tick } } } := by
    change execRinse 1 e s = _
    unfold execRinse
    rw [exec_command hd hop hc (by decide) rfl hz]
    dsimp only
    rw [hpath, hrinse, hcs.led, hcs.tick]
    rfl
  exact ⟨_, hexec, flag_putF_same (s.consume 1 1) F.LDG_RINSE_REQ 1 (by decide), hcs.answers, rfl⟩

/-! ### METER_REPORT (R384) -/

theorem meterReport_waits (hd : s.devIs 4 = true) (hop : e.opcode = 0x20#8) (hc : s.canConsume 1 1 = true) (h0 : e.rsvd0 = 0) (h1 : e.rsvd1 = 0)
    (h3 : e.dw[3] = 0) (h4 : e.dw[4] = 0) (h5 : e.dw[5] = 0) (hf : s.flag F.SEC_STATUS_RNG_FAIL = false) (hl : 3280 ≤ e.dw[2].toNat) :
    Leads s (.meterReport 1 e) fun t => ∃ m, t.host.meters = s.host.meters ++ [m] ∧ m.cid = e.cid ∧ m.tick = s.tick ∧ m.body = none
      ∧ m.addr = e.dw[0].toNat + 0x100000000 * e.dw[1].toNat := by
  have hcs := consume_rackSteps s 1 1
  have hrng : (s.consume 1 1).flag F.SEC_STATUS_RNG_FAIL = false := (hcs.flag F.SEC_STATUS_RNG_FAIL (by decide)).trans hf
  have hok : (e.rsvd0 == 0 && e.rsvd1 == 0 && e.dw[3] == 0 && e.dw[4] == 0 && e.dw[5] == 0) = true := by
    rw [h0, h1, h3, h4, h5]
    rfl
  obtain ⟨m, hm⟩ : ∃ m : MeterJob, m = {
      cid := e.cid, addr := e.dw[0].toNat + 0x100000000 * e.dw[1].toNat, nonce := e.dw.toList.drop 6, tick := (s.consume 1 1).tick,
      waits := ((s.consume 1 1).uncommitted.filter fun x => x.2.counted).length } := ⟨_, rfl⟩
  have hexec : exec (.meterReport 1 e) s
      = .next { s.consume 1 1 with host := { (s.consume 1 1).host with meters := (s.consume 1 1).host.meters ++ [m] } } := by
    change execMeterReport 1 e s = _
    unfold execMeterReport
    rw [exec_command hd hop hc (by decide) rfl hok]
    dsimp only
    rw [hrng, if_neg (by decide), if_neg (by omega), hm]
  have e1 := congrArg HostIf.meters hcs.turns.1
  refine ⟨_, hexec, m, congrArg (· ++ [m]) e1, ?_⟩
  rw [hm]
  exact ⟨rfl, hcs.tick, rfl, rfl⟩

/-- Settles O36, command by command. -/
theorem hostCommandsAreConsumed : Obligations.HostCommandsAreConsumed := by
  intro s e hd
  refine ⟨fun hop hc hz ht ha hv hcr hp => pageSubmit_submits hd ⟨hop, hc, hz, ht, ha, hv⟩ hcr hp,
    fun hop hc hz ht ha hv hcr => pageSubmit_noCredit hd ⟨hop, hc, hz, ht, ha, hv⟩ hcr, fun p => pageDiscard_waits hd, pageDiscard_unknown hd,
    fun d p => pageDiscardAction_retires, fun m payload => mailbox_waits hd, fun m r x y => done_fillsMailbox, rinse_asks hd,
    meterReport_waits hd, fun q => undefinedCommand_answered q⟩

end Sys2Proof.Machine

end

/-! ## Lanes: a next page whose reading has halted (R128, R146, R154) -/

section

namespace Sys2Proof.Machine

/-- The next page of one line, behind the page of one line in the Press. -/
def nextOneLinePage : Page := { oneLinePage with tag := 2#32, seq := 1, st := .inPress, started := true }

/-- The page in the Press has handed out its only block, and channel 1 has halted on a line of the next page. -/
def nextPageHalted : State :=
  let a : State := { State.reset with
    cel := { State.reset.cel with pages := [{ oneLinePage with st := .inPress, started := true }, nextOneLinePage] }
    prs := { State.reset.prs with handed := 1, nextTag := some 2#32 } }
  ((((a.putF F.PRS_STATUS_BUSY 1).putR R.PRS_CUR_TAG 1#32).putF (F.RCK_CH_STATUS_STATE 1) 2).setChan 1
    { failed := some { gen := 0, tag := 1, job := 1 } })

/-- Refutes O41: PAUSED tells of the page in the Press, and a lane takes no block of a next page whose reading has halted. -/
theorem not_lanesEncodeVerifyAndStore : ¬ Obligations.LanesEncodeVerifyAndStore := by
  intro h
  obtain ⟨hstart, -⟩ := h nextPageHalted nextOneLinePage oneLinePlane 0 { plane := 0, stream := 0, round := 0 } (by decide) (by decide)
  obtain ⟨t, he, hjob, -⟩ := hstart [] [] (by decide) (by decide) (by decide) (by decide)
  have hstays : ∀ u, exec (.laneBlockStart [] []) nextPageHalted = .next u → (u.lane 0).job = none := by
    intro u hu
    cases hu
    decide
  exact absurd ((hstays t he).symm.trans hjob) (by decide)

end Sys2Proof.Machine

end

/-! ## Pages are read and checked (R127, R134 to R138, R143 to R146) -/

section

namespace Sys2Proof.Machine

variable {s t u : State} {p : Page} {q : Plane}

/-! ### A page of the store -/

theorem page_tag {tag : Word} (h : s.page tag = some p) : p.tag = tag := by simpa using List.find?_some h

/-- The page of a tag after a change that keeps its tag. -/
theorem page_updPage {f : Page → Page} (hf : (f p).tag = p.tag) (h : s.page p.tag = some p)
    (hall : ∀ x, (f x).tag = x.tag := by exact fun _ => rfl) : (s.updPage p.tag f).page p.tag = some (f p) := by
  change (mapIf (fun x => x.tag == p.tag) f s.cel.pages).find? (fun x => x.tag == p.tag) = some (f p)
  rw [mapIf, List.find?_map]
  have hcomp : ((fun x : Page => x.tag == p.tag) ∘ fun x => if (x.tag == p.tag) = true then f x else x) = fun x => x.tag == p.tag := by
    funext x
    dsimp only [Function.comp]
    split
    · rw [hall]
    · rfl
  rw [hcomp, show s.cel.pages.find? (fun x => x.tag == p.tag) = some p from h]
  simp

theorem updPage_answers (s : State) (tag : Word) (f : Page → Page) : (s.updPage tag f).answers = s.answers := rfl

theorem page_of_cel {tag : Word} (h : t.cel = s.cel) : t.page tag = s.page tag := by rw [State.page, h, State.page]

theorem State.RackSteps.prs (h : s.RackSteps t) : t.prs = s.prs := by
  obtain ⟨⟨r, x, k, e, rfl⟩, -⟩ := h
  rfl

theorem pressing_page (h : s.pressing = some p) : s.page p.tag = some p := by
  unfold State.pressing at h
  split at h
  · rw [page_tag h]
    exact h
  · split at h
    · rw [page_tag h]
      exact h
    · cases h

/-! ### The next page begins (R138) -/

theorem find_page {f : Page → Bool} (h : s.cel.pages.find? f = some p) : ∃ x, s.page p.tag = some x := by
  have : (s.page p.tag).isSome = true := by
    rw [State.page, List.find?_isSome]
    exact ⟨p, List.mem_of_find?_eq_some h, by simp⟩
  exact Option.isSome_iff_exists.1 this

/-- The page is in the Press. -/
def State.pressed (s : State) (p : Page) : State :=
  let a := (s.putB F.PRS_STATUS_BUSY true).putR R.PRS_CUR_TAG p.tag
  { a with prs := { a.prs with handed := 0, storedN := 0 } }

/-- It is stamped, and its descriptor asked for. -/
def State.begun (a : State) (p : Page) (st : List (Nat × Geom)) : State :=
  let b := a.updPage p.tag fun x => { x with started := true, stamps := st }
  (if p.descOk then b.transfer 2 p.desc p.descLen false p.seq else b).pausedFollow

theorem begun_frame (a : State) (p : Page) (st : List (Nat × Geom)) (hx : ∃ x, a.page p.tag = some x) :
    (a.begun p st).prs = a.prs ∧ (a.begun p st).getR R.PRS_CUR_TAG = a.getR R.PRS_CUR_TAG
      ∧ (a.begun p st).flag F.PRS_STATUS_BUSY = a.flag F.PRS_STATUS_BUSY ∧ ∃ x, (a.begun p st).page p.tag = some x ∧ x.started = true := by
  obtain ⟨x, hx⟩ := hx
  have htag := page_tag hx
  unfold State.begun
  extract_lets b
  have hb : b.prs = a.prs ∧ b.getR R.PRS_CUR_TAG = a.getR R.PRS_CUR_TAG ∧ b.flag F.PRS_STATUS_BUSY = a.flag F.PRS_STATUS_BUSY
      ∧ ∃ x, b.page p.tag = some x ∧ x.started = true := by
    have hfollow : ∀ y : State, y.pagesFollow.getR R.PRS_CUR_TAG = y.getR R.PRS_CUR_TAG ∧ y.pagesFollow.flag F.PRS_STATUS_BUSY = y.flag F.PRS_STATUS_BUSY :=
      fun y => by
        unfold State.pagesFollow
        exact ⟨(getR_putF_ne _ F.CEL_PAGES_COMMITTED _ _ (by decide)).trans (getR_putF_ne y F.CEL_PAGES_HELD _ _ (by decide)),
          (flag_putF_apart (f := F.CEL_PAGES_COMMITTED) _ (Or.inl (by decide))).trans (flag_putF_apart (f := F.CEL_PAGES_HELD) _ (Or.inl (by decide)))⟩
    have hupd := page_updPage (s := a) (p := x) (f := fun x => { x with started := true, stamps := st }) rfl (by rw [htag]; exact hx)
    rw [htag] at hupd
    exact ⟨rfl, (hfollow _).1, (hfollow _).2, _, hupd, rfl⟩
  clear_value b
  obtain ⟨b1, b2, b3, y, hy, hys⟩ := hb
  have hpaused : ∀ d : State, d.prs = b.prs → d.getR R.PRS_CUR_TAG = b.getR R.PRS_CUR_TAG → d.flag F.PRS_STATUS_BUSY = b.flag F.PRS_STATUS_BUSY →
      d.cel = b.cel → d.pausedFollow.prs = a.prs ∧ d.pausedFollow.getR R.PRS_CUR_TAG = a.getR R.PRS_CUR_TAG
        ∧ d.pausedFollow.flag F.PRS_STATUS_BUSY = a.flag F.PRS_STATUS_BUSY ∧ ∃ x, d.pausedFollow.page p.tag = some x ∧ x.started = true :=
    fun d h1 h2 h3 h4 => ⟨h1.trans b1, (pausedFollow_getR d (by decide)).trans (h2.trans b2),
      (flag_putF_apart (f := F.PRS_STATUS_PAUSED) _ (Or.inr (by decide))).trans (h3.trans b3), y, (page_of_cel h4).trans hy, hys⟩
  split
  · have hp := transfer_rackSteps (.refl b) 2 p.desc p.descLen false p.seq
    exact hpaused _ hp.prs (hp.within _ (by decide)) (hp.flag F.PRS_STATUS_BUSY (by decide)) hp.cel
  · exact hpaused b rfl rfl rfl rfl

theorem pressPageStart_begins (hf : s.cel.pages.find? (fun x => x.st == .inPress && !x.started) = some p) (hb : s.flag F.PRS_STATUS_BUSY = false) :
    Leads s .pressPageStart fun t => t.prs.handed = 0 ∧ t.prs.storedN = 0 ∧ t.getR R.PRS_CUR_TAG = p.tag ∧ t.flag F.PRS_STATUS_BUSY = true
      ∧ ∃ x, t.page p.tag = some x ∧ x.started = true := by
  have hexec : exec .pressPageStart s = .next ((s.pressed p).begun p s.stampNow) := by
    change execPressPageStart s = _
    unfold execPressPageStart
    rw [hf]
    dsimp only
    rw [if_pos (by rw [hb]; rfl)]
    rfl
  have hp : (s.pressed p).prs.handed = 0 ∧ (s.pressed p).prs.storedN = 0 ∧ (s.pressed p).getR R.PRS_CUR_TAG = p.tag
      ∧ (s.pressed p).flag F.PRS_STATUS_BUSY = true ∧ ∃ x, (s.pressed p).page p.tag = some x :=
    ⟨rfl, rfl, getR_putR_same .., (flag_congr (getR_putR_ne (s.putB F.PRS_STATUS_BUSY true) p.tag (by decide))).trans
      (flag_putB_same s F.PRS_STATUS_BUSY true (by decide) (by decide)), find_page hf⟩
  generalize s.pressed p = a at hexec hp
  obtain ⟨h1, h2, h3, h4, hx⟩ := hp
  obtain ⟨g1, g2, g3, g4⟩ := begun_frame a p s.stampNow hx
  exact ⟨_, hexec, by rw [g1]; exact h1, by rw [g1]; exact h2, g2.trans h3, g3.trans h4, g4⟩

/-! ### Index tables (R127, R144) -/

section index

variable {k : Fin 6} {entries : List (BitVec 64)}

theorem entries_all (he : entries.length = q.count) : (List.range q.count).map (fun k => entries.getD k 0#64) = entries := by
  rw [← he]
  exact List.ext_getElem (by simp) fun i h1 h2 => by simp at h1; simp [h1]

theorem exec_indexTableCheck (hp : s.pressing = some p) (hk : p.planes[k.val]? = some q) (hpre : q.pre = true) (hi : q.index = [])
    (hh : s.halted 1 = false) (hr : s.reading 1 p.seq q.table (8 * q.count) = false) (he : entries.length = q.count) :
    exec (.indexTableCheck k entries) s = .next (if (indexOk q.len entries
        && q.count == ((List.range q.geom.adv).map (q.streamBlocks p.lines)).foldl (· + ·) 0) = true then
      s.updPage p.tag fun x => x.updPlane k fun y => { y with index := entries.map fun e => (e.toNat % 2 ^ 40, e.toNat / 2 ^ 40) }
      else s.failPage p .badBlock) := by
  change execIndexTableCheck k entries s = _
  unfold execIndexTableCheck
  rw [hp]
  dsimp only
  rw [hk]
  dsimp only
  rw [if_neg (by rw [hpre, hi, hh, hr]; decide), entries_all he]

theorem updPlane_tag (x : Page) (i : Nat) (f : Plane → Plane) : (x.updPlane i f).tag = x.tag := by
  unfold Page.updPlane
  split <;> rfl

theorem updPlane_plane {i : Nat} (f : Plane → Plane) (h : p.planes[i]? = some q) : (p.updPlane i f).planes[i]? = some (f q) := by
  have hlt : i < p.planes.length := (List.getElem?_eq_some_iff.1 h).1
  unfold Page.updPlane
  rw [h]
  simp [hlt]

end index

/-! ### Descriptors (R134 to R137) -/

theorem descr_words {desc : List Word} {n : Nat} (hl : desc.length = n) : (List.range n).map (dword desc) = desc := by
  rw [← hl]
  exact List.ext_getElem (by simp) fun i h1 h2 => by simp at h1; simp [dword, h1]

/-- A descriptor whose first dword is not that of a page ends it. -/
theorem descriptorCheck_bad {desc : List Word} {bands : List (List (Vector Word 4))} (hp : s.pressing = some p) (hpl : p.planes = [])
    (hh : s.halted 2 = false) (hr : s.reading 2 p.seq 0 (2 ^ 64) = false) (hd : p.descr = []) (h0 : dword desc 0 ≠ 0x00015047#32) :
    Leads s (.descriptorCheck desc bands) fun t => s.Answered t p.cid .badField ∧ t.page p.tag = none := by
  have hheader : headerOk ((List.range (8 + 16 * ((p.descLen - 32) / 64))).map (dword desc)) ((p.descLen - 32) / 64) = false := by
    have : dword ((List.range (8 + 16 * ((p.descLen - 32) / 64))).map (dword desc)) 0 = dword desc 0 := by
      rw [dword, List.getD_eq_getElem _ _ (by simp)]
      simp
    rw [headerOk, this, beq_false_of_ne h0]
    simp
  have hexec : exec (.descriptorCheck desc bands) s = .next (s.failPage p .badField) := by
    change execDescriptorCheck desc bands s = _
    unfold execDescriptorCheck
    rw [hp]
    dsimp only
    rw [if_neg (by rw [hpl, hh, hr]; simp), if_pos hd, if_pos hd, hheader, Bool.and_false]
    rfl
  exact ⟨_, hexec, failPage_fails s p .badField⟩

end Sys2Proof.Machine

end

/-! ## Pages of one plane (R127, R135 to R137, R143) -/

section

namespace Sys2Proof.Machine

variable {s t u : State} {p : Page} {q : Plane} {desc l : List Word} {bands : List (List (Vector Word 4))}

/-- What is known once the planes of a page of one plane are known. -/
def State.OnePlane (s : State) (p : Page) (desc : List Word) (q : Plane) (t : State) : Prop :=
  (∃ x, t.page p.tag = some x ∧ x.lines = (dword desc 2).toNat ∧ x.planes = [q]) ∧ t.answers = s.answers

theorem planesKnown_one (hp : s.page p.tag = some p) (hg : q.pre = true → bits (dword l 2) 0 16 = q.gen) (b : List (Vector Word 4)) :
    s.OnePlane p desc { q with bands := readBands b } (s.planesKnown p desc [(l, q)] [b]) := by
  have hany : ([(l, q)].any fun x => x.2.pre && bits (dword x.1 2) 0 16 != x.2.gen) = false := by
    cases hpre : q.pre with
    | false => simp [hpre]
    | true => simp [hpre, hg hpre]
  unfold State.planesKnown
  rw [hany, if_neg (by decide)]
  extract_lets w a
  have ha : a.page p.tag = some { p with lines := (dword desc 2).toNat, size := bits (dword desc 3) 0 4, colour := bits (dword desc 3) 4 4, planes := w } :=
    page_updPage (f := fun x => { x with lines := (dword desc 2).toNat, size := bits (dword desc 3) 0 4, colour := bits (dword desc 3) 4 4, planes := w }) rfl hp
  have haa : a.answers = s.answers := rfl
  have hw : w = [{ q with bands := readBands b }] := rfl
  clear_value a
  have hs : a.RackSteps (a.each (w.filter Plane.pre) fun a q => a.transfer 1 q.table (8 * q.count) false p.seq) :=
    (State.RackSteps.refl a).foldl _ fun y x _ => transfer_rackSteps (.refl y) ..
  exact ⟨⟨_, (page_of_cel hs.cel).trans ha, rfl, hw⟩, hs.answers.trans haa⟩

section one

variable (hp : s.pressing = some p) (hpl : p.planes = []) (hh : s.halted 2 = false) (hr : s.reading 2 p.seq 0 (2 ^ 64) = false)
  (hlen : desc.length = 24) (hl : l = desc.drop 8) (hdl : p.descLen = 96) (hq : readPlane l p.stamps = q)

include hlen hl hq in
theorem planesOf_one : planesOf desc 1 p.stamps = [(l, q)] := by
  have htake : (desc.drop 8).take 16 = desc.drop 8 := List.take_of_length_le (by simp [hlen])
  rw [planesOf, List.range_one, List.map_singleton]
  dsimp only
  rw [Nat.mul_zero, Nat.add_zero, htake, ← hl, hq]

section first

variable (had : p.desc % 64 = 0) (hhd : headerOk desc 1 = true) (hd : p.descr = [])
  (hst : (List.range 6).filter (fun i => (dword desc 1).getLsbD i) = [q.station.val]) (hok : planeOk l q (s.applF (F.DEC_GEOM_EN q.station) != 0) = true)

include hp hpl hh hr hlen hl hdl hq had hhd hd hst hok

/-- The check of a descriptor of one plane that obeys its rules. -/
theorem exec_descriptorCheck_first : exec (.descriptorCheck desc bands) s = .next (if q.pre = true then s.planesKnown p desc [(l, q)] [[]]
    else (s.updPage p.tag fun x => { x with descr := desc }).transfer 2 q.table (16 * q.count) false p.seq) := by
  have hn : (p.descLen - 32) / 64 = 1 := by rw [hdl]
  have hdescr : (List.range (8 + 16 * 1)).map (dword desc) = desc := descr_words hlen
  have hxs : planesOf desc 1 p.stamps = [(l, q)] := planesOf_one hlen hl hq
  have hdo : p.descOk = true := by
    rw [Page.descOk, hdl, had]
    rfl
  change execDescriptorCheck desc bands s = _
  unfold execDescriptorCheck
  rw [hp]
  dsimp only
  rw [if_neg (by rw [hpl, hh, hr]; simp), hn, hd, if_pos rfl, if_pos rfl, hdescr, hxs, hdo, hhd, hst]
  simp only [List.all_cons, List.all_nil, hok, List.map_cons, List.map_nil, beq_self_eq_true, Bool.and_true, Bool.not_true]
  rw [if_neg (by decide)]
  by_cases hpre : q.pre = true
  · rw [if_pos hpre, if_pos (by simp [hpre])]
    simp [hpre]
  · rw [if_neg hpre, if_neg (by simp [hpre])]
    simp [hpre, State.each]

theorem descriptorCheck_pre (hpre : q.pre = true) (hg : bits (dword l 2) 0 16 = q.gen) :
    Leads s (.descriptorCheck desc bands) fun t => s.OnePlane p desc q t := by
  have hexec := exec_descriptorCheck_first (bands := bands) hp hpl hh hr hlen hl hdl hq had hhd hd hst hok
  rw [if_pos hpre] at hexec
  have hb : ({ q with bands := readBands [] } : Plane) = q := by rw [← hq]; rfl
  have := planesKnown_one (desc := desc) (l := l) (q := q) (pressing_page hp) (fun _ => hg) []
  rw [hb] at this
  exact ⟨_, hexec, this⟩

theorem descriptorCheck_raw (hpre : q.pre = false) :
    Leads s (.descriptorCheck desc bands) fun t => (∃ x, t.page p.tag = some x ∧ x.descr = desc ∧ x.planes = []) ∧ t.answers = s.answers := by
  have hexec := exec_descriptorCheck_first (bands := bands) hp hpl hh hr hlen hl hdl hq had hhd hd hst hok
  rw [if_neg (by rw [hpre]; decide)] at hexec
  have hpage : (s.updPage p.tag fun x => { x with descr := desc }).page p.tag = some { p with descr := desc } :=
    page_updPage (f := fun x => { x with descr := desc }) rfl (pressing_page hp)
  have hans : (s.updPage p.tag fun x => { x with descr := desc }).answers = s.answers := rfl
  generalize (s.updPage p.tag fun x => { x with descr := desc }) = a at hexec hpage hans
  have hs := transfer_rackSteps (.refl a) 2 q.table (16 * q.count) false p.seq
  exact ⟨_, hexec, ⟨_, (page_of_cel hs.cel).trans hpage, rfl, hpl⟩, hs.answers.trans hans⟩

end first

include hp hpl hh hr hlen hl hdl hq

/-- The check of the band table of a raw plane. -/
theorem descriptorCheck_bands {b : List (Vector Word 4)} (hpre : q.pre = false) (hd : p.descr = desc) (hb : b.length = q.count)
    (hok : bandsOk b (dword desc 2).toNat = true) :
    Leads s (.descriptorCheck desc [b]) fun t => s.OnePlane p desc { q with bands := readBands b } t := by
  have hn : (p.descLen - 32) / 64 = 1 := by rw [hdl]
  have hxs : planesOf desc 1 p.stamps = [(l, q)] := planesOf_one hlen hl hq
  have hne : p.descr ≠ [] := by
    rw [hd]
    rintro rfl
    cases hlen
  have hband : (List.range q.count).map (fun k => b[k]?.getD (Vector.replicate 4 0#32)) = b := by
    rw [← hb]
    exact List.ext_getElem (by simp) fun i h1 h2 => by simp at h1; simp [h1]
  have hexec : exec (.descriptorCheck desc [b]) s = .next (s.planesKnown p desc [(l, q)] [b]) := by
    change execDescriptorCheck desc [b] s = _
    unfold execDescriptorCheck
    rw [hp]
    dsimp only
    rw [if_neg (by rw [hpl, hh, hr]; simp), hn, if_neg hne, if_neg hne, hd, hxs]
    simp [hpre, hband, hok]
  exact ⟨_, hexec, planesKnown_one (pressing_page hp) (fun h => absurd h (by rw [hpre]; decide)) b⟩

end one

/-- Settles O40, check by check. -/
theorem pagesAreReadAndChecked : Obligations.PagesAreReadAndChecked := by
  intro s p
  refine ⟨pressPageStart_begins, fun hp hpl hh hr => ⟨fun desc bands hd h0 => descriptorCheck_bad hp hpl hh hr hd h0,
    fun desc bands l q hlen hl hdl had hhd hq hst hok => ⟨fun hpre hd hg => ?_, fun hpre hd => ?_, fun b hpre hd hb hok => ?_⟩⟩,
    fun k q entries hp hk hpre hi hh hr he => ⟨fun hok hc => ?_, fun hok => ?_⟩⟩
  · exact descriptorCheck_pre hp hpl hh hr hlen hl hdl hq had hhd hd hst hok hpre hg
  · exact descriptorCheck_raw hp hpl hh hr hlen hl hdl hq had hhd hd hst hok hpre
  · exact descriptorCheck_bands hp hpl hh hr hlen hl hdl hq hpre hd hb hok
  · have hexec := exec_indexTableCheck hp hk hpre hi hh hr he
    rw [if_pos (by rw [hok, ← hc]; simp)] at hexec
    exact ⟨_, hexec, _, _, page_updPage (updPlane_tag ..) (pressing_page hp) (fun x => updPlane_tag ..), updPlane_plane _ hk, rfl⟩
  · have hexec := exec_indexTableCheck hp hk hpre hi hh hr he
    rw [if_neg (by rw [hok]; simp)] at hexec
    exact ⟨_, hexec, failPage_fails s p .badBlock⟩

end Sys2Proof.Machine

end

/-! ## A reload of the current vintage (R42)

A reload that waits after an abandoned apply does nothing in the states in which no vintage is applied. The slot has to hold an image that
verifies, so one is signed here: the signer's private key is 1, the nonce too, and the signature covers the certificate's own body. -/
section
namespace Sys2Proof.Machine

/-! ### An image that verifies -/

/-- The public key of the private key 1. -/
def oneKey : List Byte := Crypto.beBytes 32 Crypto.baseX ++ Crypto.beBytes 32 Crypto.baseY

/-- Its SHA-256. -/
def oneKeyHash : List Byte := Crypto.beBytes 32 0xd875db7def232236aec738c6b0bb3e80142f5d0fd8f4df24fed6eef5cbb50d9f

/-- The signed bytes of a certificate for signing vintages, of that key and under it (Table 19-3). -/
def vintageCert : List Byte := [0x43#8, 0x4C#8, 1#8, 2#8] ++ List.replicate 28 0#8 ++ oneKey ++ oneKeyHash

/-- Its signature under the private key 1 and the nonce 1. -/
def certSig : List Byte := Crypto.beBytes 32 Crypto.baseX
  ++ Crypto.beBytes 32 0x64d45431935e0f83798183256041a056dc99a56168e5e87e0205073ecdd6fd9b

/-- An image of empty parts whose Header is the certificate's signed bytes, so that one signature serves both. -/
def signedImage : Image :=
  { header := vintageCert, version := 1#32, floor := 0#32, sizes := List.replicate 6 0, hashes := List.replicate 6 (Crypto.sha256 []),
    certHash := Crypto.sha256 [], chain := oneKey ++ 1#8 :: List.replicate 7 0#8 ++ vintageCert ++ certSig, sig := certSig }

theorem shaBytes_oneKey : Crypto.shaBytes oneKey = oneKeyHash := by decide +kernel

theorem shaBytes_vintageCert :
    Crypto.shaBytes vintageCert = Crypto.beBytes 32 0xf9bc823db231cd3c80c49c3ffc9d5f64227d228de2125362011d98bbf1a16056 := by decide +kernel

theorem certSig_verifies : Crypto.ecdsaVerify oneKey (Crypto.sha256 vintageCert) certSig = true := by
  unfold Crypto.sha256
  rw [shaBytes_vintageCert]
  decide +kernel

theorem certOk_vintageCert : certOk oneKey (vintageCert ++ certSig) = true := by
  have hissuer : slice (vintageCert ++ certSig) 96 32 = oneKeyHash := by decide +kernel
  have hbody : slice (vintageCert ++ certSig) 0 128 = vintageCert := by decide +kernel
  have hsig : slice (vintageCert ++ certSig) 128 64 = certSig := by decide +kernel
  unfold certOk
  rw [hissuer, hbody, hsig, shaBytes_oneKey, certSig_verifies]
  decide +kernel

/-- A secured device whose root keys are that key. -/
def oneKeyFuses : Fuses := { roots := Vector.replicate 4 (some (Crypto.sha256 oneKey)), secured := true }

theorem rootOk_oneKey : oneKeyFuses.rootOk oneKey = true := by
  simp [Fuses.rootOk, oneKeyFuses, List.finRange_succ]

/-- The chain of the image leads to the key. -/
theorem chainLeaf_signedImage : oneKeyFuses.chainLeaf 2 signedImage.chain = some { key := oneKey, serial := 0, kind := 0, stations := 0 } := by
  have hroot : slice signedImage.chain 0 64 = oneKey := by decide +kernel
  have hcert : slice signedImage.chain 72 192 = vintageCert ++ certSig := by decide +kernel
  have hcount : byteAt signedImage.chain 64 = 1 := by decide +kernel
  have hfits : signedImage.chain.length = 72 + 192 * 1 := by decide +kernel
  have hzero : zeros signedImage.chain 65 7 = true := by decide +kernel
  unfold Fuses.chainLeaf
  dsimp only
  rw [hcount, hroot, if_pos ⟨le_refl 1, by decide, hfits, hzero, rootOk_oneKey⟩]
  change chainGo 2 [slice signedImage.chain 72 192] oneKey = _
  rw [hcert]
  unfold chainGo
  rw [certOk_vintageCert]
  decide +kernel

theorem signedImage_verifies {s : State} (h : s.fuse = oneKeyFuses) : s.imageSigned signedImage = true := by
  have hshape : Image.shapeOk signedImage = true := by decide +kernel
  have hhashes : Image.hashesOk signedImage = true := by
    have hparts : signedImage.parts = List.replicate 6 [] := rfl
    unfold Image.hashesOk
    rw [hparts, List.map_replicate]
    exact beq_self_eq_true _
  have hsig : s.signatureOk signedImage = true := by
    have hdata : signedImage.header ++ signedImage.parts.flatten = vintageCert := by decide +kernel
    have hlen : (signedImage.sig.length == 64) = true := by decide +kernel
    unfold State.signatureOk
    rw [h, chainLeaf_signedImage]
    dsimp only
    rw [hdata, hlen, show signedImage.sig = certSig from rfl, certSig_verifies]
    rfl
  rw [State.imageSigned, hshape, hhashes, hsig]
  rfl

/-! ### The reload that does nothing -/

/-- A device that is off, every slot holding the image, slot 0 CURRENT, with a reload that waits. -/
def reloadWaits : State := { State.reset with
  fuse := oneKeyFuses, vin := { slots := Vector.replicate 8 (some signedImage), cur := some 0, jobs := [.reload] } }

/-- The bank and the preload area filled for the check of the reload. -/
def reloadFilled : State := (reloadWaits.setVin { reloadWaits.vin with jobs := [] }).fillBank 0 signedImage

/-- The image passes every rule of Table 2-2. -/
theorem vinCheck_signedImage : reloadFilled.vinCheck signedImage true = none := by
  have h1 : runClass 1 (reloadFilled.vinGeometry signedImage) = none := by decide +kernel
  have h2 : runClass 2 reloadFilled.vinLink = none := by decide +kernel
  have h3 : runClass 3 reloadFilled.vinBinding = none := by decide +kernel
  have h4 : runClass 4 reloadFilled.vinOwnership = none := by decide +kernel
  have h5 : runClass 5 (reloadFilled.vinBudgets signedImage) = none := by decide +kernel
  have h6 : runClass 6 (reloadFilled.vinMemory signedImage) = none := by decide +kernel
  have h7 : runClass 7 reloadFilled.vinRails = none := by decide +kernel
  have h8 : runClass 8 reloadFilled.vinLimits = none := by decide +kernel
  have h9 : runClass 9 (reloadFilled.vinImage signedImage true) = none := by decide +kernel
  rw [State.vinCheck, h1, h2, h3, h4, h5, h6, h7, h8, h9]
  rfl

theorem checkSlot_reloadWaits : ((reloadWaits.setVin { reloadWaits.vin with jobs := [] }).checkSlot 0 true true).2 = 0 := by
  have hslot : (reloadWaits.setVin { reloadWaits.vin with jobs := [] }).vin.slots[(0 : Fin 8)] = some signedImage := rfl
  have hrun : (reloadFilled.runCheck signedImage true).2 = none := (runCheck_none vinCheck_signedImage).1
  unfold State.checkSlot
  rw [hslot]
  dsimp only
  have hfilled : (reloadWaits.setVin { reloadWaits.vin with jobs := [] }).fillBank 0 signedImage = reloadFilled := rfl
  rw [signedImage_verifies rfl, if_pos (by rfl), hfilled]
  dsimp only
  rw [hrun]

/-- Refutes O29: a reload that waits while the device is off is dropped, though its slot verifies and passes its check, and no apply is
pending after it. -/
theorem not_bootLoadAndReloadApplyTheCurrentVintage : ¬ Obligations.BootLoadAndReloadApplyTheCurrentVintage := by
  intro h
  obtain ⟨-, -, hreload⟩ := h reloadWaits true true 0 signedImage { cid := none, at_ := 0, whole := true, slot := 0, h := some 0 } [] rfl rfl
  obtain ⟨t, he, -, happly, -⟩ := hreload rfl rfl checkSlot_reloadWaits
  have hstays : ∀ u, exec (.vintageCheckDone true true) reloadWaits = .next u → u.vin.apply = none := by
    intro u hu
    cases hu
    rfl
  exact absurd ((hstays t he).symm.trans happly) (by simp)

end Sys2Proof.Machine

end

/-! ## What crosses the die bridge stays (R16–R25)

The operations of a tick boundary and of the frames write registers, outputs and queues. None of them changes the time, the image of the
Drive die that the Core die holds, the accesses served in a tick, or the frames that the bridge has taken and missed. -/
section
namespace Sys2Proof.Machine

variable (s : State)

/-- The Core die's image of the Drive die, the time, the accesses served, and the frames that the bridge has taken and missed. -/
def State.bridged (s : State) : SMap Word × BitVec 64 × Nat × Bool × Option DnFrame × Nat × Samples :=
  (s.up, s.tsc, s.seq.served, s.brg.gotUp, s.brg.received, s.brg.missUp, s.brg.samples)

/-! ### Shared operations -/

@[simp] theorem ite_bridged (c : Prop) [Decidable c] (a b : State) : (if c then a else b).bridged = if c then a.bridged else b.bridged :=
  apply_ite State.bridged c a b

@[simp] theorem each_bridged {α : Type} (l : List α) {f : State → α → State} (hf : ∀ a x, (f a x).bridged = a.bridged) :
    (s.each l f).bridged = s.bridged := foldl_same State.bridged l hf s

@[simp] theorem forEach_bridged (n : Nat) {f : State → Nat → State} (hf : ∀ a x, (f a x).bridged = a.bridged) :
    (s.forEach n f).bridged = s.bridged := foldl_same State.bridged _ hf s

theorem State.Stops.bridged {s t : State} (h : s.Stops t) : t.bridged = s.bridged := by
  obtain ⟨r, k, n, l, j, rfl⟩ := h
  rfl

theorem State.RackSteps.bridged {s t : State} (h : s.RackSteps t) : t.bridged = s.bridged := by
  obtain ⟨⟨r, x, k, e, rfl⟩, -⟩ := h
  rfl

theorem State.Stores.bridged {s t : State} (h : s.Stores t) : t.bridged = s.bridged := by
  obtain ⟨r, c, rfl, -⟩ := h
  rfl

theorem State.Heats.bridged {J : Fin 4 → Prop} {s t : State} (h : State.Heats J s t) : t.bridged = s.bridged := by
  obtain ⟨⟨r, v, l, rfl⟩, -⟩ := h
  rfl

@[simp] theorem putR_bridged (o : Nat) (w : Word) : (s.putR o w).bridged = s.bridged := rfl
@[simp] theorem putF_bridged (f : Fld) (n : Nat) : (s.putF f n).bridged = s.bridged := rfl
@[simp] theorem putB_bridged (f : Fld) (b : Bool) : (s.putB f b).bridged = s.bridged := rfl
@[simp] theorem putBitF_bridged (f : Fld) (i : Nat) (b : Bool) : (s.putBitF f i b).bridged = s.bridged := rfl
@[simp] theorem putP_bridged (o n : Nat) : (s.putP o n).bridged = s.bridged := rfl
@[simp] theorem incR_bridged (o n : Nat) : (s.incR o n).bridged = s.bridged := rfl
@[simp] theorem raise_bridged (id : EvId) (i : Nat) (a b : Word) : (s.raise id i a b).bridged = s.bridged := rfl
@[simp] theorem refuse_bridged (o : Nat) : (s.refuse o).bridged = s.bridged := rfl
@[simp] theorem clearBits_bridged (o : Nat) (m : Word) : (s.clearBits o m).bridged = s.bridged := rfl
@[simp] theorem mapThr_bridged (f : Nat → Thread → Thread) : (s.mapThr f).bridged = s.bridged := rfl
@[simp] theorem setVin_bridged (v : Vint) : (s.setVin v).bridged = s.bridged := rfl
@[simp] theorem updRail_bridged (r : Nat) (f : Rail → Rail) : (s.updRail r f).bridged = s.bridged := rfl
@[simp] theorem updHv_bridged (c : Fin 24) (f : HvCh → HvCh) : (s.updHv c f).bridged = s.bridged := rfl
@[simp] theorem updHeater_bridged (h : Fin 4) (f : Heater → Heater) : (s.updHeater h f).bridged = s.bridged := rfl
@[simp] theorem updTherm_bridged (n : Fin 12) (f : Therm → Therm) : (s.updTherm n f).bridged = s.bridged := rfl
@[simp] theorem updFbk_bridged (c : Fin 18) (f : Fbk → Fbk) : (s.updFbk c f).bridged = s.bridged := rfl
@[simp] theorem updStn_bridged (i : Fin 6) (f : Station → Station) : (s.updStn i f).bridged = s.bridged := rfl
@[simp] theorem updAx_bridged (a : Fin 20) (f : Axis → Axis) : (s.updAx a f).bridged = s.bridged := rfl
@[simp] theorem updMot_bridged (n : Fin 12) (f : Motor → Motor) : (s.updMot n f).bridged = s.bridged := rfl
@[simp] theorem updPort_bridged (p : Fin 2) (f : ChnPort → ChnPort) : (s.updPort p f).bridged = s.bridged := rfl
@[simp] theorem setGrp_bridged (g : Nat) (x : Group) : (s.setGrp g x).bridged = s.bridged := rfl
@[simp] theorem setHalf_bridged (h : Nat) (x : Half) : (s.setHalf h x).bridged = s.bridged := rfl
@[simp] theorem setChop_bridged (i : Fin 4) (x : Chopper) : (s.setChop i x).bridged = s.bridged := rfl
@[simp] theorem linesFollow_bridged : s.linesFollow.bridged = s.bridged := rfl
@[simp] theorem allOff_bridged : s.allOff.bridged = s.bridged := rfl
@[simp] theorem lenDrive_bridged : s.lenDrive.bridged = s.bridged := rfl

@[simp] theorem signal_bridged (v : Nat) : (s.signal v).bridged = s.bridged := by
  unfold State.signal
  split <;> rfl

@[simp] theorem fireAt_bridged (cls inst j : Nat) (any : Bool) : (s.fireAt cls inst j any).bridged = s.bridged := by
  unfold State.fireAt
  split
  · refine (mapThr_bridged _ _).trans (foldl_same State.bridged _ (fun a n => ?_) s)
    split <;> rfl
  · rfl

@[simp] theorem fire_bridged (cls inst : Nat) (any : Bool) : (s.fire cls inst any).bridged = s.bridged := by
  unfold State.fire
  split
  · rfl
  · exact foldl_same State.bridged _ (fun a j => fireAt_bridged a cls inst j any) s

@[simp] theorem inhibit_bridged (i : Fin 6) : (s.inhibit i).bridged = s.bridged := (inhibit_stops s i).bridged

@[simp] theorem gateFollow_bridged : s.gateFollow.bridged = s.bridged := (gateFollow_stops s).bridged

@[simp] theorem journal_bridged (e : JEntry) : (s.journal e).bridged = s.bridged := (journal_stops s e).bridged

/-! ### Half-bridges and groups -/

@[simp] theorem applyDuty_bridged (h : Nat) (d : Option Nat) (low : Nat) : (s.applyDuty h d low).bridged = s.bridged := rfl

@[simp] theorem chopOff_bridged (i : Fin 4) : (s.chopOff i).bridged = s.bridged := by
  unfold State.chopOff
  split <;> rfl

@[simp] theorem chopsFollow_bridged : s.chopsFollow.bridged = s.bridged := by
  simp [State.chopsFollow]

@[simp] theorem groupOutputs_bridged (g : Nat) : (s.groupOutputs g).bridged = s.bridged := by
  simp [State.groupOutputs]

@[simp] theorem latchGroup_bridged (g cause hb mon : Nat) : (s.latchGroup g cause hb mon).bridged = s.bridged := by
  obtain ⟨x, a, b, h⟩ := latchGroup_eq s g cause hb mon
  rw [h]
  simp [State.latchFirst, State.latchCause, State.latchOut]

@[simp] theorem refuseCmd_bridged (h : Nat) : (s.refuseCmd h).bridged = s.bridged := by
  simp [State.refuseCmd, State.bothOff]

@[simp] theorem takeDuty_bridged (h : Nat) (d : Option Nat) (low : Nat) : (s.takeDuty h d low).bridged = s.bridged := by
  simp [State.takeDuty]

@[simp] theorem groupReturn_bridged (g : Nat) : (s.groupReturn g).bridged = s.bridged := by
  unfold State.groupReturn
  rw [linesFollow_bridged]
  exact forEach_bridged _ _ fun _ _ => rfl

@[simp] theorem groupClear_bridged (g n : Nat) : (s.groupClear g n).bridged = s.bridged := by
  simp [State.groupClear]

/-! ### Heaters, thermistors and high voltage -/

@[simp] theorem heaterOff_bridged (h : Fin 4) : (s.heaterOff h).bridged = s.bridged := (heaterOff_heats s h).bridged

@[simp] theorem heaterDrive_bridged (h : Fin 4) (d : HeaterDrive) : (s.heaterDrive h d).bridged = s.bridged := (heaterDrive_heats s h d).bridged

@[simp] theorem heaterJudgeAll_bridged : s.heaterJudgeAll.bridged = s.bridged := (heaterJudgeAll_heats s).bridged

@[simp] theorem heaterTick_bridged (h : Fin 4) : (s.heaterTick h).bridged = s.bridged := by
  unfold State.heaterTick
  split <;> simp

@[simp] theorem heatReset_bridged : s.heatReset.bridged = s.bridged := by
  simp [State.heatReset]

@[simp] theorem heaterClear_bridged (h : Fin 4) (n : Nat) : (s.heaterClear h n).bridged = s.bridged := by
  simp [State.heaterClear]

@[simp] theorem thermClear_bridged (n : Fin 12) (w : Word) : (s.thermClear n w).bridged = s.bridged := by
  simp [State.thermClear]

@[simp] theorem hvLow_bridged (c : Fin 24) : (s.hvLow c).bridged = s.bridged := rfl

@[simp] theorem hvAllLow_bridged : s.hvAllLow.bridged = s.bridged := each_bridged s _ hvLow_bridged

@[simp] theorem hvStart_bridged (c : Fin 24) : (s.hvStart c).bridged = s.bridged := rfl

@[simp] theorem hvCtrl_bridged (c : Fin 24) (w : Word) : (s.hvCtrl c w).bridged = s.bridged := by
  simp [State.hvCtrl]

@[simp] theorem hvResetRamp_bridged : s.hvResetRamp.bridged = s.bridged := by
  simp [State.hvResetRamp, State.hvReset]

/-! ### Rails -/

@[simp] theorem setRail_bridged (r v : Nat) : (s.setRail r v).bridged = s.bridged := by
  have hoff : ∀ a : State, ({ a with psq := { a.psq with offSince := none } } : State).bridged = a.bridged := fun _ => rfl
  simp [State.setRail, hoff]

@[simp] theorem railsStart_bridged (m : Nat) : (s.railsStart m).bridged = s.bridged := by
  simp [State.railsStart, State.railsRise]

@[simp] theorem railsMark_bridged (m : Nat) : (s.railsMark m).bridged = s.bridged := by
  simp [State.railsMark, State.railsStop]

@[simp] theorem psqCtrl_bridged (r : Nat) (w : Word) : (s.psqCtrl r w).bridged = s.bridged := by
  unfold State.psqCtrl
  extract_lets on off a
  split
  · rfl
  · split
    · split <;> simp [State.railOn]
    · split <;> simp [a]

@[simp] theorem psqMargin_bridged (r : Nat) (w : Word) : (s.psqMargin r w).bridged = s.bridged := by
  simp [State.psqMargin]

@[simp] theorem psqEngineReset_bridged : s.psqEngineReset.bridged = s.bridged := forEach_bridged s _ fun _ _ => rfl

/-! ### The Drive die's tick boundary -/

@[simp] theorem rwWrite_bridged (o : Nat) (w : Word) : (s.rwWrite o w).bridged = s.bridged := by
  unfold State.rwWrite
  split <;> rfl

/-- A write that a frame carried changes nothing that crosses the bridge. -/
@[simp] theorem driveWrite_bridged (x : DnWrite) : (s.driveWrite x).bridged = s.bridged := by
  unfold State.driveWrite
  split
  · split <;> simp
  · split <;> simp
  · unfold State.hvsWrite
    split <;> simp
  · split <;> simp
  · unfold State.psqWrite
    split
    · simp
    · split <;> simp

@[simp] theorem driveReset_bridged : s.driveReset.bridged = s.bridged := by
  have hramp : ∀ a : State, ({ a with rst := { a.rst with rampAt := some a.tsc.toNat } } : State).bridged = a.bridged := fun _ => rfl
  simp [State.driveReset, hramp]

/-- The Drive die holds no frame. -/
def State.frameTaken : State := { s with brg := { s.brg with received := none } }

/-- No upward frame of this tick has come. -/
def State.frameDue : State := { s with brg := { s.brg with gotUp := false } }

theorem frameDue_bridged {s t : State} (h : s.bridged = t.bridged) : s.frameDue.bridged = t.frameDue.bridged := by
  simp only [State.bridged, Prod.mk.injEq] at h
  obtain ⟨h1, h2, h3, -, h5, h6, h7⟩ := h
  simp only [State.bridged, State.frameDue, h1, h2, h3, h5, h6, h7]

theorem frameTaken_of_none {s : State} (h : s.brg.received = none) : s.frameTaken.bridged = s.bridged := by
  simp only [State.bridged, State.frameTaken, h]

/-- The frame is applied: the Drive die holds none any more. -/
theorem applyFrame_bridged : s.applyFrame.bridged = s.frameTaken.bridged := by
  have htaken : ∀ (n : Nat) (b : Bool), ({ s with brg := { s.brg with received := none, lenReq := n, stopped := b } } : State).bridged
      = s.frameTaken.bridged := fun _ _ => rfl
  unfold State.applyFrame
  dsimp only
  split
  · simp [htaken]
  · rename_i hn
    rw [frameTaken_of_none hn, ite_bridged]
    split
    · rfl
    · exact forEach_bridged _ _ fun a h => applyDuty_bridged a h _ _

@[simp] theorem chopTick_bridged (i : Fin 4) : (s.chopTick i).bridged = s.bridged := by
  simp [State.chopTick]

@[simp] theorem fbkKeep_bridged (p : Fin 18 → Bool) : (s.fbkKeep p).bridged = s.bridged := by
  simp only [State.fbkKeep, State.bridged]

theorem latchUp_bridged : s.latchUp.bridged = s.frameDue.bridged := by
  have hlatch : ∀ (a : State) (m : SMap Word) (f : Bool) (j : Journal), ({ a with jr := j, brg := { a.brg with
      latched := m, acFell := f, gotUp := false, onTime := false, loop := a.brg.samples, before := none } } : State).bridged
      = a.frameDue.bridged := fun _ _ _ _ => rfl
  unfold State.latchUp
  dsimp only
  split
  · exact (hlatch s.fbkFrame _ _ _).trans (frameDue_bridged (fbkKeep_bridged s _))
  · exact hlatch s _ _ _

/-- At the boundary the Drive die has applied its frame, and no upward frame of the new tick has come. -/
theorem driveTick_bridged (xcmd : List (Fin 48)) : (s.driveTick xcmd).bridged = s.frameTaken.frameDue.bridged := by
  have hhalf : ∀ v, ({ s with brg := { s.brg with halfPrev := v } } : State).frameTaken.bridged = s.frameTaken.bridged := fun _ => rfl
  unfold State.driveTick
  rw [latchUp_bridged]
  have hretries : ∀ (a : State) (g : Nat), (a.putF (F.GDR_GRP_STATUS_RETRIES g) (a.retriesOf g).length).bridged = a.bridged :=
    fun a g => putF_bridged a _ _
  refine frameDue_bridged ?_
  simp [applyFrame_bridged, hhalf, hretries]

end Sys2Proof.Machine

end

/-! ## The tick boundary and the upward frame (R16, R22) -/
section
namespace Sys2Proof.Machine

variable (s : State)

/-! ### The Core die's tick boundary -/

@[simp] theorem jfullCheck_bridged : s.jfullCheck.bridged = s.bridged := (jfullCheck_stops s).bridged

@[simp] theorem dnNext_bridged : s.dnNext.bridged = s.bridged := by
  unfold State.dnNext
  dsimp only
  split <;> rfl

@[simp] theorem dnLen_bridged : s.dnLen.bridged = s.bridged := by
  simp only [State.dnLen, State.bridged]

@[simp] theorem dieTemp_bridged (k : Fin 12) (t : BitVec 16) : (s.dieTemp k t).bridged = s.bridged := by
  unfold State.dieTemp
  extract_lets a w put
  have hput : ∀ x b, (put x b).bridged = x.bridged := fun _ _ => rfl
  have ha : a.bridged = s.bridged := rfl
  clear_value put a
  rw [← ha]
  simp [hput]

@[simp] theorem mendJournal_bridged : s.mendJournal.bridged = s.bridged := by
  have hcur : ∀ l, ({ s with jr := { s.jr with cur := l } } : State).bridged = s.bridged := fun _ => rfl
  simp [State.mendJournal, hcur]

@[simp] theorem mendTo_bridged (r : Nat) : (s.mendTo r).bridged = s.bridged := by
  simp [State.mendTo]

@[simp] theorem mendFollow_bridged : s.mendFollow.bridged = s.bridged := mendTo_bridged s _

@[simp] theorem clearMend_bridged (i : Nat) : (s.clearMend i).bridged = s.bridged := by
  simp [State.clearMend]

@[simp] theorem mendTherm_bridged : s.mendTherm.bridged = s.bridged := by
  have hup : ∀ b, ({ s with heat := { s.heat with thermUp := b } } : State).bridged = s.bridged := fun _ => rfl
  simp [State.mendTherm, hup]

theorem meterTake_bridged (x : State × List MeterJob) (m : MeterJob) : (State.meterTake x m).1.bridged = x.1.bridged := by
  unfold State.meterTake
  split
  · exact journal_bridged x.1 _
  · rfl

@[simp] theorem meterTick_bridged : s.meterTick.bridged = s.bridged := by
  have hfold : ∀ (l : List MeterJob) (x : State × List MeterJob), (l.foldl State.meterTake x).1.bridged = x.1.bridged := by
    intro l
    induction l with
    | nil => exact fun _ => rfl
    | cons m r ih => exact fun x => (ih _).trans (meterTake_bridged x m)
  have hhost : ∀ (a : State) l, ({ a with host := { a.host with meters := l } } : State).bridged = a.bridged := fun _ _ => rfl
  exact (hhost _ _).trans (hfold s.host.meters (s, []))

@[simp] theorem speeds_bridged : s.speeds.bridged = s.bridged :=
  each_bridged s _ fun a c => by simp [State.speed]

@[simp] theorem fbkTick_bridged : s.fbkTick.bridged = s.bridged := fbkKeep_bridged s _

@[simp] theorem bandTick_bridged (j : Nat) : (s.bandTick j).bridged = s.bridged := by
  simp [State.bandTick]

@[simp] theorem refreshTick_bridged : s.refreshTick.bridged = s.bridged := by
  unfold State.refreshTick
  extract_lets b want now src since
  have hsince : ∀ x, (since x).bridged = s.bridged := fun _ => rfl
  clear_value since
  split
  · exact (putF_bridged _ _ _).trans (hsince _)
  · split
    · exact hsince _
    · simp [hsince]

@[simp] theorem axReach_bridged (a : Fin 20) : (s.axReach a).bridged = s.bridged := by
  simp [State.axReach]

@[simp] theorem emitSteps_bridged (a : Fin 20) (p : BitVec 64) : (s.emitSteps a p).bridged = s.bridged :=
  foldl_same State.bridged _ (fun b _ => updAx_bridged b a _) _

@[simp] theorem axBoundary_bridged : s.axBoundary.bridged = s.bridged := by
  simp [State.axBoundary]

@[simp] theorem chnTickPort_bridged (p : Fin 2) : (s.chnTickPort p).bridged = s.bridged := by
  simp [State.chnTickPort]

@[simp] theorem chnTick_bridged : s.chnTick.bridged = s.bridged := by
  simp [State.chnTick]

/-- No access has been served in this tick. -/
def State.unserved : State := { s with seq := { s.seq with served := 0 } }

theorem unserved_bridged {s t : State} (h : s.bridged = t.bridged) : s.unserved.bridged = t.unserved.bridged := by
  simp only [State.bridged, Prod.mk.injEq] at h
  obtain ⟨h1, h2, -, h4, h5, h6, h7⟩ := h
  simp only [State.bridged, State.unserved, h1, h2, h4, h5, h6, h7]

/-- The Core die's work at the boundary: the accesses of the tick are counted anew. -/
theorem coreTick_bridged (die : Vector (BitVec 16) 12) : (s.coreTick die).bridged = s.unserved.bridged := by
  have hwarned : ∀ (a : State) n, ({ a with brg := { a.brg with warned := n } } : State).bridged = a.bridged := fun _ _ => rfl
  have hserved : ∀ (a : State), ({ a.mapThr (fun _ h => h.tickEnd) with
      seq := { (a.mapThr fun _ h => h.tickEnd).seq with served := 0, lastGrant := 15 } } : State).bridged = a.unserved.bridged := fun _ => rfl
  have hdie : ∀ (a : State) (k : Fin 12), (a.dieTemp k die[k]).bridged = a.bridged := fun a k => dieTemp_bridged a k _
  have hband : ∀ (a : State) (j : Nat), (a.bandTick j).bridged = a.bridged := bandTick_bridged
  simp only [State.coreTick, chnTick_bridged, axBoundary_bridged, refreshTick_bridged, forEach_bridged _ _ hband, fbkTick_bridged,
    speeds_bridged, mendTherm_bridged, meterTick_bridged, each_bridged _ _ hdie, hserved]
  exact unserved_bridged ((hwarned _ _).trans ((dnLen_bridged _).trans (dnNext_bridged s)))

/-! ### The upward frame -/

@[simp] theorem probeFollow_bridged (p : Fin 8) : (s.probeFollow p).bridged = s.bridged := by
  unfold State.probeFollow
  dsimp only
  split <;> rfl

@[simp] theorem probeFill_bridged (c t0 : Nat) (p0 : Word) (t1 : Nat) (p1 : Word) : (s.probeFill c t0 p0 t1 p1).bridged = s.bridged := by
  have hset : ∀ (a : State) v, ({ a with probes := v } : State).bridged = a.bridged := fun _ _ => rfl
  have hfire : ∀ (n : Nat) (a : State) (p : Fin 8), (a.forEach n fun b _ => b.fire 0x02 p).bridged = a.bridged :=
    fun n a p => forEach_bridged a n fun b _ => fire_bridged b 0x02 p false
  refine each_bridged s _ fun a p => ?_
  dsimp only
  split
  · rfl
  · exact (hfire _ _ p).trans ((probeFollow_bridged _ p).trans (hset a _))

@[simp] theorem armFollow_bridged (i : Fin 6) : (s.armFollow i).bridged = s.bridged := by
  simp [State.armFollow]

@[simp] theorem topFire_bridged (i : Fin 6) (ts : Nat) : (s.topFire i ts).bridged = s.bridged := by
  simp [State.topFire]

@[simp] theorem fireCmp_bridged (u ts : Nat) : (s.fireCmp u ts).bridged = s.bridged := by
  have hpulse : ∀ (a : State) l, ({ a with pulses := l } : State).bridged = a.bridged := fun _ _ => rfl
  simp [State.fireCmp, hpulse]

@[simp] theorem compares_bridged (c : Nat) (old new : Word) (ts : Nat) : (s.compares c old new ts).bridged = s.bridged := by
  have hset : ∀ (a : State) u p, (a.setCmpAt u p).bridged = a.bridged := fun _ _ _ => rfl
  simp [State.compares, hset]

@[simp] theorem dirFollow_bridged (c : Fin 18) (p : Word) : (s.dirFollow c p).bridged = s.bridged := by
  simp [State.dirFollow]

@[simp] theorem stepPos_bridged (c : Fin 18) (d : Int) (ts : Nat) : (s.stepPos c d ts).bridged = s.bridged := by
  simp [State.stepPos]

@[simp] theorem indexTake_bridged (c : Fin 18) (ts : Nat) : (s.indexTake c ts).bridged = s.bridged := by
  simp [State.indexTake]

@[simp] theorem scIndex_bridged (c : Fin 18) (ts : Nat) : (s.scIndex c ts).bridged = s.bridged :=
  (each_bridged _ _ fun a _ => indexTake_bridged a c ts).trans (updFbk_bridged s c _)

@[simp] theorem sigFault_bridged (c : Fin 18) : (s.sigFault c).bridged = s.bridged := by
  simp [State.sigFault]

@[simp] theorem count_bridged (c : Fin 18) (d : Int) (ts : Nat) : (s.count c d ts).bridged = s.bridged := by
  simp [State.count]

@[simp] theorem scValue_bridged (c : Fin 18) (t0 ts : Nat) (x y : Int) : (s.scValue c t0 ts x y).bridged = s.bridged := by
  simp [State.scValue]

@[simp] theorem scSample_bridged (c : Fin 18) (ts : Nat) (x y : Int) : (s.scSample c ts x y).bridged = s.bridged := by
  unfold State.scSample
  dsimp only
  split
  · simp
  · split <;> simp

@[simp] theorem scFrame_bridged (c : Fin 18) (l : Vector (Int × Int) 20) : (s.scFrame c l).bridged = s.bridged := by
  unfold State.scFrame
  dsimp only
  split
  · exact (foldl_same State.bridged _ (fun a x => by simp) _).trans rfl
  · rfl

@[simp] theorem tripsKnown_bridged (old : SMap Word) : (s.tripsKnown old).bridged = s.bridged := by
  simp [State.tripsKnown]

@[simp] theorem lineFaults_bridged : s.lineFaults.bridged = s.bridged :=
  each_bridged s _ fun a i => putB_bridged a _ _

@[simp] theorem lenCompare_bridged : s.lenCompare.bridged = s.bridged :=
  each_bridged s _ fun a i => updStn_bridged a i _

@[simp] theorem acKnown_bridged : s.acKnown.bridged = s.bridged := by
  have hac : ∀ a : State, a.acFreeze.bridged = a.bridged := fun a => by
    unfold State.acFreeze
    split <;> rfl
  have hfell : ∀ (a : State) p j, ({ a with psq := p, brg := { a.brg with acFell := false }, jr := j } : State).bridged = a.bridged := fun _ _ _ => rfl
  simp [State.acKnown, hac, hfell]

end Sys2Proof.Machine

end

/-! ## What an upward frame brings (R22, R86, R305) -/
section
namespace Sys2Proof.Machine

variable (s : State)

/-! ### Commits that the frame reports -/

@[simp] theorem chnQueue_bridged (p : Fin 2) (m : ChnMsg) : (s.chnQueue p m).bridged = s.bridged := by
  simp [State.chnQueue]

@[simp] theorem chnSend_bridged (p : Fin 2) (ty : BitVec 8) (d : BitVec 4) (l : List Byte) : (s.chnSend p ty d l).bridged = s.bridged :=
  chnQueue_bridged s p _

@[simp] theorem hoSend_bridged (p : Fin 2) (ty : BitVec 8) (id : Word) : (s.hoSend p ty id).bridged = s.bridged := by
  simp [State.hoSend]

@[simp] theorem hoOutcome_bridged (p : Fin 2) (n k : Nat) (id : Word) : (s.hoOutcome p n k id).bridged = s.bridged := by
  simp [State.hoOutcome]

@[simp] theorem setPages_bridged (l : List Page) : (s.setPages l).bridged = s.bridged := rfl

@[simp] theorem updPage_bridged (tag : Word) (f : Page → Page) : (s.updPage tag f).bridged = s.bridged :=
  (pagesFollow_stores _).bridged.trans (setPages_bridged s _)

@[simp] theorem retire_bridged (p : Page) (st : Status) (b : Bool) : (s.retire p st b).bridged = s.bridged := by
  have hdrop : (s.dropPage p).bridged = s.bridged := (dropPage_frame s p).bridged.trans (setPages_bridged s _)
  obtain ⟨x, hx, -⟩ := cqPush_frame (s.dropPage p)
    { cid := p.cid, sq := 0, retire := true, status := st, detail := boolNat b, resA := p.tag, resB := p.sheet.getD 0#32 }
  have hhost : ({ s.dropPage p with host := x } : State).bridged = (s.dropPage p).bridged := rfl
  exact hx.bridged.trans (hhost.trans hdrop)

@[simp] theorem retireSheet_bridged (id : Word) (st : Status) (b : Bool) : (s.retireSheet id st b).bridged = s.bridged := by
  simp [State.retireSheet]

@[simp] theorem commitKnown_bridged (e : JEntry) : (s.commitKnown e).bridged = s.bridged := by
  have hoffers : ∀ (a : State) l, (a.setOffers l).bridged = a.bridged := fun _ _ => rfl
  unfold State.commitKnown
  split
  · split <;> simp
  · split
    · simp [hoffers]
    · rfl
  · rfl

@[simp] theorem commitsKnown_bridged : s.commitsKnown.bridged = s.bridged := by
  have hripe : ∀ a : State, ({ a with jr := { a.jr with ripe := [] } } : State).bridged = a.bridged := fun _ => rfl
  exact (hripe _).trans (each_bridged s _ commitKnown_bridged)

/-! ### The answer to a bus trip -/

@[simp] theorem rinseFollow_bridged : s.rinseFollow.bridged = s.bridged := by
  simp [State.rinseFollow]

@[simp] theorem strandPath_bridged (b : Bool) : (s.strandPath b).bridged = s.bridged := by
  simp [State.strandPath]

@[simp] theorem freezeLoss_bridged : s.freezeLoss.bridged = s.bridged := rfl

@[simp] theorem motFault_bridged : s.motFault.bridged = s.bridged := by
  refine each_bridged s _ fun a n => ?_
  simp [State.noLimits]

@[simp] theorem setDev_bridged (n : Nat) : (s.setDev n).bridged = s.bridged := by
  simp [State.setDev]

@[simp] theorem chnAlarm_bridged (n p : Nat) : (s.chnAlarm n p).bridged = s.bridged := by
  simp [State.chnAlarm, State.stopSend, State.stopOut]

@[simp] theorem dropApply_bridged : s.dropApply.bridged = s.bridged := by
  rw [State.dropApply, putF_bridged, putF_bridged, setVin_bridged]

@[simp] theorem dropReload_bridged : s.dropReload.bridged = s.bridged := by
  unfold State.dropReload
  extract_lets v a
  have ha : a.bridged = s.bridged := setVin_bridged s _
  clear_value a
  split
  · exact (dropApply_bridged a).trans ha
  · exact ha

@[simp] theorem suspendAll_bridged : s.suspendAll.bridged = s.bridged :=
  (putF_bridged _ _ _).trans (mapThr_bridged s _)

@[simp] theorem enterFault_bridged : s.enterFault.bridged = s.bridged := by
  unfold State.enterFault
  split
  · rfl
  · rw [chnAlarm_bridged, suspendAll_bridged, setDev_bridged, dropReload_bridged]

@[simp] theorem tripAnswer_bridged : s.tripAnswer.bridged = s.bridged := by
  unfold State.tripAnswer
  extract_lets i x a b c d
  have ha : a.bridged = s.bridged := rfl
  clear_value a
  have hb : b.bridged = a.bridged := by
    simp only [b, ite_bridged, strandPath_bridged, ite_self]
  clear_value b
  have hd : d.bridged = b.bridged := by
    simp only [d, c, ite_bridged, enterFault_bridged, freezeLoss_bridged, ite_self]
  clear_value d
  rw [gateFollow_bridged, raise_bridged, motFault_bridged, hd, hb, ha]

/-! ### The frame -/

/-- The frame has come: its registers and its samples. -/
def State.frameTook (ain : Vector Ain 64) : State :=
  { s with up := s.brg.latched, brg := { s.brg with samples := { ain := ain, half := s.brg.halfPrev }, gotUp := true } }

theorem frameIn_bridged (ain : Vector Ain 64) (sc : Vector (Vector (Int × Int) 20) 6) :
    (s.frameIn ain sc).bridged = (s.frameTook ain).bridged := by
  have hsc : ∀ (a : State) (i : Fin 6), (a.scFrame (Fin.ofNat 18 (12 + i)) sc[i]).bridged = a.bridged := fun a i => scFrame_bridged a _ _
  have hfbk : ∀ a : State, a.fbkFrame.bridged = a.bridged := fun a => fbkKeep_bridged a _
  unfold State.frameIn
  extract_lets old ok x kept src a b c d e f g
  have ha : a.bridged = (s.frameTook ain).bridged := rfl
  clear_value a
  have hb : b.bridged = a.bridged := each_bridged a _ hsc
  have hc : c.bridged = b.bridged := by
    simp only [c]
    split
    · exact hfbk b
    · rfl
  have hd : d.bridged = c.bridged := forEach_bridged c 6 fun a i => putF_bridged a _ _
  have hg : g.bridged = d.bridged := by
    rw [lenCompare_bridged, lineFaults_bridged, tripsKnown_bridged, acKnown_bridged, commitsKnown_bridged, putB_bridged]
  rw [ite_bridged, tripAnswer_bridged, gateFollow_bridged, ite_self, hg, hd, hc, hb, ha]

end Sys2Proof.Machine

end

/-! ## The steps of the die bridge (R16–R25, R256) -/
section
namespace Sys2Proof.Machine

variable (s : State)

/-! ### The time moves on -/

theorem keepRefs_brg : ∃ x, s.keepRefs.brg = { s.brg with refs := x } := by
  unfold State.keepRefs
  split <;> exact ⟨_, rfl⟩

theorem acFreeze_brg : s.acFreeze.brg = s.brg := by
  unfold State.acFreeze
  split <;> rfl

/-- A ledger that freezes at cycle 300 does so for a fall of AC_OK. -/
theorem acFreeze_frozen (h : s.frozen = false) (ht : s.acFreeze.frozen = true) : s.acFreeze.jr.frozenAc = true := by
  unfold State.acFreeze at ht ⊢
  split
  · rfl
  · rename_i hn
    rw [if_neg hn, h] at ht
    cases ht

theorem setTsc_brg (n : BitVec 64) : (∃ x, (s.setTsc n).brg = { s.brg with refs := x })
    ∧ (s.frozen = false → (s.setTsc n).frozen = true → (s.setTsc n).jr.frozenAc = true) := by
  have hstays : ∀ a : State, a.frozen = false → a.frozen = true → a.jr.frozenAc = true := fun a h ht => by rw [h] at ht; cases ht
  unfold State.setTsc
  split
  · exact ⟨⟨_, rfl⟩, hstays s⟩
  · extract_lets a
    have ha : (∃ x, a.brg = { s.brg with refs := x }) ∧ (s.frozen = false → a.frozen = true → a.jr.frozenAc = true) := by
      simp only [a]
      split
      · obtain ⟨x, hx⟩ := keepRefs_brg s
        have hf : s.keepRefs.frozen = s.frozen := by
          unfold State.keepRefs
          split <;> rfl
        exact ⟨⟨x, (acFreeze_brg _).trans hx⟩, fun h => acFreeze_frozen _ (hf.trans h)⟩
      · exact ⟨⟨_, rfl⟩, hstays s⟩
    exact ha

/-- At a later cycle, the events that wait issued: of the bridge only the references of the loops have changed. -/
theorem issueAll_setTsc_brg (n : BitVec 64) : (s.issueAll.setTsc n).tsc = n ∧ (∃ x, (s.issueAll.setTsc n).brg = { s.brg with refs := x })
    ∧ (s.issueAll.setTsc n).rst = s.rst
    ∧ (s.frozen = false → (s.issueAll.setTsc n).frozen = true → (s.issueAll.setTsc n).jr.frozenAc = true) := by
  obtain ⟨⟨r, e, j, b, st, l, ht, -⟩, -⟩ := issueAll_setTsc_frame s n
  obtain ⟨⟨r', e', l', hi⟩, hw⟩ := issueAll_issues s
  obtain ⟨⟨x, hx⟩, hf⟩ := setTsc_brg s.issueAll n
  have hbrg : s.issueAll.brg = s.brg := by rw [hi]
  have hfrozen : s.issueAll.frozen = s.frozen := hw.flag F.LDG_STATUS_FROZEN (by decide)
  exact ⟨by rw [ht], ⟨x, by rw [hx, hbrg]⟩, by rw [ht], fun h => hf (hfrozen.trans h)⟩

/-! ### The tick boundary -/

theorem tickBoundary_ticks (x : List (Fin 48)) (die : Vector (BitVec 16) 12) (h1 : s.psq.core = true) (h2 : s.psq.pll = true) :
    Leads s (.tickBoundary x die) fun t => t.tsc = BitVec.ofNat 64 ((s.tick + 1) * 4000) ∧ t.brg.gotUp = false
      ∧ t.seq.served = 0 ∧ t.brg.received = none := by
  have hexec : exec (.tickBoundary x die) s = .next (((s.nextTick).driveTick x).coreTick die) :=
    congrArg Host.Outcome.next (if_pos (by rw [h1, h2]; rfl))
  have htick : s.issueAll.tick = s.tick := by
    obtain ⟨⟨r, e, l, hi⟩, -⟩ := issueAll_issues s
    rw [hi]
    rfl
  have htsc : s.nextTick.tsc = BitVec.ofNat 64 ((s.tick + 1) * 4000) := by
    rw [← htick]
    exact (issueAll_setTsc_brg s _).1
  generalize s.nextTick = a at hexec htsc
  have hb := (coreTick_bridged _ die).trans (unserved_bridged (driveTick_bridged a x))
  generalize (a.driveTick x).coreTick die = b at hexec hb
  simp only [State.bridged, Prod.mk.injEq] at hb
  obtain ⟨-, h, hserved, hgot, hreceived, -⟩ := hb
  exact ⟨_, hexec, h.trans htsc, hgot, hserved, hreceived⟩

/-! ### Frames up -/

theorem frameWake_pend (u : Fin 16) : (s.frameWake.thr u).pend.getLsbD 49 = true := by
  rw [State.frameWake, thr_mapThr, Thread.setPend]
  simp

/-- The frame in time: its count, and what BRG_STATUS shows of it. -/
def State.frameCame (cor late : Bool) : State :=
  let a : State := { s with brg := { s.brg with missUp := 0, goodUp := s.brg.goodUp + 1 } }
  let b := (a.putF F.BRG_STATUS_MISS_UP 0).putB F.BRG_STATUS_LATE_UP late
  let c := if cor then b.incR R.BRG_CORR 1 else b
  if late then c.incR R.BRG_LATE_UP 1 else c

theorem frameCame_counts (cor late : Bool) : (s.frameCame cor late).brg.missUp = 0
    ∧ (s.frameCame cor late).brg.latched = s.brg.latched ∧ (s.frameCame cor late).tsc = s.tsc := by
  cases cor <;> cases late <;> exact ⟨rfl, rfl, rfl⟩

theorem upwardFrame_comes {cyc : Nat} (cor : Bool) (ain : Vector Ain 64) (sc : Vector (Vector (Int × Int) 20) 6) (h1 : s.psq.core = true)
    (h2 : s.flag F.BRG_STATUS_UP = true) (h3 : s.brg.gotUp = false) (h4 : max s.cycle cyc ≤ 600) :
    Leads s (.upwardFrame cyc cor ain sc) fun t => t.tsc = s.tsc + BitVec.ofNat 64 (max s.cycle cyc - s.cycle)
      ∧ t.brg.gotUp = true ∧ t.brg.missUp = 0 ∧ t.up = s.brg.latched ∧ t.brg.samples.ain = ain
      ∧ ∀ u, (t.thr u).pend.getLsbD 49 = true := by
  have hexec : exec (.upwardFrame cyc cor ain sc) s = .next ((((s.issueAll.setTsc (s.tsc + BitVec.ofNat 64 (max s.cycle cyc - s.cycle))).frameCame
      cor (Nat.blt 300 (max s.cycle cyc))).frameIn ain sc).frameWake) := by
    change execUpwardFrame cyc cor ain sc s = _
    unfold execUpwardFrame
    dsimp only
    rw [if_pos (by rw [h1, h2, h3, Nat.ble_eq_true_of_le h4]; rfl), State.frameCame]
    simp only [Nat.blt_eq]
  obtain ⟨ht, ⟨x, hx⟩, -, -⟩ := issueAll_setTsc_brg s (s.tsc + BitVec.ofNat 64 (max s.cycle cyc - s.cycle))
  generalize s.issueAll.setTsc (s.tsc + BitVec.ofNat 64 (max s.cycle cyc - s.cycle)) = a at hexec ht hx
  have hla : a.brg.latched = s.brg.latched := by rw [hx]
  obtain ⟨hmb, hlb, htsc⟩ := frameCame_counts a cor (Nat.blt 300 (max s.cycle cyc))
  generalize a.frameCame cor (Nat.blt 300 (max s.cycle cyc)) = b at hexec hmb hlb htsc
  have hb := (mapThr_bridged (b.frameIn ain sc) fun _ h => h.setPend 49).trans (frameIn_bridged b ain sc)
  simp only [State.bridged, Prod.mk.injEq] at hb
  obtain ⟨hup, htsc', -, hgot, -, hmiss, hsamples⟩ := hb
  exact ⟨_, hexec, htsc'.trans (htsc.trans ht), hgot, hmiss.trans hmb, hup.trans (hlb.trans hla), congrArg Samples.ain hsamples,
    frameWake_pend _⟩

end Sys2Proof.Machine

end

/-! ## The bridge's losses and its safe state (R18, R20, R23–R25, R256) -/
section
namespace Sys2Proof.Machine

variable (s : State)

/-! ### A frame up that does not come -/

/-- A frame missed at the deadline is counted and reported, and FRAME is pending. -/
def State.frameMissed (n : Nat) (w : Word) : State :=
  let a : State := { s with brg := { s.brg with gotUp := true, missUp := n, goodUp := 0 } }
  let b := ((a.putF F.BRG_STATUS_MISS_UP 1).putF F.BRG_STATUS_LATE_UP 0).incR R.BRG_MISS_UP 1
  (b.raise Ev.BRG_FRAME_MISS 0 w).frameWake

theorem frameMissed_counts (n : Nat) (w : Word) : (s.frameMissed n w).brg.missUp = n ∧ (∀ u, ((s.frameMissed n w).thr u).pend.getLsbD 49 = true)
    ∧ (s.frameMissed n w).flag F.BRG_STATUS_MISS_UP = true ∧ (s.frameMissed n w).Arisen Ev.BRG_FRAME_MISS 0 := by
  unfold State.frameMissed
  extract_lets src a b
  refine ⟨rfl, frameWake_pend _, ?_, (arisen_raise b Ev.BRG_FRAME_MISS 0 w 0#32).of_eq rfl rfl⟩
  calc b.flag F.BRG_STATUS_MISS_UP
      = ((a.putF F.BRG_STATUS_MISS_UP 1).putF F.BRG_STATUS_LATE_UP 0).flag F.BRG_STATUS_MISS_UP :=
        flag_congr (getR_incR_ne _ _ (by decide))
    _ = (a.putF F.BRG_STATUS_MISS_UP 1).flag F.BRG_STATUS_MISS_UP := flag_putF_apart (f := F.BRG_STATUS_LATE_UP) 0 (Or.inr (by decide))
    _ = true := (flag_putF_same a F.BRG_STATUS_MISS_UP 1 (by decide)).trans (by decide)

theorem upwardFrameDeadline_misses (bad : Bool) (h1 : s.psq.core = true) (h2 : s.flag F.BRG_STATUS_UP = true) (h3 : s.brg.gotUp = false)
    (h4 : s.cycle ≤ 600) (h5 : s.brg.missUp = 0) :
    Leads s (.upwardFrameDeadline bad) fun t => t.brg.missUp = 1 ∧ (∀ u, (t.thr u).pend.getLsbD 49 = true)
      ∧ t.flag F.BRG_STATUS_MISS_UP = true ∧ t.Arisen Ev.BRG_FRAME_MISS 0 := by
  obtain ⟨-, ⟨x, hx⟩, -, -⟩ := issueAll_setTsc_brg s (s.tsc + BitVec.ofNat 64 (600 - s.cycle))
  have hmiss : (s.issueAll.setTsc (s.tsc + BitVec.ofNat 64 (600 - s.cycle))).brg.missUp + 1 = 1 := by rw [hx, h5]
  have hexec : exec (.upwardFrameDeadline bad) s = .next ((s.issueAll.setTsc (s.tsc + BitVec.ofNat 64 (600 - s.cycle))).frameMissed 1
      (if bad then 2#32 else 1#32)) := by
    change execUpwardFrameDeadline bad s = _
    unfold execUpwardFrameDeadline
    dsimp only
    rw [if_pos (by rw [h1, h2, h3, Nat.ble_eq_true_of_le h4]; rfl), hmiss, if_neg (by decide), State.frameMissed]
  exact ⟨_, hexec, frameMissed_counts _ 1 _⟩

/-! ### Frames down -/

/-- The record of a frame frees no ledger that a fall of AC_OK has frozen. -/
theorem jfullFollow_frozen (h : s.frozen = true) (hac : s.jr.frozenAc = true) : s.jfullFollow.frozen = true := by
  unfold State.jfullFollow
  split
  · rw [State.frozen, State.freezeFollow, flag_putB_same _ _ _ (by decide) (by decide)]
    change (s.jr.frozenLoss || s.jr.frozenAc || _ || _) = true
    rw [hac]
    simp
  · exact h

theorem jfullFollow_brg : s.jfullFollow.brg = s.brg ∧ s.jfullFollow.tsc = s.tsc := by
  unfold State.jfullFollow
  split <;> exact ⟨rfl, rfl⟩

theorem writeHistory_frame (e : Event) : (s.writeHistory e).brg = s.brg ∧ (s.writeHistory e).tsc = s.tsc
    ∧ (s.writeHistory e).frozen = s.frozen := by
  unfold State.writeHistory
  extract_lets i a
  have ha : a.brg = s.brg ∧ a.tsc = s.tsc ∧ a.getR R.LDG_STATUS = s.getR R.LDG_STATUS := by
    refine ⟨foldl_same State.brg _ (fun b k => by rfl) s, foldl_same State.tsc _ (fun b k => by rfl) s,
      foldl_same (fun x => x.getR R.LDG_STATUS) _ (fun b k => getR_putR_ne b _ ?_) s⟩
    simp only [R.EVT_HIST, R.LDG_STATUS]
    omega
  clear_value a
  obtain ⟨h1, h2, h3⟩ := ha
  exact ⟨h1, h2, flag_congr ((getR_putF_ne a F.EVT_HIST_NEXT _ _ (by decide)).trans h3)⟩

theorem sendRecord_frame : s.sendRecord.brg = s.brg ∧ s.sendRecord.tsc = s.tsc
    ∧ (s.frozen = true → s.jr.frozenAc = true → s.sendRecord.frozen = true) := by
  unfold State.sendRecord
  extract_lets all later src a
  have ha : a.brg = s.brg ∧ a.tsc = s.tsc ∧ a.frozen = s.frozen ∧ a.jr.frozenAc = s.jr.frozenAc := ⟨rfl, rfl, rfl, rfl⟩
  clear_value a
  obtain ⟨h1, h2, h3, h4⟩ := ha
  exact ⟨(jfullFollow_brg a).1.trans h1, (jfullFollow_brg a).2.trans h2, fun h hac => jfullFollow_frozen a (h3.trans h) (h4.trans hac)⟩

/-- A frame down takes the writes with it; it thaws no ledger that froze for a fall of AC_OK. -/
theorem frameOut_carries (h : s.frozen = true → s.jr.frozenAc = true) : s.frameOut.tsc = s.tsc ∧ s.frameOut.brg.missDn = 0
    ∧ s.frameOut.brg.received = some { s.brg.out with endStop := s.rst.endStop } ∧ s.frameOut.brg.out.writes = [] := by
  unfold State.frameOut
  extract_lets out f bridge reset a was b hist ev c src d
  have ha : a.tsc = s.tsc ∧ a.brg.received = some f ∧ a.brg.out.writes = [] ∧ a.frozen = s.frozen ∧ a.jr = s.jr := ⟨rfl, rfl, rfl, rfl, rfl⟩
  have hc : c.tsc = b.tsc ∧ c.brg = b.brg ∧ c.frozen = b.frozen :=
    ⟨foldl_same State.tsc _ (fun x e => (writeHistory_frame x e).2.1) _, foldl_same State.brg _ (fun x e => (writeHistory_frame x e).1) _,
      foldl_same State.frozen _ (fun x e => (writeHistory_frame x e).2.2) _⟩
  have hd : d.tsc = c.tsc ∧ d.brg.missDn = 0 ∧ d.brg.received = c.brg.received ∧ d.brg.out = c.brg.out ∧ d.frozen = c.frozen :=
    ⟨rfl, rfl, rfl, rfl, rfl⟩
  clear_value d c
  obtain ⟨hb1, hb2, hb3⟩ := sendRecord_frame a
  obtain ⟨ha1, ha2, ha3, ha4, ha5⟩ := ha
  obtain ⟨hc1, hc2, hc3⟩ := hc
  obtain ⟨hd1, hd2, hd3, hd4, hd5⟩ := hd
  have hthaw : ¬(was && !d.frozen) = true := by
    intro hw
    rw [Bool.and_eq_true, hd5, hc3] at hw
    obtain ⟨hwas, hnot⟩ := hw
    rw [hb3 hwas (ha5 ▸ h (ha4 ▸ hwas))] at hnot
    cases hnot
  rw [if_neg hthaw]
  exact ⟨hd1.trans (hc1.trans (hb2.trans ha1)), hd2, hd3.trans (by rw [hc2, hb1, ha2]), by rw [hd4, hc2, hb1, ha3]⟩

theorem downwardFrame_carries (cor : Bool) (h1 : s.psq.core = true) (h2 : s.flag F.BRG_STATUS_UP = true) (h3 : s.brg.received = none)
    (h4 : s.cycle ≤ 3700) (h5 : s.frozen = false) :
    Leads s (.downwardFrame cor) fun t => t.tsc = s.tsc + BitVec.ofNat 64 (3400 - s.cycle) ∧ t.brg.missDn = 0
      ∧ t.brg.received = some { s.brg.out with endStop := s.rst.endStop } ∧ t.brg.out.writes = [] := by
  have hexec : exec (.downwardFrame cor) s = .next ((if cor then (s.issueAll.setTsc (s.tsc + BitVec.ofNat 64 (3400 - s.cycle))).incR R.BRG_CORR 1
      else s.issueAll.setTsc (s.tsc + BitVec.ofNat 64 (3400 - s.cycle))).frameOut) :=
    congrArg Host.Outcome.next (if_pos (by rw [h1, h2, h3, Nat.ble_eq_true_of_le h4]; rfl))
  obtain ⟨ht, ⟨x, hx⟩, hr, hf⟩ := issueAll_setTsc_brg s (s.tsc + BitVec.ofNat 64 (3400 - s.cycle))
  generalize s.issueAll.setTsc (s.tsc + BitVec.ofNat 64 (3400 - s.cycle)) = a at hexec ht hx hr hf
  have hout : a.brg.out = s.brg.out := by rw [hx]
  have hb : ∀ b : State, b = (if cor then a.incR R.BRG_CORR 1 else a) → b.tsc = a.tsc ∧ b.brg = a.brg ∧ b.rst = a.rst ∧ b.frozen = a.frozen
      ∧ b.jr = a.jr := by
    rintro b rfl
    split
    · exact ⟨rfl, rfl, rfl, flag_congr (getR_incR_ne a 1 (by decide)), rfl⟩
    · exact ⟨rfl, rfl, rfl, rfl, rfl⟩
  generalize hdef : (if cor then a.incR R.BRG_CORR 1 else a) = b at hexec
  obtain ⟨hb1, hb2, hb3, hb4, hb5⟩ := hb b hdef.symm
  obtain ⟨k1, k2, k3, k4⟩ := frameOut_carries b fun h => by rw [hb5]; exact hf h5 (hb4 ▸ h)
  exact ⟨_, hexec, k1.trans (hb1.trans ht), k2, k3.trans (by rw [hb2, hout, hb3, hr]), k4⟩

theorem downwardFrameMissed_counts (bad : Bool) (h1 : s.psq.core = true) (h2 : s.flag F.BRG_STATUS_UP = true) (h3 : s.brg.missDn = 0) :
    Leads s (.downwardFrameMissed bad) fun t => t.brg.missDn = 1 ∧ t.brg.received = none ∧ t.Arisen Ev.BRG_FRAME_MISS 1 := by
  have hexec : exec (.downwardFrameMissed bad) s = .next ((({ s with brg := { s.brg with missDn := 1, goodDn := 0, received := none } } : State).incR
      R.BRG_MISS_DN 1).raise Ev.BRG_FRAME_MISS 1 (if bad then 2#32 else 1#32)) := by
    change execDownwardFrameMissed bad s = _
    unfold execDownwardFrameMissed
    dsimp only
    rw [if_pos (by rw [h1, h2]; rfl), h3, if_neg (by omega)]
  exact ⟨_, hexec, rfl, rfl, arisen_raise ..⟩

end Sys2Proof.Machine

end

/-! ## The safe state of the bridge and its loss (R23, R24, R256) -/
section
namespace Sys2Proof.Machine

variable (s : State)

/-! ### LEN and the lines of BRG_STATUS -/

/-- A field of BRG_STATUS below LINES stays under a write of LINES. -/
theorem putLines_flag {f : Fld} (i : Nat) (b : Bool) (hf : f.lo + f.w ≤ 8) : (s.putBitF F.BRG_STATUS_LINES i b).flag f = s.flag f := by
  refine flag_putF_apart (f := F.BRG_STATUS_LINES) _ (Or.inr ⟨by omega, Or.inl ?_⟩)
  exact hf

theorem linesFollow_flag {f : Fld} (hf : f.lo + f.w ≤ 8) : s.linesFollow.flag f = s.flag f := by
  rw [State.linesFollow, putLines_flag _ 3 _ hf, putLines_flag _ 1 _ hf, putLines_flag _ 0 _ hf]

/-- A stop pulse or an open interlock holds LEN low. -/
theorem lenDrive_low (h : s.brg.ilk ≠ 0#4 ∨ s.brg.stopped = true) : s.lenDrive.brg.len = 0 := by
  have hoff : (s.brg.ilk == 0#4 && !s.outputsHeld && !s.brg.stopped) = false := by
    obtain h | h := h
    · rw [beq_false_of_ne h, Bool.false_and, Bool.false_and]
    · rw [h, Bool.not_true, Bool.and_false]
  unfold State.lenDrive
  dsimp only
  rw [hoff]
  rfl

theorem safeStateExit_exits (h1 : s.flag F.BRG_STATUS_DRIVE_SAFE = true) (h2 : s.devIs 5 = true) (h3 : s.brg.kill = false)
    (h4 : 8 ≤ s.brg.goodUp) (h5 : 8 ≤ s.brg.goodDn) : Leads s .safeStateExit fun t => t.flag F.BRG_STATUS_DRIVE_SAFE = false := by
  have hexec : exec .safeStateExit s = .next (((s.putF F.BRG_STATUS_DRIVE_SAFE 0).linesFollow).lenDrive) :=
    congrArg Host.Outcome.next (if_pos (by rw [h1, h2, h3, Nat.ble_eq_true_of_le h4, Nat.ble_eq_true_of_le h5]; rfl))
  have hflag : (s.putF F.BRG_STATUS_DRIVE_SAFE 0).flag F.BRG_STATUS_DRIVE_SAFE = false :=
    (flag_putF_same s F.BRG_STATUS_DRIVE_SAFE 0 (by decide)).trans (by decide)
  have hlen : ∀ a : State, a.lenDrive.flag F.BRG_STATUS_DRIVE_SAFE = a.flag F.BRG_STATUS_DRIVE_SAFE := fun _ => rfl
  exact ⟨_, hexec, (hlen _).trans ((linesFollow_flag _ (f := F.BRG_STATUS_DRIVE_SAFE) (by decide)).trans hflag)⟩

/-! ### KILL_DN -/

/-- The Drive die's outputs are off: it is in its safe state. -/
def State.madeSafe : State := { s.putF F.BRG_STATUS_DRIVE_SAFE 1 with brg := { s.brg with goodUp := 0, goodDn := 0 } }

theorem madeSafe_safe : s.madeSafe.flag F.BRG_STATUS_DRIVE_SAFE = true ∧ s.madeSafe.brg.len = s.brg.len := by
  have hflag : s.madeSafe.flag F.BRG_STATUS_DRIVE_SAFE = (s.putF F.BRG_STATUS_DRIVE_SAFE 1).flag F.BRG_STATUS_DRIVE_SAFE := rfl
  exact ⟨hflag.trans ((flag_putF_same s F.BRG_STATUS_DRIVE_SAFE 1 (by decide)).trans (by decide)), rfl⟩

theorem driveSafe_safe : s.driveSafe.flag F.BRG_STATUS_DRIVE_SAFE = true ∧ s.driveSafe.brg.len = 0 := by
  have hdef : s.driveSafe = s.outputsOff.madeSafe.linesFollow := rfl
  have hlines : ∀ a : State, a.linesFollow.brg = a.brg := fun _ => rfl
  have hlen : s.outputsOff.brg.len = 0 := by
    unfold State.outputsOff
    dsimp only
  obtain ⟨h1, h2⟩ := madeSafe_safe s.outputsOff
  rw [hdef, linesFollow_flag _ (f := F.BRG_STATUS_DRIVE_SAFE) (by decide), hlines]
  exact ⟨h1, h2.trans hlen⟩

/-- A bridge that was known to be lost has its loss reported. -/
def State.lossTold : State := if s.flag F.BRG_STATUS_LOST then s.raise Ev.BRIDGE_LOSS else s

theorem lossTold_safe {s : State} (hsafe : s.flag F.BRG_STATUS_DRIVE_SAFE = true) (hlen : s.brg.len = 0) :
    s.lossTold.flag F.BRG_STATUS_DRIVE_SAFE = true ∧ s.lossTold.brg.len = 0 := by
  unfold State.lossTold
  split
  · exact ⟨hsafe, hlen⟩
  · exact ⟨hsafe, hlen⟩

theorem exec_killDnKill : exec .killDnKill s = .next (if s.brg.kill && !s.flag F.BRG_STATUS_DRIVE_SAFE then s.driveSafe.lossTold else s) := rfl

theorem killDnKill_safe (h1 : s.brg.kill = true) (h2 : s.flag F.BRG_STATUS_DRIVE_SAFE = false) :
    Leads s .killDnKill fun t => t.flag F.BRG_STATUS_DRIVE_SAFE = true ∧ t.brg.len = 0 := by
  have hexec := exec_killDnKill s
  rw [if_pos (by rw [h1, h2]; rfl)] at hexec
  obtain ⟨hsafe, hlen⟩ := driveSafe_safe s
  exact ⟨_, hexec, lossTold_safe hsafe hlen⟩

theorem killDnStopPulse_stops (h1 : s.devIs 5 = true) (h2 : s.brg.stopped = false) :
    Leads s .killDnStopPulse fun t => t.brg.stopped = true ∧ t.brg.len = 0 := by
  have hexec : exec .killDnStopPulse s = .next ({ s.each (List.finRange 4) State.heaterOff with
      brg := { (s.each (List.finRange 4) State.heaterOff).brg with stopped := true } } : State).lenDrive :=
    congrArg Host.Outcome.next (if_pos (by rw [h1, h2]; rfl))
  exact ⟨_, hexec, rfl, lenDrive_low _ (Or.inr rfl)⟩

/-! ### Bridge loss -/

/-- A journal entry leaves what froze the ledger. -/
theorem journal_frozenLoss (e : JEntry) : (s.journal e).jr.frozenLoss = s.jr.frozenLoss := by
  unfold State.journal
  split
  · rfl
  · unfold State.jfullCheck
    split <;> rfl

theorem spoilStn_frozenLoss (i : Fin 6) : (s.spoilStn i).jr.frozenLoss = s.jr.frozenLoss := by
  unfold State.spoilStn State.spoil
  split
  · split
    · split
      · rfl
      · exact journal_frozenLoss s _
    · rfl
  · rfl

theorem slewStart_frozenLoss (i : Fin 6) : (s.slewStart i).jr.frozenLoss = s.jr.frozenLoss := by
  unfold State.slewStart
  extract_lets busy
  split <;> rfl

theorem inhibit_frozenLoss (i : Fin 6) : (s.inhibit i).jr.frozenLoss = s.jr.frozenLoss := by
  have hwithdraw : ∀ n, (s.withdraw n).jr = s.jr := fun n => by
    unfold State.withdraw
    dsimp only
    split <;> rfl
  unfold State.inhibit
  split
  · split
    · rfl
    · extract_lets t from_ rest a b
      have hlose : ∀ (x : State) n, (x.loseDots i n).jr = x.jr := fun _ _ => rfl
      have ha : a.jr = s.jr := (hlose _ _).trans (hwithdraw _)
      clear_value a
      have hb : b.jr = s.jr := Eq.trans rfl ha
      clear_value b
      have hput : ((b.spoilStn i).putF (F.DEC_STATUS_STATE i) 5).jr = (b.spoilStn i).jr := rfl
      have hslew : ∀ x : State, x.slewStarts.jr.frozenLoss = x.jr.frozenLoss :=
        fun x => foldl_same (fun y => y.jr.frozenLoss) _ slewStart_frozenLoss x
      rw [hslew, hput, spoilStn_frozenLoss, hb]
  · rfl

theorem gateFollow_frozenLoss : s.gateFollow.jr.frozenLoss = s.jr.frozenLoss := by
  refine foldl_same (fun x => x.jr.frozenLoss) _ (fun b i => ?_) s
  split
  · exact inhibit_frozenLoss b i
  · rfl

theorem noTrip {s : State} (h : s.brg.tripDue = false) : (if s.brg.tripDue = true then s.tripAnswer else s) = s :=
  if_neg (by rw [h]; decide)

theorem safeUp_freezes (h1 : s.flag F.BRG_STATUS_DRIVE_SAFE = true) (h2 : s.brg.tripDue = false) (h3 : s.brg.kill = true) :
    Leads s .safeUp fun t => t.jr.frozenLoss = true := by
  have hexec : exec .safeUp s = .next (s.freezeLoss.gateFollow) := by
    change execSafeUp s = _
    unfold execSafeUp
    dsimp only
    rw [if_pos h1, noTrip h2, if_pos h3]
  exact ⟨_, hexec, gateFollow_frozenLoss s.freezeLoss⟩

/-- The register blocks that lie below the bridge's. -/
def belowBridge : List Nat := List.range 0x19

theorem enterFault_below : State.Within belowBridge s s.enterFault := by
  have hsend : ∀ (a : State) (p : Fin 2) (ty : BitVec 8) (d : BitVec 4) l, State.Within belowBridge a (a.chnSend p ty d l) := by
    intro a p ty d l
    unfold State.chnSend State.chnQueue
    split
    · exact fun _ _ => rfl
    · exact (State.Within.refl _ a).incR 1 (by decide)
  unfold State.enterFault
  split
  · exact .refl _ s
  · have h1 : State.Within belowBridge s s.dropReload := by
      unfold State.dropReload
      extract_lets v a
      split
      · exact ((State.Within.refl _ s).putF 0 (by decide)).putF 0 (by decide)
      · exact fun _ _ => rfl
    have h2 : ∀ a : State, State.Within belowBridge a (a.setDev 6) := fun a => by
      unfold State.setDev State.signal
      split
      · exact .refl _ a
      · split <;> exact (State.Within.refl _ a).putF 6 (by decide)
    have h3 : ∀ a : State, State.Within belowBridge a a.suspendAll := fun a => (State.Within.refl _ a).putF 1 (by decide)
    have hstop : ∀ a : State, State.Within belowBridge a a.stopSend := fun _ _ _ => rfl
    have h4 : ∀ a : State, State.Within belowBridge a (a.chnAlarm 1 0) := fun a => by
      unfold State.chnAlarm
      dsimp only
      split
      · exact State.Within.trans (State.Within.trans (hsend a 0 _ _ _) (hsend _ 1 _ _ _)) (hstop _)
      · exact State.Within.trans (hsend a 0 _ _ _) (hsend _ 1 _ _ _)
    exact State.Within.trans (State.Within.trans (State.Within.trans h1 (h2 _)) (h3 _)) (h4 _)

theorem motFault_below : State.Within belowBridge s s.motFault := by
  refine .foldl _ (.refl _ s) fun b n _ => ?_
  have hblock : ∀ f : Fld, f.off = R.MOT_STATUS n → f.off / 65536 ∈ belowBridge := fun f h => by
    rw [h]
    simp only [R.MOT_STATUS, belowBridge, List.mem_range]
    omega
  have hput : ∀ (a : State) (f : Fld) v, f.off = R.MOT_STATUS n → State.Within belowBridge a (a.putF f v) :=
    fun a f v h => (State.Within.refl _ a).putF v (hblock f h)
  have hmot : ∀ a : State, State.Within belowBridge a (a.updMot n fun m => { m with startAt := none }) := fun _ _ _ => rfl
  have hlimits : State.Within belowBridge b (b.noLimits n) := by
    unfold State.noLimits
    exact State.Within.trans (State.Within.trans (State.Within.trans (hput b _ 0 rfl) (hput _ _ 0 rfl)) (hput _ _ 0 rfl)) (hput _ _ 0 rfl)
  exact State.Within.trans (State.Within.trans hlimits (hmot _)) (hput _ _ 5 rfl)

/-- KILL_DN is driven, and BRG_STATUS shows the loss. -/
def State.lossShown : State :=
  (((({ s with brg := { s.brg with kill := true } } : State).putF F.BRG_STATUS_LOST 1).putF F.BRG_STATUS_UP 0).putF
    F.DEV_STATE_BRIDGE_UP 0).linesFollow

theorem lossShown_shows : s.lossShown.flag F.BRG_STATUS_LOST = true ∧ s.lossShown.flag F.BRG_STATUS_UP = false := by
  unfold State.lossShown
  generalize ({ s with brg := { s.brg with kill := true } } : State) = a
  have hoff : ∀ f : Fld, f.lo + f.w ≤ 8 → f.off ≠ R.DEV_STATE →
      ((((a.putF F.BRG_STATUS_LOST 1).putF F.BRG_STATUS_UP 0).putF F.DEV_STATE_BRIDGE_UP 0).linesFollow).flag f
        = ((a.putF F.BRG_STATUS_LOST 1).putF F.BRG_STATUS_UP 0).flag f :=
    fun f hf hd => (linesFollow_flag _ hf).trans (flag_putF_apart (f := F.DEV_STATE_BRIDGE_UP) 0 (Or.inl hd))
  have hlost : ((a.putF F.BRG_STATUS_LOST 1).putF F.BRG_STATUS_UP 0).flag F.BRG_STATUS_LOST = (a.putF F.BRG_STATUS_LOST 1).flag F.BRG_STATUS_LOST :=
    flag_putF_apart (f := F.BRG_STATUS_UP) 0 (Or.inr (by decide))
  rw [hoff F.BRG_STATUS_LOST (by decide) (by decide), hoff F.BRG_STATUS_UP (by decide) (by decide), hlost,
    flag_putF_same a F.BRG_STATUS_LOST 1 (by decide), flag_putF_same _ F.BRG_STATUS_UP 0 (by decide)]
  decide

/-- The device enters FAULT, where its state has a way to it, with the host interface up. -/
def State.lossFault : State :=
  let d := if s.devIs 2 || s.devIs 4 || s.devIs 5 then { s.enterFault with rst := { s.enterFault.rst with stage := .none } } else s
  if d.devIs 6 then d.hostReady true else d

theorem lossFault_below : State.Within belowBridge s s.lossFault := by
  have hready : ∀ a : State, State.Within belowBridge a (a.hostReady true) := fun a => by
    unfold State.hostReady State.stallFollow
    exact (((State.Within.refl _ a).putF _ (by decide)).putF _ (by decide)).putF _ (by decide)
  have hrst : ∀ (a : State) r, State.Within belowBridge a { a with rst := r } := fun _ _ _ _ => rfl
  unfold State.lossFault
  extract_lets stay rst d
  have hd : State.Within belowBridge s d := by
    simp only [d]
    split
    · exact State.Within.trans (enterFault_below s) (hrst _ _)
    · exact .refl _ s
  clear_value d
  split
  · exact State.Within.trans hd (hready d)
  · exact hd

theorem coreBridgeLoss_eq (h : s.flag F.BRG_STATUS_LOST = false) :
    s.coreBridgeLoss = (s.lossShown.lossFault.motFault.freezeLoss).gateFollow := by
  unfold State.coreBridgeLoss State.lossFault State.lossShown
  rw [if_neg (by rw [h]; decide)]

theorem lossFault_freezes : State.Within belowBridge s (s.lossFault.motFault.freezeLoss).gateFollow := by
  have hfreeze : ∀ a : State, State.Within belowBridge a a.freezeLoss := fun a => State.Within.putF (fun _ _ => rfl) _ (by decide)
  have hgate : ∀ a : State, State.Within belowBridge a a.gateFollow := fun a => (gateFollow_within a).mono (by decide)
  exact State.Within.trans (State.Within.trans (State.Within.trans (lossFault_below s) (motFault_below _)) (hfreeze _)) (hgate _)

/-- The bridge is lost: BRG_STATUS shows it, and the ledger freezes. -/
theorem coreBridgeLoss_loses (h : s.flag F.BRG_STATUS_LOST = false) : s.coreBridgeLoss.flag F.BRG_STATUS_LOST = true
    ∧ s.coreBridgeLoss.flag F.BRG_STATUS_UP = false ∧ s.coreBridgeLoss.jr.frozenLoss = true := by
  obtain ⟨hlost, hup⟩ := lossShown_shows s
  have hend := lossFault_freezes s.lossShown
  rw [coreBridgeLoss_eq s h]
  exact ⟨(hend.flag F.BRG_STATUS_LOST (by decide)).trans hlost, (hend.flag F.BRG_STATUS_UP (by decide)).trans hup,
    gateFollow_frozenLoss _⟩

theorem safeUp_loses (h1 : s.flag F.BRG_STATUS_DRIVE_SAFE = true) (h2 : s.brg.tripDue = false) (h3 : s.brg.kill = false)
    (h4 : s.flag F.BRG_STATUS_LOST = false) :
    Leads s .safeUp fun t => t.flag F.BRG_STATUS_LOST = true ∧ t.flag F.BRG_STATUS_UP = false ∧ t.jr.frozenLoss = true := by
  have hexec : exec .safeUp s = .next s.coreBridgeLoss := by
    change execSafeUp s = _
    unfold execSafeUp
    dsimp only
    rw [if_pos h1, noTrip h2, if_neg (by rw [h3]; decide)]
  exact ⟨_, hexec, coreBridgeLoss_loses s h4⟩

/-! ### Interlocks -/

theorem ilk_opens (x : BitVec 4) (i : Fin 4) : (x ||| BitVec.ofNat 4 (2 ^ i.val)).getLsbD i = true
    ∧ x ||| BitVec.ofNat 4 (2 ^ i.val) ≠ 0#4 := by
  have hbit : (x ||| BitVec.ofNat 4 (2 ^ i.val)).getLsbD i = true := by
    rw [BitVec.getLsbD_or, BitVec.getLsbD_ofNat, decide_eq_true i.isLt, Nat.testBit_two_pow_self, Bool.and_self, Bool.or_true]
  refine ⟨hbit, fun h => ?_⟩
  rw [h] at hbit
  simp at hbit

theorem hvTripNow_brg (c : Fin 24) (n : Nat) : (s.hvTripNow c n).brg = s.brg := by
  obtain ⟨⟨r, v, e, l, h⟩, -⟩ := hvTripNow_hvs s c n
  rw [h]

theorem heaterJudgeAll_brg : s.heaterJudgeAll.brg = s.brg := by
  obtain ⟨⟨r, v, l, h⟩, -⟩ := heaterJudgeAll_heats s
  rw [h]

theorem gateFollow_brg : s.gateFollow.brg = s.brg := by
  obtain ⟨r, k, n, l, j, h⟩ := gateFollow_stops s
  rw [h]

theorem ilkOpen_opens (i : Fin 4) : Leads s (.ilkOpen i) fun t => t.brg.ilk.getLsbD i = true ∧ t.brg.len = 0 := by
  obtain ⟨hbit, hne⟩ := ilk_opens s.brg.ilk i
  have hexec : exec (.ilkOpen i) s = .next ((((((({ s with brg := { s.brg with ilk := s.brg.ilk ||| BitVec.ofNat 4 (2 ^ i.val) } } : State).putBitF
      F.BRG_STATUS_LINES 2 true).lenDrive).each (List.finRange 24) fun a c =>
        if bit (a.getF (F.HVS_CFG_ILK c)) i then a.hvTripNow c 3 else a)).heaterJudgeAll).gateFollow) := rfl
  have hlow : ∀ a : State, a.brg.ilk = s.brg.ilk ||| BitVec.ofNat 4 (2 ^ i.val) → a.lenDrive.brg.len = 0
      ∧ a.lenDrive.brg.ilk = s.brg.ilk ||| BitVec.ofNat 4 (2 ^ i.val) := fun a h => ⟨lenDrive_low a (Or.inl (h ▸ hne)), h⟩
  obtain ⟨hlen, hilk⟩ := hlow (({ s with brg := { s.brg with ilk := s.brg.ilk ||| BitVec.ofNat 4 (2 ^ i.val) } } : State).putBitF
    F.BRG_STATUS_LINES 2 true) rfl
  generalize (({ s with brg := { s.brg with ilk := s.brg.ilk ||| BitVec.ofNat 4 (2 ^ i.val) } } : State).putBitF
    F.BRG_STATUS_LINES 2 true).lenDrive = a at hexec hlen hilk
  have hbrg : (((a.each (List.finRange 24) fun a c => if bit (a.getF (F.HVS_CFG_ILK c)) i then a.hvTripNow c 3 else a)).heaterJudgeAll).gateFollow.brg
      = a.brg := by
    rw [gateFollow_brg, heaterJudgeAll_brg]
    refine foldl_same State.brg _ (fun b c => ?_) a
    split
    · exact hvTripNow_brg b c 3
    · rfl
  exact ⟨_, hexec, by rw [hbrg, hilk]; exact hbit, by rw [hbrg]; exact hlen⟩

theorem ilkClose_closes (i : Fin 4) : Leads s (.ilkClose i) fun t => t.brg.ilk = s.brg.ilk &&& ~~~BitVec.ofNat 4 (2 ^ i.val)
    ∧ t.regs = (s.putBitF F.BRG_STATUS_LINES 2 (t.brg.ilk != 0#4)).regs :=
  ⟨_, rfl, rfl, rfl⟩

/-- Settles O27, command by command. -/
theorem bridgeCommandsAct : Obligations.BridgeCommandsAct := by
  intro s
  exact ⟨tickBoundary_ticks s, fun _ => upwardFrame_comes s, upwardFrameDeadline_misses s, downwardFrame_carries s,
    downwardFrameMissed_counts s, safeStateExit_exits s, killDnKill_safe s, killDnStopPulse_stops s, safeUp_freezes s, safeUp_loses s,
    ilkOpen_opens s, ilkClose_closes s⟩

end Sys2Proof.Machine

end
